-- ==== Sys2Proof/Word.lean ====
section
/-! DEFINITION. The 32-bit word, bit fields of it, and sparse tables in one canonical form. -/

namespace Sys2Proof

/-- One register word (R16). -/
abbrev Word := BitVec 32

/-- One byte of a frame or a message. -/
abbrev Byte := BitVec 8

/-- The bits `[lo + width - 1 : lo]` of a number. -/
def bitsOf (n lo width : Nat) : Nat := (n >>> lo) % 2 ^ width

/-- `n` with the bits `[lo + width - 1 : lo]` replaced by the low bits of `v`. -/
def withBits (n lo width v : Nat) : Nat :=
  n % 2 ^ lo + (v % 2 ^ width) <<< lo + (n >>> (lo + width)) <<< (lo + width)

/-- Bit `i` of a number. -/
def bitAt (n i : Nat) : Bool := n.testBit i

/-- 1 or 0. -/
def bit (b : Bool) : Nat := cond b 1 0

/-- A field of a register word: the word's BAR0 offset, the lowest bit, the width. -/
structure Fld where
  addr : Nat
  lo : Nat
  width : Nat
  deriving DecidableEq, Repr

/-- The signed value of a `width`-bit two's complement field. -/
def signedOf (n width : Nat) : Int :=
  if n % 2 ^ width < 2 ^ (width - 1) then (n % 2 ^ width : Nat)
  else ((n % 2 ^ width : Nat) : Int) - ((2 ^ width : Nat) : Int)

/-- The `width`-bit two's complement of an integer. -/
def encodeSigned (i : Int) (width : Nat) : Nat := (i % ((2 ^ width : Nat) : Int)).toNat

/-- `i` held within the two limits. -/
def clampInt (least most i : Int) : Int := if i < least then least else if most < i then most else i

/-- `n` held within the two limits. -/
def clampNat (least most n : Nat) : Nat := if n < least then least else if most < n then most else n

/-- A sparse table: its listed keys rise strictly, and no entry holds the value that an unlisted key
reads as. -/
abbrev Table (α : Type) := List (Nat × α)

/-- The value under a key, `d` where the key is not listed. -/
def Table.get {α : Type} (d : α) (k : Nat) : Table α → α
  | [] => d
  | p :: r => bif p.1 == k then p.2 else Table.get d k r

/-- The table without the key. -/
def Table.drop {α : Type} (k : Nat) : Table α → Table α
  | [] => []
  | p :: r => bif p.1 == k then Table.drop k r else p :: Table.drop k r

/-- The table with a new entry before the first larger key. -/
def Table.place {α : Type} (k : Nat) (v : α) : Table α → Table α
  | [] => [(k, v)]
  | p :: r => bif Nat.blt k p.1 then (k, v) :: p :: r else p :: Table.place k v r

/-- The table with `v` under the key; an entry equal to the default `d` is not listed. -/
def Table.put {α : Type} [DecidableEq α] (d v : α) (k : Nat) (t : Table α) : Table α :=
  if v = d then Table.drop k t else Table.place k v (Table.drop k t)

/-- The canonical form of a table whose unlisted key `k` reads `d k`. -/
abbrev Table.wf {α : Type} (d : Nat → α) (t : Table α) : Prop :=
  t.Pairwise (fun x y => x.1 < y.1) ∧ ∀ x ∈ t, x.2 ≠ d x.1

end Sys2Proof
end

