-- ==== Sys2Proof/Syntax.lean ====
section
/-! DEFINITION. The commands of the block: one constructor per row of the opcode table, with the
operands that the row's event carries. -/

namespace Sys2Proof

/-- A bus matrix master that reaches registers: a requester of R17. -/
inductive Requester where
  | hostA
  | hostB
  | servicePort
  | sequencer
  | bulkMover
  deriving DecidableEq, Repr

/-- Memory words that a received frame meets with an uncorrectable error: the stream entries, the meter word,
the Source Table entry, the FRER word, the pass-through buffer (R146, R204). -/
structure RxFlaws where
  stream : List Nat := []
  meter : Bool := false
  source : Option Nat := none
  frer : Bool := false
  buffer : Bool := false
  deriving DecidableEq, Repr

/-- A received frame at its end (R113): the port, whether it was pre-emptable, its bytes without FCS, the FCS as
received (first byte on the wire in [7:0]), a code error, a cut, the mPackets that carried a pre-emptable frame (SMD,
fragment count as coded, bytes without the check, check), in which an SMD-S behind the first ends the frame, the PCS
stamp of its SFD in 1/16 ns, its flaws, and the FEC blocks or codewords corrected and uncorrectable and the RS-FEC
symbols corrected since the last frame end (Table 4.8). -/
structure RxEnd where
  port : Nat
  pre : Bool := false
  bytes : List Byte := []
  fcs : Nat := 0
  code : Bool := false
  cut : Bool := false
  parts : List (Nat × Nat × Nat × Nat) := []
  stamp : Nat := 0
  flaws : RxFlaws := {}
  fecCorr : Nat := 0
  fecUncorr : Nat := 0
  fecSym : Nat := 0
  deriving DecidableEq, Repr


/-- A decoded IRIG-B frame (R92, R93): the stamp of its reference marker, 1/16 ns, whether every marker is in
place, the BCD digits of seconds, minutes, hours and day of year, units first; the BCD year digits and the straight
binary seconds where the frame has those fields, whether it has a control field, and the IEEE 1344 bits. -/
structure IrigFrame where
  stamp : Nat := 0
  markers : Bool := true
  digits : List Nat := []
  year : Option (List Nat) := none
  sbs : Option Nat := none
  control : Bool := false
  parity : Bool := true
  leapPending : Bool := false
  dst : Bool := false
  offsetMinus : Bool := false
  offsetHours : Nat := 0
  offsetHalf : Bool := false
  quality : Nat := 0
  ctlYear : Option Nat := none
  deriving DecidableEq, Repr

/-- A read of a bus requester (R16, R32): the BAR, the byte offset in it, the byte enables. -/
structure BusRead where
  bar : Nat
  addr : Nat
  be : Nat
  deriving DecidableEq, Repr

/-- The words that a scan read returns, and whether the ring's state word cannot be read (R217, R242). -/
structure ScanData where
  words : List Nat
  bad : Bool
  deriving DecidableEq, Repr

/-- The count of the entry whose work has ended, and whether the ring's state word cannot be read (R221, R242). -/
structure EntryEnd where
  pos : Nat
  bad : Bool
  deriving DecidableEq, Repr

/-- The block headers that the four upstream lanes of a quadrant's link have received, oldest first (R256). -/
structure LaneHeads where
  quad : Nat
  heads : List (List Nat)
  deriving DecidableEq, Repr

/-- A unit of Quench whose quiet period ends, and the reports of the same handshake: source and cause mask (R421,
R424). -/
structure QuietEnd where
  unit : Nat
  reports : List (Nat × Nat)
  deriving DecidableEq, Repr

/-- The policy entry whose wait-to-restore time has ended, and whether a word of F reads with an uncorrectable error
(R338, R342). -/
structure WtrEnd where
  entry : Nat
  fbad : Bool := false
  deriving DecidableEq, Repr

/-- The word written to QCH_FSW_j, and the reports of the same handshake: sources with their cause masks (R418, R424). -/
structure ClearWrite where
  word : Nat
  reports : List (Nat × Nat)
  deriving DecidableEq, Repr

/-- The word written to QCH_UNIT_u, and the sources whose grace timers expire in the same handshake (R422, R424). -/
structure RecoverWrite where
  word : Nat
  due : List Nat
  deriving DecidableEq, Repr

/-- How a Service Port transaction goes (R476, R477): the accesses of earlier ones that still count as pending, and how many
words of its answer are clocked out where SP_CS_N ends it after its last address or data bit, before the whole
answer. -/
structure SvcEnd where
  waiting : Nat
  cut : Option Nat := none
  deriving DecidableEq, Repr

/-- A burst of a bus matrix master (R393 to R397): its master, the internal byte address, the words, each with its
four byte enables (a read counts them only), the masters that request the target with it, how many earlier
transactions of its kind have ended meanwhile, and whether a code word read has an uncorrectable error. -/
structure Burst where
  master : Nat
  write : Bool
  addr : Nat
  words : List (Nat × Nat)
  requesters : List Nat := []
  ended : Nat := 0
  bad : Bool := false
  deriving DecidableEq, Repr


/-- One command or event of the block: a row of the opcode table. -/
inductive Instr where
  /-- REG_WRITE (R16): A register write that has no row of its own sets or ignores fields by their access type. -/
  | regWrite (q : Requester) (bar2 : Bool) (a v be : Nat)
  /-- WIDE_LOW_WORD_READ (R17): A read of the lowest word of a wide value captures the upper words into the requester's shadow. -/
  | wideLowWordRead (q : Requester) (r : BusRead)
  /-- WIDE_UPPER_WORD_WRITE (R17): A write of an upper word of a wide value goes into the requester's staging word and marks it staged. -/
  | wideUpperWordWrite (q : Requester) (a v : Nat)
  /-- WIDE_LOW_WORD_WRITE (R17): A write of the lowest word applies the staged upper words and the whole value takes effect. -/
  | wideLowWordWrite (q : Requester) (a v : Nat)
  /-- DOORBELL (R216): A write to a doorbell address sets the ring's DB_PEND bit. -/
  | doorbell (off : Nat)
  /-- MARGIN_MEASUREMENT (R42): Every 250 ns a slack monitor measures its ring period and publishes the margin M. -/
  | marginMeasurement (u period : Nat)
  /-- VID_RAISE (R44): While the lowest M stays below M_RAISE, the VID code rises by 2 every 20 us up to CEIL. -/
  | vidRaise
  /-- VID_LOWER (R44): After 100 ms with M above M_LOWER, the VID code falls by 1 down to FLOOR. -/
  | vidLower
  /-- SHED_LEVEL_ENTER (R47): When M has stayed below a level's threshold for 1 us, the unit enters the highest such shed level. -/
  | shedLevelEnter (u : Nat)
  /-- SHED_LEVEL_LEAVE (R47): When M has stayed 5 points above the level's threshold for 1 ms, the unit drops one shed level. -/
  | shedLevelLeave (u : Nat)
  /-- CORE_TIMING_LOST (R50): When M stays below -20 % for 100 us, the unit raises core timing lost. -/
  | coreTimingLost (u : Nat)
  /-- MIN_RST (R42): A write of MIN_RST loads every HSC_MARGIN_MIN_u with the current M. -/
  | minRst (w : Nat)
  /-- CODE_VIOLATION (R40): A receiver detects a dual-rail code violation, reports it and stalls the channel. -/
  | codeViolation (u : Nat) (chs : List (Nat × Nat))
  /-- HANDSHAKE_STALL (R58): A channel watchdog counts 8 ticks without handshake progress and declares a stall. -/
  | handshakeStall (u : Nat) (chs : List (Nat × Nat))
  /-- EDGE_COMPUTE_START (R54): At 2 000 ns before an edge's instant, the Schedule Book begins computing that edge. -/
  | edgeComputeStart (kind p t : Nat) (bad : List Nat)
  /-- ACTION_ARMED (R55): A computed action reaches its comparator and is armed with its release instant. -/
  | actionArmed (kind n t : Nat)
  /-- TIME_PLL_LOCK (R63): The time PLL locks and the Invar counter starts at 0. -/
  | timePllLock
  /-- TIME_PLL_UNLOCK (R103): The time PLL loses lock after first lock and raises its fatal source. -/
  | timePllUnlock
  /-- OSC_IN_LOSS (R103): No OSC_IN edge for t_OSCL raises Invar oscillator lost. -/
  | oscInLoss
  /-- FOLLOWER_BROADCAST (R64): Once per microsecond Invar sends the master value and each follower corrects toward it. -/
  | followerBroadcast (skews : List Int)
  /-- TIME_SET (R66): A write of INV_SET_0 loads the master counter on the next tick as a step. -/
  | timeSet (req : Requester) (w : Nat)
  /-- TIME_ADJUST_STEP (R67): A write of INV_ADJ_0 with SLEW = 0 steps the counter by the signed offset. -/
  | timeAdjustStep (req : Requester) (w : Nat)
  /-- TIME_ADJUST_SLEW (R67): A write of INV_ADJ_0 with SLEW = 1 adds the offset to the slew remainder. -/
  | timeAdjustSlew (req : Requester) (w : Nat)
  /-- SLEW_ABSORBED (R67): The slew remainder has been absorbed, the extra rate is removed and SLEWING clears. -/
  | slewAbsorbed
  /-- HIST_CLR (R75): A write of HIST_CLR empties the rate history. -/
  | histClr (w : Nat)
  /-- HISTORY_PUSH (R75): After each whole second in LOCKED, the mean rate is pushed into the 16-entry history. -/
  | historyPush
  /-- SERVO_ENABLE (R70): A write of INV_CTL.EN starts or stops the servo and latches the VTRIM BASE at 0 to 1. -/
  | servoEnable (w : Nat)
  /-- PTP_SYNC_RECEIVED (R74): A Sync on a PTP port is stamped and, on the SLAVE port, gives a measurement to the servo. -/
  | ptpSyncReceived (p : Nat) (l : List Byte) (pcs : Nat)
  /-- FOLLOW_UP_RECEIVED (R73): A Follow_Up completes a two-step Sync measurement. -/
  | followUpReceived (p : Nat) (l : List Byte)
  /-- REFERENCE_LOST (R73): No completed Sync for 4 intervals or IRIG lock cleared sends the servo to HOLDOVER or FREERUN. -/
  | referenceLost
  /-- ANNOUNCE_RECEIVED (R80): An Announce is received and the port states are evaluated. -/
  | announceReceived (p : Nat) (l : List Byte)
  /-- ANNOUNCE_RECEIPT_TIMEOUT (R80): No Announce for ANN_TIMEOUT intervals times out the port and triggers an evaluation. -/
  | announceReceiptTimeout (p : Nat)
  /-- PRE_MASTER_TIMEOUT (R80): A port in PRE_MASTER moves to MASTER after (stepsRemoved + 1) announce intervals. -/
  | preMasterTimeout (p : Nat)
  /-- SYNC_TRANSMIT (R83): At each sync interval a MASTER port sends a one-step or two-step Sync. -/
  | syncTransmit (p : Nat)
  /-- ANNOUNCE_TRANSMIT (R88): At each announce interval a MASTER port sends an Announce with the profile's TLVs. -/
  | announceTransmit (p : Nat)
  /-- DELAY_REQ_TRANSMIT (R82): At each request interval the port sends Delay_Req or Pdelay_Req. -/
  | delayReqTransmit (p : Nat)
  /-- DELAY_REQ_RECEIVED (R82): A Delay_Req received by a master is answered with a Delay_Resp. -/
  | delayReqReceived (p : Nat) (l : List Byte) (pcs : Nat)
  /-- DELAY_RESP_RECEIVED (R82): A Delay_Resp updates the port's mean path delay. -/
  | delayRespReceived (p : Nat) (l : List Byte)
  /-- PDELAY_REQ_RECEIVED (R83): A Pdelay_Req is answered with Pdelay_Resp, and Follow_Up in two-step mode. -/
  | pdelayReqReceived (p : Nat) (l : List Byte) (pcs : Nat)
  /-- PDELAY_EXCHANGE_COMPLETE (R82): A completed peer delay exchange updates the port's mean link delay. -/
  | pdelayExchangeComplete (p : Nat) (l : List Byte) (pcs : Nat) (fup : List Byte) (more : Bool)
  /-- DELAY_RESPONSE_TIMEOUT (R82): A delay request without response within one interval counts in DELAY_LOST. -/
  | delayResponseTimeout (p : Nat)
  /-- TC_MATCH_ENTRY_EXPIRE (R85): A two-step transparent clock match entry older than 1 s is removed. -/
  | tcMatchEntryExpire (q src seq : Nat)
  /-- IRIG_FRAME_DECODED (R94): 1 s after its on-time point an IRIG-B frame is decoded, checked and gives a measurement. -/
  | irigFrameDecoded (f : IrigFrame)
  /-- TCAP_EDGE (R96): A qualifying edge on TCAP[n] is counted, recorded and captured when armed. -/
  | tcapEdge (n : Nat) (rising : Bool) (t16 : Nat)
  /-- TCAP_ARM (R97): A write of ARM clears DONE and the stored time and re-arms the capture input. -/
  | tcapArm (n w : Nat)
  /-- PULSE_ENABLE (R100): Setting EN places the first active edge at least 2 us ahead, flagging LATE when needed. -/
  | pulseEnable (n w : Nat)
  /-- PULSE_DISABLE (R100): A write of EN = 0 lets the current pulse complete and starts no further pulse. -/
  | pulseDisable (n w : Nat)
  /-- PULSE_EDGE (R99): A comparator releases a TPULSE edge; after COUNT pulses EN clears. -/
  | pulseEdge (n : Nat)
  /-- PHY_CHANGE (R106): A change of PHY or FEC reloads INV_PLAT_p and restarts the link state machine in DOWN. -/
  | phyChange (p w : Nat)
  /-- CDR_LOCK (R108): CDR lock moves a port from DOWN to SYNC. -/
  | cdrLock (p : Nat)
  /-- PCS_LOCK (R108): Lock acquired moves a port from SYNC to UP_WAIT. -/
  | pcsLock (p : Nat)
  /-- UP_DLY_EXPIRE (R108): Lock held for UP_DLY moves the port to UP. -/
  | upDlyExpire (p : Nat)
  /-- LOSS_OF_LOCK (R108): Loss of CDR lock or of lock moves the port to DOWN, or triggers a guarded relock. -/
  | lossOfLock (p : Nat) (cdr : Bool)
  /-- HI_BER (R108): hi_ber is declared and the port leaves UP outside a guard. -/
  | hiBer (p : Nat)
  /-- REMOTE_FAULT_RECEIVED (R108): Remote Fault received moves the port to DOWN. -/
  | remoteFaultReceived (p : Nat)
  /-- FRAME_64TH_BYTE (R113): The 64th byte of a received frame arrives and the frame is passed onward. -/
  | frame64thByte (p : Nat) (pre : Bool) (head : List Byte) (stamp : Nat) (flaws : RxFlaws)
  /-- FRAME_END_RECEIVED (R113): The last byte of a received frame arrives and its MAC, filter, meter and delivery fate is decided. -/
  | frameEndReceived (e : RxEnd)
  /-- PAUSE_FRAME_RECEIVED (R120): A PAUSE frame loads the PAUSE timer and stops pausable classes. -/
  | pauseFrameReceived (p v : Nat)
  /-- PFC_FRAME_RECEIVED (R120): A PFC frame loads the timers of its enabled priorities. -/
  | pfcFrameReceived (p enable : Nat) (times : List Nat)
  /-- PAUSE_TIMER_EXPIRE (R120): A PAUSE or PFC timer expires and its classes resume. -/
  | pauseTimerExpire (p i : Nat)
  /-- TX_FRAME_QUEUED (R162): A frame becomes a transmit candidate in its class queue. -/
  | txFrameQueued (p : Nat)
  /-- SELECTION_POINT (R161): At the selection point the MAC picks the highest qualifying class and starts a frame. -/
  | selectionPoint (p : Nat)
  /-- TX_FRAME_DONE (R225): A frame leaves the line and its transmit entry records its status and stamp. -/
  | txFrameDone (p pcs : Nat)
  /-- VERIFY_TIMER_EXPIRE (R125): Every VERIFY_TIME a verify mPacket is sent, and after VERIFY_LIMIT the state is FAILED. -/
  | verifyTimerExpire (p : Nat)
  /-- VERIFY_MPACKET_RECEIVED (R125): A received verify mPacket is answered with a respond mPacket. -/
  | verifyMpacketReceived (p : Nat)
  /-- RESPOND_MPACKET_RECEIVED (R125): A respond mPacket moves the verify state to SUCCEEDED. -/
  | respondMpacketReceived (p : Nat)
  /-- SERDES_PLL_UNLOCK (R128): A bank PLL loses lock and its ports go DOWN. -/
  | serdesPllUnlock (b : Nat) (pllB : Bool)
  /-- CLS_STAGED_WRITE (R137): CLS_STG_CMD with OP = WRITE writes a stream or meter entry from the staging words. -/
  | clsStagedWrite (q w : Nat)
  /-- CLS_STAGED_READ (R137): CLS_STG_CMD with OP = READ copies an entry into the staging words. -/
  | clsStagedRead (q w : Nat)
  /-- CLS_STAGED_DONE (R137): A staged classifier operation completes and BUSY clears. -/
  | clsStagedDone (q : Nat)
  /-- CLS_HASH_KEY_WRITE (R134): A write of the hash key computes the stream bucket in CLS_HASH. -/
  | clsHashKeyWrite (q j w : Nat)
  /-- METER_PEEK (R141): A write of MTR_PEEK_IDX captures the meter's state into the readout registers. -/
  | meterPeek (q w : Nat)
  /-- SCHEDULE_GO (R150): A write of SCB_ACT with GO starts validation of the named bank. -/
  | scheduleGo (w : Nat)
  /-- SCHEDULE_ABORT (R151): SCB_ACT.ABORT cancels a pending activation. -/
  | scheduleAbort (w : Nat)
  /-- VALIDATION_DONE (R150): Bank validation ends and fixes the switch instant T_sw. -/
  | validationDone
  /-- SCHEDULE_RAM_WRITE (R149): A write to Schedule RAM changes the inactive bank or is ignored and counted. -/
  | scheduleRamWrite (a w : Nat)
  /-- BANK_SWITCH (R151): At T_sw the new bank becomes active and the old list is cut. -/
  | bankSwitch
  /-- SCB_CYCLE_START (R153): A new cycle of the active list starts and the group INIT words apply. -/
  | scbCycleStart
  /-- COMMIT_HANDOFF (R154): A COMMIT entry is handed to the commit collector RUNAHEAD before its instant. -/
  | commitHandoff (bad : Bool)
  /-- SCHEDULE_ENABLE (R157): A write of SCB_CTL.EN stops or resumes the active list. -/
  | scheduleEnable (w : Nat)
  /-- GATE_TRANSITION (R160): A comparator sets a port's class gates at the entry's instant. -/
  | gateTransition (p : Nat)
  /-- HOLD_RAISE (R160): A comparator raises hold HOLD_ADV before a HOLD entry's instant. -/
  | holdRaise (p : Nat)
  /-- HOLD_RELEASE (R160): A comparator releases hold at a RELEASE entry's instant. -/
  | holdRelease (p : Nat)
  /-- TOUCHED_MASKS_RECEIVED (R167): The Schedule Book learns a commit's touched rows and columns and computes guard intervals. -/
  | touchedMasksReceived (id : Nat)
  /-- GUARD_CLOSE (R167): A guard comparator closes all eight gates of a port. -/
  | guardClose (p : Nat)
  /-- GUARD_REOPEN (R168): A guard interval ends and the port's gates take the list state. -/
  | guardReopen (p : Nat)
  /-- SHAPER_ENTRY_WRITE (R176): A shaper entry word takes effect at the next handshake and enabling sets credit 0. -/
  | shaperEntryWrite (q o w : Nat)
  /-- SHAPER_PEEK (R173): A write of SHP_PEEK_SEL captures a shaper's credit and state. -/
  | shaperPeek (q w : Nat)
  /-- DUP_STAGED_WRITE (R194): DUP_STG_CMD with OP = WRITE writes a Source Table or FRER entry. -/
  | dupStagedWrite (q w : Nat)
  /-- DUP_STAGED_READ (R194): DUP_STG_CMD with OP = READ copies an entry into the staging words. -/
  | dupStagedRead (q w : Nat)
  /-- DUP_STAGED_DONE (R194): A staged redundancy table operation completes and BUSY clears. -/
  | dupStagedDone (q : Nat)
  /-- DUP_HASH_KEY_WRITE (R189): A write of the hash key computes the Source Table bucket. -/
  | dupHashKeyWrite (q j w : Nat)
  /-- SOURCE_LOOKUP_DONE (R190): The Source Table verdict for a tagged frame decides acceptance and forwarding. -/
  | sourceLookupDone (p : Nat) (pre : Bool) (l : List Byte) (bad : Option Nat)
  /-- AGE_SWEEP (R192): Every AGE_TICK a sweep ages entries and frees or resets those at AGE_LIMIT. -/
  | ageSweep (q : Nat)
  /-- FRER_SWEEP (R200): Each millisecond the sweep sets TAKE_ANY on silent recovery functions. -/
  | frerSweep (q : Nat)
  /-- RING_SCAN_START (R217): The engine clears DB_PEND and issues a scan read from F. -/
  | ringScanStart (r : Nat) (bad : Bool)
  /-- SCAN_DATA_RETURN (R217): Scan read data returns and owned entries are accepted in ring order. -/
  | scanDataReturn (r : Nat) (d : ScanData)
  /-- TX_FETCH_DONE (R225): A transmit frame has been read whole from host memory and is queued for its port. -/
  | txFetchDone (r : Nat) (bytes : List Byte)
  /-- ENTRY_COMPLETE (R221): An entry's work and writebacks finish and the head count advances in ring order. -/
  | entryComplete (r : Nat) (e : EntryEnd)
  /-- MSIX_GAP_EXPIRE (R223): GAP ends and a held interrupt trigger sends one MSI-X message. -/
  | msixGapExpire (r : Nat)
  /-- RING_ENABLE (R237): A write of EN = 1 starts a scan, or is held until the ring is idle. -/
  | ringEnable (r w : Nat)
  /-- RING_DISABLE (R237): Clearing EN ends the scan and flushes or completes accepted entries. -/
  | ringDisable (r w : Nat)
  /-- RING_IDLE (R237): No accepted entry remains, the slot is written with RUN = 0 and IDLE sets. -/
  | ringIdle (r : Nat)
  /-- RING_HEAD_WRITE (R211): A write of RING_HEAD to a disabled idle ring sets H and F. -/
  | ringHeadWrite (r w : Nat)
  /-- HOST_LINK_LOST (R238): A host's link is lost and every ring it owns stops with LINK_LOST. -/
  | hostLinkLost (h : Nat)
  /-- NOTICE_WRITE (R235): An enabled event is written as a notice, with any pending summary, or lost. -/
  | noticeWrite (h code block index : Nat) (args : List Nat)
  /-- NOTICE_CONSUMER_WRITE (R233): Software reports its Notice Ring consumer count, or sets CONS_ERR. -/
  | noticeConsumerWrite (h w : Nat)
  /-- BUS_WRITE_ERROR (R239): An engine write fails or is cut and the ring stops with BUS_WR. -/
  | busWriteError (r : Nat) (pos : Option Nat)
  /-- BUS_READ_ERROR (R226): A buffer read returns an error, the entry completes READ_ERR and the ring stops. -/
  | busReadError (r : Nat) (pos : Option Nat)
  /-- GRAFA_ENABLE (R266): Setting GRF_CTL.EN starts training of the quadrant link. -/
  | grafaEnable (q w : Nat)
  /-- GRAFA_DISABLE (R267): Clearing GRF_CTL.EN takes the link out of UP with FAIL_CODE 8. -/
  | grafaDisable (q w : Nat)
  /-- RETRAIN (R266): A write of RETRAIN returns the link to DOWN and restarts training at once. -/
  | retrain (q w : Nat)
  /-- HOLD_REL_WRITE (R252): A write of HOLD_REL drives HOLDOVER_N[q] high while the link is UP. -/
  | holdRelWrite (q w : Nat)
  /-- UPSTREAM_LOCK_ACQUIRED (R266): Block lock on all four upstream lanes moves the link from LOCK to ALIGN. -/
  | upstreamLockAcquired (l : LaneHeads)
  /-- LOCK_TIMEOUT (R266): 1 ms without lock ends training with FAIL_CODE 1. -/
  | lockTimeout (q : Nat)
  /-- ALIGN_DONE (R266): Two consistent SYNCs align the lanes and the link sends IDENT. -/
  | alignDone (q : Nat)
  /-- ALIGN_TIMEOUT (R266): No alignment within 32 us ends training with FAIL_CODE 2. -/
  | alignTimeout (q : Nat)
  /-- RETRY_DELAY_EXPIRE (R266): RETRY_DLY after a failure ends and training restarts. -/
  | retryDelayExpire (q : Nat)
  /-- BLOCK_LOCK_LOST (R267): Block lock is lost on an upstream lane. -/
  | blockLockLost (q j : Nat) (heads : List Nat)
  /-- SYNC_MISSED (R257): A SYNC missing at its expected position counts, and two in a row take the link down. -/
  | syncMissed (q j : Nat)
  /-- COMMAND_TIMEOUT (R264): A command without RSP within t_CTO is resent, or after three resends fails. -/
  | commandTimeout (q seq : Nat)
  /-- GRAFA_SYNC_TRANSMIT (R257): Every 3 125 blocks the device sends SYNC on all four downstream lanes. -/
  | grafaSyncTransmit (q at' : Nat)
  /-- GRAFA_SYNC_RECEIVED (R257): An upstream SYNC deskews and orders the lanes. -/
  | grafaSyncReceived (q : Nat) (lanes : List (Nat × Nat × Nat × Nat))
  /-- FLIT_CRC_ERROR (R258): A flit whose CRC fails is discarded and counted. -/
  | flitCrcError (q idle : Nat)
  /-- PING_TIMER (R266): Once per second in UP the device sends a PING. -/
  | pingTimer (q : Nat)
  /-- RSP (R264): A command response arrives and its requester proceeds. -/
  | rsp (q seq op status : Nat) (words : List Nat) (rtt fcnt : Nat)
  /-- STATUS (R265): A STATUS flit updates temperatures, alarms, HOLD and the assembly counters. -/
  | status (q temp0 temp1 alarm cal flags bound : Nat) (cnts : List Nat) (fcnt : Nat)
  /-- TAP (R263): A TAP flit delivers a tap sample set to the light-loss detectors. -/
  | tap (q base j : Nat) (codes lost : List Nat) (fcnt : Nat)
  /-- HOLD_SNS (R282): Hold sense words arrive and the hold law computes each cell's next drive. -/
  | holdSns (q pair base : Nat) (words : List Nat) (fcnt : Nat)
  /-- HOLD_LAT (R300): Latch readback words arrive and set the cells' DRIVE. -/
  | holdLat (q pair base : Nat) (words : List Nat) (fcnt : Nat)
  /-- LAND_SNS (R291): Landing sense words arrive and feed the landing law and settle count. -/
  | landSns (q base round : Nat) (words : List Nat) (fcnt : Nat)
  /-- LANDING_ROUND (R261): The device forms and sends a landing round's LAND_DRV flits with APPLY at its instant. -/
  | landingRound (q at' : Nat) (late lost : List Nat)
  /-- LANDING_ATTEMPT_TIMEOUT (R294): An attempt without settling by round 64 starts a retry or parks the cell. -/
  | landingAttemptTimeout (q i : Nat)
  /-- LOCKSTEP_MISMATCH (R274): A lane's two cores disagree, the result is discarded and recomputed once. -/
  | lockstepMismatch (q lane kind item : Nat) (inTime : Bool)
  /-- LANE_SELF_TEST (R275): A write to NIT_LANE_TEST starts a lane self-test. -/
  | laneSelfTest (q h w : Nat)
  /-- LANE_SELF_TEST_DONE (R275): A lane self-test ends and the lane returns to the pool or stays retired. -/
  | laneSelfTestDone (q lane : Nat) (pass : Bool)
  /-- NITINOL_STARTUP_DONE (R278): Slice start-up self-tests and table checks end. -/
  | nitinolStartupDone (q failed : Nat) (bad : List Nat)
  /-- HOLD_VISIT (R281): At a pair's visit instant the slice sends its HOLD_DRV flits and HOLD_STEP. -/
  | holdVisit (q pair : Nat) (bad : List Nat)
  /-- CELL_READ (R286): NIT_CELL_CMD READ snapshots a Cell Table entry. -/
  | cellRead (q c : Nat)
  /-- CELL_PARK (R286): NIT_CELL_CMD PARK parks a cell with CAUSE 5. -/
  | cellPark (q c : Nat)
  /-- UNPARK_BAR (R286): NIT_CELL_CMD UNPARK_BAR lands a parked cell to BAR. -/
  | unparkBar (q c : Nat)
  /-- UNPARK_CROSS (R286): NIT_CELL_CMD UNPARK_CROSS lands a parked cell to CROSS. -/
  | unparkCross (q c : Nat)
  /-- COMMIT_LISTS_RECEIVED (R287): The slice receives a commit's cell list and binds landing channels. -/
  | commitListsReceived (q id : Nat)
  /-- REACQUISITION_START (R300): Once the link is UP and start-up has ended, the readback pass begins. -/
  | reacquisitionStart (q : Nat)
  /-- READBACK_STEP (R300): Every 500 ns a readback step with RDRV = 1 is sent for the next pair. -/
  | readbackStep (q : Nat)
  /-- REACQUISITION_END (R302): All pairs are read back, cells are classified and HOLD_REL is set. -/
  | reacquisitionEnd (q : Nat)
  /-- RELANDING_START (R303): Queued re-landings start 1 000 ns after HOLD_REL. -/
  | relandingStart (q : Nat)
  /-- NITINOL_ENABLE (R299): Setting NIT_CTL.EN requests reacquisition. -/
  | nitinolEnable (q w : Nat)
  /-- NITINOL_DISABLE (R299): Clearing NIT_CTL.EN clears HOLD_REL and refuses landings. -/
  | nitinolDisable (q w : Nat)
  /-- REACQ (R304): A write of NIT_CTL.REACQ restarts a failed reacquisition. -/
  | reacq (q w : Nat)
  /-- FAB_LOAD (R314): A write of FAB_LOAD starts the check and merge of a map into F. -/
  | fabLoad (w : Nat)
  /-- FAB_LOAD_DONE (R314): The FAB_LOAD check and merge end, setting LOAD_ERR and FVALID. -/
  | fabLoadDone (bad : Nat)
  /-- FAB_ENABLE (R314): A write of FAB_CTL.EN enables the collector only while FVALID = 1. -/
  | fabEnable (w : Nat)
  /-- FAB_COMMIT (R317): A FAB COMMIT entry reaches the collector and is checked and staged. -/
  | fabCommit (r pos : Nat)
  /-- CANCEL (R317): A FAB CANCEL entry discards a staged commit of its ring with its TAG. -/
  | cancel (r pos : Nat)
  /-- COMMIT_RESOLVED (R321): A staged commit's map is checked against the projected map and its masks sent. -/
  | commitResolved (bad : Nat)
  /-- RESOLVE_DEADLINE (R321): A commit still unresolved at T_c - 1 280 is rejected LATE. -/
  | resolveDeadline
  /-- FAB_ARM (R322): A FAB_ARM pulse arms the earliest unarmed WAIT commit. -/
  | fabArm
  /-- ARM_DEADLINE (R322): A WAIT commit unarmed at T_c - 2 000 is rejected NOT_ARMED. -/
  | armDeadline
  /-- COMMIT_DISPATCH (R326): At T_c - 1 500 the collector hands each quadrant its cell list. -/
  | commitDispatch
  /-- COMMIT_INSTANT (R327): At T_c the in-force map takes the commit's result and output monitors are blanked. -/
  | commitInstant
  /-- SLICE_REPORT (R328): A slice's commit-ended report reaches the collector. -/
  | sliceReport (q id : Nat)
  /-- COMMIT_WITHDRAWAL (R152): At T_sw - 1 600 old commits at or after T_sw are withdrawn DISCARDED. -/
  | commitWithdrawal
  /-- BLANK_END (R332): BLANK_POST after completion a monitor's blank ends. -/
  | blankEnd (i id : Nat)
  /-- POLICY_BUILD (R335): The policy engine takes the queued declarations and builds one protection commit. -/
  | policyBuild (bad : List Nat) (fbad : Bool)
  /-- WTR_EXPIRE (R338): Wait-to-restore ends and a revert commit is issued. -/
  | wtrExpire (x : WtrEnd)
  /-- ZONE_SAMPLE (R343): An on-die zone sensor reading arrives and may make a pass due. -/
  | zoneSample (z temp : Nat)
  /-- PASS_MAX_AGE (R344): MAX_AGE seconds after the last pass a new pass becomes due. -/
  | passMaxAge (q : Nat)
  /-- RUN_NOW (R344): A write of RUN_NOW makes a pass of a quadrant due. -/
  | runNow (q w : Nat)
  /-- ANNEAL_STEP_START (R346): When its conditions hold, Anneal starts a group step with CAL_START. -/
  | annealStepStart (q : Nat)
  /-- ANNEAL_TABLE_LOAD (R352): Anneal pushes or reads back a quadrant's trims group by group. -/
  | annealTableLoad (q : Nat) (bad : Bool)
  /-- ANNEAL_ENABLE (R352): Setting ANL_CTL.EN starts the trim table load. -/
  | annealEnable (w : Nat)
  /-- UNCAL_BATCH_WRITE (R353): Anneal rewrites the UNCAL bit of a batch of 64 Cell Table entries under the lock. -/
  | uncalBatchWrite (q : Nat)
  /-- CB_CHANNEL_ENABLE (R378): Setting CBS_CTL.EN checks MODE_INIT and enters LISTEN. -/
  | cbChannelEnable (c w : Nat)
  /-- CB_CHANNEL_DISABLE (R378): Clearing CBS_CTL.EN ends frames with /K30.7/ and takes the channel OFF. -/
  | cbChannelDisable (c w : Nat)
  /-- CB_CYCLE_START (R363): A channel cycle starts, advancing the cycle count and state. -/
  | cbCycleStart (c : Nat) (bad : Bool)
  /-- GUARDIAN_OPEN (R370): The guardian opens a permitted spoke's receive path. -/
  | guardianOpen (c id : Nat) (bad : Bool)
  /-- GUARDIAN_CLOSE (R370): The guardian closes a spoke's receive path. -/
  | guardianClose (c : Nat)
  /-- CB_SOF_ARRIVAL (R371): An SOF arrives on a spoke and is relayed, arbitrated or struck. -/
  | cbSofArrival (c k at' : Nat) (start : Bool)
  /-- CB_FRAME_END (R362): A frame's EOF arrives and the frame is judged and delivered to CB_RX. -/
  | cbFrameEnd (c k at' : Nat) (head payload check tail : List Nat)
  /-- CB_NIT_START (R375): At the NIT the star computes and applies the offset correction. -/
  | cbNitStart (c : Nat)
  /-- UNBLOCK (R373): A write of UNBLOCK moves a BLOCKED spoke to REINT. -/
  | unblock (c k : Nat)
  /-- CB_LISTEN_TIMEOUT (R379): After LISTEN_TO cycles the star sends its own start frame. -/
  | cbListenTimeout (c : Nat)
  /-- CB_MODE_REQUEST (R382): A write of CBS_MODE_REQ with GO requests a mode change. -/
  | cbModeRequest (c w : Nat)
  /-- CB_MODE_SWITCH (R382): At the announced boundary the new mode takes effect. -/
  | cbModeSwitch (c : Nat)
  /-- CB_OWN_FRAME_SEND (R383): At a spoke-0 window the star sends an entry, trip or NULL frame. -/
  | cbOwnFrameSend (c id : Nat) (bad badTrip badRing : Bool)
  /-- CB_HALT_TIMEOUT (R378): After one cycle in HALT the channel returns to LISTEN when AUTO_RESTART = 1. -/
  | cbHaltTimeout (c : Nat)
  /-- SEAL_TRIP_CHECK (R408): A Seal unit judges a trip frame's CRC and alive counter. -/
  | sealTripCheck (bad : Bool)
  /-- MATRIX_BURST (R393): A master's burst is granted at its target and carried out. -/
  | matrixBurst (b : Burst)
  /-- MASTER_RESET (R403): A master is reset and its port converter ends bursts and drains. -/
  | masterReset (m : Nat) (cut : Bool)
  /-- MASTER_DRAIN_DONE (R403): The reset master's outstanding transactions end and the port accepts it again. -/
  | masterDrainDone (m : Nat)
  /-- BMV_GO (R404): A write of GO starts a Bulk Mover channel. -/
  | bmvGo (n w : Nat)
  /-- BMV_ABORT (R406): Clearing EN while BUSY aborts a Bulk Mover channel. -/
  | bmvAbort (n w : Nat)
  /-- BMV_READ_RETURN (R405): A Bulk Mover read burst returns and its write burst is issued. -/
  | bmvReadReturn (n : Nat) (data : List Nat) (err : Bool)
  /-- BMV_WRITE_RESPONSE (R406): A Bulk Mover write is answered and the channel may complete with its pulse. -/
  | bmvWriteResponse (n : Nat) (err : Bool)
  /-- SEAL_START (R409): A write of SEAL_GO.START or a SEAL_GO pulse starts a message-buffer evaluation. -/
  | sealStart (n : Nat)
  /-- SEAL_EVAL_DONE (R409): A message-buffer evaluation ends with a verdict and a SEAL_DONE pulse. -/
  | sealEvalDone (n : Nat) (bad : Bool)
  /-- EVENT_PULSE (R411): A source pulse reaches its sinks, which arm, start or mark. -/
  | eventPulse
  /-- FIRE (R411): A write of EVR_SOFT.FIRE pulses source 23 once. -/
  | fire
  /-- SEQ_RUN (R398): SEQ_RUN changing to 1 starts the sequencer at address 0. -/
  | seqRun (w : Nat)
  /-- SERVICE_PORT_WRITE (R476): A Service Port WRITE transaction makes one 32-bit write. -/
  | servicePortWrite (addr v : Nat) (x : SvcEnd)
  /-- SERVICE_PORT_READ (R476): A Service Port READ transaction makes one 32-bit read. -/
  | servicePortRead (addr : Nat) (x : SvcEnd)
  /-- SERVICE_PORT_UNKNOWN (R476): An unknown command byte makes no access. -/
  | servicePortUnknown
  /-- SERVICE_PORT_CUT (R477): SP_CS_N rising early ends a transaction without access. -/
  | servicePortCut
  /-- FAULT_REPORT (R416): Error pin reports are latched into the fault status word and start grace timers. -/
  | faultReport (rs : List (Nat × Nat))
  /-- FAULT_CLEAR (R418): A W1C write of QCH_FSW clears a source bit and its cause bits. -/
  | faultClear (j : Nat) (x : ClearWrite)
  /-- GRACE_EXPIRE (R419): A grace timer expires and the source's reaction is executed. -/
  | graceExpire (ns : List Nat)
  /-- QUIET_EXPIRE (R421): QUIET ms without report recovers the unit. -/
  | quietExpire (e : QuietEnd)
  /-- RECOVER (R422): A write of RECOVER recovers a LATCHED unit. -/
  | recover (u : Nat) (x : RecoverWrite)
  /-- KICK (R427): A write of KICK restarts the host watchdog. -/
  | kick (w : Nat)
  /-- WATCHDOG_EXPIRE (R427): The host watchdog expires and reports source 63 cause 1. -/
  | watchdogExpire
  /-- SW_FATAL (R427): A write of SW_FATAL reports source 63 cause 0. -/
  | swFatal (w : Nat)
  /-- FIRST_CLR (R417): A write of FIRST_CLR re-arms QCH_FIRST. -/
  | firstClr (w : Nat)
  /-- INJECTION_ARM (R428): A write of QCH_INJ arms a check-bit injection. -/
  | injectionArm (w : Nat)
  /-- ALIVE_TOGGLE (R425): ALIVE changes level at each half period of network time. -/
  | aliveToggle
  /-- BRONZE_EVENT (R430): An event reaches Bronze, is stamped and queued or lost. -/
  | bronzeEvent (code block index arg0 arg1 : Nat)
  /-- BRONZE_RECORD_WRITE (R431): Bronze writes a queued record into the AON ring. -/
  | bronzeRecordWrite
  /-- BRONZE_WINDOW_START (R436): A new seconds window starts and suppression summaries are written. -/
  | bronzeWindowStart
  /-- FREEZE (R438): A write of FREEZE is a software trigger that freezes the ring. -/
  | freeze (w : Nat)
  /-- UNFREEZE (R438): A write of UNFREEZE clears FROZEN and FULL. -/
  | unfreeze (w : Nat)
  /-- KEEP_FLUSH_DONE (R439): The Keep flush writes its header and seals the bank. -/
  | keepFlushDone
  /-- KEEP_CHECK_DONE (R440): The Keep store check at start sets BRZ_KEEP_STS. -/
  | keepCheckDone
  /-- BRONZE_READY (R434): The ring clear or scan ends and numbering continues. -/
  | bronzeReady
  /-- SOFTWARE_RECORD (R440): A write of BRZ_SW_0 submits a software record. -/
  | softwareRecord (req : Requester) (w : Nat)
  /-- SUPPLY_SAMPLE (R442): Each microsecond SUPMON is sampled and excursions start or end. -/
  | supplySample (raw : Nat)
  /-- RIPPLE_WINDOW_END (R443): A 10 ms ripple window ends and its ratio is judged. -/
  | rippleWindowEnd
  /-- PFW_ASSERT (R444): PFW_N low for 1 us is qualified and triggers Bronze. -/
  | pfwAssert
  /-- PFW_RELEASE (R444): PFW_N high for 100 us is released. -/
  | pfwRelease
  /-- POWER_REQUEST (R451): A write of PWR_ON requests domains on or off, refusing invalid changes. -/
  | powerRequest (j w : Nat)
  /-- DOMAIN_RAMP_START (R449): The next waiting domain whose requirements are ready starts its ramp. -/
  | domainRampStart
  /-- DOMAIN_RAMP_DONE (R449): A domain's switches close and it enters RESET. -/
  | domainRampDone
  /-- DOMAIN_OFF (R449): A domain's power-down sequence ends and it is OFF. -/
  | domainOff (n : Nat)
  /-- DOMAIN_READY (R461): A domain's reset is released and it becomes READY. -/
  | domainReady (n : Nat)
  /-- COLD_POWER_UP (R458): PD00 powers up cold and the device reset runs. -/
  | coldPowerUp
  /-- POR_ASSERT (R455): POR_N low for 100 ns causes a device reset. -/
  | porAssert
  /-- POR_RELEASE (R458): POR_N rises and PD00 starts. -/
  | porRelease
  /-- PD00_UNDERVOLTAGE (R455): VDDC below 0.52 V for 1 us causes a device reset. -/
  | pd00Undervoltage
  /-- CONTROLLER_RESET_ASSERT (R455): RST_N low for 1 us puts PD01-PD51 in reset. -/
  | controllerResetAssert
  /-- CONTROLLER_RESET_RELEASE (R455): RST_N rising releases the controller reset. -/
  | controllerResetRelease
  /-- RST_N_GLITCH (R455): A RST_N pulse between 100 ns and 1 us is ignored and sets RST_GLITCH. -/
  | rstNGlitch
  /-- CTRL_RST (R455): A write of CTRL_RST starts a controller reset. -/
  | ctrlRst (w : Nat)
  /-- CTRL_RST_EXPIRE (R455): t_CRST after the write, the controller reset is released. -/
  | ctrlRstExpire
  /-- PWR_HOLD (R455): A write of PWR_HOLD holds or releases domains in reset. -/
  | pwrHold (j w : Nat)
  /-- PERST_ASSERT (R455): PERST_h_N low resets a host interface and loses its link. -/
  | perstAssert (h : Nat)
  /-- PERST_RELEASE (R458): PERST_h_N rising starts the host interface toward configuration. -/
  | perstRelease (h : Nat)
  /-- TAP_RESET (R479): TRST_N low or Test-Logic-Reset resets the TAP controller. -/
  | tapReset
  /-- EXTEST (R479): TAP instruction EXTEST drives the pins from the boundary register. -/
  | extest (v : Option Nat)
  /-- IDCODE (R479): TAP instruction IDCODE returns the device identifier. -/
  | idcode
  /-- SAMPLE_PRELOAD (R479): TAP instruction SAMPLE/PRELOAD samples and preloads the boundary register. -/
  | samplePreload (v : Option Nat)
  /-- HIGHZ (R479): TAP instruction HIGHZ puts the outputs in high impedance. -/
  | highz
  /-- CLAMP (R479): TAP instruction CLAMP holds the pins at the boundary register values. -/
  | clamp
  /-- EXTEST_PULSE (R479): TAP instruction EXTEST_PULSE drives AC test pulses on serial lanes. -/
  | extestPulse (v : Option Nat)
  /-- EXTEST_TRAIN (R479): TAP instruction EXTEST_TRAIN drives AC test trains on serial lanes. -/
  | extestTrain (v : Option Nat)
  /-- BYPASS (R479): TAP instruction BYPASS selects the bypass register. -/
  | bypass
  /-- IRIG_FRAME_MISSING (R94): An expected IRIG-B frame does not arrive; two consecutive missing frames clear IRIG_LOCK. -/
  | irigFrameMissing
  /-- SHAPER_CREDIT_ZERO (R173): A waiting shaper's rising credit reaches 0, so its frames become eligible and the MAC re-evaluates selection. -/
  | shaperCreditZero (p : Nat)
  /-- LAND_BIND_SEND (R288): For a commit learned at least 1 200 ns ahead, the slice sends its LAND_BIND entries timed to leave at T_c - 400. -/
  | landBindSend (q id : Nat)
  /-- SPOKE_CODE_GROUP_SYNC (R389): A Cabinet Bus spoke receiver gains or loses code-group synchronisation, which changes its LOCK bit. -/
  | spokeCodeGroupSync (c k : Nat) (locked : Bool)
  /-- FLIT_TYPE_ERROR (R258): A flit with a good CRC but an unknown TYPE or an out-of-range ARG is discarded and counted in TYPE_ERR. -/
  | flitTypeError (q fcnt : Nat)
  /-- MEASURE_PING (R266): In MEASURE the device sends the next of 16 PINGs, 500 ns after the previous one. -/
  | measurePing (q : Nat)
  deriving DecidableEq, Repr

end Sys2Proof
end

