-- ==== Sys2Proof/Config.lean ====
section
/-! DEFINITION. The values the manual leaves open: constants with no body, applied to a counter of the
state so that each use is a fresh value. Nothing can be proved of them. -/

namespace Sys2Proof

/-- The n-th value that the manual does not state (a log entry names each use). -/
opaque Config.free : Nat → Nat

/-- The n-th choice that the manual leaves open. -/
opaque Config.freeBit : Nat → Bool

/-- The word of the Boot ROM at a word index; the manual does not give its content (R398). -/
opaque Config.bootWord : Nat → Nat

/-- The level that an output pin takes from the boundary register's content, plus one, 0 undriven: the manual does
not give the register's cells (R479). -/
opaque Config.padLevel : Nat → Nat → Nat

end Sys2Proof
end

