-- ==== Sys2Proof/Machine/RegNames.lean ====
section
/-! DEFINITION. The BAR0 offset of every register word of the manual, and every named field of it (R13).
A port register takes the global port p, a channel register the global channel m, a pair register the
global pair k, a lane register the global lane j, a bank register the global bank b. -/

namespace Sys2Proof.Machine

/-- Offset of the window of quadrant `q` in BAR0 (R31, Table 1.6). -/
def quadBase (q : Nat) : Nat := 0x1000000 + 0x800000 * q

/-- Offset of the register block of ring `r` (Table 8.14). -/
def ringBase (r : Nat) : Nat :=
  if r < 2304 then quadBase (r / 576) + 0x1C1000 + 0x40 * (r % 576) else 0x1000 + 0x40 * (r - 2304)

def Reg.hscSlkCtl : Nat := 0x800
def F.hscSlkCtlAutoVid : Fld := ⟨Reg.hscSlkCtl, 0, 1⟩
def F.hscSlkCtlShedEn : Fld := ⟨Reg.hscSlkCtl, 1, 1⟩
def F.hscSlkCtlMRaise : Fld := ⟨Reg.hscSlkCtl, 8, 8⟩
def F.hscSlkCtlMLower : Fld := ⟨Reg.hscSlkCtl, 16, 8⟩
def F.hscSlkCtlMinRst : Fld := ⟨Reg.hscSlkCtl, 31, 1⟩
def Reg.hscVid : Nat := 0x804
def F.hscVidCode : Fld := ⟨Reg.hscVid, 0, 6⟩
def F.hscVidFloor : Fld := ⟨Reg.hscVid, 8, 6⟩
def F.hscVidCeil : Fld := ⟨Reg.hscVid, 16, 6⟩
def F.hscVidManual : Fld := ⟨Reg.hscVid, 24, 6⟩
def Reg.hscMargin (n : Nat) : Nat := 0x810 + 4 * n
def F.hscMarginMargin (n : Nat) : Fld := ⟨Reg.hscMargin n, 0, 16⟩
def F.hscMarginShed (n : Nat) : Fld := ⟨Reg.hscMargin n, 28, 2⟩
def F.hscMarginValid (n : Nat) : Fld := ⟨Reg.hscMargin n, 31, 1⟩
def Reg.hscMarginMin (n : Nat) : Nat := 0x830 + 4 * n
def F.hscMarginMinMin (n : Nat) : Fld := ⟨Reg.hscMarginMin n, 0, 16⟩
def Reg.hscStall (n : Nat) : Nat := 0x850 + 4 * n
def F.hscStallChannel (n : Nat) : Fld := ⟨Reg.hscStall n, 0, 16⟩
def F.hscStallBlock (n : Nat) : Fld := ⟨Reg.hscStall n, 16, 8⟩
def F.hscStallCount (n : Nat) : Fld := ⟨Reg.hscStall n, 24, 6⟩
def F.hscStallViol (n : Nat) : Fld := ⟨Reg.hscStall n, 30, 1⟩
def F.hscStallStalled (n : Nat) : Fld := ⟨Reg.hscStall n, 31, 1⟩
def Reg.hscLateArm : Nat := 0x870
def F.hscLateArmCount : Fld := ⟨Reg.hscLateArm, 0, 32⟩
def Reg.invCtl : Nat := 0x30000
def F.invCtlEn : Fld := ⟨Reg.invCtl, 0, 1⟩
def F.invCtlSrc : Fld := ⟨Reg.invCtl, 1, 2⟩
def F.invCtlSteer : Fld := ⟨Reg.invCtl, 3, 1⟩
def F.invCtlStepPolicy : Fld := ⟨Reg.invCtl, 4, 2⟩
def F.invCtlTsArb : Fld := ⟨Reg.invCtl, 6, 1⟩
def F.invCtlHistClr : Fld := ⟨Reg.invCtl, 7, 1⟩
def Reg.invSts : Nat := 0x30004
def F.invStsServo : Fld := ⟨Reg.invSts, 0, 2⟩
def F.invStsEverLocked : Fld := ⟨Reg.invSts, 2, 1⟩
def F.invStsOscOk : Fld := ⟨Reg.invSts, 3, 1⟩
def F.invStsPllLock : Fld := ⟨Reg.invSts, 4, 1⟩
def F.invStsFolLock : Fld := ⟨Reg.invSts, 5, 5⟩
def F.invStsIrigLock : Fld := ⟨Reg.invSts, 10, 1⟩
def F.invStsVtrimSat : Fld := ⟨Reg.invSts, 11, 1⟩
def F.invStsHistN : Fld := ⟨Reg.invSts, 12, 5⟩
def F.invStsSlewing : Fld := ⟨Reg.invSts, 17, 1⟩
def Reg.invNow0 : Nat := 0x30010
def F.invNow0Ns : Fld := ⟨Reg.invNow0, 0, 32⟩
def Reg.invNow1 : Nat := 0x30014
def F.invNow1Sec : Fld := ⟨Reg.invNow1, 0, 32⟩
def Reg.invNow2 : Nat := 0x30018
def F.invNow2SecHi : Fld := ⟨Reg.invNow2, 0, 16⟩
def F.invNow2Frac : Fld := ⟨Reg.invNow2, 16, 16⟩
def Reg.invAdj0 : Nat := 0x30030
def F.invAdj0DeltaNs : Fld := ⟨Reg.invAdj0, 0, 32⟩
def Reg.invAdj1 : Nat := 0x30034
def F.invAdj1DeltaFrac : Fld := ⟨Reg.invAdj1, 0, 16⟩
def F.invAdj1Slew : Fld := ⟨Reg.invAdj1, 16, 1⟩
def Reg.invRate : Nat := 0x30040
def F.invRateRate : Fld := ⟨Reg.invRate, 0, 32⟩
def Reg.invRateMean : Nat := 0x30044
def F.invRateMeanMean : Fld := ⟨Reg.invRateMean, 0, 32⟩
def Reg.invRateSet : Nat := 0x30048
def F.invRateSetSet : Fld := ⟨Reg.invRateSet, 0, 32⟩
def Reg.invVtrim : Nat := 0x30050
def F.invVtrimCode : Fld := ⟨Reg.invVtrim, 0, 18⟩
def Reg.invVtrimGain : Nat := 0x30054
def F.invVtrimGainGain : Fld := ⟨Reg.invVtrimGain, 0, 32⟩
def Reg.invVtrimBase : Nat := 0x30058
def F.invVtrimBaseBase : Fld := ⟨Reg.invVtrimBase, 0, 18⟩
def Reg.invServoCfg : Nat := 0x30060
def F.invServoCfgKp : Fld := ⟨Reg.invServoCfg, 0, 8⟩
def F.invServoCfgKi : Fld := ⟨Reg.invServoCfg, 8, 16⟩
def Reg.invServoLim : Nat := 0x30064
def F.invServoLimLockThresh : Fld := ⟨Reg.invServoLim, 0, 16⟩
def F.invServoLimSlewMax : Fld := ⟨Reg.invServoLim, 16, 16⟩
def Reg.invOffset : Nat := 0x30068
def F.invOffsetTheta : Fld := ⟨Reg.invOffset, 0, 32⟩
def Reg.invStepThresh : Nat := 0x3006C
def F.invStepThreshThresh : Fld := ⟨Reg.invStepThresh, 0, 32⟩
def Reg.invHold : Nat := 0x30070
def F.invHoldHoldS : Fld := ⟨Reg.invHold, 0, 16⟩
def F.invHoldHoldLimit : Fld := ⟨Reg.invHold, 16, 16⟩
def Reg.invFol (n : Nat) : Nat := 0x30080 + 4 * n
def F.invFolSkewTrim (n : Nat) : Fld := ⟨Reg.invFol n, 0, 8⟩
def F.invFolErr (n : Nat) : Fld := ⟨Reg.invFol n, 8, 8⟩
def F.invFolLock (n : Nat) : Fld := ⟨Reg.invFol n, 16, 1⟩
def Reg.invPtpCtl : Nat := 0x30100
def F.invPtpCtlPtpEn : Fld := ⟨Reg.invPtpCtl, 0, 1⟩
def F.invPtpCtlProfile : Fld := ⟨Reg.invPtpCtl, 1, 2⟩
def F.invPtpCtlTwoStep : Fld := ⟨Reg.invPtpCtl, 3, 1⟩
def F.invPtpCtlSlaveOnly : Fld := ⟨Reg.invPtpCtl, 4, 1⟩
def F.invPtpCtlBc : Fld := ⟨Reg.invPtpCtl, 5, 1⟩
def F.invPtpCtlTcEn : Fld := ⟨Reg.invPtpCtl, 6, 1⟩
def F.invPtpCtlDomain : Fld := ⟨Reg.invPtpCtl, 8, 8⟩
def F.invPtpCtlTxClass : Fld := ⟨Reg.invPtpCtl, 16, 3⟩
def F.invPtpCtlAnnTimeout : Fld := ⟨Reg.invPtpCtl, 24, 8⟩
def Reg.invPtpDs : Nat := 0x3010C
def F.invPtpDsPriority1 : Fld := ⟨Reg.invPtpDs, 0, 8⟩
def F.invPtpDsPriority2 : Fld := ⟨Reg.invPtpDs, 8, 8⟩
def F.invPtpDsClassLocked : Fld := ⟨Reg.invPtpDs, 16, 8⟩
def F.invPtpDsClassHold : Fld := ⟨Reg.invPtpDs, 24, 8⟩
def Reg.invPtpDs2 : Nat := 0x30110
def F.invPtpDs2ClassFree : Fld := ⟨Reg.invPtpDs2, 0, 8⟩
def F.invPtpDs2Accuracy : Fld := ⟨Reg.invPtpDs2, 8, 8⟩
def F.invPtpDs2Variance : Fld := ⟨Reg.invPtpDs2, 16, 16⟩
def Reg.invPtpDs3 : Nat := 0x30114
def F.invPtpDs3UtcOffset : Fld := ⟨Reg.invPtpDs3, 0, 16⟩
def F.invPtpDs3TimeSource : Fld := ⟨Reg.invPtpDs3, 16, 8⟩
def F.invPtpDs3UtcValid : Fld := ⟨Reg.invPtpDs3, 24, 1⟩
def F.invPtpDs3Leap61 : Fld := ⟨Reg.invPtpDs3, 25, 1⟩
def F.invPtpDs3Leap59 : Fld := ⟨Reg.invPtpDs3, 26, 1⟩
def Reg.invPtpIntv : Nat := 0x30118
def F.invPtpIntvLogSync : Fld := ⟨Reg.invPtpIntv, 0, 8⟩
def F.invPtpIntvLogAnn : Fld := ⟨Reg.invPtpIntv, 8, 8⟩
def F.invPtpIntvLogPdelay : Fld := ⟨Reg.invPtpIntv, 16, 8⟩
def F.invPtpIntvLogDelayreq : Fld := ⟨Reg.invPtpIntv, 24, 8⟩
def Reg.invParent0 : Nat := 0x30120
def F.invParent0GmIdLo : Fld := ⟨Reg.invParent0, 0, 32⟩
def Reg.invParent1 : Nat := 0x30124
def F.invParent1GmIdHi : Fld := ⟨Reg.invParent1, 0, 32⟩
def Reg.invParent2 : Nat := 0x30128
def F.invParent2Steps : Fld := ⟨Reg.invParent2, 0, 16⟩
def F.invParent2GmClass : Fld := ⟨Reg.invParent2, 16, 8⟩
def F.invParent2SlavePort : Fld := ⟨Reg.invParent2, 24, 8⟩
def Reg.invC37Inacc : Nat := 0x30140
def F.invC37InaccInacc : Fld := ⟨Reg.invC37Inacc, 0, 32⟩
def Reg.tcapSts (n : Nat) : Nat := 0x30200 + 32 * n
def F.tcapStsDone (n : Nat) : Fld := ⟨Reg.tcapSts n, 0, 1⟩
def F.tcapStsEdge (n : Nat) : Fld := ⟨Reg.tcapSts n, 1, 1⟩
def Reg.tcapNs (n : Nat) : Nat := 0x30204 + 32 * n
def F.tcapNsNs (n : Nat) : Fld := ⟨Reg.tcapNs n, 0, 32⟩
def Reg.tcapSec (n : Nat) : Nat := 0x30208 + 32 * n
def F.tcapSecSec (n : Nat) : Fld := ⟨Reg.tcapSec n, 0, 32⟩
def Reg.tcapSecx (n : Nat) : Nat := 0x3020C + 32 * n
def F.tcapSecxSecHi (n : Nat) : Fld := ⟨Reg.tcapSecx n, 0, 16⟩
def F.tcapSecxFrac (n : Nat) : Fld := ⟨Reg.tcapSecx n, 16, 16⟩
def Reg.tcapCfg (n : Nat) : Nat := 0x30210 + 32 * n
def F.tcapCfgArm (n : Nat) : Fld := ⟨Reg.tcapCfg n, 0, 1⟩
def F.tcapCfgPol (n : Nat) : Fld := ⟨Reg.tcapCfg n, 1, 2⟩
def F.tcapCfgBronze (n : Nat) : Fld := ⟨Reg.tcapCfg n, 3, 1⟩
def F.tcapCfgNotice (n : Nat) : Fld := ⟨Reg.tcapCfg n, 4, 1⟩
def F.tcapCfgFilter (n : Nat) : Fld := ⟨Reg.tcapCfg n, 8, 4⟩
def Reg.tpulseStartNs (n : Nat) : Nat := 0x30300 + 32 * n
def F.tpulseStartNsStartNs (n : Nat) : Fld := ⟨Reg.tpulseStartNs n, 0, 32⟩
def Reg.tpulseStartSec (n : Nat) : Nat := 0x30304 + 32 * n
def F.tpulseStartSecStartSec (n : Nat) : Fld := ⟨Reg.tpulseStartSec n, 0, 32⟩
def Reg.tpulseStartSecHi (n : Nat) : Nat := 0x30308 + 32 * n
def F.tpulseStartSecHiStartSecHi (n : Nat) : Fld := ⟨Reg.tpulseStartSecHi n, 0, 16⟩
def Reg.tpulsePeriod (n : Nat) : Nat := 0x3030C + 32 * n
def F.tpulsePeriodPeriod (n : Nat) : Fld := ⟨Reg.tpulsePeriod n, 0, 32⟩
def Reg.tpulseWidth (n : Nat) : Nat := 0x30310 + 32 * n
def F.tpulseWidthWidth (n : Nat) : Fld := ⟨Reg.tpulseWidth n, 0, 32⟩
def Reg.tpulseCount (n : Nat) : Nat := 0x30314 + 32 * n
def F.tpulseCountCount (n : Nat) : Fld := ⟨Reg.tpulseCount n, 0, 32⟩
def Reg.tpulseCtl (n : Nat) : Nat := 0x30318 + 32 * n
def F.tpulseCtlEn (n : Nat) : Fld := ⟨Reg.tpulseCtl n, 0, 1⟩
def F.tpulseCtlInv (n : Nat) : Fld := ⟨Reg.tpulseCtl n, 1, 1⟩
def Reg.tpulseSts (n : Nat) : Nat := 0x3031C + 32 * n
def F.tpulseStsRunning (n : Nat) : Fld := ⟨Reg.tpulseSts n, 0, 1⟩
def F.tpulseStsLate (n : Nat) : Fld := ⟨Reg.tpulseSts n, 1, 1⟩
def F.tpulseStsLateCnt (n : Nat) : Fld := ⟨Reg.tpulseSts n, 16, 16⟩
def Reg.irigCtl : Nat := 0x30400
def F.irigCtlEn : Fld := ⟨Reg.irigCtl, 0, 1⟩
def F.irigCtlIeee1344 : Fld := ⟨Reg.irigCtl, 1, 1⟩
def F.irigCtlLocal : Fld := ⟨Reg.irigCtl, 2, 1⟩
def F.irigCtlInvIn : Fld := ⟨Reg.irigCtl, 3, 1⟩
def F.irigCtlCableDelay : Fld := ⟨Reg.irigCtl, 16, 16⟩
def Reg.irigSts : Nat := 0x30404
def F.irigStsLock : Fld := ⟨Reg.irigSts, 0, 1⟩
def F.irigStsFrameErr : Fld := ⟨Reg.irigSts, 1, 1⟩
def F.irigStsCode : Fld := ⟨Reg.irigSts, 2, 3⟩
def F.irigStsLeapPend : Fld := ⟨Reg.irigSts, 5, 1⟩
def F.irigStsDst : Fld := ⟨Reg.irigSts, 6, 1⟩
def F.irigStsTq : Fld := ⟨Reg.irigSts, 7, 4⟩
def F.irigStsErrCnt : Fld := ⟨Reg.irigSts, 16, 16⟩
def Reg.irigOffset : Nat := 0x30408
def F.irigOffsetOffset : Fld := ⟨Reg.irigOffset, 0, 32⟩
def Reg.irigDate : Nat := 0x3040C
def F.irigDateYear : Fld := ⟨Reg.irigDate, 0, 16⟩
def F.irigDateDoy : Fld := ⟨Reg.irigDate, 16, 9⟩
def Reg.irigSod : Nat := 0x30410
def F.irigSodSod : Fld := ⟨Reg.irigSod, 0, 17⟩
def Reg.invPctl (n : Nat) : Nat := 0x34000 + 64 * n
def F.invPctlEn (n : Nat) : Fld := ⟨Reg.invPctl n, 0, 1⟩
def F.invPctlMasterOnly (n : Nat) : Fld := ⟨Reg.invPctl n, 1, 1⟩
def F.invPctlMirror (n : Nat) : Fld := ⟨Reg.invPctl n, 2, 1⟩
def F.invPctlState (n : Nat) : Fld := ⟨Reg.invPctl n, 4, 4⟩
def Reg.invPlat (n : Nat) : Nat := 0x34004 + 64 * n
def F.invPlatTxLat (n : Nat) : Fld := ⟨Reg.invPlat n, 0, 16⟩
def F.invPlatRxLat (n : Nat) : Fld := ⟨Reg.invPlat n, 16, 16⟩
def Reg.invPasym (n : Nat) : Nat := 0x34008 + 64 * n
def F.invPasymAsym (n : Nat) : Fld := ⟨Reg.invPasym n, 0, 32⟩
def Reg.invPdly (n : Nat) : Nat := 0x3400C + 64 * n
def F.invPdlyDelay (n : Nat) : Fld := ⟨Reg.invPdly n, 0, 28⟩
def F.invPdlyValid (n : Nat) : Fld := ⟨Reg.invPdly n, 31, 1⟩
def Reg.macCtl (p : Nat) : Nat := quadBase (p / 36) + 0x0 + 0x1000 * (p % 36)
def F.macCtlEn (p : Nat) : Fld := ⟨Reg.macCtl p, 0, 1⟩
def F.macCtlDownDrop (p : Nat) : Fld := ⟨Reg.macCtl p, 1, 1⟩
def Reg.macAddrLo (p : Nat) : Nat := quadBase (p / 36) + 0x8 + 0x1000 * (p % 36)
def F.macAddrLoAddrLo (p : Nat) : Fld := ⟨Reg.macAddrLo p, 0, 32⟩
def Reg.macAddrHi (p : Nat) : Nat := quadBase (p / 36) + 0xC + 0x1000 * (p % 36)
def F.macAddrHiAddrHi (p : Nat) : Fld := ⟨Reg.macAddrHi p, 0, 16⟩
def Reg.macMaxf (p : Nat) : Nat := quadBase (p / 36) + 0x10 + 0x1000 * (p % 36)
def F.macMaxfMaxFrame (p : Nat) : Fld := ⟨Reg.macMaxf p, 0, 14⟩
def Reg.macFc (p : Nat) : Nat := quadBase (p / 36) + 0x14 + 0x1000 * (p % 36)
def F.macFcMode (p : Nat) : Fld := ⟨Reg.macFc p, 0, 2⟩
def F.macFcImmuneSched (p : Nat) : Fld := ⟨Reg.macFc p, 2, 1⟩
def F.macFcPauseCls (p : Nat) : Fld := ⟨Reg.macFc p, 8, 8⟩
def Reg.macPfcMap (p : Nat) : Nat := quadBase (p / 36) + 0x18 + 0x1000 * (p % 36)
def F.macPfcMapCls (p : Nat) : Fld := ⟨Reg.macPfcMap p, 0, 24⟩
def Reg.macPauseSts (p : Nat) : Nat := quadBase (p / 36) + 0x1C + 0x1000 * (p % 36)
def F.macPauseStsStopped (p : Nat) : Fld := ⟨Reg.macPauseSts p, 0, 8⟩
def F.macPauseStsLeft (p : Nat) : Fld := ⟨Reg.macPauseSts p, 16, 16⟩
def Reg.macPeCtl (p : Nat) : Nat := quadBase (p / 36) + 0x20 + 0x1000 * (p % 36)
def F.macPeCtlPeEn (p : Nat) : Fld := ⟨Reg.macPeCtl p, 0, 1⟩
def F.macPeCtlVerifyDis (p : Nat) : Fld := ⟨Reg.macPeCtl p, 1, 1⟩
def F.macPeCtlAddFrag (p : Nat) : Fld := ⟨Reg.macPeCtl p, 2, 2⟩
def F.macPeCtlPeCls (p : Nat) : Fld := ⟨Reg.macPeCtl p, 4, 8⟩
def F.macPeCtlVerifyTime (p : Nat) : Fld := ⟨Reg.macPeCtl p, 12, 8⟩
def F.macPeCtlVerifyLimit (p : Nat) : Fld := ⟨Reg.macPeCtl p, 20, 4⟩
def Reg.macPeSts (p : Nat) : Nat := quadBase (p / 36) + 0x24 + 0x1000 * (p % 36)
def F.macPeStsVstate (p : Nat) : Fld := ⟨Reg.macPeSts p, 0, 3⟩
def F.macPeStsActive (p : Nat) : Fld := ⟨Reg.macPeSts p, 3, 1⟩
def F.macPeStsTries (p : Nat) : Fld := ⟨Reg.macPeSts p, 4, 4⟩
def Reg.macEvt (p : Nat) : Nat := quadBase (p / 36) + 0x2C + 0x1000 * (p % 36)
def F.macEvtLinkUp (p : Nat) : Fld := ⟨Reg.macEvt p, 0, 1⟩
def F.macEvtLinkDown (p : Nat) : Fld := ⟨Reg.macEvt p, 1, 1⟩
def F.macEvtHiBer (p : Nat) : Fld := ⟨Reg.macEvt p, 2, 1⟩
def F.macEvtRf (p : Nat) : Fld := ⟨Reg.macEvt p, 3, 1⟩
def F.macEvtGuardFail (p : Nat) : Fld := ⟨Reg.macEvt p, 4, 1⟩
def F.macEvtVerifyChg (p : Nat) : Fld := ⟨Reg.macEvt p, 5, 1⟩
def F.macEvtAssyErr (p : Nat) : Fld := ⟨Reg.macEvt p, 6, 1⟩
def Reg.macEvtEn (p : Nat) : Nat := quadBase (p / 36) + 0x30 + 0x1000 * (p % 36)
def F.macEvtEnNotice (p : Nat) : Fld := ⟨Reg.macEvtEn p, 0, 7⟩
def Reg.macHr0 (p : Nat) : Nat := quadBase (p / 36) + 0x38 + 0x1000 * (p % 36)
def F.macHr0HrLo (p : Nat) : Fld := ⟨Reg.macHr0 p, 0, 32⟩
def Reg.macHr1 (p : Nat) : Nat := quadBase (p / 36) + 0x3C + 0x1000 * (p % 36)
def F.macHr1HrHi (p : Nat) : Fld := ⟨Reg.macHr1 p, 0, 27⟩
def Reg.pcsCtl (p : Nat) : Nat := quadBase (p / 36) + 0x40 + 0x1000 * (p % 36)
def F.pcsCtlPhy (p : Nat) : Fld := ⟨Reg.pcsCtl p, 0, 3⟩
def F.pcsCtlFec (p : Nat) : Fld := ⟨Reg.pcsCtl p, 3, 2⟩
def F.pcsCtlLoop (p : Nat) : Fld := ⟨Reg.pcsCtl p, 5, 2⟩
def F.pcsCtlUpDly (p : Nat) : Fld := ⟨Reg.pcsCtl p, 16, 16⟩
def Reg.pcsSts (p : Nat) : Nat := quadBase (p / 36) + 0x44 + 0x1000 * (p % 36)
def F.pcsStsState (p : Nat) : Fld := ⟨Reg.pcsSts p, 0, 2⟩
def F.pcsStsCdr (p : Nat) : Fld := ⟨Reg.pcsSts p, 2, 1⟩
def F.pcsStsLock (p : Nat) : Fld := ⟨Reg.pcsSts p, 3, 1⟩
def F.pcsStsHiBer (p : Nat) : Fld := ⟨Reg.pcsSts p, 4, 1⟩
def F.pcsStsRfRx (p : Nat) : Fld := ⟨Reg.pcsSts p, 5, 1⟩
def F.pcsStsFecLock (p : Nat) : Fld := ⟨Reg.pcsSts p, 6, 1⟩
def F.pcsStsGuarded (p : Nat) : Fld := ⟨Reg.pcsSts p, 7, 1⟩
def F.pcsStsPwr (p : Nat) : Fld := ⟨Reg.pcsSts p, 8, 1⟩
def Reg.sdsSts (b : Nat) : Nat := quadBase (b / 6) + 0x24004 + 0x1000 * (b % 6)
def F.sdsStsPllA (b : Nat) : Fld := ⟨Reg.sdsSts b, 0, 1⟩
def F.sdsStsPllB (b : Nat) : Fld := ⟨Reg.sdsSts b, 1, 1⟩
def F.sdsStsUnlock (b : Nat) : Fld := ⟨Reg.sdsSts b, 2, 1⟩
def Reg.sdsTxeq (p : Nat) : Nat := quadBase (p / 36) + 0x24100 + 0x1000 * (p % 36 / 6) + 0x20 * (p % 6)
def F.sdsTxeqPre (p : Nat) : Fld := ⟨Reg.sdsTxeq p, 0, 5⟩
def F.sdsTxeqMain (p : Nat) : Fld := ⟨Reg.sdsTxeq p, 5, 6⟩
def F.sdsTxeqPost (p : Nat) : Fld := ⟨Reg.sdsTxeq p, 11, 5⟩
def F.sdsTxeqTxOff (p : Nat) : Fld := ⟨Reg.sdsTxeq p, 16, 1⟩
def F.sdsTxeqRxInv (p : Nat) : Fld := ⟨Reg.sdsTxeq p, 17, 1⟩
def F.sdsTxeqTxInv (p : Nat) : Fld := ⟨Reg.sdsTxeq p, 18, 1⟩
def Reg.clsCtl (q : Nat) : Nat := quadBase q + 0x40000
def F.clsCtlEn (q : Nat) : Fld := ⟨Reg.clsCtl q, 0, 1⟩
def F.clsCtlTpid2 (q : Nat) : Fld := ⟨Reg.clsCtl q, 16, 16⟩
def Reg.clsStgCmd (q : Nat) : Nat := quadBase q + 0x40020
def F.clsStgCmdIndex (q : Nat) : Fld := ⟨Reg.clsStgCmd q, 0, 14⟩
def F.clsStgCmdTable (q : Nat) : Fld := ⟨Reg.clsStgCmd q, 16, 1⟩
def F.clsStgCmdOp (q : Nat) : Fld := ⟨Reg.clsStgCmd q, 17, 1⟩
def F.clsStgCmdGoBusy (q : Nat) : Fld := ⟨Reg.clsStgCmd q, 31, 1⟩
def Reg.clsHashKey0 (q : Nat) : Nat := quadBase q + 0x40030
def F.clsHashKey0DaLo (q : Nat) : Fld := ⟨Reg.clsHashKey0 q, 0, 32⟩
def Reg.clsHashKey1 (q : Nat) : Nat := quadBase q + 0x40034
def F.clsHashKey1DaHi (q : Nat) : Fld := ⟨Reg.clsHashKey1 q, 0, 16⟩
def F.clsHashKey1Vid (q : Nat) : Fld := ⟨Reg.clsHashKey1 q, 16, 12⟩
def Reg.clsHash (q : Nat) : Nat := quadBase q + 0x40038
def F.clsHashBucket (q : Nat) : Fld := ⟨Reg.clsHash q, 0, 12⟩
def Reg.mtrCtl (q : Nat) : Nat := quadBase q + 0x40040
def F.mtrCtlOvh (q : Nat) : Fld := ⟨Reg.mtrCtl q, 0, 6⟩
def Reg.mtrPeekIdx (q : Nat) : Nat := quadBase q + 0x40050
def F.mtrPeekIdxIndex (q : Nat) : Fld := ⟨Reg.mtrPeekIdx q, 0, 14⟩
def Reg.mtrPeekC (q : Nat) : Nat := quadBase q + 0x40054
def F.mtrPeekCTc (q : Nat) : Fld := ⟨Reg.mtrPeekC q, 0, 32⟩
def Reg.mtrPeekX (q : Nat) : Nat := quadBase q + 0x40058
def F.mtrPeekXTx (q : Nat) : Fld := ⟨Reg.mtrPeekX q, 0, 32⟩
def Reg.mtrPeekRed (q : Nat) : Nat := quadBase q + 0x4005C
def F.mtrPeekRedRed (q : Nat) : Fld := ⟨Reg.mtrPeekRed q, 0, 32⟩
def Reg.clsErr (q : Nat) : Nat := quadBase q + 0x40060
def F.clsErrEccUnc (q : Nat) : Fld := ⟨Reg.clsErr q, 0, 16⟩
def F.clsErrStgLost (q : Nat) : Fld := ⟨Reg.clsErr q, 16, 8⟩
def F.clsErrRedHr (q : Nat) : Fld := ⟨Reg.clsErr q, 24, 1⟩
def Reg.clsEty (q n : Nat) : Nat := quadBase q + 0x40100 + 4 * n
def F.clsEtyEtype (q n : Nat) : Fld := ⟨Reg.clsEty q n, 0, 16⟩
def F.clsEtyClass (q n : Nat) : Fld := ⟨Reg.clsEty q n, 16, 3⟩
def F.clsEtyEn (q n : Nat) : Fld := ⟨Reg.clsEty q n, 31, 1⟩
def Reg.clsPort0 (p : Nat) : Nat := quadBase (p / 36) + 0x41000 + 0x100 * (p % 36)
def F.clsPort0Pvid (p : Nat) : Fld := ⟨Reg.clsPort0 p, 0, 12⟩
def F.clsPort0Promisc (p : Nat) : Fld := ⟨Reg.clsPort0 p, 14, 1⟩
def F.clsPort0AcceptMc (p : Nat) : Fld := ⟨Reg.clsPort0 p, 15, 1⟩
def F.clsPort0AcceptBc (p : Nat) : Fld := ⟨Reg.clsPort0 p, 16, 1⟩
def F.clsPort0DefCls (p : Nat) : Fld := ⟨Reg.clsPort0 p, 17, 3⟩
def F.clsPort0DefMtr (p : Nat) : Fld := ⟨Reg.clsPort0 p, 20, 1⟩
def Reg.clsPort1 (p : Nat) : Nat := quadBase (p / 36) + 0x41004 + 0x100 * (p % 36)
def F.clsPort1PcpMap (p : Nat) : Fld := ⟨Reg.clsPort1 p, 0, 24⟩
def Reg.clsPort2 (p : Nat) : Nat := quadBase (p / 36) + 0x41008 + 0x100 * (p % 36)
def F.clsPort2DefFg (p : Nat) : Fld := ⟨Reg.clsPort2 p, 0, 14⟩
def Reg.clsPort3 (p : Nat) : Nat := quadBase (p / 36) + 0x4100C + 0x100 * (p % 36)
def F.clsPort3Hr (p : Nat) : Fld := ⟨Reg.clsPort3 p, 0, 11⟩
def Reg.scbCtl : Nat := 0x180000
def F.scbCtlEn : Fld := ⟨Reg.scbCtl, 0, 1⟩
def F.scbCtlRunahead : Fld := ⟨Reg.scbCtl, 16, 9⟩
def Reg.scbSts : Nat := 0x180004
def F.scbStsActBank : Fld := ⟨Reg.scbSts, 0, 1⟩
def F.scbStsRunning : Fld := ⟨Reg.scbSts, 1, 1⟩
def F.scbStsPend : Fld := ⟨Reg.scbSts, 2, 1⟩
def F.scbStsValidating : Fld := ⟨Reg.scbSts, 3, 1⟩
def F.scbStsErr : Fld := ⟨Reg.scbSts, 8, 4⟩
def Reg.scbAct : Nat := 0x18001C
def F.scbActGo : Fld := ⟨Reg.scbAct, 0, 1⟩
def F.scbActBank : Fld := ⟨Reg.scbAct, 1, 1⟩
def F.scbActAbort : Fld := ⟨Reg.scbAct, 2, 1⟩
def Reg.scbEvt : Nat := 0x180040
def F.scbEvtSwitched : Fld := ⟨Reg.scbEvt, 0, 1⟩
def F.scbEvtRejected : Fld := ⟨Reg.scbEvt, 1, 1⟩
def F.scbEvtLateStart : Fld := ⟨Reg.scbEvt, 2, 1⟩
def F.scbEvtStep : Fld := ⟨Reg.scbEvt, 3, 1⟩
def F.scbEvtEcc : Fld := ⟨Reg.scbEvt, 4, 1⟩
def F.scbEvtCntHr : Fld := ⟨Reg.scbEvt, 5, 1⟩
def Reg.scbEvtEn : Nat := 0x180044
def F.scbEvtEnNotice : Fld := ⟨Reg.scbEvtEn, 0, 6⟩
def Reg.gateCtl (q : Nat) : Nat := quadBase q + 0x100000
def F.gateCtlEn (q : Nat) : Fld := ⟨Reg.gateCtl q, 0, 1⟩
def Reg.shpPeekSel (q : Nat) : Nat := quadBase q + 0x100100
def F.shpPeekSelIndex (q : Nat) : Fld := ⟨Reg.shpPeekSel q, 0, 14⟩
def F.shpPeekSelLevel (q : Nat) : Fld := ⟨Reg.shpPeekSel q, 14, 2⟩
def Reg.shpPeekCredit (q : Nat) : Nat := quadBase q + 0x100104
def F.shpPeekCreditCredit (q : Nat) : Fld := ⟨Reg.shpPeekCredit q, 0, 32⟩
def Reg.shpPeekSts (q : Nat) : Nat := quadBase q + 0x100108
def F.shpPeekStsEligible (q : Nat) : Fld := ⟨Reg.shpPeekSts q, 0, 1⟩
def F.shpPeekStsWaiting (q : Nat) : Fld := ⟨Reg.shpPeekSts q, 1, 1⟩
def F.shpPeekStsFrozen (q : Nat) : Fld := ⟨Reg.shpPeekSts q, 2, 1⟩
def Reg.gatePort0 (p : Nat) : Nat := quadBase (p / 36) + 0x101000 + 0x80 * (p % 36)
def F.gatePort0Group (p : Nat) : Fld := ⟨Reg.gatePort0 p, 0, 4⟩
def F.gatePort0Ovh (p : Nat) : Fld := ⟨Reg.gatePort0 p, 8, 6⟩
def F.gatePort0HoldAdv (p : Nat) : Fld := ⟨Reg.gatePort0 p, 16, 16⟩
def Reg.gatePort1 (p : Nat) : Nat := quadBase (p / 36) + 0x101004 + 0x80 * (p % 36)
def F.gatePort1FabRow (p : Nat) : Fld := ⟨Reg.gatePort1 p, 0, 9⟩
def F.gatePort1RowV (p : Nat) : Fld := ⟨Reg.gatePort1 p, 9, 1⟩
def F.gatePort1FabCol (p : Nat) : Fld := ⟨Reg.gatePort1 p, 16, 9⟩
def F.gatePort1ColV (p : Nat) : Fld := ⟨Reg.gatePort1 p, 25, 1⟩
def Reg.gatePort2 (p : Nat) : Nat := quadBase (p / 36) + 0x101008 + 0x80 * (p % 36)
def F.gatePort2GPre (p : Nat) : Fld := ⟨Reg.gatePort2 p, 0, 20⟩
def Reg.gatePort3 (p : Nat) : Nat := quadBase (p / 36) + 0x10100C + 0x80 * (p % 36)
def F.gatePort3GPost (p : Nat) : Fld := ⟨Reg.gatePort3 p, 0, 20⟩
def Reg.gatePort4 (p : Nat) : Nat := quadBase (p / 36) + 0x101010 + 0x80 * (p % 36)
def F.gatePort4PropTx (p : Nat) : Fld := ⟨Reg.gatePort4 p, 0, 16⟩
def F.gatePort4PropRx (p : Nat) : Fld := ⟨Reg.gatePort4 p, 16, 16⟩
def Reg.gatePort5 (p : Nat) : Nat := quadBase (p / 36) + 0x101014 + 0x80 * (p % 36)
def F.gatePort5Gates (p : Nat) : Fld := ⟨Reg.gatePort5 p, 0, 8⟩
def F.gatePort5Hold (p : Nat) : Fld := ⟨Reg.gatePort5 p, 8, 1⟩
def F.gatePort5Guarded (p : Nat) : Fld := ⟨Reg.gatePort5 p, 9, 1⟩
def F.gatePort5ListGates (p : Nat) : Fld := ⟨Reg.gatePort5 p, 16, 8⟩
def Reg.gatePort6 (p : Nat) : Nat := quadBase (p / 36) + 0x101018 + 0x80 * (p % 36)
def F.gatePort6Hr (p : Nat) : Fld := ⟨Reg.gatePort6 p, 0, 8⟩
def Reg.dupCtl (q : Nat) : Nat := quadBase q + 0x180000
def F.dupCtlEn (q : Nat) : Fld := ⟨Reg.dupCtl q, 0, 1⟩
def F.dupCtlAgeTick (q : Nat) : Fld := ⟨Reg.dupCtl q, 8, 10⟩
def F.dupCtlAgeLimit (q : Nat) : Fld := ⟨Reg.dupCtl q, 18, 4⟩
def F.dupCtlEvictMin (q : Nat) : Fld := ⟨Reg.dupCtl q, 22, 4⟩
def Reg.dupStgCmd (q : Nat) : Nat := quadBase q + 0x180020
def F.dupStgCmdIndex (q : Nat) : Fld := ⟨Reg.dupStgCmd q, 0, 16⟩
def F.dupStgCmdTable (q : Nat) : Fld := ⟨Reg.dupStgCmd q, 16, 1⟩
def F.dupStgCmdOp (q : Nat) : Fld := ⟨Reg.dupStgCmd q, 17, 1⟩
def F.dupStgCmdGoBusy (q : Nat) : Fld := ⟨Reg.dupStgCmd q, 31, 1⟩
def Reg.dupHashKey0 (q : Nat) : Nat := quadBase q + 0x180030
def F.dupHashKey0SaLo (q : Nat) : Fld := ⟨Reg.dupHashKey0 q, 0, 32⟩
def Reg.dupHashKey1 (q : Nat) : Nat := quadBase q + 0x180034
def F.dupHashKey1SaHi (q : Nat) : Fld := ⟨Reg.dupHashKey1 q, 0, 16⟩
def F.dupHashKey1Pair (q : Nat) : Fld := ⟨Reg.dupHashKey1 q, 16, 5⟩
def Reg.dupHash (q : Nat) : Nat := quadBase q + 0x180038
def F.dupHashBucket (q : Nat) : Fld := ⟨Reg.dupHash q, 0, 13⟩
def Reg.dupFrerRst (q n : Nat) : Nat := quadBase q + 0x180040 + 4 * n
def F.dupFrerRstMs (q n : Nat) : Fld := ⟨Reg.dupFrerRst q n, 0, 16⟩
def Reg.dupErr (q : Nat) : Nat := quadBase q + 0x180060
def F.dupErrEccUnc (q : Nat) : Fld := ⟨Reg.dupErr q, 0, 16⟩
def F.dupErrStgLost (q : Nat) : Fld := ⟨Reg.dupErr q, 16, 8⟩
def F.dupErrFrerHr (q : Nat) : Fld := ⟨Reg.dupErr q, 24, 1⟩
def F.dupErrCntHr (q : Nat) : Fld := ⟨Reg.dupErr q, 25, 1⟩
def Reg.dupPair0 (k : Nat) : Nat := quadBase (k / 18) + 0x181000 + 0x100 * (k % 18)
def F.dupPair0Mode (k : Nat) : Fld := ⟨Reg.dupPair0 k, 0, 2⟩
def F.dupPair0FastPass (k : Nat) : Fld := ⟨Reg.dupPair0 k, 2, 1⟩
def F.dupPair0OldAccept (k : Nat) : Fld := ⟨Reg.dupPair0 k, 3, 1⟩
def F.dupPair0KeepTag (k : Nat) : Fld := ⟨Reg.dupPair0 k, 4, 1⟩
def F.dupPair0Netid (k : Nat) : Fld := ⟨Reg.dupPair0 k, 5, 3⟩
def Reg.dupPair1 (k : Nat) : Nat := quadBase (k / 18) + 0x181004 + 0x100 * (k % 18)
def F.dupPair1SeqNext (k : Nat) : Fld := ⟨Reg.dupPair1 k, 0, 16⟩
def Reg.dupPair2 (k : Nat) : Nat := quadBase (k / 18) + 0x181008 + 0x100 * (k % 18)
def F.dupPair2Hr (k : Nat) : Fld := ⟨Reg.dupPair2 k, 0, 19⟩
def Reg.ringQctl (q : Nat) : Nat := quadBase q + 0x1C0000
def F.ringQctlHdrFirst (q : Nat) : Fld := ⟨Reg.ringQctl q, 0, 1⟩
def F.ringQctlEccUnc (q : Nat) : Fld := ⟨Reg.ringQctl q, 16, 16⟩
def Reg.ringBaseLo (r : Nat) : Nat := ringBase r + 0x0
def F.ringBaseLoBaseLo (r : Nat) : Fld := ⟨Reg.ringBaseLo r, 8, 24⟩
def Reg.ringBaseHi (r : Nat) : Nat := ringBase r + 0x4
def F.ringBaseHiBaseHi (r : Nat) : Fld := ⟨Reg.ringBaseHi r, 0, 32⟩
def Reg.ringSlotLo (r : Nat) : Nat := ringBase r + 0x8
def F.ringSlotLoSlotLo (r : Nat) : Fld := ⟨Reg.ringSlotLo r, 3, 29⟩
def Reg.ringSlotHi (r : Nat) : Nat := ringBase r + 0xC
def F.ringSlotHiSlotHi (r : Nat) : Fld := ⟨Reg.ringSlotHi r, 0, 32⟩
def Reg.ringCfg (r : Nat) : Nat := ringBase r + 0x10
def F.ringCfgSizeLog2 (r : Nat) : Fld := ⟨Reg.ringCfg r, 0, 5⟩
def F.ringCfgOwner (r : Nat) : Fld := ⟨Reg.ringCfg r, 5, 1⟩
def F.ringCfgPrefetch (r : Nat) : Fld := ⟨Reg.ringCfg r, 8, 5⟩
def F.ringCfgInflight (r : Nat) : Fld := ⟨Reg.ringCfg r, 16, 7⟩
def Reg.ringIrq (r : Nat) : Nat := ringBase r + 0x14
def F.ringIrqVec (r : Nat) : Fld := ⟨Reg.ringIrq r, 0, 11⟩
def F.ringIrqIrqEn (r : Nat) : Fld := ⟨Reg.ringIrq r, 11, 1⟩
def F.ringIrqGap (r : Nat) : Fld := ⟨Reg.ringIrq r, 16, 16⟩
def Reg.ringCtl (r : Nat) : Nat := ringBase r + 0x18
def F.ringCtlEn (r : Nat) : Fld := ⟨Reg.ringCtl r, 0, 1⟩
def Reg.ringSts (r : Nat) : Nat := ringBase r + 0x1C
def F.ringStsRun (r : Nat) : Fld := ⟨Reg.ringSts r, 0, 1⟩
def F.ringStsIdle (r : Nat) : Fld := ⟨Reg.ringSts r, 1, 1⟩
def F.ringStsDbPend (r : Nat) : Fld := ⟨Reg.ringSts r, 2, 1⟩
def F.ringStsStarved (r : Nat) : Fld := ⟨Reg.ringSts r, 3, 1⟩
def F.ringStsErr (r : Nat) : Fld := ⟨Reg.ringSts r, 4, 1⟩
def F.ringStsLinkLost (r : Nat) : Fld := ⟨Reg.ringSts r, 5, 1⟩
def F.ringStsErrCode (r : Nat) : Fld := ⟨Reg.ringSts r, 8, 4⟩
def F.ringStsHr (r : Nat) : Fld := ⟨Reg.ringSts r, 16, 6⟩
def F.ringStsAccepted (r : Nat) : Fld := ⟨Reg.ringSts r, 22, 7⟩
def Reg.ringHead (r : Nat) : Nat := ringBase r + 0x20
def F.ringHeadHead (r : Nat) : Fld := ⟨Reg.ringHead r, 0, 32⟩
def Reg.ringScan (r : Nat) : Nat := ringBase r + 0x24
def F.ringScanScan (r : Nat) : Fld := ⟨Reg.ringScan r, 0, 32⟩
def Reg.ntcCons (n : Nat) : Nat := 0x1800 + 4 * n
def F.ntcConsC (n : Nat) : Fld := ⟨Reg.ntcCons n, 0, 32⟩
def Reg.ntcSts : Nat := 0x1808
def F.ntcStsOvfA : Fld := ⟨Reg.ntcSts, 0, 1⟩
def F.ntcStsOvfB : Fld := ⟨Reg.ntcSts, 1, 1⟩
def F.ntcStsConsErrA : Fld := ⟨Reg.ntcSts, 2, 1⟩
def F.ntcStsConsErrB : Fld := ⟨Reg.ntcSts, 3, 1⟩
def F.ntcStsPendA : Fld := ⟨Reg.ntcSts, 4, 1⟩
def F.ntcStsPendB : Fld := ⟨Reg.ntcSts, 5, 1⟩
def Reg.grfCtl (q : Nat) : Nat := quadBase q + 0x3C0000
def F.grfCtlEn (q : Nat) : Fld := ⟨Reg.grfCtl q, 0, 1⟩
def F.grfCtlRetrain (q : Nat) : Fld := ⟨Reg.grfCtl q, 1, 1⟩
def F.grfCtlHoldRel (q : Nat) : Fld := ⟨Reg.grfCtl q, 2, 1⟩
def F.grfCtlRetryDly (q : Nat) : Fld := ⟨Reg.grfCtl q, 16, 16⟩
def Reg.grfSts (q : Nat) : Nat := quadBase q + 0x3C0004
def F.grfStsState (q : Nat) : Fld := ⟨Reg.grfSts q, 0, 3⟩
def F.grfStsRxLock (q : Nat) : Fld := ⟨Reg.grfSts q, 4, 4⟩
def F.grfStsAligned (q : Nat) : Fld := ⟨Reg.grfSts q, 8, 1⟩
def F.grfStsHoldOut (q : Nat) : Fld := ⟨Reg.grfSts q, 9, 1⟩
def F.grfStsAsmHold (q : Nat) : Fld := ⟨Reg.grfSts q, 10, 1⟩
def F.grfStsFresh (q : Nat) : Fld := ⟨Reg.grfSts q, 11, 1⟩
def F.grfStsTrimValid (q : Nat) : Fld := ⟨Reg.grfSts q, 12, 1⟩
def F.grfStsFailCode (q : Nat) : Fld := ⟨Reg.grfSts q, 16, 4⟩
def Reg.grfLat0 (q : Nat) : Nat := quadBase q + 0x3C0008
def F.grfLat0W (q : Nat) : Fld := ⟨Reg.grfLat0 q, 0, 16⟩
def F.grfLat0Ta (q : Nat) : Fld := ⟨Reg.grfLat0 q, 16, 16⟩
def Reg.grfLat1 (q : Nat) : Nat := quadBase q + 0x3C000C
def F.grfLat1DA (q : Nat) : Fld := ⟨Reg.grfLat1 q, 0, 16⟩
def F.grfLat1UA (q : Nat) : Fld := ⟨Reg.grfLat1 q, 16, 16⟩
def Reg.grfLat2 (q : Nat) : Nat := quadBase q + 0x3C0010
def F.grfLat2LD (q : Nat) : Fld := ⟨Reg.grfLat2 q, 0, 16⟩
def F.grfLat2Dl (q : Nat) : Fld := ⟨Reg.grfLat2 q, 16, 3⟩
def Reg.grfIdent0 (q : Nat) : Nat := quadBase q + 0x3C0020
def F.grfIdent0Vendor (q : Nat) : Fld := ⟨Reg.grfIdent0 q, 0, 16⟩
def F.grfIdent0Model (q : Nat) : Fld := ⟨Reg.grfIdent0 q, 16, 16⟩
def Reg.grfIdent1 (q : Nat) : Nat := quadBase q + 0x3C0024
def F.grfIdent1Rev (q : Nat) : Fld := ⟨Reg.grfIdent1 q, 0, 8⟩
def F.grfIdent1Quad (q : Nat) : Fld := ⟨Reg.grfIdent1 q, 8, 2⟩
def F.grfIdent1Groups (q : Nat) : Fld := ⟨Reg.grfIdent1 q, 16, 8⟩
def F.grfIdent1Sensors (q : Nat) : Fld := ⟨Reg.grfIdent1 q, 24, 4⟩
def F.grfIdent1Cv (q : Nat) : Fld := ⟨Reg.grfIdent1 q, 28, 4⟩
def Reg.grfIdent2 (q : Nat) : Nat := quadBase q + 0x3C0028
def F.grfIdent2SerialLo (q : Nat) : Fld := ⟨Reg.grfIdent2 q, 0, 32⟩
def Reg.grfIdent3 (q : Nat) : Nat := quadBase q + 0x3C002C
def F.grfIdent3SerialHi (q : Nat) : Fld := ⟨Reg.grfIdent3 q, 0, 32⟩
def Reg.grfAsmSts (q : Nat) : Nat := quadBase q + 0x3C0030
def F.grfAsmStsAlarm (q : Nat) : Fld := ⟨Reg.grfAsmSts q, 0, 8⟩
def F.grfAsmStsCalGroup (q : Nat) : Fld := ⟨Reg.grfAsmSts q, 8, 8⟩
def F.grfAsmStsBound (q : Nat) : Fld := ⟨Reg.grfAsmSts q, 16, 9⟩
def Reg.grfAsmTemp (q : Nat) : Nat := quadBase q + 0x3C0034
def F.grfAsmTempTemp0 (q : Nat) : Fld := ⟨Reg.grfAsmTemp q, 0, 16⟩
def F.grfAsmTempTemp1 (q : Nat) : Fld := ⟨Reg.grfAsmTemp q, 16, 16⟩
def Reg.grfEvt (q : Nat) : Nat := quadBase q + 0x3C0040
def F.grfEvtUp (q : Nat) : Fld := ⟨Reg.grfEvt q, 0, 1⟩
def F.grfEvtDown (q : Nat) : Fld := ⟨Reg.grfEvt q, 1, 1⟩
def F.grfEvtTrainFail (q : Nat) : Fld := ⟨Reg.grfEvt q, 2, 1⟩
def F.grfEvtLatChg (q : Nat) : Fld := ⟨Reg.grfEvt q, 3, 1⟩
def F.grfEvtAlarm (q : Nat) : Fld := ⟨Reg.grfEvt q, 4, 1⟩
def F.grfEvtFresh (q : Nat) : Fld := ⟨Reg.grfEvt q, 5, 1⟩
def F.grfEvtCntHr (q : Nat) : Fld := ⟨Reg.grfEvt q, 6, 1⟩
def Reg.grfEvtEn (q : Nat) : Nat := quadBase q + 0x3C0044
def F.grfEvtEnNotice (q : Nat) : Fld := ⟨Reg.grfEvtEn q, 0, 7⟩
def Reg.grfLaneEq (j : Nat) : Nat := quadBase (j / 4) + 0x3C0100 + 0x20 * (j % 4)
def F.grfLaneEqPre (j : Nat) : Fld := ⟨Reg.grfLaneEq j, 0, 5⟩
def F.grfLaneEqMain (j : Nat) : Fld := ⟨Reg.grfLaneEq j, 5, 6⟩
def F.grfLaneEqPost (j : Nat) : Fld := ⟨Reg.grfLaneEq j, 11, 5⟩
def F.grfLaneEqRxInv (j : Nat) : Fld := ⟨Reg.grfLaneEq j, 16, 1⟩
def F.grfLaneEqTxInv (j : Nat) : Fld := ⟨Reg.grfLaneEq j, 17, 1⟩
def Reg.grfLaneSts (j : Nat) : Nat := quadBase (j / 4) + 0x3C0104 + 0x20 * (j % 4)
def F.grfLaneStsLock (j : Nat) : Fld := ⟨Reg.grfLaneSts j, 0, 1⟩
def F.grfLaneStsLaneIn (j : Nat) : Fld := ⟨Reg.grfLaneSts j, 1, 2⟩
def F.grfLaneStsSkew (j : Nat) : Fld := ⟨Reg.grfLaneSts j, 8, 4⟩
def Reg.grfLaneCrc (j : Nat) : Nat := quadBase (j / 4) + 0x3C0108 + 0x20 * (j % 4)
def F.grfLaneCrcHdrErr (j : Nat) : Fld := ⟨Reg.grfLaneCrc j, 0, 32⟩
def Reg.grfTap (m : Nat) : Nat := quadBase (m / 256) + 0x3C0800 + 4 * (m % 256)
def F.grfTapCode (m : Nat) : Fld := ⟨Reg.grfTap m, 0, 16⟩
def F.grfTapValid (m : Nat) : Fld := ⟨Reg.grfTap m, 16, 1⟩
def Reg.nitCtl (q : Nat) : Nat := quadBase q + 0x200000
def F.nitCtlEn (q : Nat) : Fld := ⟨Reg.nitCtl q, 0, 1⟩
def F.nitCtlHoldSlow (q : Nat) : Fld := ⟨Reg.nitCtl q, 1, 1⟩
def F.nitCtlGtEn (q : Nat) : Fld := ⟨Reg.nitCtl q, 2, 1⟩
def F.nitCtlReacq (q : Nat) : Fld := ⟨Reg.nitCtl q, 3, 1⟩
def Reg.nitSts (q : Nat) : Nat := quadBase q + 0x200004
def F.nitStsRun (q : Nat) : Fld := ⟨Reg.nitSts q, 0, 1⟩
def F.nitStsReacq (q : Nat) : Fld := ⟨Reg.nitSts q, 1, 1⟩
def F.nitStsReacqFail (q : Nat) : Fld := ⟨Reg.nitSts q, 2, 1⟩
def F.nitStsLifting (q : Nat) : Fld := ⟨Reg.nitSts q, 3, 1⟩
def F.nitStsSlow (q : Nat) : Fld := ⟨Reg.nitSts q, 4, 1⟩
def F.nitStsBound (q : Nat) : Fld := ⟨Reg.nitSts q, 8, 9⟩
def F.nitStsRetired (q : Nat) : Fld := ⟨Reg.nitSts q, 17, 7⟩
def Reg.nitHold (q : Nat) : Nat := quadBase q + 0x200008
def F.nitHoldKh (q : Nat) : Fld := ⟨Reg.nitHold q, 0, 8⟩
def F.nitHoldDbH (q : Nat) : Fld := ⟨Reg.nitHold q, 8, 4⟩
def F.nitHoldSlewH (q : Nat) : Fld := ⟨Reg.nitHold q, 16, 10⟩
def Reg.nitHlim (q : Nat) : Nat := quadBase q + 0x20000C
def F.nitHlimHoldAlarm (q : Nat) : Fld := ⟨Reg.nitHlim q, 0, 14⟩
def F.nitHlimReacqWin (q : Nat) : Fld := ⟨Reg.nitHlim q, 16, 14⟩
def Reg.nitLand0 (q : Nat) : Nat := quadBase q + 0x200010
def F.nitLand0Win (q : Nat) : Fld := ⟨Reg.nitLand0 q, 0, 8⟩
def F.nitLand0Slope (q : Nat) : Fld := ⟨Reg.nitLand0 q, 16, 16⟩
def Reg.nitLand1 (q : Nat) : Nat := quadBase q + 0x200014
def F.nitLand1KpL (q : Nat) : Fld := ⟨Reg.nitLand1 q, 0, 8⟩
def F.nitLand1KiL (q : Nat) : Fld := ⟨Reg.nitLand1 q, 8, 8⟩
def F.nitLand1SlewL (q : Nat) : Fld := ⟨Reg.nitLand1 q, 16, 14⟩
def Reg.nitTune (q : Nat) : Nat := quadBase q + 0x200018
def F.nitTuneGainInit (q : Nat) : Fld := ⟨Reg.nitTune q, 0, 12⟩
def F.nitTuneGtMin (q : Nat) : Fld := ⟨Reg.nitTune q, 16, 14⟩
def Reg.nitProf (q n : Nat) : Nat := quadBase q + 0x200040 + 4 * n
def F.nitProfShape (q n : Nat) : Fld := ⟨Reg.nitProf q n, 0, 10⟩
def F.nitProfRef (q n : Nat) : Fld := ⟨Reg.nitProf q n, 16, 10⟩
def Reg.nitLane0 (q : Nat) : Nat := quadBase q + 0x200080
def F.nitLane0RetLo (q : Nat) : Fld := ⟨Reg.nitLane0 q, 0, 32⟩
def Reg.nitLane1 (q : Nat) : Nat := quadBase q + 0x200084
def F.nitLane1RetHi (q : Nat) : Fld := ⟨Reg.nitLane1 q, 0, 32⟩
def Reg.nitLaneTest0 (q : Nat) : Nat := quadBase q + 0x200088
def F.nitLaneTest0TestLo (q : Nat) : Fld := ⟨Reg.nitLaneTest0 q, 0, 32⟩
def Reg.nitLaneTest1 (q : Nat) : Nat := quadBase q + 0x20008C
def F.nitLaneTest1TestHi (q : Nat) : Fld := ⟨Reg.nitLaneTest1 q, 0, 32⟩
def Reg.nitCap (q : Nat) : Nat := quadBase q + 0x200090
def F.nitCapNMax (q : Nat) : Fld := ⟨Reg.nitCap q, 0, 9⟩
def Reg.nitCellCmd (q : Nat) : Nat := quadBase q + 0x2000A0
def F.nitCellCmdCell (q : Nat) : Fld := ⟨Reg.nitCellCmd q, 0, 16⟩
def F.nitCellCmdOp (q : Nat) : Fld := ⟨Reg.nitCellCmd q, 16, 2⟩
def F.nitCellCmdGoBusy (q : Nat) : Fld := ⟨Reg.nitCellCmd q, 31, 1⟩
def Reg.nitCellData0 (q : Nat) : Nat := quadBase q + 0x2000A4
def F.nitCellData0Word0 (q : Nat) : Fld := ⟨Reg.nitCellData0 q, 0, 32⟩
def Reg.nitCellData1 (q : Nat) : Nat := quadBase q + 0x2000A8
def F.nitCellData1Word1 (q : Nat) : Fld := ⟨Reg.nitCellData1 q, 0, 32⟩
def Reg.nitCellRes (q : Nat) : Nat := quadBase q + 0x2000AC
def F.nitCellResResult (q : Nat) : Fld := ⟨Reg.nitCellRes q, 0, 2⟩
def Reg.nitEvt (q : Nat) : Nat := quadBase q + 0x2000B0
def F.nitEvtReacqDone (q : Nat) : Fld := ⟨Reg.nitEvt q, 0, 1⟩
def F.nitEvtReacqFail (q : Nat) : Fld := ⟨Reg.nitEvt q, 1, 1⟩
def F.nitEvtPark (q : Nat) : Fld := ⟨Reg.nitEvt q, 2, 1⟩
def F.nitEvtLaneRet (q : Nat) : Fld := ⟨Reg.nitEvt q, 3, 1⟩
def F.nitEvtCap (q : Nat) : Fld := ⟨Reg.nitEvt q, 4, 1⟩
def F.nitEvtLiftDone (q : Nat) : Fld := ⟨Reg.nitEvt q, 5, 1⟩
def F.nitEvtCntHr (q : Nat) : Fld := ⟨Reg.nitEvt q, 6, 1⟩
def Reg.nitEvtEn (q : Nat) : Nat := quadBase q + 0x2000B4
def F.nitEvtEnNotice (q : Nat) : Fld := ⟨Reg.nitEvtEn q, 0, 7⟩
def Reg.nitCh0 (m : Nat) : Nat := quadBase (m / 256) + 0x201000 + 0x10 * (m % 256)
def F.nitCh0Cell (m : Nat) : Fld := ⟨Reg.nitCh0 m, 0, 16⟩
def F.nitCh0Bound (m : Nat) : Fld := ⟨Reg.nitCh0 m, 16, 1⟩
def F.nitCh0Attempt (m : Nat) : Fld := ⟨Reg.nitCh0 m, 17, 1⟩
def F.nitCh0Dest (m : Nat) : Fld := ⟨Reg.nitCh0 m, 18, 1⟩
def F.nitCh0Round (m : Nat) : Fld := ⟨Reg.nitCh0 m, 24, 6⟩
def Reg.nitCh1 (m : Nat) : Nat := quadBase (m / 256) + 0x201004 + 0x10 * (m % 256)
def F.nitCh1Out (m : Nat) : Fld := ⟨Reg.nitCh1 m, 0, 14⟩
def F.nitCh1Sense (m : Nat) : Fld := ⟨Reg.nitCh1 m, 16, 14⟩
def Reg.nitCh2 (m : Nat) : Nat := quadBase (m / 256) + 0x201008 + 0x10 * (m % 256)
def F.nitCh2Integ (m : Nat) : Fld := ⟨Reg.nitCh2 m, 0, 32⟩
def Reg.nitCh3 (m : Nat) : Nat := quadBase (m / 256) + 0x20100C + 0x10 * (m % 256)
def Reg.fabCtl : Nat := 0x100000
def F.fabCtlEn : Fld := ⟨Reg.fabCtl, 0, 1⟩
def F.fabCtlAsapLead : Fld := ⟨Reg.fabCtl, 16, 14⟩
def Reg.fabSts : Nat := 0x100004
def F.fabStsFvalid : Fld := ⟨Reg.fabSts, 0, 1⟩
def F.fabStsStaged : Fld := ⟨Reg.fabSts, 1, 4⟩
def F.fabStsLoading : Fld := ⟨Reg.fabSts, 5, 1⟩
def F.fabStsLoadErr : Fld := ⟨Reg.fabSts, 12, 4⟩
def F.fabStsExec : Fld := ⟨Reg.fabSts, 16, 4⟩
def Reg.fabLoad : Nat := 0x100008
def F.fabLoadMap : Fld := ⟨Reg.fabLoad, 0, 8⟩
def F.fabLoadGo : Fld := ⟨Reg.fabLoad, 31, 1⟩
def Reg.fabLast0 : Nat := 0x100010
def F.fabLast0Result : Fld := ⟨Reg.fabLast0, 0, 4⟩
def F.fabLast0Src : Fld := ⟨Reg.fabLast0, 4, 2⟩
def F.fabLast0Ring : Fld := ⟨Reg.fabLast0, 6, 3⟩
def F.fabLast0Map : Fld := ⟨Reg.fabLast0, 16, 8⟩
def F.fabLast0Qmask : Fld := ⟨Reg.fabLast0, 24, 4⟩
def Reg.fabLast1 : Nat := 0x100014
def F.fabLast1Tag : Fld := ⟨Reg.fabLast1, 0, 16⟩
def Reg.fabLast6 : Nat := 0x100028
def F.fabLast6Settle : Fld := ⟨Reg.fabLast6, 0, 32⟩
def Reg.fabLast7 : Nat := 0x10002C
def F.fabLast7OkCells : Fld := ⟨Reg.fabLast7, 0, 11⟩
def F.fabLast7BadCells : Fld := ⟨Reg.fabLast7, 11, 11⟩
def Reg.fabEvt : Nat := 0x100040
def F.fabEvtPartial : Fld := ⟨Reg.fabEvt, 0, 1⟩
def F.fabEvtReject : Fld := ⟨Reg.fabEvt, 1, 1⟩
def F.fabEvtDiscard : Fld := ⟨Reg.fabEvt, 2, 1⟩
def F.fabEvtLoadErr : Fld := ⟨Reg.fabEvt, 3, 1⟩
def F.fabEvtCntHr : Fld := ⟨Reg.fabEvt, 4, 1⟩
def Reg.fabEvtEn : Nat := 0x100044
def F.fabEvtEnNotice : Fld := ⟨Reg.fabEvtEn, 0, 5⟩
def Reg.polCtl : Nat := 0x140000
def F.polCtlEn : Fld := ⟨Reg.polCtl, 0, 1⟩
def F.polCtlHubId : Fld := ⟨Reg.polCtl, 16, 16⟩
def Reg.polRev : Nat := 0x140004
def F.polRevRevLead : Fld := ⟨Reg.polRev, 0, 20⟩
def Reg.polNdaLo : Nat := 0x140008
def F.polNdaLoNdaLo : Fld := ⟨Reg.polNdaLo, 0, 32⟩
def Reg.polNdaHi : Nat := 0x14000C
def F.polNdaHiNdaHi : Fld := ⟨Reg.polNdaHi, 0, 16⟩
def Reg.polNfmt : Nat := 0x140010
def F.polNfmtEtype : Fld := ⟨Reg.polNfmt, 0, 16⟩
def F.polNfmtVlan : Fld := ⟨Reg.polNfmt, 16, 1⟩
def Reg.polNtci : Nat := 0x140014
def F.polNtciTci : Fld := ⟨Reg.polNtci, 0, 16⟩
def Reg.polSts : Nat := 0x140018
def F.polStsQueued : Fld := ⟨Reg.polSts, 0, 11⟩
def F.polStsNseq : Fld := ⟨Reg.polSts, 16, 16⟩
def Reg.polEvt : Nat := 0x140040
def F.polEvtSwitch : Fld := ⟨Reg.polEvt, 0, 1⟩
def F.polEvtProtFail : Fld := ⟨Reg.polEvt, 1, 1⟩
def F.polEvtRestored : Fld := ⟨Reg.polEvt, 2, 1⟩
def F.polEvtRevert : Fld := ⟨Reg.polEvt, 3, 1⟩
def F.polEvtRevFail : Fld := ⟨Reg.polEvt, 4, 1⟩
def F.polEvtCntHr : Fld := ⟨Reg.polEvt, 5, 1⟩
def Reg.polEvtEn : Nat := 0x140044
def F.polEvtEnNotice : Fld := ⟨Reg.polEvtEn, 0, 6⟩
def Reg.lldCtl (q : Nat) : Nat := quadBase q + 0x3C1000
def F.lldCtlEn (q : Nat) : Fld := ⟨Reg.lldCtl q, 0, 1⟩
def F.lldCtlRestoreN (q : Nat) : Fld := ⟨Reg.lldCtl q, 16, 16⟩
def Reg.lldBlank (q : Nat) : Nat := quadBase q + 0x3C1004
def F.lldBlankBlankPost (q : Nat) : Fld := ⟨Reg.lldBlank q, 0, 16⟩
def Reg.lldMon0 (m : Nat) : Nat := quadBase (m / 256) + 0x3C2000 + 0x10 * (m % 256)
def F.lldMon0LosThresh (m : Nat) : Fld := ⟨Reg.lldMon0 m, 0, 16⟩
def F.lldMon0ClrThresh (m : Nat) : Fld := ⟨Reg.lldMon0 m, 16, 16⟩
def Reg.lldMon1 (m : Nat) : Nat := quadBase (m / 256) + 0x3C2004 + 0x10 * (m % 256)
def F.lldMon1En (m : Nat) : Fld := ⟨Reg.lldMon1 m, 0, 1⟩
def F.lldMon1State (m : Nat) : Fld := ⟨Reg.lldMon1 m, 1, 3⟩
def F.lldMon1Blanked (m : Nat) : Fld := ⟨Reg.lldMon1 m, 4, 1⟩
def Reg.lldMon2 (m : Nat) : Nat := quadBase (m / 256) + 0x3C2008 + 0x10 * (m % 256)
def F.lldMon2Loss (m : Nat) : Fld := ⟨Reg.lldMon2 m, 0, 32⟩
def Reg.lldMon3 (m : Nat) : Nat := quadBase (m / 256) + 0x3C200C + 0x10 * (m % 256)
def F.lldMon3OnsetNs (m : Nat) : Fld := ⟨Reg.lldMon3 m, 0, 32⟩
def Reg.anlCtl : Nat := 0x40000
def F.anlCtlEn : Fld := ⟨Reg.anlCtl, 0, 1⟩
def F.anlCtlTapEn : Fld := ⟨Reg.anlCtl, 1, 1⟩
def F.anlCtlRunNow : Fld := ⟨Reg.anlCtl, 4, 4⟩
def Reg.anlCfg : Nat := 0x40004
def F.anlCfgLoPt : Fld := ⟨Reg.anlCfg, 0, 3⟩
def F.anlCfgHiPt : Fld := ⟨Reg.anlCfg, 3, 3⟩
def F.anlCfgStepGap : Fld := ⟨Reg.anlCfg, 8, 8⟩
def F.anlCfgMaxAge : Fld := ⟨Reg.anlCfg, 16, 16⟩
def Reg.anlLim : Nat := 0x40008
def F.anlLimMaxOfs : Fld := ⟨Reg.anlLim, 0, 10⟩
def F.anlLimMaxGain : Fld := ⟨Reg.anlLim, 16, 10⟩
def Reg.anlEvt : Nat := 0x40010
def F.anlEvtPassDone : Fld := ⟨Reg.anlEvt, 0, 4⟩
def F.anlEvtStepErr : Fld := ⟨Reg.anlEvt, 4, 4⟩
def F.anlEvtSat : Fld := ⟨Reg.anlEvt, 8, 4⟩
def F.anlEvtCntHr : Fld := ⟨Reg.anlEvt, 12, 1⟩
def Reg.anlEvtEn : Nat := 0x40014
def F.anlEvtEnNotice : Fld := ⟨Reg.anlEvtEn, 0, 13⟩
def Reg.anlZone0 (n : Nat) : Nat := 0x40100 + 16 * n
def F.anlZone0Temp (n : Nat) : Fld := ⟨Reg.anlZone0 n, 0, 16⟩
def F.anlZone0Valid (n : Nat) : Fld := ⟨Reg.anlZone0 n, 16, 1⟩
def Reg.anlZone1 (n : Nat) : Nat := 0x40104 + 16 * n
def F.anlZone1TRef (n : Nat) : Fld := ⟨Reg.anlZone1 n, 0, 16⟩
def Reg.anlZone2 (n : Nat) : Nat := 0x40108 + 16 * n
def F.anlZone2Delta (n : Nat) : Fld := ⟨Reg.anlZone2 n, 0, 9⟩
def Reg.anlQ0 (n : Nat) : Nat := 0x40400 + 64 * n
def F.anlQ0Due (n : Nat) : Fld := ⟨Reg.anlQ0 n, 0, 1⟩
def F.anlQ0Pass (n : Nat) : Fld := ⟨Reg.anlQ0 n, 1, 1⟩
def F.anlQ0Step (n : Nat) : Fld := ⟨Reg.anlQ0 n, 2, 1⟩
def F.anlQ0Group (n : Nat) : Fld := ⟨Reg.anlQ0 n, 3, 7⟩
def F.anlQ0Push (n : Nat) : Fld := ⟨Reg.anlQ0 n, 10, 1⟩
def F.anlQ0WaitSens (n : Nat) : Fld := ⟨Reg.anlQ0 n, 11, 1⟩
def F.anlQ0UncalN (n : Nat) : Fld := ⟨Reg.anlQ0 n, 16, 7⟩
def Reg.anlQ1 (n : Nat) : Nat := 0x40404 + 64 * n
def F.anlQ1LastNs (n : Nat) : Fld := ⟨Reg.anlQ1 n, 0, 32⟩
def Reg.anlQ2 (n : Nat) : Nat := 0x40408 + 64 * n
def F.anlQ2LastSec (n : Nat) : Fld := ⟨Reg.anlQ2 n, 0, 32⟩
def Reg.anlGroup (q g : Nat) : Nat := 0x41000 + 0x200 * q + 4 * g
def F.anlGroupSrc (q g : Nat) : Fld := ⟨Reg.anlGroup q g, 0, 2⟩
def F.anlGroupUncal (q g : Nat) : Fld := ⟨Reg.anlGroup q g, 2, 1⟩
def F.anlGroupHostw (q g : Nat) : Fld := ⟨Reg.anlGroup q g, 3, 1⟩
def F.anlGroupLast (q g : Nat) : Fld := ⟨Reg.anlGroup q g, 4, 3⟩
def F.anlGroupSteps (q g : Nat) : Fld := ⟨Reg.anlGroup q g, 8, 8⟩
def F.anlGroupAge (q g : Nat) : Fld := ⟨Reg.anlGroup q g, 16, 16⟩
def Reg.anlTrim (q g n : Nat) : Nat := 0x44000 + 0x3000 * q + 0x80 * g + 4 * n
def F.anlTrimOffset (q g n : Nat) : Fld := ⟨Reg.anlTrim q g n, 0, 10⟩
def F.anlTrimGain (q g n : Nat) : Fld := ⟨Reg.anlTrim q g n, 10, 10⟩
def Reg.cbsCtl (c : Nat) : Nat := 0xB1000 + 0x1000 * c + 0x0
def F.cbsCtlEn (c : Nat) : Fld := ⟨Reg.cbsCtl c, 0, 1⟩
def F.cbsCtlSyncNode (c : Nat) : Fld := ⟨Reg.cbsCtl c, 1, 1⟩
def F.cbsCtlCsEn (c : Nat) : Fld := ⟨Reg.cbsCtl c, 2, 1⟩
def F.cbsCtlNtEn (c : Nat) : Fld := ⟨Reg.cbsCtl c, 3, 1⟩
def F.cbsCtlAutoRestart (c : Nat) : Fld := ⟨Reg.cbsCtl c, 4, 1⟩
def F.cbsCtlModeInit (c : Nat) : Fld := ⟨Reg.cbsCtl c, 5, 3⟩
def F.cbsCtlPi (c : Nat) : Fld := ⟨Reg.cbsCtl c, 8, 6⟩
def Reg.cbsCfg (c : Nat) : Nat := 0xB1000 + 0x1000 * c + 0x4
def F.cbsCfgMinSync (c : Nat) : Fld := ⟨Reg.cbsCfg c, 0, 4⟩
def F.cbsCfgNosyncMax (c : Nat) : Fld := ⟨Reg.cbsCfg c, 4, 4⟩
def F.cbsCfgPassiveMax (c : Nat) : Fld := ⟨Reg.cbsCfg c, 8, 8⟩
def F.cbsCfgListenTo (c : Nat) : Fld := ⟨Reg.cbsCfg c, 16, 4⟩
def F.cbsCfgNtSlew (c : Nat) : Fld := ⟨Reg.cbsCfg c, 20, 7⟩
def Reg.cbsNtPhase (c : Nat) : Nat := 0xB1000 + 0x1000 * c + 0x8
def F.cbsNtPhasePhase (c : Nat) : Fld := ⟨Reg.cbsNtPhase c, 0, 30⟩
def Reg.cbsSpokeEn (c : Nat) : Nat := 0xB1000 + 0x1000 * c + 0xC
def F.cbsSpokeEnS0 (c : Nat) : Fld := ⟨Reg.cbsSpokeEn c, 0, 1⟩
def F.cbsSpokeEnEn (c : Nat) : Fld := ⟨Reg.cbsSpokeEn c, 1, 15⟩
def Reg.cbsSts (c : Nat) : Nat := 0xB1000 + 0x1000 * c + 0x10
def F.cbsStsState (c : Nat) : Fld := ⟨Reg.cbsSts c, 0, 4⟩
def F.cbsStsMode (c : Nat) : Fld := ⟨Reg.cbsSts c, 4, 3⟩
def F.cbsStsCycle (c : Nat) : Fld := ⟨Reg.cbsSts c, 8, 6⟩
def F.cbsStsSyncN (c : Nat) : Fld := ⟨Reg.cbsSts c, 16, 5⟩
def F.cbsStsLeader (c : Nat) : Fld := ⟨Reg.cbsSts c, 21, 4⟩
def F.cbsStsErr (c : Nat) : Fld := ⟨Reg.cbsSts c, 25, 4⟩
def F.cbsStsNtSat (c : Nat) : Fld := ⟨Reg.cbsSts c, 29, 1⟩
def Reg.cbsModeReq (c : Nat) : Nat := 0xB1000 + 0x1000 * c + 0x14
def F.cbsModeReqMode (c : Nat) : Fld := ⟨Reg.cbsModeReq c, 0, 3⟩
def F.cbsModeReqLead (c : Nat) : Fld := ⟨Reg.cbsModeReq c, 4, 5⟩
def F.cbsModeReqGo (c : Nat) : Fld := ⟨Reg.cbsModeReq c, 31, 1⟩
def Reg.cbsModeSts (c : Nat) : Nat := 0xB1000 + 0x1000 * c + 0x18
def F.cbsModeStsNext (c : Nat) : Fld := ⟨Reg.cbsModeSts c, 0, 3⟩
def F.cbsModeStsPend (c : Nat) : Fld := ⟨Reg.cbsModeSts c, 3, 1⟩
def F.cbsModeStsLeft (c : Nat) : Fld := ⟨Reg.cbsModeSts c, 4, 5⟩
def F.cbsModeStsRej (c : Nat) : Fld := ⟨Reg.cbsModeSts c, 12, 4⟩
def Reg.cbsOfs (c : Nat) : Nat := 0xB1000 + 0x1000 * c + 0x1C
def F.cbsOfsMid (c : Nat) : Fld := ⟨Reg.cbsOfs c, 0, 16⟩
def Reg.cbsRate (c : Nat) : Nat := 0xB1000 + 0x1000 * c + 0x20
def F.cbsRateRho (c : Nat) : Fld := ⟨Reg.cbsRate c, 0, 16⟩
def Reg.cbsTrip (c : Nat) : Nat := 0xB1000 + 0x1000 * c + 0x24
def F.cbsTripMaxAge (c : Nat) : Fld := ⟨Reg.cbsTrip c, 0, 16⟩
def F.cbsTripQueued (c : Nat) : Fld := ⟨Reg.cbsTrip c, 16, 4⟩
def Reg.cbsEvt (c : Nat) : Nat := 0xB1000 + 0x1000 * c + 0x30
def F.cbsEvtNormal (c : Nat) : Fld := ⟨Reg.cbsEvt c, 0, 1⟩
def F.cbsEvtLost (c : Nat) : Fld := ⟨Reg.cbsEvt c, 1, 1⟩
def F.cbsEvtHalt (c : Nat) : Fld := ⟨Reg.cbsEvt c, 2, 1⟩
def F.cbsEvtStartupFail (c : Nat) : Fld := ⟨Reg.cbsEvt c, 3, 1⟩
def F.cbsEvtBlock (c : Nat) : Fld := ⟨Reg.cbsEvt c, 4, 1⟩
def F.cbsEvtModeSw (c : Nat) : Fld := ⟨Reg.cbsEvt c, 5, 1⟩
def F.cbsEvtModeRej (c : Nat) : Fld := ⟨Reg.cbsEvt c, 6, 1⟩
def F.cbsEvtTripDrop (c : Nat) : Fld := ⟨Reg.cbsEvt c, 7, 1⟩
def F.cbsEvtCntHr (c : Nat) : Fld := ⟨Reg.cbsEvt c, 8, 1⟩
def Reg.cbsEvtEn (c : Nat) : Nat := 0xB1000 + 0x1000 * c + 0x34
def F.cbsEvtEnNotice (c : Nat) : Fld := ⟨Reg.cbsEvtEn c, 0, 9⟩
def Reg.cbsSpk0 (c k : Nat) : Nat := 0xB1000 + 0x1000 * c + 0x800 + 0x40 * k
def F.cbsSpk0Cs (c k : Nat) : Fld := ⟨Reg.cbsSpk0 c k, 0, 1⟩
def F.cbsSpk0Sync (c k : Nat) : Fld := ⟨Reg.cbsSpk0 c k, 1, 1⟩
def F.cbsSpk0Rxf (c k : Nat) : Fld := ⟨Reg.cbsSpk0 c k, 2, 1⟩
def F.cbsSpk0Unblock (c k : Nat) : Fld := ⟨Reg.cbsSpk0 c k, 3, 1⟩
def Reg.cbsSpk1 (c k : Nat) : Nat := 0xB1000 + 0x1000 * c + 0x804 + 0x40 * k
def F.cbsSpk1State (c k : Nat) : Fld := ⟨Reg.cbsSpk1 c k, 0, 2⟩
def F.cbsSpk1Strikes (c k : Nat) : Fld := ⟨Reg.cbsSpk1 c k, 2, 2⟩
def F.cbsSpk1Lock (c k : Nat) : Fld := ⟨Reg.cbsSpk1 c k, 4, 1⟩
def F.cbsSpk1Dev (c k : Nat) : Fld := ⟨Reg.cbsSpk1 c k, 16, 16⟩
def Reg.mtxCtl : Nat := 0x70000
def F.mtxCtlSeqRun : Fld := ⟨Reg.mtxCtl, 0, 1⟩
def F.mtxCtlRemap : Fld := ⟨Reg.mtxCtl, 1, 1⟩
def F.mtxCtlUrEn : Fld := ⟨Reg.mtxCtl, 2, 1⟩
def F.mtxCtlRegPark : Fld := ⟨Reg.mtxCtl, 8, 4⟩
def F.mtxCtlSeqPark : Fld := ⟨Reg.mtxCtl, 12, 4⟩
def Reg.mtxHbase (n : Nat) : Nat := 0x70010 + 4 * n
def F.mtxHbaseBase (n : Nat) : Fld := ⟨Reg.mtxHbase n, 0, 26⟩
def Reg.mtxSpw0 (n : Nat) : Nat := 0x70020 + 8 * n
def F.mtxSpw0BaseLo (n : Nat) : Fld := ⟨Reg.mtxSpw0 n, 12, 20⟩
def Reg.mtxSpw1 (n : Nat) : Nat := 0x70024 + 8 * n
def F.mtxSpw1BaseHi (n : Nat) : Fld := ⟨Reg.mtxSpw1 n, 0, 8⟩
def F.mtxSpw1SizeLog2 (n : Nat) : Fld := ⟨Reg.mtxSpw1 n, 8, 5⟩
def F.mtxSpw1En (n : Nat) : Fld := ⟨Reg.mtxSpw1 n, 31, 1⟩
def Reg.mtxDefLog0 : Nat := 0x70040
def F.mtxDefLog0AddrLo : Fld := ⟨Reg.mtxDefLog0, 0, 32⟩
def Reg.mtxDefLog1 : Nat := 0x70044
def F.mtxDefLog1AddrHi : Fld := ⟨Reg.mtxDefLog1, 0, 8⟩
def F.mtxDefLog1Master : Fld := ⟨Reg.mtxDefLog1, 8, 4⟩
def F.mtxDefLog1Write : Fld := ⟨Reg.mtxDefLog1, 12, 1⟩
def F.mtxDefLog1Iso : Fld := ⟨Reg.mtxDefLog1, 13, 1⟩
def F.mtxDefLog1Hxl : Fld := ⟨Reg.mtxDefLog1, 14, 1⟩
def F.mtxDefLog1V : Fld := ⟨Reg.mtxDefLog1, 31, 1⟩
def Reg.mtxOut (n : Nat) : Nat := 0x70100 + 4 * n
def F.mtxOutRd (n : Nat) : Fld := ⟨Reg.mtxOut n, 0, 7⟩
def F.mtxOutWr (n : Nat) : Fld := ⟨Reg.mtxOut n, 8, 7⟩
def F.mtxOutRst (n : Nat) : Fld := ⟨Reg.mtxOut n, 15, 1⟩
def Reg.bmvSrcLo (n : Nat) : Nat := 0x80000 + 64 * n
def F.bmvSrcLoSrcLo (n : Nat) : Fld := ⟨Reg.bmvSrcLo n, 0, 32⟩
def Reg.bmvSrcHi (n : Nat) : Nat := 0x80004 + 64 * n
def F.bmvSrcHiSrcHi (n : Nat) : Fld := ⟨Reg.bmvSrcHi n, 0, 8⟩
def Reg.bmvDstLo (n : Nat) : Nat := 0x80008 + 64 * n
def F.bmvDstLoDstLo (n : Nat) : Fld := ⟨Reg.bmvDstLo n, 0, 32⟩
def Reg.bmvDstHi (n : Nat) : Nat := 0x8000C + 64 * n
def F.bmvDstHiDstHi (n : Nat) : Fld := ⟨Reg.bmvDstHi n, 0, 8⟩
def Reg.bmvLen (n : Nat) : Nat := 0x80010 + 64 * n
def F.bmvLenLen (n : Nat) : Fld := ⟨Reg.bmvLen n, 0, 24⟩
def Reg.bmvCtl (n : Nat) : Nat := 0x80014 + 64 * n
def F.bmvCtlEn (n : Nat) : Fld := ⟨Reg.bmvCtl n, 0, 1⟩
def F.bmvCtlGoBusy (n : Nat) : Fld := ⟨Reg.bmvCtl n, 1, 1⟩
def Reg.bmvSts (n : Nat) : Nat := 0x80018 + 64 * n
def F.bmvStsDone (n : Nat) : Fld := ⟨Reg.bmvSts n, 0, 1⟩
def F.bmvStsStatus (n : Nat) : Fld := ⟨Reg.bmvSts n, 1, 3⟩
def Reg.bmvBytes (n : Nat) : Nat := 0x8001C + 64 * n
def F.bmvBytesBytes (n : Nat) : Fld := ⟨Reg.bmvBytes n, 0, 24⟩
def Reg.sealCtl (n : Nat) : Nat := 0x90000 + 256 * n
def F.sealCtlPoly (n : Nat) : Fld := ⟨Reg.sealCtl n, 0, 2⟩
def F.sealCtlAliveEn (n : Nat) : Fld := ⟨Reg.sealCtl n, 2, 1⟩
def F.sealCtlEn (n : Nat) : Fld := ⟨Reg.sealCtl n, 3, 1⟩
def F.sealCtlW (n : Nat) : Fld := ⟨Reg.sealCtl n, 8, 8⟩
def Reg.sealSts (n : Nat) : Nat := 0x90004 + 256 * n
def F.sealStsLast (n : Nat) : Fld := ⟨Reg.sealSts n, 0, 16⟩
def F.sealStsLastV (n : Nat) : Fld := ⟨Reg.sealSts n, 16, 1⟩
def F.sealStsCandV (n : Nat) : Fld := ⟨Reg.sealSts n, 17, 1⟩
def Reg.sealStart (n : Nat) : Nat := 0x90008 + 256 * n
def F.sealStartStart (n : Nat) : Fld := ⟨Reg.sealStart n, 0, 1⟩
def Reg.sealRes (n : Nat) : Nat := 0x9000C + 256 * n
def F.sealResDone (n : Nat) : Fld := ⟨Reg.sealRes n, 0, 1⟩
def F.sealResVerdict (n : Nat) : Fld := ⟨Reg.sealRes n, 1, 3⟩
def F.sealResAlive (n : Nat) : Fld := ⟨Reg.sealRes n, 16, 16⟩
def Reg.sealCrc (n : Nat) : Nat := 0x90010 + 256 * n
def F.sealCrcCrc (n : Nat) : Fld := ⟨Reg.sealCrc n, 0, 32⟩
def Reg.evrSink (n : Nat) : Nat := 0xA0000 + 4 * n
def F.evrSinkSrc (n : Nat) : Fld := ⟨Reg.evrSink n, 0, 6⟩
def Reg.evrSoft : Nat := 0xA0080
def F.evrSoftFire : Fld := ⟨Reg.evrSoft, 0, 1⟩
def Reg.qchCtl : Nat := 0x20000
def F.qchCtlAutoRec : Fld := ⟨Reg.qchCtl, 0, 1⟩
def F.qchCtlAliveEn : Fld := ⟨Reg.qchCtl, 1, 1⟩
def F.qchCtlFirstClr : Fld := ⟨Reg.qchCtl, 2, 1⟩
def F.qchCtlSwFatal : Fld := ⟨Reg.qchCtl, 3, 1⟩
def F.qchCtlQuiet : Fld := ⟨Reg.qchCtl, 16, 10⟩
def Reg.qchSts : Nat := 0x20004
def F.qchStsFatal : Fld := ⟨Reg.qchSts, 0, 1⟩
def F.qchStsFirstV : Fld := ⟨Reg.qchSts, 1, 1⟩
def F.qchStsAlive : Fld := ⟨Reg.qchSts, 2, 1⟩
def F.qchStsFault : Fld := ⟨Reg.qchSts, 3, 1⟩
def F.qchStsIso : Fld := ⟨Reg.qchSts, 4, 4⟩
def Reg.qchFsw0 : Nat := 0x20010
def F.qchFsw0SrcLo : Fld := ⟨Reg.qchFsw0, 0, 32⟩
def Reg.qchFsw1 : Nat := 0x20014
def F.qchFsw1SrcHi : Fld := ⟨Reg.qchFsw1, 0, 32⟩
def Reg.qchPend0 : Nat := 0x20018
def F.qchPend0PendLo : Fld := ⟨Reg.qchPend0, 0, 32⟩
def Reg.qchPend1 : Nat := 0x2001C
def F.qchPend1PendHi : Fld := ⟨Reg.qchPend1, 0, 32⟩
def Reg.qchFirst0 : Nat := 0x20020
def F.qchFirst0MaskLo : Fld := ⟨Reg.qchFirst0, 0, 32⟩
def Reg.qchFirst1 : Nat := 0x20024
def F.qchFirst1MaskHi : Fld := ⟨Reg.qchFirst1, 0, 32⟩
def Reg.qchFirst2 : Nat := 0x20028
def F.qchFirst2TsNs : Fld := ⟨Reg.qchFirst2, 0, 32⟩
def Reg.qchFirst3 : Nat := 0x2002C
def F.qchFirst3TsSec : Fld := ⟨Reg.qchFirst3, 0, 32⟩
def Reg.qchWd : Nat := 0x20030
def F.qchWdWdEn : Fld := ⟨Reg.qchWd, 0, 1⟩
def F.qchWdKick : Fld := ⟨Reg.qchWd, 1, 1⟩
def F.qchWdTimeout : Fld := ⟨Reg.qchWd, 16, 16⟩
def Reg.qchInj : Nat := 0x20034
def F.qchInjSrc : Fld := ⟨Reg.qchInj, 0, 6⟩
def F.qchInjCause : Fld := ⟨Reg.qchInj, 8, 3⟩
def F.qchInjBits : Fld := ⟨Reg.qchInj, 12, 2⟩
def F.qchInjArm : Fld := ⟨Reg.qchInj, 31, 1⟩
def Reg.qchUnit (n : Nat) : Nat := 0x20040 + 4 * n
def F.qchUnitState (n : Nat) : Fld := ⟨Reg.qchUnit n, 0, 2⟩
def F.qchUnitRecover (n : Nat) : Fld := ⟨Reg.qchUnit n, 2, 1⟩
def F.qchUnitHour (n : Nat) : Fld := ⟨Reg.qchUnit n, 8, 4⟩
def F.qchUnitRcnt (n : Nat) : Fld := ⟨Reg.qchUnit n, 16, 16⟩
def Reg.qchSrc0 (n : Nat) : Nat := 0x20100 + 8 * n
def F.qchSrc0Grace (n : Nat) : Fld := ⟨Reg.qchSrc0 n, 0, 20⟩
def F.qchSrc0Class (n : Nat) : Fld := ⟨Reg.qchSrc0 n, 20, 2⟩
def F.qchSrc0FaultEn (n : Nat) : Fld := ⟨Reg.qchSrc0 n, 22, 1⟩
def F.qchSrc0NtcEn (n : Nat) : Fld := ⟨Reg.qchSrc0 n, 23, 1⟩
def F.qchSrc0Esc (n : Nat) : Fld := ⟨Reg.qchSrc0 n, 24, 1⟩
def Reg.qchSrc1 (n : Nat) : Nat := 0x20104 + 8 * n
def F.qchSrc1Cause (n : Nat) : Fld := ⟨Reg.qchSrc1 n, 0, 16⟩
def F.qchSrc1Count (n : Nat) : Fld := ⟨Reg.qchSrc1 n, 16, 16⟩
def Reg.brzCtl : Nat := 0x60000
def F.brzCtlFreeze : Fld := ⟨Reg.brzCtl, 0, 1⟩
def F.brzCtlUnfreeze : Fld := ⟨Reg.brzCtl, 1, 1⟩
def F.brzCtlFrzPfw : Fld := ⟨Reg.brzCtl, 2, 1⟩
def F.brzCtlFrzFatal : Fld := ⟨Reg.brzCtl, 3, 1⟩
def F.brzCtlKeepPfw : Fld := ⟨Reg.brzCtl, 4, 1⟩
def F.brzCtlKeepFatal : Fld := ⟨Reg.brzCtl, 5, 1⟩
def F.brzCtlKeepArm : Fld := ⟨Reg.brzCtl, 6, 1⟩
def F.brzCtlPost : Fld := ⟨Reg.brzCtl, 16, 16⟩
def Reg.brzSts : Nat := 0x60004
def F.brzStsFrozen : Fld := ⟨Reg.brzSts, 0, 1⟩
def F.brzStsFull : Fld := ⟨Reg.brzSts, 1, 1⟩
def F.brzStsFlushing : Fld := ⟨Reg.brzSts, 2, 1⟩
def F.brzStsReady : Fld := ⟨Reg.brzSts, 3, 1⟩
def Reg.brzSw0 : Nat := 0x60020
def F.brzSw0Code : Fld := ⟨Reg.brzSw0, 0, 10⟩
def F.brzSw0Index : Fld := ⟨Reg.brzSw0, 16, 16⟩
def Reg.brzSw1 : Nat := 0x60024
def F.brzSw1Arg0 : Fld := ⟨Reg.brzSw1, 0, 32⟩
def Reg.brzSw2 : Nat := 0x60028
def F.brzSw2Arg1 : Fld := ⟨Reg.brzSw2, 0, 32⟩
def Reg.brzKeepSts : Nat := 0x60040
def F.brzKeepStsNewest : Fld := ⟨Reg.brzKeepSts, 0, 2⟩
def F.brzKeepStsIncomplete : Fld := ⟨Reg.brzKeepSts, 2, 1⟩
def F.brzKeepStsCrcBad : Fld := ⟨Reg.brzKeepSts, 3, 1⟩
def F.brzKeepStsBusy : Fld := ⟨Reg.brzKeepSts, 4, 1⟩
def Reg.brzKeepSel : Nat := 0x60044
def F.brzKeepSelBank : Fld := ⟨Reg.brzKeepSel, 0, 1⟩
def F.brzKeepSelPage : Fld := ⟨Reg.brzKeepSel, 1, 2⟩
def Reg.brzLim (n : Nat) : Nat := 0x61000 + 4 * n
def F.brzLimLimit (n : Nat) : Fld := ⟨Reg.brzLim n, 0, 16⟩
def F.brzLimSupp (n : Nat) : Fld := ⟨Reg.brzLim n, 16, 16⟩
def Reg.supCtl : Nat := 0x50000
def F.supCtlEn : Fld := ⟨Reg.supCtl, 0, 1⟩
def F.supCtlNom : Fld := ⟨Reg.supCtl, 16, 12⟩
def Reg.supTh0 : Nat := 0x50004
def F.supTh0DipTh : Fld := ⟨Reg.supTh0, 0, 11⟩
def F.supTh0IntTh : Fld := ⟨Reg.supTh0, 16, 11⟩
def Reg.supTh1 : Nat := 0x50008
def F.supTh1SwellTh : Fld := ⟨Reg.supTh1, 0, 11⟩
def F.supTh1RipTh : Fld := ⟨Reg.supTh1, 16, 11⟩
def Reg.supTh2 : Nat := 0x5000C
def F.supTh2Hyst : Fld := ⟨Reg.supTh2, 0, 8⟩
def F.supTh2EvtMin : Fld := ⟨Reg.supTh2, 8, 8⟩
def F.supTh2RipN : Fld := ⟨Reg.supTh2, 16, 4⟩
def Reg.supNow : Nat := 0x50010
def F.supNowRaw : Fld := ⟨Reg.supNow, 0, 12⟩
def F.supNowVf : Fld := ⟨Reg.supNow, 16, 12⟩
def F.supNowValid : Fld := ⟨Reg.supNow, 31, 1⟩
def Reg.supExt : Nat := 0x50014
def F.supExtMin : Fld := ⟨Reg.supExt, 0, 12⟩
def F.supExtMax : Fld := ⟨Reg.supExt, 16, 12⟩
def F.supExtClr : Fld := ⟨Reg.supExt, 31, 1⟩
def Reg.supSts : Nat := 0x50018
def F.supStsActive : Fld := ⟨Reg.supSts, 0, 4⟩
def F.supStsPfw : Fld := ⟨Reg.supSts, 4, 1⟩
def F.supStsRipPp : Fld := ⟨Reg.supSts, 16, 10⟩
def Reg.pwrCtl : Nat := 0x10000
def F.pwrCtlCtrlRst : Fld := ⟨Reg.pwrCtl, 0, 1⟩
def F.pwrCtlKeepHa : Fld := ⟨Reg.pwrCtl, 1, 1⟩
def F.pwrCtlKeepHb : Fld := ⟨Reg.pwrCtl, 2, 1⟩
def F.pwrCtlHostAuto : Fld := ⟨Reg.pwrCtl, 3, 1⟩
def Reg.pwrOn0 : Nat := 0x10010
def F.pwrOn0Pd00 : Fld := ⟨Reg.pwrOn0, 0, 1⟩
def F.pwrOn0OnLo : Fld := ⟨Reg.pwrOn0, 1, 31⟩
def Reg.pwrOn1 : Nat := 0x10014
def F.pwrOn1OnHi : Fld := ⟨Reg.pwrOn1, 0, 20⟩
def Reg.pwrSts : Nat := 0x10028
def F.pwrStsBusy : Fld := ⟨Reg.pwrSts, 0, 1⟩
def F.pwrStsRefused : Fld := ⟨Reg.pwrSts, 1, 1⟩
def F.pwrStsRstGlitch : Fld := ⟨Reg.pwrSts, 2, 1⟩
def F.pwrStsRefDom : Fld := ⟨Reg.pwrSts, 8, 6⟩
def F.pwrStsRampDom : Fld := ⟨Reg.pwrSts, 16, 6⟩
def Reg.pwrCause : Nat := 0x10030
def F.pwrCauseDev : Fld := ⟨Reg.pwrCause, 0, 2⟩
def F.pwrCauseCtrl : Fld := ⟨Reg.pwrCause, 4, 2⟩
def F.pwrCauseCtrlCnt : Fld := ⟨Reg.pwrCause, 16, 16⟩
def Reg.pwrDom (n : Nat) : Nat := 0x10100 + 4 * n
def F.pwrDomState (n : Nat) : Fld := ⟨Reg.pwrDom n, 0, 2⟩
def F.pwrDomRamps (n : Nat) : Fld := ⟨Reg.pwrDom n, 16, 16⟩
def Reg.invSet0 : Nat := 0x30020
def Reg.invSet1 : Nat := 0x30024
def Reg.invSet2 : Nat := 0x30028
def Reg.invPtpId0 : Nat := 0x30104
def Reg.invPtpId1 : Nat := 0x30108
def Reg.tcapEdges (n : Nat) : Nat := 0x30214 + 32 * n
def Reg.invPcnt (p n : Nat) : Nat := 0x34020 + 0x40 * p + 4 * n
def Reg.invTlv (n : Nat) : Nat := 0x30180 + 4 * n
def Reg.macCnt (p n : Nat) : Nat := quadBase (p / 36) + 0x200 + 0x1000 * (p % 36) + 8 * n
def Reg.macCntHi (p n : Nat) : Nat := quadBase (p / 36) + 0x204 + 0x1000 * (p % 36) + 8 * n
def Reg.clsStg (q n : Nat) : Nat := quadBase q + 0x40010 + 4 * n
def Reg.clsCnt (p n : Nat) : Nat := quadBase (p / 36) + 0x41020 + 0x100 * (p % 36) + 8 * n
def Reg.clsCntHi (p n : Nat) : Nat := quadBase (p / 36) + 0x41024 + 0x100 * (p % 36) + 8 * n
def Reg.scbPendBase0 : Nat := 0x180010
def Reg.scbPendBase1 : Nat := 0x180014
def Reg.scbPendBase2 : Nat := 0x180018
def Reg.scbSw0 : Nat := 0x180020
def Reg.scbSw1 : Nat := 0x180024
def Reg.scbSw2 : Nat := 0x180028
def Reg.scbActCycle : Nat := 0x18002C
def Reg.scbCycleCnt : Nat := 0x180030
def Reg.scbCnt (n : Nat) : Nat := 0x180100 + 4 * n
def Reg.gateCnt (p n : Nat) : Nat := quadBase (p / 36) + 0x101020 + 0x80 * (p % 36) + 8 * n
def Reg.gateCntHi (p n : Nat) : Nat := quadBase (p / 36) + 0x101024 + 0x80 * (p % 36) + 8 * n
def Reg.dupStg (q n : Nat) : Nat := quadBase q + 0x180010 + 4 * n
def Reg.dupCnt (q n : Nat) : Nat := quadBase q + 0x180080 + 4 * n
def Reg.dupPairCnt (k n : Nat) : Nat := quadBase (k / 18) + 0x181040 + 0x100 * (k % 18) + 8 * n
def Reg.dupPairCntHi (k n : Nat) : Nat := quadBase (k / 18) + 0x181044 + 0x100 * (k % 18) + 8 * n
def Reg.ringCnt (r n : Nat) : Nat := ringBase r + 0x28 + 4 * n
def Reg.ntcLost (n : Nat) : Nat := 0x180C + 4 * n
def Reg.grfCnt (q n : Nat) : Nat := quadBase q + 0x3C0080 + 4 * n
def Reg.nitCnt (q n : Nat) : Nat := quadBase q + 0x200100 + 4 * n
def Reg.fabLast2 : Nat := 0x100018
def Reg.fabLast3 : Nat := 0x10001C
def Reg.fabLast4 : Nat := 0x100020
def Reg.fabLast5 : Nat := 0x100024
def Reg.fabCnt (n : Nat) : Nat := 0x100100 + 4 * n
def Reg.polCnt (n : Nat) : Nat := 0x140100 + 4 * n
def Reg.anlCnt (q n : Nat) : Nat := 0x40410 + 0x40 * q + 4 * n
def Reg.cbsCnt (c n : Nat) : Nat := 0xB1000 + 0x1000 * c + 0x100 + 4 * n
def Reg.cbsSpkCnt (c k n : Nat) : Nat := 0xB1000 + 0x1000 * c + 0x810 + 0x40 * k + 4 * n
def Reg.mtxCnt (n : Nat) : Nat := 0x70200 + 4 * n
def Reg.bmvCnt (n : Nat) : Nat := 0x80400 + 4 * n
def Reg.sealMsg (n k : Nat) : Nat := 0x90040 + 0x100 * n + 4 * k
def Reg.sealCnt (n k : Nat) : Nat := 0x900C0 + 0x100 * n + 4 * k
def Reg.evrCnt (n : Nat) : Nat := 0xA0100 + 4 * n
def Reg.brzWseq : Nat := 0x60008
def Reg.brzFseq : Nat := 0x6000C
def Reg.brzCnt (n : Nat) : Nat := 0x60010 + 4 * n
def Reg.brzKh (n : Nat) : Nat := 0x60060 + 4 * n
def Reg.supCnt (n : Nat) : Nat := 0x50020 + 4 * n
def Reg.pwrRdy0 : Nat := 0x10018
def Reg.pwrRdy1 : Nat := 0x1001C
def Reg.pwrHold0 : Nat := 0x10020
def Reg.pwrHold1 : Nat := 0x10024
def Reg.sringCtl : Nat := 0xF00
def F.sringCtlHdrFirst : Fld := ⟨Reg.sringCtl, 0, 1⟩
def F.sringCtlEccUnc : Fld := ⟨Reg.sringCtl, 16, 16⟩

end Sys2Proof.Machine
end

