-- ==== Sys2Proof/Machine/RegTable.lean ====
section
/-! DEFINITION. The access table of the register map: one row per register word of the manual's
field tables (R13, R14), with the word's reset value and the masks of its fields by access type. -/

namespace Sys2Proof.Machine

/-- A store rule of a field description ("stored as the nearer limit", "3 is stored as 0"). -/
inductive Adj where
  /-- An unsigned field stored as the nearer limit. -/
  | clamp (lo width least most : Nat)
  /-- A signed field stored as the nearer limit. -/
  | sclamp (lo width : Nat) (least most : Int)
  /-- One value stored as another. -/
  | remap (lo width value stored : Nat)
  /-- Values above a limit stored as 0. -/
  | above (lo width most : Nat)
  /-- Bits of a field that are always stored as 0. -/
  | keep (lo width mask : Nat)
  deriving DecidableEq, Repr

/-- One row of the access table. `dims` are the strides and counts of a register array, the largest
stride first; `impl` is the union of the masks that hold state. Bits in no mask are reserved or
write-only and read 0 (R14, R15). -/
structure RegRow where
  base : Nat
  dims : List (Nat × Nat)
  reset : Nat
  rw : Nat
  rwl : Nat
  w1c : Nat
  w1s : Nat
  ro : Nat
  adj : List Adj
  deriving DecidableEq, Repr

/-- The offset `o` names an element of the array with these strides and counts. -/
def dimsHit : List (Nat × Nat) → Nat → Bool
  | [], o => o == 0
  | (st, ct) :: ds, o => Nat.blt (o / st) ct && dimsHit ds (o % st)

/-- The row covers the word at BAR0 offset `a`. -/
def rowHit (r : RegRow) (a : Nat) : Bool := Nat.ble r.base a && dimsHit r.dims (a - r.base)

/-- The bits of the word that hold state. -/
def rowImpl (r : RegRow) : Nat := r.rw ||| r.rwl ||| r.w1c ||| r.w1s ||| r.ro

/-- The first row that covers the word. -/
def findRow : List RegRow → Nat → Option RegRow
  | [], _ => none
  | r :: rs, a => bif rowHit r a then some r else findRow rs a

/-- Rows of the GLB registers. -/
def glbRows : List RegRow :=
  [ ⟨0x800, [], 0x230F03, 0xFFFF03, 0x0, 0x0, 0x0, 0x0, [.clamp 8 8 5 50]⟩ -- hscSlkCtl
  , ⟨0x804, [], 0x14280014, 0x3F3F3F00, 0x0, 0x0, 0x0, 0x3F, []⟩ -- hscVid
  , ⟨0x810, [(0x4, 6)], 0x0, 0x0, 0x0, 0x0, 0x0, 0xB000FFFF, []⟩ -- hscMargin
  , ⟨0x830, [(0x4, 6)], 0x7FFF, 0x0, 0x0, 0x0, 0x0, 0xFFFF, []⟩ -- hscMarginMin
  , ⟨0x850, [(0x4, 6)], 0x0, 0x0, 0x0, 0x80000000, 0x0, 0x7FFFFFFF, []⟩ -- hscStall
  , ⟨0x870, [], 0x0, 0x0, 0x0, 0x0, 0x0, 0xFFFFFFFF, []⟩ -- hscLateArm
  , ⟨0x1000, [(0x40, 18)], 0x0, 0x0, 0xFFFFFF00, 0x0, 0x0, 0x0, []⟩ -- ringBaseLo
  , ⟨0x1004, [(0x40, 18)], 0x0, 0x0, 0xFFFFFFFF, 0x0, 0x0, 0x0, []⟩ -- ringBaseHi
  , ⟨0x1008, [(0x40, 18)], 0x0, 0x0, 0xFFFFFFF8, 0x0, 0x0, 0x0, []⟩ -- ringSlotLo
  , ⟨0x100C, [(0x40, 18)], 0x0, 0x0, 0xFFFFFFFF, 0x0, 0x0, 0x0, []⟩ -- ringSlotHi
  , ⟨0x1010, [(0x40, 16)], 0x101004, 0x1F00, 0x7F003F, 0x0, 0x0, 0x0, [.clamp 0 5 4 20, .clamp 8 5 1 16, .clamp 16 7 1 64]⟩ -- ringCfg
  , ⟨0x1410, [], 0x101004, 0x1F00, 0x7F001F, 0x0, 0x0, 0x20, [.clamp 0 5 4 20, .clamp 8 5 1 16, .clamp 16 7 1 64]⟩ -- ringCfg of ring 2320: OWNER fixed at Host A
  , ⟨0x1450, [], 0x101024, 0x1F00, 0x7F001F, 0x0, 0x0, 0x20, [.clamp 0 5 4 20, .clamp 8 5 1 16, .clamp 16 7 1 64]⟩ -- ringCfg of ring 2321: OWNER fixed at Host B
  , ⟨0x1014, [(0x40, 18)], 0x0, 0xFFFF0FFF, 0x0, 0x0, 0x0, 0x0, []⟩ -- ringIrq
  , ⟨0x1018, [(0x40, 18)], 0x0, 0x1, 0x0, 0x0, 0x0, 0x0, []⟩ -- ringCtl
  , ⟨0x101C, [(0x40, 18)], 0x2, 0x0, 0x0, 0x3F0030, 0x0, 0x1FC00F0F, []⟩ -- ringSts
  , ⟨0x1020, [(0x40, 18)], 0x0, 0x0, 0xFFFFFFFF, 0x0, 0x0, 0x0, []⟩ -- ringHead
  , ⟨0x1024, [(0x40, 18)], 0x0, 0x0, 0x0, 0x0, 0x0, 0xFFFFFFFF, []⟩ -- ringScan
  , ⟨0x1800, [(0x4, 2)], 0x0, 0xFFFFFFFF, 0x0, 0x0, 0x0, 0x0, []⟩ -- ntcCons
  , ⟨0x1808, [], 0x0, 0x0, 0x0, 0xF, 0x0, 0x30, []⟩ -- ntcSts
  , ⟨0x1028, [(0x40, 18), (0x4, 6)], 0x0, 0x0, 0x0, 0x0, 0x0, 0xFFFFFFFF, []⟩ -- ringCnt
  , ⟨0x180C, [(0x4, 2)], 0x0, 0x0, 0x0, 0x0, 0x0, 0xFFFFFFFF, []⟩ -- ntcLost
  , ⟨0xF00, [], 0x0, 0x1, 0x0, 0x0, 0x0, 0xFFFF0000, []⟩ -- sringCtl
  ]

/-- Rows of the PWR registers. -/
def pwrRows : List RegRow :=
  [ ⟨0x10000, [], 0x8, 0xE, 0x0, 0x0, 0x0, 0x0, []⟩ -- pwrCtl
  , ⟨0x10010, [], 0x1, 0xFFFFFFFE, 0x0, 0x0, 0x0, 0x1, []⟩ -- pwrOn0
  , ⟨0x10014, [], 0xE000, 0xFFFFF, 0x0, 0x0, 0x0, 0x0, []⟩ -- pwrOn1
  , ⟨0x10028, [], 0x0, 0x0, 0x0, 0x6, 0x0, 0x3F3F01, []⟩ -- pwrSts
  , ⟨0x10030, [], 0x1, 0x0, 0x0, 0x0, 0x0, 0xFFFF0033, []⟩ -- pwrCause
  , ⟨0x10100, [(0x4, 1)], 0x3, 0x0, 0x0, 0x0, 0x0, 0xFFFF0003, []⟩ -- pwrDom
  , ⟨0x10104, [(0x4, 51)], 0x0, 0x0, 0x0, 0x0, 0x0, 0xFFFF0003, []⟩ -- pwrDom
  , ⟨0x10018, [], 0x1, 0x0, 0x0, 0x0, 0x0, 0xFFFFFFFF, []⟩ -- pwrRdy0
  , ⟨0x1001C, [], 0x0, 0x0, 0x0, 0x0, 0x0, 0xFFFFF, []⟩ -- pwrRdy1
  , ⟨0x10020, [], 0x0, 0xFFFFFFFE, 0x0, 0x0, 0x0, 0x0, []⟩ -- pwrHold0
  , ⟨0x10024, [], 0x0, 0xFFFFF, 0x0, 0x0, 0x0, 0x0, []⟩ -- pwrHold1
  ]

/-- Rows of the QCH registers, part 0. -/
def qchRows0 : List RegRow :=
  [ ⟨0x20000, [], 0x640003, 0x3FF0003, 0x0, 0x0, 0x0, 0x0, [.clamp 16 10 1 1000]⟩ -- qchCtl
  , ⟨0x20004, [], 0x0, 0x0, 0x0, 0x0, 0x0, 0xFF, []⟩ -- qchSts
  , ⟨0x20010, [], 0x0, 0x0, 0x0, 0xFFFFFFFF, 0x0, 0x0, []⟩ -- qchFsw0
  , ⟨0x20014, [], 0x0, 0x0, 0x0, 0xFFFFFFFF, 0x0, 0x0, []⟩ -- qchFsw1
  , ⟨0x20018, [], 0x0, 0x0, 0x0, 0x0, 0x0, 0xFFFFFFFF, []⟩ -- qchPend0
  , ⟨0x2001C, [], 0x0, 0x0, 0x0, 0x0, 0x0, 0xFFFFFFFF, []⟩ -- qchPend1
  , ⟨0x20020, [], 0x0, 0x0, 0x0, 0x0, 0x0, 0xFFFFFFFF, []⟩ -- qchFirst0
  , ⟨0x20024, [], 0x0, 0x0, 0x0, 0x0, 0x0, 0xFFFFFFFF, []⟩ -- qchFirst1
  , ⟨0x20028, [], 0x0, 0x0, 0x0, 0x0, 0x0, 0xFFFFFFFF, []⟩ -- qchFirst2
  , ⟨0x2002C, [], 0x0, 0x0, 0x0, 0x0, 0x0, 0xFFFFFFFF, []⟩ -- qchFirst3
  , ⟨0x20030, [], 0x3E80000, 0xFFFF0001, 0x0, 0x0, 0x0, 0x0, [.remap 16 16 0 1]⟩ -- qchWd
  , ⟨0x20034, [], 0x0, 0x373F, 0x0, 0x0, 0x80000000, 0x0, []⟩ -- qchInj
  , ⟨0x20040, [(0x4, 11)], 0x0, 0x0, 0x0, 0x0, 0x0, 0xFFFF0F03, []⟩ -- qchUnit
  , ⟨0x20100, [(0x8, 5)], 0xD02710, 0x1CFFFFF, 0x0, 0x0, 0x0, 0x300000, [.clamp 0 20 0 1000000]⟩ -- qchSrc0
  , ⟨0x20128, [(0x8, 3)], 0x800000, 0x1CFFFFF, 0x0, 0x0, 0x0, 0x300000, [.clamp 0 20 0 1000000]⟩ -- qchSrc0
  , ⟨0x20140, [(0x8, 5)], 0xD02710, 0x1CFFFFF, 0x0, 0x0, 0x0, 0x300000, [.clamp 0 20 0 1000000]⟩ -- qchSrc0
  , ⟨0x20168, [(0x8, 3)], 0x800000, 0x1CFFFFF, 0x0, 0x0, 0x0, 0x300000, [.clamp 0 20 0 1000000]⟩ -- qchSrc0
  , ⟨0x20180, [(0x8, 5)], 0xD02710, 0x1CFFFFF, 0x0, 0x0, 0x0, 0x300000, [.clamp 0 20 0 1000000]⟩ -- qchSrc0
  , ⟨0x201A8, [(0x8, 3)], 0x800000, 0x1CFFFFF, 0x0, 0x0, 0x0, 0x300000, [.clamp 0 20 0 1000000]⟩ -- qchSrc0
  , ⟨0x201C0, [(0x8, 5)], 0xD02710, 0x1CFFFFF, 0x0, 0x0, 0x0, 0x300000, [.clamp 0 20 0 1000000]⟩ -- qchSrc0
  , ⟨0x201E8, [(0x8, 3)], 0x800000, 0x1CFFFFF, 0x0, 0x0, 0x0, 0x300000, [.clamp 0 20 0 1000000]⟩ -- qchSrc0
  , ⟨0x20200, [(0x8, 9)], 0xD02710, 0x1CFFFFF, 0x0, 0x0, 0x0, 0x300000, [.clamp 0 20 0 1000000]⟩ -- qchSrc0
  , ⟨0x20248, [(0x8, 13)], 0x800000, 0x1CFFFFF, 0x0, 0x0, 0x0, 0x300000, [.clamp 0 20 0 1000000]⟩ -- qchSrc0
  , ⟨0x202B0, [(0x8, 4)], 0xE00032, 0x1CFFFFF, 0x0, 0x0, 0x0, 0x300000, [.clamp 0 20 0 1000000]⟩ -- qchSrc0
  ]

/-- Rows of the QCH registers, part 1. -/
def qchRows1 : List RegRow :=
  [ ⟨0x202D0, [(0x8, 5)], 0x800000, 0x1CFFFFF, 0x0, 0x0, 0x0, 0x300000, [.clamp 0 20 0 1000000]⟩ -- qchSrc0
  , ⟨0x202F8, [(0x8, 1)], 0xE00032, 0x1CFFFFF, 0x0, 0x0, 0x0, 0x300000, [.clamp 0 20 0 1000000]⟩ -- qchSrc0
  , ⟨0x20104, [(0x8, 64)], 0x0, 0x0, 0x0, 0x0, 0x0, 0xFFFFFFFF, []⟩ -- qchSrc1
  ]

/-- Rows of the QCH registers. -/
def qchRows : List RegRow := qchRows0 ++ qchRows1

/-- Rows of the INV registers, part 0. -/
def invRows0 : List RegRow :=
  [ ⟨0x30000, [], 0x10, 0x31, 0x4E, 0x0, 0x0, 0x0, [.remap 1 2 3 0, .remap 4 2 3 2]⟩ -- invCtl
  , ⟨0x30004, [], 0x0, 0x0, 0x0, 0x800, 0x0, 0x3F7FF, []⟩ -- invSts
  , ⟨0x30010, [], 0x0, 0x0, 0x0, 0x0, 0x0, 0xFFFFFFFF, []⟩ -- invNow0
  , ⟨0x30014, [], 0x0, 0x0, 0x0, 0x0, 0x0, 0xFFFFFFFF, []⟩ -- invNow1
  , ⟨0x30018, [], 0x0, 0x0, 0x0, 0x0, 0x0, 0xFFFFFFFF, []⟩ -- invNow2
  , ⟨0x30030, [], 0x0, 0x0, 0x0, 0x0, 0x0, 0x0, []⟩ -- invAdj0
  , ⟨0x30034, [], 0x0, 0x0, 0x0, 0x0, 0x0, 0x0, []⟩ -- invAdj1
  , ⟨0x30040, [], 0x0, 0x0, 0x0, 0x0, 0x0, 0xFFFFFFFF, []⟩ -- invRate
  , ⟨0x30044, [], 0x0, 0x0, 0x0, 0x0, 0x0, 0xFFFFFFFF, []⟩ -- invRateMean
  , ⟨0x30048, [], 0x0, 0xFFFFFFFF, 0x0, 0x0, 0x0, 0x0, [.sclamp 0 32 (-256000000) 256000000]⟩ -- invRateSet
  , ⟨0x30050, [], 0x20000, 0x3FFFF, 0x0, 0x0, 0x0, 0x0, []⟩ -- invVtrim
  , ⟨0x30054, [], 0x1388, 0x0, 0xFFFFFFFF, 0x0, 0x0, 0x0, [.remap 0 32 0 1]⟩ -- invVtrimGain
  , ⟨0x30058, [], 0x20000, 0x0, 0x0, 0x0, 0x0, 0x3FFFF, []⟩ -- invVtrimBase
  , ⟨0x30060, [], 0x4000C0, 0xFFFFFF, 0x0, 0x0, 0x0, 0x0, []⟩ -- invServoCfg
  , ⟨0x30064, [], 0x640064, 0xFFFFFFFF, 0x0, 0x0, 0x0, 0x0, [.remap 0 16 0 1, .clamp 16 16 1 500]⟩ -- invServoLim
  , ⟨0x30068, [], 0x0, 0x0, 0x0, 0x0, 0x0, 0xFFFFFFFF, []⟩ -- invOffset
  , ⟨0x3006C, [], 0x3E8, 0xFFFFFFFF, 0x0, 0x0, 0x0, 0x0, [.clamp 0 32 100 4294967295]⟩ -- invStepThresh
  , ⟨0x30070, [], 0x3E80000, 0xFFFF0000, 0x0, 0x0, 0x0, 0xFFFF, []⟩ -- invHold
  , ⟨0x30080, [(0x4, 5)], 0x0, 0xFF, 0x0, 0x0, 0x0, 0x1FF00, []⟩ -- invFol
  , ⟨0x30100, [], 0x3060062, 0x1, 0xFF07FF7E, 0x0, 0x0, 0x0, [.remap 1 2 3 0, .remap 16 3 7 6, .clamp 24 8 2 10]⟩ -- invPtpCtl
  , ⟨0x3010C, [], 0x7068080, 0x0, 0xFFFFFFFF, 0x0, 0x0, 0x0, []⟩ -- invPtpDs
  , ⟨0x30110, [], 0x4E5D21F8, 0x0, 0xFFFFFFFF, 0x0, 0x0, 0x0, []⟩ -- invPtpDs2
  , ⟨0x30114, [], 0xA00025, 0x7FFFFFF, 0x0, 0x0, 0x0, 0x0, []⟩ -- invPtpDs3
  , ⟨0x30118, [], 0x0, 0x0, 0xFFFFFFFF, 0x0, 0x0, 0x0, []⟩ -- invPtpIntv
  ]

/-- Rows of the INV registers, part 1. INV_PLAT, for whose reset PHY Table 3.6 has no row, resets to 0: DESIGN CHOICE, log
entry 27. -/
def invRows1 : List RegRow :=
  [ ⟨0x30120, [], 0x0, 0x0, 0x0, 0x0, 0x0, 0xFFFFFFFF, []⟩ -- invParent0
  , ⟨0x30124, [], 0x0, 0x0, 0x0, 0x0, 0x0, 0xFFFFFFFF, []⟩ -- invParent1
  , ⟨0x30128, [], 0xFF000000, 0x0, 0x0, 0x0, 0x0, 0xFFFFFFFF, []⟩ -- invParent2
  , ⟨0x30140, [], 0x0, 0xFFFFFFFF, 0x0, 0x0, 0x0, 0x0, []⟩ -- invC37Inacc
  , ⟨0x30200, [(0x20, 4)], 0x0, 0x0, 0x0, 0x0, 0x0, 0x3, []⟩ -- tcapSts
  , ⟨0x30204, [(0x20, 4)], 0x0, 0x0, 0x0, 0x0, 0x0, 0xFFFFFFFF, []⟩ -- tcapNs
  , ⟨0x30208, [(0x20, 4)], 0x0, 0x0, 0x0, 0x0, 0x0, 0xFFFFFFFF, []⟩ -- tcapSec
  , ⟨0x3020C, [(0x20, 4)], 0x0, 0x0, 0x0, 0x0, 0x0, 0xFFFFFFFF, []⟩ -- tcapSecx
  , ⟨0x30210, [(0x20, 4)], 0x0, 0xF1E, 0x0, 0x0, 0x0, 0x0, [.remap 1 2 3 2]⟩ -- tcapCfg
  , ⟨0x30300, [(0x20, 4)], 0x0, 0x0, 0xFFFFFFFF, 0x0, 0x0, 0x0, []⟩ -- tpulseStartNs
  , ⟨0x30304, [(0x20, 4)], 0x0, 0x0, 0xFFFFFFFF, 0x0, 0x0, 0x0, []⟩ -- tpulseStartSec
  , ⟨0x30308, [(0x20, 4)], 0x0, 0x0, 0xFFFF, 0x0, 0x0, 0x0, []⟩ -- tpulseStartSecHi
  , ⟨0x3030C, [(0x20, 4)], 0x3B9ACA00, 0x0, 0xFFFFFFFF, 0x0, 0x0, 0x0, []⟩ -- tpulsePeriod
  , ⟨0x30310, [(0x20, 4)], 0x5F5E100, 0x0, 0xFFFFFFFF, 0x0, 0x0, 0x0, []⟩ -- tpulseWidth
  , ⟨0x30314, [(0x20, 4)], 0x0, 0x0, 0xFFFFFFFF, 0x0, 0x0, 0x0, []⟩ -- tpulseCount
  , ⟨0x30318, [(0x20, 4)], 0x0, 0x1, 0x2, 0x0, 0x0, 0x0, []⟩ -- tpulseCtl
  , ⟨0x3031C, [(0x20, 4)], 0x0, 0x0, 0x0, 0x2, 0x0, 0xFFFF0001, []⟩ -- tpulseSts
  , ⟨0x30400, [], 0x6, 0xFFFF000F, 0x0, 0x0, 0x0, 0x0, []⟩ -- irigCtl
  , ⟨0x30404, [], 0x0, 0x0, 0x0, 0x2, 0x0, 0xFFFF07FD, []⟩ -- irigSts
  , ⟨0x30408, [], 0x0, 0x0, 0x0, 0x0, 0x0, 0xFFFFFFFF, []⟩ -- irigOffset
  , ⟨0x3040C, [], 0x0, 0x0, 0x0, 0x0, 0x0, 0x1FFFFFF, []⟩ -- irigDate
  , ⟨0x30410, [], 0x0, 0x0, 0x0, 0x0, 0x0, 0x1FFFF, []⟩ -- irigSod
  , ⟨0x34000, [(0x40, 144)], 0x30, 0x7, 0x0, 0x0, 0x0, 0xF0, []⟩ -- invPctl
  , ⟨0x34004, [(0x40, 144)], 0x0, 0xFFFFFFFF, 0x0, 0x0, 0x0, 0x0, []⟩ -- invPlat
  ]

/-- Rows of the INV registers, part 2. The two TLV areas reset to 0: DESIGN CHOICE, log entry 95. -/
def invRows2 : List RegRow :=
  [ ⟨0x34008, [(0x40, 144)], 0x0, 0xFFFFFFFF, 0x0, 0x0, 0x0, 0x0, []⟩ -- invPasym
  , ⟨0x3400C, [(0x40, 144)], 0x0, 0x0, 0x0, 0x0, 0x0, 0x8FFFFFFF, []⟩ -- invPdly
  , ⟨0x30020, [], 0x0, 0x0, 0x0, 0x0, 0x0, 0x0, []⟩ -- invSet0
  , ⟨0x30024, [], 0x0, 0x0, 0x0, 0x0, 0x0, 0x0, []⟩ -- invSet1
  , ⟨0x30028, [], 0x0, 0x0, 0x0, 0x0, 0x0, 0x0, []⟩ -- invSet2
  , ⟨0x30104, [], 0x0, 0x0, 0xFFFFFFFF, 0x0, 0x0, 0x0, []⟩ -- invPtpId0
  , ⟨0x30108, [], 0x0, 0x0, 0xFFFFFFFF, 0x0, 0x0, 0x0, []⟩ -- invPtpId1
  , ⟨0x30214, [(0x20, 4)], 0x0, 0x0, 0x0, 0x0, 0x0, 0xFFFFFFFF, []⟩ -- tcapEdges
  , ⟨0x34020, [(0x40, 144), (0x4, 8)], 0x0, 0x0, 0x0, 0x0, 0x0, 0xFFFFFFFF, []⟩ -- invPcnt
  , ⟨0x30180, [(0x4, 16)], 0x0, 0xFFFFFFFF, 0x0, 0x0, 0x0, 0x0, []⟩ -- invTlv
  , ⟨0x301C0, [(0x4, 16)], 0x0, 0x0, 0x0, 0x0, 0x0, 0xFFFFFFFF, []⟩ -- invTlv
  ]

/-- Rows of the INV registers; INV_PLAT and the TLV areas reset to 0 (DESIGN CHOICE, log entries 27 and 95). -/
def invRows : List RegRow := invRows0 ++ invRows1 ++ invRows2

/-- Rows of the ANL registers. -/
def anlRows : List RegRow :=
  [ ⟨0x40000, [], 0x2, 0x3, 0x0, 0x0, 0xF0, 0x0, []⟩ -- anlCtl
  , ⟨0x40004, [], 0x131, 0xFFFF0000, 0xFF3F, 0x0, 0x0, 0x0, [.remap 8 8 0 1]⟩ -- anlCfg
  , ⟨0x40008, [], 0x800040, 0x3FF03FF, 0x0, 0x0, 0x0, 0x0, [.clamp 0 10 1 511, .clamp 16 10 1 511]⟩ -- anlLim
  , ⟨0x40010, [], 0x0, 0x0, 0x0, 0x1FFF, 0x0, 0x0, []⟩ -- anlEvt
  , ⟨0x40014, [], 0xFF0, 0x1FFF, 0x0, 0x0, 0x0, 0x0, []⟩ -- anlEvtEn
  , ⟨0x40100, [(0x10, 24)], 0x8000, 0x0, 0x0, 0x0, 0x0, 0x1FFFF, []⟩ -- anlZone0
  , ⟨0x40104, [(0x10, 24)], 0x8000, 0x0, 0x0, 0x0, 0x0, 0xFFFF, []⟩ -- anlZone1
  , ⟨0x40108, [(0x10, 24)], 0x30, 0x1FF, 0x0, 0x0, 0x0, 0x0, [.clamp 0 9 8 320]⟩ -- anlZone2
  , ⟨0x40400, [(0x40, 4)], 0x0, 0x0, 0x0, 0x0, 0x0, 0x7F0FFF, []⟩ -- anlQ0
  , ⟨0x40404, [(0x40, 4)], 0x0, 0x0, 0x0, 0x0, 0x0, 0xFFFFFFFF, []⟩ -- anlQ1
  , ⟨0x40408, [(0x40, 4)], 0x0, 0x0, 0x0, 0x0, 0x0, 0xFFFFFFFF, []⟩ -- anlQ2
  , ⟨0x41000, [(0x200, 4), (0x4, 96)], 0x0, 0x0, 0x8, 0x0, 0x0, 0xFFFFFF77, []⟩ -- anlGroup
  , ⟨0x44000, [(0x3000, 4), (0x80, 96), (0x4, 32)], 0x0, 0x0, 0xFFFFF, 0x0, 0x0, 0x0, []⟩ -- anlTrim
  , ⟨0x40410, [(0x40, 4), (0x4, 8)], 0x0, 0x0, 0x0, 0x0, 0x0, 0xFFFFFFFF, []⟩ -- anlCnt
  ]

/-- Rows of the SUP registers. -/
def supRows : List RegRow :=
  [ ⟨0x50000, [], 0x0, 0xFFF0001, 0x0, 0x0, 0x0, 0x0, []⟩ -- supCtl
  , ⟨0x50004, [], 0x640320, 0x7FF07FF, 0x0, 0x0, 0x0, 0x0, []⟩ -- supTh0
  , ⟨0x50008, [], 0x3204B0, 0x7FF07FF, 0x0, 0x0, 0x0, 0x0, []⟩ -- supTh1
  , ⟨0x5000C, [], 0x31414, 0xFFFFF, 0x0, 0x0, 0x0, 0x0, [.remap 8 8 0 1, .remap 16 4 0 1]⟩ -- supTh2
  , ⟨0x50010, [], 0x0, 0x0, 0x0, 0x0, 0x0, 0x8FFF0FFF, []⟩ -- supNow
  , ⟨0x50014, [], 0xFFF, 0x0, 0x0, 0x0, 0x0, 0xFFF0FFF, []⟩ -- supExt
  , ⟨0x50018, [], 0x0, 0x0, 0x0, 0x0, 0x0, 0x3FF001F, []⟩ -- supSts
  , ⟨0x50020, [(0x4, 5)], 0x0, 0x0, 0x0, 0x0, 0x0, 0xFFFFFFFF, []⟩ -- supCnt
  ]

/-- Rows of the BRZ registers. -/
def brzRows : List RegRow :=
  [ ⟨0x60000, [], 0x4000007C, 0xFFFF003C, 0x0, 0x0, 0x41, 0x0, [.clamp 16 16 0 61440]⟩ -- brzCtl
  , ⟨0x60004, [], 0x0, 0x0, 0x0, 0x0, 0x0, 0xF, []⟩ -- brzSts
  , ⟨0x60020, [], 0x0, 0x0, 0x0, 0x0, 0x0, 0x0, []⟩ -- brzSw0
  , ⟨0x60024, [], 0x0, 0x0, 0x0, 0x0, 0x0, 0x0, []⟩ -- brzSw1
  , ⟨0x60028, [], 0x0, 0x0, 0x0, 0x0, 0x0, 0x0, []⟩ -- brzSw2
  , ⟨0x60040, [], 0x3, 0x0, 0x0, 0xC, 0x0, 0x13, []⟩ -- brzKeepSts
  , ⟨0x60044, [], 0x0, 0x7, 0x0, 0x0, 0x0, 0x0, []⟩ -- brzKeepSel
  , ⟨0x61000, [(0x4, 128)], 0x0, 0xFFFF, 0x0, 0x0, 0x0, 0xFFFF0000, []⟩ -- brzLim
  , ⟨0x61200, [(0x4, 896)], 0x40, 0xFFFF, 0x0, 0x0, 0x0, 0xFFFF0000, []⟩ -- brzLim
  , ⟨0x60008, [], 0x0, 0x0, 0x0, 0x0, 0x0, 0xFFFFFFFF, []⟩ -- brzWseq
  , ⟨0x6000C, [], 0x0, 0x0, 0x0, 0x0, 0x0, 0xFFFFFFFF, []⟩ -- brzFseq
  , ⟨0x60010, [(0x4, 4)], 0x0, 0x0, 0x0, 0x0, 0x0, 0xFFFFFFFF, []⟩ -- brzCnt
  , ⟨0x60060, [(0x4, 8)], 0x0, 0x0, 0x0, 0x0, 0x0, 0xFFFFFFFF, []⟩ -- brzKh
  ]

/-- Rows of the MTX registers. -/
def mtxRows : List RegRow :=
  [ ⟨0x70000, [], 0x8001, 0xFF05, 0x2, 0x0, 0x0, 0x0, []⟩ -- mtxCtl
  , ⟨0x70010, [(0x4, 2)], 0x0, 0x3FFFFFF, 0x0, 0x0, 0x0, 0x0, []⟩ -- mtxHbase
  , ⟨0x70020, [(0x8, 4)], 0x0, 0xFFFFF000, 0x0, 0x0, 0x0, 0x0, []⟩ -- mtxSpw0
  , ⟨0x70024, [(0x8, 1)], 0x80001A01, 0x80001FFF, 0x0, 0x0, 0x0, 0x0, [.clamp 8 5 12 30]⟩ -- mtxSpw1
  , ⟨0x7002C, [(0x8, 3)], 0xC00, 0x80001FFF, 0x0, 0x0, 0x0, 0x0, [.clamp 8 5 12 30]⟩ -- mtxSpw1
  , ⟨0x70040, [], 0x0, 0x0, 0x0, 0x0, 0x0, 0xFFFFFFFF, []⟩ -- mtxDefLog0
  , ⟨0x70044, [], 0x0, 0x0, 0x0, 0x80000000, 0x0, 0x7FFF, []⟩ -- mtxDefLog1
  , ⟨0x70100, [(0x4, 11)], 0x0, 0x0, 0x0, 0x0, 0x0, 0xFF7F, []⟩ -- mtxOut
  , ⟨0x70200, [(0x4, 3)], 0x0, 0x0, 0x0, 0x0, 0x0, 0xFFFFFFFF, []⟩ -- mtxCnt
  ]

/-- Rows of the BMV registers. -/
def bmvRows : List RegRow :=
  [ ⟨0x80000, [(0x40, 8)], 0x0, 0xFFFFFFFF, 0x0, 0x0, 0x0, 0x0, []⟩ -- bmvSrcLo
  , ⟨0x80004, [(0x40, 8)], 0x0, 0xFF, 0x0, 0x0, 0x0, 0x0, []⟩ -- bmvSrcHi
  , ⟨0x80008, [(0x40, 8)], 0x0, 0xFFFFFFFF, 0x0, 0x0, 0x0, 0x0, []⟩ -- bmvDstLo
  , ⟨0x8000C, [(0x40, 8)], 0x0, 0xFF, 0x0, 0x0, 0x0, 0x0, []⟩ -- bmvDstHi
  , ⟨0x80010, [(0x40, 8)], 0x0, 0xFFFFFF, 0x0, 0x0, 0x0, 0x0, []⟩ -- bmvLen
  , ⟨0x80014, [(0x40, 8)], 0x0, 0x1, 0x0, 0x0, 0x2, 0x0, []⟩ -- bmvCtl
  , ⟨0x80018, [(0x40, 8)], 0x0, 0x0, 0x0, 0x0, 0x0, 0xF, []⟩ -- bmvSts
  , ⟨0x8001C, [(0x40, 8)], 0x0, 0x0, 0x0, 0x0, 0x0, 0xFFFFFF, []⟩ -- bmvBytes
  , ⟨0x80400, [(0x4, 4)], 0x0, 0x0, 0x0, 0x0, 0x0, 0xFFFFFFFF, []⟩ -- bmvCnt
  ]

/-- Rows of the SEAL registers. -/
def sealRows : List RegRow :=
  [ ⟨0x90000, [(0x100, 8)], 0x404, 0x8, 0xFF07, 0x0, 0x0, 0x0, [.remap 8 8 0 1]⟩ -- sealCtl
  , ⟨0x90004, [(0x100, 8)], 0x0, 0x0, 0x0, 0x0, 0x0, 0x3FFFF, []⟩ -- sealSts
  , ⟨0x90008, [(0x100, 8)], 0x0, 0x0, 0x0, 0x0, 0x0, 0x0, []⟩ -- sealStart
  , ⟨0x9000C, [(0x100, 8)], 0x0, 0x0, 0x0, 0x0, 0x0, 0xFFFF000F, []⟩ -- sealRes
  , ⟨0x90010, [(0x100, 8)], 0x0, 0x0, 0x0, 0x0, 0x0, 0xFFFFFFFF, []⟩ -- sealCrc
  , ⟨0x90040, [(0x100, 8), (0x4, 20)], 0x0, 0xFFFFFFFF, 0x0, 0x0, 0x0, 0x0, []⟩ -- sealMsg
  , ⟨0x900C0, [(0x100, 8), (0x4, 9)], 0x0, 0x0, 0x0, 0x0, 0x0, 0xFFFFFFFF, []⟩ -- sealCnt
  ]

/-- Rows of the EVR registers. -/
def evrRows : List RegRow :=
  [ ⟨0xA0000, [(0x4, 13)], 0x0, 0x3F, 0x0, 0x0, 0x0, 0x0, [.above 0 6 23]⟩ -- evrSink
  , ⟨0xA0080, [], 0x0, 0x0, 0x0, 0x0, 0x0, 0x0, []⟩ -- evrSoft
  , ⟨0xA0100, [(0x4, 13)], 0x0, 0x0, 0x0, 0x0, 0x0, 0xFFFFFFFF, []⟩ -- evrCnt
  ]

/-- Rows of the CBS registers. -/
def cbsRows : List RegRow :=
  [ ⟨0xB1000, [(0x1000, 4)], 0xA16, 0x11, 0x3FEE, 0x0, 0x0, 0x0, [.clamp 8 6 1 50]⟩ -- cbsCtl
  , ⟨0xB1004, [(0x1000, 4)], 0x824042, 0x7F0FFF0, 0xF000F, 0x0, 0x0, 0x0, [.remap 0 4 0 1, .remap 4 4 0 1, .remap 8 8 0 1, .remap 16 4 0 1, .clamp 20 7 1 80]⟩ -- cbsCfg
  , ⟨0xB1008, [(0x1000, 4)], 0x0, 0x0, 0x3FFFFFFF, 0x0, 0x0, 0x0, []⟩ -- cbsNtPhase
  , ⟨0xB100C, [(0x1000, 4)], 0x1, 0xFFFE, 0x0, 0x0, 0x0, 0x1, []⟩ -- cbsSpokeEn
  , ⟨0xB1010, [(0x1000, 4)], 0x0, 0x0, 0x0, 0x0, 0x0, 0x3FFF3F7F, []⟩ -- cbsSts
  , ⟨0xB1014, [(0x1000, 4)], 0x0, 0x0, 0x0, 0x0, 0x0, 0x0, []⟩ -- cbsModeReq
  , ⟨0xB1018, [(0x1000, 4)], 0x0, 0x0, 0x0, 0x0, 0x0, 0xF1FF, []⟩ -- cbsModeSts
  , ⟨0xB101C, [(0x1000, 4)], 0x0, 0x0, 0x0, 0x0, 0x0, 0xFFFF, []⟩ -- cbsOfs
  , ⟨0xB1020, [(0x1000, 4)], 0x0, 0x0, 0x0, 0x0, 0x0, 0xFFFF, []⟩ -- cbsRate
  , ⟨0xB1024, [(0x1000, 4)], 0x0, 0xFFFF, 0x0, 0x0, 0x0, 0xF0000, []⟩ -- cbsTrip
  , ⟨0xB1030, [(0x1000, 4)], 0x0, 0x0, 0x0, 0x1FF, 0x0, 0x0, []⟩ -- cbsEvt
  , ⟨0xB1034, [(0x1000, 4)], 0xDE, 0x1FF, 0x0, 0x0, 0x0, 0x0, []⟩ -- cbsEvtEn
  , ⟨0xB1840, [(0x1000, 4), (0x40, 15)], 0x4, 0x7, 0x0, 0x0, 0x0, 0x0, []⟩ -- cbsSpk0
  , ⟨0xB1844, [(0x1000, 4), (0x40, 15)], 0x0, 0x0, 0x0, 0x0, 0x0, 0xFFFF001F, []⟩ -- cbsSpk1
  , ⟨0xB1100, [(0x1000, 4), (0x4, 18)], 0x0, 0x0, 0x0, 0x0, 0x0, 0xFFFFFFFF, []⟩ -- cbsCnt
  , ⟨0xB1850, [(0x1000, 4), (0x40, 15), (0x4, 12)], 0x0, 0x0, 0x0, 0x0, 0x0, 0xFFFFFFFF, []⟩ -- cbsSpkCnt
  ]

/-- Rows of the FAB registers. -/
def fabRows : List RegRow :=
  [ ⟨0x100000, [], 0x7D00000, 0x1, 0x3FFF0000, 0x0, 0x0, 0x0, [.clamp 16 14 1700 10000]⟩ -- fabCtl
  , ⟨0x100004, [], 0x0, 0x0, 0x0, 0x0, 0x0, 0xFF03F, []⟩ -- fabSts
  , ⟨0x100008, [], 0x0, 0x0, 0x0, 0x0, 0x0, 0x0, []⟩ -- fabLoad
  , ⟨0x100010, [], 0x0, 0x0, 0x0, 0x0, 0x0, 0xFFF01FF, []⟩ -- fabLast0
  , ⟨0x100014, [], 0x0, 0x0, 0x0, 0x0, 0x0, 0xFFFF, []⟩ -- fabLast1
  , ⟨0x100028, [], 0x0, 0x0, 0x0, 0x0, 0x0, 0xFFFFFFFF, []⟩ -- fabLast6
  , ⟨0x10002C, [], 0x0, 0x0, 0x0, 0x0, 0x0, 0x3FFFFF, []⟩ -- fabLast7
  , ⟨0x100040, [], 0x0, 0x0, 0x0, 0x1F, 0x0, 0x0, []⟩ -- fabEvt
  , ⟨0x100044, [], 0xF, 0x1F, 0x0, 0x0, 0x0, 0x0, []⟩ -- fabEvtEn
  , ⟨0x100018, [], 0x0, 0x0, 0x0, 0x0, 0x0, 0xFFFFFFFF, []⟩ -- fabLast2
  , ⟨0x10001C, [], 0x0, 0x0, 0x0, 0x0, 0x0, 0xFFFFFFFF, []⟩ -- fabLast3
  , ⟨0x100020, [], 0x0, 0x0, 0x0, 0x0, 0x0, 0xFFFFFFFF, []⟩ -- fabLast4
  , ⟨0x100024, [], 0x0, 0x0, 0x0, 0x0, 0x0, 0xFFFFFFFF, []⟩ -- fabLast5
  , ⟨0x100100, [(0x4, 17)], 0x0, 0x0, 0x0, 0x0, 0x0, 0xFFFFFFFF, []⟩ -- fabCnt
  ]

/-- Rows of the POL registers. -/
def polRows : List RegRow :=
  [ ⟨0x140000, [], 0x0, 0xFFFF0001, 0x0, 0x0, 0x0, 0x0, []⟩ -- polCtl
  , ⟨0x140004, [], 0xC350, 0xFFFFF, 0x0, 0x0, 0x0, 0x0, [.clamp 0 20 2000 1000000]⟩ -- polRev
  , ⟨0x140008, [], 0x0, 0xFFFFFFFF, 0x0, 0x0, 0x0, 0x0, []⟩ -- polNdaLo
  , ⟨0x14000C, [], 0x0, 0xFFFF, 0x0, 0x0, 0x0, 0x0, []⟩ -- polNdaHi
  , ⟨0x140010, [], 0x88B5, 0x1FFFF, 0x0, 0x0, 0x0, 0x0, []⟩ -- polNfmt
  , ⟨0x140014, [], 0xE000, 0xFFFF, 0x0, 0x0, 0x0, 0x0, []⟩ -- polNtci
  , ⟨0x140018, [], 0x0, 0x0, 0x0, 0x0, 0x0, 0xFFFF07FF, []⟩ -- polSts
  , ⟨0x140040, [], 0x0, 0x0, 0x0, 0x3F, 0x0, 0x0, []⟩ -- polEvt
  , ⟨0x140044, [], 0x1F, 0x3F, 0x0, 0x0, 0x0, 0x0, []⟩ -- polEvtEn
  , ⟨0x140100, [(0x4, 11)], 0x0, 0x0, 0x0, 0x0, 0x0, 0xFFFFFFFF, []⟩ -- polCnt
  ]

/-- Rows of the SCB registers. -/
def scbRows : List RegRow :=
  [ ⟨0x180000, [], 0x640000, 0x1, 0x1FF0000, 0x0, 0x0, 0x0, [.clamp 16 9 20 500]⟩ -- scbCtl
  , ⟨0x180004, [], 0x0, 0x0, 0x0, 0x0, 0x0, 0xF0F, []⟩ -- scbSts
  , ⟨0x18001C, [], 0x0, 0x0, 0x0, 0x0, 0x0, 0x0, []⟩ -- scbAct
  , ⟨0x180040, [], 0x0, 0x0, 0x0, 0x3F, 0x0, 0x0, []⟩ -- scbEvt
  , ⟨0x180044, [], 0x6, 0x3F, 0x0, 0x0, 0x0, 0x0, []⟩ -- scbEvtEn
  , ⟨0x180010, [], 0x0, 0xFFFFFFFF, 0x0, 0x0, 0x0, 0x0, []⟩ -- scbPendBase0
  , ⟨0x180014, [], 0x0, 0xFFFFFFFF, 0x0, 0x0, 0x0, 0x0, []⟩ -- scbPendBase1
  , ⟨0x180018, [], 0x0, 0xFFFF, 0x0, 0x0, 0x0, 0x0, []⟩ -- scbPendBase2
  , ⟨0x180020, [], 0x0, 0x0, 0x0, 0x0, 0x0, 0xFFFFFFFF, []⟩ -- scbSw0
  , ⟨0x180024, [], 0x0, 0x0, 0x0, 0x0, 0x0, 0xFFFFFFFF, []⟩ -- scbSw1
  , ⟨0x180028, [], 0x0, 0x0, 0x0, 0x0, 0x0, 0xFFFFFFFF, []⟩ -- scbSw2
  , ⟨0x18002C, [], 0x0, 0x0, 0x0, 0x0, 0x0, 0xFFFFFFFF, []⟩ -- scbActCycle
  , ⟨0x180030, [], 0x0, 0x0, 0x0, 0x0, 0x0, 0xFFFFFFFF, []⟩ -- scbCycleCnt
  , ⟨0x180100, [(0x4, 9)], 0x0, 0x0, 0x0, 0x0, 0x0, 0xFFFFFFFF, []⟩ -- scbCnt
  ]

/-- Rows of the MAC registers. -/
def macRows : List RegRow :=
  [ ⟨0x1000000, [(0x800000, 4), (0x1000, 36)], 0x2, 0x3, 0x0, 0x0, 0x0, 0x0, []⟩ -- macCtl
  , ⟨0x1000008, [(0x800000, 4), (0x1000, 36)], 0x0, 0x0, 0xFFFFFFFF, 0x0, 0x0, 0x0, []⟩ -- macAddrLo
  , ⟨0x100000C, [(0x800000, 4), (0x1000, 36)], 0x0, 0x0, 0xFFFF, 0x0, 0x0, 0x0, []⟩ -- macAddrHi
  , ⟨0x1000010, [(0x800000, 4), (0x1000, 36)], 0x600, 0x0, 0x3FFF, 0x0, 0x0, 0x0, [.clamp 0 14 64 9600]⟩ -- macMaxf
  , ⟨0x1000014, [(0x800000, 4), (0x1000, 36)], 0x7F04, 0xFF07, 0x0, 0x0, 0x0, 0x0, [.remap 0 2 3 0]⟩ -- macFc
  , ⟨0x1000018, [(0x800000, 4), (0x1000, 36)], 0xFAC688, 0xFFFFFF, 0x0, 0x0, 0x0, 0x0, []⟩ -- macPfcMap
  , ⟨0x100001C, [(0x800000, 4), (0x1000, 36)], 0x0, 0x0, 0x0, 0x0, 0x0, 0xFFFF00FF, []⟩ -- macPauseSts
  , ⟨0x1000020, [(0x800000, 4), (0x1000, 36)], 0x30A000, 0x0, 0xFFFFFF, 0x0, 0x0, 0x0, [.keep 4 8 0x7F, .clamp 12 8 1 128, .remap 20 4 0 1]⟩ -- macPeCtl
  , ⟨0x1000024, [(0x800000, 4), (0x1000, 36)], 0x0, 0x0, 0x0, 0x0, 0x0, 0xFF, []⟩ -- macPeSts
  , ⟨0x100002C, [(0x800000, 4), (0x1000, 36)], 0x0, 0x0, 0x0, 0x7F, 0x0, 0x0, []⟩ -- macEvt
  , ⟨0x1000030, [(0x800000, 4), (0x1000, 36)], 0x13, 0x7F, 0x0, 0x0, 0x0, 0x0, []⟩ -- macEvtEn
  , ⟨0x1000038, [(0x800000, 4), (0x1000, 36)], 0x0, 0x0, 0x0, 0xFFFFFFFF, 0x0, 0x0, []⟩ -- macHr0
  , ⟨0x100003C, [(0x800000, 4), (0x1000, 36)], 0x0, 0x0, 0x0, 0x7FFFFFF, 0x0, 0x0, []⟩ -- macHr1
  , ⟨0x1000040, [(0x800000, 4), (0x1000, 36)], 0x640000, 0xFFFF0060, 0x1F, 0x0, 0x0, 0x0, [.remap 5 2 3 0]⟩ -- pcsCtl
  , ⟨0x1000044, [(0x800000, 4), (0x1000, 36)], 0x0, 0x0, 0x0, 0x0, 0x0, 0x1FF, []⟩ -- pcsSts
  , ⟨0x1000200, [(0x800000, 4), (0x1000, 36), (0x8, 59)], 0x0, 0x0, 0x0, 0x0, 0x0, 0xFFFFFFFF, []⟩ -- macCnt
  , ⟨0x1000204, [(0x800000, 4), (0x1000, 36), (0x8, 59)], 0x0, 0x0, 0x0, 0x0, 0x0, 0xFFFF, []⟩ -- macCntHi
  ]

/-- Rows of the SDS registers. -/
def sdsRows : List RegRow :=
  [ ⟨0x1024004, [(0x800000, 4), (0x1000, 6)], 0x0, 0x0, 0x0, 0x4, 0x0, 0x3, []⟩ -- sdsSts
  , ⟨0x1024100, [(0x800000, 4), (0x1000, 6), (0x20, 6)], 0x2600, 0x7FFFF, 0x0, 0x0, 0x0, 0x0, []⟩ -- sdsTxeq
  ]

/-- Rows of the CLS registers. -/
def clsRows : List RegRow :=
  [ ⟨0x1040000, [(0x800000, 4)], 0x88A80000, 0x1, 0xFFFF0000, 0x0, 0x0, 0x0, []⟩ -- clsCtl
  , ⟨0x1040020, [(0x800000, 4)], 0x0, 0x33FFF, 0x0, 0x0, 0x80000000, 0x0, []⟩ -- clsStgCmd
  , ⟨0x1040030, [(0x800000, 4)], 0x0, 0xFFFFFFFF, 0x0, 0x0, 0x0, 0x0, []⟩ -- clsHashKey0
  , ⟨0x1040034, [(0x800000, 4)], 0x0, 0xFFFFFFF, 0x0, 0x0, 0x0, 0x0, []⟩ -- clsHashKey1
  , ⟨0x1040038, [(0x800000, 4)], 0x0, 0x0, 0x0, 0x0, 0x0, 0xFFF, []⟩ -- clsHash
  , ⟨0x1040040, [(0x800000, 4)], 0x0, 0x3F, 0x0, 0x0, 0x0, 0x0, []⟩ -- mtrCtl
  , ⟨0x1040050, [(0x800000, 4)], 0x0, 0x3FFF, 0x0, 0x0, 0x0, 0x0, []⟩ -- mtrPeekIdx
  , ⟨0x1040054, [(0x800000, 4)], 0x0, 0x0, 0x0, 0x0, 0x0, 0xFFFFFFFF, []⟩ -- mtrPeekC
  , ⟨0x1040058, [(0x800000, 4)], 0x0, 0x0, 0x0, 0x0, 0x0, 0xFFFFFFFF, []⟩ -- mtrPeekX
  , ⟨0x104005C, [(0x800000, 4)], 0x0, 0x0, 0x0, 0x0, 0x0, 0xFFFFFFFF, []⟩ -- mtrPeekRed
  , ⟨0x1040060, [(0x800000, 4)], 0x0, 0x0, 0x0, 0x1000000, 0x0, 0xFFFFFF, []⟩ -- clsErr
  , ⟨0x1040100, [(0x800000, 4), (0x4, 1)], 0x800688B8, 0x8007FFFF, 0x0, 0x0, 0x0, 0x0, [.remap 16 3 7 6]⟩ -- clsEty
  , ⟨0x1040104, [(0x800000, 4), (0x4, 1)], 0x800688BA, 0x8007FFFF, 0x0, 0x0, 0x0, 0x0, [.remap 16 3 7 6]⟩ -- clsEty
  , ⟨0x1040108, [(0x800000, 4), (0x4, 6)], 0x0, 0x8007FFFF, 0x0, 0x0, 0x0, 0x0, [.remap 16 3 7 6]⟩ -- clsEty
  , ⟨0x1041000, [(0x800000, 4), (0x100, 36)], 0x10001, 0x1FCFFF, 0x0, 0x0, 0x0, 0x0, [.remap 17 3 7 6]⟩ -- clsPort0
  , ⟨0x1041004, [(0x800000, 4), (0x100, 36)], 0xDAC688, 0xFFFFFF, 0x0, 0x0, 0x0, 0x0, [.remap 0 3 7 6, .remap 3 3 7 6, .remap 6 3 7 6, .remap 9 3 7 6, .remap 12 3 7 6, .remap 15 3 7 6, .remap 18 3 7 6, .remap 21 3 7 6]⟩ -- clsPort1
  , ⟨0x1041008, [(0x800000, 4), (0x100, 36)], 0x0, 0x3FFF, 0x0, 0x0, 0x0, 0x0, []⟩ -- clsPort2
  , ⟨0x104100C, [(0x800000, 4), (0x100, 36)], 0x0, 0x0, 0x0, 0x7FF, 0x0, 0x0, []⟩ -- clsPort3
  , ⟨0x1040010, [(0x800000, 4), (0x4, 4)], 0x0, 0xFFFFFFFF, 0x0, 0x0, 0x0, 0x0, []⟩ -- clsStg
  , ⟨0x1041020, [(0x800000, 4), (0x100, 36), (0x8, 11)], 0x0, 0x0, 0x0, 0x0, 0x0, 0xFFFFFFFF, []⟩ -- clsCnt
  , ⟨0x1041024, [(0x800000, 4), (0x100, 36), (0x8, 11)], 0x0, 0x0, 0x0, 0x0, 0x0, 0xFFFF, []⟩ -- clsCntHi
  ]

/-- Rows of the GATE registers. -/
def gateRows : List RegRow :=
  [ ⟨0x1100000, [(0x800000, 4)], 0x0, 0x1, 0x0, 0x0, 0x0, 0x0, []⟩ -- gateCtl
  , ⟨0x1100100, [(0x800000, 4)], 0x0, 0xFFFF, 0x0, 0x0, 0x0, 0x0, [.remap 14 2 3 0]⟩ -- shpPeekSel
  , ⟨0x1100104, [(0x800000, 4)], 0x0, 0x0, 0x0, 0x0, 0x0, 0xFFFFFFFF, []⟩ -- shpPeekCredit
  , ⟨0x1100108, [(0x800000, 4)], 0x0, 0x0, 0x0, 0x0, 0x0, 0x7, []⟩ -- shpPeekSts
  , ⟨0x1101000, [(0x800000, 4), (0x80, 36)], 0x1400, 0xFFFF3F0F, 0x0, 0x0, 0x0, 0x0, []⟩ -- gatePort0
  , ⟨0x1101004, [(0x800000, 4), (0x80, 36)], 0x0, 0x3FF03FF, 0x0, 0x0, 0x0, 0x0, []⟩ -- gatePort1
  , ⟨0x1101008, [(0x800000, 4), (0x80, 36)], 0x0, 0xFFFFF, 0x0, 0x0, 0x0, 0x0, []⟩ -- gatePort2
  , ⟨0x110100C, [(0x800000, 4), (0x80, 36)], 0xFA0, 0xFFFFF, 0x0, 0x0, 0x0, 0x0, []⟩ -- gatePort3
  , ⟨0x1101010, [(0x800000, 4), (0x80, 36)], 0x0, 0xFFFFFFFF, 0x0, 0x0, 0x0, 0x0, []⟩ -- gatePort4
  , ⟨0x1101014, [(0x800000, 4), (0x80, 36)], 0xFF00FF, 0x0, 0x0, 0x0, 0x0, 0xFF03FF, []⟩ -- gatePort5
  , ⟨0x1101018, [(0x800000, 4), (0x80, 36)], 0x0, 0x0, 0x0, 0xFF, 0x0, 0x0, []⟩ -- gatePort6
  , ⟨0x1101020, [(0x800000, 4), (0x80, 36), (0x8, 8)], 0x0, 0x0, 0x0, 0x0, 0x0, 0xFFFFFFFF, []⟩ -- gateCnt
  , ⟨0x1101024, [(0x800000, 4), (0x80, 36), (0x8, 8)], 0x0, 0x0, 0x0, 0x0, 0x0, 0xFFFF, []⟩ -- gateCntHi
  ]

/-- Rows of the DUP registers. -/
def dupRows : List RegRow :=
  [ ⟨0x1180000, [(0x800000, 4)], 0xA03200, 0x3FFFF01, 0x0, 0x0, 0x0, 0x0, [.clamp 8 10 1 1000, .remap 18 4 0 1]⟩ -- dupCtl
  , ⟨0x1180020, [(0x800000, 4)], 0x0, 0x3FFFF, 0x0, 0x0, 0x80000000, 0x0, []⟩ -- dupStgCmd
  , ⟨0x1180030, [(0x800000, 4)], 0x0, 0xFFFFFFFF, 0x0, 0x0, 0x0, 0x0, []⟩ -- dupHashKey0
  , ⟨0x1180034, [(0x800000, 4)], 0x0, 0x1FFFFF, 0x0, 0x0, 0x0, 0x0, []⟩ -- dupHashKey1
  , ⟨0x1180038, [(0x800000, 4)], 0x0, 0x0, 0x0, 0x0, 0x0, 0x1FFF, []⟩ -- dupHash
  , ⟨0x1180040, [(0x800000, 4), (0x4, 8)], 0x7D0, 0xFFFF, 0x0, 0x0, 0x0, 0x0, [.clamp 0 16 1 10000]⟩ -- dupFrerRst
  , ⟨0x1180060, [(0x800000, 4)], 0x0, 0x0, 0x0, 0x3000000, 0x0, 0xFFFFFF, []⟩ -- dupErr
  , ⟨0x1181000, [(0x800000, 4), (0x100, 18)], 0x8, 0x1C, 0xE3, 0x0, 0x0, 0x0, []⟩ -- dupPair0
  , ⟨0x1181004, [(0x800000, 4), (0x100, 18)], 0x0, 0xFFFF, 0x0, 0x0, 0x0, 0x0, []⟩ -- dupPair1
  , ⟨0x1181008, [(0x800000, 4), (0x100, 18)], 0x0, 0x0, 0x0, 0x7FFFF, 0x0, 0x0, []⟩ -- dupPair2
  , ⟨0x1180010, [(0x800000, 4), (0x4, 4)], 0x0, 0xFFFFFFFF, 0x0, 0x0, 0x0, 0x0, []⟩ -- dupStg
  , ⟨0x1180080, [(0x800000, 4), (0x4, 5)], 0x0, 0x0, 0x0, 0x0, 0x0, 0xFFFFFFFF, []⟩ -- dupCnt
  , ⟨0x1181040, [(0x800000, 4), (0x100, 18), (0x8, 19)], 0x0, 0x0, 0x0, 0x0, 0x0, 0xFFFFFFFF, []⟩ -- dupPairCnt
  , ⟨0x1181044, [(0x800000, 4), (0x100, 18), (0x8, 19)], 0x0, 0x0, 0x0, 0x0, 0x0, 0xFFFF, []⟩ -- dupPairCntHi
  ]

/-- Rows of the RING registers. -/
def ringRows : List RegRow :=
  [ ⟨0x11C0000, [(0x800000, 4)], 0x0, 0x1, 0x0, 0x0, 0x0, 0xFFFF0000, []⟩ -- ringQctl
  , ⟨0x11C1000, [(0x800000, 4), (0x40, 576)], 0x0, 0x0, 0xFFFFFF00, 0x0, 0x0, 0x0, []⟩ -- ringBaseLo
  , ⟨0x11C1004, [(0x800000, 4), (0x40, 576)], 0x0, 0x0, 0xFFFFFFFF, 0x0, 0x0, 0x0, []⟩ -- ringBaseHi
  , ⟨0x11C1008, [(0x800000, 4), (0x40, 576)], 0x0, 0x0, 0xFFFFFFF8, 0x0, 0x0, 0x0, []⟩ -- ringSlotLo
  , ⟨0x11C100C, [(0x800000, 4), (0x40, 576)], 0x0, 0x0, 0xFFFFFFFF, 0x0, 0x0, 0x0, []⟩ -- ringSlotHi
  , ⟨0x11C1010, [(0x800000, 4), (0x40, 576)], 0x101004, 0x1F00, 0x7F003F, 0x0, 0x0, 0x0, [.clamp 0 5 4 20, .clamp 8 5 1 16, .clamp 16 7 1 64]⟩ -- ringCfg
  , ⟨0x11C1014, [(0x800000, 4), (0x40, 576)], 0x0, 0xFFFF0FFF, 0x0, 0x0, 0x0, 0x0, []⟩ -- ringIrq
  , ⟨0x11C1018, [(0x800000, 4), (0x40, 576)], 0x0, 0x1, 0x0, 0x0, 0x0, 0x0, []⟩ -- ringCtl
  , ⟨0x11C101C, [(0x800000, 4), (0x40, 576)], 0x2, 0x0, 0x0, 0x3F0030, 0x0, 0x1FC00F0F, []⟩ -- ringSts
  , ⟨0x11C1020, [(0x800000, 4), (0x40, 576)], 0x0, 0x0, 0xFFFFFFFF, 0x0, 0x0, 0x0, []⟩ -- ringHead
  , ⟨0x11C1024, [(0x800000, 4), (0x40, 576)], 0x0, 0x0, 0x0, 0x0, 0x0, 0xFFFFFFFF, []⟩ -- ringScan
  , ⟨0x11C1028, [(0x800000, 4), (0x40, 576), (0x4, 6)], 0x0, 0x0, 0x0, 0x0, 0x0, 0xFFFFFFFF, []⟩ -- ringCnt
  ]

/-- Rows of the NIT registers, part 0. -/
def nitRows0 : List RegRow :=
  [ ⟨0x1200000, [(0x800000, 4)], 0x4, 0x7, 0x0, 0x0, 0x0, 0x0, []⟩ -- nitCtl
  , ⟨0x1200004, [(0x800000, 4)], 0x0, 0x0, 0x0, 0x0, 0x0, 0xFFFF1F, []⟩ -- nitSts
  , ⟨0x1200008, [(0x800000, 4)], 0x400220, 0x3FF0FFF, 0x0, 0x0, 0x0, 0x0, [.remap 16 10 0 1]⟩ -- nitHold
  , ⟨0x120000C, [(0x800000, 4)], 0x400200, 0x3FFF3FFF, 0x0, 0x0, 0x0, 0x0, [.remap 0 14 0 1]⟩ -- nitHlim
  , ⟨0x1200010, [(0x800000, 4)], 0x1000018, 0xFFFF00FF, 0x0, 0x0, 0x0, 0x0, [.remap 0 8 0 1, .remap 16 16 0 1]⟩ -- nitLand0
  , ⟨0x1200014, [(0x800000, 4)], 0x3FFF1040, 0x3FFFFFFF, 0x0, 0x0, 0x0, 0x0, [.remap 16 14 0 1]⟩ -- nitLand1
  , ⟨0x1200018, [(0x800000, 4)], 0x1000400, 0x3FFF0FFF, 0x0, 0x0, 0x0, 0x0, [.clamp 0 12 256 4095]⟩ -- nitTune
  , ⟨0x1200040, [(0x800000, 4), (0x4, 1)], 0x166, 0x3FF03FF, 0x0, 0x0, 0x0, 0x0, []⟩ -- nitProf
  , ⟨0x1200044, [(0x800000, 4), (0x4, 1)], 0x140166, 0x3FF03FF, 0x0, 0x0, 0x0, 0x0, []⟩ -- nitProf
  , ⟨0x1200048, [(0x800000, 4), (0x4, 1)], 0x460133, 0x3FF03FF, 0x0, 0x0, 0x0, 0x0, []⟩ -- nitProf
  , ⟨0x120004C, [(0x800000, 4), (0x4, 1)], 0x8200E6, 0x3FF03FF, 0x0, 0x0, 0x0, 0x0, []⟩ -- nitProf
  , ⟨0x1200050, [(0x800000, 4), (0x4, 1)], 0xB900DA, 0x3FF03FF, 0x0, 0x0, 0x0, 0x0, []⟩ -- nitProf
  , ⟨0x1200054, [(0x800000, 4), (0x4, 1)], 0xE100F3, 0x3FF03FF, 0x0, 0x0, 0x0, 0x0, []⟩ -- nitProf
  , ⟨0x1200058, [(0x800000, 4), (0x4, 1)], 0xF80100, 0x3FF03FF, 0x0, 0x0, 0x0, 0x0, []⟩ -- nitProf
  , ⟨0x120005C, [(0x800000, 4), (0x4, 9)], 0x1000100, 0x3FF03FF, 0x0, 0x0, 0x0, 0x0, []⟩ -- nitProf
  , ⟨0x1200080, [(0x800000, 4)], 0x0, 0x0, 0x0, 0x0, 0x0, 0xFFFFFFFF, []⟩ -- nitLane0
  , ⟨0x1200084, [(0x800000, 4)], 0x0, 0x0, 0x0, 0x0, 0x0, 0xFFFFFFFF, []⟩ -- nitLane1
  , ⟨0x1200088, [(0x800000, 4)], 0x0, 0x0, 0x0, 0x0, 0xFFFFFFFF, 0x0, []⟩ -- nitLaneTest0
  , ⟨0x120008C, [(0x800000, 4)], 0x0, 0x0, 0x0, 0x0, 0xFFFFFFFF, 0x0, []⟩ -- nitLaneTest1
  , ⟨0x1200090, [(0x800000, 4)], 0x100, 0x0, 0x0, 0x0, 0x0, 0x1FF, []⟩ -- nitCap
  , ⟨0x12000A0, [(0x800000, 4)], 0x0, 0x3FFFF, 0x0, 0x0, 0x80000000, 0x0, []⟩ -- nitCellCmd
  , ⟨0x12000A4, [(0x800000, 4)], 0x0, 0x0, 0x0, 0x0, 0x0, 0xFFFFFFFF, []⟩ -- nitCellData0
  , ⟨0x12000A8, [(0x800000, 4)], 0x0, 0x0, 0x0, 0x0, 0x0, 0xFFFFFFFF, []⟩ -- nitCellData1
  , ⟨0x12000AC, [(0x800000, 4)], 0x0, 0x0, 0x0, 0x0, 0x0, 0x3, []⟩ -- nitCellRes
  ]

/-- Rows of the NIT registers, part 1. -/
def nitRows1 : List RegRow :=
  [ ⟨0x12000B0, [(0x800000, 4)], 0x0, 0x0, 0x0, 0x7F, 0x0, 0x0, []⟩ -- nitEvt
  , ⟨0x12000B4, [(0x800000, 4)], 0x3F, 0x7F, 0x0, 0x0, 0x0, 0x0, []⟩ -- nitEvtEn
  , ⟨0x1201000, [(0x800000, 4), (0x10, 256)], 0x0, 0x0, 0x0, 0x0, 0x0, 0x3F07FFFF, []⟩ -- nitCh0
  , ⟨0x1201004, [(0x800000, 4), (0x10, 256)], 0x0, 0x0, 0x0, 0x0, 0x0, 0x3FFF3FFF, []⟩ -- nitCh1
  , ⟨0x1201008, [(0x800000, 4), (0x10, 256)], 0x0, 0x0, 0x0, 0x0, 0x0, 0xFFFFFFFF, []⟩ -- nitCh2
  , ⟨0x120100C, [(0x800000, 4), (0x10, 256)], 0x0, 0x0, 0x0, 0x0, 0x0, 0x0, []⟩ -- nitCh3
  , ⟨0x1200100, [(0x800000, 4), (0x4, 32)], 0x0, 0x0, 0x0, 0x0, 0x0, 0xFFFFFFFF, []⟩ -- nitCnt
  ]

/-- Rows of the NIT registers. -/
def nitRows : List RegRow := nitRows0 ++ nitRows1

/-- Rows of the GRF registers. -/
def grfRows : List RegRow :=
  [ ⟨0x13C0000, [(0x800000, 4)], 0xA0000, 0xFFFF0005, 0x0, 0x0, 0x0, 0x0, [.clamp 16 16 1 1000]⟩ -- grfCtl
  , ⟨0x13C0004, [(0x800000, 4)], 0x0, 0x0, 0x0, 0x0, 0x0, 0xF1FF7, []⟩ -- grfSts
  , ⟨0x13C0008, [(0x800000, 4)], 0x0, 0x0, 0x0, 0x0, 0x0, 0xFFFFFFFF, []⟩ -- grfLat0
  , ⟨0x13C000C, [(0x800000, 4)], 0x0, 0x0, 0x0, 0x0, 0x0, 0xFFFFFFFF, []⟩ -- grfLat1
  , ⟨0x13C0010, [(0x800000, 4)], 0x0, 0x0, 0x0, 0x0, 0x0, 0x7FFFF, []⟩ -- grfLat2
  , ⟨0x13C0020, [(0x800000, 4)], 0x0, 0x0, 0x0, 0x0, 0x0, 0xFFFFFFFF, []⟩ -- grfIdent0
  , ⟨0x13C0024, [(0x800000, 4)], 0x0, 0x0, 0x0, 0x0, 0x0, 0xFFFF03FF, []⟩ -- grfIdent1
  , ⟨0x13C0028, [(0x800000, 4)], 0x0, 0x0, 0x0, 0x0, 0x0, 0xFFFFFFFF, []⟩ -- grfIdent2
  , ⟨0x13C002C, [(0x800000, 4)], 0x0, 0x0, 0x0, 0x0, 0x0, 0xFFFFFFFF, []⟩ -- grfIdent3
  , ⟨0x13C0030, [(0x800000, 4)], 0xFF00, 0x0, 0x0, 0x0, 0x0, 0x1FFFFFF, []⟩ -- grfAsmSts
  , ⟨0x13C0034, [(0x800000, 4)], 0x80008000, 0x0, 0x0, 0x0, 0x0, 0xFFFFFFFF, []⟩ -- grfAsmTemp
  , ⟨0x13C0040, [(0x800000, 4)], 0x0, 0x0, 0x0, 0x7F, 0x0, 0x0, []⟩ -- grfEvt
  , ⟨0x13C0044, [(0x800000, 4)], 0x37, 0x7F, 0x0, 0x0, 0x0, 0x0, []⟩ -- grfEvtEn
  , ⟨0x13C0100, [(0x800000, 4), (0x20, 4)], 0x2600, 0x3FFFF, 0x0, 0x0, 0x0, 0x0, []⟩ -- grfLaneEq
  , ⟨0x13C0104, [(0x800000, 4), (0x20, 4)], 0x0, 0x0, 0x0, 0x0, 0x0, 0xF07, []⟩ -- grfLaneSts
  , ⟨0x13C0108, [(0x800000, 4), (0x20, 4)], 0x0, 0x0, 0x0, 0x0, 0x0, 0xFFFFFFFF, []⟩ -- grfLaneCrc
  , ⟨0x13C0800, [(0x800000, 4), (0x4, 256)], 0x0, 0x0, 0x0, 0x0, 0x0, 0x1FFFF, []⟩ -- grfTap
  , ⟨0x13C1000, [(0x800000, 4)], 0x3E80000, 0xFFFF0001, 0x0, 0x0, 0x0, 0x0, [.remap 16 16 0 1]⟩ -- lldCtl
  , ⟨0x13C1004, [(0x800000, 4)], 0x7D0, 0xFFFF, 0x0, 0x0, 0x0, 0x0, []⟩ -- lldBlank
  , ⟨0x13C2000, [(0x800000, 4), (0x10, 256)], 0x75747448, 0xFFFFFFFF, 0x0, 0x0, 0x0, 0x0, []⟩ -- lldMon0
  , ⟨0x13C2004, [(0x800000, 4), (0x10, 256)], 0x0, 0x1, 0x0, 0x0, 0x0, 0x1E, []⟩ -- lldMon1
  , ⟨0x13C2008, [(0x800000, 4), (0x10, 256)], 0x0, 0x0, 0x0, 0x0, 0x0, 0xFFFFFFFF, []⟩ -- lldMon2
  , ⟨0x13C200C, [(0x800000, 4), (0x10, 256)], 0x0, 0x0, 0x0, 0x0, 0x0, 0xFFFFFFFF, []⟩ -- lldMon3
  , ⟨0x13C0080, [(0x800000, 4), (0x4, 11)], 0x0, 0x0, 0x0, 0x0, 0x0, 0xFFFFFFFF, []⟩ -- grfCnt
  ]

end Sys2Proof.Machine
end

