-- ==== Sys2Proof/Machine/State.lean ====
section
/-! DEFINITION. The state of the block as plain data: the register file and table memories by BAR0
offset, the parts of each unit that no register shows, the record of what left the device, and the
queue of waiting commands. -/

namespace Sys2Proof.Machine

/-- Why a command stops with a fault. -/
inductive Fault where
  /-- Raised by no meaning: the manual gives every command an effect. Safe. -/
  | none
  deriving DecidableEq, Repr

/-- Why a command is refused. -/
inductive Refusal where
  /-- The command has no meaning in this model yet. Raised by an arm of `exec`. Safe. -/
  | notModelled (mnemonic : String)
  deriving DecidableEq, Repr

/-- What leaves the device, as the model records it. -/
inductive Out where
  /-- A posted write to a host's memory: host, address, words. -/
  | hostWrite (host addr : Nat) (words : List Nat)
  /-- Frame or message bytes written to a host's memory: host, address, bytes. -/
  | hostData (host addr : Nat) (bytes : List Byte)
  /-- A read request to a host's memory: host, address, bytes. -/
  | hostRead (host addr bytes : Nat)
  /-- An MSI-X message: host, vector. -/
  | msix (host vector : Nat)
  /-- A frame that has left on the line of a port: its bytes without FCS, and the FCS that it ended with, the first byte
  on the wire in [7:0] (a stomped one is the complement of the good one, R197). -/
  | frame (port : Nat) (bytes : List Byte) (fcs : Nat)
  /-- A frame, or a fragment of one, that was ended at once: the bytes that had begun to leave, and what ended them, an
  invalid code group or, with `block`, an /E/ block (R110). -/
  | cut (port : Nat) (bytes : List Byte) (block : Bool)
  /-- An mPacket of a pre-emptable frame (R122, R123): port, SMD, the fragment count of a continuation as coded, its
  frame bytes, and its mCRC or, in the last one, the FCS. -/
  | fragment (port smd : Nat) (count : Option Nat) (bytes : List Byte) (check : Nat)
  /-- A verify (0) or respond (1) mPacket. -/
  | verify (port kind : Nat)
  /-- What a port sends from now on while it is not UP for transmission: 0 Idle, 1 Remote Fault (R109). -/
  | lineIdle (port kind : Nat)
  /-- A downstream flit of a Grafa link (Table 9.5): quadrant; for each lane the header and payload of its two blocks,
  before the scrambler (R256, R258). -/
  | flit (quad : Nat) (lanes : List (List (Nat × List Nat)))
  /-- IDLE flits that filled the SYNC interval just ended (R258). -/
  | idle (quad flits : Nat)
  /-- A downstream SYNC: for each lane the header and payload of its block (Table 9.4). -/
  | sync (quad : Nat) (lanes : List (List (Nat × List Nat)))
  /-- The follower broadcast: the master value in units of 2^-48 ns (R64). -/
  | broadcast (value : Nat)
  /-- Code groups that a Cabinet Bus channel sends on the spokes of a mask (R359, R360), before 8b/10b: a data octet, or
  256 plus the octet of a control code (/K27.7/ 0x1FB, /K29.7/ 0x1FD, /K30.7/ 0x1FE); 512 an invalid group. -/
  | spoke (channel spokes : Nat) (groups : List Nat)
  /-- The frame that a channel sends on the spokes of a mask ends after its first `groups` code groups: with /K30.7/ and
  then idle where `mark` stands (R372, R378), or because nothing more is received or the line is let go (R358). -/
  | spokeCut (channel spokes groups : Nat) (mark : Bool)
  /-- An answer on the Service Port. -/
  | serviceReply (words : List Nat)
  /-- A read's answer to its requester. -/
  | readData (req : Requester) (addr value : Nat)
  /-- A read that a host sees end with status Unsupported Request (R401). -/
  | unsupported (req : Requester) (addr : Nat)
  /-- The shift-out of the test access port. -/
  | tdo (value : Nat)
  deriving DecidableEq, Repr

/-- One event waiting in Bronze's input queue (R435). -/
structure BrzEntry where
  sec : Nat := 0
  ns : Nat := 0
  code : Nat := 0
  block : Nat := 0
  index : Nat := 0
  arg0 : Nat := 0
  arg1 : Nat := 0
  deriving DecidableEq, Repr

/-- Bronze beyond its registers, the ring and the Keep store. -/
structure Brz where
  /-- Events not yet written, oldest first (R435). -/
  queue : List BrzEntry := []
  /-- Events lost since the last code 0x008 record. -/
  lost : Nat := 0
  /-- Records of each limited code in the window (R436). -/
  window : Table Nat := []
  /-- TS_NS of the first suppressed event of each code in the window. -/
  firstSupp : Table Nat := []
  /-- The Keep store: word w of bank b at 0x20000 * b + w; header words first, then the records. -/
  keep : Table Nat := []
  /-- The bank being flushed, with the flush number, cause, V_f, and the trigger's time. -/
  flush : Option (List Nat) := none
  /-- The instant of the last trigger, in units of the counter (R438). -/
  trigAt : Option Nat := none
  /-- BRZ_FSEQ counts from the number of the first record, which is not known before READY (R434, R438). -/
  early : Bool := false
  /-- The check of the Keep store at the start has ended (R440). -/
  checked : Bool := false
  deriving DecidableEq, Repr

/-- One excursion of Supply Watch (R443): its run so far, its start, its extreme, its end run. -/
structure Excursion where
  run : Nat := 0
  startAt : Nat := 0
  back : Nat := 0
  backAt : Nat := 0
  extreme : Nat := 0
  deriving DecidableEq, Repr

/-- Supply Watch beyond its registers (R442, R443). -/
structure Sup where
  /-- The last 64 samples, newest first. -/
  samples : List Nat := []
  /-- Samples since EN was set, up to 64. -/
  count : Nat := 0
  exc : Table Excursion := []
  winMax : Nat := 0
  winMin : Nat := 0xFFF
  deriving DecidableEq, Repr

/-- One accepted entry of a ring, at its count. -/
structure RingEntry where
  pos : Nat := 0
  units : Nat := 0
  kind : Nat := 0
  words : List Nat := []
  done : Bool := false
  /-- The fetch of a TX entry has begun; an RXBUF entry carries data. -/
  begun : Bool := false
  /-- The frame of a TX entry has been read whole. -/
  whole : Bool := false
  /-- Buffer reads of a TX entry that have been issued (R225). -/
  reads : Nat := 0
  /-- The count of the first entry of the received frame that the entry carries, plus one; unit 1 that it gets; the
  port whose receive store the frame fills, and its bytes there (R229, R230). -/
  frame : Nat := 0
  unit1 : List Nat := []
  port : Nat := 0
  store : Nat := 0
  deriving DecidableEq, Repr

/-- One ring beyond its registers (chapter 8). -/
structure Ring where
  /-- Accepted, uncompleted entries in ring order. -/
  entries : List RingEntry := []
  /-- A scan read is outstanding; `discard` counts reads whose data is thrown away. -/
  scanning : Bool := false
  discard : Nat := 0
  /-- The scan waits for room under INFLIGHT; a scan is due without a doorbell (R216, R217). -/
  paused : Bool := false
  due : Bool := false
  /-- Words of an entry whose other units are being read (R217, R219), and the words of the same read behind it. -/
  part : List Nat := []
  rest : List Nat := []
  /-- EN = 1 was written before the ring was idle (R237). -/
  enHeld : Bool := false
  /-- A message was sent less than GAP ago; a trigger waits (R223). -/
  gap : Bool := false
  irqHeld : Bool := false
  /-- The ring was enabled when its quadrant's isolation began (R239). -/
  isoHeld : Bool := false
  /-- The owner's link was lost, and the ring has not been enabled since: nothing is written (R238). -/
  lost : Bool := false
  /-- A head slot write has been issued, whose error may still come (R239). -/
  slotOut : Bool := false
  deriving DecidableEq, Repr

/-- One Notice Ring beyond its registers (R232 to R235). -/
structure Notices where
  seq : Nat := 0
  lost : Nat := 0
  firstCode : Nat := 0
  firstNs : Nat := 0
  firstSec : Nat := 0
  deriving DecidableEq, Repr

/-- A frame to send: its bytes without FCS, class, flow group, source and what is owed at its end. -/
structure TxFrame where
  /-- Serial number that names the frame in the model. -/
  id : Nat := 0
  bytes : List Byte := []
  cls : Nat := 0
  fg : Nat := 0
  /-- 0 host ring, 1 Invar, 2 notice frame, 3 pass-through. -/
  source : Nat := 0
  ring : Nat := 0
  pos : Nat := 0
  /-- 1 for the copy on port 2k+1 of a frame sent as a pair of copies (R183). -/
  copy : Nat := 0
  tsReq : Bool := false
  oneStep : Bool := false
  ptpOff : Nat := 0
  /-- A PRP trailer was added, so the redundancy engine padded the frame (R115). -/
  padded : Bool := false
  /-- Held back at least once by R163. -/
  gbHeld : Bool := false
  /-- A pass-through copy that still arrives: its length is unknown (R163). -/
  arriving : Bool := false
  /-- The copy ends with a stomped FCS (R197). -/
  stomp : Bool := false
  /-- Ingress port and receive stamp, 1/16 ns, of a pass-through copy (R85). -/
  inPort : Nat := 0
  inTs : Nat := 0
  deriving DecidableEq, Repr

/-- A frame on the line of a port, or a pre-empted one whose continuation is due. -/
structure TxProg where
  frame : TxFrame := {}
  /-- Bytes of the frame sent in earlier fragments; fragments so far. -/
  sent : Nat := 0
  frags : Nat := 0
  /-- The counter when the fragment started. -/
  startAt : Nat := 0
  /-- The frame-data count at which the fragment in progress ends (R123). -/
  cutAt : Option Nat := none
  /-- Which SMD-S of Clause 99 it started with, plus one; 0 for a frame that goes as a whole frame (R122). -/
  smd : Nat := 0
  deriving DecidableEq, Repr

/-- The classifier's verdict for a frame (R132 to R136). -/
structure Verdict where
  cls : Nat := 0
  fg : Nat := 0
  /-- Stream entry index plus one; 0 for a miss. The four words that the lookup saw (R137). -/
  hit : Nat := 0
  entry : List Nat := []
  act : Nat := 0
  meter : Bool := false
  deriving DecidableEq, Repr

/-- A frame being received by a port, from its 64th byte on. -/
structure RxProg where
  verdict : Verdict := {}
  /-- The Source Table verdict: none before it, 0 duplicate, 1 accepted (R190). -/
  looked : Option Nat := none
  /-- The serial number of the copy that leaves the twin; 0 for none (R195). -/
  fwd : Nat := 0
  /-- The pass-through buffer, and the receive store, had no room (R196, R229); bytes reserved in the store. -/
  ptFull : Bool := false
  ovf : Bool := false
  room : Nat := 0
  /-- Frame of the pair's own node address, removed from the ring (R195). -/
  own : Bool := false
  /-- The copy leaves once the frame is whole (R196). -/
  pend : Bool := false
  /-- MAX_FRAME bytes of the pass-through buffer are reserved for a copy that is not yet offered (R196). -/
  ptRoom : Bool := false
  /-- Receive stamp, 1/16 ns (R89). -/
  stamp : Nat := 0
  /-- The frame was cut by loss of lock or by leaving UP. -/
  cut : Bool := false
  deriving DecidableEq, Repr

/-- One MAC and PCS beyond its registers (chapter 4). -/
structure MacPort where
  /-- Frames on their way to the class queues; candidates, oldest first (R162). -/
  coming : List TxFrame := []
  queue : List TxFrame := []
  tx : Option TxProg := none
  held : Option TxProg := none
  /-- The frame being received, and the pre-emptable one being assembled (R124). -/
  rx : Option RxProg := none
  rxPre : Option RxProg := none
  /-- Expiry instants of the PAUSE timer (8) and the PFC timers (0..7), 1/100 ns; unlisted: not running. -/
  timers : Table Nat := []
  /-- Lock was lost while the guard was open; it has returned (R111). -/
  relock : Bool := false
  relocked : Bool := false
  /-- What the line carries while no frame is on it: 0 electrical idle, with the PHY off or the SerDes bank not READY; 1 Idle and 2 Remote Fault out of UP;
  3 the gaps of a port that is UP (R109). -/
  line : Nat := 0
  /-- The frame number, modulo 4, of the next pre-emptable frame (Clause 99). -/
  nextSmd : Nat := 0
  /-- The first verify mPacket waits for a selection point; respond mPackets owed (R125). -/
  verifyDue : Bool := false
  respondDue : Nat := 0
  deriving DecidableEq, Repr

/-- The copies of a transmit entry: the status of each that has ended, plus one, and its departure (R183). -/
structure TxOwe where
  stA : Nat := 0
  stB : Nat := 0
  pair : Bool := false
  ns : Nat := 0
  sec : Nat := 0
  deriving DecidableEq, Repr

/-- One edge on its way to a port's comparator (R53 to R56). -/
structure Edge where
  port : Nat := 0
  /-- 0 gate edge with any hold release, 1 hold raise. -/
  kind : Nat := 0
  /-- The instant at which it acts, and that of its list entry, ns. -/
  t : Nat := 0
  inst : Nat := 0
  gates : Nat := 0
  /-- Hold after it: 0 unchanged, 1 released, 2 raised. -/
  hold : Nat := 0
  armed : Bool := false
  /-- It belongs to the list that waits for T_sw. -/
  fresh : Bool := false
  /-- Its place in the arming order (R69). -/
  order : Nat := 0
  deriving DecidableEq, Repr

/-- One guard interval of a port (R167, R168). -/
structure Guard where
  port : Nat := 0
  /-- The intervals that it merges: the commit and its T_c. -/
  commits : List (Nat × Nat) := []
  close : Nat := 0
  reopen : Nat := 0
  /-- 0 computed, 1 close armed, 2 closed, 3 reopened before its commits have ended. -/
  phase : Nat := 0
  /-- The places of its close and of its reopening in the arming order (R69); 0 for an edge that is not armed. -/
  order : Nat := 0
  reorder : Nat := 0
  deriving DecidableEq, Repr

/-- The Schedule Book beyond its registers and Schedule RAM (chapter 6). -/
structure Scb where
  /-- BASE of the bank in validation, ns; T_sw of a pending activation; whether it is a later grid point. -/
  base : Nat := 0
  next : Nat := 0
  bank : Nat := 0
  /-- T_sw of the active list, ns. -/
  start : Nat := 0
  /-- Group of each port as latched at T_sw. -/
  group : Table Nat := []
  /-- COMMIT entries with instants before this one have been handed over or skipped. -/
  walk : Nat := 0
  edges : List Edge := []
  guards : List Guard := []
  deriving DecidableEq, Repr

/-- A credit shaper beyond its entry (R173): credit in 1/1024 bit, the counter when it was last brought up
to date, and what it does since: 0 nothing, 1 rising to HI_CREDIT, 2 rising to 0, 3 frozen, 4 sending. -/
structure Shaper where
  credit : Int := 0
  at' : Nat := 0
  mode : Nat := 0
  deriving DecidableEq, Repr

/-- The state of one meter (R141): token counts in 1/1024 byte, the instant of the last frame in ns, red
frames, and MODE at its last use (R143). -/
structure Meter where
  tc : Nat := 0
  tx : Nat := 0
  last : Nat := 0
  red : Nat := 0
  deriving DecidableEq, Repr

/-- A trip message on its way to a Seal unit (R201): unit, the bytes before CHECK, CHECK. -/
structure Trip where
  /-- The port that received it and the counter at its arrival (R410). -/
  port : Nat := 0
  at' : Nat := 0
  unit : Nat := 0
  bytes : List Nat := []
  check : Nat := 0
  deriving DecidableEq, Repr

/-- One fabric commit (chapter 11). -/
structure Commit where
  id : Nat := 0
  /-- 0 Schedule Book, 1 ring, 2 protection, 3 revert. -/
  src : Nat := 0
  ring : Nat := 0
  pos : Nat := 0
  map : Nat := 0
  tag : Nat := 0
  asap : Bool := false
  wait : Bool := false
  notify : Bool := false
  armed : Bool := false
  resolved : Bool := false
  /-- The commit instant, ns of network time. -/
  tc : Nat := 0
  /-- Specified columns and rows, as read at the first resolution; none before it (R323). -/
  spec : Option (List (Nat × Nat)) := none
  /-- Changed columns: column, old row, new row. -/
  moves : List (Nat × Nat × Nat) := []
  /-- Quadrants that still owe a report, that reported, that were removed. -/
  owe : Nat := 0
  got : Nat := 0
  removed : Bool := false
  ok : Nat := 0
  bad : Nat := 0
  settle : Nat := 0
  executed : Bool := false
  unguarded : Bool := false
  /-- Re-timed under R319: the executed instant is written back (R317). -/
  retimed : Bool := false
  /-- Its place in the arming order, from its dispatch on (R69). -/
  order : Nat := 0
  deriving DecidableEq, Repr

/-- The commit collector and the policy engine beyond their registers and Map RAM. -/
structure Fab where
  /-- Staged commits in T_c order (R320). -/
  staged : List Commit := []
  /-- Dispatched commits not yet completed. -/
  running : List Commit := []
  /-- T_c of the latest executed non-protection commit (R318). -/
  lastTc : Nat := 0
  nextId : Nat := 1
  /-- The map slot that FAB_LOAD is checking. -/
  loading : Nat := 0
  /-- Queued declarations: monitor and onset (R333). -/
  decl : List (Nat × Nat) := []
  /-- Consecutive high samples of each monitor (R331). -/
  highRun : Table Nat := []
  /-- The blanks of output monitors: monitor and commit (R332). -/
  blanks : List (Nat × Nat) := []
  /-- First low sample instant of a monitor in LOW1. -/
  low1 : Table Nat := []
  deriving DecidableEq, Repr


/-- What raises a half-range event (R18): bits of a status word, or an event bit of a unit. -/
inductive HalfRange where
  | bits (addr mask : Nat)
  | scb
  | fab
  | pol
  | grf (q : Nat)
  | nit (q : Nat)
  | anl
  | cbs (c : Nat)
  deriving DecidableEq, Repr


/-- A foreign master seen on a PTP port (R77): the fields of its last Announce. -/
structure Foreign where
  /-- sourcePortIdentity. -/
  src : Nat := 0
  /-- Instants of its last Announces, newest first, ns. -/
  seen : List Nat := []
  priority1 : Nat := 0
  clockClass : Nat := 0
  accuracy : Nat := 0
  variance : Nat := 0
  priority2 : Nat := 0
  gm : Nat := 0
  steps : Nat := 0
  /-- Its flags, currentUtcOffset and timeSource. -/
  flags : Nat := 0
  utc : Nat := 0
  timeSource : Nat := 0
  /-- Its TLVs, up to 64 bytes (R88). -/
  tlvs : List Byte := []
  deriving DecidableEq, Repr

/-- A PTP port beyond its registers (R80 to R83). -/
structure PtpPort where
  foreign : List Foreign := []
  /-- Announce receipt has timed out since the port last heard a master. -/
  timedOut : Bool := false
  syncSeq : Nat := 0
  annSeq : Nat := 0
  reqSeq : Nat := 0
  /-- A two-step Sync that waits for its Follow_Up: sequenceId, receive stamp, correctionField. -/
  waiting : Option (Nat × Nat × Int) := none
  /-- A delay request is outstanding; its departure stamp, once it has left. -/
  asked : Bool := false
  left : Option Nat := none
  /-- The held delay before the answer to the last request, while a second answer would undo it (R82). -/
  before : Option Nat := none
  /-- t2 - t1 of the last Sync less its correction, 2^-16 ns. -/
  forward : Option Int := none
  deriving DecidableEq, Repr

/-- A two-step Sync that passed an HSR pair (R85). -/
structure TcEntry where
  quad : Nat := 0
  src : Nat := 0
  seq : Nat := 0
  /-- Correction to add to its Follow_Up, 2^-16 ns. -/
  corr : Int := 0
  deriving DecidableEq, Repr

/-- A pulse output beyond its registers (R99 to R101). -/
structure Train where
  /-- The instant of the next edge, ns; a pulse is in progress; pulses started; EN was cleared. -/
  edge : Nat := 0
  high : Bool := false
  done : Nat := 0
  ending : Bool := false
  /-- The first edge of a train enabled while the last pulse of the train before completes; 0 for none (R100). -/
  first : Nat := 0
  deriving DecidableEq, Repr

/-- The servo and Invar's other parts beyond their registers (chapter 3). -/
structure Inv where
  /-- The counter has started (R63). -/
  started : Bool := false
  /-- The rate without any slew, 2^-8 ppb; the integrator, 2^-24 ppb. -/
  rate : Int := 0
  integ : Int := 0
  /-- The slew remainder, 10^-6 * 2^-16 ns, the unit in which a tick absorbs a whole number (R67). -/
  slew : Int := 0
  /-- The rate history, newest first, 2^-8 ppb. -/
  hist : List Int := []
  /-- Sum of rate times time of the current second in LOCKED, from when and up to when. -/
  sum : Int := 0
  sumFrom : Nat := 0
  sumAt : Nat := 0
  /-- Runs of measurements inside LOCK_THRESH and outside 4 LOCK_THRESH; measurements not to steer by. -/
  inRun : Nat := 0
  outRun : Nat := 0
  skip : Nat := 0
  /-- Phase of each follower against the master, 1/16 ns; its run of small errors; followers to load. -/
  fol : Table Int := []
  /-- The count of each follower less that of the master, 1/16 ns, as the last broadcast left it. -/
  folPh : Table Int := []
  folRun : Table Nat := []
  folNew : Nat := 0
  /-- Runs of valid and of missing or invalid IRIG-B frames; the time of the last valid frame, s. -/
  irigGood : Nat := 0
  irigBad : Nat := 0
  irigLast : Option Nat := none
  /-- The foreign master selected: port and source. -/
  parent : Option (Nat × Nat) := none
  /-- Capture inputs armed and waiting, as a mask (R97), and the instant of each arming, 1/16 ns (R98). -/
  armed : Nat := 0
  armAt : Table Nat := []
  ptp : Table PtpPort := []
  tc : List TcEntry := []
  trains : Table Train := []
  deriving DecidableEq, Repr

/-- A command on a Grafa link (R264). -/
structure Cmd where
  seq : Nat := 0
  op : Nat := 0
  /-- Payload words. -/
  words : List Nat := []
  resends : Nat := 0
  deriving DecidableEq, Repr

/-- A quadrant link beyond its registers (R264 to R267). -/
structure Link where
  /-- DOWN waits RETRY_DLY. -/
  retry : Bool := false
  /-- Outstanding commands, at most 4, oldest first; commands that wait for a place. -/
  cmds : List Cmd := []
  wait : List Cmd := []
  nextSeq : Nat := 0
  /-- FCNT of the next downstream flit; of the next upstream flit, none before the first good one. -/
  txCount : Nat := 0
  rxNext : Option Nat := none
  /-- SYNC_CNT of the next downstream SYNC; consecutive consistent upstream SYNCs in ALIGN. -/
  syncTx : Nat := 0
  syncs : Nat := 0
  /-- Follower time of the last downstream SYNC (R263). -/
  syncAt : Nat := 0
  /-- Flits sent since the last downstream SYNC; none before the first since EN was set (R258). -/
  sent : Option Nat := none
  /-- Which of the last 64 block headers of each lane were valid, newest first (R256). -/
  heads : Table (List Bool) := []
  /-- The last IDENT reported FRESH, and no reacquisition has ended since (R305). -/
  fresh : Bool := false
  /-- The converter group in calibration, plus one; 0 for none (R347). -/
  cal : Nat := 0
  /-- CRC results of the last 64 flits, newest first, true for a failure. -/
  crcWin : List Bool := []
  /-- Consecutive SYNCs missed on each lane. -/
  missed : Table Nat := []
  /-- PINGs sent and round trips measured in MEASURE, 1/16 ns. -/
  pinged : Nat := 0
  rtts : List Nat := []
  /-- A new W that waits for the end of the landing rounds (R266). -/
  newW : Option Nat := none
  /-- CRC_ERR, IGNORED and STEP_BUSY of the last STATUS (R265). -/
  asm : List Nat := [0, 0, 0]
  deriving DecidableEq, Repr


/-- A landing on a channel beyond its NIT_CH registers (R288 to R297). -/
structure Landing where
  /-- The commit it belongs to; 0 for a landing of the slice itself. Its first round has begun. -/
  commit : Nat := 0
  begun : Bool := false
  /-- The cell's state before the binding (R337). -/
  was : Nat := 0
  /-- Round 0 falls at the first round not before this instant, 1/16 ns. -/
  start : Nat := 0
  d0 : Nat := 0
  s0 : Nat := 0
  target : Nat := 0
  /-- fb in 1/256 code. -/
  fb : Int := 0
  /-- The next round of the attempt, and the link's ROUND number at round 0. -/
  k : Nat := 0
  grid0 : Nat := 0
  /-- Instants of the rounds of the attempt, latest first, 1/16 ns. -/
  times : List Nat := []
  /-- Samples of the attempt by round: flag * 16384 + code, plus one. -/
  samples : Table Nat := []
  /-- The next sample to process; the run of in-window samples and its first round. -/
  nextJ : Nat := 0
  run : Nat := 0
  runJ : Nat := 0
  /-- The round of the release word, once settling is declared, and the last settle sample. -/
  rel : Option Nat := none
  lastS : Nat := 0
  /-- A sample was stale; the host parked the cell. -/
  stale : Bool := false
  parkNow : Bool := false
  /-- A later request that takes the cell over at its round 0 (R295): its commit, destination and start. -/
  takeover : Option (Nat × Nat × Nat) := none
  deriving DecidableEq, Repr

/-- A commit in a slice (R287). -/
structure NitCommit where
  id : Nat := 0
  /-- Its T_c, ns; 0 when it was learned later than T_c - 1 200 ns (R290). -/
  tc : Nat := 0
  /-- Cells without a result; cells that LAND_BIND_SEND binds, with their destinations. -/
  open' : Nat := 0
  binds : List (Nat × Nat) := []
  /-- Counts of the results 0..7 (Table 10.3). -/
  res : List Nat := [0, 0, 0, 0, 0, 0, 0, 0]
  /-- Instant of its first round 0, 1/16 ns; the latest settle declaration, ns. -/
  round0 : Option Nat := none
  settle : Nat := 0
  deriving DecidableEq, Repr

/-- A Nitinol slice beyond its registers and tables (chapter 10). -/
structure Nit where
  /-- Start-up has ended; a reacquisition is requested; the Cell Table has no retained content. -/
  started : Bool := false
  want : Bool := false
  cold : Bool := true
  /-- Readback pass 0..3, pairs still to read in it, and the pair of the step whose flits arrive, and whether that step
  had RDRV = 1. -/
  pass : Nat := 0
  todo : List Nat := []
  stepped : Option Nat := none
  stepLat : Bool := false
  /-- BASE groups received of each pair: HOLD_SNS and HOLD_LAT. -/
  gotSns : Table Nat := []
  gotLat : Table Nat := []
  /-- Cells with a valid sense in this reacquisition; the pairs, one bit each, whose first visit after it is still to
  come (R302). -/
  sensed : List Nat := []
  first : Nat := 0
  /-- Samples of an ended landing, or of an ended attempt, still expected of a channel: the ROUND behind the last one,
  and how many (R292). -/
  tails : Table (Nat × Nat) := []
  /-- Entries that failed their check, to be rebuilt from latch and sense (R301, R307). -/
  bad : List Nat := []
  /-- Accepted cells that wait for a channel: commit, cell, destination. -/
  wait : List (Nat × Nat × Nat) := []
  commits : List NitCommit := []
  /-- Queued re-landings (R303): cells in MOVING. -/
  requeue : List Nat := []
  /-- Targeted cells not yet ARMED while LIFTING (R305). -/
  unarmed : List Nat := []
  /-- Landing channels and hold cells whose update was dropped (R274). -/
  dropCh : List Nat := []
  dropCell : List Nat := []
  /-- ROUND of the next landing round, modulo 128. -/
  grid : Nat := 0
  /-- The assembly reported HOLD with HOLD_REL = 1 (R298). -/
  held : Bool := false
  deriving DecidableEq, Repr


/-- Anneal in one quadrant beyond its registers (chapter 12). -/
structure Anl where
  /-- Stage of the running step: 0 none, 1 CAL_START, 2 and 3 CAL_MEAS, 4 CAL_END, 5 TRIM_WRITE,
  6 TRIM_APPLY sent (R347). -/
  stage : Nat := 0
  lo : List Nat := []
  /-- New trim entries, and the result they lead to: 0 OK, 1 LIMITED, 2 SAT (R348). -/
  trims : List Nat := []
  result : Nat := 0
  /-- Responses still owed to the TRIM_WRITE commands of the step. -/
  acks : Nat := 0
  /-- Instant of the last step start, ns (R346). -/
  lastStart : Option Nat := none
  /-- A CAL_ABORT is outstanding; the first STATUS after UP is awaited (R349). -/
  aborting : Bool := false
  check : Bool := true
  /-- A pass has started since EN was set; groups of the walk still to step, and those of the next walk; errors of each
  group. -/
  started : Bool := false
  todo : List Nat := []
  retry : List Nat := []
  errs : Table Nat := []
  /-- Zones that have triggered since the last pass start. -/
  trig : List Nat := []
  /-- Groups of the table load; the phase of the first (0 none, 1 writes, 2 apply waits, 3 apply sent, 4 reads); the SEQs
  of its commands without an answer, each with the retries made; the groups that a load has dealt with since EN was
  set (R352). -/
  load : List Nat := []
  phase : Nat := 0
  sent : Table Nat := []
  done : List Nat := []
  /-- Batches of Cell Table UNCAL bits to rewrite: group and batch (R353). -/
  uncal : List (Nat × Nat) := []
  deriving DecidableEq, Repr


/-- A transmission in progress on a spoke of a Cabinet Bus channel (R370 to R372). -/
structure SpokeTx where
  spoke : Nat := 0
  /-- SOF arrival, microticks from the cycle start. -/
  at' : Nat := 0
  /-- The window in which the SOF arrived, plus one; 0 for none. -/
  win : Nat := 0
  /-- 0 relayed, 1 lost arbitration, 2 struck, 3 arrived outside an open interval, 4 ignored. -/
  kind : Nat := 0
  /-- The Spine follower's count at its SOF, units of the counter; the code groups relayed before its relay ended. -/
  from' : Nat := 0
  cut : Option Nat := none
  deriving DecidableEq, Repr

/-- A verified trip that waits for a TRIP window (R386). -/
structure QTrip where
  bytes : List Nat := []
  /-- The Spine follower's count when it was queued, units of the counter. -/
  at' : Nat := 0
  deriving DecidableEq, Repr

/-- A Cabinet Bus channel beyond its registers (chapter 13). -/
structure Chan where
  /-- The window whose open interval runs, plus one, and the spokes open in it. -/
  win : Nat := 0
  open' : List Nat := []
  /-- The winner of an ARBITRATING window, plus one, and its SOF arrival; the external owner of an EXCLUSIVE window, and
  whether it has sent in it. -/
  winner : Nat := 0
  wonAt : Nat := 0
  owner : Nat := 0
  sent : Bool := false
  txs : List SpokeTx := []
  /-- Spokes whose first sync frame of this cycle has come; the deviations used of this cycle and of the even cycle: spoke
  and microticks. -/
  synced : List Nat := []
  devs : List (Nat × Int) := []
  devsEven : List (Nat × Int) := []
  /-- Offset correction applied in the even cycle. -/
  midEven : Int := 0
  /-- The star's own sync frame was sent in this cycle. -/
  ownSync : Bool := false
  /-- A valid sync frame of the leader arrived in this cycle. -/
  led : Bool := false
  /-- Consecutive bad and good sync cycles; cycles spent in PASSIVE. -/
  badRun : Nat := 0
  goodRun : Nat := 0
  passiveFor : Nat := 0
  /-- The star leads: its start frame is due, and the next cycle start begins cycle 0. -/
  lead : Bool := false
  first : Bool := false
  /-- SOF arrival of the leader's start frame: microticks, and the Spine follower's count. -/
  leadAt : Nat := 0
  leadTick : Option Nat := none
  /-- Spokes whose line was not idle throughout this cycle. -/
  noisy : List Nat := []
  /-- The next minislot id of the cycle and its start, macroticks. -/
  msNext : Nat := 0
  msAt : Nat := 0
  /-- Cycle starts until the pending mode switch. -/
  left : Nat := 0
  /-- The Spine follower's count at the last cycle start, units of the counter, and the ρ of this cycle. -/
  startAt : Nat := 0
  rho : Int := 0
  /-- The last own frame: the count at which its SOF leaves and its code groups; the count until which a channel switched
  off still sends idle (R378). -/
  own : Option (Nat × Nat) := none
  idleTill : Nat := 0
  /-- UNBLOCK writes of the latest handshake: spoke, count, whether the spoke was BLOCKED (R388). -/
  unblocks : List (Nat × Nat × Bool) := []
  trips : List QTrip := []
  deriving DecidableEq, Repr


/-- A Bulk Mover channel beyond its registers (R404, R405). -/
structure Mover where
  src : Nat := 0
  dst : Nat := 0
  len : Nat := 0
  /-- Bytes whose read bursts have been issued. -/
  issued : Nat := 0
  /-- Read bursts outstanding: offset and length, oldest first. -/
  reads : List (Nat × Nat) := []
  /-- Write bursts outstanding: length and error flag, oldest first. -/
  writes : List (Nat × Bool) := []
  /-- The status that the channel will end with (Table 14.3). -/
  fail : Nat := 0
  /-- Write bursts that wait for their turn, as destination and bytes, oldest first; how many of them have been
  held back by the limit of R396. -/
  held : List (Nat × List Nat) := []
  late : Nat := 0
  /-- The instant at which EN was cleared, in units of the counter (R406). -/
  abortAt : Option Nat := none
  deriving DecidableEq, Repr


/-- The reset inputs and the running controller reset (R455). -/
structure Pwr where
  /-- POR_N is low; RST_N has been low for 1 us. -/
  porLow : Bool := false
  rstLow : Bool := false
  /-- Controller resets by CTRL_RST that run; the host interfaces that they leave running, as a mask. -/
  ctrl : Nat := 0
  keep : Nat := 0
  /-- PERST_h_N is low, as a mask. -/
  perst : Nat := 0
  /-- Domains whose power-down sequence runs, as a mask (R449). -/
  offing : Nat := 0
  /-- The bits of PWR_ON_1 that only HOST_AUTO has set (R458). -/
  auto : Nat := 0xE000
  deriving DecidableEq, Repr

/-- An access of a Service Port transaction (R476): its address, the word it writes, and how many words of its answer are
clocked out where it is cut short. -/
structure SvcAccess where
  write : Bool := false
  addr : Nat := 0
  word : Nat := 0
  cut : Option Nat := none
  deriving DecidableEq, Repr

/-- An output of the device (Tables 18.1 and 18.2): a low-speed pin by its code, the transmit lanes of Ethernet port `p`,
Grafa lane `n`, lane `n` of the PCIe port of host `h`, spoke `k` of Cabinet Bus channel `c`, SP_SDO and TDO. -/
inductive Output where
  | low (k : Nat)
  | ethernet (p : Nat)
  | grafa (n : Nat)
  | pcie (h n : Nat)
  | spoke (c k : Nat)
  | spSdo
  | tdo
  deriving DecidableEq, Repr

/-- The test access port (R479): the instruction in force and the boundary register. -/
structure Tap where
  ir : Nat := 1
  boundary : Nat := 0
  deriving DecidableEq, Repr
/-- The whole block. -/
structure State where
  /-- Commands that wait, first in first out. -/
  pending : List Instr := []
  /-- Every register and table word of BAR0, by byte offset; an unlisted word reads its reset value. -/
  regs : Table Word := []
  /-- The MSI-X table and pending bits of each host: word at 0x20000 * host + BAR2 offset. -/
  msix : Table Nat := []
  /-- R17: captured upper words, and staged upper words plus one, by requester and offset. -/
  shadow : Table Nat := []
  staged : Table Nat := []
  /-- Last taken values of write-only upper words of wide values (R17). -/
  wo : Table Nat := []
  /-- The master time counter in units of 2^-48 ns (R61). -/
  counter : Nat := 0
  /-- How many actions have been armed at a comparator: the arming order (R69). -/
  armings : Nat := 0
  /-- How many free values have been used: the model's own field. -/
  free : Nat := 0
  /-- What left the device, newest first: the model's own record. -/
  out : List Out := []
  /-- Levels of the output pins: 0 undriven, otherwise the level plus one (R457). -/
  pins : Table Nat := []
  /-- Kept recovery instants of each Quench unit, newest first (R421). -/
  kept : Table (List Nat) := []
  /-- Memory words stored with inverted check bits: source * 64 + cause * 4 + bits (R428). -/
  injected : Table Nat := []
  /-- What `injected` holds of those that the command being executed has read; it reports them at its end. -/
  touched : List Nat := []
  brz : Brz := {}
  sup : Sup := {}
  rings : Table Ring := []
  /-- Head slots that one handshake's completions owe a write, with whether an interrupt follows (R222); none
  while each change writes its slot. -/
  slots : Option (List (Nat × Bool)) := none
  /-- Bytes of each port's receive store that are reserved or filled (R229). -/
  stores : Table Nat := []
  /-- The local port whose transmit ring was fetched from last, plus one, by quadrant (R225). -/
  fetchLast : Table Nat := []
  notices : Table Notices := []
  ports : Table MacPort := []
  nextFrame : Nat := 1
  fab : Fab := {}
  /-- Half-range events held while a unit sheds work (R47), with the unit. -/
  heldHr : List (Nat × HalfRange) := []
  inv : Inv := {}
  /-- Copies of transmit entries that have ended, by ring * 2^32 + count (R183). -/
  owed : Table TxOwe := []
  scb : Scb := {}
  /-- Credit shapers by 0x40000 * quadrant + 0x10000 * level + index (R172). -/
  shapers : Table Shaper := []
  /-- Meters by 0x4000 * quadrant + flow group. -/
  meters : Table Meter := []
  /-- When a FRER function last passed a frame, ns, by 0x1000 * quadrant + function (R200). -/
  frerLast : Table Nat := []
  trips : List Trip := []
  links : Table Link := []
  nits : Table Nit := []
  /-- Landings by global channel. -/
  lands : Table Landing := []
  anl : Table Anl := []
  /-- Cabinet Bus channels (chapter 13). -/
  chans : Table Chan := []
  /-- Code RAM words (R398): kept through resets that leave PD50 powered. -/
  code : Table Nat := []
  /-- The address of the sequencer's last program start; none while SEQ_RUN has never started it. -/
  seqStart : Option Nat := none
  /-- The master last granted at each target (R393), plus one. -/
  granted : Table Nat := []
  /-- Requests that an engine's issue stage holds back (R396), with the master, oldest first. -/
  parked : List (Nat × Out) := []
  movers : Table Mover := []
  /-- The Bulk Mover channel served last (R405), plus one. -/
  bmvLast : Nat := 0
  /-- The candidate ALIVE of a Seal unit (R408). -/
  cand : Table Nat := []
  /-- A message-buffer evaluation runs in a Seal unit (R409). -/
  sealRun : Table Nat := []
  /-- Event router pulses on their way to their sinks: source ids, oldest first (R411). -/
  pulses : List Nat := []
  pwr : Pwr := {}
  tap : Tap := {}
  /-- Service Port accesses that wait while the port drains after a reset, oldest first (R403, R477). -/
  svc : List SvcAccess := []
  deriving DecidableEq, Repr

/-- Codes of the output pins in `State.pins`. -/
def Pin.alive : Nat := 0
def Pin.faultN : Nat := 1
def Pin.vid : Nat := 2
def Pin.vtrim : Nat := 3
def Pin.holdover (q : Nat) : Nat := 4 + q
def Pin.tpulse (n : Nat) : Nat := 8 + n

/-- The block right after a cold power-up: every register at its reset value, every switched domain
off, nothing queued (R14, R455, R460). ALIVE is low, FAULT_N high, VID drives code 20, VTRIM mid-code,
the pulse outputs their inactive level, the holdover outputs are undriven. -/
def State.reset : State :=
  { pins := [(Pin.alive, 1), (Pin.faultN, 2), (Pin.vid, 21), (Pin.vtrim, 0x20001), (Pin.tpulse 0, 1), (Pin.tpulse 1, 1),
      (Pin.tpulse 2, 1), (Pin.tpulse 3, 1)] }

end Sys2Proof.Machine
end

