-- ==== Sys2Proof/Machine/Ops.lean ====
section
/-! DEFINITION. The named operations over the register file, the counters, time stamps, the Bronze
input queue, the Notice Rings and the fault status word. -/

namespace Sys2Proof.Machine

/-! ### The register file -/

/-- The access rows of the Spine block that holds BAR0 offset `a` (Table 1.2). -/
def spineRows (a : Nat) : List RegRow :=
  bif Nat.blt a 0x60000 then
    bif Nat.blt a 0x20000 then (bif Nat.blt a 0x10000 then glbRows else pwrRows)
    else bif Nat.blt a 0x40000 then (bif Nat.blt a 0x30000 then qchRows else invRows)
    else (bif Nat.blt a 0x50000 then anlRows else supRows)
  else bif Nat.blt a 0xB0000 then
    bif Nat.blt a 0x80000 then (bif Nat.blt a 0x70000 then brzRows else mtxRows)
    else bif Nat.blt a 0x90000 then bmvRows
    else (bif Nat.blt a 0xA0000 then sealRows else evrRows)
  else
    bif Nat.blt a 0x100000 then cbsRows
    else bif Nat.blt a 0x140000 then fabRows
    else bif Nat.blt a 0x180000 then polRows else scbRows

/-- The access rows of the quadrant block at window offset `o` (Table 1.7). -/
def windowRows (o : Nat) : List RegRow :=
  bif Nat.blt o 0x100000 then
    bif Nat.blt o 0x24000 then macRows else bif Nat.blt o 0x40000 then sdsRows else clsRows
  else bif Nat.blt o 0x1C0000 then
    (bif Nat.blt o 0x180000 then gateRows else dupRows)
  else bif Nat.blt o 0x200000 then ringRows
  else bif Nat.blt o 0x3C0000 then nitRows else grfRows

/-- Offset in a quadrant window of BAR0 offset `a`. -/
def windowOff (a : Nat) : Nat := (a - 0x1000000) % 0x800000

/-- The row of the access table that covers the word at `a`. -/
def regRow (a : Nat) : Option RegRow :=
  bif Nat.blt a 0x200000 then findRow (spineRows a) a
  else bif Nat.blt a 0x1000000 then none
  else bif Nat.blt a 0x3000000 then findRow (windowRows (windowOff a)) a else none

/-- The word at `a` lies in a table memory of a quadrant window. -/
def windowTable (o : Nat) : Bool :=
  (Nat.ble 0x80000 o && Nat.blt o 0x100000) || (Nat.ble 0x120000 o && Nat.blt o 0x180000)
  || (Nat.ble 0x190000 o && Nat.blt o 0x1C0000) || (Nat.ble 0x400000 o && Nat.blt o 0x4C0000)
  || (Nat.ble 0x600000 o && Nat.blt o 0x700000)

/-- The word at `a` lies in a table memory: mode tables, AON ring, Schedule RAM, Map RAM, or a table
of a quadrant window (R31). -/
def tableWord (a : Nat) : Bool :=
  bif Nat.blt a 0x1000000 then
    (Nat.ble 0xC0000 a && Nat.blt a 0x100000) || (Nat.ble 0x200000 a && Nat.blt a 0x888400)
  else Nat.blt a 0x3000000 && windowTable (windowOff a)

/-- The bits of the word at `a` that hold state; every other bit reads 0 (R15). -/
def implOf (a : Nat) : Nat :=
  bif tableWord a then 0xFFFFFFFF else
  match regRow a with
  | some r => rowImpl r
  | none => 0

/-- The value of the word at `a` after a reset of its domain (R14). The in-force map reads 0x0200 in
every column (R311); every other table memory is zero. -/
def resetOf (a : Nat) : Nat :=
  bif tableWord a then
    (bif Nat.ble 0x888000 a && Nat.blt a 0x888400 then 0x02000200 else 0)
  else
  match regRow a with
  | some r => r.reset
  | none => 0

/-- The reset value as a word. -/
def resetWord (a : Nat) : Word := BitVec.ofNat 32 (resetOf a)

/-- The word of the register file at `a`. -/
def State.word (s : State) (a : Nat) : Word := Table.get (resetWord a) a s.regs

/-- The word at `a` as a number. -/
def State.rd (s : State) (a : Nat) : Nat := (s.word a).toNat

/-- Store `n` at `a`; bits that hold no state stay 0 (R15). -/
def State.wr (s : State) (a n : Nat) : State :=
  { s with regs := Table.put (resetWord a) (BitVec.ofNat 32 (n &&& implOf a)) a s.regs }

/-- The value of a field. -/
def State.fget (s : State) (f : Fld) : Nat := bitsOf (s.rd f.addr) f.lo f.width

/-- A one-bit field as a truth value. -/
def State.flag (s : State) (f : Fld) : Bool := s.fget f == 1

/-- Store the low bits of `n` in a field. -/
def State.fput (s : State) (f : Fld) (n : Nat) : State :=
  s.wr f.addr (withBits (s.rd f.addr) f.lo f.width n)

/-- Store a truth value in a one-bit field. -/
def State.fset (s : State) (f : Fld) (b : Bool) : State := s.fput f (bit b)

/-- Clear the bits of `mask` in the word at `a`. -/
def State.clr (s : State) (a mask : Nat) : State := s.wr a (s.rd a &&& (0xFFFFFFFF ^^^ mask))

/-- Set the bits of `mask` in the word at `a`. -/
def State.orw (s : State) (a mask : Nat) : State := s.wr a (s.rd a ||| mask)

/-- One bit of the word at `a`. -/
def State.bitOf (s : State) (a i : Nat) : Bool := bitAt (s.rd a) i

/-- The entries of a table whose key does not satisfy `p`. -/
def dropWhere {α : Type} (p : Nat → Bool) : Table α → Table α
  | [] => []
  | x :: r => bif p x.1 then dropWhere p r else x :: dropWhere p r

/-- Return every register and table word of one set of offsets to its reset value, with good check bits. -/
def State.resetWords (s : State) (p : Nat → Bool) : State :=
  { s with regs := dropWhere p s.regs, injected := dropWhere p s.injected }

/-- Apply a function to the state for each element, in order. -/
def eachOf {α : Type} (l : List α) (f : α → State → State) (s : State) : State :=
  l.foldl (fun t x => f x t) s

/-- Apply a function for each index below `n`, in ascending order. -/
def forUpTo (n : Nat) (f : Nat → State → State) (s : State) : State := eachOf (List.range n) f s

/-- Do `f` when `b` holds. -/
def State.when (s : State) (b : Bool) (f : State → State) : State := bif b then f s else s

/-- Record something that leaves the device. -/
def State.emit (s : State) (o : Out) : State := { s with out := o :: s.out }

/-- Drive a pin: `v` is the level plus one, 0 leaves it undriven. -/
def State.pin (s : State) (k v : Nat) : State := { s with pins := Table.put 0 v k s.pins }

/-- The next free value, below `2 ^ width` (a value the manual does not state). -/
def State.freeVal (s : State) (width : Nat) : Nat := Config.free s.free % 2 ^ width

/-- The next free choice. -/
def State.freeChoice (s : State) : Bool := Config.freeBit s.free

/-- Count one free value as used. -/
def State.useFree (s : State) : State := { s with free := s.free + 1 }

/-! ### Counters (R18) -/

/-- The top bit of a `width`-bit counter changes from 0 to 1. -/
def rose (old new width : Nat) : Bool := !old.testBit (width - 1) && new.testBit (width - 1)

/-- Count one in the 32-bit counter at `a`. A counter that is counted by this operation alone raises no half-range event:
DESIGN CHOICE, log entry 46 names each. -/
def State.cnt (s : State) (a : Nat) : State := s.wr a ((s.rd a + 1) % 2 ^ 32)

/-- Counting one in the 32-bit counter at `a` crosses half range. -/
def State.crosses (s : State) (a : Nat) : Bool := s.rd a == 0x7FFFFFFF

/-- Count one in a counter held in a field. A counter that is counted by this operation alone (CLS_ERR and DUP_ERR ECC_UNC
and STG_LOST, the ring controls' ECC_UNC, the STEPS of Anneal) raises no half-range event: no chapter names one. DESIGN
CHOICE, log entry 46. -/
def State.cntF (s : State) (f : Fld) : State := s.fput f ((s.fget f + 1) % 2 ^ f.width)

/-- The value of a counter that occupies two words. -/
def State.wide (s : State) (a : Nat) : Nat := s.rd a + 2 ^ 32 * s.rd (a + 4)

/-- Add to a counter of `width` bits that occupies two words. -/
def State.wideAdd (s : State) (a width k : Nat) : State :=
  (s.wr a ((s.wide a + k) % 2 ^ 32)).wr (a + 4) ((s.wide a + k) % 2 ^ width / 2 ^ 32)

/-- Adding `k` to the two-word counter crosses half range. -/
def State.wideCrosses (s : State) (a width k : Nat) : Bool :=
  rose (s.wide a) ((s.wide a + k) % 2 ^ width) width

/-! ### Time (R61, R62) -/

/-- Units of the master counter in one nanosecond. -/
def nsUnit : Nat := 2 ^ 48

/-- Nanoseconds of network time. -/
def State.now (s : State) : Nat := s.counter / nsUnit

/-- The seconds of network time, 48 bits. -/
def State.sec (s : State) : Nat := s.now / 1000000000 % 2 ^ 48

/-- The nanoseconds within the second. -/
def State.nsec (s : State) : Nat := s.now % 1000000000

/-- The count of follower `u` in units of the counter: quadrants 0..3, 4 for the switched Spine (R22, R64). -/
def State.folCounter (s : State) (u : Nat) : Nat :=
  ((s.counter : Int) + Table.get 0 u s.inv.folPh * (2 ^ 44 : Nat)).toNat

/-- Nanoseconds of follower `u`, against which its unit's actions are released and its stamps taken (R22). -/
def State.folNow (s : State) (u : Nat) : Nat := s.folCounter u / nsUnit

/-- FS64: nanoseconds and seconds [31:0] of an instant in ns. -/
def fsNs (t : Nat) : Nat := t % 1000000000
def fsSec (t : Nat) : Nat := t / 1000000000 % 2 ^ 32

/-! ### Bronze's input queue (R435, R436) -/

/-- An event is lost (R435): LOST counts it. -/
def State.brzLose (s : State) : State :=
  let t := s.cnt (Reg.brzCnt 2)
  { t with brz := { t.brz with lost := t.brz.lost + 1 } }

/-- Join the input queue. -/
def State.brzJoin (s : State) (e : BrzEntry) : State :=
  { s with brz := { s.brz with queue := s.brz.queue ++ [e] } }

/-- The queue has no room. -/
def State.brzFull (s : State) : Bool := Nat.ble 256 s.brz.queue.length

/-- The queue entry of an event that reaches Bronze now: the stamp is the BZ64 value of the counter
(R430). -/
def State.brzEntry (s : State) (code block index arg0 arg1 : Nat) : BrzEntry :=
  { sec := s.sec % 2 ^ 34, ns := s.nsec, code := code, block := block, index := index % 2 ^ 16,
    arg0 := arg0 % 2 ^ 32, arg1 := arg1 % 2 ^ 32 }

/-- The limiter of a code suppresses its next event (R436): codes 0x001 to 0x008 are never limited. -/
def State.suppressed (s : State) (code : Nat) : Bool :=
  Nat.blt 8 code && Nat.blt 0 (s.fget (F.brzLimLimit code))
  && Nat.ble (s.fget (F.brzLimLimit code)) (Table.get 0 code s.brz.window)

/-- Count a suppressed event (R436). -/
def State.suppress (s : State) (code : Nat) : State :=
  let t := (s.when (s.fget (F.brzLimSupp code) == 0) fun u =>
      { u with brz := { u.brz with firstSupp := Table.put 0 u.nsec code u.brz.firstSupp } })
  (t.cntF (F.brzLimSupp code)).cnt (Reg.brzCnt 1)

/-- Count a recorded event of a code in its window. -/
def State.countWindow (s : State) (code : Nat) : State :=
  { s with brz := { s.brz with
      window := Table.put 0 (Table.get 0 code s.brz.window + 1) code s.brz.window } }

/-! ### Host memory through the matrix (R399, R401) -/

/-- An access answered by DEF or by an isolation gate (R401): DEF_ACCESS counts it, and the first one
since V was cleared is logged. -/
def State.defAccess (s : State) (addr master : Nat) (write iso hxl : Bool) : State :=
  let t := s.cnt (Reg.mtxCnt 0)
  bif t.flag F.mtxDefLog1V then t
  else (t.wr Reg.mtxDefLog0 (addr % 2 ^ 32)).wr Reg.mtxDefLog1
    (addr / 2 ^ 32 % 256 + 256 * master + 2 ^ 12 * bit write + 2 ^ 13 * bit iso + 2 ^ 14 * bit hxl + 2 ^ 31)

/-- The matrix master of the engine that serves a ring (R206). -/
def ringMaster (r : Nat) : Nat := bif Nat.blt r 2304 then 3 + r / 576 else bif Nat.blt r 2312 then 9 else 10

/-- Target `t` grants master `m` (R393). -/
def State.grant (s : State) (m t : Nat) : State := { s with granted := Table.put 0 (m + 1) t s.granted }

/-- The field of MTX_OUT_m that counts a kind. -/
def outField (m : Nat) (write : Bool) : Fld := bif write then F.mtxOutWr m else F.mtxOutRd m

/-- What leaves the device is a write to a host's memory. -/
def isHostWrite : Out → Bool
  | .hostWrite _ _ _ => true
  | .hostData _ _ _ => true
  | _ => false

/-- A transaction of master `m` is outstanding from now on (R396). -/
def State.outstanding (s : State) (m : Nat) (write : Bool) : State :=
  s.fput (outField m write) (Nat.min 127 (s.fget (outField m write) + 1))

/-- Master `m`'s requests of a kind that its issue stage holds back go out, oldest first, while it has fewer than 64
of the kind outstanding (R396). -/
def State.issueParked (s : State) (m : Nat) (write : Bool) : Nat → State
  | 0 => s
  | k + 1 =>
    match s.parked.find? (fun x => x.1 == m && isHostWrite x.2 == write) with
    | none => s
    | some x =>
      bif s.flag (F.mtxOutRst m) || Nat.ble 64 (s.fget (outField m write)) then s
      else ((({ s with parked := s.parked.erase x } : State).outstanding m write).emit x.2).issueParked m write k

/-- An engine's request to a host's memory (R396, R403): a master with 64 of its kind outstanding holds it back and counts
it, and one whose port drains holds it back. -/
def State.request (s : State) (m : Nat) (o : Out) : State :=
  (({ s with parked := s.parked ++ [(m, o)] }).when (Nat.ble 64 (s.fget (outField m (isHostWrite o)))) (·.cnt (Reg.mtxCnt 2))).issueParked
    m (isHostWrite o) 1

/-- `k` transactions of master `m` have ended: as many requests held back may go out (R396). -/
def State.transEnd (s : State) (m : Nat) (write : Bool) (k : Nat) : State :=
  (s.fput (outField m write) (s.fget (outField m write) - k)).issueParked m write k

/-- The last data beat of an engine's read. -/
def State.readIn (s : State) (m : Nat) : State := s.transEnd m false 1

/-- An engine's access to host `h`'s memory at `addr`: what leaves the device, or a DEF access where the host
translation refuses it (R399), which is outstanding until its error flag returns. -/
def State.hostBus (s : State) (h addr master : Nat) (write : Bool) (o : Out) : State :=
  bif addr / 2 ^ 38 == s.fget (F.mtxHbaseBase h) then (s.grant master (13 + h)).request master o
  else ((s.grant master 15).defAccess (addr % 2 ^ 40) master write false true).outstanding master write

/-! ### The Notice Rings (R232 to R235) -/

/-- The ring id of host `h`'s Notice Ring. -/
def noticeRing (h : Nat) : Nat := 2320 + h

/-- The host that owns a ring (R207). -/
def State.ringHost (s : State) (r : Nat) : Nat :=
  bif r == 2320 then 0 else bif r == 2321 then 1 else s.fget (F.ringCfgOwner r)

/-- Quadrant `q` is isolated (R28). -/
def State.iso (s : State) (q : Nat) : Bool := bitAt (s.fget F.qchStsIso) q

/-- What quadrant `q` sends to a Spine block; its isolation gate lets nothing out (R28). -/
def State.fromQuad (s : State) (q : Nat) (f : State → State) : State := s.when (!s.iso q) f

/-- What the Spine sends into quadrant `q`, outside the bus matrix; its isolation gate lets nothing in (R28). -/
def State.toQuad (s : State) (q : Nat) (f : State → State) : State := s.when (!s.iso q) f

/-- The quadrant of a port ring is isolated; the Spine rings lie in no quadrant. -/
def State.ringIsolated (s : State) (r : Nat) : Bool := Nat.blt r 2304 && s.iso (r / 576)

/-- The reset value of an MSI-X word: every vector starts masked (PCI Express 5.0). -/
def msixReset (o : Nat) : Nat := bit (Nat.blt (o % 0x20000) 0x18000 && o % 16 == 12)

/-- The MSI-X word of host `h` at BAR2 offset `o`. -/
def State.msixWord (s : State) (h o : Nat) : Nat :=
  Table.get (msixReset o) (0x20000 * h + o) s.msix

/-- Store an MSI-X word. -/
def State.setMsix (s : State) (h o n : Nat) : State :=
  { s with msix := Table.put (msixReset o) n (0x20000 * h + o) s.msix }

/-- Send MSI-X vector `v` of host `h`, or mark it pending while masked (PCI Express 5.0). -/
def State.sendMsix (s : State) (h v : Nat) : State :=
  bif bitAt (s.msixWord h (0x1000C + 16 * v)) 0 then
    s.setMsix h (0x18000 + 4 * (v / 32)) (s.msixWord h (0x18000 + 4 * (v / 32)) ||| 2 ^ (v % 32))
  else s.emit (.msix h v)

/-- The ring record. -/
def State.ring (s : State) (r : Nat) : Ring := Table.get {} r s.rings

/-- Store the ring record. -/
def State.setRing (s : State) (r : Nat) (x : Ring) : State := { s with rings := Table.put {} x r s.rings }

/-- Trigger the ring's interrupt (R223): a message at once, or one held until GAP has ended. -/
def State.ringIrq (s : State) (r : Nat) : State :=
  bif s.flag (F.ringIrqIrqEn r) then
    bif (s.ring r).gap then s.setRing r { s.ring r with irqHeld := true }
    else (s.setRing r { s.ring r with gap := s.fget (F.ringIrqGap r) != 0 }).sendMsix
      (s.ringHost r) (s.fget (F.ringIrqVec r))
  else s

/-- Word 1 of the head slot (Table 8.4). -/
def State.slotStatus (s : State) (r : Nat) : Nat :=
  s.fget (F.ringStsRun r) + 2 * s.fget (F.ringStsStarved r) + 4 * s.fget (F.ringStsErr r)
  + 256 * s.fget (F.ringStsErrCode r)

/-- Nothing is written to the owner's memory while the quadrant is isolated, or after the loss of the link until
the ring is enabled again (R238, R239). -/
def State.slotShut (s : State) (r : Nat) : Bool := s.ringIsolated r || (s.ring r).lost

/-- Write the head slot now (R222); `irq` says that the write advances the count or sets ERR or STARVED. -/
def State.slotNow (s : State) (r : Nat) (irq : Bool) : State :=
  bif s.slotShut r then s
  else
    let a := s.rd (Reg.ringSlotLo r) + 2 ^ 32 * s.rd (Reg.ringSlotHi r)
    let t := s.hostBus (s.ringHost r) a (ringMaster r) true
      (.hostWrite (s.ringHost r) a [s.rd (Reg.ringHead r), s.slotStatus r])
    (t.setRing r { t.ring r with slotOut := true }).when irq (·.ringIrq r)

/-- Join the slot writes that are owed: one for each ring. -/
def joinSlot (r : Nat) (irq : Bool) : List (Nat × Bool) → List (Nat × Bool)
  | [] => [(r, irq)]
  | x :: l => bif x.1 == r then (r, x.2 || irq) :: l else x :: joinSlot r irq l

/-- The head slot is due: it is written now, or once for the whole handshake (R222). -/
def State.slotWrite (s : State) (r : Nat) (irq : Bool) : State :=
  match s.slots with
  | none => s.slotNow r irq
  | some l => { s with slots := some (joinSlot r irq l) }

/-- What happens in one handshake gives each ring at most one slot write, after all else (R222). -/
def State.oneSlot (s : State) (f : State → State) : State :=
  bif s.slots.isSome then f s
  else
    let t := f { s with slots := some [] }
    eachOf (t.slots.getD []) (fun x u => u.slotNow x.1 x.2) { t with slots := none }

/-- The size of a ring in units (R208). -/
def State.ringSize (s : State) (r : Nat) : Nat := 2 ^ s.fget (F.ringCfgSizeLog2 r)

/-- The owned mark of a header at count `n` (R209): the inverse of the lap parity. -/
def State.ownedMark (s : State) (r n : Nat) : Nat := bit !(bitAt n (s.fget (F.ringCfgSizeLog2 r)))

/-- The address in host memory of the unit at count `n`. -/
def State.unitAddr (s : State) (r n : Nat) : Nat :=
  s.rd (Reg.ringBaseLo r) + 2 ^ 32 * s.rd (Reg.ringBaseHi r) + 16 * (n % s.ringSize r)

/-- Write one notice at the producer count of host `h`'s ring (Table 8.9): a write of its seven other words, then the
write of word 0 (R232). -/
def State.putNotice (s : State) (h code block ns sec index : Nat) (args : List Nat) : State :=
  let r := noticeRing h
  let p := s.rd (Reg.ringHead r)
  let n := Table.get {} h s.notices
  let a := s.unitAddr r p
  let t := s.hostBus h (a + 4) 10 true (.hostWrite h (a + 4)
    ([code + 2 ^ 16 * block, ns, sec, index % 2 ^ 16 + 2 ^ 16 * n.seq] ++ args))
  let t := t.hostBus h a 10 true (.hostWrite h a [6 + 16 + 256 * s.ownedMark r p])
  let t := { t with notices := Table.put {} { n with seq := (n.seq + 1) % 2 ^ 16 } h t.notices }
  t.wr (Reg.ringHead r) ((p + 2) % 2 ^ 32)

/-- Free units of host `h`'s Notice Ring (R210, R233). -/
def State.noticeFree (s : State) (h : Nat) : Nat :=
  s.ringSize (noticeRing h)
  - (s.rd (Reg.ringHead (noticeRing h)) + 2 ^ 32 - s.rd (Reg.ntcCons h)) % 2 ^ 32

/-- Fields of NTC_STS for one host. -/
def ntcOvf (h : Nat) : Fld := ⟨Reg.ntcSts, h, 1⟩
def ntcPend (h : Nat) : Fld := ⟨Reg.ntcSts, 4 + h, 1⟩

/-- The instant, ns, that a notice of block `b` carries: the Cabinet Bus star's comes from the switched Spine follower
(R364). -/
def State.noticeTime (s : State) (b : Nat) : Nat := bif b == 72 then s.folNow 4 else s.now

/-- Lose a notice of an instant (R235): NTC_LOST counts, OVF sets, a summary becomes pending. -/
def State.loseNotice (s : State) (h code t : Nat) : State :=
  let n := Table.get {} h s.notices
  let n := bif s.flag (ntcPend h) then { n with lost := Nat.min (n.lost + 1) 0xFFFFFFFF }
    else { n with lost := 1, firstCode := code, firstNs := fsNs t, firstSec := fsSec t }
  let t := { s with notices := Table.put {} n h s.notices }
  ((t.cnt (Reg.ntcLost h)).fset (ntcOvf h) true).fset (ntcPend h) true

/-- Write the pending summary (R235). -/
def State.putSummary (s : State) (h : Nat) : State :=
  let n := Table.get {} h s.notices
  (s.putNotice h 0 97 (fsNs s.now) (fsSec s.now) n.firstCode [n.lost, n.firstNs, n.firstSec]).fset (ntcPend h) false

/-- A notice to host `h` (R234, R235); a Notice Ring that is not running discards it. -/
def State.noticeTo (s : State) (h code block index : Nat) (args : List Nat) : State :=
  let t := s.noticeTime block
  bif !s.flag (F.ringStsRun (noticeRing h)) then s
  else bif s.flag (ntcPend h) then
    bif Nat.ble 4 (s.noticeFree h) then
      (((s.putSummary h).putNotice h code block (fsNs t) (fsSec t) index args).slotWrite (noticeRing h) true)
    else s.loseNotice h code t
  else bif Nat.ble 2 (s.noticeFree h) then
    (s.putNotice h code block (fsNs t) (fsSec t) index args).slotWrite (noticeRing h) true
  else s.loseNotice h code t

/-- A notice to both Notice Rings (R234). -/
def State.notice (s : State) (code block index : Nat) (args : List Nat) : State :=
  (s.noticeTo 0 code block index args).noticeTo 1 code block index args

/-! ### The fault status word (R416 to R419, R426) -/

/-- The status bit of source `n`. -/
def fswBit (n : Nat) : Fld := ⟨bif Nat.blt n 32 then Reg.qchFsw0 else Reg.qchFsw1, n % 32, 1⟩

/-- The grace timer of source `n` runs. -/
def pendBit (n : Nat) : Fld := ⟨bif Nat.blt n 32 then Reg.qchPend0 else Reg.qchPend1, n % 32, 1⟩

/-- The condition of R426 for FAULT_N low. -/
def State.faultCond (s : State) : Bool :=
  s.flag F.qchStsFatal
  || (List.range 11).any (fun u => s.fget (F.qchUnitState u) != 0)
  || (List.range 64).any (fun n => s.flag (fswBit n) && s.flag (F.qchSrc0FaultEn n))

/-- Drive FAULT_N by R426. -/
def State.driveFault (s : State) : State :=
  (s.fset F.qchStsFault s.faultCond).pin Pin.faultN (bif s.faultCond then 1 else 2)

/-- Latch one report in its status bit, cause and count (R416). -/
def State.latchOne (s : State) (n cause : Nat) : State :=
  ((s.fset (fswBit n) true).fput (F.qchSrc1Cause n) (s.fget (F.qchSrc1Cause n) ||| cause)).cntF (F.qchSrc1Count n)

/-- The mask of the sources of an update. -/
def maskOf (rs : List (Nat × Nat)) : Nat := rs.foldl (fun m x => m ||| 2 ^ x.1) 0

/-- Record the first update after FIRST_CLR (R417). -/
def State.firstUpdate (s : State) (rs : List (Nat × Nat)) : State :=
  bif s.flag F.qchStsFirstV then s
  else ((((s.wr Reg.qchFirst0 (maskOf rs % 2 ^ 32)).wr Reg.qchFirst1 (maskOf rs / 2 ^ 32)).wr
    Reg.qchFirst2 (fsNs s.now)).wr Reg.qchFirst3 (fsSec s.now)).fset F.qchStsFirstV true

/-- The Quench source that records its own loss: source 62 cause 1 (R435), whose event cannot enter
the full queue. -/
def State.brzOverflow (s : State) : State :=
  bif s.flag (fswBit 62) then s.latchOne 62 2
  else
    let t := (((s.latchOne 62 2).firstUpdate [(62, 2)]).brzLose).driveFault
    t.when (t.flag (F.qchSrc0NtcEn 62)) (·.notice (0x10 + 62) 97 62 [2, 0, 0])

/-- An event reaches Bronze: it is suppressed, joins the queue, or is lost (R435, R436). -/
def State.brzEvent (s : State) (code block index arg0 arg1 : Nat) : State :=
  bif s.suppressed code then s.suppress code
  else bif s.brzFull then (s.brzLose).brzOverflow
  else (s.countWindow code).brzJoin (s.brzEntry code block index arg0 arg1)

/-- The unit that source `n` acts on: 0..10, 11 the device, 12 none (Table 15.1, R420). -/
def State.targetOf (s : State) (n : Nat) : Nat :=
  bif Nat.blt n 32 then (bif Nat.blt (n % 8) 5 then n / 8 else 12)
  else bif n == 32 then
    (bif s.fget (F.qchSrc1Cause 32) == 4 then 12 else
    match s.fget (F.hscStallBlock 4) with
    | 67 => 4 | 68 => 5 | 69 => 5 | 70 => 6 | 71 => 7 | 72 => 8 | 74 => 9 | 76 => 10 | _ => 12)
  else match n with
    | 33 => 10 | 34 => 4 | 35 => 5 | 36 => 6 | 37 => 7 | 38 => 8 | 39 => 7 | 40 => 9
    | 54 => 11 | 55 => 11 | 56 => 11 | 57 => 11 | 63 => 11
    | _ => 12

/-- The target unit of a source is in RUN (R419); the device is until it is in the safe state. -/
def State.targetRuns (s : State) (n : Nat) : Bool :=
  let u := s.targetOf n
  bif u == 11 then !s.flag F.qchStsFatal
  else bif u == 12 then true else s.fget (F.qchUnitState u) == 0

/-- A source that reacts: contained or fatal (Table 15.1). -/
def State.reacts (s : State) (n : Nat) : Bool := s.fget (F.qchSrc0Class n) != 0

/-- The event of a source whose status bit the update sets (R417). -/
def State.sourceEvent (s : State) (n cause : Nat) : State :=
  (s.brzEvent (0x10 + n) 97 n cause 0).when (s.flag (F.qchSrc0NtcEn n))
    (·.notice (0x10 + n) 97 n [cause, 0, 0])

/-- Start the grace timer of a source (R419). -/
def State.startGrace (s : State) (n : Nat) : State :=
  s.when (s.reacts n && s.targetRuns n && s.fget (F.qchSrc0Grace n) != 0) (·.fset (pendBit n) true)

/-- One update of the status word (R417): every report is latched, then the events of the newly set
sources follow in ascending order, and their grace timers start. -/
def State.latch (s : State) (rs : List (Nat × Nat)) : State :=
  let fresh := (List.range 64).filter (fun n => rs.any (fun x => x.1 == n) && !s.flag (fswBit n))
  let t := (eachOf rs (fun x u => u.latchOne x.1 x.2) s).firstUpdate rs
  let t := eachOf fresh (fun n u =>
    (u.sourceEvent n (rs.foldl (fun m x => bif x.1 == n then m ||| x.2 else m) 0)).startGrace n) t
  t.driveFault

/-- Report one cause bit of a corrected source: no reaction follows (R419). -/
def State.corrected (s : State) (n causeBit : Nat) : State := s.latch [(n, 2 ^ causeBit)]

end Sys2Proof.Machine
end

