-- ==== Sys2Proof/Machine/Flags.lean ====
section
/-! DEFINITION. Event bits, half-range events and every counter that has one: what setting a bit of an
EVT register does (R432, Table 16.3) and what counting does (R18). -/

namespace Sys2Proof.Machine

/-- Set bit `j` of an EVT register: its Bronze record is written whatever EVT_EN holds, and its host
notice when EVT_EN enables it (R432). -/
def State.evtBit (s : State) (evt en j code block index arg0 arg1 : Nat) : State :=
  ((s.orw evt (2 ^ j)).brzEvent code block index arg0 arg1).when (s.bitOf en j)
    (·.notice code block index [arg0, arg1, 0])

/-- Set bit `j` of an EVT register of quadrant `q`: its record and its notice leave through the isolation gate (R28). -/
def State.quadEvt (s : State) (q evt en j code block index arg0 arg1 : Nat) : State :=
  bif s.iso q then s.orw evt (2 ^ j) else s.evtBit evt en j code block index arg0 arg1

/-- First code of quadrant `q` (Table 16.2). -/
def quadCode (q : Nat) : Nat := 0x100 + 0x40 * q

/-- MAC_EVT bit `j` of port `p`. -/
def State.macEvent (s : State) (p j : Nat) : State :=
  s.quadEvt (p / 36) (Reg.macEvt p) (Reg.macEvtEn p) j (quadCode (p / 36) + j) (16 * (p / 36)) (p % 36) (s.rd (Reg.pcsSts p)) 0

/-- GRF_EVT bit `j` of quadrant `q`. -/
def State.grfEvent (s : State) (q j : Nat) : State :=
  s.quadEvt q (Reg.grfEvt q) (Reg.grfEvtEn q) j (quadCode q + 0x10 + j) (16 * q + 7) 0
    (s.fget (F.grfStsFailCode q)) (s.fget (F.grfAsmStsAlarm q))

/-- NIT_EVT bit `j` of quadrant `q`. -/
def State.nitEvent (s : State) (q j index cause count : Nat) : State :=
  s.quadEvt q (Reg.nitEvt q) (Reg.nitEvtEn q) j (quadCode q + 0x18 + j) (16 * q + 6) index cause count

/-- SCB_EVT bit `j`. -/
def State.scbEvent (s : State) (j : Nat) : State :=
  s.evtBit Reg.scbEvt Reg.scbEvtEn j (0x200 + j) 67 0 (s.rd Reg.scbSts) 0

/-- FAB_EVT bit `j`. -/
def State.fabEvent (s : State) (j tag result map : Nat) : State :=
  s.evtBit Reg.fabEvt Reg.fabEvtEn j (0x208 + j) 68 tag result map

/-- POL_EVT bit `j`. -/
def State.polEvent (s : State) (j monitor st moves : Nat) : State :=
  s.evtBit Reg.polEvt Reg.polEvtEn j (0x210 + j) 69 monitor st moves

/-- ANL_EVT bits of quadrant `q`: kind 0 pass done, 1 step error, 2 step saturated. -/
def State.anlEvent (s : State) (kind q group result : Nat) : State :=
  s.evtBit Reg.anlEvt Reg.anlEvtEn (4 * kind + q) (0x218 + kind) 71 q group result

/-- ANL_EVT.CNT_HR, to which Table 16.3 gives no code: no record; the code of its notice is free. -/
def State.anlHalfRange (s : State) : State :=
  (s.orw Reg.anlEvt (2 ^ 12)).when (s.bitOf Reg.anlEvtEn 12)
    (fun t => (t.notice (t.freeVal 10) 71 0 [0, 0, 0]).useFree)

/-- CBS_EVT bit `j` of channel `c`; `index` is 16c + spoke for BLOCK, else c. -/
def State.cbsEvent (s : State) (c j index st cycles : Nat) : State :=
  s.evtBit (Reg.cbsEvt c) (Reg.cbsEvtEn c) j (0x220 + j) 72 index st cycles

/-- The containment unit whose shed level holds a half-range event (R47). -/
def hrUnit : HalfRange → Nat
  | .bits a _ => bif Nat.blt a 0x1000000 then 4 else (a - 0x1000000) / 0x800000
  | .grf q => q
  | .nit q => q
  | _ => 4

/-- The half-range event of any counter of Cabinet Bus channel `c`. -/
def State.cbsHalfRange (s : State) (c : Nat) : State :=
  s.cbsEvent c 8 c (s.fget (F.cbsStsState c)) (s.fget (F.cbsStsCycle c))

/-- What a half-range event does. -/
def State.deliverHr (s : State) : HalfRange → State
  | .bits a m => s.orw a m
  | .scb => s.scbEvent 5
  | .fab => s.fabEvent 4 0 0 0
  | .pol => s.polEvent 5 0 0 0
  | .grf q => s.grfEvent q 6
  | .nit q => s.nitEvent q 6 0 0 0
  | .anl => s.anlHalfRange
  | .cbs c => s.cbsHalfRange c

/-- A half-range event occurs: it is held while its unit sheds work (R18, R47). -/
def State.halfRange (s : State) (h : HalfRange) : State :=
  bif s.fget (F.hscMarginShed (hrUnit h)) == 0 then s.deliverHr h
  else { s with heldHr := s.heldHr ++ [(hrUnit h, h)] }

/-- A unit has left shed level 1: its held events are delivered (Table 2.3). -/
def State.releaseHr (s : State) (u : Nat) : State :=
  eachOf (s.heldHr.filter (fun x => x.1 == u)) (fun x t => t.deliverHr x.2)
    { s with heldHr := s.heldHr.filter (fun x => x.1 != u) }

/-- Count one in a 32-bit counter with a half-range event. -/
def State.count (s : State) (a : Nat) (h : HalfRange) : State := (s.cnt a).when (s.crosses a) (·.halfRange h)

/-- Add `k` to a counter of `width` bits in two words with a half-range event. -/
def State.countWide (s : State) (a width k : Nat) (h : HalfRange) : State :=
  (s.wideAdd a width k).when (s.wideCrosses a width k) (·.halfRange h)

/-- The width of MAC counter `n` (R127): octet counters are 48 bits wide. -/
def macCntWidth (n : Nat) : Nat := bif n == 1 || n == 20 || n == 34 then 48 else 40

/-- Add `k` to MAC counter `n` of port `p`; its half-range event sets a bit of MAC_HR (R127). -/
def State.macCount (s : State) (p n k : Nat) : State :=
  s.countWide (Reg.macCnt p n) (macCntWidth n) k
    (.bits (bif Nat.blt n 32 then Reg.macHr0 p else Reg.macHr1 p) (2 ^ (n % 32)))

/-- Count one in classifier counter `n` of port `p`. -/
def State.clsCount (s : State) (p n : Nat) : State :=
  s.countWide (Reg.clsCnt p n) 40 1 (.bits (Reg.clsPort3 p) (2 ^ n))

/-- Count `k` in gate counter `n` of port `p`. -/
def State.gateCount (s : State) (p n k : Nat) : State :=
  s.countWide (Reg.gateCnt p n) 40 k (.bits (Reg.gatePort6 p) (2 ^ n))

/-- Count one in counter `n` of pair `k`. -/
def State.pairCount (s : State) (k n : Nat) : State :=
  s.countWide (Reg.dupPairCnt k n) 40 1 (.bits (Reg.dupPair2 k) (2 ^ n))

/-- Count one in DUP_CNT_n of quadrant `q`. -/
def State.dupCount (s : State) (q n : Nat) : State :=
  s.count (Reg.dupCnt q n) (.bits (F.dupErrCntHr q).addr (2 ^ (F.dupErrCntHr q).lo))

/-- Count one in counter `n` of ring `r` (Table 8.14). -/
def State.ringCount (s : State) (r n : Nat) : State :=
  s.count (Reg.ringCnt r n) (.bits (Reg.ringSts r) (2 ^ (16 + n)))

/-- Count one in SCB_CNT_n. -/
def State.scbCount (s : State) (n : Nat) : State := s.count (Reg.scbCnt n) .scb

/-- Count one in FAB_CNT_n. -/
def State.fabCount (s : State) (n : Nat) : State := s.count (Reg.fabCnt n) .fab

/-- Count one in POL_CNT_n. -/
def State.polCount (s : State) (n : Nat) : State := s.count (Reg.polCnt n) .pol

/-- Count one in GRF_CNT_n of quadrant `q`. -/
def State.grfCount (s : State) (q n : Nat) : State := s.count (Reg.grfCnt q n) (.grf q)

/-- Count one in NIT_CNT_n of quadrant `q`. -/
def State.nitCount (s : State) (q n : Nat) : State := s.count (Reg.nitCnt q n) (.nit q)

/-- Count one in counter `n` of ANL_Q_q. -/
def State.anlCount (s : State) (q n : Nat) : State := s.count (Reg.anlCnt q n) .anl

/-- Count one in CBS_CNT_n of channel `c`. -/
def State.cbsCount (s : State) (c n : Nat) : State := s.count (Reg.cbsCnt c n) (.cbs c)

/-- Count one in counter `n` of spoke `k` of channel `c`; spoke 0 has no registers. -/
def State.spokeCount (s : State) (c k n : Nat) : State :=
  bif k == 0 then s else s.count (Reg.cbsSpkCnt c k n) (.cbs c)

/-! ### Pairs of ports (R180) -/

/-- The twin of a port and the pair of a port. -/
def twinOf (p : Nat) : Nat := bif p % 2 == 0 then p + 1 else p - 1

def pairOf (p : Nat) : Nat := p / 2

/-- The mode in which a pair acts (Table 7.1); DUP_CTL.EN = 0 makes it mode 0. -/
def State.pairMode (s : State) (k : Nat) : Nat :=
  bif s.flag (F.dupCtlEn (k / 18)) then s.fget (F.dupPair0Mode k) else 0

/-- A frame of a transmit ring of port `p` goes out in two copies (R182). -/
def State.sendsTwo (s : State) (p : Nat) : Bool := s.pairMode (pairOf p) != 0 && p % 2 == 0

end Sys2Proof.Machine
end

