-- ==== Sys2Proof/Machine/Domains.lean ====
section
/-! DEFINITION. Power domains, the isolation gates, and what an access meets on its way to a register
(R28, R399, R401, R448, R450). -/

namespace Sys2Proof.Machine

/-- Domain `i` of quadrant `q` (Table 17.1). -/
def qDom (q i : Nat) : Nat := 1 + 11 * q + i

/-- The domain index within its quadrant of window offset `o`. -/
def windowDom (o : Nat) : Nat :=
  bif Nat.blt o 0x24000 then 0
  else bif Nat.blt o 0x2A000 then 1 + (o - 0x24000) / 0x1000
  else bif Nat.blt o 0x180000 then 0
  else bif Nat.blt o 0x1C0000 then 7
  else bif Nat.blt o 0x200000 then 8
  else bif Nat.blt o 0x3C0000 then 9
  else bif Nat.blt o 0x400000 then 10
  else bif Nat.blt o 0x600000 then 9 else 7

/-- The domain of the Spine word at `a`. -/
def spineDom (a : Nat) : Nat :=
  bif Nat.blt a 0x40000 then (bif Nat.ble 0xF00 a && Nat.blt a 0x2000 then 47 else 0)
  else bif Nat.blt a 0x90000 then
    (bif Nat.blt a 0x50000 then 50 else bif Nat.blt a 0x70000 then 0 else 47)
  else bif Nat.blt a 0x100000 then (bif Nat.ble 0xA0000 a && Nat.blt a 0xB0000 then 47 else 51)
  else bif Nat.blt a 0x200000 then (bif Nat.blt a 0x180000 then 49 else 48)
  else bif Nat.blt a 0x400000 then 0
  else bif Nat.blt a 0x800000 then 48 else 49

/-- The quadrant of a window offset of BAR0. -/
def quadOf (a : Nat) : Nat := (a - 0x1000000) / 0x800000

/-- The power domain that holds the word at BAR0 offset `a`. -/
def domainOf (a : Nat) : Nat :=
  bif Nat.blt a 0x1000000 then spineDom a else qDom (quadOf a) (windowDom (windowOff a))

/-- Domain `n` is READY (R449); POR_N low holds PD00 in reset (Table 17.3). -/
def State.ready (s : State) (n : Nat) : Bool := s.fget (F.pwrDomState n) == 3 && (n != 0 || !s.pwr.porLow)

/-- Domain `i` of quadrant `q` is READY. -/
def State.qReady (s : State) (q i : Nat) : Bool := s.ready (qDom q i)

/-- Domain `i` of quadrant `q` works for the Spine: READY and not isolated. -/
def State.open' (s : State) (q i : Nat) : Bool := s.qReady q i && !s.iso q

/-- Unit `u` of the Spine (4..10) is held in reset by a reaction (Table 15.3). -/
def State.unitHeld (s : State) (u : Nat) : Bool := s.fget (F.qchUnitState u) != 0

/-- The Quench unit whose reset holds the block of the word at `a`, 11 for none. -/
def spineUnit (a : Nat) : Nat :=
  bif Nat.ble 0x40000 a && Nat.blt a 0x50000 then 7
  else bif Nat.ble 0x90000 a && Nat.blt a 0xA0000 then 9
  else bif Nat.ble 0xB0000 a && Nat.blt a 0x100000 then 8
  else bif Nat.ble 0x100000 a && Nat.blt a 0x180000 || Nat.ble 0x800000 a && Nat.blt a 0x1000000 then 5
  else bif Nat.ble 0x180000 a && Nat.blt a 0x200000 || Nat.ble 0x400000 a && Nat.blt a 0x800000 then 4
  else bif Nat.ble 0xF00 a && Nat.blt a 0x2000 then 6 else 11

/-- The block of the word at `a` is held in reset by a Quench reaction. -/
def State.blockHeld (s : State) (a : Nat) : Bool :=
  Nat.blt a 0x1000000 && Nat.blt (spineUnit a) 11 && s.unitHeld (spineUnit a)

/-- The word at `a` answers accesses: its domain is READY, its quadrant is not isolated (R28, R450), and
its block is not held in reset. -/
def State.reaches (s : State) (a : Nat) : Bool :=
  s.ready (domainOf a) && (Nat.blt a 0x1000000 || !s.iso (quadOf a)) && !s.blockHeld a

/-- A write that reaches the register at `a` (R28, R450). -/
def State.atReg (s : State) (a : Nat) (f : State → State) : State := s.when (s.reaches a) f

/-- A signal or flit that reaches domain `n`: inputs are ignored while it is not READY (R457). -/
def State.atDom (s : State) (n : Nat) (f : State → State) : State := s.when (s.ready n) f

/-- The matrix master of a requester (Table 14.1). -/
def masterOf : Requester → Nat
  | .hostA => 0
  | .hostB => 1
  | .servicePort => 2
  | .bulkMover => 7
  | .sequencer => 8

/-- The block id that a requester's software records carry (R440). -/
def requesterBlock : Requester → Nat
  | .hostA => 64
  | .hostB => 65
  | .servicePort => 100
  | .bulkMover => 73
  | .sequencer => 71

/-- The unit whose Quench sources a domain of a monitor belongs to is powered: unit `u` of R42. -/
def State.unitPowered (s : State) (u : Nat) : Bool :=
  bif Nat.blt u 4 then s.qReady u 0 && !s.iso u else bif u == 4 then s.ready 47 else true

/-- A source pulse enters the event router while its domain is READY (R411). -/
def State.pulse (s : State) (id : Nat) : State := s.when (s.ready 47) fun t => { t with pulses := t.pulses ++ [id] }

/-! ### Targets (R392) -/

/-- The target of BAR0 offset `a` (Tables 1.6 and 1.7): 0 REG, 1 SEQ, 2 SCH, 3 MAP, 4 + q CTBq, 8 + q SRCq, 12 BKP,
13 HEA, 14 HEB, 15 DEF. -/
def targetOfWord (a : Nat) : Nat :=
  bif Nat.blt a 0x1000000 then
    (bif Nat.blt a 0x200000 then 0 else bif Nat.blt a 0x400000 then 12 else bif Nat.blt a 0x800000 then 2 else 3)
  else bif Nat.ble 0x3000000 a then 15
  else
    let o := windowOff a
    bif Nat.blt o 0x400000 then 0 else bif Nat.blt o 0x600000 then 4 + quadOf a else 8 + quadOf a

/-- Master `m` is connected to target `t` (Table 14.2). -/
def connected (m t : Nat) : Bool :=
  bif t == 15 then true
  else bif Nat.ble m 2 then Nat.blt t 13
  else bif m == 7 then true
  else bif m == 8 then t == 0 || t == 1 || (Nat.ble 4 t && Nat.ble t 7)
  else t == 13 || t == 14

/-- The target at which a request of master `m` for target `t` is granted: DEF for one not connected (R392). -/
def servedAt (m t : Nat) : Nat := bif connected m t then t else 15

/-- A request of master `m` for target `t` is granted (R393); no matrix grants while PD47 is not READY. -/
def State.granting (s : State) (m t : Nat) : State := s.when (s.ready 47) (·.grant m (servedAt m t))

/-! ### Injection (R428) -/

/-- The domain whose block reports cause `j` of source `n` (Tables 15.1 and 17.1). -/
def causeDom (n j : Nat) : Nat :=
  bif Nat.blt n 32 then
    let q := n / 8
    match n % 8 with
    | 0 | 1 => qDom q 0
    | 2 => qDom q ([0, 0, 0, 7, 8].getD j 0)
    | 3 => qDom q ([10, 9].getD j 9)
    | 4 => qDom q 9
    | 5 => qDom q ([0, 0, 0, 7, 8, 10, 9].getD j 0)
    | 6 => qDom q 0
    | _ => qDom q (bif Nat.blt j 2 then 10 else 9)
  else match n with
  | 32 | 33 | 36 | 50 | 51 | 52 => 47
  | 34 => 48
  | 35 | 43 | 44 => 49
  | 37 | 39 | 45 | 46 => 50
  | 38 | 40 | 47 | 48 | 49 => 51
  | 41 => [48, 49, 47, 50, 51, 50, 51].getD j 47
  | 42 => bif j == 0 then 45 else 46
  | _ => 0

/-- QCH_INJ is armed for memory `cause` of source `src`. -/
def State.injects (s : State) (src cause : Nat) : Bool :=
  s.flag F.qchInjArm && s.fget F.qchInjSrc == src && s.fget F.qchInjCause == cause

/-- A word is written into memory `cause` of source `src`, at the key that names it: an armed injection stores it
with inverted check bits, and any other write stores good ones. -/
def State.memWritten (s : State) (src cause key : Nat) : State :=
  bif s.injects src cause then
    { s.fset F.qchInjArm false with injected := Table.put 0 (64 * src + 4 * cause + s.fget F.qchInjBits) key s.injected }
  else bif Table.get 0 key s.injected == 0 then s
  else { s with injected := Table.drop key s.injected }

/-- A block writes the `n` words from `a` on into memory `cause` of source `src`. -/
def State.entryWritten (s : State) (src cause a n : Nat) : State :=
  eachOf (List.range n) (fun j t => t.memWritten src cause (a + 4 * j)) s

/-- The word under `key` reads without an uncorrectable error. -/
def State.readable (s : State) (key : Nat) : Bool :=
  Table.get 0 key s.injected == 0 || Table.get 0 key s.injected % 4 == 1

/-- The `n` words from `a` on read without an uncorrectable error. -/
def State.wordsReadable (s : State) (a n : Nat) : Bool := (List.range n).all (fun j => s.readable (a + 4 * j))

/-- A block reads the words whose keys satisfy `p`: what those with inverted check bits say is reported when its command
ends. -/
def State.touchAll (s : State) (p : Nat → Bool) : State :=
  { s with touched := s.touched ++ (s.injected.filter (fun x => p x.1)).map (·.2) }

/-- A block reads the `n` memory words from `a` on. -/
def State.touch (s : State) (a n : Nat) : State := s.touchAll (fun k => (List.range n).any (fun j => k == a + 4 * j))

/-- A block reads the table word at `a` into a register: one that cannot be corrected gives a free value. -/
def State.tableRead (s : State) (a : Nat) : State × Nat :=
  let t := s.touch a 1
  bif s.readable a then (t, s.rd a) else (t.useFree, s.freeVal 32)

/-- The corrected source and cause that stand beside an uncorrectable one (R428). -/
def correctedBeside (n cause : Nat) : Nat × Nat :=
  bif Nat.blt n 32 then (8 * (n / 8) + 5, bif n % 8 == 2 then cause else 5 + cause)
  else bif n == 57 then (58, cause) else (41, n - 34)

/-- The source and cause that a read of a word remembered as `x` reports. -/
def injReport (x : Nat) : Nat × Nat :=
  let y := bif x % 4 == 1 then correctedBeside (x / 64) (x % 64 / 4) else (x / 64, x % 64 / 4)
  (y.1, 2 ^ y.2)

/-! ### Words that no address shows (R428) -/

/-- The key of word `n` of memory `cause` of source `src`, of those that no address shows. The manual does not say what
words such a memory has; the model has one for each port, ring, shaper port, meter, link or block that a row works
for: DESIGN CHOICE, log entry 72. -/
def hiddenKey (src cause n : Nat) : Nat := 2 ^ 40 + 2 ^ 16 * (8 * src + cause) + n % 2 ^ 16

/-- A row writes word `n` of such a memory. -/
def State.hiddenWritten (s : State) (src cause n : Nat) : State := s.memWritten src cause (hiddenKey src cause n)

/-- A row reads word `n` of such a memory. -/
def State.hiddenRead (s : State) (src cause n : Nat) : State := s.touch (hiddenKey src cause n) 1

/-- Word `n` of such a memory reads without an uncorrectable error. -/
def State.hiddenGood (s : State) (src cause n : Nat) : Bool := s.readable (hiddenKey src cause n)

/-- The keys of the words of Keep bank `b`. -/
def keepKey (b w : Nat) : Nat := 2 ^ 41 + 2 ^ 20 * b + w

/-- The words that no address shows and whose source and cause satisfy `p` are cleared with good check bits. -/
def State.resetHidden (s : State) (p : Nat → Nat → Bool) : State :=
  { s with injected := s.injected.filter (fun x =>
      !(Nat.ble (2 ^ 40) x.1 && Nat.blt x.1 (2 ^ 41) && p ((x.1 - 2 ^ 40) / 2 ^ 19) ((x.1 - 2 ^ 40) / 2 ^ 16 % 8))) }

end Sys2Proof.Machine
end

