-- ==== Sys2Proof/Machine/Operands.lean ====
section
/-! DEFINITION. Operand forms: bytes of words and words of bytes, the CRC conventions of Table 14.4, and
the header fields of an Ethernet frame. -/

namespace Sys2Proof.Machine

/-- The four bytes of a word, least significant first. -/
def wordBytes (w : Nat) : List Nat := [w % 256, w / 256 % 256, w / 65536 % 256, w / 16777216 % 256]

/-- The bytes of words, least significant byte of each word first. -/
def bytesOfWords : List Nat → List Nat
  | [] => []
  | w :: r => wordBytes w ++ bytesOfWords r

/-- The number whose bytes in network order are `l`. -/
def beNat : List Nat → Nat := List.foldl (fun n b => n * 256 + b % 256) 0

/-- The number whose bytes are `l`, least significant first. -/
def leNat : List Nat → Nat
  | [] => 0
  | b :: r => b % 256 + 256 * leNat r

/-- `n` bytes of a number in network order. -/
def beBytes : Nat → Nat → List Nat
  | 0, _ => []
  | n + 1, v => (v / 256 ^ n % 256) :: beBytes n v

/-- Frame bytes as numbers. -/
def natBytes (l : List Byte) : List Nat := l.map BitVec.toNat

/-- Numbers as frame bytes. -/
def mkBytes (l : List Nat) : List Byte := l.map (BitVec.ofNat 8)

/-- `k` steps of a reflected CRC register. -/
def crcDown (poly : Nat) : Nat → Nat → Nat
  | 0, c => c
  | k + 1, c => crcDown poly k (bif c % 2 == 1 then (c / 2) ^^^ poly else c / 2)

/-- `k` steps of a forward CRC register of `width` bits. -/
def crcUp (poly width : Nat) : Nat → Nat → Nat
  | 0, c => c
  | k + 1, c =>
    crcUp poly width k (bif c.testBit (width - 1) then ((c * 2) ^^^ poly) % 2 ^ width else c * 2 % 2 ^ width)

/-- A reflected CRC over bytes: reversed polynomial, first value all ones, last value inverted. -/
def crcReflected (poly : Nat) (l : List Nat) : Nat :=
  l.foldl (fun c b => crcDown poly 8 (c ^^^ (b % 256))) 0xFFFFFFFF ^^^ 0xFFFFFFFF

/-- A forward CRC over bytes with no final inversion. -/
def crcForward (poly width init : Nat) (l : List Nat) : Nat :=
  l.foldl (fun c b => crcUp poly width 8 (c ^^^ (b % 256) * 2 ^ (width - 8))) init

/-- CRC-32 by Table 14.4. -/
def crc32 (l : List Nat) : Nat := crcReflected 0xEDB88320 l

/-- CRC-32C by Table 14.4. -/
def crc32c (l : List Nat) : Nat := crcReflected 0x82F63B78 l

/-- CRC-24 by Table 14.4. -/
def crc24 (l : List Nat) : Nat := crcForward 0x864CFB 24 0xB704CE l

/-- CRC-16 by Table 14.4. -/
def crc16 (l : List Nat) : Nat := crcForward 0x1021 16 0xFFFF l

/-- The CRC that POLY selects. -/
def sealCrc (poly : Nat) (l : List Nat) : Nat :=
  match poly with
  | 0 => crc32 l
  | 1 => crc32c l
  | 2 => crc24 l
  | _ => crc16 l

/-- The words of the register file from `a` on. -/
def State.words (s : State) (a n : Nat) : List Nat := (List.range n).map (fun i => s.rd (a + 4 * i))

/-- Byte `i` of a frame; 0 beyond its end. -/
def byteAt (l : List Byte) (i : Nat) : Nat := (l.getD i 0).toNat

/-- Two bytes of a frame in network order. -/
def be16 (l : List Byte) (i : Nat) : Nat := 256 * byteAt l i + byteAt l (i + 1)

/-- Bytes `i .. i + n - 1` of a frame in network order. -/
def beAt (l : List Byte) (i n : Nat) : Nat := (List.range n).foldl (fun v k => v * 256 + byteAt l (i + k)) 0

/-- The destination address of a frame. -/
def frameDa (l : List Byte) : Nat := beAt l 0 6

/-- The source address of a frame. -/
def frameSa (l : List Byte) : Nat := beAt l 6 6

/-- The I/G bit: the destination is a group address. -/
def isGroup (da : Nat) : Bool := da.testBit 40

/-- The broadcast address. -/
def broadcastDa : Nat := 0xFFFFFFFFFFFF

/-- The address in MAC_ADDR of port `p`: byte 0 in HI [15:8] (Table 4.11). -/
def State.macAddr (s : State) (p : Nat) : Nat :=
  s.fget (F.macAddrHiAddrHi p) * 2 ^ 32 + s.fget (F.macAddrLoAddrLo p)

/-! ### Clause 99 (R122): PRESUMED, since the manual names the standard and gives no value -/

/-- SMD-S and SMD-C of frame number `n`. -/
def smdStart (n : Nat) : Nat := [0xE6, 0x4C, 0x7F, 0xB3].getD (n % 4) 0
def smdCont (n : Nat) : Nat := [0x61, 0x52, 0x9E, 0x2A].getD (n % 4) 0

/-- The code of the fragment count of the `n`-th continuation, from 0 on. -/
def fragCode (n : Nat) : Nat := [0xE6, 0x4C, 0x7F, 0xB3].getD (n % 4) 0

/-- The mCRC behind the frame bytes sent so far: the frame CRC so far, XORed with 0x0000FFFF (R122). -/
def mCrc (l : List Byte) : Nat := crc32 (natBytes l) ^^^ 0x0000FFFF

/-- The FCS of a frame, and a stomped one: its complement (R197). -/
def goodFcs (l : List Byte) : Nat := crc32 (natBytes l)
def stompedFcs (l : List Byte) : Nat := 0xFFFFFFFF - crc32 (natBytes l)

/-- Rounding to the nearest integer, halves away from zero (R282). -/
def roundDiv (n : Int) (d : Nat) : Int :=
  bif decide (n < 0) then -(((2 * n.natAbs + d) / (2 * d) : Nat) : Int) else (((2 * n.natAbs + d) / (2 * d) : Nat) : Int)

end Sys2Proof.Machine
end

