-- ==== Sys2Proof/Machine/TimeOps.lean ====
section
/-! DEFINITION. The rate of Invar's counter and the states of its servo (R61, R67, R70, R73, R75). -/

namespace Sys2Proof.Machine

/-- The extra rate of a slew in progress, 2^-8 ppb (R67). -/
def State.slewRate (s : State) : Int :=
  let m : Int := 256000 * (s.fget F.invServoLimSlewMax : Int)
  bif decide (s.inv.slew < 0) then -m else bif s.inv.slew == 0 then 0 else m

/-- The rate correction r in force, 2^-8 ppb. -/
def State.curRate (s : State) : Int := s.inv.rate + s.slewRate

/-- What one tick absorbs of a slew, in the unit of the remainder (R67). -/
def State.slewStep (s : State) : Nat := 65536 * s.fget F.invServoLimSlewMax

/-- The counter's increment per tick of 1 ns nominal: r acts only with STEER = 0; halves are rounded away from
zero (R61, R70). -/
def State.tickUnits (s : State) : Nat :=
  bif s.flag F.invCtlSteer then nsUnit
  else
    let n : Int := s.curRate * (nsUnit : Int)
    let d : Nat := 256000000000
    let q : Int := bif decide (n < 0) then -(((2 * n.natAbs + d) / (2 * d) : Nat) : Int) else (((2 * n.natAbs + d) / (2 * d) : Nat) : Int)
    ((nsUnit : Int) + q).toNat

/-! ### The rate (R61, R67, R70, R71, R75) -/

/-- A quotient whose rounding is not stated: the two neighbours of an inexact one are told apart by `up`. -/
def freeQuot (n : Int) (d : Nat) (up : Bool) : Int :=
  bif n % (d : Int) == 0 || !up then n / (d : Int) else n / (d : Int) + 1

/-- Change Invar's record. -/
def State.onInv (s : State) (f : Inv → Inv) : State := { s with inv := f s.inv }

/-- Drive a VTRIM code. -/
def State.driveVtrim (s : State) (n : Nat) : State := (s.fput F.invVtrimCode n).pin Pin.vtrim (n + 1)

/-- The code of a rate in 2^-8 ppb (R70), before the clamp: the slope is in 2^-16 ppb a code. -/
def State.vtrimCode (s : State) : Int :=
  let g := signedOf (s.fget F.invVtrimGainGain) 32
  let d := Nat.max 1 g.natAbs
  (s.fget F.invVtrimBaseBase : Int) + roundDiv (bif decide (g < 0) then -(256 * s.curRate) else 256 * s.curRate) d

/-- The rate acts (R70): INV_RATE shows it, and with STEER = 1 the output follows it outside FREERUN. -/
def State.showRate (s : State) : State :=
  let t := s.fput F.invRateRate (encodeSigned s.curRate 32)
  bif t.flag F.invCtlSteer && t.fget F.invStsServo != 0 then
    let c := t.vtrimCode
    let u := t.driveVtrim (clampInt 0 262143 c).toNat
    bif decide (c < 0) || decide (262143 < c) then (u.fset F.invStsVtrimSat true).corrected 59 0 else u
  else t

/-- Time passes at the present rate in the sum of R75 up to now. -/
def State.sumUp (s : State) : State :=
  s.onInv (fun x => { x with sum := x.sum + s.curRate * ((s.counter : Int) - x.sumAt), sumAt := s.counter })

/-- Change what makes the rate. -/
def State.rateBy (s : State) (f : Inv → Inv) : State := ((s.sumUp).onInv f).showRate

/-- Seconds in the current holdover, saturating; what the last one left otherwise (R75). -/
def State.holdSeconds (s : State) : Nat :=
  bif s.fget F.invStsServo == 3 then Nat.min 65535 ((s.counter - s.inv.sumFrom) / (1000000000 * nsUnit))
  else s.fget F.invHoldHoldS

/-! ### Servo states (R73) -/

/-- The servo states of Table 3.2. -/
def servoFree : Nat := 0

def servoAcquire : Nat := 1

def servoLocked : Nat := 2

def servoHold : Nat := 3

/-- The servo's state. -/
def State.servo (s : State) : Nat := s.fget F.invStsServo

/-- A change of servo state, with its record and notice; the runs start again, and HOLD_S stays at the length of
a holdover that ends. -/
def State.setServo (s : State) (n : Nat) : State :=
  let old := s.servo
  bif old == n then s
  else
    let t := (s.sumUp).fput F.invHoldHoldS (bif n == servoHold then 0 else s.holdSeconds)
    let t := (t.fput F.invStsServo n).onInv (fun x => { x with
      inRun := 0, outRun := 0, sum := 0, sumFrom := t.counter, sumAt := t.counter })
    let t := t.when (n == servoLocked) (·.fset F.invStsEverLocked true)
    (t.brzEvent 0x80 96 0 n old).notice 0x80 96 0 [n, old, 0]

/-- INV_RATE_SET, 2^-8 ppb. -/
def State.rateSet (s : State) : Int := signedOf (s.fget F.invRateSetSet) 32

/-- In FREERUN with STEER = 0 the rate is INV_RATE_SET; with STEER = 1 the code in place stays (R70, R72). -/
def State.freeRate (s : State) : State :=
  bif s.servo == servoFree && !s.flag F.invCtlSteer then s.rateBy (fun x => { x with rate := s.rateSet }) else s

/-- The holdover rate (R75): what INV_RATE_MEAN shows. -/
def State.holdRate (s : State) : Int := signedOf (s.fget F.invRateMeanMean) 32

/-- The reference is lost or the parent changed (R73, R76): the next three measurements are not steered by.
A parent change with an empty history goes to FREERUN as a lost reference does: DESIGN CHOICE, log entry 93. -/
def State.loseReference (s : State) : State :=
  bif !s.flag F.invCtlEn then s
  else
    let t := s.onInv (fun x => { x with skip := 3 })
    bif s.servo == servoAcquire || s.servo == servoLocked then
      bif s.inv.hist.isEmpty then (t.setServo servoFree).freeRate
      else (t.setServo servoHold).rateBy (fun x => { x with rate := s.holdRate })
    else t

end Sys2Proof.Machine
end

