-- ==== Sys2Proof/Machine/Bmca.lean ====
section
/-! DEFINITION. PTP ports: their states, the best master clock algorithm, and how a port follows its MAC link (R77,
R80, R81). -/

namespace Sys2Proof.Machine

/-! ### Ports -/

/-- Every port. -/
def allPorts : List Nat := List.range 144

/-- The port is up: only state UP (R108). -/
def State.portUp (s : State) (p : Nat) : Bool := s.fget (F.pcsStsState p) == 3

/-! ### PTP ports (R79 to R81) -/

/-- The PTP record of port `p`. -/
def State.ptpOf (s : State) (p : Nat) : PtpPort := Table.get {} p s.inv.ptp

/-- Store the PTP record of port `p`. -/
def State.setPtp (s : State) (p : Nat) (x : PtpPort) : State := { s with inv := { s.inv with ptp := Table.put {} x p s.inv.ptp } }

/-- Count one in PCNT_n of port `p`: the manual names no half-range event for it. -/
def State.ptpCount (s : State) (p n : Nat) : State := s.cnt (Reg.invPcnt p n)

/-- clockIdentity and the identity of a port of this clock. -/
def State.clockId (s : State) : Nat := s.rd Reg.invPtpId0 + 2 ^ 32 * s.rd Reg.invPtpId1

def State.portId (s : State) (p : Nat) : Nat := 65536 * s.clockId + p + 1

/-- The end-to-end delay mechanism is forced by PROFILE 0, the peer mechanism by the others (Table 3.4). -/
def State.endToEnd (s : State) : Bool := s.fget F.invPtpCtlProfile == 0

/-- The port states of R80. -/
def ptpFaulty : Nat := 2

def ptpDisabled : Nat := 3

def ptpListening : Nat := 4

def ptpPreMaster : Nat := 5

def ptpMaster : Nat := 6

def ptpPassive : Nat := 7

def ptpUncalibrated : Nat := 8

def ptpSlave : Nat := 9

/-- The state of PTP port `p`. -/
def State.ptpState (s : State) (p : Nat) : Nat := s.fget (F.invPctlState p)

/-- A change of port state, with its record and notice (R103). -/
def State.setPtpState (s : State) (p n : Nat) : State :=
  let old := s.ptpState p
  bif old == n then s
  else ((s.fput (F.invPctlState p) n).brzEvent 0x82 96 p n old).notice 0x82 96 p [n, old, 0]

/-- The port takes part: it is neither FAULTY nor DISABLED. -/
def State.ptpRuns (s : State) (p : Nat) : Bool := Nat.ble ptpListening (s.ptpState p)

/-- Own clockClass (R81). -/
def State.ownClass (s : State) : Nat :=
  bif s.flag F.invPtpCtlSlaveOnly then 255
  else bif s.fget F.invCtlSrc == 2 && s.servo == servoLocked then s.fget F.invPtpDsClassLocked
  else bif s.servo == servoHold && s.flag F.invStsEverLocked && Nat.blt s.holdSeconds (s.fget F.invHoldHoldLimit) then
    s.fget F.invPtpDsClassHold
  else s.fget F.invPtpDs2ClassFree

/-- The own data set. -/
def State.ownSet (s : State) : Foreign :=
  { src := 65536 * s.clockId, priority1 := s.fget F.invPtpDsPriority1, clockClass := s.ownClass
    accuracy := s.fget F.invPtpDs2Accuracy, variance := s.fget F.invPtpDs2Variance
    priority2 := s.fget F.invPtpDsPriority2, gm := s.clockId }

/-! ### The best master clock algorithm (R77, R80) -/

/-- The order of two data sets of different grandmasters; 0 where no field differs. -/
def orderOf : List (Nat × Nat) → Int
  | [] => 0
  | x :: r => bif Nat.blt x.1 x.2 then 2 else bif Nat.blt x.2 x.1 then -2 else orderOf r

/-- The data set comparison (IEEE 1588-2019): 2 when `a` is better, 1 when it is better by topology, negative the
other way round. Each set comes with the port of this clock, `me`, that received it: where stepsRemoved differ by one, the
receiver and the sender of the set further away are compared. -/
def compareSets (me : Nat) (a b : Nat × Foreign) : Int :=
  let x := a.2
  let y := b.2
  bif x.gm != y.gm then
    orderOf [(x.priority1, y.priority1), (x.clockClass, y.clockClass), (x.accuracy, y.accuracy), (x.variance, y.variance),
      (x.priority2, y.priority2), (x.gm, y.gm)]
  else bif Nat.blt (x.steps + 1) y.steps then 2
  else bif Nat.blt (y.steps + 1) x.steps then -2
  else bif Nat.blt x.steps y.steps then (bif Nat.blt (65536 * me + b.1 + 1) y.src then 2 else 1)
  else bif Nat.blt y.steps x.steps then (bif Nat.blt (65536 * me + a.1 + 1) x.src then -2 else -1)
  else bif Nat.blt x.src y.src then 1
  else bif Nat.blt y.src x.src then -1
  else bif Nat.blt a.1 b.1 then 1 else bif Nat.blt b.1 a.1 then -1 else 0

/-- The announce interval, ns. -/
def State.annInterval (s : State) : Nat :=
  let k := signedOf (s.fget F.invPtpIntvLogAnn) 8
  bif decide (k < 0) then 1000000000 / 2 ^ k.natAbs else 1000000000 * 2 ^ k.natAbs

/-- A foreign master is qualified: two Announces within four intervals, stepsRemoved below 255. -/
def State.qualified (s : State) (f : Foreign) : Bool :=
  Nat.blt f.steps 255 && Nat.ble 2 (f.seen.filter (fun t => Nat.ble s.now (t + 4 * s.annInterval))).length

/-- The better of two received sets. -/
def betterSet (me : Nat) (a : Option (Nat × Foreign)) (b : Nat × Foreign) : Option (Nat × Foreign) :=
  match a with
  | none => some b
  | some x => bif decide (0 < compareSets me b x) then some b else some x

/-- E_rbest of a port. -/
def State.portBest (s : State) (p : Nat) : Option (Nat × Foreign) :=
  bif s.flag (F.invPctlMasterOnly p) then none
  else (((s.ptpOf p).foreign.filter s.qualified).map (fun f => (p, f))).foldl (betterSet s.clockId) none

/-- The ports that take part. -/
def State.ptpPorts (s : State) : List Nat := allPorts.filter s.ptpRuns

/-- E_best. -/
def State.clockBest (s : State) : Option (Nat × Foreign) := (s.ptpPorts.filterMap s.portBest).foldl (betterSet s.clockId) none

/-- The recommended state of a port. -/
def State.decidePort (s : State) (best : Option (Nat × Foreign)) (p : Nat) : Nat :=
  let own := (0, s.ownSet)
  let master := bif s.flag F.invPtpCtlSlaveOnly then ptpListening else ptpMaster
  match s.portBest p with
  | none =>
    bif s.ptpState p == ptpListening && !(s.ptpOf p).timedOut then ptpListening
    else master
  | some e =>
    bif Nat.ble 1 s.ownClass && Nat.ble s.ownClass 127 then
      bif decide (0 < compareSets s.clockId own e) then master else ptpPassive
    else match best with
      | none => master
      | some b =>
        bif decide (0 < compareSets s.clockId own b) then master
        else bif b.1 == p then ptpSlave
        else bif compareSets s.clockId b e == 1 then ptpPassive else master

/-- A port takes its decision: MASTER is entered through PRE_MASTER, SLAVE through UNCALIBRATED, and a port that
keeps the same master keeps its state. -/
def State.applyDecision (s : State) (same : Bool) (p n : Nat) : State :=
  let st := s.ptpState p
  bif n == ptpMaster then
    bif st == ptpMaster || st == ptpPreMaster then s else s.setPtpState p ptpPreMaster
  else bif n == ptpSlave then
    bif same && st == ptpSlave then s else s.setPtpState p ptpUncalibrated
  else s.setPtpState p n

/-- INV_PARENT and the parent's TLVs (Table 3.27, R88). -/
def State.showParent (s : State) : State :=
  let e : Option (Nat × Foreign) := match s.inv.parent with
    | some x => ((s.ptpOf x.1).foreign.find? (fun f => f.src == x.2)).map (fun f => (x.1, f))
    | none => none
  let d := match e with
    | some x => (x.2.gm, x.2.steps + 1, x.2.clockClass, bif s.ptpState x.1 == ptpSlave then x.1 else 255, x.2.tlvs)
    | none => (s.clockId, 0, s.ownClass, 255, [])
  let t := (s.wr Reg.invParent0 (d.1 % 2 ^ 32)).wr Reg.invParent1 (d.1 / 2 ^ 32 % 2 ^ 32)
  let t := t.wr Reg.invParent2 (d.2.1 % 65536 + 2 ^ 16 * (d.2.2.1 % 256) + 2 ^ 24 * d.2.2.2.1)
  forUpTo 16 (fun i u => u.wr (Reg.invTlv (16 + i)) (leNat (natBytes ((d.2.2.2.2.drop (4 * i)).take 4)))) t

/-- The parent changes: its record and notice, and what the servo does about it (R73, R76, R103). -/
def State.newParent (s : State) (x : Option (Nat × Nat)) : State :=
  bif s.inv.parent == x then s.showParent
  else
    let had := s.inv.parent.isSome
    let t := (s.onInv (fun y => { y with parent := x })).showParent
    let a := t.fget F.invParent2SlavePort
    let g := [t.rd Reg.invParent0, t.rd Reg.invParent1, 0]
    let t := (t.brzEvent 0x83 96 a (g.getD 0 0) (g.getD 1 0)).notice 0x83 96 a g
    t.when (had && t.fget F.invCtlSrc == 1) (·.loseReference)

/-- One evaluation (R80): all new states take effect together. -/
def State.evaluate (s : State) : State :=
  let best := s.clockBest
  let ds := s.ptpPorts.map (fun p => (p, s.decidePort best p))
  let par := match ds.find? (fun d => d.2 == ptpSlave), best with
    | some _, some b => some (b.1, b.2.src)
    | _, _ => none
  let same := s.inv.parent == par
  (eachOf ds (fun d t => t.applyDecision same d.1 d.2) s).newParent par

/-- What a port held while it took part is gone. -/
def State.ptpForget (s : State) (p : Nat) : State :=
  let x := s.ptpOf p
  s.setPtp p { syncSeq := x.syncSeq, annSeq := x.annSeq, reqSeq := x.reqSeq }

/-- The port follows its MAC link, and an evaluation follows each change (R80). While its quadrant is isolated Invar
does not see the link, and the port keeps its state (R28): DESIGN CHOICE, log entry 141. -/
def State.ptpLink (s : State) (p : Nat) : State :=
  s.fromQuad (p / 36) fun s =>
  let st := s.ptpState p
  bif st == ptpDisabled then s
  else bif s.portUp p then (bif st == ptpFaulty then (s.setPtpState p ptpListening).evaluate else s)
  else bif st == ptpFaulty then s
  else ((s.setPtpState p ptpFaulty).ptpForget p).evaluate

end Sys2Proof.Machine
end

