-- ==== Sys2Proof/Machine/RingOps.lean ====
section
/-! DEFINITION. What the ring engines share: the kinds of rings, completing entries, moving the head
count, and stopping a ring (R206, R221, R237 to R239). -/

namespace Sys2Proof.Machine

/-- A transmit ring of a port (Table 8.1). -/
def isTxRing (r : Nat) : Bool := Nat.blt r 2304 && Nat.blt (r % 16) 8

/-- A receive ring of a port. -/
def isRxRing (r : Nat) : Bool := Nat.blt r 2304 && Nat.ble 8 (r % 16)

/-- A fabric command ring. -/
def isFabRing (r : Nat) : Bool := Nat.ble 2304 r && Nat.blt r 2312

/-- A cabinet-bus transmit ring. -/
def isCbTxRing (r : Nat) : Bool := Nat.ble 2312 r && Nat.blt r 2320 && r % 2 == 0

/-- A cabinet-bus receive ring. -/
def isCbRxRing (r : Nat) : Bool := Nat.ble 2312 r && Nat.blt r 2320 && r % 2 == 1

/-- A software-produced ring. -/
def isSoftRing (r : Nat) : Bool := Nat.blt r 2320

/-- The TYPE that a ring accepts beside SKIP (Table 8.1). -/
def ringType (r : Nat) : Nat :=
  bif isTxRing r then 1 else bif isRxRing r then 2 else bif isFabRing r then 3
  else bif isCbTxRing r then 4 else bif isCbRxRing r then 5 else 6

/-- The block id of the engine that serves a ring (Table 15.2). -/
def ringBlock (r : Nat) : Nat := bif Nat.blt r 2304 then 16 * (r / 576) + 5 else 70

/-- HDR_FIRST of the engine that serves a ring (R219). -/
def State.hdrFirst (s : State) (r : Nat) : Bool :=
  bif Nat.blt r 2304 then s.flag (F.ringQctlHdrFirst (r / 576)) else s.flag F.sringCtlHdrFirst

/-- A write to host memory for a ring. -/
def State.ringWrite (s : State) (r addr : Nat) (words : List Nat) : State :=
  bif s.slotShut r then s else s.hostBus (s.ringHost r) addr (ringMaster r) true (.hostWrite (s.ringHost r) addr words)

/-- A read of host memory for a ring. -/
def State.ringRead (s : State) (r addr bytes : Nat) : State :=
  bif s.slotShut r then s else s.hostBus (s.ringHost r) addr (ringMaster r) false (.hostRead (s.ringHost r) addr bytes)

/-- A notice about a ring goes to the Notice Ring of its owner (R234). -/
def State.ringNotice (s : State) (r code : Nat) (args : List Nat) : State :=
  s.noticeTo (s.ringHost r) code (ringBlock r) r args

/-- ACCEPTED and IDLE of RING_STS follow the accepted entries; IDLE of a stopping ring waits for
RING_IDLE (R237). -/
def State.ringShow (s : State) (r : Nat) : State :=
  let n := ((s.ring r).entries.filter (fun e => !e.done)).length
  (s.fput (F.ringStsAccepted r) n).when (n != 0 || s.flag (F.ringStsRun r))
    (·.fset (F.ringStsIdle r) (n == 0))

/-- The entries from the first one that has not completed. -/
def dropDone : List RingEntry → List RingEntry
  | [] => []
  | e :: r => bif e.done then dropDone r else e :: r

/-- The head count after the leading completed entries (R221). -/
def headOf (f : Nat) : List RingEntry → Nat
  | [] => f
  | e :: _ => e.pos

/-- A scan read from count F: the smaller of PREFETCH units and the units left before the ring end (R217). -/
def State.scanRead (s : State) (r : Nat) : State :=
  let f := s.rd (Reg.ringScan r)
  (s.setRing r { s.ring r with scanning := true, paused := false, due := false, part := [], rest := [] }).ringRead r (s.unitAddr r f)
    (16 * Nat.min (s.fget (F.ringCfgPrefetch r)) (s.ringSize r - f % s.ringSize r))

/-- The number of accepted, uncompleted entries has reached INFLIGHT (R217). -/
def State.scanFull (s : State) (r : Nat) : Bool := Nat.ble (s.fget (F.ringCfgInflight r)) (s.fget (F.ringStsAccepted r))

/-- A scan that INFLIGHT paused goes on once there is room (R217). -/
def State.scanResume (s : State) (r : Nat) : State :=
  s.when ((s.ring r).paused && s.flag (F.ringStsRun r) && !s.scanFull r) (·.scanRead r)

/-- Move H past the completed entries at the head (R221). -/
def State.ringAdvance (s : State) (r : Nat) : State :=
  let l := dropDone (s.ring r).entries
  ((s.setRing r { s.ring r with entries := l }).wr (Reg.ringHead r) (headOf (s.rd (Reg.ringScan r)) l)).ringShow r

/-- Mark entries completed. -/
def markDone (ps : List Nat) : List RingEntry → List RingEntry
  | [] => []
  | e :: r => (bif ps.any (· == e.pos) then { e with done := true } else e) :: markDone ps r

/-- The accepted entry at a count. -/
def State.entryAt (s : State) (r pos : Nat) : Option RingEntry :=
  (s.ring r).entries.find? (fun e => e.pos == pos && !e.done)

/-- Bytes of port `p`'s receive store are free again (R229). -/
def State.storeFree (s : State) (p n : Nat) : State :=
  { s with stores := Table.put 0 (Table.get 0 p s.stores - n) p s.stores }

/-- Entries complete together: ENTRIES counts each, H advances in ring order, one slot write follows
when it moved, and a scan paused by INFLIGHT may go on (R217, R221, R222). -/
def State.entriesDone (s : State) (r : Nat) (ps : List Nat) : State :=
  let live := ps.filter (fun p => (s.entryAt r p).isSome)
  let t := s.setRing r { s.ring r with entries := markDone live (s.ring r).entries }
  let t := eachOf live (fun _ u => u.ringCount r 0) t
  let u := t.ringAdvance r
  (u.when (u.rd (Reg.ringHead r) != s.rd (Reg.ringHead r)) (·.slotWrite r true)).scanResume r

/-- Writeback of words 1 to 3 of a TX entry (Table 8.5): STATUS, STATUS_B and the departure stamp. -/
def State.txWriteback (s : State) (r : Nat) (e : RingEntry) (st stB ns sec : Nat) : State :=
  s.ringWrite r (s.unitAddr r e.pos + 4)
    [e.words.getD 1 0 % 2 ^ 24 + 2 ^ 24 * st + 2 ^ 28 * stB, ns, sec]

/-- Complete a TX entry with a status (Table 8.6). -/
def State.txComplete (s : State) (r pos st stB ns sec : Nat) : State :=
  match s.entryAt r pos with
  | some e => (s.txWriteback r e st stB ns sec).entriesDone r [pos]
  | none => s

/-- The entries that carry the received frame of entry `e`. -/
def State.frameEntries (s : State) (r : Nat) (e : RingEntry) : List RingEntry :=
  (s.ring r).entries.filter (fun x => x.frame == e.frame && !x.done)

/-- The data of a received frame is written: unit 1 of each of its entries follows, they complete together, and the
store is free again (R229, R230). -/
def State.frameWritten (s : State) (r : Nat) (e : RingEntry) : State :=
  let es := s.frameEntries r e
  let t := eachOf es (fun x u => (u.ringWrite r (u.unitAddr r x.pos + 16) x.unit1).storeFree x.port x.store) s
  t.entriesDone r (es.map (·.pos))

/-- The work of the entry at a count has ended (R221). -/
def State.entryEnds (s : State) (r pos : Nat) : State :=
  match s.entryAt r pos with
  | some e => bif e.frame == 0 then s.entriesDone r [pos] else s.frameWritten r e
  | none => s

/-- Unit 1 of an RXBUF entry that completes unused (R237). -/
def unusedUnit : List Nat := [0, 0, 2 ^ 24, 0]

/-- STATUS_B of a TX entry whose frame has ended with status `st` before it became two copies (Table 8.5): that of the
copy on port 2k+1 where two would have been sent. -/
def State.statusB (s : State) (r st : Nat) : Nat := bif isTxRing r && s.sendsTwo (r / 16) then st else 0

/-- How an accepted entry ends when its ring is disabled (R237): a TX entry not fetched completes
FLUSHED, a CB_TX entry not sent completes FLUSHED, an unused receive buffer completes UNUSED. A FAB
entry ends with its commit. -/
def State.flushEntry (s : State) (r : Nat) (e : RingEntry) : State :=
  bif e.done || e.begun then s
  else bif isTxRing r || isCbTxRing r then (s.txWriteback r e 1 (s.statusB r 1) 0 0).entriesDone r [e.pos]
  else bif isRxRing r then (s.ringWrite r (s.unitAddr r e.pos + 16) unusedUnit).entriesDone r [e.pos]
  else bif isCbRxRing r then s.entriesDone r [e.pos]
  else s

/-- The scan ends, and an outstanding read is discarded on arrival (R237). -/
def endScan (x : Ring) : Ring :=
  { x with
    scanning := false, paused := false, due := false, part := [], rest := []
    discard := bif x.scanning then x.discard + 1 else x.discard }

/-- A ring whose EN clears (R237): the scan ends, outstanding data is discarded on arrival, entries
not begun are completed, RUN clears and the slot is written. On a ring that stops already, an enable that is held is
gone. -/
def State.ringStop (s : State) (r : Nat) : State :=
  bif !s.flag (F.ringStsRun r) then (s.fset (F.ringCtlEn r) false).setRing r { s.ring r with enHeld := false }
  else s.oneSlot fun s =>
    let x := s.ring r
    let t := (s.setRing r (endScan x)).fset (F.ringCtlEn r) false
    let t := t.fset (F.ringStsRun r) false
    let t := eachOf x.entries (fun e u => u.flushEntry r e) t
    (t.fset (F.ringStsIdle r) false).slotWrite r false

/-- A ring stopped with an error code: ERR sets, Bronze and the owner are told (R220, R226, R239). -/
def State.ringError (s : State) (r code : Nat) : State := s.oneSlot fun s =>
  let t := (s.fset (F.ringStsErr r) true).fput (F.ringStsErrCode r) code
  let t := t.ringStop r
  let c := bif Nat.blt r 2304 then quadCode (r / 576) + 0x0A else 0x232
  ((t.brzEvent c (ringBlock r) r code (t.rd (Reg.ringScan r))).ringNotice r c [code, t.rd (Reg.ringScan r), 0]).slotWrite r true

/-- A host frame whose entry is abandoned belongs to no ring: its end completes nothing. -/
def orphan (gone : Nat → Nat → Bool) (f : TxFrame) : TxFrame :=
  bif f.source == 0 && gone f.ring f.pos then { f with ring := 4096 } else f

/-- Orphan the frames in the MACs whose ring and count satisfy `gone`, and what their copies owe. -/
def State.orphanFrames (s : State) (gone : Nat → Nat → Bool) : State :=
  let prog := fun (x : TxProg) => { x with frame := orphan gone x.frame }
  { s with
    ports := s.ports.map (fun x => (x.1, { x.2 with
      coming := x.2.coming.map (orphan gone), queue := x.2.queue.map (orphan gone)
      tx := x.2.tx.map prog, held := x.2.held.map prog }))
    owed := s.owed.filter (fun x => !gone (x.1 / 2 ^ 32) (x.1 % 2 ^ 32)) }

/-- The count from which a failed write for the entry at `pos` abandons entries (R239): that entry, or the first one of
the received frame that it carries. -/
def State.abandonAt (s : State) (r pos : Nat) : Nat :=
  match s.entryAt r pos with
  | some e => bif e.frame == 0 then pos else e.frame - 1
  | none => pos

/-- The reads of an abandoned entry's fetch count as ended: their data is thrown away. DESIGN CHOICE, log entry 78. -/
def State.fetchDropped (s : State) (r : Nat) (e : RingEntry) : State :=
  s.when (isTxRing r && e.begun && !e.whole && !e.done) (·.transEnd (ringMaster r) false e.reads)

/-- Abandon the entries from a count on (R239): F returns to it and H does not pass it. -/
def State.abandonFrom (s : State) (r pos : Nat) : State :=
  let at' := s.abandonAt r pos
  let keep := (s.ring r).entries.takeWhile (fun e => e.pos != at')
  let t := s.orphanFrames (fun x y => x == r && !keep.any (fun e => e.pos == y))
  let t := eachOf ((s.ring r).entries.drop keep.length) (fun e u => (u.storeFree e.port e.store).fetchDropped r e) t
  (t.setRing r { s.ring r with entries := keep }).wr (Reg.ringScan r) at'

/-- A ring behind the isolation gate (R28, R239): it stops, no slot is written, and its entries stay
until the recovery. -/
def State.ringIsolate (s : State) (r : Nat) : State :=
  bif !s.flag (F.ringStsRun r) then s
  else
    let x := s.ring r
    ((s.setRing r { endScan x with isoHeld := true }).fset (F.ringCtlEn r) false).fset
      (F.ringStsRun r) false

/-- How an entry ends when its owner's link is lost (R238): a frame whose fetch was incomplete completes READ_ERR, a
received frame not wholly written counts in DIS_DROP and its entries complete unused, and the rest ends as at a
disable. -/
def State.loseEntry (s : State) (r : Nat) (e : RingEntry) : State :=
  bif e.done then s
  else bif isTxRing r && e.begun && !e.whole then
    (s.fetchDropped r e).txComplete r e.pos 7 (s.statusB r 7) 0 0
  else bif e.frame != 0 then
    ((s.when (e.frame == e.pos + 1) (·.ringCount r 5)).storeFree e.port e.store).entriesDone r [e.pos]
  else s.flushEntry r e

/-- A request held back of ring `r`: a read within the ring, or a write for it, of its owner's memory. -/
def State.ringRequest (s : State) (r : Nat) (x : Nat × Out) : Bool :=
  match x.2 with
  | .hostRead h a _ => x.1 == ringMaster r && h == s.ringHost r && Nat.ble (s.unitAddr r 0) a && Nat.blt a (s.unitAddr r 0 + 16 * s.ringSize r)
  | _ => false

/-- The scan read of ring `r` is still held back. -/
def State.scanParked (s : State) (r : Nat) : Bool := (s.ring r).scanning && s.parked.any (s.ringRequest r)

/-- A ring whose owner's link is lost (R238): it stops, an enable or interrupt that was held is gone with the writes
queued to the host, and nothing more is written until the host has rebuilt it. -/
def State.ringLinkLost (s : State) (r : Nat) : State :=
  let x := s.ring r
  let t := (s.fset (F.ringStsLinkLost r) true).setRing r { endScan x with lost := true, enHeld := false, irqHeld := false }
  let t := (t.fset (F.ringStsRun r) false).fset (F.ringCtlEn r) false
  let t := t.fset (F.ringStsIdle r) false
  eachOf x.entries (fun e u => u.loseEntry r e) t

/-- What is held back to the memory of host `h` (R238). -/
def toHostOf (h : Nat) (x : Nat × Out) : Bool :=
  match x.2 with
  | .hostRead k _ _ => k == h
  | .hostWrite k _ _ => k == h
  | .hostData k _ _ => k == h
  | _ => false

/-- What a reset of its engine's master does to a ring's reads (R403): the data of those outstanding is thrown away, and
they are issued anew. -/
def dropReads (x : Ring) : Ring :=
  { endScan x with
    due := x.due || x.scanning
    entries := x.entries.map (fun e => bif e.kind == 1 && e.begun && !e.whole then { e with begun := false, reads := 0 } else e) }

/-- A receive ring has too few entries for a frame (R229): STARVE_DROP counts, and STARVED with its notice and
the head slot follow its change. Table 16.3 gives a Spine ring's starve notice no code: it is free. -/
def State.ringStarve (s : State) (r : Nat) : State :=
  let t := s.ringCount r 3
  bif t.flag (F.ringStsStarved r) then t
  else
    let t := t.fset (F.ringStsStarved r) true
    let n := t.rd (Reg.ringCnt r 3)
    let c := quadCode (r / 576) + 0x0B
    (bif Nat.blt r 2304 then (t.brzEvent c (ringBlock r) r n 0).ringNotice r c [n, 0, 0]
      else (t.ringNotice r (t.freeVal 10) [n, 0, 0]).useFree).slotWrite r true

end Sys2Proof.Machine
end

