-- ==== Sys2Proof/Machine/MacOps.lean ====
section
/-! DEFINITION. What the MACs share: byte times, the completion of transmit copies, credit shapers, stops,
and the link state (chapter 4; R172 to R177, R183). -/

namespace Sys2Proof.Machine

/-- The record of port `p`. -/
def State.mac (s : State) (p : Nat) : MacPort := Table.get {} p s.ports

/-- Store the record of port `p`. -/
def State.setMac (s : State) (p : Nat) (x : MacPort) : State := { s with ports := Table.put {} x p s.ports }

/-- PHY code of port `p`. -/
def State.phy (s : State) (p : Nat) : Nat := s.fget (F.pcsCtlPhy p)

/-- Byte time of a PHY in 1/100 ns (Table 4.1); 0 for a port that is off. -/
def byteTime : Nat → Nat
  | 1 => 800
  | 2 => 320
  | 3 => 80
  | 4 => 32
  | _ => 0

/-- Line rate in Mb/s, eight bits in each byte time; 0 for a port that is off. -/
def lineRate : Nat → Nat
  | 1 => 1000
  | 2 => 2500
  | 3 => 10000
  | 4 => 25000
  | _ => 0

/-- The byte time of port `p`, 1/100 ns. -/
def State.bt (s : State) (p : Nat) : Nat := byteTime (s.phy p)

/-- Network time in 1/100 ns. -/
def State.now100 (s : State) : Nat := s.counter * 100 / nsUnit

/-- Time of the follower of port `p`'s quadrant in 1/100 ns (R22). -/
def State.folNow100 (s : State) (p : Nat) : Nat := s.folCounter (p / 36) * 100 / nsUnit

/-- The pause quantum in 1/100 ns: 512 bit times (Table 4.1). -/
def State.quantum (s : State) (p : Nat) : Nat := 64 * s.bt p

/-- The port is up for transmission (R109). -/
def State.txUp (s : State) (p : Nat) : Bool := s.portUp p && s.flag (F.macCtlEn p)

/-- BASE-R: 10GBASE-R or 25GBASE-R. -/
def State.baseR (s : State) (p : Nat) : Bool := Nat.ble 3 (s.phy p)

/-- Length of a frame with its FCS, padded to 64 (R115); an arriving copy counts as MAX_FRAME (R163). -/
def State.frameLen (s : State) (p : Nat) (f : TxFrame) : Nat :=
  bif f.arriving then s.fget (F.macMaxfMaxFrame p)
  else bif f.stomp then f.bytes.length + 4 else Nat.max 64 (f.bytes.length + 4)

/-- The counted length B (R163). -/
def State.countedLen (s : State) (p : Nat) (f : TxFrame) : Nat := s.frameLen p f + s.fget (F.gatePort0Ovh p)

/-- The class is pre-emptable at this port and the frame is not always express (R122, R84, R196). -/
def State.preemptable (s : State) (p : Nat) (f : TxFrame) : Bool :=
  bitAt (s.fget (F.macPeCtlPeCls p)) f.cls && (f.source == 0 || f.source == 2)

/-- Pre-emption is active (R122). -/
def State.peActive (s : State) (p : Nat) : Bool := s.flag (F.macPeStsActive p)

/-! ### Completion of transmit copies (R183, R221) -/

/-- Key of a transmit entry in `State.owed`. -/
def owedKey (r pos : Nat) : Nat := r * 2 ^ 32 + pos

/-- One copy of a host frame has left or been dropped with a status of Table 8.6; the entry completes with
its last copy. -/
def State.copyDone (s : State) (f : TxFrame) (st ts : Nat) : State :=
  bif f.source != 0 then s
  else
    let k := owedKey f.ring f.pos
    let o := Table.get {} k s.owed
    let o := bif f.copy == 0 then { o with stA := st + 1, ns := fsNs ts, sec := fsSec ts } else { o with stB := st + 1 }
    bif o.stA != 0 && (!o.pair || o.stB != 0) then
      ({ s with owed := Table.drop k s.owed }).txComplete f.ring f.pos (o.stA - 1) (o.stB - 1) o.ns o.sec
    else { s with owed := Table.put {} o k s.owed }

/-- A frame is dropped whole at port `p`: counter `n` of Table 4.8 counts it, and its copy ends. -/
def State.dropFrame (s : State) (p n st : Nat) (f : TxFrame) : State := (s.macCount p n 1).copyDone f st 0

/-! ### Credit shapers (R172 to R177) -/

/-- The keys of the shapers of port `p`. -/
def subKey (q fg : Nat) : Nat := 0x40000 * q + fg
def svcKey (p c : Nat) : Nat := 0x40000 * (p / 36) + 0x10000 + 8 * (p % 36) + c
def prtKey (p : Nat) : Nat := 0x40000 * (p / 36) + 0x20000 + p % 36

/-- Level and index of a key. -/
def keyLevel (k : Nat) : Nat := k / 0x10000 % 4
def keyIndex (k : Nat) : Nat := k % 0x10000

/-- The entry of a shaper (Table 6.15). -/
def shpEntry (k : Nat) : Nat :=
  quadBase (k / 0x40000) + (match keyLevel k with
    | 0 => 0x140000 + 0x10 * keyIndex k
    | 1 => 0x120000 + 0x100 * (keyIndex k / 8) + 0x10 * (keyIndex k % 8)
    | _ => 0x130000 + 0x10 * keyIndex k)

/-- The port that a shaper belongs to. -/
def State.shpPort (s : State) (k : Nat) : Nat :=
  36 * (k / 0x40000) + (match keyLevel k with
    | 0 => bitsOf (s.rd (shpEntry k + 12)) 0 6
    | 1 => keyIndex k / 8
    | _ => keyIndex k)

/-- The class of a subscriber or service shaper. -/
def State.shpClass (s : State) (k : Nat) : Nat :=
  bif keyLevel k == 0 then bitsOf (s.rd (shpEntry k + 12)) 8 3 else keyIndex k % 8

/-- The idle slope I in b/s. -/
def State.shpIdle (s : State) (k : Nat) : Nat := 8000 * bitsOf (s.rd (shpEntry k)) 0 24

/-- The shaper is enabled; an entry that reads with an uncorrectable error acts as disabled (R179). -/
def State.shpOn (s : State) (k : Nat) : Bool :=
  bitAt (s.rd (shpEntry k)) 24 && (List.range 4).all (fun j => s.readable (shpEntry k + 4 * j))

/-- The line rate R in b/s of the shaper's port. -/
def State.shpRate (s : State) (k : Nat) : Nat := 1000000 * lineRate (s.phy (s.shpPort k))

/-- Bits of a counted MAX_FRAME. -/
def State.shpMax (s : State) (k : Nat) : Nat :=
  8 * (s.fget (F.macMaxfMaxFrame (s.shpPort k)) + s.fget (F.gatePort0Ovh (s.shpPort k)))

/-- HI_CREDIT in 1/1024 bit (R175). -/
def State.shpHi (s : State) (k : Nat) : Int :=
  bif s.rd (shpEntry k + 4) == 0 then ((1024 * s.shpMax k * s.shpIdle k / s.shpRate k : Nat) : Int)
  else 1024 * signedOf (s.rd (shpEntry k + 4)) 32

/-- `n` times (I - R) / R, towards zero: what R173 and R175 take of a count. -/
def State.shpFall (s : State) (k n : Nat) : Int :=
  (n * (s.shpIdle k - s.shpRate k) / s.shpRate k : Nat) - (n * (s.shpRate k - s.shpIdle k) / s.shpRate k : Nat)

/-- LO_CREDIT in 1/1024 bit (R175). -/
def State.shpLo (s : State) (k : Nat) : Int :=
  bif s.rd (shpEntry k + 8) == 0 then s.shpFall k (1024 * s.shpMax k) else 1024 * signedOf (s.rd (shpEntry k + 8)) 32

/-- The shaper's record. -/
def State.shp (s : State) (k : Nat) : Shaper := Table.get {} k s.shapers

/-- Store the shaper's record. -/
def State.setShp (s : State) (k : Nat) (x : Shaper) : State := { s with shapers := Table.put {} x k s.shapers }

/-- 1/1024 bits that pass in `d` counter units at `rate` b/s. -/
def creditOf (rate d : Nat) : Nat := rate * 1024 * d / (1000000000 * nsUnit)

/-- A credit that changes by `d` while a frame is sent (R173): it falls down to LO_CREDIT, and one that lies below stays;
with I above R it rises. -/
def State.fallTo (s : State) (k : Nat) (c d : Int) : Int :=
  bif decide (0 ≤ d) then c + d else bif decide (c ≤ s.shpLo k) then c else max (s.shpLo k) (c + d)

/-- The credit now (R173). -/
def State.creditNow (s : State) (k : Nat) : Int :=
  let x := s.shp k
  let d := s.counter - x.at'
  let up : Int := (creditOf (s.shpIdle k) d : Int)
  match x.mode with
  | 1 => min (s.shpHi k) (x.credit + up)
  | 2 => min 0 (x.credit + up)
  | 4 => s.fallTo k x.credit (up - (creditOf (s.shpRate k) d : Int))
  | _ => x.credit

/-- The shaper is eligible (R173, R175). -/
def State.shpEligible (s : State) (k : Nat) : Bool :=
  !s.shpOn k || Nat.ble (s.shpRate k) (s.shpIdle k) || decide (0 ≤ s.creditNow k)

/-- The flow group's parent matches the port and class of the host frame (R172). -/
def State.parentFits (s : State) (p : Nat) (f : TxFrame) : Bool :=
  let k := subKey (p / 36) f.fg
  s.shpPort k == p && s.shpClass k == f.cls

/-- The shapers on the path of a frame (R172). -/
def State.shpPath (s : State) (p : Nat) (f : TxFrame) : List Nat :=
  [svcKey p f.cls, prtKey p] ++ (bif f.source == 0 && s.parentFits p f then [subKey (p / 36) f.fg] else [])

/-- The frame is eligible (R173). -/
def State.eligible (s : State) (p : Nat) (f : TxFrame) : Bool := (s.shpPath p f).all s.shpEligible

/-- A class is frozen (R174): gate or guard closed, stopped, or hold over a pre-emptable class. -/
def State.frozenClass (s : State) (p c : Nat) : Bool :=
  !bitAt (s.fget (F.gatePort5Gates p)) c || bitAt (s.fget (F.macPauseStsStopped p)) c
  || (s.flag (F.gatePort5Hold p) && s.peActive p && bitAt (s.fget (F.macPeCtlPeCls p)) c)

/-- Every enabled shaper that may hold credit at port `p`. -/
def State.shpKeys (s : State) (p : Nat) : List Nat :=
  let fgs := ((s.mac p).queue ++ ((s.mac p).tx.map (·.frame)).toList).filterMap
    (fun f => bif f.source == 0 && s.parentFits p f then some (subKey (p / 36) f.fg) else none)
  let old := (s.shapers.map (·.1)).filter (fun k => keyLevel k == 0 && s.shpPort k == p && k / 0x40000 == p / 36)
  [prtKey p] ++ (List.range 8).map (svcKey p) ++ old ++ fgs.filter (fun k => !old.any (· == k))

/-- What a shaper does from now on (R173, R174), with its credit brought up to date. -/
def State.shpSettle (s : State) (p k : Nat) : State :=
  bif !s.shpOn k then { s with shapers := Table.drop k s.shapers }
  else
    let x := s.mac p
    let on := fun f => (s.shpPath p f).any (· == k)
    let c := s.creditNow k
    let mine := x.queue.filter on
    let sends := match x.tx with
      | some t => on t.frame
      | none => false
    let frozen := bif keyLevel k == 2 then !mine.isEmpty && mine.all (fun f => s.frozenClass p f.cls) else s.frozenClass p (s.shpClass k)
    bif frozen && !(sends && keyLevel k == 2) then s.setShp k { credit := c, at' := 0, mode := 3 }
    else bif sends then (bif (s.shp k).mode == 4 then s else s.setShp k { credit := c, at' := s.counter, mode := 4 })
    else bif !mine.isEmpty then s.setShp k { credit := c, at' := s.counter, mode := 1 }
    else bif decide (c < 0) then s.setShp k { credit := c, at' := s.counter, mode := 2 }
    else { s with shapers := Table.drop k s.shapers }

/-- Bring every shaper of port `p` up to date. -/
def State.settle (s : State) (p : Nat) : State := eachOf (s.shpKeys p) (fun k t => t.shpSettle p k) s

/-- The net change of a fragment of counted length `b` that started at `start` (R173): of all of it, or of what was left
of it when the shaper's credit was last brought up to date. -/
def State.chargeOne (s : State) (b start k : Nat) : State :=
  bif !s.shpOn k || s.shpRate k == 0 || (s.shp k).mode != 4 then s
  else
    let gone := creditOf (s.shpRate k) ((s.shp k).at' - start)
    s.setShp k { credit := s.fallTo k (s.shp k).credit (s.shpFall k (8 * 1024 * b - gone)), at' := s.counter, mode := 0 }

/-- A frame or fragment of port `p` that started at `start` has left the line. -/
def State.charge (s : State) (p b start : Nat) (f : TxFrame) : State :=
  eachOf (s.shpPath p f) (fun k t => t.chargeOne b start k) s

/-- R177: the credits of a port's shapers are set to 0, from which the waiting ones rise. -/
def State.zeroCredits (s : State) (p : Nat) : State :=
  ({ s with shapers := s.shapers.filter (fun x => !(s.shpPort x.1 == p && x.1 / 0x40000 == p / 36)) }).settle p

/-! ### Stops (R119, R120) -/

/-- Classes that control frames can stop; `listed` holds the classes that the active list controls. -/
def State.pausable (s : State) (p listed : Nat) : Nat :=
  bif s.flag (F.macFcImmuneSched p) then s.fget (F.macFcPauseCls p) &&& (0xFF ^^^ (listed % 256)) else s.fget (F.macFcPauseCls p)

/-- Classes that the running PFC timers name. -/
def State.pfcClasses (s : State) (p : Nat) : Nat :=
  (List.range 8).foldl (fun m i =>
    bif Table.get 0 i (s.mac p).timers == 0 then m else m ||| 2 ^ bitsOf (s.fget (F.macPfcMapCls p)) (3 * i) 3) 0

/-- The classes stopped now (R119). -/
def State.stoppedNow (s : State) (p listed : Nat) : Nat :=
  let m := s.fget (F.macFcMode p)
  let by' := bif m == 1 && Table.get 0 8 (s.mac p).timers != 0 then 0xFF else bif m == 2 then s.pfcClasses p else 0
  by' &&& s.pausable p listed

/-- Quanta left of the longest timer, rounded up (Table 4.15). -/
def State.quantaLeft (s : State) (p : Nat) : Nat :=
  bif s.quantum p == 0 then 0
  else (s.mac p).timers.foldl (fun m x => Nat.max m ((x.2 - s.now100 + s.quantum p - 1) / s.quantum p)) 0

/-! ### Verification and link state (R108 to R111, R125) -/

/-- ACTIVE by R122. -/
def State.showActive (s : State) (p : Nat) : State :=
  s.fset (F.macPeStsActive p) (s.flag (F.macPeCtlPeEn p) && s.portUp p
    && (s.flag (F.macPeCtlVerifyDis p) || s.fget (F.macPeStsVstate p) == 3))

/-- Enter a verify state: a change sets MAC_EVT.VERIFY_CHG. -/
def State.setVerify (s : State) (p v : Nat) : State :=
  let t := (s.fput (F.macPeStsVstate p) v).showActive p
  t.when (s.fget (F.macPeStsVstate p) != v) (·.macEvent p 5)

/-- Verification starts again from INIT, or is DISABLED (R125). -/
def State.restartVerify (s : State) (p : Nat) : State :=
  let on := s.flag (F.macPeCtlPeEn p) && !s.flag (F.macPeCtlVerifyDis p)
  let t := (s.fput (F.macPeStsTries p) 0).setMac p { s.mac p with verifyDue := on && s.portUp p }
  t.setVerify p (bit on)

/-- Bytes of the frame whose transmission has started: 8 byte times of preamble, then the data. -/
def State.startedBytes (s : State) (p : Nat) (x : TxProg) : Nat :=
  let d := (s.counter - x.startAt) * 100 / nsUnit
  bif s.bt p == 0 then 0 else x.sent + (d - 8 * s.bt p + s.bt p - 1) / s.bt p

/-- What had begun to leave of the frame on the line of port `p` ends at once with an invalid code group, or with an /E/
block at BASE-R (R110). -/
def State.emitCut (s : State) (p : Nat) (x : TxProg) : State :=
  s.emit (.cut p ((x.frame.bytes.drop x.sent).take (s.startedBytes p x - x.sent)) (s.baseR p))

/-- A frame on the line is ended at once, and a pre-empted one loses its rest (R110). -/
def State.cutTx (s : State) (p : Nat) : State :=
  let x := s.mac p
  let t := s.setMac p { x with tx := none, held := none }
  let t := match x.tx with
    | some y => (t.emitCut p y).dropFrame p 46 2 y.frame
    | none => t
  match x.held with
  | some y => t.dropFrame p 46 2 y.frame
  | none => t

/-- The SerDes bank domain of a port (Table 17.1). -/
def bankDom (p : Nat) : Nat := qDom (p / 36) (1 + p % 36 / 6)

/-- What the line of port `p` carries between frames (R109): electrical idle while its PHY is off or its SerDes bank is
not READY (Table 17.4). A BASE-R port out of UP that is locked and receives no Remote Fault sends Idle: DESIGN CHOICE, log
entry 140. -/
def State.lineNow (s : State) (p : Nat) : Nat :=
  bif s.phy p == 0 || !s.ready (bankDom p) then 0 else bif s.txUp p then 3
  else bif s.baseR p && !s.flag (F.pcsStsLock p) && !s.flag (F.pcsStsRfRx p) then 2 else 1

/-- The line follows the link state, the lock and MAC_CTL.EN (R109). -/
def State.showLine (s : State) (p : Nat) : State :=
  let n := s.lineNow p
  let t := s.setMac p { s.mac p with line := n }
  t.when (n != (s.mac p).line && (n == 1 || n == 2)) (·.emit (.lineIdle p (n - 1)))

/-- The link falls (R110): LINK_DOWN counts, the event sets, frames in progress end, shaper credits are 0, and PTP follows
(R80). -/
def State.fallDown (s : State) (p : Nat) : State :=
  let x := s.mac p
  let t := s.setMac p { x with
    relock := false, relocked := false, verifyDue := false, respondDue := 0
    rx := x.rx.map (fun r => { r with cut := true })
    rxPre := x.rxPre.map (fun r => { r with cut := true }) }
  let t := ((t.fput (F.pcsStsState p) 0).macCount p 56 1).macEvent p 1
  let t := (t.cutTx p).zeroCredits p
  (t.restartVerify p).ptpLink p

/-- Leave UP (R110): the line shows it. -/
def State.leaveUp (s : State) (p : Nat) : State := (s.fallDown p).showLine p

/-- Go to DOWN from any state. -/
def State.toDown (s : State) (p : Nat) : State := bif s.portUp p then s.leaveUp p else s.fput (F.pcsStsState p) 0

/-- Enter UP (R108, R125). -/
def State.enterUpPort (s : State) (p : Nat) : State :=
  ((((s.fput (F.pcsStsState p) 3).macEvent p 0).restartVerify p).showLine p).ptpLink p

/-- The guard of port `p` ends (R111): a relock under way is judged. -/
def State.endRelock (s : State) (p : Nat) : State :=
  let x := s.mac p
  bif !x.relock then s
  else bif x.relocked then (s.setMac p { x with relock := false, relocked := false }).macCount p 57 1
  else (s.leaveUp p).macEvent p 4

end Sys2Proof.Machine
end

