-- ==== Sys2Proof/Machine/ListOps.lean ====
section
/-! DEFINITION. The Schedule Book's bank images: header, entries, validation, what the active list prescribes
for a port, and the closes ahead (R147 to R163). -/

namespace Sys2Proof.Machine

/-! ### Bank images (R147) -/

/-- BAR0 offset of a bank. -/
def bankBase (b : Nat) : Nat := 0x400000 + 0x200000 * b

/-- Header words. -/
def State.bankWord (s : State) (b o : Nat) : Nat := s.rd (bankBase b + o)

/-- COUNT, CYCLE and the INIT word of a group. -/
def State.bankCount (s : State) (b : Nat) : Nat := s.bankWord b 4
def State.bankCycle (s : State) (b : Nat) : Nat := s.bankWord b 8
def State.initWord (s : State) (b g : Nat) : Nat := s.bankWord b (0x40 + 4 * g)

/-- A schedule entry (Table 6.2). -/
structure SchedEntry where
  offset : Nat
  w1 : Nat
  arg : Nat
  w3 : Nat
  deriving DecidableEq, Repr

/-- TYPE, GRP, TGT, GATES and OP of an entry. -/
def SchedEntry.type (e : SchedEntry) : Nat := bitsOf e.w1 0 4
def SchedEntry.grp (e : SchedEntry) : Bool := bitAt e.w1 4
def SchedEntry.tgt (e : SchedEntry) : Nat := bitsOf e.w1 8 8
def SchedEntry.gates (e : SchedEntry) : Nat := bitsOf e.w1 16 8
def SchedEntry.op (e : SchedEntry) : Nat := bitsOf e.w1 24 2

/-- Entry `j` of a bank. -/
def State.entry (s : State) (b j : Nat) : SchedEntry :=
  let a := bankBase b + 0x100 + 16 * j
  { offset := s.rd a, w1 := s.rd (a + 4), arg := s.rd (a + 8), w3 := s.rd (a + 12) }

/-- The entries of a bank in list order. -/
def State.entries (s : State) (b : Nat) : List SchedEntry := (List.range (s.bankCount b)).map (s.entry b)

/-! ### Validation (R150, Table 6.3) -/

/-- CRC-32C over the header with the CRC word taken as 0, and the entries. -/
def State.bankCrc (s : State) (b : Nat) : Nat :=
  let a := bankBase b
  crc32c (bytesOfWords (s.words a 3 ++ [0] ++ s.words (a + 16) 60 ++ s.words (a + 0x100) (4 * s.bankCount b)))

/-- Check 5: every reserved field is 0. -/
def entryReserved (e : SchedEntry) : Bool :=
  e.w3 == 0 && bitsOf e.w1 5 3 == 0 && bitsOf e.w1 26 6 == 0 &&
  (match e.type with
    | 0 => e.w1 == 0 && e.arg == 0
    | 1 => e.arg == 0
    | 2 => bitsOf e.w1 4 1 == 0 && bitsOf e.w1 16 10 == 0
    | _ => true)

/-- The reserved fields of the header are 0. -/
def State.headReserved (s : State) (b : Nat) : Bool :=
  bitsOf (s.bankWord b 0) 16 16 == 0
  && (List.range 12).all (fun i => s.bankWord b (0x10 + 4 * i) == 0)
  && (List.range 16).all (fun g => bitsOf (s.initWord b g) 9 23 == 0)
  && (List.range 32).all (fun i => s.bankWord b (0x80 + 4 * i) == 0)

/-- Check 6: TYPE and OP are valid. -/
def entryValid (e : SchedEntry) : Bool := Nat.ble e.type 2 && !(e.type == 1 && e.op == 3)

/-- Check 7: TGT is in range. -/
def entryTarget (e : SchedEntry) : Bool := e.type != 1 || (bif e.grp then Nat.ble e.tgt 15 else Nat.ble e.tgt 143)

/-- Check 8: offsets lie below the cycle and do not decrease. -/
def rising (cycle : Nat) : Nat → List SchedEntry → Bool
  | _, [] => true
  | last, e :: r => Nat.ble last e.offset && Nat.blt e.offset cycle && rising cycle e.offset r

/-- A GATE entry acts on port `p`, whose group is `g`. -/
def actsOn (p g : Nat) (e : SchedEntry) : Bool := e.type == 1 && e.tgt == (bif e.grp then g else p)

/-- Distinct instants lie at least `gap` apart, and the last one that far before `stop`. -/
def spaced (gap stop : Nat) : Nat → List Nat → Bool
  | last, [] => Nat.ble (last + gap) stop
  | last, t :: r => (t == last || Nat.ble (last + gap) t) && spaced gap stop t r

/-- Check 9 for one port. -/
def portSpaced (p g cycle : Nat) (l : List SchedEntry) : Bool := spaced 250 cycle 0 ((l.filter (actsOn p g)).map (·.offset))

/-- Check 10: COMMIT instants at least 2 000 ns apart, across the wrap. -/
def commitsSpaced (cycle : Nat) (l : List SchedEntry) : Bool :=
  match (l.filter (fun e => e.type == 2)).map (·.offset) with
  | [] => true
  | t :: r => (r.foldl (fun (a : Bool × Nat) u => (a.1 && Nat.ble (a.2 + 2000) u, u)) (true, t)).1
      && Nat.ble (r.foldl (fun _ u => u) t + 2000) (t + cycle)

/-- G_PRE in 1/100 ns, with its automatic value (R167). -/
def State.gPre (s : State) (p : Nat) : Nat :=
  bif s.fget (F.gatePort2GPre p) == 0 then (s.fget (F.macMaxfMaxFrame p) + s.fget (F.gatePort0Ovh p)) * s.bt p
  else 100 * s.fget (F.gatePort2GPre p)

/-- HOLD_ADV in ns, with its automatic value (R160). -/
def State.holdAdv (s : State) (p : Nat) : Nat :=
  bif s.fget (F.gatePort0HoldAdv p) == 0 then ((64 * (1 + s.fget (F.macPeCtlAddFrag p)) + 79) * s.bt p + 99) / 100
  else s.fget (F.gatePort0HoldAdv p)

/-- Checks 11 and 12 for a port whose PHY is not 0. -/
def State.portFits (s : State) (p : Nat) : Bool :=
  s.phy p == 0 || Nat.ble (s.gPre p + 100 * s.fget (F.gatePort4PropTx p) + 320000) (100000 * s.fget F.scbCtlRunahead)
def State.holdFits (s : State) (p : Nat) : Bool := s.phy p == 0 || Nat.ble (s.holdAdv p) 2000

/-- The code of the first failed check, 0 for a valid bank (R150). -/
def State.validate (s : State) (b : Nat) : Nat :=
  let l := s.entries b
  let c := s.bankCycle b
  bif Nat.blt (s.bankCount b) 1 || Nat.blt 131056 (s.bankCount b) then 3
  else bif s.bankCrc b != s.bankWord b 12 then 1
  else bif bitsOf (s.bankWord b 0) 0 16 != 1 then 2
  else bif Nat.blt c 10000 || Nat.blt 1000000000 c then 4
  else bif !(s.headReserved b && l.all entryReserved) then 5
  else bif !l.all entryValid then 6
  else bif !l.all entryTarget then 7
  else bif !rising c 0 l then 8
  else bif !(List.range 144).all (fun p => portSpaced p (s.fget (F.gatePort0Group p)) c l) then 9
  else bif !commitsSpaced c l then 10
  else bif !(List.range 144).all s.portFits then 11
  else bif !(List.range 144).all s.holdFits then 12 else 0

/-! ### What a list prescribes (R148, R153, R155, R156, R160) -/

/-- Gates and hold of a port. -/
structure ListState where
  gates : Nat := 0xFF
  hold : Bool := false
  deriving DecidableEq, Repr

/-- One GATE action of a port: offset, gates, OP. -/
structure Action where
  at' : Nat := 0
  gates : Nat := 0
  op : Nat := 0
  deriving DecidableEq, Repr

/-- The actions of a port among list entries, behind the INIT word of its group (R148). -/
def State.actionsOf (s : State) (b p g : Nat) (l : List SchedEntry) : List Action :=
  { at' := 0, gates := bitsOf (s.initWord b g) 0 8, op := bif bitAt (s.initWord b g) 8 then 1 else 2 }
  :: (l.filter (actsOn p g)).map (fun e => { at' := e.offset, gates := e.gates, op := e.op })

/-- The address of entry `j` of a bank. -/
def entryAddr (b j : Nat) : Nat := bankBase b + 0x100 + 16 * j

/-- Entry `j` of a bank cannot be read: `bad` names it, or its check bits were inverted (R179, R428). -/
def State.entryBad (s : State) (b : Nat) (bad : List Nat) (j : Nat) : Bool :=
  bad.any (· == j) || !s.wordsReadable (entryAddr b j) 4

/-- The entries of a bank but those that cannot be read (R179). -/
def State.entriesBut (s : State) (b : Nat) (bad : List Nat) : List SchedEntry :=
  ((List.range (s.bankCount b)).filter (fun j => !s.entryBad b bad j)).map (s.entry b)

/-- The actions of a port in one cycle; an entry that cannot be read is skipped (R179). -/
def State.actions (s : State) (b p g : Nat) : List Action := s.actionsOf b p g (s.entriesBut b [])

/-- The entries of a bank are read: each one that cannot be read is skipped and counted (R179). -/
def State.entriesRead (s : State) (b : Nat) (bad : List Nat) : State :=
  eachOf (List.range (s.bankCount b)) (fun j t =>
    (t.touch (entryAddr b j) 4).when (t.entryBad b bad j) (fun u => (u.scbCount 4).scbEvent 4)) s

/-- A commit entry of a bank reads without an uncorrectable error. -/
def State.commitReadable (s : State) (b : Nat) (e : SchedEntry) : Bool :=
  !(List.range (s.bankCount b)).any (fun j => s.entry b j == e && s.entryBad b [] j)

/-- A commit entry of a bank is read. -/
def State.commitRead (s : State) (b : Nat) (e : SchedEntry) : State :=
  eachOf ((List.range (s.bankCount b)).filter (fun j => s.entry b j == e)) (fun j t => t.touch (entryAddr b j) 4) s

/-- An action applied to a list state (R155, R160). -/
def applyAction (x : ListState) (a : Action) : ListState :=
  { gates := a.gates, hold := bif a.op == 1 then true else bif a.op == 2 then false else x.hold }

/-- The state after every action up to an offset. -/
def stateAt (l : List Action) (o : Nat) : ListState :=
  (l.filter (fun a => Nat.ble a.at' o)).foldl applyAction {}

/-- A list is active and enabled. -/
def State.listRuns (s : State) : Bool := s.flag F.scbStsRunning && s.flag F.scbCtlEn

/-- The list acts on port `p`: GATE_CTL.EN opens every list gate otherwise. -/
def State.listActs (s : State) (p : Nat) : Bool := s.listRuns && s.flag (F.gateCtlEn (p / 36))

/-- The cycle length and actions of the active list for port `p`. -/
def State.cycle (s : State) : Nat := s.rd Reg.scbActCycle
def State.activeActions (s : State) (p : Nat) : List Action := s.actions (s.fget F.scbStsActBank) p (Table.get 0 p s.scb.group)

/-- Offset in the cycle of an instant. -/
def State.offsetOf (s : State) (t : Nat) : Nat := (t - s.scb.start) % s.cycle

/-- A hold raise is in force at offset `o`: a HOLD action ahead within HOLD_ADV, with no release since the raise,
which may lie in the cycle before. -/
def raisedAhead (l : List Action) (cycle adv o : Nat) : Bool :=
  l.any (fun a => a.op == 1 &&
    (let t := bif Nat.blt o a.at' then a.at' else a.at' + cycle
     Nat.ble t (o + adv) && !l.any (fun r => r.op == 2
      && ((Nat.ble r.at' o && Nat.blt t (r.at' + adv)) || (Nat.blt o r.at' && Nat.blt (t + cycle) (r.at' + adv))))))

/-- The gate and hold state that the active list prescribes for port `p` at instant `t` (R156, R158). -/
def State.prescribed (s : State) (p t : Nat) : ListState :=
  bif !s.listActs p || Nat.blt t s.scb.start then {}
  else
    let l := s.activeActions p
    let o := s.offsetOf t
    let x := stateAt l o
    { x with hold := x.hold || raisedAhead l s.cycle (s.holdAdv p) o }

/-- Classes that the active list or its INIT words close at any instant of the cycle (R159). -/
def State.listedClasses (s : State) (p : Nat) : Nat :=
  bif s.listActs p then (s.activeActions p).foldl (fun m a => m ||| (0xFF ^^^ a.gates)) 0 else 0

/-! ### Closes ahead (R163, R164) -/

/-- The actions of the cycle from an offset on, twice round, at absolute instants after `t`. -/
def ahead (l : List Action) (start cycle t : Nat) : List Action :=
  let n := (t - start) / cycle
  (((List.range 3).flatMap (fun k => l.map (fun a => { a with at' := start + (n + k) * cycle + a.at' }))).filter
    (fun a => Nat.blt t a.at'))

/-- The actions ahead of port `p`, cut at a pending switch, after which the new list acts (R152). -/
def State.aheadOf (s : State) (p t : Nat) : List Action :=
  let old := bif s.listActs p && Nat.ble s.scb.start t && s.cycle != 0 then ahead (s.activeActions p) s.scb.start s.cycle t else []
  bif s.flag F.scbStsPend && s.flag F.scbCtlEn && s.flag (F.gateCtlEn (p / 36)) then
    let n := s.scb.next
    old.filter (fun a => Nat.blt a.at' n)
      ++ (s.actions s.scb.bank p (s.fget (F.gatePort0Group p))).map (fun a => { a with at' := n + a.at' })
  else old

/-- One instant of a port: all its actions applied in list order; gates, hold, whether a HOLD is among them, and whether
the last one that changes hold is a RELEASE. -/
structure Instant where
  at' : Nat := 0
  st : ListState := {}
  raise : Bool := false
  drop : Bool := false
  deriving DecidableEq, Repr

/-- Group actions by instant, threading the list state. -/
def instants (x : ListState) : List Action → List Instant
  | [] => []
  | a :: r =>
    let y := applyAction x a
    match instants y r with
    | i :: m => bif i.at' == a.at' then { i with raise := i.raise || a.op == 1, drop := i.drop || (!i.raise && a.op == 2) } :: m
      else { at' := a.at', st := y, raise := a.op == 1, drop := a.op == 2 } :: i :: m
    | [] => [{ at' := a.at', st := y, raise := a.op == 1, drop := a.op == 2 }]

/-- Hold has been raised before the instant `i`, for a HOLD that comes later, and no instant from the raise on, `i`
included, releases it (R160, R163); the raise is `adv` ahead of its HOLD. -/
def heldAhead (adv : Nat) (l : List Instant) (i : Instant) : Bool :=
  l.any (fun j => j.raise && Nat.blt i.at' j.at' && Nat.blt j.at' (i.at' + adv)
    && !l.any (fun r => r.drop && Nat.ble r.at' i.at' && Nat.blt j.at' (r.at' + adv)))

/-- The first instant ahead at which the list closes class `c`, with the hold state once its entries have applied, and the
first hold raise before or at it. -/
def State.listClose (s : State) (p c t : Nat) : Option (Instant × Option Nat) :=
  let l := instants { gates := s.fget (F.gatePort5ListGates p), hold := s.flag (F.gatePort5Hold p) } (s.aheadOf p t)
  let adv := s.holdAdv p
  (l.find? (fun i => !bitAt i.st.gates c)).map (fun i =>
    ({ i with st := { i.st with hold := i.st.hold || heldAhead adv l i } },
      ((l.find? (fun j => j.raise && Nat.ble j.at' (i.at' + adv))).map (fun j => j.at' - adv))))

/-- The next guard close of port `p` after `t` (R167, R168). -/
def State.guardClose (s : State) (p t : Nat) : Option Nat :=
  (s.scb.guards.filter (fun g => g.port == p && Nat.blt g.phase 2 && Nat.blt t g.close)).foldl
    (fun m g => match m with
      | none => some g.close
      | some n => some (Nat.min n g.close)) none

/-- The longest open interval of class `c` at port `p` in the active list, ns; none when it never closes
(R164). -/
def State.longestOpen (s : State) (p c : Nat) : Option Nat :=
  bif !s.listActs p then none
  else
    let l := instants {} (s.activeActions p)
    let shut := l.filter (fun i => !bitAt i.st.gates c)
    match shut with
    | [] => none
    | _ =>
      -- twice round the cycle: the largest run from an opening instant to the next close
      let two := l ++ l.map (fun i => { i with at' := i.at' + s.cycle })
      some ((two.foldl (fun (a : Nat × Option Nat) i =>
        bif bitAt i.st.gates c then (a.1, match a.2 with | none => some i.at' | some o => some o)
        else match a.2 with
          | some o => (Nat.max a.1 (i.at' - o), none)
          | none => a) (0, none)).1)

/-- The length check of R163 for counted length `b` of a frame of class `c`; `pre` for a pre-emptable frame
while ACTIVE = 1, of frame length `len`. -/
def State.lengthCheck (s : State) (p c b len : Nat) (pre : Bool) : Bool :=
  let t := s.folNow (p / 36)
  let stop := s.folNow100 p + b * s.bt p
  let whole := fun (u : Nat) => Nat.ble stop (100 * u)
  let g := (s.guardClose p t).all whole
  let guardNext := fun (u : Nat) => (s.guardClose p t).any (fun v => Nat.ble v u)
  match s.listClose p c t with
  | none => g
  | some (i, raise) =>
    bif pre && i.st.hold && !guardNext i.at' then
      match raise with
      | none => true
      | some r =>
        let m := 64 * (1 + s.fget (F.macPeCtlAddFrag p))
        bif Nat.blt len (m + 60) then whole r
        else Nat.ble (s.folNow100 p + (m + s.fget (F.gatePort0Ovh p)) * s.bt p) (100 * r)
    else g && whole i.at'

end Sys2Proof.Machine
end

