-- ==== Sys2Proof/Machine/FrameOps.lean ====
section
/-! DEFINITION. Frames: tags and trailers, PTP message fields, and the way of a frame into its class queue
(R115, R129, R162, R182 to R187). -/

namespace Sys2Proof.Machine

/-! ### Headers (R129) -/

/-- The number of VLAN tags, at most two; `tpid2` counts in the outer position only. -/
def vlanTags (tpid2 : Nat) (l : List Byte) : Nat :=
  bif be16 l 12 == 0x8100 || be16 l 12 == tpid2 then (bif be16 l 16 == 0x8100 then 2 else 1) else 0

/-- Offset of the EtherType that follows the VLAN tags. -/
def typeOff (tpid2 : Nat) (l : List Byte) : Nat := 12 + 4 * vlanTags tpid2 l

/-- The frame carries an HSR tag after its VLAN tags. -/
def hasHsr (tpid2 : Nat) (l : List Byte) : Bool := be16 l (typeOff tpid2 l) == 0x892F

/-- Offset of the EtherType after every tag that the classifier reads. -/
def etherOff (tpid2 : Nat) (l : List Byte) : Nat := bif hasHsr tpid2 l then typeOff tpid2 l + 6 else typeOff tpid2 l

/-- The EtherType. -/
def etherType (tpid2 : Nat) (l : List Byte) : Nat := be16 l (etherOff tpid2 l)

/-- TPID2 of the quadrant of port `p`. -/
def State.tpid2 (s : State) (p : Nat) : Nat := s.fget (F.clsCtlTpid2 (p / 36))

/-- A 16-bit number in network order. -/
def net16 (n : Nat) : List Byte := mkBytes (beBytes 2 n)

/-- Bytes of a frame with `n` bytes from offset `o` on replaced. -/
def replaceAt (o : Nat) (new l : List Byte) : List Byte := l.take o ++ new ++ l.drop (o + new.length)

/-- Bytes of a frame without `n` bytes from offset `o` on. -/
def removeAt (o n : Nat) (l : List Byte) : List Byte := l.take o ++ l.drop (o + n)

/-! ### Tags and trailers (R185 to R187) -/

/-- LSDU_size of a frame of length `len` with `v` VLAN tags. -/
def lsduSize (len v : Nat) : Nat := len - 18 - 4 * v

/-- An HSR tag inserted after the VLAN tags (R186); `b` is 0 on port 2k, 1 on port 2k+1. -/
def addHsr (tpid2 netid b seq : Nat) (l : List Byte) : List Byte :=
  let v := vlanTags tpid2 l
  let size := lsduSize (Nat.max 64 (l.length + 10)) v
  l.take (12 + 4 * v) ++ net16 0x892F ++ net16 ((2 * netid + b) * 4096 + size % 4096) ++ net16 seq ++ l.drop (12 + 4 * v)

/-- A PRP trailer behind the padded frame (R185). -/
def addPrp (tpid2 b seq : Nat) (l : List Byte) : List Byte :=
  let m := l ++ List.replicate (54 - l.length) 0
  m ++ net16 seq ++ net16 ((0xA + b) * 4096 + lsduSize (m.length + 10) (vlanTags tpid2 l) % 4096) ++ net16 0x88FB

/-- A received frame, without FCS, carries a valid PRP trailer (R187). -/
def validPrp (tpid2 : Nat) (l : List Byte) : Bool :=
  be16 l (l.length - 2) == 0x88FB
  && be16 l (l.length - 4) % 4096 == lsduSize (l.length + 4) (vlanTags tpid2 l) % 4096

/-- LanId of the trailer. -/
def prpLan (l : List Byte) : Nat := be16 l (l.length - 4) / 4096

/-- Sequence number of the trailer. -/
def prpSeq (l : List Byte) : Nat := be16 l (l.length - 6)

/-- LSDU_size of the HSR tag matches a frame of length `len` (R187). -/
def hsrSizeFits (tpid2 len : Nat) (l : List Byte) : Bool :=
  be16 l (typeOff tpid2 l + 2) % 4096 == lsduSize len (vlanTags tpid2 l) % 4096

/-- Sequence number of the HSR tag. -/
def hsrSeq (tpid2 : Nat) (l : List Byte) : Nat := be16 l (typeOff tpid2 l + 4)

/-! ### PTP messages -/

/-- Offset of the PTP header, behind the EtherType. -/
def ptpOff (tpid2 : Nat) (l : List Byte) : Nat := etherOff tpid2 l + 2

/-- messageType, domainNumber and sequenceId of the message at offset `o`. -/
def ptpType (o : Nat) (l : List Byte) : Nat := byteAt l o % 16
def ptpSeq (o : Nat) (l : List Byte) : Nat := be16 l (o + 30)

/-- correctionField, in 2^-16 ns, signed. -/
def ptpCorr (o : Nat) (l : List Byte) : Int := signedOf (beAt l (o + 8) 8) 64

/-- The message with another correctionField. -/
def setCorr (o : Nat) (c : Int) (l : List Byte) : List Byte := replaceAt (o + 8) (mkBytes (beBytes 8 (encodeSigned c 64))) l

/-- PTP80 bytes of an instant in 1/16 ns: seconds and nanoseconds, truncated (R62). -/
def ptp80 (t : Nat) : List Byte := mkBytes (beBytes 6 (t / 16 / 1000000000 % 2 ^ 48) ++ beBytes 4 (t / 16 % 1000000000))

/-- The message with another time in its timestamp field. -/
def setStampField (o t : Nat) (l : List Byte) : List Byte := replaceAt (o + 34) (ptp80 t) l

/-- One-step insertion of the departure instant `t`, 1/16 ns (R83): a Sync carries it in originTimestamp
with the remainder in correctionField; a Pdelay_Resp adds it to its correctionField, which holds the
request's correction less t2. -/
def insertTime (o t : Nat) (l : List Byte) : List Byte :=
  match ptpType o l with
  | 0 => setCorr o (4096 * (t % 16 : Nat)) (setStampField o t l)
  | 3 => setCorr o (ptpCorr o l + 4096 * (t : Int)) l
  | _ => l

/-! ### Pairs (R180 to R184) -/

/-- One copy of a pair's frame, tagged by the pair's mode; `b` is the member. -/
def State.tagCopy (s : State) (k b seq : Nat) (f : TxFrame) : TxFrame :=
  let tp := s.tpid2 (2 * k)
  bif s.pairMode k == 1 then { f with bytes := addPrp tp b seq f.bytes, padded := true, copy := b }
  else { f with bytes := addHsr tp (s.fget (F.dupPair0Netid k)) b seq f.bytes, copy := b
                ptpOff := bif Nat.ble (typeOff tp f.bytes) f.ptpOff then f.ptpOff + 6 else f.ptpOff }

/-- A frame on its way to the class queues of port `p`, with a serial number. -/
def State.sendTo (s : State) (p : Nat) (f : TxFrame) : State :=
  let t := s.setMac p { s.mac p with coming := (s.mac p).coming ++ [{ f with id := s.nextFrame }] }
  { t with nextFrame := s.nextFrame + 1 }

/-- A host frame, or a notice frame sent like one, of port `p` (R182 to R184). -/
def State.hostSend (s : State) (p : Nat) (f : TxFrame) : State :=
  let k := pairOf p
  bif s.pairMode k == 0 || p % 2 == 1 then s.sendTo p f
  else
    let seq := s.fget (F.dupPair1SeqNext k)
    let t := (s.fput (F.dupPair1SeqNext k) ((seq + 1) % 65536)).pairCount k 18
    let t := t.when (f.source == 0) (fun u => { u with owed := Table.put {} { pair := true } (owedKey f.ring f.pos) u.owed })
    (t.sendTo p (t.tagCopy k 0 seq f)).sendTo (p + 1) (t.tagCopy k 1 seq f)

/-- TX_FRAME_QUEUED (R162): the oldest frame on its way becomes a candidate; a frame that is too long, or a
control frame of a host ring, is dropped whole (R116). -/
def State.takeComing (s : State) (p : Nat) : State :=
  match (s.mac p).coming with
  | [] => s
  | f :: r =>
    let t := s.setMac p { s.mac p with coming := r }
    bif f.source == 0 && etherType (s.tpid2 p) f.bytes == 0x8808 then t.dropFrame p 47 4 f
    else bif f.source != 3 && Nat.blt (s.fget (F.macMaxfMaxFrame p)) (s.frameLen p f) then t.dropFrame p 45 3 f
    else
      let t := t.setMac p { t.mac p with queue := (t.mac p).queue ++ [f] }
      t.when (f.source == 0 && !s.parentFits p f) (·.gateCount p 6 1)

end Sys2Proof.Machine
end

