-- ==== Sys2Proof/Machine/ClsOps.lean ====
section
/-! DEFINITION. The classifier: header parsing, streams, classes, the address filter, stream filters and
meters (chapter 5). -/

namespace Sys2Proof.Machine

/-! ### Header parsing (R129) -/

/-- What the classifier reads ahead of the EtherType: the outer tag's TCI, VLAN tags, an HSR tag, and the
offset of the EtherType. -/
structure Hdr where
  tci : Option Nat := none
  vlans : Nat := 0
  hsr : Bool := false
  off : Nat := 12
  deriving DecidableEq, Repr

/-- Take one more tag. -/
def hdrTag (tpid2 : Nat) (l : List Byte) (h : Hdr) : Hdr :=
  let t := be16 l h.off
  bif Nat.blt h.vlans 2 && (t == 0x8100 || (t == tpid2 && h.vlans == 0)) then
    { h with tci := some (h.tci.getD (be16 l (h.off + 2))), vlans := h.vlans + 1, off := h.off + 4 }
  else bif t == 0x892F && !h.hsr then { h with hsr := true, off := h.off + 6 } else h

/-- The header of a frame: at most two VLAN tags and one HSR tag in the order they appear. -/
def hdrParse (tpid2 : Nat) (l : List Byte) : Hdr := hdrTag tpid2 l (hdrTag tpid2 l (hdrTag tpid2 l {}))

/-! ### Streams (R130, R134, R135) -/

/-- The bucket of a stream key. -/
def streamBucket (da vid : Nat) : Nat := crc32c (beBytes 6 da ++ [vid / 256 % 16, vid % 256]) % 4096

/-- Word `j` of stream entry `i` and of meter entry `i` of quadrant `q`. -/
def streamAddr (q i j : Nat) : Nat := quadBase q + 0x80000 + 16 * i + 4 * j
def meterAddr (q i j : Nat) : Nat := quadBase q + 0xC0000 + 16 * i + 4 * j

/-- BLOCKED of a stream entry (Table 5.1). -/
def stBlocked (q i : Nat) : Fld := ⟨streamAddr q i 3, 27, 1⟩

/-- Stream entry `i` matches a key at local port `l`. -/
def State.streamHit (s : State) (q l i da vid : Nat) : Bool :=
  let w2 := s.rd (streamAddr q i 2)
  bitAt w2 31 && s.rd (streamAddr q i 0) == da % 2 ^ 32 && s.rd (streamAddr q i 1) % 2 ^ 28 == da / 2 ^ 32 + 2 ^ 16 * vid
  && (bitAt w2 28 || bitsOf w2 22 6 == l)

/-- The entries of the bucket of a key, lowest way first. -/
def streamWays (da vid : Nat) : List Nat := (List.range 4).map (fun w => 4 * streamBucket da vid + w)

/-- A stream entry reads with an uncorrectable error: `bad` names it, or its check bits were inverted (R146, R428). -/
def State.streamBad (s : State) (q : Nat) (bad : List Nat) (i : Nat) : Bool :=
  bad.any (· == i) || !s.wordsReadable (streamAddr q i 0) 4

/-- The entry that a key hits: the lowest matching way. One with an uncorrectable error is read as a miss (R146). -/
def State.streamFind (s : State) (q l da vid : Nat) (bad : List Nat) : Option Nat :=
  (streamWays da vid).find? (fun i => !s.streamBad q bad i && s.streamHit q l i da vid)

/-- The VID of a frame (R130). -/
def State.frameVid (s : State) (p : Nat) (h : Hdr) : Nat :=
  match h.tci with
  | some t => bif t % 4096 == 0 then s.fget (F.clsPort0Pvid p) else t % 4096
  | none => s.fget (F.clsPort0Pvid p)

/-- The class that an enabled CLS_ETY_n gives to an EtherType. -/
def State.etyClass (s : State) (q ety : Nat) : Option Nat :=
  ((List.range 8).find? (fun n => s.flag (F.clsEtyEn q n) && s.fget (F.clsEtyEtype q n) == ety)).map (fun n => s.fget (F.clsEtyClass q n))

/-- R132 steps 2 to 4. -/
def State.plainClass (s : State) (p : Nat) (h : Hdr) (ety : Nat) : Nat :=
  match s.etyClass (p / 36) ety, h.tci with
  | some c, _ => c
  | none, some t => bitsOf (s.fget (F.clsPort1PcpMap p)) (3 * (t / 2 ^ 13)) 3
  | none, none => s.fget (F.clsPort0DefCls p)

/-- The class by R132 and R133 for a stream entry's word 2. -/
def streamClass (w2 other : Nat) : Nat :=
  bif bitsOf w2 19 2 == 2 then 7 else bif bitAt w2 17 then bitsOf w2 14 3 else other

/-- The verdict of a hit. -/
def State.hitVerdict (s : State) (q i other : Nat) : Verdict :=
  let w2 := s.rd (streamAddr q i 2)
  { cls := streamClass w2 other, fg := bitsOf w2 0 14, hit := i + 1, act := bitsOf w2 19 2, meter := bitAt w2 18
    entry := (List.range 4).map (fun j => s.rd (streamAddr q i j)) }

/-- The verdict of a miss (R136). -/
def State.missVerdict (s : State) (p other : Nat) : Verdict :=
  { cls := other, fg := s.fget (F.clsPort2DefFg p)
    meter := s.flag (F.clsCtlEn (p / 36)) && s.flag (F.clsPort0DefMtr p) }

/-- The lookup of a key reads its bucket; each entry with an uncorrectable error is counted (R146). -/
def State.clsEcc (s : State) (q da vid : Nat) (bad : List Nat) : State :=
  eachOf (streamWays da vid) (fun i t => (t.touch (streamAddr q i 0) 4).when (t.streamBad q bad i) (·.cntF (F.clsErrEccUnc q))) s

/-- The frame is exempt from streams, filter and meters: PTP and supervision (R131). -/
def exempt (ety : Nat) : Bool := ety == 0x88F7 || ety == 0x88FB

/-- The verdict ready after the 64th byte (R129 to R136); lookups count. -/
def State.classify (s : State) (p : Nat) (l : List Byte) (bad : List Nat) : Verdict × State :=
  let q := p / 36
  let h := hdrParse (s.tpid2 p) l
  let ety := be16 l h.off
  bif ety == 0x88F7 then ({ s.missVerdict p (s.fget F.invPtpCtlTxClass) with meter := false }, s)
  else bif ety == 0x88FB then ({ s.missVerdict p 6 with meter := false }, s)
  else bif !s.flag (F.clsCtlEn q) then (s.missVerdict p (s.plainClass p h ety), s)
  else
    let t := s.clsEcc q (frameDa l) (s.frameVid p h) bad
    match s.streamFind q (p % 36) (frameDa l) (s.frameVid p h) bad with
    | some i => (s.hitVerdict q i (s.plainClass p h ety), t.clsCount p 0)
    | none => (s.missVerdict p (s.plainClass p h ety), t.clsCount p 1)

/-! ### Address and stream filters (R138 to R140) -/

/-- The address filter (R138). -/
def State.addrAccepts (s : State) (p da : Nat) (v : Verdict) : Bool :=
  v.hit != 0 || da == s.macAddr p || (da == broadcastDa && s.flag (F.clsPort0AcceptBc p))
  || (isGroup da && da != broadcastDa && s.flag (F.clsPort0AcceptMc p)) || s.flag (F.clsPort0Promisc p)

/-- Set BLOCKED of stream entry `i`, with its Bronze record and notice (R139). -/
def State.blockStream (s : State) (q i : Nat) : State :=
  ((s.fset (stBlocked q i) true).entryWritten (8 * q + 2) 1 (streamAddr q i 3) 1).fromQuad q fun t =>
    (t.brzEvent (quadCode q + 8) (16 * q + 2) i 0 0).notice (quadCode q + 8) (16 * q + 2) i [0, 0, 0]

/-- Word `j` of the entry that the lookup saw (R137). -/
def Verdict.word (v : Verdict) (j : Nat) : Nat := v.entry.getD j 0

/-- The table still holds the entry that the lookup saw, but for BLOCKED. -/
def State.sameEntry (s : State) (q : Nat) (v : Verdict) : Bool :=
  let i := v.hit - 1
  (List.range 3).all (fun j => s.rd (streamAddr q i j) == v.word j)
  && withBits (s.rd (streamAddr q i 3)) 27 1 0 == withBits (v.word 3) 27 1 0

/-- The entry of a frame is BLOCKED: as it stands while it is the one looked up, otherwise as it was seen (R137, R139). -/
def State.entryBlocked (s : State) (q : Nat) (v : Verdict) : Bool :=
  bif s.sameEntry q v then s.flag (stBlocked q (v.hit - 1)) else bitAt (v.word 3) 27

/-- The first steps of R140: none where the frame goes on to its meter. -/
def State.filtered (s : State) (p da len : Nat) (v : Verdict) : Option State :=
  let q := p / 36
  let i := v.hit - 1
  let hit := v.hit != 0
  let max := bitsOf (v.word 3) 0 14
  bif !s.addrAccepts p da v then some (s.clsCount p 2)
  else bif v.act == 1 then some (s.clsCount p 3)
  else bif hit && s.entryBlocked q v then some (s.clsCount p 4)
  else bif hit && max != 0 && Nat.blt max len then
    let t := s.clsCount p 5
    some (t.when (bitAt (v.word 3) 26 && t.sameEntry q v) (·.blockStream q i))
  else none

/-! ### Meters (R141 to R144) -/

/-- Key of a meter. -/
def meterKey (q fg : Nat) : Nat := 0x4000 * q + fg

/-- The record of a meter. -/
def State.meterOf (s : State) (q fg : Nat) : Meter := Table.get {} (meterKey q fg) s.meters

/-- Store the record of a meter. -/
def State.setMeter (s : State) (q fg : Nat) (m : Meter) : State := { s with meters := Table.put {} m (meterKey q fg) s.meters }

/-- A count of bytes in 1/1024 byte. -/
def inTokens (n : Nat) : Nat := 1024 * n

/-- Tokens that a rate in units of 1000 bytes/s adds in `dt` ns, 1/1024 byte. -/
def addTokens (rate dt : Nat) : Nat := rate * 1024 * dt / 1000000

/-- One frame of `b` tokens at a single-rate meter: colour and counts (R141). -/
def srTcm (cbs xbs : Nat) (aware yellow : Bool) (b tc te : Nat) : Nat × Nat × Nat :=
  let te' := bif Nat.blt cbs tc then Nat.min (te + (tc - cbs)) xbs else te
  let tc' := Nat.min tc cbs
  bif (!aware || !yellow) && Nat.ble b tc' then (0, tc' - b, te')
  else bif Nat.ble b te' then (1, tc', te' - b)
  else (2, tc', te')

/-- One frame at a two-rate meter. -/
def trTcm (aware yellow : Bool) (b tc tp : Nat) : Nat × Nat × Nat :=
  bif Nat.blt tp b then (2, tc, tp)
  else bif Nat.blt tc b || (aware && yellow) then (1, tc, tp - b)
  else (0, tc - b, tp - b)

/-- Fields of a meter entry (Table 5.2). -/
def mtrCir (q i : Nat) : Fld := ⟨meterAddr q i 0, 0, 24⟩
def mtrPir (q i : Nat) : Fld := ⟨meterAddr q i 1, 0, 24⟩
def mtrCbs (q i : Nat) : Fld := ⟨meterAddr q i 2, 0, 24⟩
def mtrXbs (q i : Nat) : Fld := ⟨meterAddr q i 3, 0, 24⟩
def mtrMode (q i : Nat) : Fld := ⟨meterAddr q i 3, 24, 2⟩
def mtrAware (q i : Nat) : Fld := ⟨meterAddr q i 3, 26, 1⟩
def mtrYelDrop (q i : Nat) : Fld := ⟨meterAddr q i 3, 27, 1⟩
def mtrRedFwd (q i : Nat) : Fld := ⟨meterAddr q i 3, 28, 1⟩

/-- A meter judges `b` bytes now, by the count of its quadrant's follower: colour and new record. -/
def State.meterRun (s : State) (q fg b : Nat) (yellow : Bool) : Nat × Meter :=
  let m := s.meterOf q fg
  let dt := s.folNow q - m.last
  let cbs := inTokens (s.fget (mtrCbs q fg))
  let xbs := inTokens (s.fget (mtrXbs q fg))
  let up := addTokens (s.fget (mtrCir q fg)) dt
  let r := bif s.fget (mtrMode q fg) == 1 then
      srTcm cbs xbs (s.flag (mtrAware q fg)) yellow (inTokens b) (m.tc + up) m.tx
    else trTcm (s.flag (mtrAware q fg)) yellow (inTokens b) (Nat.min (m.tc + up) cbs)
      (Nat.min (m.tx + addTokens (s.fget (mtrPir q fg)) dt) xbs)
  (r.1, { m with tc := r.2.1, tx := r.2.2, last := s.folNow q })

/-- A red frame counts in its meter; half range sets CLS_ERR.RED_HR. -/
def State.countRed (s : State) (q fg : Nat) : State :=
  let m := s.meterOf q fg
  (s.setMeter q fg { m with red := (m.red + 1) % 2 ^ 32 }).when (m.red == 0x7FFFFFFF)
    (·.halfRange (.bits (Reg.clsErr q) (2 ^ 24)))

/-- The meter of a frame of `len` bytes (R141, R142): its colour, whether it passes. `bad` reads the entry
as MODE = 0 (R146). A meter that is off gives green and counts no colour. Its bucket-state word is read and written. -/
def State.police (s : State) (p fg len : Nat) (yellow bad : Bool) : (Nat × Bool) × State :=
  let q := p / 36
  let s := s.touch (meterAddr q fg 0) 4
  bif bad || !s.wordsReadable (meterAddr q fg 0) 4 then ((0, true), s.cntF (F.clsErrEccUnc q))
  else bif s.fget (mtrMode q fg) == 0 || s.fget (mtrMode q fg) == 3 then ((0, true), s)
  else
    let r := s.meterRun q fg (len + s.fget (F.mtrCtlOvh q)) yellow
    let s := (s.hiddenRead (8 * q + 2) 1 fg).hiddenWritten (8 * q + 2) 1 fg
    let t := (s.setMeter q fg r.2).clsCount p (6 + r.1)
    let t := t.when (r.1 == 2) (·.countRed q fg)
    bif r.1 == 1 && s.flag (mtrYelDrop q fg) then ((1, false), t.clsCount p 9)
    else bif r.1 == 2 && !s.flag (mtrRedFwd q fg) then ((2, false), t.clsCount p 10)
    else ((r.1, true), t)

/-! ### Table writes (R137, R143) -/

/-- Reserved bits of entry words are 0; MODE 3 is stored as 0 (Tables 5.1 and 5.2). -/
def streamMask (j : Nat) : Nat := [0xFFFFFFFF, 0x0FFFFFFF, 0x9FFFFFFF, 0x7FFFFFFF].getD j 0
def meterMask (j : Nat) : Nat := [0x00FFFFFF, 0x00FFFFFF, 0x00FFFFFF, 0x1FFFFFFF].getD j 0
def fixMode (v : Nat) : Nat := bif bitsOf v 24 2 == 3 then withBits v 24 2 0 else v

/-- Write word `j` of meter `i`: enabling starts both buckets full, and counts above a new size are cut to it
(R143). -/
def State.writeMeter (s : State) (q i j v : Nat) : State :=
  let old := s.fget (mtrMode q i)
  let t := s.wr (meterAddr q i j) (bif j == 3 then fixMode (v &&& meterMask 3) else v &&& meterMask j)
  let m := s.meterOf q i
  let cbs := inTokens (t.fget (mtrCbs q i))
  let xbs := inTokens (t.fget (mtrXbs q i))
  bif old == 0 && t.fget (mtrMode q i) != 0 then t.setMeter q i { m with tc := cbs, tx := xbs, last := s.folNow q }
  else t.setMeter q i { m with tc := Nat.min m.tc cbs, tx := Nat.min m.tx xbs }

/-- Write word `j` of stream entry `i`. -/
def State.writeStream (s : State) (q i j v : Nat) : State := s.wr (streamAddr q i j) (v &&& streamMask j)

/-- Word `j` of entry `i` of the table that a staged operation names. -/
def clsWord (q i j : Nat) (meter : Bool) : Nat := bif meter then meterAddr q i j else streamAddr q i j

/-- A staged write of a whole entry, word 3 last; each word is stored with its check bits (R428). -/
def State.clsEntryWrite (s : State) (q i : Nat) (meter : Bool) : State :=
  eachOf [0, 1, 2, 3] (fun j t =>
    let v := t.rd (Reg.clsStg q j)
    let t := t.memWritten (8 * q + 2) 1 (clsWord q i j meter)
    bif meter then t.writeMeter q i j v else t.writeStream q i j v) s

/-- A staged read. -/
def State.clsEntryRead (s : State) (q i : Nat) (meter : Bool) : State :=
  eachOf [0, 1, 2, 3] (fun j t =>
    let r := t.tableRead (clsWord q i j meter)
    r.1.wr (Reg.clsStg q j) r.2) s

end Sys2Proof.Machine
end

