-- ==== Sys2Proof/Machine/Store.lean ====
section
/-! DEFINITION. Storing a written word by the access types of its fields, the lock conditions of RWL
fields, the store rules of field descriptions, and wide values (R14 to R17). -/

namespace Sys2Proof.Machine

/-! ### Locks -/

/-- A ring's RWL fields open only while EN = 0 and IDLE = 1 (R236). -/
def State.ringLocked (s : State) (r : Nat) : Bool := s.flag (F.ringCtlEn r) || !s.flag (F.ringStsIdle r)

/-- The ring whose register block holds Spine offset `a`. -/
def spineRing (a : Nat) : Nat := 2304 + (a - 0x1000) / 0x40

/-- The RWL fields of the Spine word at `a` are locked. -/
def State.spineLocked (s : State) (a : Nat) : Bool :=
  bif Nat.blt a 0x10000 then s.ringLocked (spineRing a)
  else bif Nat.blt a 0x30100 then s.flag F.invCtlEn
  else bif Nat.blt a 0x30300 then s.flag F.invPtpCtlPtpEn
  else bif Nat.blt a 0x40000 then s.flag (F.tpulseCtlEn ((a - 0x30300) / 32))
  else bif Nat.blt a 0x50000 then s.flag F.anlCtlEn
  else bif Nat.blt a 0x80000 then s.flag F.mtxCtlSeqRun
  else bif Nat.blt a 0xA0000 then s.flag (F.sealCtlEn ((a - 0x90000) / 256))
  else bif Nat.blt a 0x100000 then s.flag (F.cbsCtlEn ((a - 0xB1000) / 0x1000))
  else bif Nat.blt a 0x140000 then s.flag F.fabCtlEn else s.flag F.scbCtlEn

/-- The RWL fields of a word of quadrant `q` at window offset `o` are locked. -/
def State.windowLocked (s : State) (q o : Nat) : Bool :=
  bif Nat.blt o 0x24000 then s.flag (F.macCtlEn (36 * q + o / 0x1000))
  else bif Nat.blt o 0x100000 then s.flag (F.clsCtlEn q)
  else bif Nat.blt o 0x1C0000 then
    let k := (o - 0x181000) / 0x100
    s.flag (F.macCtlEn (36 * q + 2 * k)) || s.flag (F.macCtlEn (36 * q + 2 * k + 1))
  else s.ringLocked (576 * q + (o - 0x1C1000) / 0x40)

/-- The RWL fields of the word at `a` are locked. -/
def State.locked (s : State) (a : Nat) : Bool :=
  bif Nat.blt a 0x1000000 then s.spineLocked a else s.windowLocked (quadOf a) (windowOff a)

/-! ### Store rules -/

/-- One store rule of a field description. -/
def applyAdj (n : Nat) : Adj → Nat
  | .clamp lo w l m => withBits n lo w (clampNat l m (bitsOf n lo w))
  | .sclamp lo w l m => withBits n lo w (encodeSigned (clampInt l m (signedOf (bitsOf n lo w) w)) w)
  | .remap lo w v t => bif bitsOf n lo w == v then withBits n lo w t else n
  | .above lo w m => bif Nat.blt m (bitsOf n lo w) then withBits n lo w 0 else n
  | .keep lo w mask => withBits n lo w (bitsOf n lo w &&& mask)

/-- PHY and FEC as they are stored (R106). -/
def pcsStore (n : Nat) : Nat :=
  let phy := bif Nat.ble (bitsOf n 0 3) 4 then bitsOf n 0 3 else 0
  let fec := match phy, bitsOf n 3 2 with
    | 3, 1 => 1
    | 4, 1 => 1
    | 4, 2 => 2
    | _, _ => 0
  withBits (withBits n 0 3 phy) 3 2 fec

/-- Store rules that tie fields of one word together; `old` is the word before the write. -/
def fixWord (a old n : Nat) : Nat :=
  bif a == Reg.hscSlkCtl then
    bif Nat.blt (bitsOf n 16 8) (bitsOf n 8 8 + 10) then withBits n 16 8 (bitsOf n 8 8 + 10) else n
  else bif a == Reg.hscVid then
    withBits (withBits (withBits n 8 6 (Nat.min 40 (bitsOf n 8 6))) 16 6 (Nat.min 40 (bitsOf n 16 6)))
      24 6 (Nat.min 40 (bitsOf n 24 6))
  else bif a == Reg.anlCfg then
    bif Nat.ble (bitsOf n 3 3) (bitsOf n 0 3) then withBits n 0 6 (bitsOf old 0 6) else n
  else bif a == Reg.invPtpIntv then
    [(0, -7, 1), (8, -3, 4), (16, -7, 5), (24, -7, 5)].foldl (fun m (x : Nat × Int × Int) =>
      withBits m x.1 8 (encodeSigned (clampInt x.2.1 x.2.2 (signedOf (bitsOf m x.1 8) 8)) 8)) n
  else bif Nat.ble 0x30300 a && Nat.blt a 0x30380 && a % 32 == 12 then Nat.max 20 n
  else bif Nat.ble 0x1000000 a && Nat.blt (windowOff a) 0x24000 && a % 0x1000 == 0x40 then pcsStore n
  else n

/-- The word that a write of `v` leaves at `a`: RW and open RWL fields take the written value under
their store rules, written ones clear W1C bits, and everything else stays (R14). Fields that trigger an
action are the business of the register's own operation. -/
def storedWord (r : RegRow) (locked : Bool) (a old v : Nat) : Nat :=
  let w := bif locked then r.rw else r.rw ||| r.rwl
  let n := r.adj.foldl applyAdj ((old &&& (0xFFFFFFFF ^^^ w)) ||| (v &&& w))
  fixWord a old n &&& (0xFFFFFFFF ^^^ (v &&& r.w1c))

/-- A register write that has no further effect. -/
def State.store (s : State) (a v : Nat) : State :=
  match regRow a with
  | some r => s.wr a (storedWord r (s.locked a) a (s.rd a) v)
  | none => s

/-! ### Wide values (R17) -/

/-- Wide values: first lowest word, array strides and counts, upper words. Counters of two words and
the groups whose description captures or submits. -/
def wideSpine : List (Nat × List (Nat × Nat) × Nat) :=
  [ (0x10018, [], 1), (0x20010, [], 1), (0x20018, [], 1), (0x20020, [], 3), (0x30010, [], 2), (0x30020, [], 2)
  , (0x30030, [], 1), (0x30120, [], 2), (0x30200, [(32, 4)], 3), (0x30300, [(32, 4)], 2), (0x40404, [(64, 4)], 1)
  , (0x60020, [], 2), (0x70040, [], 1), (0x100010, [], 7), (Reg.scbPendBase0, [], 2), (0x180020, [], 2) ]

/-- The wide values of a quadrant window by window offset. -/
def wideWindow : List (Nat × List (Nat × Nat) × Nat) :=
  [ (0x200, [(0x1000, 36), (8, 59)], 1), (Reg.clsCnt 0 0 - 0x1000000, [(0x100, 36), (8, 11)], 1)
  , (Reg.gateCnt 0 0 - 0x1000000, [(0x80, 36), (8, 8)], 1), (0x181040, [(0x100, 18), (8, 19)], 1)
  , (Reg.grfIdent2 0 - 0x1000000, [], 1) ]

/-- How many upper words follow the lowest word at `a` in a list; 0 where `a` is no lowest word. -/
def wideCount : List (Nat × List (Nat × Nat) × Nat) → Nat → Nat
  | [], _ => 0
  | x :: r, a => bif Nat.ble x.1 a && dimsHit x.2.1 (a - x.1) then x.2.2 else wideCount r a

/-- The number of upper words of the wide value whose lowest word is at `a`. -/
def wideUpper (a : Nat) : Nat :=
  bif Nat.blt a 0x1000000 then wideCount wideSpine a else wideCount wideWindow (windowOff a)

/-- The lowest word of the wide value that `a` is an upper word of. -/
def wideLow (a : Nat) : Option Nat :=
  (List.range 8).find? (fun k => k != 0 && Nat.ble (4 * k) a && Nat.ble k (wideUpper (a - 4 * k)))
    |>.map (fun k => a - 4 * k)

/-- Number of a requester in the shadow and staging tables. -/
def reqNum : Requester → Nat
  | .hostA => 0
  | .hostB => 1
  | .servicePort => 2
  | .sequencer => 3
  | .bulkMover => 4

/-- Key of a requester's shadow or staging word. -/
def reqKey (q : Requester) (a : Nat) : Nat := reqNum q * 0x4000000 + a

/-- The requester's shadow of the word at `a`; 0 while nothing has been captured. -/
def State.shadowOf (s : State) (q : Requester) (a : Nat) : Nat := Table.get 0 (reqKey q a) s.shadow

/-- Store a shadow word. -/
def State.setShadow (s : State) (q : Requester) (a n : Nat) : State :=
  { s with shadow := Table.put 0 n (reqKey q a) s.shadow }

/-- The staged word plus one; 0 while nothing is staged. -/
def State.stagedOf (s : State) (q : Requester) (a : Nat) : Nat := Table.get 0 (reqKey q a) s.staged

/-- Stage a word (`some`), or empty the staging word. -/
def State.stage (s : State) (q : Requester) (a : Nat) (v : Option Nat) : State :=
  { s with staged := Table.put 0 (match v with | some n => n + 1 | none => 0) (reqKey q a) s.staged }

/-- The addresses of the upper words of the wide value at `a`. -/
def upperWords (a : Nat) : List Nat := (List.range (wideUpper a)).map (fun k => a + 4 * (k + 1))

/-- The value that a write-only upper word holds. -/
def State.woWord (s : State) (a : Nat) : Nat := Table.get 0 a s.wo

/-- Apply one upper word: a stored register takes it by its access types, a write-only one holds it. -/
def State.applyUpper (s : State) (a v : Nat) : State :=
  bif implOf a == 0 then { s with wo := Table.put 0 v a s.wo } else s.store a v

/-- Apply a requester's staged upper words and empty its staging words. -/
def State.applyStaged (s : State) (q : Requester) (a : Nat) : State :=
  eachOf (upperWords a) (fun u t =>
    bif t.stagedOf q u == 0 then t else (t.applyUpper u (t.stagedOf q u - 1)).stage q u none) s

/-- The bits of the word at `a` that act at once in an upper word: W1C and W1S fields. -/
def actsAtOnce (a : Nat) : Nat :=
  match regRow a with
  | some r => r.w1c ||| r.w1s
  | none => 0

/-- Drop every table entry of one requester. -/
def dropReq (k : Nat) : Table Nat → Table Nat
  | [] => []
  | x :: r => bif x.1 / 0x4000000 == k then dropReq k r else x :: dropReq k r

/-- A reset of a requester clears its shadow and staging words (R17). -/
def State.resetRequester (s : State) (q : Requester) : State :=
  { s with
    shadow := dropReq (reqNum q) s.shadow
    staged := dropReq (reqNum q) s.staged }

/-! ### Resets of masters (R403) -/

/-- The requester that a matrix master is (R17). -/
def requesterOf : Nat → Option Requester
  | 0 => some .hostA
  | 1 => some .hostB
  | 2 => some .servicePort
  | 7 => some .bulkMover
  | 8 => some .sequencer
  | _ => none

/-- What a reset takes from master `m`: its requests held back, and its shadow and staging words. -/
def State.clearMaster (s : State) (m : Nat) : State :=
  let t := { s with parked := s.parked.filter (fun x => x.1 != m) }
  match requesterOf m with
  | some q => (t.resetRequester q).when (m == 2) (fun u => { u with svc := [] })
  | none => t

/-- The data and the responses of what master `m` has outstanding are thrown away (R403): a ring engine reads anew, and
the channels of the Bulk Mover end without status, which the manual does not state: DESIGN CHOICE, log entry 102. -/
def State.discardOf (s : State) (m : Nat) : State :=
  bif m == 7 then { forUpTo 8 (fun n t => t.fset (F.bmvCtlGoBusy n) false) s with movers := [] }
  else { s with rings := s.rings.map (fun x => bif ringMaster x.1 == m then (x.1, dropReads x.2) else x) }

/-- A master is reset (R403): its port drains; `cut` says that a burst of it was in progress. -/
def State.masterReset (s : State) (m : Nat) (cut : Bool) : State :=
  (((s.fset (F.mtxOutRst m) true).when cut (·.cnt (Reg.mtxCnt 1))).clearMaster m).discardOf m

/-- The block, quadrant or link of master `m` goes (R403): its port drains while transactions of it are outstanding. Whether
a write burst of it is being delivered then is not stated: it is free. -/
def State.masterDown (s : State) (m : Nat) : State :=
  bif s.fget (F.mtxOutRd m) == 0 && s.fget (F.mtxOutWr m) == 0 then s.clearMaster m
  else s.useFree.masterReset m (s.freeChoice && s.fget (F.mtxOutWr m) != 0)

end Sys2Proof.Machine
end

