-- ==== Sys2Proof/Machine/BronzeOps.lean ====
section
/-! DEFINITION. Bronze and Supply Watch (chapter 16): the AON ring, the Keep store, triggers, limiter windows, and the
excursions. -/

namespace Sys2Proof.Machine

/-- Offset in BAR0 of word `w` of the record with number `q` (R433). -/
def ringWordAt (q w : Nat) : Nat := 0x200000 + 32 * (q % 65536) + 4 * w

/-- Words 0 to 6 of a record (Table 16.1). -/
def recordWords (e : BrzEntry) (q : Nat) : List Nat :=
  [q, e.ns, e.sec % 2 ^ 32, e.sec / 2 ^ 32 + 4 * (e.code % 1024) + 4096 * (e.block % 256),
   e.index, e.arg0, e.arg1]

/-- Write a record into the AON ring: word 7 last, with V = 1 and SEQ_CHK (R431). -/
def State.putRecord (s : State) (e : BrzEntry) (q : Nat) : State :=
  let t := s.wr (ringWordAt q 7) 0
  let t := eachOf (List.zip (List.range 7) (recordWords e q)) (fun x u => u.wr (ringWordAt q x.1) x.2) t
  t.wr (ringWordAt q 7) (q % 65536 + 2 ^ 31)

/-- The ring takes no record: it is frozen and the record FSEQ + POST has been written (R438). -/
def State.ringFull (s : State) : Bool :=
  let d := (s.rd Reg.brzWseq + 2 ^ 32 - s.rd Reg.brzFseq) % 2 ^ 32
  s.flag F.brzStsFrozen && Nat.blt d (2 ^ 31) && Nat.blt (s.fget F.brzCtlPost) d

/-- Generate the code 0x008 record after losses (R435). -/
def State.lostRecord (s : State) : State :=
  bif s.brz.lost == 0 then s
  else
    let t := s.brzJoin (s.brzEntry 8 98 0 s.brz.lost 0)
    { t with brz := { t.brz with lost := 0 } }

/-- BRONZE_RECORD_WRITE (R431, R433, R435): the oldest queued event is written, or lost while the ring is
frozen and full. -/
def State.writeRecord (s : State) : State :=
  match s.brz.queue with
  | [] => s
  | e :: q =>
    bif !s.flag F.brzStsReady then s
    else
      let t := { s with brz := { s.brz with queue := q } }
      bif t.ringFull then t.brzLose.fset F.brzStsFull true
      else
        let n := t.rd Reg.brzWseq
        let t := ((t.putRecord e n).wr Reg.brzWseq ((n + 1) % 2 ^ 32)).cnt (Reg.brzCnt 0)
        t.lostRecord.when t.ringFull (·.fset F.brzStsFull true)

/-- Word `w` of bank `b` of the Keep store: header words 0 to 7, then the records (Table 16.4). -/
def State.keepWord (s : State) (b w : Nat) : Nat := Table.get 0 (0x20000 * b + w) s.brz.keep

/-- Store a Keep word, with its check bits (R428, R447). -/
def State.setKeep (s : State) (b w n : Nat) : State :=
  { s with brz := { s.brz with keep := Table.put 0 n (0x20000 * b + w) s.brz.keep } }.memWritten 57 1 (keepKey b w)

/-- The CRC over words 1 to 6 and the records of bank `b` matches word 7, and no word of it is uncorrectable (R447). -/
def State.keepGood (s : State) (b : Nat) : Bool :=
  let l := (List.range (6 + 8 * Nat.min 4096 (s.keepWord b 3))).map (fun i => bif Nat.blt i 6 then s.keepWord b (i + 1) else s.keepWord b (i + 2))
  s.keepWord b 0 == 2 && crc32c (bytesOfWords l) == s.keepWord b 7
  && (List.range (2 + l.length)).all (fun i => s.readable (keepKey b i))

/-- The newest sealed bank, 3 for none (R440). -/
def State.newestBank (s : State) : Nat :=
  match s.keepGood 0, s.keepGood 1 with
  | true, true => bif Nat.blt (s.keepWord 0 1) (s.keepWord 1 1) then 1 else 0
  | true, false => 0
  | false, true => 1
  | false, false => 3

/-- The bank that a flush writes: one that does not hold the newest sealed set (R439), which a flush before the end of
the check at the start finds out itself. -/
def State.flushBank (s : State) : Nat :=
  bif (bif s.brz.checked then s.fget F.brzKeepStsNewest else s.newestBank) == 0 then 1 else 0

/-- Start a Keep flush at a trigger (R439). -/
def State.startFlush (s : State) (cause ns sec : Nat) : State :=
  let b := s.flushBank
  let n := (Nat.max (s.keepWord 0 1) (s.keepWord 1 1) + 1) % 2 ^ 32
  let t := ((s.setKeep b 0 1).setKeep b 1 n).fset F.brzCtlKeepArm false
  let t := ((t.fset F.brzStsFlushing true).fset F.brzKeepStsBusy true).cnt (Reg.brzCnt 3)
  { t with brz := { t.brz with flush := some [b, n, cause, t.fget F.supNowVf, ns, sec, t.rd Reg.brzFseq] } }

/-- Triggers `cause` freeze the ring. -/
def State.freezes (s : State) (cause : Nat) : Bool :=
  bitAt cause 0 || (bitAt cause 1 && s.flag F.brzCtlFrzPfw) || (bitAt cause 2 && s.flag F.brzCtlFrzFatal)

/-- Triggers `cause` start a Keep flush. -/
def State.flushes (s : State) (cause : Nat) : Bool :=
  s.flag F.brzCtlKeepArm && !s.flag F.brzStsFlushing
  && ((bitAt cause 1 && s.flag F.brzCtlKeepPfw) || (bitAt cause 2 && s.flag F.brzCtlKeepFatal))

/-- The freeze and the flush that triggers `cause` start; `e` is their record. -/
def State.triggered (s : State) (cause : Nat) (e : BrzEntry) : State :=
  let t := s.when (s.freezes cause) (fun u => (u.fset F.brzStsFrozen true).fset F.brzCtlFreeze true)
  t.when (s.flushes cause) (·.startFlush e.arg0 e.ns (e.sec % 2 ^ 32))

/-- The entry is the record of a trigger in the present handshake that is not yet written. -/
def State.trigEntry (s : State) (e : BrzEntry) : Bool :=
  s.brz.trigAt == some s.counter && e.code == 2 && e.ns == s.nsec && e.sec == s.sec % 2 ^ 34

/-- A trigger joins the record of another one in its handshake (R438, R441). -/
def State.joinTrigger (s : State) (cause : Nat) : State :=
  let g := fun (e : BrzEntry) => bif s.trigEntry e then
      { e with arg0 := e.arg0 ||| cause, arg1 := e.arg1 ||| (bit (s.freezes cause) + 2 * bit (s.flushes cause)) } else e
  let f := s.brz.flush.map (fun (l : List Nat) => bif (l.getD 4 0 == s.nsec && l.getD 5 0 == s.sec % 2 ^ 32) then l.set 2 (l.getD 2 0 ||| cause) else l)
  let l := s.brz.queue.map g
  let t := { s with brz := { s.brz with queue := l, flush := f } }
  t.triggered cause ((l.find? s.trigEntry).getD (s.brzEntry 2 98 0 cause 0))

/-- A trigger with a record of its own. -/
def State.newTrigger (s : State) (cause : Nat) : State :=
  let frozen := s.flag F.brzStsFrozen
  let q := (s.rd Reg.brzWseq + s.brz.queue.length + bit !(s.flag F.brzStsReady)) % 2 ^ 32
  let arg1 := bit (frozen || s.freezes cause) + 2 * bit (s.flushes cause)
  let t := s.brzEvent 2 98 0 cause arg1
  let t := { t with brz := { t.brz with trigAt := some s.counter } }
  let t := t.when (!frozen) fun u =>
    { u.wr Reg.brzFseq q with brz := { u.brz with early := !u.flag F.brzStsReady } }
  t.triggered cause (s.brzEntry 2 98 0 cause arg1)

/-- A trigger with its cause bits: 0 software, 1 PFW_N, 2 fatal (R438). -/
def State.trigger (s : State) (cause : Nat) : State :=
  bif s.brz.queue.any s.trigEntry then s.joinTrigger cause else s.newTrigger cause

/-- Leave the freeze (R438); the losses of the freeze are recorded where writing resumes (R435). -/
def State.unfreeze (s : State) : State :=
  let t := ((s.fset F.brzStsFrozen false).fset F.brzCtlFreeze false).fset F.brzStsFull false
  t.when (!t.brzFull) State.lostRecord

/-- A write of BRZ_CTL (Table 16.8): the trigger is taken before UNFREEZE (R441). -/
def State.writeBrzCtl (s : State) (w : Nat) : State :=
  (((s.store Reg.brzCtl w).when (bitAt w 6) (·.fset F.brzCtlKeepArm true)).when (bitAt w 0)
    (·.trigger 1)).when (bitAt w 1) State.unfreeze

/-- The ring holds the whole record with number `q`: one with an uncorrectable word reads with V = 0 (R447). -/
def State.recordValid (s : State) (q : Nat) : Bool :=
  s.rd (ringWordAt q 7) == q % 65536 + 2 ^ 31 && s.rd (ringWordAt q 0) == q % 2 ^ 32 && s.wordsReadable (ringWordAt q 0) 8

/-- How many consecutive valid records end at number `q`, at most `n`. -/
def State.validRun (s : State) (q : Nat) : Nat → Nat
  | 0 => 0
  | n + 1 => bif s.recordValid q then 1 + s.validRun ((q + 2 ^ 32 - 1) % 2 ^ 32) n else 0

/-- The words of `n` records from number `q` on. -/
def State.recordRange (s : State) (q n : Nat) : List Nat :=
  (List.range n).flatMap (fun i => s.words (ringWordAt ((q + i) % 2 ^ 32) 0) 8)

/-- Store a list of words in a bank from word `w` on. -/
def State.setKeeps (s : State) (b w : Nat) : List Nat → State
  | [] => s
  | x :: r => (s.setKeep b w x).setKeeps b (w + 1) r

/-- The word at `a` belongs to one of the `n` ring records that end at number `q`. -/
def inRecords (q n a : Nat) : Bool :=
  Nat.ble 0x200000 a && Nat.blt a 0x400000 && Nat.blt ((q % 65536 + 65536 - (a - 0x200000) / 32) % 65536) n

/-- The end of a Keep flush: the records, header words 2 to 7, then STATE = SEALED (R439); none before READY. The ring
words read are those of the records copied and of the one that ends them. -/
def State.endFlush (s : State) : State :=
  match s.brz.flush with
  | some [b, n, cause, vf, ns, sec, q] =>
    bif !s.flag F.brzStsReady then s else
    let c := s.validRun q 4096
    let s := s.touchAll (inRecords q (c + 1))
    let first := (q + 2 ^ 32 + 1 - c) % 2 ^ 32
    let l := s.recordRange first c
    let h := [n, first, c, cause + 65536 * vf, ns, sec]
    let t := ((s.setKeeps b 8 l).setKeeps b 1 h).setKeep b 7 (crc32c (bytesOfWords (h ++ l)))
    let t := ((t.setKeep b 0 2).fput F.brzKeepStsNewest b).fset F.brzKeepStsBusy false
    { t.fset F.brzStsFlushing false with brz := { t.brz with flush := none } }
  | _ => s

/-- The Keep check at a start (R440); it reads both banks, and BUSY stays where a flush runs. -/
def State.keepCheck (s : State) : State :=
  let s := { s.touchAll (fun k => Nat.ble (2 ^ 41) k) with brz := { s.brz with checked := true } }
  let n := s.newestBank
  let bad := [0, 1].any (fun b => s.keepWord b 0 == 2 && !s.keepGood b)
  let cut := [0, 1].any (fun b => s.keepWord b 0 == 1 && (n == 3 || Nat.blt (s.keepWord n 1) (s.keepWord b 1)))
  let t := (s.fput F.brzKeepStsNewest n).fset F.brzKeepStsBusy s.brz.flush.isSome
  let t := t.when bad (·.fset F.brzKeepStsCrcBad true)
  t.when cut (fun u => (u.fset F.brzKeepStsIncomplete true).corrected 62 0)

/-- The last cold start cleared the ring: PWR_CAUSE.DEV = 1. -/
def State.coldStart (s : State) : Bool := s.fget F.pwrCauseDev == 1

/-- The number after the valid record with the greatest SEQ, one whose successor is not in the ring; 0
with none (R434). -/
def State.nextSeq (s : State) : Nat :=
  match (List.range 65536).find? (fun i =>
      let q := s.rd (ringWordAt i 0)
      q % 65536 == i && s.recordValid q && !s.recordValid ((q + 1) % 2 ^ 32)) with
  | some i => (s.rd (ringWordAt i 0) + 1) % 2 ^ 32
  | none => 0

/-- The clear or the scan ends (R434): numbering continues, which settles what earlier triggers have numbered, and the first
record is code 0x003. -/
def State.brzStart (s : State) : State :=
  bif s.flag F.brzStsReady then s
  else
    let n := bif s.coldStart then 0 else s.nextSeq
    let t := (s.when (!s.coldStart) (·.touchAll (fun a => Nat.ble 0x200000 a && Nat.blt a 0x400000))).wr Reg.brzWseq n
    let t := t.when s.brz.early (fun u => u.wr Reg.brzFseq ((u.rd Reg.brzFseq + n) % 2 ^ 32))
    let t := { t with brz := { t.brz with
        queue := t.brzEntry 3 98 0 (bit !(s.coldStart)) 0 :: t.brz.queue, early := false
        flush := t.brz.flush.map (fun (l : List Nat) => l.set 6 ((l.getD 6 0 + n) % 2 ^ 32)) } }
    t.fset F.brzStsReady true

/-- A window ends (R436): a summary for each suppressed code, in ascending order, and every SUPP is 0. -/
def State.brzWindow (s : State) : State :=
  let t := eachOf (List.range 1024) (fun c u =>
    bif u.fget (F.brzLimSupp c) == 0 then u
    else (u.brzEvent 1 98 c (u.fget (F.brzLimSupp c)) (Table.get 0 c u.brz.firstSupp)).fput (F.brzLimSupp c) 0) s
  { t with brz := { t.brz with window := [], firstSupp := [] } }

/-- Offsets of a quadrant's codes that Table 16.3 does not list. -/
def unlistedQuad : List Nat := [0x07, 0x0C, 0x0D, 0x0E, 0x0F, 0x17, 0x1F]

/-- Codes from 0x200 to 0x233 that Tables 16.2 and 16.3 do not list. -/
def unlisted : List Nat :=
  [0x206, 0x207, 0x20D, 0x20E, 0x20F, 0x216, 0x217, 0x21B, 0x21C, 0x21D, 0x21E, 0x21F, 0x229, 0x22C, 0x22D, 0x22E, 0x22F]

/-- The codes of Tables 16.2 and 16.3 that a block may hand over. -/
def listedCode (c : Nat) : Bool :=
  (Nat.ble 1 c && Nat.ble c 8) || (Nat.ble 0x10 c && Nat.ble c 0x5A) || (Nat.ble 0x60 c && Nat.ble c 0x6A)
  || (Nat.ble 0x6F c && Nat.ble c 0x79) || (Nat.ble 0x80 c && Nat.ble c 0x86)
  || (Nat.ble 0x88 c && Nat.ble c 0x8B)
  || (Nat.ble 0x100 c && Nat.blt c 0x200 && Nat.ble (c % 0x40) 0x20
    && !unlistedQuad.any (· == c % 0x40))
  || (Nat.ble 0x200 c && Nat.ble c 0x233 && !unlisted.any (· == c)) || (Nat.ble 0x380 c && Nat.ble c 0x3FF)

/-- A software record (R440); a write with another CODE is without effect. -/
def State.softRecord (s : State) (q : Requester) (w : Nat) : State :=
  bif Nat.ble 0x380 (bitsOf w 0 10) then
    let t := s.applyStaged q Reg.brzSw0
    t.brzEvent (bitsOf w 0 10) (requesterBlock q) (bitsOf w 16 16) (t.woWord Reg.brzSw1) (t.woWord Reg.brzSw2)
  else s

/-! ### Supply Watch -/

/-- Add the elements of a list. -/
def sumOf (l : List Nat) : Nat := l.foldl (fun a b => a + b) 0

/-- The ratio of the sample sum to NOM lies below a threshold in 0.1 % (R442). -/
def State.below (s : State) (th : Nat) : Bool :=
  Nat.blt (sumOf s.sup.samples * 1000) (th * s.fget F.supCtlNom * 64)

/-- The ratio lies above a threshold. -/
def State.above (s : State) (th : Nat) : Bool :=
  Nat.blt (th * s.fget F.supCtlNom * 64) (sumOf s.sup.samples * 1000)

/-- The condition of excursion `k`: 0 dip, 1 interruption, 2 swell (R443). -/
def State.excNow (s : State) (k : Nat) : Bool :=
  match k with
  | 0 => s.below (s.fget F.supTh0DipTh)
  | 1 => s.below (s.fget F.supTh0IntTh)
  | _ => s.above (s.fget F.supTh1SwellTh)

/-- The ratio is back beyond the threshold of excursion `k` by at least HYST. -/
def State.excBack (s : State) (k : Nat) : Bool :=
  match k with
  | 0 => !s.below (s.fget F.supTh0DipTh + s.fget F.supTh2Hyst)
  | 1 => !s.below (s.fget F.supTh0IntTh + s.fget F.supTh2Hyst)
  | _ => !s.above (s.fget F.supTh1SwellTh - s.fget F.supTh2Hyst)

/-- The record of excursion `k`. -/
def State.exc (s : State) (k : Nat) : Excursion := Table.get {} k s.sup.exc

/-- Store the record of excursion `k`. -/
def State.setExc (s : State) (k : Nat) (x : Excursion) : State :=
  { s with sup := { s.sup with exc := Table.put {} x k s.sup.exc } }

/-- An excursion starts (R445): its record and its count; the report follows the records of its sample (R437). -/
def State.excStart (s : State) (k : Nat) : State :=
  let x := s.exc k
  let t := (s.brzEvent (0x70 + 2 * k) 99 k (fsNs x.startAt) (fsSec x.startAt)).cnt (Reg.supCnt k)
  (t.fput F.supStsActive (t.fget F.supStsActive ||| 2 ^ k)).setExc k { x with back := 0 }

/-- An excursion ends at an instant (R445). -/
def State.excEnd (s : State) (k at' : Nat) : State :=
  let x := s.exc k
  let t := s.brzEvent (0x71 + 2 * k) 99 k (Nat.min ((at' - x.startAt) / 1000) 0xFFFFFFFF) x.extreme
  (t.fput F.supStsActive (t.fget F.supStsActive &&& (15 - 2 ^ k))).setExc k {}

/-- The extreme of excursion `k` after a V_f. -/
def excExtreme (k run old vf : Nat) : Nat :=
  bif run == 0 then vf else bif k == 2 then Nat.max old vf else Nat.min old vf

/-- One sample of excursion `k` = 0..2 (R443). -/
def State.excSample (s : State) (vf k : Nat) : State :=
  let x := s.exc k
  bif bitAt (s.fget F.supStsActive) k then
    let x := { x with extreme := excExtreme k 1 x.extreme vf }
    bif s.excBack k then
      let x := { x with back := x.back + 1, backAt := bif x.back == 0 then s.now else x.backAt }
      (s.setExc k x).when (x.back == 64) (·.excEnd k x.backAt)
    else s.setExc k { x with back := 0 }
  else bif s.excNow k then
    let x := { x with run := x.run + 1, startAt := bif x.run == 0 then s.now else x.startAt, extreme := excExtreme k x.run x.extreme vf }
    (s.setExc k x).when (Nat.blt (s.fget F.supTh2EvtMin) x.run) (·.excStart k)
  else s.setExc k {}

/-- Excursions that were not active in `s` and are in `t` are reported in one update of source 60 (R417, R437, R445). -/
def State.excReport (s t : State) : State :=
  let m := t.fget F.supStsActive &&& (15 ^^^ s.fget F.supStsActive)
  t.when (m != 0) (·.latch [(60, m)])

/-- SUPPLY_SAMPLE (R442, R443). -/
def State.supplySample (s : State) (raw : Nat) : State :=
  bif !s.flag F.supCtlEn then s
  else
    let r := raw % 4096
    let x := s.sup
    let t := { s with sup := { x with
        samples := (r :: x.samples).take 64, count := Nat.min 64 (x.count + 1)
        winMax := Nat.max x.winMax r, winMin := Nat.min x.winMin r } }
    let t := t.fput F.supNowRaw r
    bif Nat.blt t.sup.count 64 then t
    else
      let vf := (sumOf t.sup.samples + 32) / 64
      let t := ((t.fput F.supNowVf vf).fset F.supNowValid true).fput F.supExtMin (Nat.min vf (t.fget F.supExtMin))
      let t := t.fput F.supExtMax (Nat.max vf (t.fget F.supExtMax))
      bif t.fget F.supCtlNom == 0 then t else t.excReport (((t.excSample vf 0).excSample vf 1).excSample vf 2)

/-- A write of SUP_CTL: setting EN starts the 64 samples of V_f anew (R442); clearing it ends every run of samples or
windows, and the excursions in progress stay (R443): DESIGN CHOICE, log entry 144. -/
def State.writeSupCtl (s : State) (w : Nat) : State :=
  let t := s.store Reg.supCtl w
  bif !s.flag F.supCtlEn && t.flag F.supCtlEn then
    { t.fset F.supNowValid false with sup := { t.sup with samples := [], count := 0, winMax := 0, winMin := 0xFFF } }
  else bif s.flag F.supCtlEn && !t.flag F.supCtlEn then
    forUpTo 4 (fun k u => u.setExc k (bif bitAt (u.fget F.supStsActive) k then { u.exc k with back := 0 } else {})) t
  else t

/-- A write of SUP_EXT: CLR restarts MIN and MAX. -/
def State.writeSupExt (s : State) (w : Nat) : State :=
  bif bitAt w 31 then (s.fput F.supExtMin 0xFFF).fput F.supExtMax 0 else s

/-- RIPPLE_WINDOW_END (R443): the window's peak-to-peak ratio, and the run of windows; a window is judged while EN = 1 and
NOM is not 0. -/
def State.rippleWindow (s : State) : State :=
  let x := s.sup
  let t := { s with sup := { x with winMax := 0, winMin := 0xFFF } }
  bif !s.flag F.supCtlEn || s.fget F.supCtlNom == 0 then t
  else
    let pp := (x.winMax - x.winMin) * 1000 / s.fget F.supCtlNom
    let t := t.fput F.supStsRipPp (Nat.min pp 1023)
    let hit := Nat.ble (t.fget F.supTh1RipTh) pp
    let e := t.exc 3
    let from' := t.now - 10000000
    bif bitAt (t.fget F.supStsActive) 3 then
      let e := { e with extreme := Nat.max e.extreme pp }
      bif hit then t.setExc 3 { e with back := 0 }
      else
        let e := { e with back := e.back + 1, backAt := bif e.back == 0 then from' else e.backAt }
        (t.setExc 3 e).when (Nat.ble (t.fget F.supTh2RipN) e.back) (·.excEnd 3 e.backAt)
    else bif hit then
      let e := { e with run := e.run + 1, startAt := bif e.run == 0 then from' else e.startAt, extreme := Nat.max e.extreme pp }
      t.excReport ((t.setExc 3 e).when (Nat.ble (t.fget F.supTh2RipN) e.run) (·.excStart 3))
    else t.setExc 3 {}

/-- PFW_N is qualified low (R444): its record and the trigger record in one handshake, then source 61. -/
def State.pfwAssert (s : State) : State :=
  bif s.flag F.supStsPfw then s
  else ((((s.brzEvent 0x78 99 0 0 0).trigger 2).fset F.supStsPfw true).cnt (Reg.supCnt 4)).corrected 61 0

end Sys2Proof.Machine
end

