-- ==== Sys2Proof/Machine/LinkOps.lean ====
section
/-! DEFINITION. The Grafa link below its states: flits, commands, flit counts and HOLDOVER_N (R252, R258,
R259, R264). -/

namespace Sys2Proof.Machine

/-- The link record of quadrant `q`. -/
def State.link (s : State) (q : Nat) : Link := Table.get {} q s.links

/-- Store the link record. -/
def State.setLink (s : State) (q : Nat) (x : Link) : State := { s with links := Table.put {} x q s.links }

/-- The state codes of Table 9.2. -/
def linkDown : Nat := 0
def linkLock : Nat := 1
def linkAlign : Nat := 2
def linkIdent : Nat := 3
def linkMeasure : Nat := 4
def linkUp : Nat := 5

/-- The link of quadrant `q` is UP. -/
def State.isUp (s : State) (q : Nat) : Bool := s.fget (F.grfStsState q) == linkUp

/-- `n` bytes of a list, 0 beyond its end. -/
def padTo (n : Nat) (l : List Nat) : List Nat := (l ++ List.replicate n 0).take n

/-- The 64 bytes of a flit (Table 9.5), multi-byte fields in network order (R8). -/
def flitBytes (type seq arg : Nat) (payload : List Nat) (fcnt : Nat) : List Nat :=
  let b := [type, seq] ++ beBytes 2 arg ++ padTo 56 payload ++ [fcnt]
  b ++ beBytes 3 (crc24 b)

/-- The bytes of 16-bit payload words. -/
def flitWords (l : List Nat) : List Nat := l.flatMap (beBytes 2)

/-- The headers of data and control blocks; no other is valid (R256). -/
def dataHeader : Nat := 0x5
def controlHeader : Nat := 0xA

/-- The blocks of a flit on the four lanes: byte b on lane (b mod 32) / 8 in block b / 32 (R258). -/
def flitLanes (bytes : List Nat) : List (List (Nat × List Nat)) :=
  (List.range 4).map (fun j => (List.range 2).map (fun b => (dataHeader, (bytes.drop (32 * b + 8 * j)).take 8)))

/-- The SYNC blocks number `n` of quadrant `q` (Table 9.4). -/
def syncLanes (q n : Nat) : List (List (Nat × List Nat)) :=
  (List.range 4).map (fun j => [(controlHeader, [0xE1, 64 * q + j] ++ beBytes 2 n ++ [0, 0, 0, 0])])

/-- Send a flit: FCNT counts it (R258). -/
def State.sendFlit (s : State) (q type seq arg : Nat) (payload : List Nat) : State :=
  let x := s.link q
  (s.setLink q { x with txCount := (x.txCount + 1) % 256, sent := x.sent.map (· + 1) }).emit
    (.flit q (flitLanes (flitBytes type seq arg payload x.txCount)))

/-- Put a command on the link: CMD carries SEQ and OP (Table 9.6). -/
def State.sendCmd (s : State) (q : Nat) (c : Cmd) : State := s.sendFlit q 0x20 c.seq c.op (flitWords c.words)

/-- Move waiting commands to the outstanding ones, at most 4 (R264). -/
def State.pumpCmds (s : State) (q : Nat) : Nat → State
  | 0 => s
  | n + 1 =>
    match (s.link q).wait with
    | [] => s
    | c :: r =>
      bif Nat.ble 4 (s.link q).cmds.length then s
      else ((s.setLink q { s.link q with wait := r, cmds := (s.link q).cmds ++ [c] }).sendCmd q c).pumpCmds q n

/-- Issue a command: SEQ increments modulo 256. -/
def State.command (s : State) (q op : Nat) (words : List Nat) : State :=
  let x := s.link q
  (s.setLink q { x with
    nextSeq := (x.nextSeq + 1) % 256
    wait := x.wait ++ [{ seq := x.nextSeq, op := op, words := words }] }).pumpCmds q 4

/-- Place a command in front of those that wait, but behind a waiting CAL_START (R356). -/
def abortPlace (c : Cmd) (l : List Cmd) : List Cmd :=
  bif l.any (fun x => x.op == 3) then
    (l.takeWhile (fun x => x.op != 3)) ++ (l.dropWhile (fun x => x.op != 3)).take 1 ++ [c] ++ (l.dropWhile (fun x => x.op != 3)).drop 1
  else c :: l

/-- CAL_ABORT goes ahead of every other command, but follows its CAL_START (R260, R356). -/
def State.commandFirst (s : State) (q op : Nat) (words : List Nat) : State :=
  let x := s.link q
  (s.setLink q { x with
    nextSeq := (x.nextSeq + 1) % 256
    wait := abortPlace { seq := x.nextSeq, op := op, words := words } x.wait }).pumpCmds q 4

/-- Discard every outstanding command (R267). -/
def State.dropCmds (s : State) (q : Nat) : State :=
  s.setLink q { s.link q with cmds := [], wait := [] }

/-- Count `k` in GRF_CNT_n of quadrant `q`. -/
def State.grfCountBy (s : State) (q n k : Nat) : State :=
  let a := Reg.grfCnt q n
  (s.wr a ((s.rd a + k) % 2 ^ 32)).when (rose (s.rd a) ((s.rd a + k) % 2 ^ 32) 32) (·.halfRange (.grf q))

/-- A flit with a good CRC arrives: a gap of FCNT counts in FLIT_LOST (R258). -/
def State.goodFlit (s : State) (q fcnt : Nat) : State :=
  let x := s.link q
  let t := s.setLink q { x with rxNext := some ((fcnt + 1) % 256), crcWin := (false :: x.crcWin).take 64 }
  match x.rxNext with
  | some e => t.when (fcnt != e) (·.grfCountBy q 1 ((fcnt + 256 - e) % 256))
  | none => t

/-- HOLDOVER_N[q] by R252: high only while the link is UP and HOLD_REL = 1, undriven while the Grafa domain
is not READY or the quadrant is isolated. -/
def State.driveHold (s : State) (q : Nat) : State :=
  let high := s.isUp q && s.flag (F.grfCtlHoldRel q)
  let t := s.fset (F.grfStsHoldOut q) (high && s.open' q 10)
  t.pin (Pin.holdover q) (bif !s.open' q 10 then 0 else bif high then 2 else 1)

/-- Set or clear HOLD_REL and drive the pin. -/
def State.setHoldRel (s : State) (q : Nat) (b : Bool) : State := (s.fset (F.grfCtlHoldRel q) b).driveHold q

/-- The 256 tap monitors of `q` become invalid (R267). -/
def State.tapsInvalid (s : State) (q : Nat) : State :=
  forUpTo 256 (fun m t => t.fset (F.grfTapValid (256 * q + m)) false) s

end Sys2Proof.Machine
end

