-- ==== Sys2Proof/Machine/CabinetOps.lean ====
section
/-! DEFINITION. The Cabinet Bus star: mode tables and their checks, the guardian, frames, clock
synchronisation, channel states, the star's own frames and the Trip Relay (R358 to R391). -/

namespace Sys2Proof.Machine

/-- The channel record. -/
def State.chan (s : State) (c : Nat) : Chan := Table.get {} c s.chans

/-- Store the channel record. -/
def State.setChan (s : State) (c : Nat) (x : Chan) : State :=
  { s with chans := Table.put {} x c s.chans }

/-- The channel states of Table 13.7. -/
def cbOff : Nat := 0
def cbListen : Nat := 1
def cbColdstart : Nat := 2
def cbIntegrate : Nat := 3
def cbNormal : Nat := 4
def cbPassive : Nat := 5
def cbHalt : Nat := 6

/-- The state of channel `c`. -/
def State.cbState (s : State) (c : Nat) : Nat := s.fget (F.cbsStsState c)

/-! ### Mode tables (R366) -/

/-- Mode `m` of channel `c`. -/
def modeBase (c m : Nat) : Nat := 0xC0000 + 0x10000 * c + 0x2000 * m

/-- The mode in force. -/
def State.cbMode (s : State) (c : Nat) : Nat := modeBase c (s.fget (F.cbsStsMode c))

def State.mdMatrix (s : State) (a : Nat) : Bool := bitAt (s.rd a) 16
def State.mdCycle (s : State) (a : Nat) : Nat := bitsOf (s.rd (a + 4)) 0 17
def State.mdSlots (s : State) (a : Nat) : Nat := bitsOf (s.rd (a + 8)) 0 7
def State.mdBasic (s : State) (a : Nat) : Nat := bitsOf (s.rd (a + 8)) 8 7
def State.mdSlotLen (s : State) (a : Nat) : Nat := bitsOf (s.rd (a + 0xC)) 0 16
def State.mdMinis (s : State) (a : Nat) : Nat := bitsOf (s.rd (a + 0x10)) 0 10
def State.mdMsLen (s : State) (a : Nat) : Nat := bitsOf (s.rd (a + 0x10)) 16 8
def State.mdAp (s : State) (a : Nat) : Nat := bitsOf (s.rd (a + 0x14)) 0 6
def State.mdArb (s : State) (a n : Nat) : Nat := bitsOf (s.rd (a + 0x18 + 4 * (n / 2))) (16 * (n % 2)) 16
def State.mdStart (s : State) (a w : Nat) : Nat := bitsOf (s.rd (a + 0x40 + 8 * w)) 0 17
def State.mdLen (s : State) (a w : Nat) : Nat := bitsOf (s.rd (a + 0x44 + 8 * w)) 0 17
def State.mdOwner (s : State) (a n : Nat) : Nat := bitsOf (s.rd (a + 0x400 + 4 * (n / 4))) (8 * (n % 4)) 8

/-- The 16-bit cell at an even offset of a mode table. -/
def State.cellAt (s : State) (a o : Nat) : Nat := bitsOf (s.rd (a + o / 4 * 4)) (8 * (o % 4)) 16

/-- The cell of static slot `w`, or of matrix cell (b, w). -/
def State.mdCell (s : State) (a b w : Nat) : Nat :=
  bif s.mdMatrix a then s.cellAt a (0x1000 + 64 * b + 2 * w) else s.cellAt a (0x200 + 2 * w)

/-- Fields of a cell (Table 13.4). -/
def cellKind (x : Nat) : Nat := bitsOf x 0 2
def cellOwner (x : Nat) : Nat := bitsOf x 2 4
def cellSync (x : Nat) : Bool := bitAt x 6
def cellTrip (x : Nat) : Bool := bitAt x 7
def cellArb (x : Nat) : Nat := bitsOf x 8 3

/-! ### The checks of R367 -/

/-- The CRC of a mode, its own word taken as 0. -/
def State.modeCrc (s : State) (a : Nat) : Bool :=
  crc32c (bytesOfWords (s.words a 15 ++ [0] ++ s.words (a + 0x40) 2032)) == s.rd (a + 0x3C)

/-- Every word of a range is 0. -/
def State.zeroWords (s : State) (a n : Nat) : Bool := (s.words a n).all (· == 0)

/-- Every cell of a mode, used or not. -/
def State.allCells (s : State) (a : Nat) : List Nat :=
  (List.range 64).map (fun i => s.cellAt a (0x200 + 2 * i)) ++ (List.range 2048).map (fun i => s.cellAt a (0x1000 + 2 * i))

/-- Check 4: N_S, N_B and N_M in range for KIND. -/
def State.modeRange (s : State) (a : Nat) : Bool :=
  bif s.mdMatrix a then
    Nat.ble 1 (s.mdSlots a) && Nat.ble (s.mdSlots a) 32 && [1, 2, 4, 8, 16, 32, 64].any (· == s.mdBasic a) && s.mdMinis a == 0
  else
    Nat.ble 2 (s.mdSlots a) && Nat.ble (s.mdSlots a) 64 && s.mdBasic a == 1 && Nat.ble (s.mdMinis a) 512

/-- Check 5: reserved fields, cell kinds and minislot owners. -/
def State.modeReserved (s : State) (a : Nat) : Bool :=
  bitsOf (s.rd a) 17 15 == 0 && bitsOf (s.rd (a + 4)) 17 15 == 0 && s.rd (a + 8) &&& 0xFFFF8080 == 0
  && bitsOf (s.rd (a + 0xC)) 16 16 == 0 && s.rd (a + 0x10) &&& 0xFF00FC00 == 0 && bitsOf (s.rd (a + 0x14)) 6 26 == 0
  && s.zeroWords (a + 0x28) 5 && (s.words (a + 0x40) 64).all (fun w => Nat.blt w 0x20000)
  && s.zeroWords (a + 0x140) 48 && s.zeroWords (a + 0x280) 96 && s.zeroWords (a + 0x600) 640
  && (s.allCells a).all (fun x => cellKind x != 3 && bitsOf x 11 5 == 0)
  && (List.range 512).all (fun n => Nat.ble (s.mdOwner a n) 15 || s.mdOwner a n == 255)

/-- Check 7: lengths against the action point. -/
def State.modeLengths (s : State) (a : Nat) : Bool :=
  let least := 2 * s.mdAp a + 11
  (bif s.mdMatrix a then (List.range (s.mdSlots a)).all (fun w => Nat.ble least (s.mdLen a w)) else Nat.ble least (s.mdSlotLen a))
  && (s.mdMinis a == 0 || Nat.ble (2 * s.mdAp a) (s.mdMsLen a))

/-- Check 8: the windows fit the cycle. -/
def State.modeFits (s : State) (a : Nat) : Bool :=
  let n := s.mdSlots a
  bif s.mdMatrix a then
    (List.range (n - 1)).all (fun w => Nat.ble (s.mdStart a w + s.mdLen a w) (s.mdStart a (w + 1)))
    && Nat.ble (s.mdStart a (n - 1) + s.mdLen a (n - 1) + s.mdAp a + 10) (s.mdCycle a)
  else Nat.ble (n * s.mdSlotLen a + s.mdMinis a * s.mdMsLen a + s.mdAp a + 10) (s.mdCycle a)

/-- Check 9: an EXCLUSIVE window of spoke 0 in every cycle. -/
def State.modeOwn (s : State) (a : Nat) : Bool :=
  (List.range (s.mdBasic a)).all (fun b => (List.range (s.mdSlots a)).any (fun w =>
    cellKind (s.mdCell a b w) == 1 && cellOwner (s.mdCell a b w) == 0))

/-- The words of mode `m` with inverted check bits. -/
def State.modeSpoilt (s : State) (a : Nat) : List Nat :=
  (s.injected.map (·.1)).filter (fun k => Nat.ble a k && Nat.blt k (a + 0x2000))

/-- The code of the first failed check of mode `m` (Table 13.5); 0 when it passes. A word that cannot be read fails the
CRC. -/
def State.checkMode (s : State) (c m : Nat) : Nat :=
  let a := modeBase c m
  bif !((s.modeSpoilt a).all s.readable && s.modeCrc a) then 1
  else bif bitsOf (s.rd a) 0 16 != 1 then 2
  else bif !(Nat.ble 250 (s.mdCycle a) && Nat.ble (s.mdCycle a) 100000) then 3
  else bif !s.modeRange a then 4
  else bif !s.modeReserved a then 5
  else bif !(Nat.ble 1 (s.mdAp a) && Nat.ble (s.fget (F.cbsCtlPi c)) (s.mdAp a)) then 6
  else bif !s.modeLengths a then 7
  else bif !s.modeFits a then 8
  else bif !s.modeOwn a then 9
  else bif !(s.allCells a).all (fun x => (!cellSync x || cellKind x == 1) && (!cellTrip x || (cellKind x == 1 && cellOwner x == 0))) then 10
  else bif s.flag (F.cbsCtlNtEn c) && 1000000000 % (100 * s.mdCycle a) != 0 then 11
  else 0

/-- The mode of the table word at `a` is neither in force nor pending (R368). -/
def State.modeOpen (s : State) (a : Nat) : Bool :=
  let c := (a - 0xC0000) / 0x10000
  let m := (a - 0xC0000) % 0x10000 / 0x2000
  !((s.cbState c != cbOff && s.fget (F.cbsStsMode c) == m)
    || (s.flag (F.cbsModeStsPend c) && s.fget (F.cbsModeStsNext c) == m))

/-- A write into a mode table (R368): a mode in use does not change. -/
def State.writeMode (s : State) (a v : Nat) : State := bif s.modeOpen a then s.wr a v else s

/-! ### Windows (R369, R370) -/

/-- The basic cycle. -/
def State.cbBasic (s : State) (c : Nat) : Nat := s.fget (F.cbsStsCycle c) % Nat.max 1 (s.mdBasic (s.cbMode c))

/-- The dynamic segment. -/
def State.dynStart (s : State) (a : Nat) : Nat := s.mdSlots a * s.mdSlotLen a
def State.dynEnd (s : State) (a : Nat) : Nat := s.dynStart a + s.mdMinis a * s.mdMsLen a

/-- The cell of a window id in the current cycle; a minislot's owner stands as an EXCLUSIVE cell, and a window
that the mode does not have is FREE. -/
def State.winCell (s : State) (c id : Nat) : Nat :=
  let a := s.cbMode c
  bif Nat.ble 64 id && !s.mdMatrix a then
    bif Nat.blt (id - 64) (s.mdMinis a) && Nat.ble (s.mdOwner a (id - 64)) 15 then 1 + 4 * s.mdOwner a (id - 64) else 0
  else bif Nat.blt id (s.mdSlots a) then s.mdCell a (s.cbBasic c) id else 0

/-- The start of a window, macroticks from the cycle start. -/
def State.winStart (s : State) (c id : Nat) : Nat :=
  let a := s.cbMode c
  bif s.mdMatrix a then s.mdStart a id else bif Nat.ble 64 id then (s.chan c).msAt else id * s.mdSlotLen a

/-- The words of the mode in force that describe a window: its cell, or a minislot's owner, and a matrix column. -/
def State.winWords (s : State) (c id : Nat) : List Nat :=
  let a := s.cbMode c
  bif s.mdMatrix a then [a + (0x1000 + 64 * s.cbBasic c + 2 * id) / 4 * 4, a + 0x40 + 8 * id, a + 0x44 + 8 * id]
  else bif Nat.ble 64 id then [a + 0x400 + (id - 64) / 4 * 4] else [a + (0x200 + 2 * id) / 4 * 4]

/-- A word of the window cannot be read (R390). -/
def State.winBad (s : State) (c id : Nat) : Bool := (s.winWords c id).any (fun k => !s.readable k)

/-- The star reads the words of a window. -/
def State.touchWin (s : State) (c id : Nat) : State := eachOf (s.winWords c id) (fun k t => t.touch k 1) s

/-! ### Channel time (R363) -/

/-- The ρ with which a macrotick lasts 100 ns of network time, 2^-16 microtick (R365), before its limit. -/
def State.ntRho (s : State) : Int :=
  let r := bif s.flag F.invCtlSteer then 0 else s.curRate
  let n : Int := -(80 * 65536) * r
  let d := (256000000000 + r).toNat
  bif decide (n < 0) then -(((2 * n.natAbs + d) / (2 * d) : Nat) : Int) else (((2 * n.natAbs + d) / (2 * d) : Nat) : Int)

/-- The ρ in force: with NT_EN = 1 it follows network time at every instant (R365), else it is that of the cycle. -/
def State.cbRho (s : State) (c : Nat) : Int :=
  bif s.flag (F.cbsCtlNtEn c) then clampInt (-2621) 2621 s.ntRho else (s.chan c).rho

/-- A macrotick of the cycle, in 2^-16 microtick. -/
def State.macrotick (s : State) (c : Nat) : Nat := (5242880 + s.cbRho c).toNat

/-- RHO and NT_SAT of a channel that follows network time show what is in force (R365). -/
def State.showRate' (s : State) (c : Nat) : State :=
  s.when (s.flag (F.cbsCtlNtEn c)) fun t =>
    (t.fput (F.cbsRateRho c) (encodeSigned (t.cbRho c) 16)).fset (F.cbsStsNtSat c) (Nat.blt 2621 t.ntRho.natAbs)

/-- Microticks from the cycle start to macrotick `n`: the whole microticks of ρ are spread evenly over the cycle. -/
def State.ticksAt (s : State) (c n : Nat) : Nat := s.macrotick c * n / 65536

/-- The first macrotick that begins at or after `t` microticks. -/
def State.macroFrom (s : State) (c t : Nat) : Nat :=
  (65536 * t + s.macrotick c - 1) / Nat.max 1 (s.macrotick c)

/-- The Spine follower's counts of `t` microticks: a microtick is 1.25 ns of OSC_IN's time (R363, R364). -/
def State.tickCounts (s : State) (t : Nat) : Nat := 5 * t * s.tickUnits / 4

/-- The Spine follower's count at macrotick `n` of the cycle. -/
def State.countAt (s : State) (c n : Nat) : Nat := (s.chan c).startAt + s.tickCounts (s.ticksAt c n)

/-- Macroticks of the action point of a window. -/
def State.apMacro (s : State) (c id : Nat) : Nat := s.winStart c id + s.mdAp (s.cbMode c)

/-- The action point of a window, microticks from the cycle start. -/
def State.actionPoint (s : State) (c id : Nat) : Nat := s.ticksAt c (s.apMacro c id)

/-- Π in microticks. -/
def State.pi80 (s : State) (c : Nat) : Nat := 80 * s.fget (F.cbsCtlPi c)

/-- The length of a window; that of a minislot's turn reaches to the end of the dynamic segment. -/
def State.winLen (s : State) (a id : Nat) : Nat :=
  bif s.mdMatrix a then s.mdLen a id
  else bif Nat.ble 64 id then (s.mdMinis a - (id - 64)) * s.mdMsLen a else s.mdSlotLen a

/-- The end of the open interval of a window, microticks from the cycle start (R370, R371). -/
def State.closeAt (s : State) (c id : Nat) : Nat :=
  let a := s.cbMode c
  let fin := bif Nat.ble 64 id && !s.mdMatrix a then s.dynEnd a else s.winStart c id + s.winLen a id
  s.ticksAt c (fin + s.fget (F.cbsCtlPi c) - s.mdAp a)

/-- A window of spoke 0 holds `n` payload bytes (R370, R383): a minislot's frame must end in the segment. -/
def State.winHolds (s : State) (a id n : Nat) : Bool := Nat.ble (n + 2 * s.mdAp a + 11) (s.winLen a id)

/-- Spoke `k` is enabled. -/
def State.spokeOn (s : State) (c k : Nat) : Bool := k == 0 || bitAt (s.rd (Reg.cbsSpokeEn c)) k

/-- Spoke `k` is BLOCKED. -/
def State.spokeShut (s : State) (c k : Nat) : Bool := s.fget (F.cbsSpk1State c k) == 1

/-- The external spokes that a cell permits. -/
def State.permitted (s : State) (c x : Nat) : List Nat :=
  let l := bif cellKind x == 1 then [cellOwner x]
    else bif cellKind x == 2 then (List.range 16).filter (fun k => bitAt (s.mdArb (s.cbMode c) (cellArb x)) k) else []
  l.filter (· != 0)

/-- The guardian passes a permitted spoke: it is enabled and not BLOCKED (R358, R373). -/
def State.passes (s : State) (c k : Nat) : Bool := s.spokeOn c k && !s.spokeShut c k

/-- Spoke `k`'s transmitter drives its line (R358, R378): it is at high impedance while the spoke is disabled, the star's
domain is off or in reset, or the channel is OFF and its closing idle has ended. -/
def State.spokeDriven (s : State) (c k : Nat) : Bool :=
  k != 0 && s.ready 51 && !s.unitHeld 8 && s.spokeOn c k
  && (s.cbState c != cbOff || Nat.blt (s.folCounter 4) (s.chan c).idleTill)

/-- The enabled external spokes but one, as a mask. -/
def State.otherSpokes (s : State) (c k : Nat) : Nat :=
  ((List.range 16).filter (fun j => j != 0 && j != k && s.spokeOn c j)).foldl (fun m j => m + 2 ^ j) 0

/-! ### Channel states (R378) -/

/-- The mode in force has a TRIP window that holds `n` payload bytes. -/
def State.holdsTrip (s : State) (c n : Nat) : Bool :=
  let a := s.cbMode c
  (List.range (Nat.max 1 (s.mdBasic a))).any (fun b => (List.range (s.mdSlots a)).any (fun w =>
    cellTrip (s.mdCell a b w) && cellKind (s.mdCell a b w) == 1 && s.winHolds a w n))

/-- A trip is discarded under counter `n` (R387). -/
def State.dropTrip (s : State) (c n : Nat) : State :=
  ((s.cbsCount c n).cbsEvent c 7 c (s.cbState c) (s.fget (F.cbsStsCycle c))).corrected 49 c

/-- Store the trip queue; QUEUED follows. -/
def State.setTrips (s : State) (c : Nat) (l : List QTrip) : State :=
  (s.setChan c { s.chan c with trips := l }).fput (F.cbsTripQueued c) l.length

/-- Cancel a pending mode switch (R382). -/
def State.cancelSwitch (s : State) (c : Nat) : State :=
  s.when (s.flag (F.cbsModeStsPend c)) (fun t =>
    ((t.fset (F.cbsModeStsPend c) false).fput (F.cbsModeStsLeft c) 0).fput (F.cbsModeStsRej c) 13)

/-- A change of state: its record, and what leaving NORMAL and entering a state mean (R378, R387). -/
def State.cbEnter (s : State) (c st : Nat) : State :=
  let old := s.cbState c
  bif old == st then s
  else
    let cyc := s.fget (F.cbsStsCycle c)
    let t := (s.fput (F.cbsStsState c) st).brzEvent 0x22A 72 c st old
    let t := t.when (old == cbNormal) (fun u =>
      let v := (u.cbsEvent c 1 c st cyc).corrected 47 c
      (eachOf (v.chan c).trips (fun _ w => w.dropTrip c 13) v).setTrips c [])
    let t := t.when (st != cbNormal && st != cbPassive) (·.cancelSwitch c)
    let t := t.setChan c { t.chan c with goodRun := bif st == cbIntegrate then (t.chan c).goodRun else 0, badRun := 0, passiveFor := 0 }
    let t := t.when (st == cbNormal) (·.cbsEvent c 0 c st cyc)
    let t := t.when (st == cbPassive) (·.cbsCount c 2)
    t.when (st == cbHalt) (fun u => (u.cbsCount c 3).cbsEvent c 2 c st cyc)

/-- A channel that returns to LISTEN keeps no cycle and runs MODE_INIT again (R379). -/
def State.toListen (s : State) (c : Nat) : State :=
  let x := s.chan c
  ((s.fput (F.cbsStsMode c) (s.fget (F.cbsCtlModeInit c))).setChan c { trips := x.trips, txs := x.txs, noisy := x.noisy }).cbEnter c cbListen

/-- Strikes are taken (R372). -/
def State.strikesOn (s : State) (c : Nat) : Bool :=
  let st := s.cbState c
  st == cbIntegrate || st == cbNormal || st == cbPassive

/-- A BLOCKED spoke becomes REINT (R373). -/
def State.unblock (s : State) (c k : Nat) : State :=
  bif s.spokeShut c k then (s.fput (F.cbsSpk1State c k) 2).fput (F.cbsSpk1Strikes c k) 2 else s

/-- The host has written UNBLOCK of spoke `k` in this handshake: at this count (log entry 100). -/
def State.unblocksNow (s : State) (c k : Nat) : Bool := (s.chan c).unblocks.any (fun x => x.1 == k && x.2.1 == s.counter)

/-- The spoke was BLOCKED when the host wrote UNBLOCK in this handshake: a strike of the same handshake, which is applied
first, finds it BLOCKED and does nothing (R388). -/
def State.shutBefore (s : State) (c k : Nat) : Bool := (s.chan c).unblocks.any (fun x => x.1 == k && x.2.1 == s.counter && x.2.2)

/-- UNBLOCK (R373): the host's write is remembered for the strikes of its handshake (R388). -/
def State.hostUnblock (s : State) (c k : Nat) : State :=
  let x := s.chan c
  (s.setChan c { x with unblocks := (k, s.counter, s.spokeShut c k) :: x.unblocks.filter (fun y => y.2.1 == s.counter) }).unblock c k

/-- A strike (R372, R373): three strikes, or one in REINT, block the spoke; UNBLOCK of the same handshake follows it (R388).
`n` is its counter. -/
def State.strike (s : State) (c k n : Nat) : State :=
  bif !s.strikesOn c || s.spokeShut c k || s.shutBefore c k then s
  else
    let t := (s.spokeCount c k n).fput (F.cbsSpk1Strikes c k) (Nat.min 3 (s.fget (F.cbsSpk1Strikes c k) + 1))
    bif t.fget (F.cbsSpk1Strikes c k) != 3 then t
    else
      ((((t.fput (F.cbsSpk1State c k) 1).spokeCount c k 6).cbsEvent c 4 (16 * c + k) (t.cbState c) (t.fget (F.cbsStsCycle c))).corrected 48 c).when
        (s.unblocksNow c k) (·.unblock c k)

/-! ### The guardian (R370 to R372) -/

/-- Change the transmissions in progress. -/
def State.onTxs (s : State) (c : Nat) (f : List SpokeTx → List SpokeTx) : State :=
  s.setChan c { s.chan c with txs := f (s.chan c).txs }

/-- The relay of spoke `k`'s transmission ends after `groups` code groups, unless it has ended already; it becomes of
`kind`. -/
def State.endRelay (s : State) (c k kind groups : Nat) (mark : Bool) : State :=
  (s.onTxs c (fun l => l.map (fun x => bif x.spoke == k then { x with kind := kind, cut := some (x.cut.getD groups) } else x))).emit
    (.spokeCut c (s.otherSpokes c k) groups mark)

/-- A transmission is cut with /K30.7/ after `groups` code groups, and the spoke takes a strike under counter `n`. -/
def State.cutSpoke (s : State) (c k n groups : Nat) : State := (s.endRelay c k 2 groups true).strike c k n

/-- Code groups of a transmission with SOF at `at'` that have arrived at `t` microticks. -/
def groupsBy (at' t : Nat) : Nat := (t - at') / 80

/-- The open interval ends (R370): relayed transmissions still in progress are cut, and an EXCLUSIVE window in
which the owner sent nothing counts in EMPTY. A minislot without SOF hands on to the next id. -/
def State.guardClose' (s : State) (c : Nat) : State :=
  let x := s.chan c
  bif x.win == 0 then s
  else
    let id := x.win - 1
    let a := s.cbMode c
    let t := eachOf (x.txs.filter (fun y => y.kind == 0 && x.open'.any (· == y.spoke)))
      (fun y u => u.cutSpoke c y.spoke 3 (groupsBy y.at' (s.closeAt c id))) s
    let t := t.when (x.owner != 0 && !x.sent) (·.spokeCount c x.owner 2)
    let mini := Nat.ble 64 id && !s.mdMatrix a
    t.setChan c { t.chan c with
      win := 0, open' := [], winner := 0, wonAt := 0, owner := 0, sent := false
      msNext := bif mini then x.msNext + 1 else x.msNext, msAt := bif mini then x.msAt + s.mdMsLen a else x.msAt }

/-- The spokes that a window permits: the leader alone in COLDSTART, none outside the running states (R370, R380). One
that is enabled or unblocked while the interval runs is open from then on (R373). -/
def State.toOpen (s : State) (c id : Nat) : List Nat :=
  let l := s.permitted c (s.winCell c id)
  bif s.strikesOn c then l
  else bif s.cbState c == cbColdstart then l.filter (· == s.fget (F.cbsStsLeader c)) else []

/-- The external spoke whose silence in an EXCLUSIVE window counts in EMPTY (R372), BLOCKED or not; 0 for none. -/
def State.emptyOwner (s : State) (c id : Nat) : Nat :=
  let x := s.winCell c id
  let k := cellOwner x
  bif cellKind x == 1 && (s.mdMatrix (s.cbMode c) || Nat.blt id 64) && s.spokeOn c k
      && (s.strikesOn c || (s.cbState c == cbColdstart && s.fget (F.cbsStsLeader c) == k)) then k else 0

/-- GUARDIAN_OPEN (R370, R372): the open interval of a window begins; a transmission already in progress on an
opened spoke is EARLY. `bad` says that the window's mode table word cannot be read: it acts as FREE (R390). -/
def State.guardOpen (s : State) (c id : Nat) (bad : Bool) : State :=
  let s := s.guardClose' c
  let x := s.chan c
  let a := s.cbMode c
  let mini := Nat.ble 64 id && !s.mdMatrix a
  bif mini && (id - 64 != x.msNext || Nat.ble (s.dynEnd a) x.msAt) then s
  else
    let free := bad || s.winBad c id
    let l := bif free then [] else s.toOpen c id
    let own := bif free then 0 else s.emptyOwner c id
    let t := (s.touchWin c id).setChan c { x with
      win := id + 1, open' := l, winner := 0, wonAt := 0, owner := own, sent := x.txs.any (fun y => y.spoke == own) }
    eachOf ((x.txs.filter (fun y => l.any (· == y.spoke) && s.passes c y.spoke)).map (·.spoke)) (fun k u => u.cutSpoke c k 4 0) t

/-! ### Transmissions (R359, R371, R379) -/

/-- A start frame's SOF, `at'` microticks after the cycle start, is relayed in LISTEN (R379): its sender leads and
COLDSTART begins in cycle 0, which began at the count `start`. A start frame of the star's own that is due stays due for
the same microtick. -/
def State.takeLead (s : State) (c k at' start : Nat) : State :=
  let x := s.chan c
  let t := s.setChan c { x with
    lead := x.lead && !x.first && k != 0, first := false, synced := [], devs := [], devsEven := [], ownSync := false, led := false
    startAt := start, rho := signedOf (s.fget (F.cbsRateRho c)) 16, leadAt := at', leadTick := some (s.folCounter 4) }
  (((t.fput (F.cbsStsLeader c) k).fput (F.cbsStsCycle c) 0).showRate' c).cbEnter c cbColdstart

/-- An SOF at `at'` microticks meets the leader's start frame in one microtick. -/
def State.tiesLead (s : State) (c at' : Nat) : Bool :=
  let x := s.chan c
  s.cbState c == cbColdstart && s.fget (F.cbsStsCycle c) == 0 && x.leadAt == at'
  && x.leadTick.any (fun t => Nat.ble (s.folCounter 4) (t + s.tickCounts 1))

/-- Transmissions relayed so far are relayed no more: another start frame of their microtick is (R379). -/
def State.dropRelays (s : State) (c : Nat) : State :=
  s.onTxs c (fun l => l.map (fun y => bif y.kind == 0 then { y with kind := 4 } else y))

/-- Another transmission is relayed on the channel. -/
def State.relaying (s : State) (c : Nat) : Bool := (s.chan c).txs.any (fun x => x.kind == 0)

/-- A start frame of spoke `k` may be relayed in LISTEN. -/
def State.mayLead (s : State) (c k : Nat) (start : Bool) : Bool :=
  start && s.flag (F.cbsSpk0Cs c k) && !s.flag (F.cbsCtlNtEn c) && !s.spokeShut c k

/-- How an SOF is taken in LISTEN, or in the microtick that ended it: the first start frame of a coldstart node is
relayed, the lowest spoke first among SOFs of one microtick. -/
def State.listenKind (s : State) (c k at' : Nat) (start : Bool) : Nat :=
  bif s.mayLead c k start && (bif s.cbState c == cbListen then !s.relaying c
      else s.tiesLead c at' && Nat.blt k (s.fget (F.cbsStsLeader c))) then 0 else 4

/-- How an SOF is taken in a running state: 0 relayed, 1 lost arbitration, 3 outside. -/
def State.windowKind (s : State) (c k at' : Nat) : Nat :=
  let x := s.chan c
  let id := x.win - 1
  bif x.win == 0 || !x.open'.any (· == k) || !s.passes c k then 3
  else bif cellKind (s.winCell c id) == 2 && x.winner != k + 1 then
    bif Nat.blt (s.ticksAt c (s.apMacro c id + s.fget (F.cbsCtlPi c))) at' then 3
    else bif x.winner == 0 || (x.wonAt == at' && Nat.blt k (x.winner - 1)) then 0 else 1
  else 0

/-- CB_SOF_ARRIVAL: an SOF arrives on spoke `k`, `at'` microticks after the cycle start; `start` says that its
header opens a start frame. -/
def State.sofArrives (s : State) (c k at' : Nat) (start : Bool) : State :=
  bif !s.spokeOn c k || k == 0 || s.cbState c == cbOff || (s.chan c).txs.any (fun x => x.spoke == k) then s
  else
    let y := s.chan c
    let s := s.setChan c { y with noisy := k :: y.noisy, sent := y.sent || y.owner == k }
    let st := s.cbState c
    let x := s.chan c
    let add := fun (t : State) (w kind : Nat) =>
      t.onTxs c (fun l => l ++ [{ spoke := k, at' := at', win := w, kind := kind, from' := s.folCounter 4 }])
    bif st == cbListen || s.tiesLead c at' then
      bif s.listenKind c k at' start == 0 then add ((s.dropRelays c).takeLead c k at' (s.folCounter 4)) 0 0 else add s 0 4
    else bif st == cbColdstart then
      bif s.windowKind c k at' == 0 && !s.spokeShut c k then add s x.win 0 else add (s.cbsCount c 17) 0 4
    else bif s.spokeShut c k || st == cbHalt then add s 0 4
    else match s.windowKind c k at' with
    | 0 =>
      let lost := x.winner != 0 && x.winner != k + 1
      let t := bif lost then (s.onTxs c (fun l => l.map (fun y => bif y.spoke == x.winner - 1 then { y with kind := 1 } else y))).spokeCount c (x.winner - 1) 7 else s
      add (t.setChan c { t.chan c with winner := k + 1, wonAt := bif x.winner == k + 1 then x.wonAt else at' }) x.win 0
    | 1 => add (s.spokeCount c k 7) x.win 1
    | _ => add s 0 3

/-! ### Frames (R361, R362) -/

/-- CRC-24 of the Cabinet Bus. -/
def cbCrc (l : List Nat) : Nat := crcForward 0x5D6DCB 24 0xFFFFFF l

/-- Fields of a frame's bytes (Table 13.1). -/
def cbSyncBit (l : List Nat) : Bool := bitAt (l.getD 0 0) 7
def cbStartBit (l : List Nat) : Bool := bitAt (l.getD 0 0) 6
def cbNullBit (l : List Nat) : Bool := bitAt (l.getD 0 0) 5
def cbTripBit (l : List Nat) : Bool := bitAt (l.getD 0 0) 4
def cbId (l : List Nat) : Nat := 256 * bitsOf (l.getD 1 0) 0 2 + l.getD 2 0
def cbCycleOf (l : List Nat) : Nat := bitsOf (l.getD 3 0) 0 6
def cbLen (l : List Nat) : Nat := bitsOf (l.getD 4 0) 0 7

/-- A frame's own form: CRC, LEN, reserved bits, NULL, SENDER (R362). -/
def cbWellFormed (k : Nat) (l : List Nat) : Bool :=
  l.length == cbLen l + 9 && Nat.ble (cbLen l) 64 && cbCrc (l.take (l.length - 3)) == beNat (l.drop (l.length - 3))
  && bitsOf (l.getD 1 0) 2 3 == 0 && bitsOf (l.getD 3 0) 6 2 == 0 && !bitAt (l.getD 4 0) 7
  && (!cbNullBit l || cbLen l == 0) && bitsOf (l.getD 0 0) 0 4 == k

/-- MODE, ID and CYCLE match the schedule; a start frame must name a SYNC cell of its sender in cycle 0
(R362, R379). -/
def State.cbMatches (s : State) (c k : Nat) (x : SpokeTx) (l : List Nat) : Bool :=
  bitsOf (l.getD 1 0) 5 3 == s.fget (F.cbsStsMode c) && cbCycleOf l == s.fget (F.cbsStsCycle c)
  && (bif x.win == 0 then
        let y := s.winCell c (cbId l)
        cbStartBit l && cbSyncBit l && cellKind y == 1 && cellOwner y == k && cellSync y
      else cbId l == x.win - 1)

/-- Fill a CB_RX entry (Table 13.9), or starve (R385). A ring that is not enabled drops the frame (R231); an engine that is
in reset takes none. -/
def State.cbDeliver (s : State) (c k : Nat) (l : List Nat) (ns : Nat) : State :=
  let r := 2313 + 2 * c
  bif !s.ready 47 || s.unitHeld 6 then s
  else bif !s.flag (F.ringStsRun r) then s.ringCount r 5
  else match (s.ring r).entries.find? (fun e => e.kind == 5 && !e.done && !e.begun) with
  | none => s.ringStarve r
  | some e =>
    let w1 := k + 2 ^ 4 * bit (cbSyncBit l) + 2 ^ 5 * bit (cbStartBit l) + 2 ^ 8 * cbId l + 2 ^ 18 * cbCycleOf l + 2 ^ 24 * cbLen l
    let body := padTo 64 ((l.drop 6).take (cbLen l))
    let words := (List.range 16).map (fun i => leNat ((body.drop (4 * i)).take 4))
    (s.ringWrite r (s.unitAddr r e.pos + 4) ([w1, fsNs ns, fsSec ns] ++ words)).entriesDone r [e.pos]

/-- A valid sync frame's deviation (R374). -/
def State.cbSync (s : State) (c k : Nat) (x : SpokeTx) (l : List Nat) : State :=
  let id := cbId l
  let y := s.winCell c id
  bif !(cbSyncBit l && cellKind y == 1 && cellSync y && Nat.blt id 64) then s
  else
    let lead := k == s.fget (F.cbsStsLeader c)
    let s := s.setChan c { s.chan c with led := (s.chan c).led || lead }
    bif !s.flag (F.cbsSpk0Sync c k) then s
    else
      let d : Int := bif x.win == 0 then 0 else (x.at' : Int) - (s.actionPoint c id : Int)
      let t := s.fput (F.cbsSpk1Dev c k) (encodeSigned d 16)
      let x := t.chan c
      bif t.flag (F.cbsCtlNtEn c) then t.cbsCount c 6
      else bif x.synced.any (· == k) then t
      else t.setChan c { x with
        synced := k :: x.synced, devs := bif Nat.blt (t.pi80 c) d.natAbs then x.devs else x.devs ++ [(k, d)] }

/-- A minislot's frame has ended by macrotick `e`: the next id starts at the first boundary at least AP later,
and its owner closes (R371). -/
def State.miniEnd (s : State) (c e : Nat) : State :=
  let a := s.cbMode c
  let x := s.chan c
  let e := e + s.mdAp a
  let m := Nat.max 1 (s.mdMsLen a)
  let next := s.dynStart a + (e - s.dynStart a + m - 1) / m * m
  s.setChan c { x with win := 0, open' := [], winner := 0, wonAt := 0, owner := 0, sent := false, msNext := x.msNext + 1, msAt := next }

/-- Judge and deliver a frame that was relayed whole. -/
def State.cbValid (s : State) (c k : Nat) (x : SpokeTx) (l : List Nat) (sofNs : Nat) : State :=
  let t := (s.spokeCount c k 0).cbSync c k x l
  let st := t.cbState c
  t.when (!cbNullBit l && !cbTripBit l && t.flag (F.cbsSpk0Rxf c k) && (st == cbNormal || st == cbPassive)) (·.cbDeliver c k l sofNs)

/-- The control codes of a frame (R360). -/
def cbSof : Nat := 0x1FB
def cbEof : Nat := 0x1FD

/-- The code groups after SOF run to EOF, data alone between (R362). -/
def cbWhole (l : List Nat) : Bool := l.getLast? == some cbEof && l.dropLast.all (fun x => Nat.blt x 256)

/-- The code groups of a transmission that the star has relayed are shown when its end is known. -/
def State.showRelay (s : State) (c : Nat) (x : SpokeTx) (groups : List Nat) : State :=
  bif x.kind == 0 then s.emit (.spoke c (s.otherSpokes c x.spoke) (cbSof :: groups))
  else match x.cut with
  | some (n + 1) => s.emit (.spoke c (s.otherSpokes c x.spoke) (cbSof :: groups.take n))
  | _ => s

/-- A transmission relayed to its end: the spoke has no strikes and is OPEN again (R372, R373). -/
def State.relayedWhole (s : State) (c k : Nat) : State :=
  (s.fput (F.cbsSpk1Strikes c k) 0).when (s.fget (F.cbsSpk1State c k) == 2) (·.fput (F.cbsSpk1State c k) 0)

/-- A valid start frame fixes where cycle 0 began: its SOF arrived at S + AP of its ID (R379). -/
def State.fixCycle (s : State) (c : Nat) (x : SpokeTx) (id : Nat) : State :=
  s.setChan c { s.chan c with startAt := x.from' - s.tickCounts (s.actionPoint c id) }

/-- CB_FRAME_END (R362, R372): the transmission of spoke `k` ends at `at'` microticks; `groups` are its code groups
after SOF, EOF included. A disabled spoke's receiver is ignored (R358). -/
def State.cbFrameEnd (s : State) (c k at' : Nat) (groups : List Nat) : State :=
  match (s.chan c).txs.find? (fun x => x.spoke == k) with
  | none => s
  | some x =>
    let t := (s.onTxs c (fun m => m.filter (fun y => y.spoke != k))).showRelay c x groups
    bif !s.spokeOn c k || s.cbState c == cbOff then t
    else
      let l := groups.dropLast
      let codeErr := groups.any (fun g => Nat.ble 512 g)
      let good := x.kind == 0 && cbWhole groups && cbWellFormed k l && s.cbMatches c k x l
      let start := x.kind == 0 && x.win == 0
      let t := t.when (x.kind == 0) (·.relayedWhole c k)
      let t := bif good then (t.when start (·.fixCycle c x (cbId l))).cbValid c k x l (x.from' / nsUnit)
        else t.spokeCount c k (bif codeErr then 8 else 1)
      let t := t.when (x.kind == 3) (·.strike c k 5)
      let t := t.when (start && !good && t.cbState c == cbColdstart) (fun u => (u.cbsCount c 5).toListen c)
      t.when (x.kind == 0 && Nat.ble 65 x.win && (t.chan c).win == x.win && !t.mdMatrix (t.cbMode c))
        (fun u => u.miniEnd c (u.macroFrom c at'))

/-! ### Clock synchronisation (R374 to R377) -/

/-- Insert in ascending order. -/
def insertInt (x : Int) : List Int → List Int
  | [] => [x]
  | y :: r => bif decide (x < y) then x :: y :: r else y :: insertInt x r

/-- The middle of the values after dropping the k highest and lowest (R375), rounded toward zero. -/
def middle (l : List Int) : Int :=
  let v := l.foldl (fun a x => insertInt x a) []
  let n := v.length
  let k := bif Nat.blt n 3 then 0 else bif Nat.blt n 8 then 1 else 2
  let w := (v.drop k).take (n - 2 * k)
  (w.getD 0 0 + w.getD (w.length - 1) 0).tdiv 2

/-- The deviations used, the star's own 0 included (R374). -/
def State.devSet (s : State) (c : Nat) : List (Nat × Int) :=
  let x := s.chan c
  bif s.flag (F.cbsCtlSyncNode c) && x.ownSync then (0, 0) :: x.devs else x.devs

/-- MIN_SYNC in force (R377). -/
def State.minSync (s : State) (c : Nat) : Nat := bif s.flag (F.cbsCtlNtEn c) then 1 else s.fget (F.cbsCfgMinSync c)

/-- The rate correction after an odd cycle (R376). -/
def State.cbRate (s : State) (c : Nat) : State :=
  let x := s.chan c
  let odd := s.devSet c
  let ds := x.devsEven.filterMap (fun e => (odd.find? (fun o => o.1 == e.1)).map (fun o =>
    bif e.1 == 0 then (0 : Int) else o.2 - e.2 + x.midEven))
  bif Nat.blt ds.length (s.minSync c) then s
  else
    let n : Int := 65536 * middle ds
    let d := Nat.max 1 (s.mdCycle (s.cbMode c))
    let q : Int := bif decide (n < 0) then -(((2 * n.natAbs + d) / (2 * d) : Nat) : Int) else (((2 * n.natAbs + d) / (2 * d) : Nat) : Int)
    let raw := signedOf (s.fget (F.cbsRateRho c)) 16 + q
    let t := s.fput (F.cbsRateRho c) (encodeSigned (clampInt (-2621) 2621 raw) 16)
    t.when (Nat.blt 2621 raw.natAbs) (·.cbsCount c 8)

/-- With NT_EN = 1 (R365): ρ makes a macrotick 100 ns of network time, and the NIT moves the next cycle start
toward the grid by at most NT_SLEW microticks. -/
def State.cbFollow (s : State) (c : Nat) : State :=
  let t := s.showRate' c
  let len := 100 * Nat.max 1 (t.mdCycle (t.cbMode c))
  let off := ((t.chan c).startAt / nsUnit + len - t.fget (F.cbsNtPhasePhase c) % len) % len
  let err : Int := bif Nat.ble (2 * off) len then -(off : Int) else (len : Int) - off
  let m : Int := (t.fget (F.cbsCfgNtSlew c) : Int)
  t.fput (F.cbsOfsMid c) (encodeSigned (clampInt (-m) m ((4 * err).tdiv 5)) 16)

/-- The end of a cycle's synchronisation: runs of good and bad cycles and what they mean (R377, R378). -/
def State.cbJudge (s : State) (c : Nat) (bad : Bool) : State :=
  let x := s.chan c
  let t := s.setChan c { x with
      badRun := bif bad then x.badRun + 1 else 0, goodRun := bif bad then 0 else x.goodRun + 1
      passiveFor := bif s.cbState c == cbPassive then x.passiveFor + 1 else 0 }
  let t := t.when bad (·.cbsCount c 1)
  let y := t.chan c
  bif s.cbState c == cbNormal && Nat.ble (s.fget (F.cbsCfgNosyncMax c)) y.badRun then t.cbEnter c cbPassive
  else bif s.cbState c == cbPassive && Nat.ble 8 y.goodRun then t.cbEnter c cbNormal
  else bif s.cbState c == cbPassive && Nat.ble (s.fget (F.cbsCfgPassiveMax c)) y.passiveFor then t.cbEnter c cbHalt
  else bif s.cbState c == cbColdstart && !x.led && !(s.fget (F.cbsStsLeader c) == 0 && x.ownSync) then t.toListen c
  else t

/-- CB_NIT_START (R375 to R377). -/
def State.nitStart (s : State) (c : Nat) : State :=
  let st := s.cbState c
  bif Nat.blt st cbColdstart || Nat.blt cbPassive st then s
  else
    let s := s.guardClose' c
    let v := s.devSet c
    let mid := middle (v.map (·.2))
    let s := s.fput (F.cbsStsSyncN c) v.length
    bif s.flag (F.cbsCtlNtEn c) then (s.cbFollow c).cbJudge c (!(s.chan c).ownSync)
    else
      let out := Nat.blt (s.pi80 c) mid.natAbs
      let bad := Nat.blt v.length (s.minSync c) || out
      let app : Int := bif bad then 0 else mid
      let t := (s.fput (F.cbsOfsMid c) (encodeSigned app 16)).when out (·.cbsCount c 7)
      let t := bif s.fget (F.cbsStsCycle c) % 2 == 0 then t.setChan c { t.chan c with devsEven := v, midEven := app } else t.cbRate c
      t.cbJudge c bad

/-! ### Cycles, start-up and mode change (R363, R378 to R382) -/

/-- Show SWITCH_IN: a distance above 31 has no stated code (R382). -/
def State.showLeft (s : State) (c n : Nat) : State :=
  let t := s.setChan c { s.chan c with left := n }
  bif Nat.blt 31 n then (t.fput (F.cbsModeStsLeft c) (t.freeVal 5)).useFree else t.fput (F.cbsModeStsLeft c) n

/-- Spokes BLOCKED whose line has been idle for the whole cycle become REINT (R373). -/
def State.reintegrate (s : State) (c : Nat) : State :=
  forUpTo 16 (fun k t => t.when (k != 0 && !(s.chan c).noisy.any (· == k)) (·.unblock c k)) s

/-- CB_CYCLE_START (R363, R378): `bad` says that a channel state word cannot be read: HALT (R390). -/
def State.cbCycleStart (s : State) (c : Nat) (bad : Bool) : State :=
  let st := s.cbState c
  bif bad && st != cbOff then s.cbEnter c cbHalt
  else bif !(s.strikesOn c || st == cbColdstart || (st == cbListen && (s.chan c).first)) then s
  else
    let s := (s.guardClose' c).reintegrate c
    let x := s.chan c
    let n := bif x.first then 0 else (s.fget (F.cbsStsCycle c) + 1) % 64
    let a := s.cbMode c
    let t := (s.fput (F.cbsStsCycle c) n).cbsCount c 0
    let t := t.setChan c { x with
      synced := [], devs := [], ownSync := false, led := false, lead := x.lead && st != cbColdstart, first := false
      msNext := 0, msAt := s.dynStart a, noisy := x.txs.map (·.spoke)
      startAt := s.folCounter 4, rho := signedOf (s.fget (F.cbsRateRho c)) 16 }
    let t := (t.showRate' c).when (t.flag (F.cbsModeStsPend c) && Nat.blt 0 x.left) (·.showLeft c (x.left - 1))
    bif st == cbColdstart && n == 4 then t.cbEnter c cbIntegrate
    else bif st == cbIntegrate && n == 8 then
      bif Nat.ble 2 x.goodRun then t.cbEnter c cbNormal
      else ((t.cbsCount c 4).cbsEvent c 3 c cbListen n).toListen c
    else t

/-- CB_LISTEN_TIMEOUT (R379): the star becomes the leader of its own start. -/
def State.listenTimeout (s : State) (c : Nat) : State :=
  bif s.cbState c == cbListen && s.flag (F.cbsCtlCsEn c) && !s.relaying c then
    s.setChan c { s.chan c with lead := true, first := true } else s

/-- CB_HALT_TIMEOUT (Table 13.7). -/
def State.haltTimeout (s : State) (c : Nat) : State :=
  bif s.cbState c == cbHalt && s.flag (F.cbsCtlAutoRestart c) then s.toListen c else s

/-- How many cycle starts ahead the switch falls (R382). -/
def switchAhead (cycle basic : Nat) : Nat → Nat → Nat
  | 0, k => k
  | n + 1, k => bif (cycle + k) % 2 == 0 && (cycle + k) % 64 % basic == 0 then k else switchAhead cycle basic n (k + 1)

/-- Code groups that have left of a transmission whose SOF was at the count `from'`. -/
def State.groupsSince (s : State) (from' : Nat) : Nat := (s.folCounter 4 - from') / Nat.max 1 (s.tickCounts 80)

/-- The frame in progress ends: its own, whose SOF leaves at a count of its own, and those that it relays. With `mark`
/K30.7/ ends them; else the line is let go. What remains of a transmission on a spoke is ignored. -/
def State.endFrames (s : State) (c : Nat) (mark : Bool) : State :=
  let x := s.chan c
  let t := eachOf (x.txs.filter (fun y => y.kind == 0)) (fun y u => u.endRelay c y.spoke 4 (u.groupsSince y.from') mark) s
  let t := match x.own with
    | some (sof, n) => bif Nat.blt (s.groupsSince sof) n then t.emit (.spokeCut c (t.otherSpokes c 0) (s.groupsSince sof) mark) else t
    | none => t
  t.setChan c { trips := x.trips, txs := (t.chan c).txs.map (fun y => { y with kind := 4 }) }

/-- The channel leads to OFF (R378): frames in progress end with /K30.7/, idle follows for 1 µs, then high impedance. -/
def State.goOff (s : State) (c : Nat) : State :=
  let t := (s.endFrames c true).cbEnter c cbOff
  t.when (s.cbState c != cbOff) (fun u => u.setChan c { u.chan c with idleTill := u.folCounter 4 + 1000 * u.tickUnits })

/-- A write of CBS_CTL (R378). -/
def State.writeCbCtl (s : State) (c w : Nat) : State :=
  let was := s.flag (F.cbsCtlEn c)
  let t := s.store (Reg.cbsCtl c) w
  bif t.flag (F.cbsCtlEn c) == was then t
  else bif was then t.goOff c
  else
    let m := t.fget (F.cbsCtlModeInit c)
    let code := t.checkMode c m
    let t := (eachOf (t.modeSpoilt (modeBase c m)) (fun k u => u.touch k 1) t).fput (F.cbsStsErr c) code
    bif code != 0 then t else ((t.fput (F.cbsStsMode c) m).setChan c { txs := (t.chan c).txs }).showRate' c |>.cbEnter c cbListen

/-- A write of CBS_SPOKE_EN (R358): the relay of a spoke that is disabled ends, as nothing more of it is received. -/
def State.writeSpokeEn (s : State) (c w : Nat) : State :=
  let t := s.store (Reg.cbsSpokeEn c) w
  eachOf ((s.chan c).txs.filter (fun y => y.kind == 0 && !t.spokeOn c y.spoke))
    (fun y u => u.endRelay c y.spoke 4 (u.groupsSince y.from') false) t

/-- A write of CBS_MODE_REQ (R382). -/
def State.writeModeReq (s : State) (c w : Nat) : State :=
  bif !bitAt w 31 then s
  else
    let m := bitsOf w 0 3
    let st := s.cbState c
    let n := s.fget (F.cbsStsCycle c)
    let code := bif s.flag (F.cbsModeStsPend c) || !(st == cbNormal || st == cbPassive) || m == s.fget (F.cbsStsMode c) then 12
      else s.checkMode c m
    let s := s.when (code != 12) (fun t => eachOf (t.modeSpoilt (modeBase c m)) (fun k u => u.touch k 1) t)
    bif code != 0 then (s.fput (F.cbsModeStsRej c) code).cbsEvent c 6 c st n
    else
      let b := bif s.mdMatrix (s.cbMode c) then Nat.max 1 (s.mdBasic (s.cbMode c)) else 1
      ((s.fput (F.cbsModeStsNext c) m).fset (F.cbsModeStsPend c) true).showLeft c (switchAhead n b 128 (clampNat 2 31 (bitsOf w 4 5)))

/-- The ID names a window of spoke 0 in the mode in force that holds `len` bytes and is no TRIP window (R384). -/
def State.cbWindowOk (s : State) (c id len : Nat) : Bool :=
  let a := s.cbMode c
  s.winHolds a id len &&
  (bif Nat.ble 64 id && !s.mdMatrix a then Nat.blt (id - 64) (s.mdMinis a) && s.mdOwner a (id - 64) == 0
   else Nat.blt id (s.mdSlots a) && (List.range (Nat.max 1 (s.mdBasic a))).any (fun b =>
     let x := s.mdCell a b id
     (cellKind x == 1 && cellOwner x == 0 && !cellTrip x) || (cellKind x == 2 && bitAt (s.mdArb a (cellArb x)) 0)))

/-- ID and LEN of a CB_TX entry (Table 13.8). -/
def cbTxId (e : RingEntry) : Nat := bitsOf (e.words.getD 1 0) 0 10
def cbTxLen (e : RingEntry) : Nat := bitsOf (e.words.getD 1 0) 16 7

/-- Complete CB_TX entries that have no window (R384). -/
def State.dropNoWindow (s : State) (c : Nat) : State :=
  let r := 2312 + 2 * c
  eachOf ((s.ring r).entries.filter (fun e => e.kind == 4 && !e.done && !e.begun && !s.cbWindowOk c (cbTxId e) (cbTxLen e)))
    (fun e t => (t.txWriteback r e 2 0 0 0).entriesDone r [e.pos]) s

/-- CB_MODE_SWITCH (R382). -/
def State.modeSwitch (s : State) (c : Nat) : State :=
  bif !(s.flag (F.cbsModeStsPend c) && Nat.ble (s.chan c).left 1) then s
  else
    let t := ((s.fset (F.cbsModeStsPend c) false).showLeft c 0).fput (F.cbsStsMode c) (s.fget (F.cbsModeStsNext c))
    let t := ((t.cbsCount c 9).cbsEvent c 5 c (t.cbState c) (t.fget (F.cbsStsCycle c))).dropNoWindow c
    let x := t.chan c
    let t := t.setChan c { x with msAt := t.dynStart (t.cbMode c) }
    let late := x.trips.filter (fun q => !t.holdsTrip c q.bytes.length)
    (eachOf late (fun _ u => u.dropTrip c 16) t).setTrips c (x.trips.filter (fun q => t.holdsTrip c q.bytes.length))

/-! ### The Trip Relay (R386, R387) -/

/-- TRIP_ENQUEUE: a verified trip reaches channel `c`. -/
def State.tripArrives (s : State) (c : Nat) (l : List Nat) : State :=
  bif s.cbState c != cbNormal then s.dropTrip c 13
  else bif Nat.ble 8 (s.chan c).trips.length then s.dropTrip c 14
  else bif !s.holdsTrip c l.length then s.dropTrip c 16
  else s.setTrips c ((s.chan c).trips ++ [{ bytes := l, at' := s.folCounter 4 }])

/-- At the start `S` of a TRIP window the trip has waited longer than MAX_AGE. -/
def State.stale (s : State) (c start : Nat) (q : QTrip) : Bool :=
  s.fget (F.cbsTripMaxAge c) != 0 && Nat.blt (1000 * s.fget (F.cbsTripMaxAge c) * nsUnit) (start - q.at')

/-- Walk the queue at the TRIP window `id` that starts at the count `start`: of the trips queued before it, stale ones on
the way are discarded and the first that fits is taken; one queued in the handshake of the start waits (R386 to R388).
Gives the trip, those that stay, and how many were stale. -/
def State.pickTrip (s : State) (c id start : Nat) : List QTrip → Option QTrip × List QTrip × Nat
  | [] => (none, [], 0)
  | q :: r =>
    let queued := Nat.blt q.at' (Nat.min start (s.folCounter 4))
    bif queued && s.stale c start q then
      let y := s.pickTrip c id start r
      (y.1, y.2.1, y.2.2 + 1)
    else bif queued && s.winHolds (s.cbMode c) id q.bytes.length then (some q, r, 0)
    else
      let y := s.pickTrip c id start r
      (y.1, q :: y.2.1, y.2.2)

/-! ### The star's own frames (R383) -/

/-- The bytes of an own frame of window `id`. -/
def State.ownBytes (s : State) (c id : Nat) (sync start null trip : Bool) (body : List Nat) : List Nat :=
  let left := (s.chan c).left
  let h := [128 * bit sync + 64 * bit start + 32 * bit null + 16 * bit trip, 32 * s.fget (F.cbsStsMode c) + id / 256, id % 256,
    s.fget (F.cbsStsCycle c), body.length,
    bif left == 0 then 0 else 32 * s.fget (F.cbsModeStsNext c) + s.fget (F.cbsModeStsLeft c)] ++ body
  h ++ beBytes 3 (cbCrc h)

/-- The count at which an own frame's SOF leaves the star: S + AP + 3 macroticks (R383). -/
def State.ownSof (s : State) (c id : Nat) : Nat := s.countAt c (s.apMacro c id + 3)

/-- Send an own frame to every enabled external spoke. -/
def State.sendOwn (s : State) (c id : Nat) (sync start null trip : Bool) (body : List Nat) : State :=
  let t := s.emit (.spoke c (s.otherSpokes c 0) (cbSof :: (s.ownBytes c id sync start null trip body ++ [cbEof])))
  (t.setChan c { t.chan c with ownSync := (t.chan c).ownSync || sync, own := some (s.ownSof c id, 11 + body.length) }).when null
    (·.cbsCount c 11)

/-- The oldest accepted, uncompleted CB_TX entry of a window. -/
def State.ownEntry (s : State) (c id : Nat) : Option RingEntry :=
  (s.ring (2312 + 2 * c)).entries.find? (fun e => e.kind == 4 && !e.done && !e.begun && cbTxId e == id)

/-- Send an entry (R383, R384). -/
def State.sendEntry (s : State) (c id : Nat) (sync : Bool) (e : RingEntry) : State :=
  let r := 2312 + 2 * c
  let sof := s.ownSof c id / nsUnit
  let body := (bytesOfWords (e.words.drop 4)).take (cbTxLen e)
  let t := (s.sendOwn c id sync false false false body).cbsCount c 10
  (t.txWriteback r e 0 0 (fsNs sof) (fsSec sof)).entriesDone r [e.pos]

/-- A TRIP window in NORMAL (R386); `badTrip` says that the taken trip's queue word cannot be read (R390). -/
def State.tripWindow (s : State) (c id : Nat) (sync badTrip : Bool) : State :=
  let y := s.pickTrip c id (s.countAt c (s.winStart c id)) (s.chan c).trips
  let t := (forUpTo y.2.2 (fun _ u => u.dropTrip c 15) s).setTrips c y.2.1
  match y.1 with
  | none => t.sendOwn c id sync false true false []
  | some q =>
    bif badTrip then (t.dropTrip c 14).sendOwn c id sync false true false []
    else ((t.sendOwn c id sync false false true q.bytes).cbsCount c 12).brzEvent 0x22B 72 c (fsNs (q.at' / nsUnit))
      (fsNs (s.ownSof c id / nsUnit))

/-- The arbitration of an ARBITRATING window, in which spoke 0 arrives at the action point (R371): it loses to an
earlier SOF and wins against one of the same microtick. -/
def State.arbOwn (s : State) (c id : Nat) (e : RingEntry) : State :=
  let x := s.chan c
  let won := bif x.win == id + 1 then x.winner else 0
  bif won == 1 || (won != 0 && Nat.blt x.wonAt (s.actionPoint c id)) then s
  else
    let t := bif won == 0 then s
      else (s.onTxs c (fun l => l.map (fun y => bif y.spoke == x.winner - 1 then { y with kind := 1 } else y))).spokeCount c (x.winner - 1) 7
    (t.setChan c { t.chan c with winner := 1, wonAt := s.actionPoint c id }).sendEntry c id false e

/-- A minislot of spoke 0: the entry waits when its EOF + AP would pass D1 (R383). -/
def State.miniOwn (s : State) (c id : Nat) (e : RingEntry) : State :=
  let a := s.cbMode c
  let x := s.chan c
  let eof := x.msAt + s.mdAp a + 11 + cbTxLen e
  bif id - 64 != x.msNext || Nat.blt (s.dynEnd a) (eof + s.mdAp a) then s
  else (s.sendEntry c id false e).miniEnd c eof

/-- The star's own start frame, whose SOF counts as arriving at S + AP (R379): it loses to an earlier start frame, and
against one of the same microtick spoke 0 is the lowest. -/
def State.ownStart (s : State) (c id : Nat) : State :=
  let ap := s.actionPoint c id
  bif !(s.chan c).lead || (s.chan c).first then s
  else bif s.cbState c == cbListen then (s.takeLead c 0 ap (s.chan c).startAt).sendOwn c id true true true false []
  else bif s.tiesLead c ap then
    ((s.dropRelays c).takeLead c 0 ap (s.folCounter 4 - s.tickCounts ap)).sendOwn c id true true true false []
  else s

/-- CB_OWN_FRAME_SEND (R379, R383, R386): window `id` of spoke 0, at its start S; where spoke 0 contends with others, in
a start-up, an ARBITRATING window or a minislot, at its action point. -/
def State.ownFrame (s : State) (c id : Nat) (bad badTrip : Bool) : State :=
  let x := bif bad || s.winBad c id then 0 else s.winCell c id
  let s := s.touchWin c id
  let st := s.cbState c
  let own := cellKind x == 1 && cellOwner x == 0
  let mini := Nat.ble 64 id && !s.mdMatrix (s.cbMode c)
  let sync := own && cellSync x && s.flag (F.cbsCtlSyncNode c)
  bif st == cbListen || (st == cbColdstart && (s.chan c).lead) then s.when (own && cellSync x) (·.ownStart c id)
  else bif st == cbColdstart then
    bif own && cellSync x && s.fget (F.cbsStsLeader c) == 0 then
      s.sendOwn c id true (s.fget (F.cbsStsCycle c) == 0) true false [] else s
  else bif !s.strikesOn c then s
  else bif own && !mini then
    bif st != cbNormal then s.sendOwn c id sync false true false []
    else bif cellTrip x then s.tripWindow c id sync badTrip
    else match s.ownEntry c id with
    | some e => s.sendEntry c id sync e
    | none => s.sendOwn c id sync false true false []
  else bif st != cbNormal then s
  else match s.ownEntry c id with
  | none => s
  | some e =>
    bif own then s.miniOwn c id e
    else bif cellKind x == 2 && bitAt (s.mdArb (s.cbMode c) (cellArb x)) 0 then s.arbOwn c id e else s

/-- SPOKE_CODE_GROUP_SYNC (R389). -/
def State.spokeLock (s : State) (c k : Nat) (locked : Bool) : State :=
  bif k == 0 || !s.spokeOn c k then s else s.fset (F.cbsSpk1Lock c k) locked

/-- The star works. -/
def State.onStar (s : State) (f : State → State) : State := s.when (s.ready 51 && !s.unitHeld 8) f

end Sys2Proof.Machine
end

