-- ==== Sys2Proof/Machine/NitOps.lean ====
section
/-! DEFINITION. The Nitinol slice: the Cell Table and Cell Target table, binding and release of landing
channels, results, interruption, parking and capacity (R276 to R298). -/

namespace Sys2Proof.Machine

/-! ### Tables (R278, R279) -/

def cellAddr (q c : Nat) : Nat := quadBase q + 0x400000 + 8 * c
def targetAddr (q c : Nat) : Nat := quadBase q + 0x480000 + 4 * c
def Cell.drive (q c : Nat) : Fld := ⟨cellAddr q c, 0, 14⟩
def Cell.state (q c : Nat) : Fld := ⟨cellAddr q c, 14, 2⟩
def Cell.sense (q c : Nat) : Fld := ⟨cellAddr q c, 16, 14⟩
def Cell.stale (q c : Nat) : Fld := ⟨cellAddr q c, 30, 1⟩
def Cell.uncal (q c : Nat) : Fld := ⟨cellAddr q c, 31, 1⟩
def Cell.gain (q c : Nat) : Fld := ⟨cellAddr q c + 4, 0, 12⟩
def Cell.cause (q c : Nat) : Fld := ⟨cellAddr q c + 4, 12, 3⟩
def Cell.dest (q c : Nat) : Fld := ⟨cellAddr q c + 4, 15, 1⟩
def Cell.alrm (q c : Nat) : Fld := ⟨cellAddr q c + 4, 16, 2⟩
def Cell.clip (q c : Nat) : Fld := ⟨cellAddr q c + 4, 18, 2⟩
def Cell.armed (q c : Nat) : Fld := ⟨cellAddr q c + 4, 20, 1⟩

/-- T_BAR (0) or T_CROSS (1). -/
def Cell.target (q c dest : Nat) : Fld := ⟨targetAddr q c, bif dest == 0 then 0 else 16, 14⟩

/-- The states of Table 10.2. -/
def cellMoving : Nat := 2
def cellParked : Nat := 3

/-- The cell has a target (R279). -/
def State.targeted (s : State) (q c : Nat) : Bool := s.rd (targetAddr q c) != 0

/-- The slice record. -/
def State.nit (s : State) (q : Nat) : Nit := Table.get {} q s.nits

/-- Store the slice record. -/
def State.setNit (s : State) (q : Nat) (x : Nit) : State := { s with nits := Table.put {} x q s.nits }

/-- The landing of global channel `m`. -/
def State.land (s : State) (m : Nat) : Landing := Table.get {} m s.lands

/-- Store a landing. -/
def State.setLand (s : State) (m : Nat) (x : Landing) : State := { s with lands := Table.put {} x m s.lands }

/-- Channel `m` is bound. -/
def State.bound (s : State) (m : Nat) : Bool := s.flag (F.nitCh0Bound m)

/-- The bound channel of a cell. -/
def State.chanOf (s : State) (q c : Nat) : Option Nat :=
  ((List.range 256).map (fun i => 256 * q + i)).find? (fun m => s.bound m && s.fget (F.nitCh0Cell m) == c)

/-- Distance of two codes. -/
def distance (a b : Nat) : Nat := (a - b) + (b - a)

/-- The GAIN that the laws use: an entry that holds none takes GAIN_INIT (R278, R305). -/
def State.gainOf (s : State) (q c : Nat) : Nat :=
  bif s.fget (Cell.gain q c) == 0 then s.fget (F.nitTuneGainInit q) else s.fget (Cell.gain q c)

/-- GAIN * SLOPE: 2^18 over it is the drive codes per sense code (R282). -/
def State.gainSlope (s : State) (q c : Nat) : Nat := Nat.max 1 (s.gainOf q c * s.fget (F.nitLand0Slope q))

/-- The converter group is in calibration: out of service from the answer to CAL_START on to that to CAL_END or CAL_ABORT
(R347, R351). -/
def State.inCal (s : State) (q g : Nat) : Bool := (s.link q).cal == g + 1

/-- A landing converter of local channel `i` is in calibration (Table 9.3). -/
def State.chanInCal (s : State) (q i : Nat) : Bool := s.inCal q (64 + i / 32) || s.inCal q (72 + i / 32)

/-! ### Results (R287) -/

/-- Add one at place `i`. -/
def bump : Nat → List Nat → List Nat
  | _, [] => []
  | 0, x :: r => (x + 1) :: r
  | i + 1, x :: r => x :: bump i r

/-- Change the slice's record of commit `id`. -/
def State.onNitCommit (s : State) (q id : Nat) (f : NitCommit → NitCommit) : State :=
  s.setNit q { s.nit q with commits := (s.nit q).commits.map (fun c => bif c.id == id then f c else c) }

/-- One cell of a commit ends with a result of Table 10.3; a landing of the slice itself reports none. -/
def State.giveResult (s : State) (q id code : Nat) : State :=
  let t := s.when (code == 3 || code == 4) (·.nitCount q 9)
  bif id == 0 then t else t.onNitCommit q id (fun c => { c with open' := c.open' - 1, res := bump code c.res })

/-- Result codes. -/
def rSettled : Nat := 0
def rRetry : Nat := 1
def rParked : Nat := 2
def rRefused : Nat := 3
def rNotgt : Nat := 4
def rPreempted : Nat := 5
def rInterrupted : Nat := 6
def rUnchanged : Nat := 7

/-! ### Channels (R288) -/

/-- The lowest free local channel, first outside a group in calibration (R288). -/
def State.freeChannel (s : State) (q : Nat) : Option Nat :=
  match (List.range 256).find? (fun i => !s.bound (256 * q + i) && !s.chanInCal q i) with
  | some i => some i
  | none => (List.range 256).find? (fun i => !s.bound (256 * q + i))

/-- LAND_BIND entries (Table 9.6): 14 in a flit. -/
def State.sendBinds (s : State) (q : Nat) (l : List (Nat × Nat)) : Nat → State
  | 0 => s
  | n + 1 =>
    match l with
    | [] => s
    | _ =>
      let e := l.take 14
      (s.sendFlit q 0x11 0 e.length (e.flatMap (fun x => [x.1 % 256, 0x81] ++ beBytes 2 x.2))).sendBinds q (l.drop 14) n

/-- Bind local channel `i` to a cell (R288): the landing starts from DRIVE and SENSE, and the cell becomes
MOVING with DEST set. -/
def State.bindTo (s : State) (q i id c dest start : Nat) : State :=
  let m := 256 * q + i
  let d0 := s.fget (Cell.drive q c)
  let s0 := s.fget (Cell.sense q c)
  let t := ((s.fput (Cell.state q c) cellMoving).fput (Cell.dest q c) dest).fput (Cell.cause q c) 0
  let t := (t.setNit q { t.nit q with sensed := (t.nit q).sensed.filter (· != c) }).wr (Reg.nitCh0 m) (c + 2 ^ 16 + 2 ^ 18 * dest)
  let t := ((t.wr (Reg.nitCh1 m) (d0 + 2 ^ 16 * s0)).wr (Reg.nitCh2 m) 0).fput (F.nitStsBound q) (t.fget (F.nitStsBound q) + 1)
  t.setLand m { commit := id, start := start, d0 := d0, s0 := s0, target := s.fget (Cell.target q c dest)
                was := s.fget (Cell.state q c) }

/-- Room for one more bound channel under N_MAX (R276). -/
def State.roomToBind (s : State) (q : Nat) : Bool :=
  Nat.blt (s.fget (F.nitStsBound q)) (s.fget (F.nitCapNMax q))

/-- Bind one accepted cell now, or let it wait (R296). The first part lists the bindings made. -/
def State.bindOrWait (s : State) (q start : Nat) (x : Nat × Nat × Nat) : List (Nat × Nat) × State :=
  match s.roomToBind q, s.freeChannel q with
  | true, some i => ([(i, x.2.1)], s.bindTo q i x.1 x.2.1 x.2.2 start)
  | _, _ => ([], s.setNit q { s.nit q with wait := (s.nit q).wait ++ [x] })

/-- Round 0 of a cell of commit `id` falls no earlier than its T_c (R289), 1/16 ns; an ASAP commit has no such bound
(R290). -/
def State.startOf (s : State) (q id : Nat) : Nat :=
  match (s.nit q).commits.find? (fun c => c.id == id) with
  | some c => 16 * c.tc
  | none => 0

/-- Bind cells in order and send their LAND_BIND entries. -/
def State.bindAll (s : State) (q : Nat) (l : List (Nat × Nat × Nat)) : State :=
  let r := l.foldl (fun (a : List (Nat × Nat) × State) x =>
    let b := a.2.bindOrWait q (a.2.startOf q x.1) x
    (a.1 ++ b.1, b.2)) ([], s)
  r.2.sendBinds q r.1 r.1.length

/-- Insert by local cell. -/
def insertCell (x : Nat × Nat × Nat) : List (Nat × Nat × Nat) → List (Nat × Nat × Nat)
  | [] => [x]
  | y :: r => bif Nat.blt x.2.1 y.2.1 then x :: y :: r else y :: insertCell x r

/-- Cells that wait for a channel take the free ones in ascending local cell order (R296). -/
def State.serveWait (s : State) (q : Nat) : State :=
  let l := (s.nit q).wait.foldl (fun a x => insertCell x a) []
  bif l.isEmpty || !s.flag (F.nitStsRun q) then s
  else (s.setNit q { s.nit q with wait := [] }).bindAll q l

/-- A new W takes effect once no landing round is outstanding (R266). -/
def State.setLatency (s : State) (q w : Nat) : State :=
  let d := s.fget (F.grfLat1DA q)
  let u := s.fget (F.grfLat1UA q)
  let t := ((s.fput (F.grfLat0W q) w).fput (F.grfLat2LD q) (w + d)).fput (F.grfLat2Dl q)
    ((5 * (u + d + 2 * w) + 14992 + 4999) / 5000)
  t.setLink q { t.link q with newW := none }

/-- Apply a waiting W when no channel is bound. -/
def State.applyNewW (s : State) (q : Nat) : State :=
  match (s.link q).newW with
  | some w => bif s.fget (F.nitStsBound q) == 0 then s.setLatency q w else s
  | none => s

/-- Samples of a landing on channel `m` that have not arrived: the last of them, of the round before ROUND `r`, are still
expected, and LAND_MISS counts those before them once a later one arrives (R292). -/
def State.leaveTail (s : State) (m : Nat) : State :=
  let q := m / 256
  let x := s.land m
  let old := Table.get (0, 0) (m % 256) (s.nit q).tails
  let n := x.k - x.nextJ + bif x.nextJ == 0 && old.1 == x.grid0 then old.2 else 0
  bif x.k == 0 then s
  else s.setNit q { s.nit q with tails := Table.put (0, 0) (bif n == 0 then (0, 0) else ((x.grid0 + x.k) % 128, n)) (m % 256) (s.nit q).tails }

/-- Free channel `m` (R293). -/
def State.freeCh (s : State) (m : Nat) : State :=
  let q := m / 256
  let s := s.leaveTail m
  let t := (s.wr (Reg.nitCh0 m) 0).fput (F.nitStsBound q) (s.fget (F.nitStsBound q) - 1)
  ({ t with lands := Table.drop m t.lands }).applyNewW q

/-! ### Lift-off (R305) -/

/-- A cell has been ARMED, or lost its target: LIFTING ends when no targeted cell is left that has not been (R305). -/
def State.lifted (s : State) (q c : Nat) : State :=
  bif !s.flag (F.nitStsLifting q) then s
  else
    let l := (s.nit q).unarmed.filter (· != c)
    (s.setNit q { s.nit q with unarmed := l }).when l.isEmpty (fun u => (u.fset (F.nitStsLifting q) false).nitEvent q 5 0 0 0)

/-- A cell comes within HOLD_ALARM of its target. -/
def State.armCell (s : State) (q c : Nat) : State := (s.fset (Cell.armed q c) true).lifted q c

/-- A Cell Target word is written (R279): while the slice lifts its cells off, one that loses its target is awaited no
longer, and one that gains a target is. -/
def State.writeTarget (s : State) (q a v : Nat) : State :=
  let c := (a - targetAddr q 0) / 4
  let t := s.wr a (v &&& 0x3FFF3FFF)
  bif !s.flag (F.nitStsLifting q) then t
  else bif !t.targeted q c then t.lifted q c
  else t.when (!s.targeted q c && !s.flag (Cell.armed q c))
    (fun u => u.setNit q { u.nit q with unarmed := (u.nit q).unarmed ++ [c] })

/-! ### Parking (R285) -/

/-- Park a cell with a cause: the latch and DRIVE stay, and DEST holds the intended state (Table 10.2), which a cell that
reacquisition leaves unresolved keeps unchanged (R301). -/
def State.parkCell (s : State) (q c cause : Nat) : State :=
  let st := s.fget (Cell.state q c)
  let s := s.when (Nat.blt st 2 && cause != 4) (·.fput (Cell.dest q c) st)
  let t := ((s.fput (Cell.state q c) cellParked).fput (Cell.cause q c) cause).nitCount q 12
  (t.nitEvent q 2 c cause 0).corrected (8 * q + 7) 4

/-- Forget a cell that waits for a channel, for its LAND_BIND, or for its re-landing; its commits get the
result. -/
def State.dropWaiting (s : State) (q c code : Nat) : State :=
  let n := s.nit q
  let w := n.wait.filter (fun x => x.2.1 == c)
  let b := n.commits.filter (fun x => x.binds.any (·.1 == c))
  let t := s.setNit q { n with
    wait := n.wait.filter (fun x => x.2.1 != c)
    requeue := n.requeue.filter (· != c)
    commits := n.commits.map (fun x => { x with binds := x.binds.filter (·.1 != c) }) }
  eachOf (w.map (·.1) ++ b.map (·.id)) (fun id u => u.giveResult q id code) t

/-! ### Interruption (R298) -/

/-- A request that waits to take the cell of channel `m` over ends with a result. -/
def State.endTakeover (s : State) (m code : Nat) : State :=
  match (s.land m).takeover with
  | some y => (s.giveResult (m / 256) y.1 code).setLand m { s.land m with takeover := none }
  | none => s

/-- The cell of a landing that ends without settling keeps the last valid sample (Table 10.2, SENSE). -/
def State.keepSense (s : State) (q m : Nat) : State :=
  s.fput (Cell.sense q (s.fget (F.nitCh0Cell m))) (s.fget (F.nitCh1Sense m))

/-- A landing ends INTERRUPTED: the cell stays MOVING toward its latest destination. One that the host parked ends
PARKED. -/
def State.interruptCh (s : State) (m : Nat) : State :=
  let q := m / 256
  let x := s.land m
  bif !s.bound m then s
  else
  let s := s.keepSense q m
  bif x.parkNow then ((s.giveResult q x.commit rParked).endTakeover m rParked).freeCh m
  else
    let t := match x.takeover with
      | some y => s.fput (Cell.dest q (s.fget (F.nitCh0Cell m))) y.2.1
      | none => s
    (((t.giveResult q x.commit rInterrupted).endTakeover m rInterrupted).nitCount q 4).freeCh m

/-- An accepted cell without a channel becomes MOVING toward its destination. -/
def State.interruptCell (s : State) (q id c dest : Nat) : State :=
  (((s.fput (Cell.state q c) cellMoving).fput (Cell.dest q c) dest).giveResult q id rInterrupted).nitCount q 4

/-- Link loss or an assembly HOLD (R298): every landing ends INTERRUPTED and the hold scan stops. -/
def State.nitInterrupt (s : State) (q : Nat) : State :=
  let t := forUpTo 256 (fun i u => u.interruptCh (256 * q + i)) s
  let t := eachOf (t.nit q).wait (fun x u => u.interruptCell q x.1 x.2.1 x.2.2) t
  let t := eachOf (t.nit q).commits (fun c u => eachOf c.binds (fun x v => v.interruptCell q c.id x.1 x.2) u) t
  let n := t.nit q
  (t.setNit q { n with
    wait := [], requeue := [], dropCh := [], dropCell := [], first := 0
    commits := n.commits.map (fun c => { c with binds := [] }) }).fset (F.nitStsRun q) false

/-- Reacquisition fails (R304). -/
def State.reacqFail (s : State) (q : Nat) : State :=
  let t := ((s.fset (F.nitStsReacq q) false).fset (F.nitStsReacqFail q) true).setNit q { s.nit q with todo := [], stepped := none }
  (t.nitEvent q 1 0 0 0).corrected (8 * q + 7) 5

/-- What the slice does when its link leaves UP (R298, R304). -/
def State.nitLinkLost (s : State) (q : Nat) : State :=
  let t := (s.when (s.flag (F.nitStsReacq q)) (·.reacqFail q)).nitInterrupt q
  t.setNit q { t.nit q with stepped := none, tails := [], held := false }

/-- Request a reacquisition (R299). -/
def State.wantReacq (s : State) (q : Nat) : State :=
  s.when (s.flag (F.nitCtlEn q)) (fun t => t.setNit q { t.nit q with want := true })

/-! ### Landing requests (R287, R295) -/

/-- A later request for a cell that has a channel (R295): it waits for its round 0, and preempts one that waits. -/
def State.takeOver (s : State) (q m id dest start : Nat) : State :=
  let t := s.when (s.land m).takeover.isSome (fun u => (u.endTakeover m rPreempted).nitCount q 3)
  t.setLand m { t.land m with takeover := some (id, dest, start) }

/-- Its round 0 has come: the landing starts anew on the same channel, from the last output and the latest valid
sample (R295). -/
def State.preempt (s : State) (q m c id dest start : Nat) : State :=
  let t := (s.giveResult q (s.land m).commit rPreempted).nitCount q 3
  let t := ((t.fput (Cell.dest q c) dest).fput (F.nitCh0Dest m) dest).fput (F.nitCh0Attempt m) 0
  let t := ((t.fput (F.nitCh0Round m) 0).wr (Reg.nitCh2 m) 0).leaveTail m
  t.setLand m { commit := id, start := start, d0 := t.fget (F.nitCh1Out m), s0 := t.fget (F.nitCh1Sense m)
                target := t.fget (Cell.target q c dest) }

/-- The takeover that a round at `at'` makes. -/
def State.preemptAt (s : State) (q m at' : Nat) : State :=
  match (s.land m).takeover with
  | some y => bif Nat.ble y.2.2 at' then s.preempt q m (s.fget (F.nitCh0Cell m)) y.1 y.2.1 y.2.2 else s
  | none => s

/-- The cell needs no move (Table 10.3, UNCHANGED). -/
def State.unchanged (s : State) (q c dest : Nat) : Bool :=
  s.fget (Cell.state q c) == dest && Nat.ble (distance (s.fget (Cell.target q c dest)) (s.fget (Cell.sense q c))) (s.fget (F.nitLand0Win q))

/-- One landing request of a commit. Cells that need a channel are listed in the first part. -/
def State.landRequest (s : State) (q id start : Nat) (x : Nat × Nat) : List (Nat × Nat × Nat) × State :=
  let c := x.1
  let st := s.fget (Cell.state q c)
  bif !s.flag (F.nitCtlEn q) || st == cellParked then ([], s.giveResult q id rRefused)
  else bif !s.targeted q c then ([], s.giveResult q id rNotgt)
  else bif !s.flag (F.nitStsRun q) then ([], s.interruptCell q id c x.2)
  else match s.chanOf q c with
  | some m => ([], s.takeOver q m id x.2 start)
  | none =>
    let pend := (s.nit q).wait.any (fun y => y.2.1 == c) || (s.nit q).commits.any (fun y => y.binds.any (·.1 == c))
    let t := (s.dropWaiting q c rPreempted).when pend (·.nitCount q 3)
    bif t.unchanged q c x.2 then ([], t.giveResult q id rUnchanged) else ([(id, c, x.2)], t)

/-! ### Capacity (R276) -/

/-- The lanes of a slice (R273). An update is dispatched to the next free lane, so what the slice computes does not depend on
which lane computes it; the order and the rate of the dispatch bound when a row is sent (log entry 83). -/
def laneCount : Nat := 64

/-- The lanes that work with `r` of them retired: they share the work (R273). -/
def lanesLeft (r : Nat) : Nat := laneCount - r

/-- N_MAX with `r` lanes retired (Table 10.1). -/
def nMax (r : Nat) : Nat := bif Nat.blt r 10 then 256 else (5100 * lanesLeft r - 16384) / 1024

/-- The capacity tier. -/
def capTier (r : Nat) : Nat := bif Nat.blt r 7 then 0 else bif Nat.blt r 10 then 1 else 2

/-- How many bits of the low `n` bits are set. -/
def popCount (w : Nat) : Nat → Nat
  | 0 => 0
  | n + 1 => bit (w.testBit n) + popCount w n

/-- The retired lanes of a slice, a bit for each of its lanes (R273). -/
def State.retired (s : State) (q : Nat) : Nat := s.rd (Reg.nitLane0 q) + 2 ^ 32 * s.rd (Reg.nitLane1 q)

/-- Store the retired lanes: RETIRED and N_MAX follow (R276). -/
def State.setRetired (s : State) (q w : Nat) : State :=
  let r := popCount w laneCount
  (((s.wr (Reg.nitLane0 q) (w % 2 ^ 32)).wr (Reg.nitLane1 q) (w / 2 ^ 32)).fput (F.nitStsRetired q) r).fput (F.nitCapNMax q) (nMax r)

/-- The hold period in force: 256 µs while shed, short of lanes or asked to be slow (R277). -/
def State.slowWanted (s : State) (q : Nat) : Bool :=
  Nat.ble 2 (s.fget (F.hscMarginShed q)) || Nat.ble 7 (s.fget (F.nitStsRetired q)) || s.flag (F.nitCtlHoldSlow q)

end Sys2Proof.Machine
end

