-- ==== Sys2Proof/Machine/AnlOps.lean ====
section
/-! DEFINITION. Anneal (chapter 12): zones and triggers, passes and group steps, the table load, and
pre-emption by commits. -/

namespace Sys2Proof.Machine

/-- Anneal's record of quadrant `q`. -/
def State.anlOf (s : State) (q : Nat) : Anl := Table.get {} q s.anl

/-- Store Anneal's record. -/
def State.setAnl (s : State) (q : Nat) (x : Anl) : State := { s with anl := Table.put {} x q s.anl }

/-- The six zones of quadrant `q` (R343). -/
def zonesOf (q : Nat) : List Nat := [4 * q, 4 * q + 1, 4 * q + 2, 4 * q + 3, 16 + 2 * q, 17 + 2 * q]

/-- The quadrant of a zone. -/
def zoneQuad (z : Nat) : Nat := bif Nat.blt z 16 then z / 4 else (z - 16) / 2

/-- Every zone of `q` is valid. -/
def State.zonesValid (s : State) (q : Nat) : Bool := (zonesOf q).all (fun z => s.flag (F.anlZone0Valid z))

/-! ### Passes (R344, R345) -/

/-- The first pass since Anneal was enabled is due once every zone is valid (R344). -/
def State.firstDue (s : State) (q : Nat) : State :=
  s.when (s.flag F.anlCtlEn && !(s.anlOf q).started && s.zonesValid q) (·.fset (F.anlQ0Due q) true)

/-- A due pass starts when Anneal is enabled, no pass runs, the table load has ended and every zone is valid; a pass that is
due, and the first one, wait for sensors otherwise (R344, R354). -/
def State.tryPass (s : State) (q : Nat) : State :=
  let s := s.firstDue q
  bif s.flag (F.anlQ0Pass q) || !s.flag F.anlCtlEn || s.flag (F.anlQ0Push q) || (!s.flag (F.anlQ0Due q) && (s.anlOf q).started) then s
  else bif !s.zonesValid q then s.fset (F.anlQ0WaitSens q) true
  else
    let t := ((s.fset (F.anlQ0Due q) false).fset (F.anlQ0WaitSens q) false).fset (F.anlQ0Pass q) true
    let t := t.clr Reg.anlCtl (2 ^ (4 + q))
    let t := eachOf (zonesOf q) (fun z u => u.fput (F.anlZone1TRef z) (u.fget (F.anlZone0Temp z))) t
    t.setAnl q { t.anlOf q with started := true, todo := List.range 88, retry := [], errs := [], trig := [] }

/-- A pass becomes due. -/
def State.passDue (s : State) (q : Nat) : State := (s.fset (F.anlQ0Due q) true).tryPass q

/-- The reading of a zone lies at least DELTA from its reference (R344). -/
def State.zoneMoved (s : State) (z : Nat) : Bool :=
  s.flag (F.anlZone0Valid z) && s.fget (F.anlZone1TRef z) != 0x8000
  && Nat.ble (4 * s.fget (F.anlZone2Delta z))
    (signedOf (s.fget (F.anlZone0Temp z)) 16 - signedOf (s.fget (F.anlZone1TRef z)) 16).natAbs

/-- A zone takes a reading: it may make a pass due (R343, R344). -/
def State.zoneReading (s : State) (z temp : Nat) (valid : Bool) : State :=
  let q := zoneQuad z
  let t := (s.fput (F.anlZone0Temp z) temp).fset (F.anlZone0Valid z) valid
  bif !t.flag F.anlCtlEn then t
  else
    let x := t.anlOf q
    let t := t.when (t.zoneMoved z && !x.trig.any (· == z)) (fun u =>
      ((u.setAnl q { x with trig := z :: x.trig }).anlCount q 7).fset (F.anlQ0Due q) true)
    t.tryPass q

/-- Insert a group in ascending order. -/
def insertGroup (g : Nat) : List Nat → List Nat
  | [] => [g]
  | h :: r => bif Nat.blt g h then g :: h :: r else bif g == h then h :: r else h :: insertGroup g r

/-- The groups of a list that a pass steps now: tap groups are skipped while TAP_EN = 0 (R345). -/
def State.steppable (s : State) (l : List Nat) : List Nat := l.filter (fun g => Nat.blt g 80 || s.flag F.anlCtlTapEn)

/-- A walk that has reached its end starts anew over the groups to retry (R345). -/
def State.nextWalk (s : State) (q : Nat) : State :=
  let x := s.anlOf q
  bif (s.steppable x.todo).isEmpty then s.setAnl q { x with todo := x.todo.foldr insertGroup x.retry, retry := [] } else s

/-- The next group to step, in ascending order (R345). -/
def State.nextGroup (s : State) (q : Nat) : Option Nat := (s.steppable (s.anlOf q).todo).head?

/-- The pass completes when no group is left (R345). -/
def State.endPass (s : State) (q : Nat) : State :=
  let s := s.nextWalk q
  bif s.flag (F.anlQ0Pass q) && (s.nextGroup q).isNone then
    let t := (s.fset (F.anlQ0Pass q) false).anlCount q 0
    let t := (t.wr (Reg.anlQ1 q) (fsNs (t.folNow 4))).wr (Reg.anlQ2 q) (fsSec (t.folNow 4))
    (t.anlEvent 0 q (t.fget (F.anlQ0Group q)) (t.fget (F.anlGroupLast q (t.fget (F.anlQ0Group q))))).tryPass q
  else s

/-! ### Status words (Table 12.13, R357) -/

/-- Change a field of the status word of a group, a memory word (R357, R428). -/
def State.putStatus (s : State) (q g : Nat) (x : Fld) (v : Nat) : State := (s.fput x v).memWritten 37 0 (Reg.anlGroup q g)

/-- SRC of a group. -/
def State.setSrc (s : State) (q g n : Nat) : State := s.putStatus q g (F.anlGroupSrc q g) n

/-! ### UNCAL (R353) -/

/-- Set or clear the UNCAL of a group: UNCAL_N follows, and a hold group's Cell Table bits are rewritten in 32
batches of 64 entries. -/
def State.setUncal (s : State) (q g : Nat) (b : Bool) : State :=
  bif s.flag (F.anlGroupUncal q g) == b then s
  else
    let n := s.fget (F.anlQ0UncalN q)
    let t := (s.putStatus q g (F.anlGroupUncal q g) (bit b)).fput (F.anlQ0UncalN q) (bif b then n + 1 else n - 1)
    t.when (Nat.blt g 64) (fun u => u.setAnl q { u.anlOf q with
      uncal := (u.anlOf q).uncal ++ (List.range 32).map (fun k => (g, k)) })

/-- Rewrite UNCAL of the 64 entries of word `w` of every pair: 1 while the hold DAC or the hold ADC group of
the word is uncalibrated (R284). -/
def State.uncalBatch (s : State) (q : Nat) : State :=
  match (s.anlOf q).uncal with
  | [] => s
  | x :: r =>
    bif !s.open' q 9 then s
    else
      let w := 32 * (x.1 % 32) + x.2
      let b := s.flag (F.anlGroupUncal q (w / 32)) || s.flag (F.anlGroupUncal q (32 + w / 32))
      forUpTo 64 (fun p t => t.fset (Cell.uncal q ((2 * p + w / 512) * 512 + w % 512)) b)
        (s.setAnl q { s.anlOf q with uncal := r })

/-! ### Steps (R346 to R349) -/

/-- How a step enters the pass: OK and SAT end the group, three errors leave it out, anything else is
retried (R345). -/
def bookStep (x : Anl) (g res : Nat) : Anl :=
  let x := { x with todo := x.todo.filter (· != g), retry := x.retry.filter (· != g) }
  bif res == 0 || res == 2 then x
  else bif res == 4 then
    let n := Table.get 0 g x.errs + 1
    bif n == 3 then { x with errs := Table.put 0 n g x.errs }
    else { x with errs := Table.put 0 n g x.errs, retry := insertGroup g x.retry }
  else { x with retry := insertGroup g x.retry }

/-- A step ends: 0 OK, 1 LIMITED, 2 SAT, 3 BUSY, 4 ERROR, 5 ABORTED (R348, R349). -/
def State.endStep (s : State) (q res : Nat) : State :=
  let g := s.fget (F.anlQ0Group q)
  let t := (s.fset (F.anlQ0Step q) false).putStatus q g (F.anlGroupLast q g) res
  let t := t.setAnl q { bookStep (t.anlOf q) g res with stage := 0, acks := 0 }
  let t := match res with
    | 1 => t.anlCount q 5
    | 2 => ((t.anlCount q 6).anlEvent 2 q g 2).corrected 45 q
    | 3 => t.anlCount q 3
    | 4 => ((t.anlCount q 4).anlEvent 1 q g 4).corrected 46 q
    | 5 => t.anlCount q 2
    | _ => t
  t.endPass q

/-- No landing channel of the group is bound (R346). -/
def State.groupFree (s : State) (q g : Nat) : Bool :=
  bif Nat.ble 64 g && Nat.blt g 80 then
    (List.range 32).all (fun i => !s.bound (256 * q + 32 * ((g - 64) % 8) + i))
  else true

/-- No commit is dispatched and not completed, and none is dispatched within the next 80 µs (R346). -/
def State.commitsQuiet (s : State) : Bool :=
  s.fab.running.isEmpty && s.fab.staged.all (fun c => Nat.blt (s.folNow 4 + 81500) c.tc)

/-- STEP_GAP ms have passed since the last step start of the quadrant (R346). -/
def State.gapOver (s : State) (q : Nat) : Bool :=
  match (s.anlOf q).lastStart with
  | none => true
  | some t => Nat.ble (t + 1000000 * s.fget F.anlCfgStepGap) s.now

/-- The conditions of R346. -/
def State.mayStep (s : State) (q g : Nat) : Bool :=
  s.flag F.anlCtlEn && s.flag F.mtxCtlSeqRun && s.isUp q && !s.flag (F.grfStsAsmHold q) && !s.iso q
  && !s.flag (F.anlQ0Push q) && s.fget (F.hscMarginShed q) == 0 && s.fget (F.hscMarginShed 4) == 0
  && !(s.anlOf q).aborting && !(s.anlOf q).check && s.gapOver q && s.commitsQuiet && s.groupFree q g

/-- ANNEAL_STEP_START (R346, R347): the step begins with CAL_START. -/
def State.stepStart (s : State) (q : Nat) : State :=
  let s := s.nextWalk q
  match s.nextGroup q with
  | none => s
  | some g =>
    bif !(s.flag (F.anlQ0Pass q) && (s.anlOf q).stage == 0 && s.mayStep q g) then s
    else
      let t := ((s.fset (F.anlQ0Step q) true).fput (F.anlQ0Group q) g).anlCount q 1
      (t.setAnl q { t.anlOf q with stage := 1, lastStart := some s.now }).command q 0x03 [g]

/-- The 32 measured codes of a CAL_MEAS response: 14 bits each, most significant bit first (R347). -/
def measured (words : List Nat) : List Nat :=
  let n := (padTo 28 words).foldl (fun a w => a * 65536 + w % 65536) 0
  (List.range 32).map (fun i => bitsOf n (14 * (31 - i)) 14)

/-- The ideal code of a reference point. -/
def idealCode (n : Nat) : Int := 1024 + 2048 * (n : Int)

/-- The corrections of one member (R348): offset and gain before the limits. -/
def trimDelta (a b : Nat) (ma mb : Nat) : Int × Int :=
  let di := (idealCode b - idealCode a).natAbs
  let sl : Int := ((mb : Int) - ma) - di
  (-(roundDiv (8 * (((ma : Int) - idealCode a) * di - sl * idealCode a)) di), -(roundDiv (sl * 65536) di))

/-- One member's new entry, with whether a limit or an end of range was met. -/
def State.newTrim (s : State) (q g n ma mb : Nat) : Nat × Bool × Bool :=
  let d := trimDelta (s.fget F.anlCfgLoPt) (s.fget F.anlCfgHiPt) ma mb
  let mo : Int := (s.fget F.anlLimMaxOfs : Int)
  let mg : Int := (s.fget F.anlLimMaxGain : Int)
  let o := clampInt (-511) 511 (signedOf (s.fget (F.anlTrimOffset q g n)) 10 + clampInt (-mo) mo d.1)
  let w := clampInt (-511) 511 (signedOf (s.fget (F.anlTrimGain q g n)) 10 + clampInt (-mg) mg d.2)
  (encodeSigned o 10 + 1024 * encodeSigned w 10,
    Nat.blt mo.natAbs d.1.natAbs || Nat.blt mg.natAbs d.2.natAbs, o.natAbs == 511 || w.natAbs == 511)

/-- A step reads the trims in force of a group. With a table word that cannot be read the group takes SRC NONE and UNCAL,
and is due (R357); the word counts as mid-code from then on, as that of a group without a source (R352): DESIGN
CHOICE, log entry 146. -/
def State.readTrimsOf (s : State) (q g : Nat) : State :=
  let a := Reg.anlTrim q g 0
  let t := s.touch a 32
  bif s.wordsReadable a 32 then t
  else (((eachOf ((List.range 32).filter (fun n => !s.readable (Reg.anlTrim q g n))) (fun n u => u.wr (Reg.anlTrim q g n) 0) t).setSrc
    q g 0).setUncal q g true).passDue q

/-- The new trims of a group and the step's result (R348). -/
def State.computeTrims (s : State) (q g : Nat) (lo hi : List Nat) : List Nat × Nat :=
  let l := (List.range 32).map (fun n => s.newTrim q g n (lo.getD n 0) (hi.getD n 0))
  (l.map (·.1), bif l.any (·.2.1) then 1 else bif l.any (·.2.2) then 2 else 0)

/-- The payload words of TRIM_WRITE for members `m .. m + k - 1` (Table 9.7). -/
def trimWords (g m k : Nat) (l : List Nat) : List Nat :=
  [g, k] ++ (List.range k).flatMap (fun i =>
    let e := l.getD (m + i) 0 % 2 ^ 20 + 2 ^ 20 * (m + i)
    [e / 65536, e % 65536])

/-- The three TRIM_WRITE commands of a group. -/
def State.sendTrims (s : State) (q g : Nat) (l : List Nat) : State :=
  ((s.command q 0x07 (trimWords g 0 13 l)).command q 0x07 (trimWords g 13 13 l)).command q 0x07 (trimWords g 26 6 l)

/-- The entries of a group in the trim table. -/
def State.tableTrims (s : State) (q g : Nat) : List Nat := (List.range 32).map (fun n => s.rd (Reg.anlTrim q g n))

/-- Store an entry in the trim table, a memory word (R428). -/
def State.putTrim (s : State) (q g n v : Nat) : State :=
  (s.wr (Reg.anlTrim q g n) (v % 2 ^ 20)).memWritten 37 0 (Reg.anlTrim q g n)

/-- Store entries in the trim table from member `m` on. -/
def State.putTrims (s : State) (q g m : Nat) (l : List Nat) : State :=
  eachOf (List.zip (List.range l.length) l) (fun x t => t.putTrim q g (m + x.1) x.2) s

/-- TRIM_APPLY of a step is answered: the table and the status take the new trims (R348). -/
def State.applyStep (s : State) (q : Nat) : State :=
  let x := s.anlOf q
  let g := s.fget (F.anlQ0Group q)
  let t := ((s.putTrims q g 0 x.trims).touch (Reg.anlGroup q g) 1).setSrc q g 3
  let t := ((t.cntF (F.anlGroupSteps q g)).putStatus q g (F.anlGroupAge q g) 0).when (x.result != 1) (·.setUncal q g false)
  t.endStep q x.result

/-- A response of the running step (R347, R349). -/
def State.stepRsp (s : State) (q op status : Nat) (words : List Nat) : State :=
  let x := s.anlOf q
  let g := s.fget (F.anlQ0Group q)
  bif status == 1 && op == 3 then s.endStep q 3
  else bif status != 0 then s.endStep q 4
  else match x.stage, op with
  | 1, 3 => (s.setAnl q { x with stage := 2 }).command q 0x04 [g, s.fget F.anlCfgLoPt]
  | 2, 4 => (s.setAnl q { x with stage := 3, lo := measured words }).command q 0x04 [g, s.fget F.anlCfgHiPt]
  | 3, 4 =>
    let s := s.readTrimsOf q g
    let r := s.computeTrims q g x.lo (measured words)
    (s.setAnl q { s.anlOf q with stage := 4, trims := r.1, result := r.2 }).command q 0x05 [g]
  | 4, 5 => (s.setAnl q { x with stage := 5, acks := 3 }).sendTrims q g x.trims
  | 5, 7 =>
    bif x.acks == 1 then (s.setAnl q { x with stage := 6, acks := 0 }).command q 0x08 [g]
    else s.setAnl q { x with acks := x.acks - 1 }
  | 6, 8 => s.applyStep q
  | _, _ => s

/-- A commit dispatch pre-empts the steps whose group is out of service (R350). -/
def State.preemptOne (s : State) (q : Nat) : State :=
  let x := s.anlOf q
  bif Nat.blt 0 x.stage && Nat.ble x.stage 4 then
    ((s.commandFirst q 0x06 [s.fget (F.anlQ0Group q)]).setAnl q { x with aborting := true }).endStep q 5
  else s

/-- ANNEAL_PREEMPT in all four quadrants (R350). -/
def State.annealPreempt (s : State) : State := forUpTo 4 (fun q t => t.preemptOne q) s

/-! ### The table load (R352) -/

/-- The load of a quadrant starts, or starts again. -/
def State.loadStart (s : State) (q : Nat) : State :=
  (s.fset (F.anlQ0Push q) true).setAnl q { s.anlOf q with load := List.range 88, phase := 0, sent := [] }

/-- A group of the load has ended. -/
def State.loadNext (s : State) (q : Nat) : State :=
  let x := s.anlOf q
  let t := s.setAnl q { x with load := x.load.tail, phase := 0, sent := [], done := x.load.take 1 ++ x.done }
  bif x.load.tail.isEmpty then (t.fset (F.anlQ0Push q) false).tryPass q else t

/-- A load has already dealt with group `g` since Anneal was enabled: a later one pushes it from the table as it
stands (R352). -/
def State.loadedOnce (s : State) (q g : Nat) : Bool := (s.anlOf q).done.any (· == g)

/-- The group of the load has a source; one without takes mid-code and UNCAL (R352). -/
def State.hasSource (s : State) (q g : Nat) : Bool :=
  s.flag (F.anlGroupHostw q g) || s.loadedOnce q g || s.flag (F.grfStsTrimValid q)

/-- The group is read back rather than pushed. -/
def State.readsBack (s : State) (q g : Nat) : Bool :=
  !s.flag (F.anlGroupHostw q g) && !s.loadedOnce q g && s.flag (F.grfStsTrimValid q)

/-- A table word of the group cannot be read (R357): it is not pushed, and a pass is due for it. -/
def State.loadLost (s : State) (q g : Nat) : State :=
  (((s.setSrc q g 0).setUncal q g true).loadNext q).passDue q

/-- A command of the load is sent, its SEQ kept with the retries made of it. -/
def State.loadSend (s : State) (q op tries : Nat) (words : List Nat) : State :=
  let x := s.anlOf q
  (s.setAnl q { x with sent := x.sent ++ [((s.link q).nextSeq, tries)] }).command q op words

/-- The TRIM_APPLY of the load. -/
def State.loadApply (s : State) (q g : Nat) : State := (s.setAnl q { s.anlOf q with phase := 3 }).loadSend q 0x08 0 [g]

/-- ANNEAL_TABLE_LOAD (R352): the next group of the load, or its TRIM_APPLY once the assembly has left
holdover. `bad` says that a table word of the group cannot be read. -/
def State.tableLoad (s : State) (q : Nat) (bad : Bool) : State :=
  let x := s.anlOf q
  match x.load with
  | [] => s
  | g :: _ =>
    let bad := bad || !s.wordsReadable (Reg.anlTrim q g 0) 32
    let s := s.touch (Reg.anlGroup q g) 1
    bif !s.flag (F.anlQ0Push q) || !s.isUp q || !s.flag F.anlCtlEn || s.iso q || x.check then s
    else bif x.phase == 0 then
      bif s.readsBack q g then
        eachOf [0, 13, 26] (fun m u => u.loadSend q 0x09 0 [g, m]) (s.setAnl q { x with phase := 4 })
      else
        let t := s.when (s.hasSource q g) (·.touch (Reg.anlTrim q g 0) 32)
        bif bad && s.hasSource q g then t.loadLost q g
        else
          let l := bif s.hasSource q g then s.tableTrims q g else List.replicate 32 0
          eachOf [(0, 13), (13, 13), (26, 6)] (fun m u => u.loadSend q 0x07 0 (trimWords g m.1 m.2 l))
            (t.setAnl q { x with phase := 1, trims := l })
    else bif x.phase == 2 && !s.flag (F.grfStsAsmHold q) then s.loadApply q g
    else s

/-- A command of the load failed: it is retried up to three times, then the group is left at NONE (R352). -/
def State.loadFail (s : State) (q g tries : Nat) (c : Cmd) : State :=
  bif Nat.blt tries 3 then s.loadSend q c.op (tries + 1) c.words
  else (((s.setSrc q g 0).setUncal q g true).anlCount q 4).loadNext q

/-- The entries of a TRIM_READ response (Table 9.7): as many as word 1 says, 13 at most, each with its member. -/
def readTrims (words : List Nat) : List (Nat × Nat) :=
  (List.range (Nat.min 13 (words.getD 1 0))).map (fun i =>
    let e := words.getD (2 + 2 * i) 0 * 65536 + words.getD (3 + 2 * i) 0
    (bitsOf e 20 5, e % 2 ^ 20))

/-- The group of the load has been pushed, and its trims are in force: a later entry to UP leaves SRC as it is (R352). -/
def State.loadPushed (s : State) (q g : Nat) : State :=
  let x := s.anlOf q
  let t := s.putTrims q g 0 x.trims
  (bif s.loadedOnce q g then t
   else bif s.flag (F.anlGroupHostw q g) then (t.setSrc q g 1).setUncal q g false
   else (t.setSrc q g 0).setUncal q g true).loadNext q

/-- A response to command `c` of the load, which had been tried `tries` times before. -/
def State.loadRsp (s : State) (q tries : Nat) (c : Cmd) (status : Nat) (words : List Nat) : State :=
  let x := s.anlOf q
  let s := s.setAnl q { x with sent := x.sent.filter (fun y => y.1 != c.seq) }
  let last := (s.anlOf q).sent.isEmpty
  match x.load with
  | [] => s
  | g :: _ =>
    bif status != 0 then s.loadFail q g tries c
    else match x.phase with
    | 1 => bif !last then s else bif s.flag (F.grfStsAsmHold q) then s.setAnl q { s.anlOf q with phase := 2 } else s.loadApply q g
    | 3 => s.loadPushed q g
    | 4 =>
      let t := eachOf (readTrims words) (fun y u => u.putTrim q g y.1 y.2) s
      bif last then ((t.setSrc q g 2).setUncal q g false).loadNext q else t
    | _ => s

/-- A response to one of Anneal's commands, `c`: to one of the load, or of the step. -/
def State.anlRsp (s : State) (q : Nat) (c : Cmd) (status : Nat) (words : List Nat) : State :=
  bif c.op == 6 then s.setAnl q { s.anlOf q with aborting := false }
  else match (s.anlOf q).sent.find? (fun y => y.1 == c.seq) with
  | some y => s.loadRsp q y.2 c status words
  | none => s.when ((s.anlOf q).stage != 0) (·.stepRsp q c.op status words)

/-- The link leaves UP: a running step ends ERROR, the load waits (R349, R356); the assembly zones of `q`
become invalid (Table 12.1). -/
def State.anlLinkLost (s : State) (q : Nat) : State :=
  let x := s.anlOf q
  let t := (s.fset (F.anlZone0Valid (16 + 2 * q)) false).fset (F.anlZone0Valid (17 + 2 * q)) false
  let t := t.setAnl q { x with aborting := false, check := true, phase := 0, acks := 0, sent := [] }
  t.when (x.stage != 0) (·.endStep q 4)

/-- A STATUS flit reaches Anneal: its temperatures, and on the first one after UP the CAL_ABORT of R349 and
the load of R352. -/
def State.anlStatus (s : State) (q temp0 temp1 cal : Nat) (trimValid : Bool) : State :=
  let x := s.anlOf q
  let t := s.when x.check (fun u =>
    let u := (u.setAnl q { x with check := false, aborting := cal != 0xFF }).setLink q { u.link q with cal := bif cal == 0xFF then 0 else cal + 1 }
    let u := u.when (cal != 0xFF) (·.commandFirst q 0x06 [cal])
    u.when (u.flag F.anlCtlEn && !trimValid) (·.loadStart q))
  (t.zoneReading (16 + 2 * q) temp0 (temp0 != 0x8000)).zoneReading (17 + 2 * q) temp1 (temp1 != 0x8000)

/-- A write of ANL_CTL (Table 12.7): setting EN starts the table load (R352); RUN_NOW makes passes due; a pass whose last
groups TAP_EN now skips completes. -/
def State.writeAnlCtl (s : State) (w : Nat) : State :=
  let t := s.store Reg.anlCtl w
  let t := t.when (!s.flag F.anlCtlEn && bitAt w 0)
    (fun u => forUpTo 4 (fun q v => ((v.setAnl q { v.anlOf q with started := false, done := [] }).loadStart q).firstDue q) u)
  forUpTo 4 (fun q u => (u.when (bitAt w (4 + q)) (fun v => (v.orw Reg.anlCtl (2 ^ (4 + q))).passDue q)).endPass q) t

/-- AGE of every group with an applied step advances at a second, saturating (Table 12.13). -/
def State.anlSecond (s : State) : State :=
  forUpTo 352 (fun i t =>
    let f := F.anlGroupAge (i / 88) (i % 88)
    bif t.fget (F.anlGroupSrc (i / 88) (i % 88)) == 3 || t.fget (F.anlGroupSteps (i / 88) (i % 88)) != 0 then
      t.putStatus (i / 88) (i % 88) f (Nat.min 65535 (t.fget f + 1)) else t) s

end Sys2Proof.Machine
end

