-- ==== Sys2Proof/Machine/PtpOps.lean ====
section
/-! DEFINITION. PTP messages that Invar builds, what it notes when one departs, and the transparent clock of HSR
pairs (R82 to R86). -/

namespace Sys2Proof.Machine

/-- A field of PTP_INTV as the byte that logMessageInterval carries. -/
def State.logByte (s : State) (x : Fld) : Nat := s.fget x

/-- A message: 34-byte header and body (IEEE 1588-2019). -/
def State.ptpMessage (s : State) (p type flags : Nat) (corr : Int) (seq control intv : Nat) (body : List Byte) : List Byte :=
  mkBytes ([type, 0x12] ++ beBytes 2 (34 + body.length) ++ [s.fget F.invPtpCtlDomain, 0] ++ beBytes 2 flags
    ++ beBytes 8 (encodeSigned corr 64) ++ [0, 0, 0, 0] ++ beBytes 10 (s.portId p) ++ beBytes 2 seq ++ [control, intv]) ++ body

/-- Destination addresses (Table 3.4). -/
def State.ptpDa (s : State) (peer : Bool) : Nat := bif peer && !s.endToEnd then 0x0180C200000E else 0x011B19000000

/-- Send a message on port `p` (R84, R86), into a quadrant that is not isolated (R28). Sync, Follow_Up and Announce carry
the pair's HSR tag in HSR modes. -/
def State.sendPtp (s : State) (p : Nat) (peer tagged oneStep : Bool) (m : List Byte) : State :=
  s.toQuad (p / 36) fun s =>
  let k := pairOf p
  let hsr := tagged && Nat.ble 2 (s.pairMode k)
  let head := mkBytes (beBytes 6 (s.ptpDa peer) ++ beBytes 6 (s.macAddr p))
  let l := head ++ net16 0x88F7 ++ m
  let f : TxFrame := { source := 1, cls := s.fget F.invPtpCtlTxClass, oneStep := oneStep, ptpOff := 14, bytes := l }
  bif hsr then
    let seq := s.fget (F.dupPair1SeqNext k)
    (s.fput (F.dupPair1SeqNext k) ((seq + 1) % 65536)).sendTo p
      { f with bytes := addHsr (s.tpid2 p) (s.fget (F.dupPair0Netid k)) (p % 2) seq l, ptpOff := 20 }
  else s.sendTo p f

/-- The flags field with twoStepFlag. -/
def twoStepFlag (b : Bool) : Nat := bif b then 0x0200 else 0

/-- A message at offset `o` has twoStepFlag. -/
def isTwoStep (o : Nat) (l : List Byte) : Bool := bitAt (byteAt l (o + 6)) 1

/-- sourcePortIdentity. -/
def ptpSrc (o : Nat) (l : List Byte) : Nat := beAt l (o + 20) 10

/-- The checks of R87 on the message at offset `o`: domain, major version, and no message of this clock's own. -/
def State.ptpGood (s : State) (o : Nat) (l : List Byte) : Bool :=
  byteAt l (o + 4) == s.fget F.invPtpCtlDomain && byteAt l (o + 1) % 16 == 2 && ptpSrc o l / 65536 != s.clockId

/-- A Signaling (0xC) or Management (0xD) message, which the host handles (R77). -/
def forHost (o : Nat) (l : List Byte) : Bool := ptpType o l == 0xC || ptpType o l == 0xD

/-- What Invar notes when its own message leaves port `p` at the stamp `t`, 1/16 ns: the Follow_Up of a
two-step Sync, the departure of a request, the follow-up of a two-step response (R82, R83). -/
def State.ptpDeparted (s : State) (p : Nat) (f : TxFrame) (t : Nat) : State :=
  let o := f.ptpOff
  let l := f.bytes
  match ptpType o l with
  | 0 => bif isTwoStep o l then
      s.sendPtp p false true false
        (s.ptpMessage p 8 0 (4096 * (t % 16 : Nat)) (ptpSeq o l) 2 (s.logByte F.invPtpIntvLogSync) (ptp80 t))
    else s
  | 1 => s.setPtp p { s.ptpOf p with left := some t }
  | 2 => s.setPtp p { s.ptpOf p with left := some t }
  | 3 => bif isTwoStep o l then
      s.sendPtp p true false false
        (s.ptpMessage p 0xA 0 (4096 * (t % 16 : Nat)) (ptpSeq o l) 5 0x7F
          (ptp80 t ++ (l.drop (o + 44)).take 10))
    else s
  | _ => s

/-! ### The transparent clock (R85) -/

/-- Remove the first table entry of a quadrant that matches. -/
def dropTc (q src seq : Nat) : List TcEntry → List TcEntry
  | [] => []
  | e :: r => bif e.quad == q && e.src == src && e.seq == seq then r else e :: dropTc q src seq r

/-- Enter a two-step Sync; a full table loses its oldest entry, counted in DISCARD of the ingress port. -/
def State.tcEnter (s : State) (inPort : Nat) (e : TcEntry) : State :=
  let mine := s.inv.tc.filter (fun x => x.quad == e.quad)
  match mine with
  | x :: _ => bif Nat.ble 64 mine.length then
      { s.ptpCount inPort 7 with inv := { s.inv with tc := dropTc x.quad x.src x.seq s.inv.tc ++ [e] } }
    else { s with inv := { s.inv with tc := s.inv.tc ++ [e] } }
  | [] => { s with inv := { s.inv with tc := s.inv.tc ++ [e] } }

/-- The bytes of a pass-through copy as it leaves port `p` at stamp `t`, and the state after (R85). A Follow_Up without a
match counts in DISCARD of its ingress port: DESIGN CHOICE, log entry 94. -/
def State.tcCorrect (s : State) (p : Nat) (f : TxFrame) (t : Nat) : List Byte × State :=
  let o := ptpOff (s.tpid2 p) f.bytes
  bif !s.flag F.invPtpCtlTcEn || etherType (s.tpid2 p) f.bytes != 0x88F7 then (f.bytes, s)
  else
    let link : Int := bif s.endToEnd || ptpType o f.bytes != 0 then 0 else (4096 * s.fget (F.invPdlyDelay f.inPort) : Nat)
    let c : Int := 4096 * ((t : Int) - f.inTs) + link
    match ptpType o f.bytes with
    | 0 => bif isTwoStep o f.bytes then
        (f.bytes, (s.tcEnter f.inPort { quad := p / 36, src := ptpSrc o f.bytes, seq := ptpSeq o f.bytes, corr := c }))
      else (setCorr o (ptpCorr o f.bytes + c) f.bytes, s.ptpCount p 6)
    | 1 => (setCorr o (ptpCorr o f.bytes + c) f.bytes, s.ptpCount p 6)
    | 8 =>
      match s.inv.tc.find? (fun e => e.quad == p / 36 && e.src == ptpSrc o f.bytes && e.seq == ptpSeq o f.bytes) with
      | some e => (setCorr o (ptpCorr o f.bytes + e.corr) f.bytes,
          { s.ptpCount p 6 with inv := { s.inv with tc := dropTc e.quad e.src e.seq s.inv.tc } })
      | none => (f.bytes, s.ptpCount f.inPort 7)
    | _ => (f.bytes, s)

end Sys2Proof.Machine
end

