-- ==== Sys2Proof/Machine/TxOps.lean ====
section
/-! DEFINITION. Transmission: candidates, selection, pre-emption and the end of a frame (R109, R115, R123, R125,
R161 to R165). -/

namespace Sys2Proof.Machine

/-- B times the byte time is longer than the longest open interval of the frame's class (R164). -/
def State.tooBig (s : State) (p : Nat) (f : TxFrame) : Bool :=
  match s.longestOpen p f.cls with
  | some n => Nat.blt (100 * n) (s.countedLen p f * s.bt p)
  | none => false

/-- The frame may start now: class gate open, class not stopped, hold (R161), eligibility and length. -/
def State.classOpen (s : State) (p : Nat) (f : TxFrame) : Bool :=
  bitAt (s.fget (F.gatePort5Gates p)) f.cls && !bitAt (s.fget (F.macPauseStsStopped p)) f.cls
  && !(s.preemptable p f && s.peActive p && s.flag (F.gatePort5Hold p))

/-- The length check of R163 for a frame of which `sent` bytes have gone. -/
def State.fits (s : State) (p sent : Nat) (f : TxFrame) : Bool :=
  let len := s.frameLen p f - sent
  s.lengthCheck p f.cls (len + s.fget (F.gatePort0Ovh p)) len (s.preemptable p f && s.peActive p)

/-- The heads of the queues of one class in the order of R162: Spine frames, pass-through, and the first
frame of each flow group of the host. -/
def classHeads (c : Nat) (l : List TxFrame) : List TxFrame :=
  let mine := l.filter (fun f => f.cls == c)
  let host := (mine.filter (fun f => f.source == 0)).foldl (fun (a : List TxFrame) f => bif a.any (fun g => g.fg == f.fg) then a else a ++ [f]) []
  ((mine.find? (fun f => f.source == 1 || f.source == 2)).toList ++ (mine.find? (fun f => f.source == 3)).toList) ++ host

/-- The frame that the MAC takes at the selection point (R161); with a pre-empted frame waiting, only an
express frame. -/
def State.pick (s : State) (p : Nat) : Option TxFrame :=
  let x := s.mac p
  let ok := fun f => (x.held.isNone || !s.preemptable p f) && !s.tooBig p f && s.classOpen p f && s.eligible p f && s.fits p 0 f
  ([7, 6, 5, 4, 3, 2, 1, 0].flatMap (fun c => classHeads c x.queue)).find? ok

/-- The first queued frame that the gates let through but that fails the length check (GB_HELD). -/
def State.markHeld (s : State) (p : Nat) : State :=
  let x := s.mac p
  let late := x.queue.filter (fun f => !f.gbHeld && s.classOpen p f && s.eligible p f && !s.fits p 0 f
    && (classHeads f.cls x.queue).any (fun g => g.id == f.id))
  let t := s.setMac p { x with queue := x.queue.map (fun f => bif late.any (fun g => g.id == f.id) then { f with gbHeld := true } else f) }
  bif late.isEmpty then s else t.gateCount p 7 late.length

/-- Take a frame out of the class queues. -/
def State.unqueue (s : State) (p id : Nat) : State :=
  s.setMac p { s.mac p with queue := (s.mac p).queue.filter (fun f => f.id != id) }

/-- Drop the queue heads that can never pass, and the heads that come up behind them, at most `n` rounds (R164). -/
def State.dropHeads (s : State) (p : Nat) : Nat → State
  | 0 => s
  | n + 1 =>
    let heads := ([7, 6, 5, 4, 3, 2, 1, 0].flatMap (fun c => classHeads c (s.mac p).queue)).filter (s.tooBig p)
    bif heads.isEmpty then s
    else (eachOf heads (fun f t => ((t.unqueue p f.id).gateCount p 0 1).copyDone f 5 0) s).dropHeads p n

/-- No head of a queue is too big to pass. -/
def State.dropTooBig (s : State) (p : Nat) : State := s.dropHeads p (s.mac p).queue.length

/-- The express frame that waits for the line (R123). -/
def State.expressWaits (s : State) (p : Nat) : Bool :=
  match s.pick p with
  | some f => !s.preemptable p f
  | none => false

/-- The fragment end of R123, if there is one. -/
def State.cutPoint (s : State) (p : Nat) (x : TxProg) : Option Nat :=
  let a := s.fget (F.macPeCtlAddFrag p)
  let least := Nat.max (s.startedBytes p x) (x.sent + 64 * (1 + a) - 4)
  let n := (least + 3) / 4 * 4
  bif Nat.ble (n + 64) (s.frameLen p x.frame) then some n else none

/-- A pre-emptable frame in progress gives way to a waiting express frame or to hold (R123); one that began as a whole
frame, before pre-emption was active, is never cut (R122). -/
def State.preemptCheck (s : State) (p : Nat) : State :=
  match (s.mac p).tx with
  | none => s
  | some x =>
    bif s.peActive p && x.smd != 0 && x.cutAt.isNone && (s.flag (F.gatePort5Hold p) || s.expressWaits p) then
      s.setMac p { s.mac p with tx := some { x with cutAt := s.cutPoint p x } }
    else s

/-- After any change at port `p`: shaper credits, pre-emption. -/
def State.refresh (s : State) (p : Nat) : State := (s.settle p).preemptCheck p

/-- The stopped classes follow the timers and MAC_FC. -/
def State.showStopped (s : State) (p : Nat) : State :=
  (s.fput (F.macPauseStsStopped p) (s.stoppedNow p (s.listedClasses p))).refresh p

/-- The bytes `a` up to `b` of a frame `l` leave in an mPacket of a pre-emptable frame (R122, R123); a frame that went as
a whole has none. -/
def State.emitPart (s : State) (p : Nat) (x : TxProg) (l : List Byte) (b check : Nat) : State :=
  s.when (x.smd != 0) (·.emit (.fragment p
    (bif x.frags == 0 then smdStart (x.smd - 1) else smdCont (x.smd - 1))
    (bif x.frags == 0 then none else some (fragCode (x.frags - 1))) ((l.drop x.sent).take (b - x.sent)) check))

/-- A fragment has ended: its mPacket leaves and the rest of the frame waits (R123). -/
def State.endFragment (s : State) (p : Nat) (x : TxProg) (n : Nat) : State :=
  let l := x.frame.bytes ++ List.replicate (60 - x.frame.bytes.length) 0
  let t := (s.emitPart p x l n (mCrc (l.take n))).charge p (n - x.sent + s.fget (F.gatePort0Ovh p)) x.startAt x.frame
  let t := t.setMac p { t.mac p with tx := none, held := some { x with sent := n, frags := x.frags + 1, cutAt := none } }
  t.macCount p 48 1

/-- Start a frame, or the continuation of one, on the line. -/
def State.startTx (s : State) (p : Nat) (x : TxProg) : State :=
  (s.setMac p { s.mac p with tx := some { x with startAt := s.counter } }).refresh p

/-- Start a frame: a pre-emptable one takes the next frame number while pre-emption is active (R122). -/
def State.startFrame (s : State) (p : Nat) (f : TxFrame) : State :=
  let m := s.mac p
  bif s.preemptable p f && s.peActive p then
    (s.setMac p { m with nextSmd := (m.nextSmd + 1) % 4 }).startTx p { frame := f, smd := m.nextSmd + 1 }
  else s.startTx p { frame := f }

/-- The port may put a verify or respond mPacket on the line: it is UP and enabled (R109), its quadrant is not isolated
(R28), and PCS_CTL.LOOP does not hold its transmitter. -/
def State.sendsMpacket (s : State) (p : Nat) : Bool := s.txUp p && !s.iso (p / 36) && s.fget (F.pcsCtlLoop p) != 2

/-- Send a verify mPacket (R125). -/
def State.sendVerify (s : State) (p : Nat) : State :=
  let t := ((s.emit (.verify p 0)).macCount p 49 1).fput (F.macPeStsTries p) (Nat.min 15 (s.fget (F.macPeStsTries p) + 1))
  (t.setMac p { t.mac p with verifyDue := false }).setVerify p 2

/-- Send a respond mPacket. -/
def State.sendRespond (s : State) (p : Nat) : State :=
  let t := (s.emit (.verify p 1)).macCount p 51 1
  t.setMac p { t.mac p with respondDue := (t.mac p).respondDue - 1 }

/-- The continuation of the pre-empted frame may be sent (R123, R163): its gate is open, hold, while it acts, is
released, and the rest fits. A stop never keeps it back (R121). -/
def State.mayContinue (s : State) (p : Nat) (x : TxProg) : Bool :=
  bitAt (s.fget (F.gatePort5Gates p)) x.frame.cls && !(s.peActive p && s.flag (F.gatePort5Hold p)) && s.fits p x.sent x.frame

/-- The MAC's choice on a free line. -/
def State.choose (s : State) (p : Nat) : State :=
  let s := (((s.settle p).dropTooBig p).settle p).markHeld p
  match s.pick p, (s.mac p).held with
  | some f, _ =>
    bif s.txUp p then (s.unqueue p f.id).startFrame p f
    else bif s.flag (F.macCtlDownDrop p) then ((s.unqueue p f.id).dropFrame p 46 2 f).refresh p
    else s
  | none, some x =>
    bif s.txUp p && s.mayContinue p x then (s.setMac p { s.mac p with held := none }).startTx p x else s
  | none, none => s

/-- SELECTION_POINT (R161): a fragment that was cut has ended; verify and respond mPackets go first. A port of an
isolated quadrant sends nothing (R28). -/
def State.selection (s : State) (p : Nat) : State :=
  let s := match (s.mac p).tx with
    | some x => (match x.cutAt with
      | some n => s.endFragment p x n
      | none => s)
    | none => s
  bif (s.mac p).tx.isSome || s.iso (p / 36) then s
  else bif s.fget (F.pcsCtlLoop p) == 2 then s
  else bif (s.mac p).verifyDue && s.sendsMpacket p then s.sendVerify p
  else bif Nat.blt 0 (s.mac p).respondDue && s.sendsMpacket p then s.sendRespond p
  else s.choose p

/-- Cast counter of a destination: n of the unicast counter, plus 1 for multicast, 2 for broadcast (R127). -/
def castOf (da : Nat) : Nat := bif da == broadcastDa then 2 else bif isGroup da then 1 else 0

/-- Size counter of a length, from the 64-byte bin on. -/
def sizeBin (len : Nat) : Nat :=
  bif Nat.ble len 64 then 0 else bif Nat.blt len 128 then 1 else bif Nat.blt len 256 then 2
  else bif Nat.blt len 512 then 3 else bif Nat.blt len 1024 then 4 else bif Nat.blt len 1519 then 5 else 6

/-- Good-frame counters from counter `n` on: frames, octets, cast and size (Table 4.8). -/
def State.countGood (s : State) (p n len da : Nat) : State :=
  (((s.macCount p n 1).macCount p (n + 1) len).macCount p (n + 2 + castOf da) 1).macCount p (n + 5 + sizeBin len) 1

/-- The bytes of a frame as they leave at stamp `t`, 1/16 ns, padded by the MAC (R83, R85, R115). -/
def State.leaving (s : State) (p : Nat) (f : TxFrame) (t : Nat) : List Byte × State :=
  let r := bif f.source == 3 then s.tcCorrect p f t
    else (bif f.oneStep then insertTime f.ptpOff t f.bytes else f.bytes, s)
  (bif f.stomp then r.1 else r.1 ++ List.replicate (60 - r.1.length) 0, r.2)

/-- TX_FRAME_DONE (R83, R123, R225): the frame has left at PCS stamp `pcs`, 1/16 ns; its transmit stamp adds
TX_LAT (R89). A copy that still arrives has not ended. -/
def State.txDone (s : State) (p pcs : Nat) : State :=
  match (s.mac p).tx with
  | none => s
  | some x =>
    bif x.cutAt.isSome || x.frame.arriving then s
    else
      let f := x.frame
      let t := pcs + s.fget (F.invPlatTxLat p)
      let len := s.frameLen p f
      let r := s.leaving p f t
      let u := (r.2.charge p (len - x.sent + s.fget (F.gatePort0Ovh p)) x.startAt f).emitPart p x r.1 r.1.length (goodFcs r.1)
      let u := u.emit (.frame p r.1 (bif f.stomp then stompedFcs r.1 else goodFcs r.1))
      let u := u.setMac p { u.mac p with tx := none }
      let u := bif f.stomp then u.pairCount (pairOf p) 15 else u.countGood p 33 len (frameDa f.bytes)
      let u := bif f.source == 1 then u.ptpDeparted p f t else u.copyDone f 0 (bif f.tsReq then t / 16 else 0)
      u.refresh p

end Sys2Proof.Machine
end

