-- ==== Sys2Proof/Machine/ScbOps.lean ====
section
/-! DEFINITION. The Schedule Book at work: gate and hold state of a port, fabric guards, edges on their way to
the comparators, activation and the walk (R149 to R170). -/

namespace Sys2Proof.Machine

/-- The gate block of port `p` can be reached: its domain is READY and its quadrant is not isolated. -/
def State.gateReach (s : State) (p : Nat) : Bool := s.open' (p / 36) 0

/-- The gate block of port `p` works. -/
def State.gateOn (s : State) (p : Nat) : Bool := s.qReady (p / 36) 0

/-- A frame on the line of port `p` is of a class whose gate is open and will be closed by the gates `g` (R165). -/
def State.overruns (s : State) (p g : Nat) : Bool :=
  match (s.mac p).tx with
  | some x => bitAt (s.fget (F.gatePort5Gates p)) x.frame.cls && !bitAt g x.frame.cls
  | none => false

/-- The port's guard is closed (R168). -/
def State.guardShut (s : State) (p : Nat) : Bool := s.scb.guards.any (fun g => g.port == p && g.phase == 2)

/-- Present list gates, hold and guard to selection (R159); a frame on the line whose class gate closes completes and
counts (R165). The stopped classes follow the list that acts (R119). -/
def State.present (s : State) (p gates : Nat) (hold : Bool) : State :=
  let shut := s.guardShut p
  let t := s.when (s.overruns p (bif shut then 0 else gates)) (·.gateCount p 1 1)
  let t := ((t.fput (F.gatePort5ListGates p) gates).fset (F.gatePort5Hold p) hold).fset (F.gatePort5Guarded p) shut
  ((t.fput (F.gatePort5Gates p) (bif shut then 0 else gates)).fset (F.pcsStsGuarded p) shut).showStopped p

/-- The port takes the state that the list prescribes now (R156, R157, R158). -/
def State.resync (s : State) (p : Nat) : State :=
  bif s.gateReach p then
    let x := s.prescribed p (s.folNow (p / 36))
    s.present p x.gates x.hold
  else s

/-- Every port takes the prescribed state. -/
def State.resyncAll (s : State) : State := eachOf allPorts (fun p t => t.resync p) s

/-! ### Guards (R165 to R170) -/

/-- The pre-empted frame of a port whose gates the guard closes loses its rest (R165). -/
def State.guardFrames (s : State) (p : Nat) : State :=
  match (s.mac p).held with
  | some y => (((s.setMac p { s.mac p with held := none }).gateCount p 4 1).macCount p 46 1).copyDone y.frame 6 0
  | none => s

/-- Change the guard intervals. -/
def State.onGuards (s : State) (f : List Guard → List Guard) : State := { s with scb := { s.scb with guards := f s.scb.guards } }

/-- The row or column bound to port `p` is touched by a commit's moves (R166). -/
def State.touches (s : State) (p : Nat) (moves : List (Nat × Nat × Nat)) : Bool :=
  (s.flag (F.gatePort1RowV p) && moves.any (fun m => m.2.1 == s.fget (F.gatePort1FabRow p) || m.2.2 == s.fget (F.gatePort1FabRow p)))
  || (s.flag (F.gatePort1ColV p) && moves.any (fun m => m.1 == s.fget (F.gatePort1FabCol p)))

/-- GUARD_LATE counts at the port and in SCB_CNT. -/
def State.guardLate (s : State) (p : Nat) : State := (s.gateCount p 3 1).scbCount 2

/-- The close instant before the arming limit, in 1/100 ns below T_c: PROP_TX + G_PRE (R167). -/
def State.closeLead (s : State) (p : Nat) : Nat := 100 * s.fget (F.gatePort4PropTx p) + s.gPre p

/-- One port learns of a commit with instant `tc` (R167): a guard interval is computed. -/
def State.learnPort (s : State) (id tc p : Nat) : State :=
  let early := (100 * tc - s.closeLead p) / 100
  let least := s.folNow 4 + 1200
  let cl := Nat.max early least
  let op := tc + s.fget (F.gatePort3GPost p)
  let t := s.when (Nat.blt early least || Nat.ble op cl) (·.guardLate p)
  bif Nat.ble op cl then t
  else t.onGuards (fun l => l ++ [{ port := p, commits := [(id, tc)], close := cl, reopen := op }])

/-- The Schedule Book computes guards: its domain is READY and its block is not held in reset (R179). -/
def State.scbWorks (s : State) : Bool := s.ready 48 && !s.unitHeld 4

/-- The Schedule Book learns a commit's touched rows and columns (R166, R167, R324, R325): a port that has an
interval for the commit at this T_c keeps it. -/
def State.learn (s : State) (id tc : Nat) (moves : List (Nat × Nat × Nat)) : State :=
  eachOf (allPorts.filter (fun p => s.gateOn p && s.touches p moves
    && !s.scb.guards.any (fun g => g.port == p && g.commits.any (· == (id, tc)))))
    (fun p t => t.learnPort id tc p) s

/-- The edges of a guard interval are armed and its reopening has not acted. -/
def Guard.live (g : Guard) : Bool := g.phase == 1 || g.phase == 2

/-- A computed interval of port `p` closes at `close`. -/
def Guard.fresh (p close : Nat) (g : Guard) : Bool := g.port == p && g.phase == 0 && g.close == close

/-- The merged interval of a new close, armed at place `n`, and the armed intervals it meets (R167): an armed close
stays armed, and so does a reopening that the merge does not move later. -/
def mergeGuards (n p close : Nat) (l : List Guard) : Guard × List Guard :=
  let meet := fun (g : Guard) => g.port == p && g.live && Nat.blt close (g.reopen + 1000)
  let old := l.filter meet
  let all := old ++ l.filter (Guard.fresh p close)
  let op := all.foldl (fun m g => Nat.max m g.reopen) 0
  ({ port := p, commits := all.flatMap (·.commits), close := all.foldl (fun m g => Nat.min m g.close) close
     reopen := op, phase := bif old.any (fun g => g.phase == 2) then 2 else 1
     order := old.foldl (fun m g => Nat.min m g.order) n
     reorder := (old.filter (fun g => g.reopen == op)).foldl (fun m g => Nat.max m g.reorder) 0 },
   l.filter (fun g => !(meet g || Guard.fresh p close g)))

/-- One more action is armed (R69). -/
def State.arming (s : State) : State := { s with armings := s.armings + 1 }

/-- A schedule action for a quadrant that is isolated, or whose gate block is not READY, is discarded at its gate and
counted (R28, R158, R450). -/
def State.isoDrop (s : State) (p : Nat) : State := s.scbCount (5 + p / 36)

/-- The close of port `p` at instant `t` is armed: it is merged with the intervals it meets, and GUARD_CLOSE
counts it (R167). -/
def State.armGuard (s : State) (p t : Nat) : State :=
  let n := (s.scb.guards.filter (Guard.fresh p t)).length
  bif n == 0 then s
  else bif !s.gateReach p then (s.onGuards (fun l => l.filter (fun g => !Guard.fresh p t g))).isoDrop p
  else
    let m := mergeGuards (s.armings + 1) p t s.scb.guards
    ((s.arming).onGuards (fun _ => m.2 ++ [m.1])).gateCount p 2 n

/-- The reopening of port `p` at instant `t` is armed. -/
def State.armReopen (s : State) (p t : Nat) : State :=
  let mine := fun (g : Guard) => g.port == p && g.live && g.reopen == t
  bif !s.scb.guards.any mine then s
  else bif !s.gateReach p then s.isoDrop p
  else (s.arming).onGuards (fun l => l.map (fun g => bif mine g then { g with reorder := s.armings + 1 } else g))

/-- The gates of a port as its list and its guard leave them. -/
def State.represent (s : State) (p : Nat) : State :=
  s.present p (s.fget (F.gatePort5ListGates p)) (s.flag (F.gatePort5Hold p))

/-- An armed guard close acts (R165, R168). -/
def State.closeGuard (s : State) (g : Guard) : State :=
  let t := (s.onGuards (fun l => l.map (fun x => bif x == g then { x with phase := 2 } else x)))
  bif !s.gateOn g.port then t
  else (t.represent g.port).when (!s.guardShut g.port) (·.guardFrames g.port)

/-- The commit is staged, or dispatched and not executed. -/
def State.undecided (s : State) (id : Nat) : Bool :=
  (s.fab.staged ++ s.fab.running).any (fun c => c.id == id && !c.executed)

/-- A closed guard reopens (R111, R168): its interval has ended, and it is remembered while GUARD_VOID may have to count
it. A reopening that an isolation gate discarded reaches no port. -/
def State.reopenGuard (s : State) (g : Guard) : State :=
  let left := g.commits.filter (fun x => s.undecided x.1)
  let t := s.onGuards (fun l => bif left.isEmpty then l.filter (· != g)
    else l.map (fun x => bif x == g then { x with phase := 3, commits := left } else x))
  bif t.guardShut g.port || !s.gateOn g.port || (s.iso (g.port / 36) && g.reorder == 0) then t
  else (t.represent g.port).endRelock g.port

/-- GUARD_CLOSE (R165, R167): the earliest armed close of the port acts. -/
def State.guardCloses (s : State) (p : Nat) : State :=
  match s.scb.guards.filter (fun g => g.port == p && g.phase == 1) with
  | [] => s
  | g :: r => s.closeGuard (r.foldl (fun a b => bif Nat.blt b.close a.close then b else a) g)

/-- GUARD_REOPEN (R111, R168): the closed interval of the port that reopens first has ended. -/
def State.guardReopens (s : State) (p : Nat) : State :=
  match s.scb.guards.filter (fun g => g.port == p && g.phase == 2) with
  | [] => s
  | g :: r => s.reopenGuard (r.foldl (fun a b => bif Nat.blt b.reopen a.reopen then b else a) g)

/-- A guard interval without what it holds of a commit. -/
def Guard.without (id : Nat) (g : Guard) : Guard := { g with commits := g.commits.filter (fun x => x.1 != id) }

/-- A commit has executed: an interval that only it needed is remembered no longer once it has ended; one that runs, or
has yet to be armed, goes on (R167, R169). -/
def State.endGuards (s : State) (id : Nat) : State :=
  s.onGuards (fun l => (l.map (Guard.without id)).filter (fun g => g.live || g.phase == 0 || !g.commits.isEmpty))

/-- A commit does not execute: intervals that only it needed are forgotten, but those that still run. -/
def State.forgetGuards (s : State) (id : Nat) : State :=
  s.onGuards (fun l => (l.filter (fun g => g.live || g.commits.isEmpty || !(g.without id).commits.isEmpty)).map (Guard.without id))

/-- A commit does not execute (R170): intervals not yet armed are dropped, and GUARD_VOID counts each of the others. -/
def State.voidGuards (s : State) (id : Nat) : State :=
  let l := s.scb.guards.filter (fun g => g.phase != 0 && g.commits.any (fun x => x.1 == id))
  (eachOf l (fun g t => t.gateCount g.port 5 (g.commits.filter (fun x => x.1 == id)).length) s).forgetGuards id

/-! ### Edges (R53 to R56, R154, R155, R160) -/

/-- The pending list acts at instant `t`, so the active one has ended (R152). -/
def State.pastSwitch (s : State) (t : Nat) : Bool := s.flag F.scbStsPend && Nat.ble s.scb.next t

/-- The bank whose entries act at instant `t`. -/
def State.bankAt (s : State) (t : Nat) : Nat := bif s.pastSwitch t then s.scb.bank else s.fget F.scbStsActBank

/-- A list gives instant `t` an action. -/
def State.listAt (s : State) (t : Nat) : Bool := s.flag F.scbCtlEn && (s.pastSwitch t || (s.listRuns && Nat.ble s.scb.start t))

/-- The actions that fall on instant `t` at port `p`: those of the list that acts then, but entries that cannot be
read. -/
def State.actionsAt (s : State) (p t : Nat) (bad : List Nat) : List Action :=
  bif !s.flag F.scbCtlEn then []
  else bif s.pastSwitch t then
    let c := s.bankCycle s.scb.bank
    bif c == 0 then []
    else (s.actionsOf s.scb.bank p (s.fget (F.gatePort0Group p)) (s.entriesBut s.scb.bank bad)).filter
      (fun a => a.at' == (t - s.scb.next) % c)
  else bif !s.listRuns || s.cycle == 0 || Nat.blt t s.scb.start then []
  else (s.actionsOf (s.fget F.scbStsActBank) p (Table.get 0 p s.scb.group) (s.entriesBut (s.fget F.scbStsActBank) bad)).filter
    (fun a => a.at' == s.offsetOf t)

/-- The edge of kind 0 or 1 that the lists give port `p` at instant `t`: 0 the gate edge of the entries at
`t`, 1 the hold raise of a HOLD action at `t` + HOLD_ADV. -/
def State.listEdge (s : State) (p kind t : Nat) (bad : List Nat) : Option Edge :=
  let at' := bif kind == 1 then t + s.holdAdv p else t
  let l := s.actionsAt p at' bad
  match l with
  | [] => none
  | _ =>
    let last := l.foldl (fun h a => bif a.op == 1 then 2 else bif a.op == 2 then 1 else h) 0
    bif kind == 1 then
      bif l.any (fun a => a.op == 1) then some { port := p, kind := 1, t := t, inst := at', hold := 2, fresh := s.pastSwitch at' } else none
    else some { port := p, kind := 0, t := t, inst := at', gates := l.foldl (fun _ a => a.gates) 0, hold := last, fresh := s.pastSwitch at' }

/-- Change the edges. -/
def State.onEdges (s : State) (f : List Edge → List Edge) : State := { s with scb := { s.scb with edges := f s.scb.edges } }

/-- An edge acts (R155, R160): the gates and the hold of its port. An old entry whose instant is T_sw or later is not
executed (R152). -/
def State.actEdge (s : State) (e : Edge) : State :=
  bif !s.listActs e.port || !s.gateOn e.port || (!e.fresh && s.pastSwitch e.inst) then s
  else
    let p := e.port
    let gates := bif e.kind == 0 then e.gates else s.fget (F.gatePort5ListGates p)
    let hold := bif e.hold == 2 then true else bif e.hold == 1 then false else s.flag (F.gatePort5Hold p)
    s.present p gates hold

/-- The first armed edge of a port of one kind, hold edges included. -/
def firstEdge (p kind : Nat) (l : List Edge) : Option Edge :=
  match l.find? (fun e => e.port == p && e.kind == kind && e.armed) with
  | none => none
  | some e => some ((l.filter (fun x => x.port == p && x.kind == kind && x.armed)).foldl
      (fun a b => bif Nat.blt b.t a.t then b else a) e)

/-- The edges but the old list's that the pending one has withdrawn (R152). -/
def State.validEdges (s : State) : List Edge := s.scb.edges.filter (fun e => e.fresh || !s.pastSwitch e.inst)

/-- An armed edge is released. -/
def State.release (s : State) (e : Edge) : State := (s.onEdges (fun l => l.filter (· != e))).actEdge e

/-- Release the first armed edge of port `p`. -/
def State.fireEdge (s : State) (p kind : Nat) : State :=
  match firstEdge p kind s.validEdges with
  | some e => s.release e
  | none => s

/-- Release the armed edge of port `p` at instant `t`. -/
def State.fireAt (s : State) (p kind t : Nat) : State :=
  match firstEdge p kind (s.validEdges.filter (fun e => e.t == t)) with
  | some e => s.release e
  | none => s

/-- The late close at instant `t`, once armed, closes the interval that it begins or joins (R55, R167). -/
def State.closeLate (s : State) (p t : Nat) : State :=
  match s.scb.guards.find? (fun g => g.port == p && g.phase == 1 && Nat.ble g.close t && Nat.ble t g.reopen) with
  | some g => s.closeGuard g
  | none => s

/-- The late reopening at instant `t` ends its interval. -/
def State.reopenLate (s : State) (p t : Nat) : State :=
  match s.scb.guards.find? (fun g => g.port == p && g.phase == 2 && g.reopen == t) with
  | some g => s.reopenGuard g
  | none => s

/-! ### Activation (R150 to R152) -/

/-- The instant that three words in the layout of INV_NOW give, ns. -/
def State.instantAt (s : State) (a : Nat) : Nat :=
  (s.rd (a + 4) + 2 ^ 32 * bitsOf (s.rd (a + 8)) 0 16) * 1000000000 + s.rd a

/-- Store an instant in three words in that layout. -/
def State.putInstant (s : State) (a t frac : Nat) : State :=
  ((s.wr a (t % 1000000000)).wr (a + 4) (t / 1000000000 % 2 ^ 32)).wr (a + 8) (t / 1000000000 / 2 ^ 32 % 2 ^ 16 + 2 ^ 16 * frac)

/-- A bank is rejected (R150). -/
def State.rejectBank (s : State) (code : Nat) : State := (s.fput F.scbStsErr code).scbEvent 1

/-- A write of SCB_ACT (R150, R151): ABORT acts first. -/
def State.writeScbAct (s : State) (w : Nat) : State :=
  let s := s.when (bitAt w 2 && s.flag F.scbStsPend) fun t => (t.fset F.scbStsPend false).onEdges (fun l => l.filter (fun e => !e.fresh))
  bif !bitAt w 0 then s
  else
    let b := bitsOf w 1 1
    bif s.flag F.scbStsValidating || s.flag F.scbStsPend || (s.flag F.scbStsRunning && b == s.fget F.scbStsActBank) then s.rejectBank 13
    else
      let t := s.fset F.scbStsValidating true
      { t with scb := { t.scb with bank := b, base := t.instantAt Reg.scbPendBase0 } }

/-- The first whole nanosecond of the switched Spine's follower that does not lie before its count. -/
def State.folUp (s : State) : Nat := (s.folCounter 4 + nsUnit - 1) / nsUnit

/-- The first grid point at least 2 000 ns ahead (R151). -/
def firstGrid (base cycle least : Nat) : Nat := bif Nat.ble least base then base else base + (least - base + cycle - 1) / cycle * cycle

/-- VALIDATION_DONE (R150, R151). -/
def State.validated (s : State) : State :=
  bif !s.flag F.scbStsValidating then s
  else
    let t := s.fset F.scbStsValidating false
    let c := s.validate s.scb.bank
    bif c != 0 then t.rejectBank c
    else
      let sw := firstGrid s.scb.base (s.bankCycle s.scb.bank) (s.folUp + 2000)
      let t := { t.fset F.scbStsPend true with scb := { t.scb with next := sw } }
      t.when (sw != s.scb.base) (fun u => (u.scbCount 0).scbEvent 2)

/-- BANK_SWITCH (R151, R152): the new bank becomes active, its groups are latched, the old list's edges at or
after T_sw are gone, and every port takes the state at offset 0. -/
def State.bankSwitch (s : State) : State :=
  bif !s.flag F.scbStsPend then s
  else
    let b := s.scb.bank
    let sw := s.scb.next
    let t := ((s.fset F.scbStsPend false).fput F.scbStsActBank b).fset F.scbStsRunning true
    let t := ((t.putInstant Reg.scbSw0 sw 0).wr Reg.scbActCycle (s.bankCycle b)).wr Reg.scbCycleCnt 0
    let g : Table Nat := allPorts.foldl (fun m p => Table.put 0 (s.fget (F.gatePort0Group p)) p m) []
    let t := { t with scb := { t.scb with start := sw, walk := sw, group := g, edges := (t.scb.edges.filter (fun e => Nat.blt e.inst sw || e.fresh)).map (fun e => { e with fresh := false }) } }
    (eachOf allPorts (fun p u => bif u.gateReach p && u.listActs p then
      let x := stateAt (u.activeActions p) 0
      u.present p x.gates x.hold else u) t).scbEvent 0 |>.pulse 22

/-- SCB_CYCLE_START (R148, R151): the cycle index counts, and the INIT words apply ahead of every entry at
offset 0. -/
def State.cycleStart (s : State) : State :=
  bif !s.flag F.scbStsRunning then s
  else
    let t := s.cnt Reg.scbCycleCnt
    eachOf allPorts (fun p u => bif u.gateReach p && u.listActs p then
      let x := ((u.activeActions p).filter (fun a => a.at' == 0)).foldl applyAction { hold := u.flag (F.gatePort5Hold p) }
      u.present p x.gates x.hold else u) t

/-- The COMMIT entries of the active list with their first instants at or after `t`, the earliest first. -/
def State.nextCommit (s : State) (t : Nat) : Option (Nat × SchedEntry) :=
  let c := s.cycle
  let l := (s.entries (s.fget F.scbStsActBank)).filter (fun e => e.type == 2)
  bif c == 0 then none
  else (l.map (fun e => (firstGrid (s.scb.start + e.offset) c t, e))).foldl
    (fun (m : Option (Nat × SchedEntry)) x => match m with
      | none => some x
      | some y => bif Nat.blt x.1 y.1 then some x else some y) none

/-- The bank of the Schedule RAM word at `a` is not the active one, one in validation or a pending one (R149). -/
def State.schedOpen (s : State) (a : Nat) : Bool :=
  let b := (a - 0x400000) / 0x200000
  !((s.flag F.scbStsRunning && b == s.fget F.scbStsActBank)
    || ((s.flag F.scbStsValidating || s.flag F.scbStsPend) && b == s.scb.bank))

/-- A write into Schedule RAM (R149): a bank in use does not change. -/
def State.writeSched (s : State) (a v : Nat) : State := bif s.schedOpen a then s.wr a v else s.scbCount 3

/-- A write of SCB_CTL (R157). -/
def State.writeScbCtl (s : State) (w : Nat) : State :=
  let t := s.store Reg.scbCtl w
  bif t.flag F.scbCtlEn == s.flag F.scbCtlEn then t
  else (t.when (t.flag F.scbCtlEn) (fun u => { u with scb := { u.scb with walk := Nat.max u.scb.walk (u.folNow 4) } })).resyncAll

end Sys2Proof.Machine
end

