-- ==== Sys2Proof/Machine/FabOps.lean ====
section
/-! DEFINITION. The commit collector, the light-loss detectors and the protection policy engine: maps, the
queue of staged commits, dispatch, completion, blanks and notice frames (R311 to R342). -/

namespace Sys2Proof.Machine

/-! ### Maps (R311 to R314) -/

/-- Map slot `m`. -/
def mapBase (m : Nat) : Nat := 0x800000 + 0x800 * m

/-- The 16 bits of column `c` in a table of rows at `a`. -/
def State.rowAt (s : State) (a c : Nat) : Nat := bitsOf (s.rd (a + 4 * (c / 2))) (16 * (c % 2)) 16

/-- The in-force map F: the row that feeds column `c`. -/
def State.fmap (s : State) (c : Nat) : Nat := s.rowAt 0x888000 c

/-- F as a list over the columns. -/
def State.fmaps (s : State) : List Nat := (List.range 512).map s.fmap

/-- The word of F that holds column `c`. -/
def fWord (c : Nat) : Nat := 0x888000 + 4 * (c / 2)

/-- Store the row of a column in F, with its check bits (R428). -/
def State.setF (s : State) (c r : Nat) : State := (s.fput ⟨fWord c, 16 * (c % 2), 16⟩ r).memWritten 35 0 (fWord c)

/-- F reads without an uncorrectable error in the columns that satisfy `p` (R342). -/
def State.fGood (s : State) (p : Nat → Bool) : Bool := (List.range 512).all (fun c => !p c || s.readable (fWord c))

/-- F is read. -/
def State.fRead (s : State) : State := s.touch 0x888000 256

/-- The columns that a slot specifies, with their 16-bit row words (R312). -/
def State.slotSpec (s : State) (m : Nat) : List (Nat × Nat) :=
  ((List.range 512).filter (fun c => s.bitOf (mapBase m + 0x400 + 4 * (c / 32)) (c % 32))).map
    (fun c => (c, s.rowAt (mapBase m) c))

/-- The CRC of a slot matches (R312). -/
def State.slotCrc (s : State) (m : Nat) : Bool :=
  crc32c (bytesOfWords (s.words (mapBase m) 272)) == s.rd (mapBase m + 0x440)

/-- The words of a slot read without an uncorrectable error (R342, R428). -/
def State.slotReadable (s : State) (m : Nat) : Bool := s.wordsReadable (mapBase m) 273

/-- A base map with the specified columns replaced. -/
def mergeMap (base : List Nat) (l : List (Nat × Nat)) : List Nat := l.foldl (fun b x => b.set x.1 x.2) base

/-- Each row 0..511 feeds at most one column. -/
def rowsOnce : List Nat → Bool
  | [] => true
  | r :: t => (Nat.ble 512 r || !t.any (· == r)) && rowsOnce t

/-- The checks of R313 on a specification: 0, MAP_INVALID or CONFLICT. A 16-bit word of at most 0x200 has its
reserved bits 0. -/
def checkSpec (base : List Nat) (l : List (Nat × Nat)) : Nat :=
  bif !l.all (fun x => Nat.ble x.2 0x200) then 5
  else bif rowsOnce (mergeMap base l) then 0 else 6

/-- Changed columns with old and new row, from column `c` on (R313). -/
def movesOf (c : Nat) : List Nat → List Nat → List (Nat × Nat × Nat)
  | a :: l, b :: m => bif a == b then movesOf (c + 1) l m else (c, a, b) :: movesOf (c + 1) l m
  | _, _ => []

/-- F takes the new rows of a commit. -/
def State.applyMoves (s : State) (l : List (Nat × Nat × Nat)) : State := eachOf l (fun x t => t.setF x.1 x.2.2) s

/-- Two change sets share a column or a row. -/
def movesMeet (l m : List (Nat × Nat × Nat)) : Bool :=
  l.any (fun x => m.any (fun y => x.1 == y.1
    || (Nat.blt x.2.1 512 && (x.2.1 == y.2.1 || x.2.1 == y.2.2))
    || (Nat.blt x.2.2 512 && (x.2.2 == y.2.1 || x.2.2 == y.2.2))))

/-! ### The queue -/

/-- The collector and the policy engine work: PD49 is READY and unit 5 is not held in reset (R342). -/
def State.fabWorks (s : State) : Bool := s.ready 49 && !s.unitHeld 5

/-- Change the collector's record; STAGED, EXEC and QUEUED follow. -/
def State.onFab (s : State) (f : Fab → Fab) : State :=
  let x := f s.fab
  ((({ s with fab := x }).fput F.fabStsStaged x.staged.length).fput F.fabStsExec x.running.length).fput
    F.polStsQueued x.decl.length

/-- Change one commit wherever it stands. -/
def State.onCommit (s : State) (id : Nat) (f : Commit → Commit) : State :=
  let g := fun (c : Commit) => bif c.id == id then f c else c
  s.onFab (fun x => { x with staged := x.staged.map g, running := x.running.map g })

/-- A commit by its number. -/
def State.commitOf (s : State) (id : Nat) : Option Commit :=
  (s.fab.staged ++ s.fab.running).find? (fun c => c.id == id)

/-- Insert in T_c order, after equal instants (R320). -/
def insertCommit (c : Commit) : List Commit → List Commit
  | [] => [c]
  | x :: r => bif Nat.blt c.tc x.tc then c :: x :: r else x :: insertCommit c r

/-- Every staged commit behind commit `id` must be resolved again (R324). -/
def unresolveAfter (id : Nat) (found : Bool) : List Commit → List Commit
  | [] => []
  | c :: r =>
    (bif found then { c with resolved := false } else c) :: unresolveAfter id (found || c.id == id) r

/-! ### Policy entries (R334) -/

def polAddr (i : Nat) : Nat := 0x880000 + 32 * i
def Pol.en (i : Nat) : Fld := ⟨polAddr i, 0, 1⟩
def Pol.revert (i : Nat) : Fld := ⟨polAddr i, 1, 1⟩
def Pol.notice (i : Nat) : Fld := ⟨polAddr i, 2, 1⟩
def Pol.state (i : Nat) : Fld := ⟨polAddr i, 4, 2⟩
def Pol.nmove (i : Nat) : Fld := ⟨polAddr i, 8, 3⟩
def Pol.nport (i : Nat) : Fld := ⟨polAddr i + 4, 0, 8⟩
def Pol.col (i n : Nat) : Fld := ⟨polAddr i + 8 + 4 * n, 0, 9⟩
def Pol.row (i n : Nat) : Fld := ⟨polAddr i + 8 + 4 * n, 16, 10⟩
def Pol.work (i n : Nat) : Fld := ⟨polAddr i + 24 + 4 * (n / 2), 16 * (n % 2), 10⟩

/-- The engine stores a field of a policy entry, with the check bits of its word (R428). -/
def State.polPut (s : State) (f : Fld) (n : Nat) : State := (s.fput f n).memWritten 35 0 f.addr

/-- Entry `i` reads without an uncorrectable error; otherwise it acts as EN = 0 (R342). -/
def State.polGood (s : State) (i : Nat) : Bool := s.wordsReadable (polAddr i) 8

/-- Entry `i` is read. -/
def State.polRead (s : State) (i : Nat) : State := s.touch (polAddr i) 8

/-- The moves of an entry: column and protection row. -/
def State.polMoves (s : State) (i : Nat) : List (Nat × Nat × Nat) :=
  (List.range (s.fget (Pol.nmove i))).map (fun n => (n, s.fget (Pol.col i n), s.fget (Pol.row i n)))

/-- The entry acts: EN = 1 and NMOVE is 1..4. -/
def State.polActs (s : State) (i : Nat) : Bool :=
  s.flag (Pol.en i) && Nat.ble 1 (s.fget (Pol.nmove i)) && Nat.ble (s.fget (Pol.nmove i)) 4

/-- The bytes of a notice frame from DA to the pad (Table 11.9); `l` lists the moves of the entry that joined: number,
column, new row. -/
def State.noticeBytes (s : State) (i evt t : Nat) (l : List (Nat × Nat × Nat)) : List Nat :=
  let da := s.fget F.polNdaHiNdaHi * 2 ^ 32 + s.rd Reg.polNdaLo
  let tag := bif s.flag F.polNfmtVlan then beBytes 2 0x8100 ++ beBytes 2 (s.fget F.polNtciTci) else []
  let moves := (List.range 4).flatMap (fun n => match l.find? (fun x => x.1 == n) with
    | some x => beBytes 2 x.2.1 ++ beBytes 2 x.2.2
    | none => [255, 255, 255, 255])
  let b := beBytes 6 da ++ beBytes 6 (s.macAddr (s.fget (Pol.nport i))) ++ tag ++ beBytes 2 (s.fget F.polNfmtEtype)
    ++ [16 + evt, l.length] ++ beBytes 2 (s.fget F.polCtlHubId) ++ beBytes 2 i ++ beBytes 2 (s.fget F.polStsNseq)
    ++ beBytes 4 (fsSec t) ++ beBytes 4 (fsNs t) ++ moves
  padTo (Nat.max 60 b.length) b

/-- Send a Quicksilver notice frame on NPORT when the entry asks for it (R339); no port has a number above
143. -/
def State.noticeFrame (s : State) (i evt t : Nat) (l : List (Nat × Nat × Nat)) : State :=
  let p := s.fget (Pol.nport i)
  bif !s.flag (Pol.notice i) || Nat.blt 143 p then s
  else
    ((s.toQuad (p / 36) (·.hostSend p { source := 2, cls := 7, bytes := mkBytes (s.noticeBytes i evt t l) })).fput F.polStsNseq
      ((s.fget F.polStsNseq + 1) % 65536)).polCount 9

/-- A switch, failure, restoration or revert of entry `i` (R339): POL_EVT, Bronze, notice. -/
def State.polTell (s : State) (j i moves : Nat) : State := s.polEvent j i (s.fget (Pol.state i)) moves

/-! ### Completion, rejection and discard (R328) -/

/-- FAB_LAST and unit 1 of a ring's entry take an outcome (R317, R328); an entry that its ring has abandoned takes none. -/
def State.fabOutcome (s : State) (c : Commit) (res qmask settle ok bad : Nat) : State :=
  let w0 := res + 2 ^ 4 * (c.src % 4) + 2 ^ 6 * (bif c.src == 1 then c.ring - 2304 else 0)
    + 2 ^ 16 * (bif Nat.blt c.src 2 then c.map else 0) + 2 ^ 24 * qmask
  let t := (((s.wr Reg.fabLast0 w0).wr Reg.fabLast1 c.tag).wr Reg.fabLast2 (fsNs c.tc)).wr Reg.fabLast3 (fsSec c.tc)
  let t := (((t.wr Reg.fabLast4 (fsNs (s.folNow 4))).wr Reg.fabLast5 (fsSec (s.folNow 4))).wr Reg.fabLast6 settle).wr Reg.fabLast7 (ok + 2 ^ 11 * bad)
  bif c.src == 1 && (t.entryAt c.ring c.pos).isSome then
    let t := t.when c.retimed (fun u => u.ringWrite c.ring (u.unitAddr c.ring c.pos + 8) [fsNs c.tc, fsSec c.tc])
    (t.ringWrite c.ring (t.unitAddr c.ring c.pos + 16)
      [res + 2 ^ 4 * qmask + 2 ^ 16 * Nat.min settle 65535, fsNs (s.folNow 4), fsSec (s.folNow 4), ok + 2 ^ 11 * bad]).entriesDone c.ring [c.pos]
  else t

/-- The counter of a result (FAB_CNT). -/
def resultCounter (res : Nat) : Nat := bif res == 11 then 13 else bif res == 12 then 12 else res + 1

/-- The notice of a Schedule Book commit with NOTIFY = 1 (R328). -/
def State.notifyDone (s : State) (c : Commit) (res settle : Nat) : State :=
  s.when (c.src == 0 && c.notify) (·.notice 0x20F 68 c.tag [res, c.map, settle])

/-- A revert commit has ended (R338): `good` for OK and PARTIAL. -/
def State.revertDone (s : State) (c : Commit) (good : Bool) : State :=
  bif c.src != 3 then s
  else bif good then
    let l := (s.polMoves c.tag).filterMap (fun m =>
      (c.moves.find? (fun x => x.1 == m.2.1)).map (fun x => (m.1, m.2.1, x.2.2)))
    ((((s.polPut (Pol.state c.tag) 0).polCount 7).polTell 3 c.tag l.length).noticeFrame c.tag 2 c.tc l)
  else (((s.polPut (Pol.state c.tag) 1).polCount 8).polTell 4 c.tag 0).corrected 44 0

/-- A commit leaves without executing (R318, R321, R322, R325 reject it; R152, R317, R337 discard it): every
staged commit behind it is resolved again (R324). -/
def State.refuseCommit (s : State) (c : Commit) (res : Nat) : State :=
  let t := s.onFab (fun x => { x with
    staged := (unresolveAfter c.id false x.staged).filter (fun y => y.id != c.id)
    running := x.running.filter (fun y => y.id != c.id) })
  let t := (t.fabOutcome c res c.got 0 0 0).fabCount (resultCounter res)
  let t := t.fabEvent (bif res == 8 || res == 9 then 2 else 1) c.tag res c.map
  ((t.notifyDone c res 0).revertDone c false).voidGuards c.id

/-- Every participating quadrant has reported and the commit's instant has passed: it completes (R328). -/
def State.tryComplete (s : State) (id : Nat) : State :=
  match s.fab.running.find? (fun c => c.id == id) with
  | none => s
  | some c =>
    bif c.owe != 0 || !c.executed then s
    else
      let part := c.removed || c.bad != 0
      let settle := c.settle - c.tc
      let t := s.onFab (fun x => { x with running := x.running.filter (fun y => y.id != id) })
      let t := (t.fabOutcome c (bit part) c.got settle c.ok c.bad).fabCount (bif part then 2 else 1)
      let t := t.when part (fun u => (u.fabEvent 0 c.tag 1 c.map).corrected 43 0)
      ((t.notifyDone c (bit part) settle).revertDone c true).pulse 21

/-- Quadrant `q` takes no further part in any commit (R329). -/
def State.dropQuadrant (s : State) (q : Nat) : State :=
  eachOf s.fab.running (fun c t =>
    (t.onCommit c.id (fun x => bif bitAt x.owe q then { x with owe := x.owe - 2 ^ q, removed := true } else x)).tryComplete c.id) s

/-! ### Acceptance (R315 to R319) -/

/-- The instant that FS64 words name: seconds [47:32] place it nearest to now (Table 11.4). -/
def nearInstant (now ns sec : Nat) : Nat :=
  let cur := now / 1000000000
  let x := cur / 2 ^ 32 * 2 ^ 32 + sec
  let y := bif Nat.blt (cur + 2 ^ 31) x && Nat.ble (2 ^ 32) x then x - 2 ^ 32
    else bif Nat.blt (x + 2 ^ 31) cur then x + 2 ^ 32 else x
  y * 1000000000 + ns

/-- T_c of the latest staged, dispatched or executed non-protection commit (R318). -/
def State.latestTc (s : State) : Nat :=
  ((s.fab.staged ++ s.fab.running).filter (fun c => c.src != 2)).foldl (fun m c => Nat.max m c.tc) s.fab.lastTc

/-- The first code of R318 that rejects a commit; 0 for none. -/
def State.acceptCode (s : State) (c : Commit) (format late : Bool) : Nat :=
  bif !s.flag F.fabCtlEn then 11
  else bif format then 12
  else bif late then 2
  else bif (s.fab.staged ++ s.fab.running).any (fun x => x.src != 2 && Nat.ble c.tc x.tc) then 4
  else bif s.fab.lastTc != 0 && Nat.blt c.tc (s.latestTc + 2000) then 3
  else bif (s.fab.staged ++ s.fab.running).any (fun x => x.src != 2 && Nat.blt c.tc (x.tc + 2000)) then 3
  else bif Nat.ble 8 s.fab.staged.length then 7
  else 0

/-- The collector takes a non-protection commit (R315, R318, R319). -/
def State.takeCommit (s : State) (c : Commit) (format : Bool) : State :=
  bif !s.fabWorks then s
  else
    let on := s.flag F.fabCtlEn && !format
    let late := Nat.blt c.tc (s.folNow 4 + 2000) && !c.asap
    let re := on && c.asap && Nat.blt c.tc (s.folNow 4 + s.fget F.fabCtlAsapLead)
    let c := { c with id := s.fab.nextId, tc := bif re then s.folNow 4 + s.fget F.fabCtlAsapLead else c.tc, retimed := re }
    let t := (s.onFab (fun x => { x with nextId := x.nextId + 1 })).when re (·.fabCount 14)
    let code := t.acceptCode c format late
    bif code != 0 then t.refuseCommit c code
    else (t.onFab (fun x => { x with staged := insertCommit c x.staged })).fabCount 0

/-- A COMMIT entry of the Schedule Book with its instant (R316, Table 11.3). -/
def State.handOver (s : State) (tc map arg : Nat) : State :=
  s.takeCommit { src := 0, map := map, tag := bitsOf arg 0 16, asap := bitAt arg 16, notify := bitAt arg 17, tc := tc }
    (bitsOf arg 18 14 != 0)

/-- The FAB entry at a count, of one OP (Table 11.4), not yet begun. -/
def State.fabEntry (s : State) (r pos op : Nat) : Option RingEntry :=
  match s.entryAt r pos with
  | some e => bif isFabRing r && e.kind == 3 && !e.begun && bitsOf (e.words.getD 1 0) 0 2 == op then some e else none
  | none => none

/-- Mark the entry at a count as begun. -/
def State.beginEntry (s : State) (r pos : Nat) : State :=
  s.setRing r { s.ring r with
    entries := (s.ring r).entries.map (fun e => bif e.pos == pos && !e.done then { e with begun := true } else e) }

/-- FAB_COMMIT (R317): the entry becomes a commit. -/
def State.fabCommit (s : State) (r pos : Nat) : State :=
  match s.fabEntry r pos 0 with
  | none => s
  | some e =>
    bif !s.fabWorks then s
    else
      let w := e.words.getD 1 0
      (s.beginEntry r pos).takeCommit
        { src := 1, ring := r, pos := pos, map := bitsOf w 8 8, tag := bitsOf w 16 16, asap := bitAt w 2, wait := bitAt w 3
          tc := nearInstant (s.folNow 4) (e.words.getD 2 0) (e.words.getD 3 0) } false

/-- CANCEL (R317): the earliest staged commit of the ring with the tag is discarded. -/
def State.fabCancel (s : State) (r pos : Nat) : State :=
  match s.fabEntry r pos 1 with
  | none => s
  | some e =>
    bif !s.fabWorks then s
    else
      let hit := s.fab.staged.find? (fun c => c.src == 1 && c.ring == r && c.tag == bitsOf (e.words.getD 1 0) 16 16)
      let t := match hit with
        | some c => s.refuseCommit c 8
        | none => s
      (t.ringWrite r (t.unitAddr r pos + 16) [bif hit.isSome then 0 else 13, fsNs (s.folNow 4), fsSec (s.folNow 4), 0]).entriesDone r [pos]

/-! ### Resolution (R321 to R325) -/

/-- The projected map for a commit: F with every earlier dispatched or staged commit applied (R321). -/
def State.projected (s : State) (id : Nat) : List Nat :=
  let l := s.fab.running.filter (fun c => !c.executed) ++ s.fab.staged.takeWhile (fun c => c.id != id)
  l.foldl (fun m c => mergeMap m (c.moves.map (fun x => (x.1, x.2.2)))) s.fmaps

/-- A word of F cannot be read (R342): FVALID clears and every staged commit is rejected OFF, with one slot write for each
ring (R222). -/
def State.loseF (s : State) : State := s.oneSlot fun s =>
  eachOf s.fab.staged (fun c t => t.refuseCommit c 11) (s.fset F.fabStsFvalid false)

/-- A resolved commit takes its moves. -/
def State.resolveWith (s : State) (c : Commit) (l : List (Nat × Nat)) : State :=
  let base := s.projected c.id
  let code := checkSpec base l
  bif code != 0 then s.refuseCommit c code
  else s.onCommit c.id (fun x => { x with spec := some l, resolved := true, moves := movesOf 0 base (mergeMap base l) })

/-- COMMIT_RESOLVED (R321 to R324): the first unresolved staged commit is resolved, unless it is an unarmed
WAIT commit. `bad` is 1 for an uncorrectable map slot word and 2 for one of F (R342). -/
def State.resolveNext (s : State) (bad : Nat) : State :=
  let s := s.fRead
  bif bad == 2 || !s.fGood (fun _ => true) then s.loseF
  else match s.fab.staged.find? (fun c => !c.resolved) with
  | none => s
  | some c =>
    bif c.wait && !c.armed then s
    else match c.spec with
    | some l => s.resolveWith c l
    | none =>
      let t := s.touch (mapBase c.map) 273
      bif bad == 1 || !s.slotReadable c.map || !s.slotCrc c.map then t.refuseCommit c 5
      else t.resolveWith c (s.slotSpec c.map)

/-- RESOLVE_DEADLINE (R321): the first unresolved commit is rejected LATE. -/
def State.resolveLate (s : State) : State :=
  match s.fab.staged.find? (fun c => !c.resolved) with
  | none => s
  | some c => s.refuseCommit c 2

/-- FAB_ARM (R322): the earliest unarmed WAIT commit is armed. -/
def State.fabArm (s : State) : State :=
  bif !s.fabWorks then s
  else match s.fab.staged.find? (fun c => c.wait && !c.armed) with
  | none => s.fabCount 15
  | some c => s.onCommit c.id (fun x => { x with armed := true })

/-- ARM_DEADLINE (R322): the earliest unarmed WAIT commit is rejected NOT_ARMED. -/
def State.armLate (s : State) : State :=
  match s.fab.staged.find? (fun c => c.wait && !c.armed) with
  | none => s
  | some c => s.refuseCommit c 10

/-- A staged commit that a forward step skipped is re-timed (R325). -/
def State.retime (s : State) (c : Commit) : State :=
  (s.onFab (fun x => { x with
    staged := insertCommit { c with tc := s.folNow 4 + s.fget F.fabCtlAsapLead, retimed := true, resolved := false }
      ((unresolveAfter c.id false x.staged).filter (fun y => y.id != c.id)) })).fabCount 14

/-- A forward step from `was` (R325): each staged commit whose T_c - 1 280 it skipped. -/
def State.fabSkip (s : State) (was : Nat) : State :=
  let l := s.fab.staged.filter (fun c => Nat.blt (was + 1280) c.tc && Nat.ble c.tc (s.folNow 4 + 1280))
  eachOf l (fun c t => match t.fab.staged.find? (fun y => y.id == c.id) with
    | some y => bif y.asap then t.retime y else t.refuseCommit y 2
    | none => t) s

/-! ### Blanks (R332) -/

/-- The output monitor of column `c`. -/
def columnMonitor (c : Nat) : Nat := 256 * (c / 128) + 128 + c % 128

/-- The detectors of quadrant `q` work and the collector reaches them: their domain is READY and no isolation gate lies
between (R28). -/
def State.lldReached (s : State) (q : Nat) : Bool := s.open' q 10

/-- The blank of an output monitor starts: LOW1 goes back to LIGHT. -/
def State.blankStart (s : State) (id i : Nat) : State :=
  let t := s.onFab (fun x => { x with blanks := x.blanks ++ [(i, id)] })
  bif !s.lldReached (i / 256) then t
  else (t.fset (F.lldMon1Blanked i) true).when (t.fget (F.lldMon1State i) == 3) (·.fput (F.lldMon1State i) 2)

/-- BLANK_END: the blank that a completed commit gave a monitor ends. -/
def State.blankEnd (s : State) (i id : Nat) : State :=
  bif s.fab.running.any (fun c => c.id == id) then s
  else
    let t := s.onFab (fun x => { x with blanks := x.blanks.filter (fun y => !(y.1 == i && y.2 == id)) })
    bif t.fab.blanks.any (fun y => y.1 == i) || !s.lldReached (i / 256) then t else t.fset (F.lldMon1Blanked i) false

/-! ### Dispatch and execution (R326, R327, R329) -/

/-- The quadrants that take part in a commit: not isolated, with a powered slice. -/
def State.partMask (s : State) : Nat := ((List.range 4).filter (fun q => s.open' q 9)).foldl (fun m q => m + 2 ^ q) 0

/-- COMMIT_DISPATCH (R326): the first staged commit, once resolved, goes to the quadrants; nothing is dispatched
in the safe state (R423). -/
def State.dispatch (s : State) : State :=
  match s.fab.staged with
  | [] => s
  | c :: r =>
    bif !c.resolved || s.flag F.qchStsFatal then s
    else
      let c := { c with owe := s.partMask, removed := s.partMask != 15, order := s.armings + 1 }
      ((s.arming).onFab (fun x => { x with staged := r, running := x.running ++ [c] })).annealPreempt

/-- F takes a commit and its output monitors are blanked (R327, R332). -/
def State.execute (s : State) (c : Commit) : State :=
  let t := s.applyMoves c.moves
  let t := t.onCommit c.id (fun x => { x with executed := true })
  let t := t.when (c.src != 2) (·.onFab (fun x => { x with lastTc := c.tc }))
  let t := (t.when c.unguarded (·.fabCount 16)).endGuards c.id
  (eachOf c.moves (fun x u => u.blankStart c.id (columnMonitor x.1)) t).tryComplete c.id

/-- COMMIT_INSTANT (R327): the earliest dispatched commit that has not executed. -/
def State.commitInstant (s : State) : State :=
  match s.fab.running.find? (fun c => !c.executed) with
  | none => s
  | some c => s.execute c

/-- SLICE_REPORT (R328): quadrant `q` reports a commit whose cells have all ended. -/
def State.sliceReport (s : State) (q id : Nat) : State :=
  match (s.nit q).commits.find? (fun c => c.id == id) with
  | none => s
  | some n =>
    bif n.open' != 0 || s.iso q then s
    else
      let t := s.setNit q { s.nit q with commits := (s.nit q).commits.filter (fun c => c.id != id) }
      let ok := n.res.getD 0 0 + n.res.getD 1 0 + n.res.getD 7 0
      (t.onCommit id (fun c => bif bitAt c.owe q then
        { c with owe := c.owe - 2 ^ q, got := c.got + 2 ^ q, ok := c.ok + ok, bad := c.bad + (n.res.foldl (· + ·) 0 - ok)
                 settle := Nat.max c.settle n.settle }
        else c)).tryComplete id

/-! ### Withdrawal (R152, R337) -/

/-- A slice releases a binding of a withdrawn commit whose round 0 has not fallen: the latch is unchanged, and the
cell, which has not moved, takes back its state. A takeover that waits is dropped, and the landing under it goes on. -/
def State.withdrawCh (s : State) (id m : Nat) : State :=
  let x := s.land m
  let q := m / 256
  let c := s.fget (F.nitCh0Cell m)
  bif !s.bound m then s
  else bif x.commit == id && x.k == 0 && !x.parkNow then
    let t := s.sendFlit q 0x11 0 1 ([m % 256, 0x80] ++ beBytes 2 c)
    let t := (t.fput (Cell.state q c) x.was).freeCh m
    match x.takeover with
    | some y => t.setNit q { t.nit q with wait := (t.nit q).wait ++ [(y.1, c, y.2.1)] }
    | none => t
  else match x.takeover with
    | some y => s.when (y.1 == id) (·.setLand m { x with takeover := none })
    | none => s

/-- Slice `q` ends the cells of a withdrawn commit. -/
def State.withdrawSlice (s : State) (id q : Nat) : State :=
  let t := forUpTo 256 (fun i u => u.withdrawCh id (256 * q + i)) s
  let n := t.nit q
  (t.setNit q { n with commits := n.commits.filter (fun c => c.id != id), wait := n.wait.filter (fun x => x.1 != id) }).serveWait q

/-- A dispatched commit is taken back before its instant. -/
def State.withdraw (s : State) (c : Commit) (res : Nat) : State :=
  (forUpTo 4 (fun q t => t.toQuad q (·.withdrawSlice c.id q)) s).refuseCommit c res

/-- COMMIT_WITHDRAWAL (R152): the Schedule Book's commits at or after T_sw are discarded. -/
def State.withdrawOld (s : State) : State :=
  bif !s.flag F.scbStsPend then s
  else
    let old := fun (c : Commit) => c.src == 0 && Nat.ble s.scb.next c.tc
    let t := eachOf (s.fab.staged.filter old) (fun c u => u.refuseCommit c 8) s
    eachOf (s.fab.running.filter (fun c => old c && !c.executed)) (fun c u => u.withdraw c 8) t

/-! ### The policy engine (R333 to R338) -/

/-- What the moves of an entry come to against F (R335): the moves that join, or 1 failed, 2 deferred. -/
def State.examine (s : State) (taken : List Nat) (own : List Nat) : List (Nat × Nat × Nat) → Nat × List (Nat × Nat × Nat)
  | [] => (0, [])
  | x :: r =>
    bif s.fmap x.2.1 == x.2.2 then s.examine taken own r
    else bif Nat.blt x.2.2 512 && (List.range 512).any (fun c => s.fmap c == x.2.2 && !taken.any (· == c) && !own.any (· == c)) then (1, [])
    else bif taken.any (· == x.2.1) then (2, [])
    else
      let y := s.examine taken own r
      bif y.1 == 0 then (0, x :: y.2) else y

/-- The engine's work on one commit: joined moves (column, new row), the entries that switched with the moves of theirs
that joined (number, column, new row), and the declarations deferred. -/
structure PolBuild where
  moves : List (Nat × Nat) := []
  switched : List (Nat × List (Nat × Nat × Nat)) := []
  deferred : List (Nat × Nat) := []
  deriving DecidableEq, Repr

/-- An idle entry that fails (R335). -/
def State.polFail (s : State) (i : Nat) : State :=
  ((((s.polPut (Pol.state i) 3).polCount 3).polTell 1 i 0).corrected 44 0).noticeFrame i 3 (s.folNow 4) []

/-- One declaration is taken (R335). -/
def State.takeDecl (bad : List Nat) (x : PolBuild × State) (d : Nat × Nat) : PolBuild × State :=
  let i := d.1
  let s := x.2.polRead i
  bif !s.flag F.polCtlEn || !s.polActs i || bad.any (· == i) || !s.polGood i then (x.1, s.polCount 4)
  else match s.fget (Pol.state i) with
  | 2 => (x.1, (s.polPut (Pol.state i) 1).polCount 6)
  | 0 =>
    bif !s.flag F.fabCtlEn || !s.flag F.fabStsFvalid then (x.1, s.polFail i)
    else
      let l := s.polMoves i
      let own := (l.filter (fun m => s.fmap m.2.1 != m.2.2)).map (·.2.1)
      let y := s.examine (x.1.moves.map (·.1)) own l
      bif y.1 == 1 then (x.1, s.polFail i)
      else bif y.1 == 2 then ({ x.1 with deferred := x.1.deferred ++ [d] }, s.polCount 5)
      else bif y.2.isEmpty then (x.1, s.polCount 4)
      else
        let t := eachOf y.2 (fun m u => u.polPut (Pol.work i m.1) (s.fmap m.2.1)) s
        ({ x.1 with moves := x.1.moves ++ y.2.map (·.2), switched := x.1.switched ++ [(i, y.2)] }, (t.polPut (Pol.state i) 1).polCount 1)
  | _ => (x.1, s.polCount 4)

/-- A protection commit is issued (R336, R337). -/
def State.issueProtection (s : State) (i : Nat) (spec : List (Nat × Nat)) : State :=
  let base := s.fmaps
  let mv := movesOf 0 base (mergeMap base spec)
  let c : Commit := { id := s.fab.nextId, src := 2, tag := i, tc := s.folNow 4, spec := some spec, moves := mv, resolved := true
                      owe := s.partMask, removed := s.partMask != 15 }
  let t := (s.onFab (fun x => { x with nextId := x.nextId + 1 })).polCount 2
  let t := eachOf (t.fab.staged.filter (fun y => y.resolved && movesMeet mv y.moves)) (fun y u => u.refuseCommit y 9) t
  let t := eachOf (t.fab.running.filter (fun y => !y.executed && movesMeet mv y.moves)) (fun y u => u.withdraw y 9) t
  let t := t.onFab (fun x => { x with
    staged := x.staged.map (fun y => { y with resolved := false }), running := x.running ++ [c] })
  (t.annealPreempt).execute c

/-- POLICY_BUILD (R335): every queued declaration is taken, in order. `bad` lists entries with an
uncorrectable word, `fbad` says that a word of F has one (R342). The completions give each ring one slot write (R222). -/
def State.policyBuild (s : State) (bad : List Nat) (fbad : Bool) : State :=
  bif !s.fabWorks || s.flag F.qchStsFatal then s
  else s.oneSlot fun s =>
    let s := (s.fRead).when (fbad || !s.fGood (fun _ => true)) (·.loseF)
    let r := s.fab.decl.foldl (State.takeDecl bad) ({}, s)
    let t := r.2.onFab (fun x => { x with decl := r.1.deferred })
    match r.1.switched with
    | [] => t
    | e :: _ =>
      let u := t.issueProtection e.1 r.1.moves
      eachOf r.1.switched (fun x v => (v.polTell 0 x.1 x.2.length).noticeFrame x.1 1 (s.folNow 4) x.2) u

/-- RESTORED of a monitor (R338); an entry that cannot be read does nothing (R342). -/
def State.polRestored (s : State) (i : Nat) : State :=
  bif !s.fabWorks || s.fget (Pol.state i) != 1 then s
  else
    let s := s.polRead i
    bif !s.polGood i then s
    else bif s.flag (Pol.revert i) then (s.polCount 10).polPut (Pol.state i) 2
    else (s.polCount 10).polTell 2 i 0

/-- WTR_EXPIRE (R338): the revert commit of entry `i` is issued; `fbad` says that a word of F has an uncorrectable error. An
entry that cannot be read issues none (R342). -/
def State.wtrExpire (s : State) (i : Nat) (fbad : Bool) : State :=
  bif !s.fabWorks || s.flag F.qchStsFatal || s.fget (Pol.state i) != 2
    || (s.fab.staged ++ s.fab.running).any (fun c => c.src == 3 && c.tag == i) then s
  else
    let s := s.fRead.polRead i
    bif fbad || !s.fGood (fun _ => true) then s.loseF
    else bif !s.polGood i then s
    else
    let l := (s.polMoves i).filter (fun m => s.fmap m.2.1 == m.2.2)
    let tc := (s.fab.staged ++ s.fab.running).foldl (fun m c => Nat.max m (c.tc + 2000)) (s.folNow 4 + s.fget F.polRevRevLead)
    s.takeCommit { src := 3, tag := i, tc := tc, spec := some (l.map (fun m => (m.2.1, s.fget (Pol.work i m.1)))) } false

/-! ### The detectors (R330, R331, R333) -/

/-- Monitor `i` is enabled and its link is UP (R331). -/
def State.lldOn (s : State) (i : Nat) : Bool :=
  s.flag (F.lldCtlEn (i / 256)) && s.flag (F.lldMon1En i) && s.isUp (i / 256)

/-- A detector becomes DISARMED or DARK as its enables and its link say. -/
def State.lldArm (s : State) (i : Nat) : State :=
  bif !s.lldOn i then
    bif s.fget (F.lldMon1State i) == 0 then s
    else { s.fput (F.lldMon1State i) 0 with fab := { s.fab with highRun := Table.put 0 0 i s.fab.highRun } }
  else s.when (s.fget (F.lldMon1State i) == 0) (·.fput (F.lldMon1State i) 1)

/-- The detectors of quadrant `q` follow the enables and the link. -/
def State.lldArmAll (s : State) (q : Nat) : State := forUpTo 256 (fun m t => t.lldArm (256 * q + m)) s

/-- The run of high samples of a detector. -/
def State.setHigh (s : State) (i n : Nat) : State := { s with fab := { s.fab with highRun := Table.put 0 n i s.fab.highRun } }

/-- A declaration reaches the policy engine (R331, R333). -/
def State.declare (s : State) (i onset : Nat) : State :=
  let q := i / 256
  let t := ((s.fput (F.lldMon1State i) 4).cnt (Reg.lldMon2 i)).wr (Reg.lldMon3 i) (fsNs onset)
  let t := t.fromQuad q (·.brzEvent (quadCode q + 0x20) (16 * q + 7) (i % 256) (fsNs onset) (fsSec onset))
  bif t.fabWorks && !s.iso q then (t.onFab (fun x => { x with decl := x.decl ++ [(i, onset)] })).polCount 0 else t

/-- A high sample in DARK or LOST (R331). -/
def State.highSample (s : State) (i st : Nat) : State :=
  let n := Table.get 0 i s.fab.highRun + 1
  bif Nat.blt n (s.fget (F.lldCtlRestoreN (i / 256))) then s.setHigh i n
  else
    let t := (s.setHigh i 0).fput (F.lldMon1State i) 2
    t.when (st == 4 && !s.iso (i / 256)) (·.polRestored i)

/-- One tap sample of monitor `i`, taken at `at'` ns (R330, R331). -/
def State.lldSample (s : State) (i code at' : Nat) : State :=
  let s := s.lldArm i
  let st := s.fget (F.lldMon1State i)
  bif code == 0 || s.flag (F.lldMon1Blanked i) || st == 0 then s
  else
    let low := code != 0xFFFF && Nat.blt code (s.fget (F.lldMon0LosThresh i))
    let high := code == 0xFFFF || (!low && Nat.ble (s.fget (F.lldMon0ClrThresh i)) code)
    match st with
    | 2 => bif low then { s.fput (F.lldMon1State i) 3 with fab := { s.fab with low1 := Table.put 0 at' i s.fab.low1 } } else s
    | 3 => bif low then s.declare i (Table.get 0 i s.fab.low1) else s.fput (F.lldMon1State i) 2
    | _ => bif high then s.highSample i st else s.setHigh i 0

/-! ### FAB_LOAD, FAB_CTL, resets -/

/-- A write of FAB_LOAD (R314). -/
def State.writeFabLoad (s : State) (w : Nat) : State :=
  bif !bitAt w 31 || s.flag F.fabCtlEn || s.flag F.fabStsLoading then s
  else (s.fset F.fabStsLoading true).onFab (fun x => { x with loading := bitsOf w 0 8 })

/-- FAB_LOAD_DONE (R314). `bad` is 1 for an uncorrectable word of the slot and 2 for one of F; F then loses FVALID, and a
load that would keep a column of such a word fails as MAP_INVALID: DESIGN CHOICE, log entry 145. -/
def State.fabLoaded (s : State) (bad : Nat) : State :=
  bif !s.flag F.fabStsLoading then s
  else
    let m := s.fab.loading
    let l := s.slotSpec m
    let lost := bad == 2 || !s.fGood (fun c => !l.any (fun x => x.1 == c))
    let code := bif bad == 1 || lost || !s.slotReadable m || !s.slotCrc m then 5 else checkSpec s.fmaps l
    let s := (s.fRead).when lost (·.loseF)
    let t := ((s.touch (mapBase m) 273).fset F.fabStsLoading false).fput F.fabStsLoadErr code
    bif code != 0 then t.fabEvent 3 0 code m
    else (eachOf l (fun x u => u.setF x.1 x.2) t).fset F.fabStsFvalid true

/-- A write of FAB_CTL (R314): EN sets only while FVALID = 1. -/
def State.writeFabCtl (s : State) (w : Nat) : State :=
  (s.store Reg.fabCtl w).when (bitAt w 0 && !s.flag F.fabStsFvalid) (·.fset F.fabCtlEn false)

/-- A reset of the collector and the policy engine (R311, R342): the blanks they started end, and the commits that had
not executed never do (R170). -/
def State.fabReset (s : State) : State :=
  let t := eachOf s.fab.blanks (fun x u => u.when (u.lldReached (x.1 / 256)) (·.fset (F.lldMon1Blanked x.1) false)) s
  let gone := s.fab.staged ++ s.fab.running.filter (fun c => !c.executed)
  let t := eachOf gone (fun c u => u.voidGuards c.id) t
  { t with fab := { nextId := s.fab.nextId, highRun := s.fab.highRun, low1 := s.fab.low1 } }

end Sys2Proof.Machine
end

