-- ==== Sys2Proof/Machine/GrfOps.lean ====
section
/-! DEFINITION. The Grafa link: its states, training, responses, STATUS and TAP flits, and leaving UP
(R256 to R268, R298). -/

namespace Sys2Proof.Machine

/-! ### States (R266, R267) -/

/-- DOWN is left for LOCK at once unless a retry delay runs. -/
def State.startTraining (s : State) (q : Nat) : State :=
  bif s.flag (F.grfCtlEn q) then (s.fput (F.grfStsState q) linkLock).setLink q { s.link q with retry := false, syncs := 0, missed := [] }
  else s

/-- A training failure (R266). -/
def State.trainFail (s : State) (q code : Nat) : State :=
  let t := ((s.fput (F.grfStsState q) linkDown).fset (F.grfStsAligned q) false).fput (F.grfStsFailCode q) code
  let t := (t.dropCmds q).setLink q { (t.dropCmds q).link q with retry := true, syncs := 0 }
  (t.grfCount q 5).grfEvent q 2

/-- The link leaves UP (R267, R298): HOLDOVER_N falls, the taps become invalid, commands are discarded, and the
slice, Anneal and the detectors learn of it. A retry delay follows unless EN was cleared (8) or RETRAIN written
(9). -/
def State.linkDownFrom (s : State) (q code : Nat) : State :=
  bif !s.isUp q then s
  else
    let t := ((s.fput (F.grfStsState q) linkDown).fset (F.grfStsAligned q) false).fput (F.grfStsFailCode q) code
    let t := ((t.setHoldRel q false).tapsInvalid q).dropCmds q
    let t := t.setLink q { t.link q with retry := code != 8 && code != 9, syncs := 0, missed := [], rxNext := none, newW := none }
    let t := ((t.nitLinkLost q).anlLinkLost q).lldArmAll q
    ((t.grfCount q 4).grfEvent q 1).corrected (8 * q + 7) 0

/-- The link enters UP (R266): the latencies are published and the slice may reacquire. -/
def State.linkUpNow (s : State) (q w : Nat) : State :=
  let t := (s.setLatency q w).fput (F.grfStsState q) linkUp
  let t := t.setLink q { t.link q with rxNext := none, crcWin := [], missed := [] }
  ((t.grfEvent q 0).lldArmAll q).wantReacq q

/-- A link failure with FAIL_CODE `code` in UP, and with `train` while training. -/
def State.linkFails (s : State) (q code train : Nat) : State :=
  let st := s.fget (F.grfStsState q)
  bif st == linkUp then s.linkDownFrom q code
  else bif Nat.blt linkLock st then s.trainFail q train else s

/-! ### Locks and SYNC (R256, R257) -/

/-- Block lock of lane `j` is gained or lost. -/
def State.laneLock (s : State) (q j : Nat) (b : Bool) : State :=
  let t := (s.fset (F.grfLaneStsLock (4 * q + j)) b).setLink q { s.link q with heads := Table.drop j (s.link q).heads }
  t.fput (F.grfStsRxLock q) (withBits (t.fget (F.grfStsRxLock q)) j 1 (bit b))

/-- HDR_ERR of lane `j` counts. -/
def State.headerError (s : State) (q j : Nat) : State :=
  let a := Reg.grfLaneCrc (4 * q + j)
  s.wr a ((s.rd a + 1) % 2 ^ 32)

/-- A block header arrives on lane `j` (R256): lock is gained after 64 consecutive valid ones, and lost after 16 invalid
ones within 64 blocks. -/
def State.headerIn (s : State) (q j h : Nat) : State :=
  let good := h == dataHeader || h == controlHeader
  let w := (good :: Table.get [] j (s.link q).heads).take 64
  let t := s.setLink q { s.link q with heads := Table.put [] w j (s.link q).heads }
  bif s.flag (F.grfLaneStsLock (4 * q + j)) then
    let t := t.when (!good) (·.headerError q j)
    bif Nat.ble 16 (w.filter (fun b => !b)).length then (t.laneLock q j false).linkFails q 1 1 else t
  else bif w.length == 64 && w.all (fun b => b) then t.laneLock q j true else t

/-- With block lock on all four upstream lanes the link leaves LOCK for ALIGN (R266). -/
def State.lockedAll (s : State) (q : Nat) : State :=
  bif s.fget (F.grfStsState q) == linkLock && s.fget (F.grfStsRxLock q) == 15 then
    (s.fput (F.grfStsState q) linkAlign).setLink q { s.link q with syncs := 0, missed := [] }
  else s

/-- Headers arrive on lane `j`. -/
def State.headersIn (s : State) (q j : Nat) (l : List Nat) : State := (eachOf l (fun h t => t.headerIn q j h) s).lockedAll q

/-- Headers arrive on the four upstream lanes. -/
def State.locksAcquired (s : State) (q : Nat) (l : List (List Nat)) : State :=
  forUpTo 4 (fun j t => t.headersIn q j (l.getD j [])) s

/-- One lane's SYNC: control byte, QUAD, LANE, SKEW. A control byte other than 0xE1 is a header error. -/
def State.laneSync (s : State) (q j : Nat) (x : Nat × Nat × Nat × Nat) : State :=
  bif x.1 != 0xE1 then s.headerError q j
  else
    let t := (s.fput (F.grfLaneStsLaneIn (4 * q + j)) x.2.2.1).fput (F.grfLaneStsSkew (4 * q + j)) x.2.2.2
    t.setLink q { t.link q with missed := Table.put 0 0 j (t.link q).missed }

/-- The four SYNCs are consistent: QUAD is q, the LANE values differ, the skew is at most 8 blocks. -/
def syncsFit (q : Nat) (l : List (Nat × Nat × Nat × Nat)) : Bool :=
  l.length == 4 && l.all (fun x => x.1 == 0xE1 && x.2.1 == q && Nat.ble x.2.2.2 8)
  && (List.range 4).all (fun n => l.any (fun x => x.2.2.1 == n))

/-- GRAFA_SYNC_RECEIVED (R257). -/
def State.syncReceived (s : State) (q : Nat) (l : List (Nat × Nat × Nat × Nat)) : State :=
  let t := forUpTo 4 (fun j u => match l[j]? with
    | some x => u.laneSync q j x
    | none => u) s
  t.when (s.fget (F.grfStsState q) == linkAlign)
    (fun u => u.setLink q { u.link q with syncs := bif syncsFit q l then (u.link q).syncs + 1 else 0 })

/-- ALIGN_DONE: two consecutive consistent SYNCs; the device sends IDENT. -/
def State.alignDone (s : State) (q : Nat) : State :=
  bif s.fget (F.grfStsState q) == linkAlign && Nat.ble 2 (s.link q).syncs then
    ((s.fput (F.grfStsState q) linkIdent).fset (F.grfStsAligned q) true).command q 0x01 []
  else s

/-- SYNC_MISSED on lane `j` (R257, R267). -/
def State.syncMissed (s : State) (q j : Nat) : State :=
  let n := Table.get 0 j (s.link q).missed + 1
  let t := (s.setLink q { s.link q with missed := Table.put 0 n j (s.link q).missed, syncs := 0 }).grfCount q 6
  bif s.isUp q && Nat.ble 2 n then t.linkDownFrom q 3 else t

/-- GRAFA_SYNC_TRANSMIT: the first bit leaves at follower time `at'`, 1/16 ns. IDLE has filled the interval before it,
which holds 1 562 flits (R258). -/
def State.syncTransmit (s : State) (q at' : Nat) : State :=
  bif !s.flag (F.grfCtlEn q) then s
  else
    let x := s.link q
    let t := match x.sent with
      | some n => s.emit (.idle q (1562 - n))
      | none => s
    (t.setLink q { x with syncTx := (x.syncTx + 1) % 65536, syncAt := at', sent := some 0 }).emit (.sync q (syncLanes q x.syncTx))

/-! ### Flits (R258) -/

/-- How many of the last flits failed their CRC. -/
def badFlits (l : List Bool) : Nat := (l.filter (fun b => b)).length

/-- FLIT_CRC_ERROR; `idle` good IDLE flits arrived before it. -/
def State.flitBad (s : State) (q idle : Nat) : State :=
  let w := (true :: (List.replicate (Nat.min idle 64) false ++ (s.link q).crcWin)).take 64
  let t := (s.setLink q { s.link q with crcWin := w }).grfCount q 0
  bif s.isUp q && Nat.ble 8 (badFlits w) then t.linkDownFrom q 4 else t

/-- FLIT_TYPE_ERROR. -/
def State.flitUnknown (s : State) (q fcnt : Nat) : State := (s.goodFlit q fcnt).grfCount q 2

/-! ### Commands (R264, R266) -/

/-- COMMAND_TIMEOUT of the outstanding command with a SEQ. -/
def State.cmdTimeout (s : State) (q seq : Nat) : State :=
  match (s.link q).cmds.find? (fun c => c.seq == seq) with
  | none => s
  | some c =>
    bif Nat.blt c.resends 3 then
      ((s.setLink q { s.link q with
        cmds := (s.link q).cmds.map (fun d => bif d.seq == seq then { d with resends := d.resends + 1 } else d) }).sendCmd q c).grfCount q 3
    else s.linkFails q 5 (bif c.op == 1 then 6 else 7)

/-- A wire delay from a round trip in 1/16 ns (R266), rounded to 1/16 ns. -/
def wireDelay (n sum ta : Nat) : Nat := (sum - n * ta + n) / (2 * n)

/-- The IDENT response is acceptable (R266). -/
def identGood (q status : Nat) (w : List Nat) : Bool :=
  status == 0 && bitsOf (w.getD 2 0) 8 2 == q && bitsOf (w.getD 2 0) 12 4 == 1 && bitsOf (w.getD 3 0) 0 8 == 88
  && bitsOf (w.getD 3 0) 8 4 == 2 && Nat.ble (w.getD 4 0) 640 && Nat.ble (w.getD 5 0) 640 && Nat.ble (w.getD 6 0) 3200

/-- A response to IDENT (Table 9.7, R266). -/
def State.identRsp (s : State) (q status : Nat) (w : List Nat) : State :=
  let t := s.wr (Reg.grfIdent0 q) (w.getD 0 0 + 2 ^ 16 * w.getD 1 0)
  let t := t.wr (Reg.grfIdent1 q) (bitsOf (w.getD 2 0) 0 10 + 2 ^ 16 * bitsOf (w.getD 3 0) 0 8
    + 2 ^ 24 * bitsOf (w.getD 3 0) 8 4 + 2 ^ 28 * bitsOf (w.getD 2 0) 12 4)
  let t := (t.wr (Reg.grfIdent2 q) (w.getD 7 0 + 2 ^ 16 * w.getD 8 0)).wr (Reg.grfIdent3 q) (w.getD 9 0 + 2 ^ 16 * w.getD 10 0)
  let t := ((t.fput (F.grfLat1DA q) (w.getD 4 0)).fput (F.grfLat1UA q) (w.getD 5 0)).fput (F.grfLat0Ta q) (w.getD 6 0)
  let fresh := bitAt (w.getD 3 0) 12
  let t := (t.fset (F.grfStsFresh q) fresh).fset (F.grfStsTrimValid q) (bitAt (w.getD 3 0) 13)
  let t := (t.when fresh (·.grfEvent q 5)).setLink q { t.link q with fresh := fresh }
  bif s.fget (F.grfStsState q) != linkIdent then t
  else bif identGood q status w then (t.fput (F.grfStsState q) linkMeasure).setLink q { t.link q with pinged := 0, rtts := [] }
  else t.trainFail q 6

/-- A PING is answered after `rtt`, 1/16 ns (R266). -/
def State.pingRsp (s : State) (q rtt : Nat) : State :=
  let st := s.fget (F.grfStsState q)
  let ta := s.fget (F.grfLat0Ta q)
  bif st == linkMeasure then
    let l := (s.link q).rtts ++ [rtt]
    let t := s.setLink q { s.link q with rtts := l }
    bif Nat.blt l.length 16 then t
    else
      let w := wireDelay 16 (l.foldl (· + ·) 0) ta
      bif Nat.ble w 480 then t.linkUpNow q w else t.trainFail q 7
  else bif st == linkUp then
    let w := wireDelay 1 rtt ta
    bif Nat.blt 32 (distance w (s.fget (F.grfLat0W q))) then
      ((s.setLink q { s.link q with newW := some w }).grfEvent q 3).applyNewW q
    else s
  else s

/-- A group leaves service with the answer OK to CAL_START and returns with that to CAL_END or CAL_ABORT (R347). -/
def State.serviceOf (s : State) (q op status g : Nat) : State :=
  let x := s.link q
  bif status != 0 then s
  else bif op == 3 then s.setLink q { x with cal := g + 1 }
  else bif (op == 5 || op == 6) && x.cal == g + 1 then s.setLink q { x with cal := 0 } else s

/-- RSP: the outstanding command with this SEQ and OP is answered, and its requester proceeds; nothing of an isolated
quadrant reaches Anneal (R356). -/
def State.rspArrives (s : State) (q seq op status : Nat) (words : List Nat) (rtt fcnt : Nat) : State :=
  let s := s.goodFlit q fcnt
  match (s.link q).cmds.find? (fun c => c.seq == seq && c.op == op) with
  | none => s
  | some c =>
    let t := (s.setLink q { s.link q with cmds := (s.link q).cmds.filter (fun c => c.seq != seq) }).pumpCmds q 4
    match op with
    | 1 => t.identRsp q status words
    | 2 => t.pingRsp q rtt
    | 0x0A => t
    | _ => (t.serviceOf q op status (c.words.getD 0 0)).fromQuad q (·.anlRsp q c status words)

/-- MEASURE_PING: the next of the 16 PINGs of MEASURE. -/
def State.measurePing (s : State) (q : Nat) : State :=
  bif s.fget (F.grfStsState q) == linkMeasure && Nat.blt (s.link q).pinged 16 then
    (s.setLink q { s.link q with pinged := (s.link q).pinged + 1 }).command q 0x02 []
  else s

/-! ### STATUS (R265, R298) -/

/-- The HOLD bit of a STATUS flit (R298): an assembly HOLD under a released holdover interrupts the slice, and
its end asks for reacquisition. -/
def State.asmHold (s : State) (q : Nat) (hold : Bool) : State :=
  let was := (s.nit q).held
  let t := s.fset (F.grfStsAsmHold q) hold
  bif hold && !was && s.isUp q && s.flag (F.grfCtlHoldRel q) then
    let u := t.nitInterrupt q
    u.setNit q { u.nit q with held := true }
  else bif !hold && was then (t.setNit q { t.nit q with held := false }).wantReacq q
  else t

/-- STATUS (Table 9.8). -/
def State.statusArrives (s : State) (q temp0 temp1 alarm cal flags bound : Nat) (cnts : List Nat) (fcnt : Nat) : State :=
  let s := s.goodFlit q fcnt
  bif Nat.blt (s.fget (F.grfStsState q)) linkIdent then s
  else
    let old := s.fget (F.grfAsmStsAlarm q)
    let was := (s.link q).asm
    let t := (s.wr (Reg.grfAsmSts q) (alarm + 2 ^ 8 * cal + 2 ^ 16 * bound)).wr (Reg.grfAsmTemp q) (temp0 + 2 ^ 16 * temp1)
    let t := forUpTo 3 (fun i u => u.grfCountBy q (7 + i) ((cnts.getD i 0 + 65536 - was.getD i 0) % 65536)) t
    let t := t.setLink q { t.link q with asm := cnts }
    let t := (t.fset (F.grfStsFresh q) (bitAt flags 1)).fset (F.grfStsTrimValid q) (bitAt flags 2)
    let t := bif alarm &&& (0xFF ^^^ old) == 0 then t else (t.grfEvent q 4).corrected (8 * q + 7) 1
    bif t.isUp q then (t.asmHold q (bitAt flags 0)).fromQuad q (·.anlStatus q temp0 temp1 cal (bitAt flags 2))
    else t.fset (F.grfStsAsmHold q) (bitAt flags 0)

/-! ### TAP (R263) -/

/-- One monitor's tap code of set `j`. -/
def State.tapCode (s : State) (i code at' : Nat) : State :=
  ((s.fput (F.grfTapCode i) code).fset (F.grfTapValid i) (code != 0)).lldSample i code at'

/-- The 28 monitors of a BASE whose TAP flit was lost: their last sample is MISSING. -/
def State.tapLost (s : State) (q base : Nat) : State :=
  forUpTo 28 (fun n t => bif Nat.blt (base + n) 256 then t.fset (F.grfTapValid (256 * q + base + n)) false else t) s

/-- TAP: the codes of 28 monitors of set `j`, stamped T_S + W + j * 1 000; `lost` names the BASE groups whose
flit of an earlier set did not arrive. -/
def State.tapArrives (s : State) (q base j : Nat) (codes lost : List Nat) (fcnt : Nat) : State :=
  let s := s.goodFlit q fcnt
  bif !s.isUp q then s
  else
    let at' := ((s.link q).syncAt + s.fget (F.grfLat0W q)) / 16 + 1000 * j
    let t := eachOf lost (fun b u => u.tapLost q b) s
    forUpTo 28 (fun n u => match codes[n]? with
      | some c => bif Nat.blt (base + n) 256 then u.tapCode (256 * q + base + n) c at' else u
      | none => u) t

/-! ### GRF_CTL (R252, R266, R267) -/

/-- EN, RETRAIN and HOLD_REL of a written word; HOLD_REL stays 0 while the slice is off (R299). -/
def State.writeGrfCtl (s : State) (q w : Nat) : State :=
  let up := s.isUp q
  let was := s.flag (F.grfCtlEn q)
  let rel := bitAt w 2 && up && s.qReady q 9 && s.flag (F.nitCtlEn q)
  let t := ((s.store (Reg.grfCtl q) w).fset (F.grfCtlHoldRel q) rel).driveHold q
  let t := bif bitAt w 0 then t else t.setLink q { t.link q with sent := none }
  bif was && !bitAt w 0 then
    bif up then t.linkDownFrom q 8
    else ((t.fput (F.grfStsState q) linkDown).fset (F.grfStsAligned q) false).dropCmds q
  else bif !was && bitAt w 0 then t.startTraining q
  else bif was && bitAt w 1 then
    (bif up then t.linkDownFrom q 9 else ((t.fput (F.grfStsState q) linkDown).fset (F.grfStsAligned q) false).dropCmds q).startTraining q
  else t

/-- RETRY_DELAY_EXPIRE. -/
def State.retryNow (s : State) (q : Nat) : State :=
  bif s.fget (F.grfStsState q) == linkDown && (s.link q).retry then s.startTraining q else s

/-- The Grafa lane domain of `q` is reset (R252): the link record is empty and HOLDOVER_N is not driven. -/
def State.grfReset (s : State) (q : Nat) : State := (s.setLink q {}).driveHold q

end Sys2Proof.Machine
end

