-- ==== Sys2Proof/Machine/Stop.lean ====
section
/-! DEFINITION. What stops: resets of domains and Spine units, the isolation of a quadrant, the safe state, and the
reactions that Quench starts (R28, R419 to R423, R448 to R455). -/

namespace Sys2Proof.Machine

/-- A table without the keys of a set. -/
def without {α : Type} (p : Nat → Bool) (t : Table α) : Table α := t.filter (fun x => !p x.1)

/-! ### Resets of the parts of a quadrant -/

/-- The word at `a` is a Cell Table or Cell Target word, which a reset with power keeps (R278). -/
def cellWord (a : Nat) : Bool :=
  Nat.ble 0x1000000 a && Nat.ble 0x400000 (windowOff a) && Nat.blt (windowOff a) 0x4C0000

/-- Reset the words of domain `n`; `off` says that it loses its power. -/
def State.resetDomWords (s : State) (n : Nat) (off : Bool) : State :=
  s.resetWords (fun a => domainOf a == n && (off || !cellWord a))

/-- One MAC is reset (R239): queued frames complete FLUSHED, a frame in progress DOWN_DROP. -/
def State.resetMac (s : State) (p : Nat) : State :=
  let x := s.mac p
  let t := eachOf (x.coming ++ x.queue) (fun f u => u.copyDone f 1 0) s
  let t := match x.tx with
    | some y => (t.emitCut p y).copyDone y.frame 2 0
    | none => t
  let t := match x.held with
    | some y => t.copyDone y.frame 2 0
    | none => t
  let room := fun (r : Option RxProg) => (r.map (·.room)).getD 0
  (t.storeFree p (room x.rx + room x.rxPre)).setMac p {}

/-- The MAC-and-scheduler domain of `q`. -/
def State.resetBase (s : State) (q : Nat) (off : Bool) : State :=
  let t := forUpTo 36 (fun l u => u.resetMac (36 * q + l)) s
  let t := t.resetDomWords (qDom q 0) off
  { t with
    shapers := without (fun k => k / 0x40000 == q) t.shapers
    meters := without (fun k => k / 0x4000 == q) t.meters }

/-- SerDes bank `b` (R107): its ports are in DOWN, and their lines in electrical idle (Table 17.4). -/
def State.resetBank (s : State) (b : Nat) (off : Bool) : State :=
  let t := s.when (s.qReady (b / 6) 0) (fun u => forUpTo 6 (fun j v =>
    let p := 6 * b + j
    let v := (bif v.portUp p then v.fallDown p else v.fput (F.pcsStsState p) 0).clr (Reg.pcsSts p) 0x7C
    (v.setMac p { v.mac p with line := 0 }).when off (·.fset (F.pcsStsPwr p) false)) u)
  t.resetDomWords (qDom (b / 6) (1 + b % 6)) off

/-- A copy on the line of port `p` ends with a stomped FCS. -/
def State.stompTx (s : State) (p : Nat) : State :=
  let x := s.mac p
  s.setMac p { x with tx := x.tx.map (fun y => { y with frame := { y.frame with arriving := false, stomp := true } }) }

/-- The redundancy engine of `q`: tables, windows and pass-through buffers (R203). -/
def State.resetDup (s : State) (q : Nat) (off : Bool) : State :=
  let t := forUpTo 36 (fun l u =>
    let p := 36 * q + l
    let x := u.mac p
    let lose := fun (r : RxProg) => { r with looked := none, fwd := 0, own := false, pend := false, ptRoom := false }
    let u := u.setMac p { x with
      coming := x.coming.filter (fun f => f.source != 3)
      queue := x.queue.filter (fun f => f.source != 3)
      rx := x.rx.map lose
      rxPre := x.rxPre.map lose }
    match x.tx with
    | some y => u.when (y.frame.source == 3) (·.stompTx p)
    | none => u) s
  let t := t.resetDomWords (qDom q 7) off
  { t with frerLast := without (fun k => k / 0x1000 == q) t.frerLast }

/-- The ring registers that the recovery of R421 spares (R239): BASE, SLOT, SIZE_LOG2 and OWNER, and HEAD. -/
def State.sparedWords (s : State) (r : Nat) : List (Nat × Nat) :=
  [(Reg.ringBaseLo r, s.rd (Reg.ringBaseLo r)), (Reg.ringBaseHi r, s.rd (Reg.ringBaseHi r)),
   (Reg.ringSlotLo r, s.rd (Reg.ringSlotLo r)), (Reg.ringSlotHi r, s.rd (Reg.ringSlotHi r)),
   (Reg.ringHead r, s.rd (Reg.ringHead r)), (Reg.ringScan r, s.rd (Reg.ringHead r))]

/-- Rings of `q` that were enabled when its isolation began. -/
def State.heldRings (s : State) (q : Nat) : List Nat :=
  (s.rings.filter (fun x => x.2.isoHeld && x.1 / 576 == q && Nat.blt x.1 2304)).map (·.1)

/-- The descriptor engine of `q`. -/
def State.resetRings (s : State) (q : Nat) (off spare : Bool) : State :=
  let held := bif spare then s.heldRings q else []
  let keep := held.flatMap (fun r => s.sparedWords r)
  let sizes := held.map (fun r => (r, s.fget (F.ringCfgSizeLog2 r), s.fget (F.ringCfgOwner r)))
  let t := (s.orphanFrames (fun r _ => r / 576 == q)).resetDomWords (qDom q 8) off
  let t := { t with
    rings := without (fun r => r / 576 == q && Nat.blt r 2304) t.rings
    stores := without (fun p => p / 36 == q) t.stores
    fetchLast := Table.drop q t.fetchLast }
  let t := eachOf keep (fun x u => u.wr x.1 x.2) t
  let t := eachOf sizes (fun x u => (u.fput (F.ringCfgSizeLog2 x.1) x.2.1).fput (F.ringCfgOwner x.1) x.2.2) t
  eachOf held (fun r u => u.setRing r { u.ring r with isoHeld := true }) (t.masterDown (3 + q))

/-- The Nitinol slice of `q` (R278, R299, R310): HOLD_REL clears, every landing is lost; the Cell Table is kept
while the domain keeps its power. -/
def State.resetNit (s : State) (q : Nat) (off : Bool) : State :=
  let t := (s.setHoldRel q false).resetDomWords (qDom q 9) off
  let t := { t with
    lands := without (fun m => m / 256 == q) t.lands
    nits := Table.put {} { cold := off || (s.nit q).cold } q t.nits }
  t.dropQuadrant q

/-- The Grafa lanes of `q` (R252, R298): the link is down. -/
def State.resetGrf (s : State) (q : Nat) (off : Bool) : State :=
  let t := bif s.isUp q then (s.nitLinkLost q).anlLinkLost q else s
  let t := (t.resetDomWords (qDom q 10) off).grfReset q
  let gone := fun (k : Nat) => k / 256 == q
  { t with fab := { t.fab with highRun := without gone t.fab.highRun, low1 := without gone t.fab.low1 } }

/-! ### Resets of the Spine -/

/-- The Schedule Book (R179): armed edges and guards run out. -/
def State.resetScb (s : State) : State :=
  let t := s.resetWords (fun a => domainOf a == 48)
  { t with scb := { edges := s.scb.edges.filter (·.armed), guards := s.scb.guards.filter (·.phase != 0) } }

/-- The collector, the policy engine and Map RAM (R342). -/
def State.resetFab (s : State) : State := (s.resetWords (fun a => domainOf a == 49)).fabReset

/-- The Spine ring engine. -/
def State.resetSpineRings (s : State) : State :=
  let t := s.resetWords (fun a => Nat.ble 0xF00 a && Nat.blt a 0x2000)
  let t := (t.resetHidden (fun n _ => n == 36)).masterDown 9
  { t.masterDown 10 with rings := without (fun r => Nat.ble 2304 r) t.rings, notices := [] }

/-- Anneal and the sequencer: a step in progress is ended on its link by a CAL_ABORT (R349). -/
def State.resetAnneal (s : State) : State :=
  let t := forUpTo 4 (fun q u =>
    u.when (Nat.blt 0 (u.anlOf q).stage && u.isUp q) (·.commandFirst q 0x06 [u.fget (F.anlQ0Group q)])) s
  { (t.resetWords (fun a => domainOf a == 50)).masterDown 8 with anl := [], seqStart := none }

/-- The Cabinet Bus star: its channels stop. -/
def State.resetCbs (s : State) : State :=
  let t := forUpTo 4 (fun c u => (u.endFrames c false).cbEnter c cbOff) s
  { t.resetWords (fun a => Nat.ble 0xB0000 a && Nat.blt a 0x100000) with chans := [] }

/-- The Seal units (R408). -/
def State.resetSeal (s : State) : State :=
  { s.resetWords (fun a => Nat.ble 0x90000 a && Nat.blt a 0xA0000) with cand := [], sealRun := [], trips := [] }

/-- Follower `u` loads the broadcast again (R64). INV_FOL.LOCK and its bit of INV_STS.FOL_LOCK clear until it is in phase:
DESIGN CHOICE, log entry 99. -/
def State.resetFollower (s : State) (u : Nat) : State :=
  let x := s.inv
  let t := { s with inv := { x with
    fol := Table.drop u x.fol, folPh := Table.drop u x.folPh, folRun := Table.drop u x.folRun, folNew := x.folNew ||| 2 ^ u } }
  (t.fset (F.invFolLock u) false).fput F.invStsFolLock (t.fget F.invStsFolLock &&& (31 - 2 ^ u))

/-- The bus matrix with every shadow and staging word (R17), the Bulk Mover and the event router. -/
def State.resetMatrix (s : State) : State :=
  let t := s.resetWords (fun a => domainOf a == 47 && Nat.ble 0x2000 a)
  { t with movers := [], bmvLast := 0, granted := [], parked := [], pulses := [], seqStart := none, shadow := [], staged := [] }

/-- The blocks of a Spine unit 4..10 are reset (Table 15.3). -/
def State.resetUnit (s : State) (u : Nat) : State :=
  match u with
  | 4 => s.resetScb
  | 5 => s.resetFab
  | 6 => s.resetSpineRings
  | 7 => s.resetAnneal
  | 8 => s.resetCbs
  | 9 => s.resetSeal
  | _ => s.resetFollower 4

/-! ### Reactions (R28, R419 to R423) -/

/-- VALID of a slack monitor reads 0 while its unit is unpowered or isolated (R42). MARGIN and SHED keep their values, and
an isolated monitor goes on (`State.measure`): DESIGN CHOICE, log entry 91. -/
def State.unmeasure (s : State) (u : Nat) : State := s.fset (F.hscMarginValid u) false

/-- The slack monitor of a unit that is reset; one that loses its power holds no history when the unit powers up again
(R460): margin, lowest margin and shed level are those of a device reset, and no half-range event is held. -/
def State.resetMonitor (s : State) (u : Nat) (off : Bool) : State :=
  bif off then
    { (s.wr (Reg.hscMargin u) 0).wr (Reg.hscMarginMin u) 0x7FFF with heldHr := s.heldHr.filter (fun x => x.1 != u) }
  else s.unmeasure u

/-- The isolation of quadrant `q` begins (R28). -/
def State.isolate (s : State) (q : Nat) : State :=
  bif s.iso q then s
  else
    let t := s.fput F.qchStsIso (s.fget F.qchStsIso ||| 2 ^ q)
    let t := ((t.driveHold q).unmeasure q).anlLinkLost q
    let t := forUpTo 36 (fun l u => u.cutTx (36 * q + l)) t
    let t := forUpTo 576 (fun j u => u.ringIsolate (576 * q + j)) t
    (t.dropQuadrant q).masterDown (3 + q)

/-- The isolation of quadrant `q` ends: its rings read ERR with ISOLATED, and the slice reacquires (R239, R299). -/
def State.endIsolation (s : State) (q : Nat) : State :=
  let t := s.fput F.qchStsIso (s.fget F.qchStsIso &&& (15 - 2 ^ q))
  let held := t.heldRings q
  let t := eachOf held (fun r u =>
    ((u.setRing r { u.ring r with isoHeld := false }).fset (F.ringStsErr r) true).fput (F.ringStsErrCode r) 7) t
  forUpTo 36 (fun l u => u.ptpLink (36 * q + l)) ((t.driveHold q).wantReacq q)

/-- ALIVE is driven low and reads as not toggling (R425). -/
def State.aliveLow (s : State) : State := (s.fset F.qchStsAlive false).pin Pin.alive 1

/-- The safe state (R423): Quench's own record comes first, then those of the blocks that stop, then the trigger's (R437). -/
def State.safeState (s : State) : State :=
  bif s.flag F.qchStsFatal then s
  else
    let t := (s.fset F.qchStsFatal true).aliveLow
    let t := t.brzEvent 0x06F 97 0 (t.rd Reg.qchFsw0) (t.rd Reg.qchFsw1)
    let t := forUpTo 4 (fun q u => (u.fput (F.qchUnitState q) 2).isolate q) t
    let t := forUpTo 4 (fun c u => u.when (u.ready 51) (·.goOff c)) t
    (t.trigger 4).driveFault

/-- The kept recovery instants of unit `u`. -/
def State.keptOf (s : State) (u : Nat) : List Nat := Table.get [] u s.kept

/-- Kept recoveries within the last 3 600 s (R421, R422). -/
def State.hourCount (s : State) (u : Nat) : Nat :=
  ((s.keptOf u).filter (fun t => Nat.ble s.now (t + 3600000000000))).length

/-- A reaction on a unit 0..10, started by source `n` (R421, R422). -/
def State.reactUnit (s : State) (u n : Nat) : State :=
  let latched := s.hourCount u == 8 || !s.flag F.qchCtlAutoRec
  let t := (s.fput (F.qchUnitState u) (bif latched then 2 else 1)).brzEvent (0x50 + u) 97 u n 0
  let t := bif Nat.blt u 4 then t.isolate u else t.resetUnit u
  let t := t.driveFault
  t.when (latched && s.flag (F.qchSrc0Esc n) && s.fget (F.qchSrc0Class n) == 1) (·.safeState)

/-- The reaction of source `n` on its target (Table 15.3); none where the target is not in RUN. -/
def State.react (s : State) (n : Nat) : State :=
  let u := s.targetOf n
  bif !s.reacts n || u == 12 || !s.targetRuns n then s
  else bif u == 11 then s.safeState else s.reactUnit u n

/-- A Spine unit that the fatal reaction includes (R424): held in reset and LATCHED. -/
def State.includeUnit (s : State) (u : Nat) : State :=
  bif Nat.ble 4 u && Nat.ble u 10 && s.fget (F.qchUnitState u) == 0 then (s.fput (F.qchUnitState u) 2).resetUnit u else s

/-- The reactions of one handshake (R424): a fatal one includes the contained targets; otherwise each unit reacts once,
in ascending u (R437). -/
def State.reactAll (s : State) (ns : List Nat) : State :=
  bif ns.any (fun n => s.reacts n && s.targetOf n == 11 && s.targetRuns n) then
    (eachOf (ns.filter s.reacts) (fun n t => t.includeUnit (s.targetOf n)) s).safeState
  else forUpTo 11 (fun u t => eachOf (ns.filter (fun n => s.targetOf n == u)) (fun n v => v.react n) t) s

/-- Reports reach Quench in one update (R416 to R419); sources with GRACE = 0 react at once. -/
def State.report (s : State) (rs : List (Nat × Nat)) : State :=
  let fresh := (List.range 64).filter (fun n =>
    rs.any (fun x => x.1 == n) && !s.flag (fswBit n) && s.fget (F.qchSrc0Grace n) == 0 && s.reacts n)
  (s.latch rs).reactAll fresh

/-- The words with inverted check bits that a command has read are reported (R428). -/
def State.reportReads (s : State) : State :=
  bif s.touched.isEmpty then s else { s with touched := [] }.report (s.touched.map injReport)

/-- A row reads and writes word `n` of a memory that no address shows, and what it has read is reported (R428). -/
def State.hiddenPass (s : State) (src cause n : Nat) : State :=
  ((s.hiddenRead src cause n).hiddenWritten src cause n).reportReads

/-! ### Host links and domain resets (R238, R448 to R455) -/

/-- The link of host `h` is lost (R238): nothing that is held back to its memory goes out. -/
def State.hostLost (s : State) (h : Nat) : State :=
  let s := eachOf ((List.range 2320).filter (fun r => s.ringHost r == h && s.scanParked r)) (fun r u => u.setRing r { u.ring r with scanning := false })
    { s with parked := s.parked.filter (fun x => !toHostOf h x) }
  let t := eachOf ((List.range 2322).filter (fun r =>
    s.ringHost r == h && s.ready (bif Nat.blt r 2304 then qDom (r / 576) 8 else 47)
    && (s.flag (F.ringStsRun r) || !s.flag (F.ringStsIdle r)))) (fun r u => u.ringLinkLost r) s
  ((t.brzEvent 0x233 (64 + h) h 0 0).corrected 42 h).masterDown h

/-- A host interface: its MSI-X words and the requester's shadow. -/
def State.resetHost (s : State) (h : Nat) : State :=
  let t := s.masterDown h
  { t with msix := without (fun k => k / 0x20000 == h) t.msix }

/-- Code RAM keeps its words, but for a loss of power (R449). -/
def State.codeLost (s : State) (off : Bool) : State :=
  bif off then { s with code := [], injected := s.injected.filter (fun x => !(Nat.ble 0x8000000 x.1 && Nat.blt x.1 (2 ^ 40))) } else s

/-- A reset of the blocks of domain `n` = 1..51; `off` says that it loses its power, `spare` that the recovery of R421
asks for it. -/
def State.resetBlocks (s : State) (n : Nat) (off spare : Bool) : State :=
  bif Nat.blt n 45 then
    let q := (n - 1) / 11
    match (n - 1) % 11 with
    | 0 => ((s.resetBase q off).resetMonitor q off).resetFollower q
    | 7 => s.resetDup q off
    | 8 => s.resetRings q off spare
    | 9 => s.resetNit q off
    | 10 => s.resetGrf q off
    | i => s.resetBank (6 * q + (i - 1)) off
  else match n with
  | 45 => (s.when (s.ready 45) (·.hostLost 0)).resetHost 0
  | 46 => (s.when (s.ready 46) (·.hostLost 1)).resetHost 1
  | 47 => (s.resetSpineRings.resetMatrix.resetMonitor 4 off).resetFollower 4
  | 48 => s.resetScb
  | 49 => s.resetFab
  | 50 => s.resetAnneal.codeLost off
  | _ => s.resetCbs.resetSeal

/-- A reset of domain `n` = 1..51 with the words of its memories that no address shows (R449). -/
def State.resetDomain (s : State) (n : Nat) (off spare : Bool) : State :=
  (s.resetHidden (fun src cause => causeDom src cause == n)).resetBlocks n off spare

end Sys2Proof.Machine
end

