-- ==== Sys2Proof/Machine/Classify.lean ====
section
/-! DEFINITION. The classifier commands: staged table access, the bucket calculator and the meter readout (R134,
R137, R141). -/

namespace Sys2Proof.Machine

/-- A write of CLS_STG_CMD (R137): while BUSY = 1 it is ignored and counted; with GO the entry is written or read. -/
def State.writeClsStg (s : State) (q w : Nat) : State :=
  bif s.flag (F.clsStgCmdGoBusy q) then s.cntF (F.clsErrStgLost q)
  else
    let t := s.store (Reg.clsStgCmd q) w
    let i := t.fget (F.clsStgCmdIndex q)
    let m := t.flag (F.clsStgCmdTable q)
    t.when (bitAt w 31) fun u =>
      (bif u.flag (F.clsStgCmdOp q) then u.clsEntryRead q i m else u.clsEntryWrite q i m).fset (F.clsStgCmdGoBusy q) true

/-- CLS_HASH for the key held (R134). -/
def State.clsRehash (s : State) (q : Nat) : State :=
  s.fput (F.clsHashBucket q)
    (streamBucket (2 ^ 32 * s.fget (F.clsHashKey1DaHi q) + s.rd (Reg.clsHashKey0 q)) (s.fget (F.clsHashKey1Vid q)))

/-- A write of MTR_PEEK_IDX captures the meter's state. -/
def State.writeMtrPeek (s : State) (q w : Nat) : State :=
  let t := s.store (Reg.mtrPeekIdx q) w
  let m := t.meterOf q (t.fget (F.mtrPeekIdxIndex q))
  ((t.wr (Reg.mtrPeekC q) (m.tc % 2 ^ 32)).wr (Reg.mtrPeekX q) (m.tx % 2 ^ 32)).wr (Reg.mtrPeekRed q) m.red

/-- CLS_STAGED_WRITE (R137): CLS_STG_CMD is written with GO and OP = WRITE. -/
def execClsStagedWrite (q w : Nat) (s : State) : Host.Outcome State Fault Refusal :=
  .next (s.atReg (Reg.clsStgCmd q) fun t => (t.writeClsStg q (withBits (w ||| 2 ^ 31) 17 1 0)).reportReads)

/-- CLS_STAGED_READ (R137): CLS_STG_CMD is written with GO and OP = READ. -/
def execClsStagedRead (q w : Nat) (s : State) : Host.Outcome State Fault Refusal :=
  .next (s.atReg (Reg.clsStgCmd q) fun t => (t.writeClsStg q (w ||| 2 ^ 31 ||| 2 ^ 17)).reportReads)

/-- CLS_STAGED_DONE (R137): BUSY clears. -/
def execClsStagedDone (q : Nat) (s : State) : Host.Outcome State Fault Refusal :=
  .next (s.atDom (qDom q 0) (·.fset (F.clsStgCmdGoBusy q) false))

/-- CLS_HASH_KEY_WRITE (R134): key word `j` is written. -/
def execClsHashKeyWrite (q j w : Nat) (s : State) : Host.Outcome State Fault Refusal :=
  .next (s.atReg (Reg.clsHash q) fun t =>
    (t.store (bif j == 0 then Reg.clsHashKey0 q else Reg.clsHashKey1 q) w).clsRehash q)

/-- METER_PEEK (R141). -/
def execMeterPeek (q w : Nat) (s : State) : Host.Outcome State Fault Refusal :=
  .next (s.atReg (Reg.mtrPeekIdx q) (·.writeMtrPeek q w))

end Sys2Proof.Machine
end

