-- ==== Sys2Proof/Machine/DupOps.lean ====
section
/-! DEFINITION. The redundancy engine: the Source Table, pass-through copies, FRER functions and the trip
message format (chapter 7). -/

namespace Sys2Proof.Machine

/-! ### The Source Table (R189 to R192) -/

/-- The bucket of a source. -/
def sourceBucket (sa kl : Nat) : Nat := crc32c (beBytes 6 sa ++ [0, kl]) % 8192

/-- Word `j` of Source Table entry `i` of quadrant `q`. -/
def sourceAddr (q i j : Nat) : Nat := quadBase q + 0x600000 + 16 * i + 4 * j

/-- Fields of an entry (Table 7.2). -/
def srcAge (q i : Nat) : Fld := ⟨sourceAddr q i 1, 24, 4⟩
def srcW (q i : Nat) : Fld := ⟨sourceAddr q i 1, 28, 1⟩
def srcPin (q i : Nat) : Fld := ⟨sourceAddr q i 1, 29, 1⟩
def srcV (q i : Nat) : Fld := ⟨sourceAddr q i 1, 31, 1⟩

/-- The window of an entry: H, the marks that decide duplicates, F0 and F1. -/
structure Window where
  h : Nat := 0
  seen : Nat := 0
  f0 : Nat := 0
  f1 : Nat := 0
  deriving DecidableEq, Repr

/-- The window held in words 2 and 3. -/
def readWindow (prp : Bool) (w2 w3 : Nat) : Window :=
  bif prp then { h := w2 % 65536, seen := w2 / 65536 + 65536 * w3 }
  else { h := w2 % 65536, seen := w2 / 65536, f1 := w3 % 65536, f0 := w3 / 65536 }

/-- Words 2 and 3 of a window. -/
def windowWords (prp : Bool) (w : Window) : Nat × Nat :=
  bif prp then (w.h + 65536 * (w.seen % 65536), w.seen / 65536)
  else (w.h + 65536 * w.seen, w.f1 + 65536 * w.f0)

/-- What a lookup decides: accepted, forwarded, a forward duplicate, and the counter of the pair that it
counts (7 OOO, 8 OLD_ACCEPT, 9 OLD_DROP, 10 UNTRACKED; 19 none). -/
structure Looked where
  accept : Bool := true
  forward : Bool := false
  fwdDup : Bool := false
  counter : Nat := 19
  win : Window := {}
  deriving DecidableEq, Repr

/-- F0 for the egress port 2k, F1 for 2k+1. -/
def Window.fx (w : Window) (x : Nat) : Nat := bif x == 0 then w.f0 else w.f1

/-- The window with forwarding marked at position `b`. -/
def Window.mark (w : Window) (x b : Nat) (on : Bool) : Window :=
  bif !on then w else bif x == 0 then { w with f0 := w.f0 ||| 2 ^ b } else { w with f1 := w.f1 ||| 2 ^ b }

/-- The forwarding part at position `b` of the window (R190): `want` says that nothing else keeps the frame
from being forwarded to member `x`. -/
def decideAt (want accept : Bool) (x b counter : Nat) (w : Window) : Looked :=
  let old := bitAt (w.fx x) b
  { accept := accept, forward := want && !old, fwdDup := want && old, counter := counter, win := w.mark x b (want && !old) }

/-- The decision of R190 for sequence `q`; `win` is none while W = 0. -/
def decideSeq (prp oldAccept want : Bool) (x q : Nat) (win : Option Window) : Looked :=
  let n := bif prp then 48 else 16
  match win with
  | none => decideAt want true x 0 19 { h := q, seen := 1 }
  | some w =>
    let d := (q + 65536 - w.h) % 65536
    bif d == 0 then decideAt want false x 0 19 w
    else bif Nat.ble d 32767 then
      decideAt want true x 0 19
        { h := q, seen := (w.seen * 2 ^ d + 1) % 2 ^ n, f0 := w.f0 * 2 ^ d % 2 ^ n, f1 := w.f1 * 2 ^ d % 2 ^ n }
    else bif Nat.ble (65536 - d) (n - 1) then
      bif bitAt w.seen (65536 - d) then decideAt want false x (65536 - d) 19 w
      else decideAt want true x (65536 - d) 7 { w with seen := w.seen ||| 2 ^ (65536 - d) }
    else bif oldAccept then { accept := true, forward := want, counter := 8, win := w }
    else { accept := false, counter := 9, win := w }

/-- Entry `i` matches a source. -/
def State.sourceHit (s : State) (q sa kl i : Nat) : Bool :=
  let w1 := s.rd (sourceAddr q i 1)
  bitAt w1 31 && s.rd (sourceAddr q i 0) == sa % 2 ^ 32 && w1 % 2 ^ 16 == sa / 2 ^ 32 && bitsOf w1 16 5 == kl

/-- The entries of a source's bucket, lowest way first. -/
def ways (sa kl : Nat) : List Nat := (List.range 8).map (fun w => 8 * sourceBucket sa kl + w)

/-- The entry with the greatest AGE of a list, the earliest on a tie. -/
def State.oldest (s : State) (q : Nat) : List Nat → Option Nat
  | [] => none
  | i :: r => match s.oldest q r with
    | some j => bif Nat.blt (s.fget (srcAge q i)) (s.fget (srcAge q j)) then some j else some i
    | none => some i

/-- The way that a new source takes, and whether it is evicted for it (R191). -/
def State.wayFor (s : State) (q sa kl : Nat) : Option (Nat × Bool) :=
  match (ways sa kl).find? (fun i => !s.flag (srcV q i)) with
  | some i => some (i, false)
  | none =>
    (s.oldest q ((ways sa kl).filter (fun i => !s.flag (srcPin q i) && Nat.ble (s.fget (F.dupCtlEvictMin q)) (s.fget (srcAge q i))))).map
      (fun i => (i, true))

/-- Store a window. -/
def State.putWindow (s : State) (q i : Nat) (prp : Bool) (w : Window) : State :=
  (s.wr (sourceAddr q i 2) (windowWords prp w).1).wr (sourceAddr q i 3) (windowWords prp w).2

/-- Learn a source into entry `i`. -/
def State.learnSource (s : State) (q sa kl i : Nat) (prp : Bool) (w : Window) : State :=
  ((s.wr (sourceAddr q i 0) (sa % 2 ^ 32)).wr (sourceAddr q i 1) (sa / 2 ^ 32 + 2 ^ 16 * kl + 2 ^ 28 + 2 ^ 31)).putWindow q i prp w

/-- Source Table entry `i` has been written by the engine. -/
def State.sourceWritten (s : State) (q i : Nat) : State := s.entryWritten (8 * q + 2) 3 (sourceAddr q i 0) 4

/-- An entry with an uncorrectable error is written invalid (R204). -/
def State.sourceLost (s : State) (q i : Nat) : State :=
  (((s.fset (srcV q i) false).sourceWritten q i).cntF (F.dupErrEccUnc q)).fromQuad q (·.brzEvent (quadCode q + 9) (16 * q + 4) i 0 0)

/-- The lookup of R190 and R191 for a frame of pair `k` from source `sa`; `x` is the egress member, `bad` an
entry of the bucket read with an uncorrectable error. -/
def State.lookup (s : State) (k sa seq x : Nat) (want : Bool) (bad : Option Nat) : Looked × State :=
  let q := k / 18
  let prp := s.pairMode k == 1
  let untracked : Looked := { forward := want, counter := 10 }
  let s := eachOf (ways sa (k % 18)) (fun i t => t.touch (sourceAddr q i 0) 4) s
  match bad.orElse (fun _ => (ways sa (k % 18)).find? (fun i => !s.wordsReadable (sourceAddr q i 0) 4)) with
  | some i => (untracked, (s.sourceLost q i).pairCount k 10)
  | none =>
    match (ways sa (k % 18)).find? (s.sourceHit q sa (k % 18)) with
    | some i =>
      let win := bif s.flag (srcW q i) then some (readWindow prp (s.rd (sourceAddr q i 2)) (s.rd (sourceAddr q i 3))) else none
      let r := decideSeq prp (s.flag (F.dupPair0OldAccept k)) want x seq win
      let t := (((s.fput (srcAge q i) 0).fset (srcW q i) true).putWindow q i prp r.win).sourceWritten q i
      (r, t.when (r.counter != 19) (·.pairCount k r.counter))
    | none =>
      match s.wayFor q sa (k % 18) with
      | some (i, evict) =>
        let r := decideSeq prp true want x seq none
        (r, ((s.learnSource q sa (k % 18) i prp r.win).sourceWritten q i).dupCount q (bit evict))
      | none => (untracked, s.pairCount k 10)

/-- One entry in the age sweep (R192). -/
def State.ageEntry (s : State) (q i : Nat) : State :=
  bif !s.flag (srcV q i) then s
  else
    let a := Nat.min 15 (s.fget (srcAge q i) + 1)
    let t := s.fput (srcAge q i) a
    bif Nat.blt a (s.fget (F.dupCtlAgeLimit q)) then t
    else bif t.flag (srcPin q i) then
      (bif Nat.blt (s.fget (srcAge q i)) (s.fget (F.dupCtlAgeLimit q)) || t.flag (srcW q i) then
        (t.fset (srcW q i) false).dupCount q 3 else t)
    else (t.fset (srcV q i) false).dupCount q 2

/-- Entries of quadrant `q` that some word of is listed. -/
def State.sourceListed (s : State) (q : Nat) : List Nat :=
  (s.regs.filterMap (fun x => bif Nat.ble (sourceAddr q 0 0) x.1 && Nat.blt x.1 (sourceAddr q 65536 0) && (x.1 - sourceAddr q 0 0) % 16 == 4
    then some ((x.1 - sourceAddr q 0 0) / 16) else none))

/-! ### FRER (R199, R200) -/

/-- Word `j` of FRER function `f` of quadrant `q`. -/
def frerAddr (q f j : Nat) : Nat := quadBase q + 0x190000 + 16 * f + 4 * j

/-- Fields of an entry (Table 7.5). -/
def frSeq (q f : Nat) : Fld := ⟨frerAddr q f 0, 0, 16⟩
def frHlen (q f : Nat) : Fld := ⟨frerAddr q f 0, 16, 7⟩
def frSrc (q f : Nat) : Fld := ⟨frerAddr q f 0, 23, 2⟩
def frRst (q f : Nat) : Fld := ⟨frerAddr q f 0, 25, 3⟩
def frTagless (q f : Nat) : Fld := ⟨frerAddr q f 0, 28, 1⟩
def frAny (q f : Nat) : Fld := ⟨frerAddr q f 0, 29, 1⟩
def frEn (q f : Nat) : Fld := ⟨frerAddr q f 0, 31, 1⟩

/-- FRER counter `n` of function `f`. -/
def frerCntAddr (q f n : Nat) : Nat := quadBase q + 0x1A0000 + 0x20 * f + 4 * n

/-- Add `k` to a FRER counter; half range sets DUP_ERR.FRER_HR. -/
def State.frerCount (s : State) (q f n k : Nat) : State :=
  let a := frerCntAddr q f n
  let t := s.wr a ((s.rd a + k) % 2 ^ 32)
  t.when (rose (s.rd a) ((s.rd a + k) % 2 ^ 32) 32) (·.halfRange (.bits (Reg.dupErr q) (2 ^ 24)))

/-- The zero bits among the `d` bits that leave a history of length `n`. -/
def lostBits (hist n d : Nat) : Nat := ((List.range d).filter (fun i => !bitAt hist (n - 1 - i))).length

/-- The entry of a function has been written by the engine. -/
def State.frerWritten (s : State) (q f : Nat) : State := s.entryWritten (8 * q + 2) 3 (frerAddr q f 0) 4

/-- A passed frame counts and restarts the reset timer. -/
def State.frerPass (s : State) (q f : Nat) : State :=
  let t := s.frerCount q f 0 1
  { t with frerLast := Table.put 0 s.now (0x1000 * q + f) t.frerLast }

/-- Store the history. -/
def State.frerHist (s : State) (q f hist : Nat) : State :=
  (s.wr (frerAddr q f 2) (hist % 2 ^ 32)).wr (frerAddr q f 3) (hist / 2 ^ 32)

/-- One frame of an enabled function (R200): whether it passes. -/
def State.recover (s : State) (q f : Nat) (seq : Option Nat) : Bool × State :=
  let hlen := s.fget (frHlen q f)
  let hist := s.rd (frerAddr q f 2) + 2 ^ 32 * s.rd (frerAddr q f 3)
  match seq with
  | none => (s.flag (frTagless q f), (s.when (s.flag (frTagless q f)) (·.frerPass q f)).frerCount q f 5 1)
  | some n =>
    bif s.flag (frAny q f) then
      (true, ((((s.fput (frSeq q f) n).fset (frAny q f) false).frerHist q f 1).frerWritten q f).frerPass q f)
    else
      let d := signedOf (n + 65536 - s.fget (frSeq q f)) 16
      bif decide ((hlen : Int) ≤ d) || decide (d ≤ -(hlen : Int)) then (false, s.frerCount q f 3 1)
      else bif decide (d ≤ 0) then
        (bif bitAt hist (-d).toNat then (false, s.frerCount q f 1 1)
         else (true, (((s.frerHist q f (hist ||| 2 ^ (-d).toNat)).frerWritten q f).frerCount q f 2 1).frerPass q f))
      else
        (true, ((((s.frerCount q f 4 (lostBits hist hlen d.toNat)).frerHist q f ((hist * 2 ^ d.toNat + 1) % 2 ^ hlen)).fput
          (frSeq q f) n).frerWritten q f).frerPass q f)

/-- A FRER word with an uncorrectable error: the function takes TAKE_ANY and passes the frame (R204), and the next frame
sets its entry anew. -/
def State.frerLost (s : State) (q f : Nat) : State :=
  ((s.fset (frAny q f) true).frerWritten q f).frerPass q f

/-- One function in the sweep (R200): one that has passed a frame, or was enabled, and then none for its time resets
once. While DUP_CTL.EN = 0 no function acts. -/
def State.frerSweepOne (s : State) (q f : Nat) : State :=
  bif s.flag (F.dupCtlEn q) && s.flag (frEn q f) && s.frerLast.any (fun x => x.1 == 0x1000 * q + f)
      && Nat.ble (1000000 * s.fget (F.dupFrerRstMs q (s.fget (frRst q f)))) (s.now - Table.get 0 (0x1000 * q + f) s.frerLast) then
    { (s.fset (frAny q f) true).frerCount q f 6 1 with frerLast := Table.drop (0x1000 * q + f) s.frerLast }
  else s

/-- Functions of quadrant `q` whose word 0 is listed. -/
def State.frerListed (s : State) (q : Nat) : List Nat :=
  (s.regs.filterMap (fun x => bif Nat.ble (frerAddr q 0 0) x.1 && Nat.blt x.1 (frerAddr q 4096 0) && (x.1 - frerAddr q 0 0) % 16 == 0
    then some ((x.1 - frerAddr q 0 0) / 16) else none))

/-- The sequence number that a function takes from a frame (R199). -/
def State.frerSeq (s : State) (p f : Nat) (l : List Byte) : Option Nat :=
  let tp := s.tpid2 p
  let h := hdrParse tp l
  match s.fget (frSrc (p / 36) f) with
  | 0 => bif be16 l h.off == 0xF1C1 then some (be16 l (h.off + 4)) else none
  | 1 => bif hasHsr tp l then some (hsrSeq tp l) else none
  | _ => bif validPrp tp l then some (prpSeq l) else none

/-! ### Table writes (R194) -/

/-- Stored form of FRER word 0: HLEN to its nearer limit, SEQ_SRC 3 as 0; EN rising sets TAKE_ANY. -/
def frerWord0 (old v : Nat) : Nat :=
  let n := withBits (v &&& 0xBFFFFFFF) 16 7 (clampNat 2 64 (bitsOf v 16 7))
  let n := bif bitsOf v 23 2 == 3 then withBits n 23 2 0 else n
  bif bitAt v 31 && !bitAt old 31 then n ||| 2 ^ 29 else n

/-- Write word `j` of FRER function `f`. -/
def State.writeFrer (s : State) (q f j v : Nat) : State :=
  let t := s.wr (frerAddr q f j) (bif j == 0 then frerWord0 (s.rd (frerAddr q f 0)) v else v)
  bif j == 0 && bitAt v 31 && !s.flag (frEn q f) then { t with frerLast := Table.put 0 s.now (0x1000 * q + f) t.frerLast } else t

/-- Write word `j` of Source Table entry `i`: reserved bits are 0. -/
def State.writeSource (s : State) (q i j v : Nat) : State :=
  s.wr (sourceAddr q i j) (bif j == 1 then v &&& 0xBF1FFFFF else v)

/-- Word `j` of entry `i` of the table that a staged operation names. -/
def dupWord (q i j : Nat) (frer : Bool) : Nat := bif frer then frerAddr q (i % 4096) j else sourceAddr q i j

/-- A staged write of a whole entry, word 1 last; each word is stored with its check bits (R428). -/
def State.dupEntryWrite (s : State) (q i : Nat) (frer : Bool) : State :=
  eachOf [3, 2, 0, 1] (fun j t =>
    let v := t.rd (Reg.dupStg q j)
    let t := t.memWritten (8 * q + 2) 3 (dupWord q i j frer)
    bif frer then t.writeFrer q (i % 4096) j v else t.writeSource q i j v) s

/-- A staged read. -/
def State.dupEntryRead (s : State) (q i : Nat) (frer : Bool) : State :=
  eachOf [0, 1, 2, 3] (fun j t =>
    let r := t.tableRead (dupWord q i j frer)
    r.1.wr (Reg.dupStg q j) r.2) s

/-! ### Pass-through copies (R195 to R198) -/

/-- Change the copy with serial number `id` wherever it is at port `x`. -/
def State.onCopy (s : State) (x id : Nat) (g : TxFrame → TxFrame) : State :=
  let m := s.mac x
  let f := fun (y : TxFrame) => bif y.id == id then g y else y
  s.setMac x { m with
    coming := m.coming.map f
    queue := m.queue.map f
    tx := m.tx.map (fun t => { t with frame := f t.frame }) }

/-- The copy is on the line. -/
def State.copyLeaves (s : State) (x id : Nat) : Bool :=
  match (s.mac x).tx with
  | some t => t.frame.id == id
  | none => false

/-- A copy that has not started is taken back. -/
def State.copyGone (s : State) (x id : Nat) : State :=
  let m := s.mac x
  (s.setMac x { m with
    coming := m.coming.filter (fun f => f.id != id)
    queue := m.queue.filter (fun f => f.id != id) }).refresh x

/-- Bytes reserved in the pass-through buffer from port `p` towards port `x`: a copy that is not yet offered or still
arrives holds MAX_FRAME of its ingress port (R196). -/
def State.ptUsed (s : State) (p x : Nat) : Nat :=
  let m := s.mac x
  let held := fun (r : Option RxProg) => bif r.any (·.ptRoom) then s.fget (F.macMaxfMaxFrame p) else 0
  held (s.mac p).rx + held (s.mac p).rxPre + ((m.coming ++ m.queue ++ (m.tx.map (·.frame)).toList).filter (fun f => f.source == 3)).foldl
    (fun n f => n + (bif f.arriving then s.fget (F.macMaxfMaxFrame p) else f.bytes.length + 4)) 0

/-- The buffer cannot take another frame. -/
def State.ptFull (s : State) (p x : Nat) : Bool := Nat.blt 32768 (s.ptUsed p x + s.fget (F.macMaxfMaxFrame p))

/-- Both members run the same PHY type: cut-through (R196). -/
def State.cutThrough (s : State) (p : Nat) : Bool := s.phy p == s.phy (twinOf p)

/-- Offer a copy to the twin. -/
def State.offerCopy (s : State) (p cls stamp : Nat) (l : List Byte) (arriving : Bool) : State :=
  s.sendTo (twinOf p) { bytes := l, cls := cls, source := 3, arriving := arriving, inPort := p, inTs := stamp }

/-- End a copy that is on the line with a stomped FCS after `l`; take it back otherwise. -/
def State.stompCopy (s : State) (x id : Nat) (l : List Byte) : State :=
  bif s.copyLeaves x id then s.onCopy x id (fun f => { f with bytes := l, arriving := false, stomp := true })
  else s.copyGone x id

/-- The bytes of the copy with serial number `id` at port `x` that the device holds. -/
def State.copyBytes (s : State) (x id : Nat) : List Byte :=
  match ((s.mac x).coming ++ (s.mac x).queue ++ ((s.mac x).tx.map (·.frame)).toList).find? (fun f => f.id == id) with
  | some f => f.bytes
  | none => []

/-- Bytes of the copy on the line of port `x` that have started. -/
def State.copyStarted (s : State) (x : Nat) : Nat :=
  match (s.mac x).tx with
  | some t => s.startedBytes x t
  | none => 0

/-- A peer delay message (R195). -/
def peerDelay (tpid2 : Nat) (l : List Byte) : Bool :=
  etherType tpid2 l == 0x88F7
  && (let t := ptpType (ptpOff tpid2 l) l; t == 2 || t == 3 || t == 10)

/-- The node address of a pair (R181). -/
def State.nodeAddr (s : State) (p : Nat) : Nat := s.macAddr (2 * pairOf p)

/-- Nothing but the Source Table and the buffer keeps a tagged frame received on port `p` from being
forwarded (R195). -/
def State.mayForward (s : State) (p : Nat) (l : List Byte) : Bool :=
  s.pairMode (pairOf p) == 2 && hasHsr (s.tpid2 p) l && !s.iso (p / 36)
  && frameSa l != s.nodeAddr p && frameDa l != s.nodeAddr p && !peerDelay (s.tpid2 p) l

/-! ### Trip messages (R201) -/

/-- CHECK bytes of a Seal unit. -/
def State.sealBytes (s : State) (u : Nat) : Nat := [4, 4, 3, 2].getD (s.fget (F.sealCtlPoly u)) 4

/-- The offset of a trip message in a frame: behind the EtherType that follows the tags. -/
def tripOff (tpid2 : Nat) (l : List Byte) : Nat :=
  let h := hdrParse tpid2 l
  bif be16 l h.off == 0xF1C1 then h.off + 8 else h.off + 2

/-- A frame of a TRIP stream: its message goes to the Seal unit, or it is discarded and counted. A unit that is in
reset takes none, and none comes through the gate of an isolated quadrant (R28). -/
def State.takeTrip (s : State) (p u : Nat) (l : List Byte) : State :=
  let o := tripOff (s.tpid2 p) l
  let len := byteAt l (o + 4)
  let stop := bif s.pairMode (pairOf p) == 1 && validPrp (s.tpid2 p) l then l.length - 6 else l.length
  let n := s.sealBytes u
  bif byteAt l o / 16 != 1 || Nat.blt 64 len || Nat.blt stop (o + 6 + len + n) then s.dupCount (p / 36) 4
  else bif !s.ready 51 || s.unitHeld 9 || s.iso (p / 36) then s
  else { s with trips := s.trips ++ [{ port := p, at' := s.counter, unit := u, bytes := natBytes ((l.drop o).take (6 + len)), check := beAt l (o + 6 + len) n }] }

end Sys2Proof.Machine
end

