-- ==== Sys2Proof/Machine/MoverOps.lean ====
section
/-! DEFINITION. The Bulk Mover, the Seal units and the event router below their commands (R404 to R411). -/

namespace Sys2Proof.Machine

/-! ### Internal addresses (R35, R399) -/

/-- What an internal address names (Table 1.9). -/
inductive Place where
  /-- A byte of the Boot ROM, or of the Code RAM. -/
  | boot (o : Nat)
  | code (o : Nat)
  /-- A byte of the BAR0 image. -/
  | bar0 (a : Nat)
  /-- A byte of a host's memory, by its host address. -/
  | host (h a : Nat)
  | none
  deriving DecidableEq, Repr

/-- The place of an internal byte address (R35, R398, R399). -/
def State.placeOf (s : State) (a : Nat) : Place :=
  let swap := s.flag F.mtxCtlRemap
  bif Nat.blt a 0x40000 then (bif swap then .code a else .boot a)
  else bif Nat.blt a 0x80000 then (bif swap then .boot (a - 0x40000) else .code (a - 0x40000))
  else bif Nat.ble 0x100000000 a && Nat.blt a 0x104000000 then .bar0 (a - 0x100000000)
  else bif Nat.ble 0x8000000000 a && Nat.blt a 0xC000000000 then
    .host 0 (s.fget (F.mtxHbaseBase 0) * 2 ^ 38 + (a - 0x8000000000))
  else bif Nat.ble 0xC000000000 a && Nat.blt a 0x10000000000 then
    .host 1 (s.fget (F.mtxHbaseBase 1) * 2 ^ 38 + (a - 0xC000000000))
  else .none

/-- The target of an internal address (Table 1.9). -/
def State.targetOfAddr (s : State) (addr : Nat) : Nat :=
  match s.placeOf addr with
  | .bar0 a => targetOfWord a
  | .boot _ => 1
  | .code _ => 1
  | .host h _ => 13 + h
  | .none => 15

/-! ### The Bulk Mover (R404 to R406) -/

/-- The channel's record. -/
def State.mover (s : State) (n : Nat) : Mover := Table.get {} n s.movers

/-- Store it. -/
def State.setMover (s : State) (n : Nat) (x : Mover) : State := { s with movers := Table.put {} x n s.movers }

/-- Transactions of master 7 in flight change (R396). -/
def State.outRd (s : State) (k : Int) : State := s.fput (F.mtxOutRd 7) ((s.fget (F.mtxOutRd 7) : Int) + k).toNat
def State.outWr (s : State) (k : Int) : State := s.fput (F.mtxOutWr 7) ((s.fget (F.mtxOutWr 7) : Int) + k).toNat

/-- Length of the next read burst: at most 512 bytes, to the next 4 KiB boundary of either end (R405). -/
def burstLen (x : Mover) : Nat :=
  Nat.min (Nat.min 512 (x.len - x.issued)) (Nat.min (4096 - (x.src + x.issued) % 4096) (4096 - (x.dst + x.issued) % 4096))

/-- Master BMV may issue bursts: the Spine sheds nothing (R405) and its port does not drain (R403). -/
def State.bmvOpen (s : State) : Bool := s.fget (F.hscMarginShed 4) == 0 && !s.flag (F.mtxOutRst 7)

/-- 64 writes of master BMV are outstanding (R396). -/
def State.writesFull (s : State) : Bool := Nat.ble 64 (s.fget (F.mtxOutWr 7))

/-- The channel may issue a read burst (R396, R405, R406). -/
def State.mayIssue (s : State) (n : Nat) : Bool :=
  let x := s.mover n
  s.flag (F.bmvCtlGoBusy n) && x.fail == 0 && Nat.blt x.issued x.len && Nat.blt x.reads.length 8
    && s.bmvOpen && Nat.blt (s.fget (F.mtxOutRd 7)) 64

/-- The channel may issue a write burst: its oldest bytes have all been read (R405). -/
def State.mayWrite (s : State) (n : Nat) : Bool := !(s.mover n).held.isEmpty && s.bmvOpen && !s.writesFull

/-- Issue one read burst; one of host memory leaves the device. -/
def State.issueRead (s : State) (n : Nat) : State :=
  let x := s.mover n
  let l := burstLen x
  let t := ((s.granting 7 (s.targetOfAddr (x.src + x.issued))).setMover n
    { x with issued := x.issued + l, reads := x.reads ++ [(x.issued, l)] }).outRd 1
  match s.placeOf (x.src + x.issued) with
  | .host h a => t.emit (.hostRead h a l)
  | _ => t

/-- The channel whose turn it is among those that satisfy `p`: ascending numbers after the one served last (R405). -/
def State.bmvTurn (s : State) (p : Nat → Bool) : Option Nat := ((List.range 8).map (fun j => (s.bmvLast + j) % 8)).find? p

/-- Issue read bursts, one channel after the other. -/
def State.issueReads (s : State) : Nat → State
  | 0 => s
  | k + 1 =>
    match s.bmvTurn s.mayIssue with
    | none => s
    | some n => (({ s with bmvLast := n + 1 } : State).issueRead n).issueReads k

/-- The channel ends with a status (R406): an error counts and is reported; OK gives its pulse. -/
def State.moverEnd (s : State) (n status : Nat) : State :=
  let t := (((s.fset (F.bmvCtlGoBusy n) false).fset (F.bmvStsDone n) true).fput (F.bmvStsStatus n) status).setMover n {}
  bif status == 0 then t.pulse (1 + n)
  else bif status == 1 then t.cnt (Reg.bmvCnt 3)
  else ((t.cnt (Reg.bmvCnt 2)).brzEvent 0x231 73 n status (t.rd (Reg.bmvBytes n))).corrected 50 n

/-- The channel ends when nothing of it is in flight and all is written, or it has failed (R406); one whose last response
comes in the handshake that clears EN is OK. -/
def State.moverCheck (s : State) (n : Nat) : State :=
  let x := s.mover n
  let whole := x.issued == x.len && x.held.isEmpty
  bif s.flag (F.bmvCtlGoBusy n) && x.reads.isEmpty && x.writes.isEmpty && (x.fail != 0 || whole) then
    s.moverEnd n (bif whole && x.fail == 1 && x.abortAt == some s.counter then 0 else x.fail)
  else s

/-- GO (R404). -/
def State.moverGo (s : State) (n : Nat) : State :=
  bif s.flag (F.bmvCtlGoBusy n) || !s.flag (F.bmvCtlEn n) then s.cnt (Reg.bmvCnt 1)
  else
    let t := ((s.cnt (Reg.bmvCnt 0)).wr (Reg.bmvSts n) 0).wr (Reg.bmvBytes n) 0
    let t := t.setMover n
      { src := t.rd (Reg.bmvSrcLo n) + 2 ^ 32 * t.rd (Reg.bmvSrcHi n), dst := t.rd (Reg.bmvDstLo n) + 2 ^ 32 * t.rd (Reg.bmvDstHi n)
        len := t.rd (Reg.bmvLen n) }
    ((t.fset (F.bmvCtlGoBusy n) true).issueReads 64).moverCheck n

/-- EN cleared while BUSY (R406). -/
def State.moverAbort (s : State) (n : Nat) : State :=
  bif s.flag (F.bmvCtlGoBusy n) && (s.mover n).fail == 0 then
    (s.setMover n { s.mover n with fail := 1, abortAt := some s.counter }).moverCheck n
  else s

/-- A write of BMV_CTL_n: EN takes its value, then GO acts. -/
def State.writeBmvCtl (s : State) (n w : Nat) : State :=
  let was := s.flag (F.bmvCtlEn n)
  let t := s.fset (F.bmvCtlEn n) (bitAt w 0)
  let t := t.when (was && !bitAt w 0) (·.moverAbort n)
  t.when (bitAt w 1) (·.moverGo n)

/-! ### Seal units (R407 to R410) -/

/-- What a judged message leaves: verdict, whether it resynchronised. -/
structure Judged where
  verdict : Nat := 0
  resync : Bool := false
  deriving DecidableEq, Repr

/-- The verdict on a message (R408): `good` is its CRC, `fmt` its format, `alive` its count. -/
def State.sealJudge (s : State) (n : Nat) (fmt good : Bool) (alive : Nat) : Judged :=
  let d := (alive + 65536 - s.fget (F.sealStsLast n)) % 65536
  let on := s.flag (F.sealCtlAliveEn n) && s.flag (F.sealStsLastV n)
  let next := s.flag (F.sealStsCandV n) && alive == (Table.get 0 n s.cand + 1) % 65536
  bif !fmt then { verdict := 1 }
  else bif !good then { verdict := 2 }
  else bif on && d == 0 then { verdict := 3 }
  else bif on && Nat.blt (s.fget (F.sealCtlW n)) d && !next then { verdict := 4 }
  else bif !s.flag (F.sealCtlEn n) then { verdict := 5 }
  else { verdict := 0, resync := on && next }

/-- The alive state after a verdict (R408): a message outside the window becomes the candidate, an accepted one
the last. Its word is a memory word (R413, R428). -/
def State.sealAlive (s : State) (n alive : Nat) (j : Judged) : State :=
  let t := bif j.verdict == 0 then (s.fput (F.sealStsLast n) alive).fset (F.sealStsLastV n) true else s
  { (t.fset (F.sealStsCandV n) (j.verdict == 4)).memWritten 40 0 (Reg.sealSts n) with
    cand := Table.put 0 (bif j.verdict == 4 then alive else 0) n t.cand }

/-- Counters of a verdict (Table 14.18). -/
def State.sealCount (s : State) (n : Nat) (j : Judged) : State :=
  let t := (s.cnt (Reg.sealCnt n 0)).cnt (Reg.sealCnt n ([1, 6, 2, 3, 4, 7].getD j.verdict 1))
  t.when j.resync (·.cnt (Reg.sealCnt n 5))

/-- The alive state word is read; one that cannot be read is lost (R413, R428). -/
def State.sealLose (s : State) (n : Nat) (bad : Bool) : State :=
  (s.touch (Reg.sealSts n) 1).when (bad || !s.readable (Reg.sealSts n)) (·.fset (F.sealStsLastV n) false)

/-- The words of the message buffer are read (R409, R428): one that cannot be read gives a free value. -/
def State.sealRead (s : State) (n : Nat) : State × List Nat :=
  (List.range 20).foldl (fun a k => let r := a.1.tableRead (Reg.sealMsg n k); (r.1, a.2 ++ [r.2])) (s, [])

/-- The CHECK of a trip message as a number (Table 14.4): least significant byte first for POLY 0 and 1. -/
def checkValue (poly n check : Nat) : Nat := bif Nat.ble poly 1 then leNat (beBytes n check) else check

/-- One trip message is judged and goes on to its channel, or is discarded (R408, R386). -/
def State.judgeTrip (s : State) (x : Trip) (bad : Bool) : State :=
  let n := x.unit
  let poly := s.fget (F.sealCtlPoly n)
  let alive := 256 * x.bytes.getD 2 0 + x.bytes.getD 3 0
  let s := s.sealLose n bad
  let j := s.sealJudge n true (sealCrc poly x.bytes == checkValue poly (s.sealBytes n) x.check) alive
  let t := (s.sealCount n j).sealAlive n alive j
  let t := t.when (Table.get 0 n t.sealRun == 1) (·.cnt (Reg.sealCnt n 8))
  bif j.verdict == 0 then t.tripArrives (x.bytes.getD 0 0 % 4) (x.bytes.drop 6)
  else t.brzEvent 0x230 74 n j.verdict alive

/-- A message-buffer evaluation starts (R409). -/
def State.sealStart (s : State) (n : Nat) : State :=
  let t := s.when (Table.get 0 n s.sealRun == 1) (·.cnt (Reg.sealCnt n 8))
  { (t.wr (Reg.sealRes n) 0).wr (Reg.sealCrc n) 0 with sealRun := Table.put 0 1 n t.sealRun }

/-- The evaluation ends (R409). The CRC of a message whose LEN exceeds 64 is a free value. -/
def State.sealDone (s : State) (n : Nat) (bad : Bool) : State :=
  bif Table.get 0 n s.sealRun != 1 then s
  else
    let r := s.sealRead n
    let b := bytesOfWords r.2
    let s := r.1
    let len := b.getD 4 0
    let poly := s.fget (F.sealCtlPoly n)
    let k := s.sealBytes n
    let long := Nat.blt 64 len
    let crc := bif long then s.freeVal 32 else sealCrc poly (b.take (6 + len))
    let s := (s.when long (·.useFree)).sealLose n bad
    let alive := 256 * b.getD 2 0 + b.getD 3 0
    let j := s.sealJudge n (b.getD 0 0 / 16 == 1 && !long)
      (crc == checkValue poly k (beNat ((b.drop (6 + len)).take k))) alive
    let t := (s.sealCount n j).sealAlive n alive j
    let t := (t.wr (Reg.sealRes n) (1 + 2 * j.verdict + 2 ^ 16 * alive)).wr (Reg.sealCrc n) crc
    { t with sealRun := Table.drop n t.sealRun }.pulse (9 + n)

/-- A write of SEAL_CTL_n: EN rising clears the alive state (R408). -/
def State.sealCtlWritten (s : State) (n : Nat) (was : Bool) : State :=
  s.when (!was && s.flag (F.sealCtlEn n)) fun t =>
    { ((t.fset (F.sealStsLastV n) false).fset (F.sealStsCandV n) false).memWritten 40 0 (Reg.sealSts n) with
      cand := Table.drop n t.cand }

/-! ### The event router (R411) -/

/-- The action of one pulse of source `id` at sink `j` (Table 14.8). -/
def State.sinkActs (s : State) (j id : Nat) : State :=
  bif j == 0 then s.fabArm
  else bif Nat.ble j 8 then s.when (s.ready 51 && !s.unitHeld 9) (·.sealStart (j - 1))
  else s.brzEvent (0x004 + (j - 9)) 75 id 0 0

/-- The oldest pulse reaches the sinks that select its source. -/
def State.deliverPulse (s : State) : State :=
  match s.pulses with
  | [] => s
  | id :: r =>
    forUpTo 13 (fun j t => t.when (t.fget (F.evrSinkSrc j) == id) fun u =>
      (u.cnt (Reg.evrCnt j)).sinkActs j id) { s with pulses := r }

end Sys2Proof.Machine
end

