-- ==== Sys2Proof/Machine/Handshake.lean ====
section
/-! DEFINITION. The handshake core (chapter 2): slack monitors, the core voltage request, shed levels, stalls
and code violations. -/

namespace Sys2Proof.Machine

/-- The published margin of unit `u`, in 0.1 %. -/
def State.margin (s : State) (u : Nat) : Int := signedOf (s.fget (F.hscMarginMargin u)) 16

/-- The ring period at the slow corner, ps (R42). -/
def slowPeriod : Nat := 54400

/-- M of a measured ring period in ps, in 0.1 %; the rounding of an inexact M is not stated: `up` is free. -/
def marginOf (period : Nat) (up : Bool) : Int :=
  let n : Int := 1000 * ((slowPeriod : Int) - period)
  let q := n / (slowPeriod : Int)
  clampInt (-32768) 32767 (bif n % (slowPeriod : Int) == 0 || !up then q else q + 1)

/-- The unit's base domain is READY: its monitor measures (R42), and it raises reports (R450). -/
def State.reportsFor (s : State) (u : Nat) : Bool :=
  bif Nat.blt u 4 then s.qReady u 0 else bif u == 4 then s.ready 47 else u == 5

/-- The lowest M among the monitors of units that are powered and not isolated (R44): those with VALID = 1. -/
def State.lowestMargin (s : State) : Option Int :=
  (List.range 6).foldl (fun m u => bif s.flag (F.hscMarginValid u) then
    (match m with
    | some x => some (min x (s.margin u))
    | none => some (s.margin u)) else m) none

/-- The code that the automatic rule drives in place of `n`: at least FLOOR, at most CEIL, CEIL where FLOOR is
above it (R44, R45). -/
def State.vidLimit (s : State) (n : Nat) : Nat := Nat.min (s.fget F.hscVidCeil) (Nat.max (s.fget F.hscVidFloor) n)

/-- Drive a VID code. -/
def State.driveVid (s : State) (n : Nat) : State := (s.fput F.hscVidCode n).pin Pin.vid (n + 1)

/-- VID follows AUTO_VID, MANUAL, FLOOR and CEIL (R44, R45), once a valid margin has been measured (R454). -/
def State.showVid (s : State) : State :=
  s.when s.lowestMargin.isSome fun t =>
    t.driveVid (bif t.flag F.hscSlkCtlAutoVid then t.vidLimit (t.fget F.hscVidCode) else t.fget F.hscVidManual)

/-- MARGIN_MEASUREMENT (R42): unit `u` measures a ring period; VALID stays 0 while the unit is isolated. The first valid
measurement lets VID follow its fields (R454). -/
def State.measure (s : State) (u period : Nat) : State :=
  bif !s.reportsFor u then s
  else
    let m := marginOf period s.freeChoice
    let t := (s.useFree.fput (F.hscMarginMargin u) (encodeSigned m 16)).fset (F.hscMarginValid u) (s.unitPowered u)
    let t := t.when (decide (m < signedOf (t.fget (F.hscMarginMinMin u)) 16)) (·.fput (F.hscMarginMinMin u) (encodeSigned m 16))
    t.when s.lowestMargin.isNone (·.showVid)

/-- VID_RAISE (R44); at CEIL the corrected source 53 is reported. -/
def State.vidRaise (s : State) : State :=
  match s.lowestMargin with
  | none => s
  | some m =>
    bif s.flag F.hscSlkCtlAutoVid && decide (m < 10 * (s.fget F.hscSlkCtlMRaise : Int)) then
      let t := s.driveVid (s.vidLimit (s.fget F.hscVidCode + 2))
      t.when (t.fget F.hscVidCode == t.fget F.hscVidCeil) (·.corrected 53 0)
    else s

/-- VID_LOWER (R44). -/
def State.vidLower (s : State) : State :=
  match s.lowestMargin with
  | none => s
  | some m =>
    bif s.flag F.hscSlkCtlAutoVid && decide (10 * (s.fget F.hscSlkCtlMLower : Int) < m) then
      s.driveVid (s.vidLimit (s.fget F.hscVidCode - 1))
    else s

/-- The threshold of a shed level (Table 2.3), 0.1 %. -/
def shedThreshold (level : Nat) : Int := -(50 * ((level : Int) - 1))

/-- The highest level whose threshold M is below (R47). -/
def shedFor (m : Int) : Nat :=
  bif decide (m < shedThreshold 3) then 3 else bif decide (m < shedThreshold 2) then 2 else bif decide (m < shedThreshold 1) then 1 else 0

/-- A shed level changes: leaving 0 reports source 52, level 0 delivers the held half-range events. -/
def State.setShed (s : State) (u n : Nat) : State :=
  let old := s.fget (F.hscMarginShed u)
  let t := s.fput (F.hscMarginShed u) n
  let t := t.when (old == 0 && n != 0) (·.corrected 52 u)
  t.when (n == 0) (·.releaseHr u)

/-- SHED_LEVEL_ENTER (R47). -/
def State.shedEnter (s : State) (u : Nat) : State :=
  let n := shedFor (s.margin u)
  s.when (Nat.blt u 6 && s.flag F.hscSlkCtlShedEn && s.flag (F.hscMarginValid u) && Nat.blt (s.fget (F.hscMarginShed u)) n)
    (·.setShed u n)

/-- SHED_LEVEL_LEAVE (R47). -/
def State.shedLeave (s : State) (u : Nat) : State :=
  let n := s.fget (F.hscMarginShed u)
  s.when (Nat.blt u 6 && n != 0 && decide (shedThreshold n + 50 ≤ s.margin u)) (·.setShed u (n - 1))

/-- The handshake source of unit `u` (Table 15.1). -/
def hsSource (u : Nat) : Nat := bif Nat.blt u 4 then 8 * u else bif u == 4 then 32 else 54

/-- CORE_TIMING_LOST (R50): any powered unit raises it, an isolated one too (Table 15.3). -/
def State.timingLost (s : State) (u : Nat) : State :=
  s.when (s.reportsFor u && decide (s.margin u < -200)) (·.report [(hsSource u, 4)])

/-- MIN_RST and the other fields of a write of HSC_SLK_CTL (Table 2.6). -/
def State.writeSlkCtl (s : State) (w : Nat) : State :=
  let t := s.store Reg.hscSlkCtl w
  let t := t.when (bitAt w 31) (fun u =>
    forUpTo 6 (fun n v => v.fput (F.hscMarginMinMin n) (v.fget (F.hscMarginMargin n))) u)
  let t := t.when (!bitAt w 1) (fun u => forUpTo 6 (fun n v => v.when (v.fget (F.hscMarginShed n) != 0) (·.setShed n 0)) u)
  t.showVid

/-- A write of HSC_VID (Table 2.7). -/
def State.writeVid (s : State) (w : Nat) : State := (s.store Reg.hscVid w).showVid

/-- The lowest of two channels: block id first, then channel id (R60). -/
def lowerChannel (x y : Nat × Nat) : Nat × Nat :=
  bif Nat.blt (65536 * y.1 + y.2) (65536 * x.1 + x.2) then y else x

/-- The domain of the block with id `b` (Tables 15.2 and 17.1). The id of the SerDes banks names no bank: it stands for the
quadrant base. -/
def blockDom (b : Nat) : Nat :=
  bif Nat.blt b 64 then qDom (b / 16) ([0, 0, 0, 0, 7, 8, 9, 10].getD (b % 16) 0)
  else [45, 46, 47, 48, 49, 49, 47, 50, 51, 47, 51, 47, 47].getD (b - 64) 0

/-- Channels of unit `u` are declared in one tick (R40, R58 to R60): the first record since STALLED was cleared
is kept, and the unit's handshake source is reported. A channel of a domain that is not READY is clamped at spacer, and
neither check of it runs (R450). Where a code violation and a stall of one unit fall in one tick, they come as two
commands: the first one's VIOL, channel and COUNT stay: DESIGN CHOICE, log entry 131. -/
def State.stallOf (s : State) (u : Nat) (viol : Bool) (all : List (Nat × Nat)) : State :=
  let chs := all.filter (fun c => s.ready (blockDom c.1))
  match chs with
  | [] => s
  | c :: r =>
    bif !s.reportsFor u then s
    else
      let x := r.foldl lowerChannel c
      let t := s.when (!s.flag (F.hscStallStalled u)) (·.wr (Reg.hscStall u)
        (x.2 % 65536 + 2 ^ 16 * (x.1 % 256) + 2 ^ 24 * Nat.min 63 chs.length + 2 ^ 30 * bit viol + 2 ^ 31))
      t.report [(hsSource u, bif viol then 2 else 1)]

/-! ### Commands -/

/-- MARGIN_MEASUREMENT (R42): unit `u`, ring period in ps. -/
def execMarginMeasurement (u period : Nat) (s : State) : Host.Outcome State Fault Refusal := .next (s.measure u period)

/-- VID_RAISE (R44). -/
def execVidRaise (s : State) : Host.Outcome State Fault Refusal := .next s.vidRaise

/-- VID_LOWER (R44). -/
def execVidLower (s : State) : Host.Outcome State Fault Refusal := .next s.vidLower

/-- SHED_LEVEL_ENTER (R47). -/
def execShedLevelEnter (u : Nat) (s : State) : Host.Outcome State Fault Refusal := .next (s.shedEnter u)

/-- CORE_TIMING_LOST (R50). -/
def execCoreTimingLost (u : Nat) (s : State) : Host.Outcome State Fault Refusal := .next (s.timingLost u)

/-- CODE_VIOLATION (R40): channels of unit `u`, each a block id and a channel id. -/
def execCodeViolation (u : Nat) (chs : List (Nat × Nat)) (s : State) : Host.Outcome State Fault Refusal :=
  .next (s.stallOf u true chs)

/-- HANDSHAKE_STALL (R58). -/
def execHandshakeStall (u : Nat) (chs : List (Nat × Nat)) (s : State) : Host.Outcome State Fault Refusal :=
  .next (s.stallOf u false chs)

end Sys2Proof.Machine
end

