-- ==== Sys2Proof/Machine/Rings.lean ====
section
/-! DEFINITION. The ring commands: doorbells, scans, fetches, completions, stops and the Notice Rings (R206 to
R240). -/

namespace Sys2Proof.Machine

/-- The domain of the engine that serves a ring. -/
def ringDom (r : Nat) : Nat := bif Nat.blt r 2304 then qDom (r / 576) 8 else 47

/-- The engine of a ring runs: its domain is READY, its quadrant is not isolated, its Spine unit is not held. -/
def State.ringWorks (s : State) (r : Nat) : Bool :=
  s.ready (ringDom r) && !s.ringIsolated r && (Nat.blt r 2304 || !s.unitHeld 6)

/-! ### Scans (R216 to R220) -/

/-- The source and cause of the engine memory that holds ring `r`'s state word. -/
def ringMem (r : Nat) : Nat × Nat := bif Nat.blt r 2304 then (8 * (r / 576) + 2, 4) else (36, 0)

/-- UNITS lies in the range of the ring's type (Tables 8.5, 8.7, 11.4, 13.8, 13.9); `u` counts units. -/
def unitsFit (type u : Nat) : Bool :=
  match type with
  | 1 => Nat.ble 2 u
  | 4 => Nat.ble u 5
  | 5 => u == 5
  | _ => u == 2

/-- LEN of every buffer of a TX entry. -/
def txLens (w : List Nat) : List Nat := (List.range (w.length / 4 - 1)).map (fun n => bitsOf (w.getD (4 * n + 6) 0) 0 14)

/-- The frame length of a TX entry. -/
def txTotal (w : List Nat) : Nat := (txLens w).foldl (· + ·) 0

/-- The checked fields of an entry's body pass (R220, R224, R227, R317, R384). -/
def bodyFits (type : Nat) (w : List Nat) : Bool :=
  let w1 := w.getD 1 0
  match type with
  | 1 => (txLens w).all (fun n => Nat.ble 1 n && Nat.ble n 9600) && Nat.ble (txTotal w) 9600
    && (!bitAt w1 15 || Nat.ble (bitsOf w1 16 8 + 44) (txTotal w))
  | 2 => Nat.ble 64 (bitsOf (w.getD 3 0) 0 14) && Nat.ble (bitsOf (w.getD 3 0) 0 14) 9600
  | 3 => Nat.ble (bitsOf w1 0 2) 1 && (bitsOf w1 0 2 != 0 || Nat.blt (w.getD 2 0) 1000000000)
  | 4 => Nat.ble (bitsOf w1 16 7) 64 && w.length / 4 - 1 == (bitsOf w1 16 7 + 15) / 16
  | _ => true

/-- An entry has been accepted: F passes it, and its effect at acceptance follows (R217, R229, R384). -/
def State.acceptEntry (s : State) (r : Nat) (w : List Nat) : State :=
  let f := s.rd (Reg.ringScan r)
  let u := w.length / 4
  let e : RingEntry := { pos := f, units := u, kind := ringType r, words := w }
  let t := s.setRing r { s.ring r with entries := (s.ring r).entries ++ [e] }
  let t := (t.wr (Reg.ringScan r) ((f + u) % 2 ^ 32)).ringShow r
  let t := t.when (isRxRing r && t.flag (F.ringStsStarved r) || isCbRxRing r && t.flag (F.ringStsStarved r))
    (fun v => (v.fset (F.ringStsStarved r) false).slotWrite r false)
  t.when (isCbTxRing r && !t.cbWindowOk ((r - 2312) / 2) (cbTxId e) (cbTxLen e)) (·.txComplete r f 2 0 0 0)

/-- A SKIP covers the rest of the lap (R213). -/
def State.acceptSkip (s : State) (r : Nat) : State :=
  let f := s.rd (Reg.ringScan r)
  let u := s.ringSize r - f % s.ringSize r
  let t := s.setRing r { s.ring r with
    entries := (s.ring r).entries ++ [{ pos := f, units := u, kind := 15, done := true }] }
  let t := (t.wr (Reg.ringScan r) ((f + u) % 2 ^ 32)).ringAdvance r
  t.when (t.rd (Reg.ringHead r) != s.rd (Reg.ringHead r)) (·.slotWrite r true)

/-- The scan ends (R217). -/
def State.scanEnd (s : State) (r : Nat) : State := s.setRing r { s.ring r with scanning := false, part := [], rest := [] }

/-- Units of an entry at position `x` that the engine takes from the read that found its header owned (R219). -/
def State.headUnits (s : State) (r x have' : Nat) : Nat :=
  bif s.hdrFirst r then Nat.min have' (4 - x % 4) else have'

/-- The rest of an entry is read again, or read for the first time (R217, R219). -/
def State.readRest (s : State) (r have' u : Nat) (data : List Nat) : State :=
  let t := s.setRing r { s.ring r with scanning := true, part := data.take (4 * have'), rest := data.drop (4 * u) }
  (t.when (t.hdrFirst r) (·.ringCount r 2)).ringRead r (t.unitAddr r (t.rd (Reg.ringScan r) + have')) (16 * (u - have'))

/-- A whole entry is checked and accepted, or is a format error (R220). -/
def State.takeEntry (s : State) (r : Nat) (w : List Nat) : State × Bool :=
  bif bodyFits (ringType r) w then (s.acceptEntry r w, true) else (s.ringError r 3, false)

/-- The engine examines the headers in data that begins at F, in ring order (R217); the fuel covers one header
each. -/
def State.scanWalk (s : State) (r : Nat) (data : List Nat) : Nat → State
  | 0 => s
  | n + 1 =>
    bif !s.flag (F.ringStsRun r) then s
    else bif s.scanFull r then s.setRing r { s.ring r with scanning := false, paused := true, part := [], rest := [] }
    else bif data.isEmpty then s.scanRead r
    else
      let h := data.headD 0
      let f := s.rd (Reg.ringScan r)
      let u := bitsOf h 4 4 + 1
      bif bitsOf h 8 1 != s.ownedMark r f then s.scanEnd r
      else bif bitsOf h 0 4 == 15 then (s.acceptSkip r).scanRead r
      else bif bitsOf h 0 4 != ringType r then s.ringError r 1
      else bif !unitsFit (ringType r) u || Nat.blt (s.ringSize r) (f % s.ringSize r + u) then s.ringError r 2
      else
        let have' := s.headUnits r (f % s.ringSize r) (data.length / 4)
        bif Nat.blt have' u then s.readRest r have' u data
        else
          let t := s.takeEntry r (data.take (4 * u))
          bif t.2 then t.1.scanWalk r (data.drop (4 * u)) n else t.1

/-- Scan data returns (R217 to R219): the read has ended, and what its data holds may issue the next one. -/
def State.scanData (s : State) (r : Nat) (words : List Nat) : State :=
  let x := s.ring r
  bif Nat.blt 0 x.discard then s.setRing r { x with discard := x.discard - 1 }
  else bif !x.scanning then s
  else bif x.part.isEmpty then (s.scanEnd r).scanWalk r words 17
  else
    let t := (s.scanEnd r).takeEntry r (x.part ++ words)
    bif t.2 then t.1.scanWalk r x.rest 17 else t.1

/-- The state word of ring `r` is read; it reads without an uncorrectable error; it is written at the end of a row, which
reports what it has read (R242, R428). -/
def State.ringWordRead (s : State) (r : Nat) : State := s.hiddenRead (ringMem r).1 (ringMem r).2 (r % 2304 % 576)
def State.ringWordGood (s : State) (r : Nat) : Bool := s.hiddenGood (ringMem r).1 (ringMem r).2 (r % 2304 % 576)
def State.ringWordWritten (s : State) (r : Nat) : State :=
  (s.hiddenWritten (ringMem r).1 (ringMem r).2 (r % 2304 % 576)).reportReads

/-- The state word of ring `r` cannot be read (R242): the ring stops with ECC. -/
def State.ringEcc (s : State) (r : Nat) : State :=
  (s.cntF (bif Nat.blt r 2304 then F.ringQctlEccUnc (r / 576) else F.sringCtlEccUnc)).ringError r 6

/-- The engine begins a scan (R217): DB_PEND clears and a read is issued; `bad` says that the ring's state word
cannot be read (R242). -/
def State.scanStart (s : State) (r : Nat) (bad : Bool) : State :=
  bif !s.flag (F.ringStsRun r) || (s.ring r).scanning || (s.ring r).paused then s
  else bif bad then s.ringEcc r
  else bif s.flag (F.ringStsDbPend r) || (s.ring r).due then (s.fset (F.ringStsDbPend r) false).scanRead r
  else s

/-! ### Transmit fetch (R225) -/

/-- The next entry of a transmit ring whose fetch has not begun. -/
def State.nextFetch (s : State) (r : Nat) : Option RingEntry :=
  (s.ring r).entries.find? (fun e => e.kind == 1 && !e.done && !e.begun)

/-- The entry of a transmit ring whose frame comes next from its fetch. -/
def State.inFetch (s : State) (r : Nat) : Option RingEntry :=
  (s.ring r).entries.find? (fun e => e.kind == 1 && !e.done && e.begun && !e.whole)

/-- The entry of a transmit ring of which some buffer read has been issued and some has not. -/
def State.partFetch (s : State) (r : Nat) : Option RingEntry :=
  (s.ring r).entries.find? (fun e => e.kind == 1 && !e.done && e.begun && Nat.blt e.reads (e.words.length / 4 - 1))

/-- The ring for which port `p` reads next: the one whose entry it is reading, otherwise its highest-numbered transmit ring
with an entry to fetch. -/
def State.fetchRing (s : State) (p : Nat) : Option Nat :=
  let l := (List.range 8).map (fun j => 16 * p + 7 - j)
  (l.find? (fun r => (s.partFetch r).isSome)).orElse (fun _ => l.find? (fun r => (s.nextFetch r).isSome))

/-- The ring that the engine of quadrant `q` reads for next: its ports in turn, ascending after the last (R225). -/
def State.fetchTurn (s : State) (q : Nat) : Option Nat :=
  ((List.range 36).map (fun j => 36 * q + (Table.get 0 q s.fetchLast + j) % 36)).findSome? s.fetchRing

/-- The frame of a TX entry (Table 8.5). -/
def frameOf (r : Nat) (e : RingEntry) (l : List Byte) : TxFrame :=
  let w1 := e.words.getD 1 0
  { bytes := l, cls := r % 16, fg := bitsOf w1 0 14, ring := r, pos := e.pos, tsReq := bitAt w1 14
    oneStep := bitAt w1 15, ptpOff := bitsOf w1 16 8 }

/-- The next buffer read of a TX entry. -/
def State.fetchRead (s : State) (r : Nat) (e : RingEntry) : State :=
  let k := 4 * e.reads + 4
  s.ringRead r (e.words.getD k 0 + 2 ^ 32 * e.words.getD (k + 1) 0) (bitsOf (e.words.getD (k + 2) 0) 0 14)

/-- Change the entry at a count. -/
def State.setEntry (s : State) (r pos : Nat) (f : RingEntry → RingEntry) : State :=
  s.setRing r { s.ring r with entries := (s.ring r).entries.map (fun e => bif e.pos == pos && !e.done then f e else e) }

/-- The engine issues buffer reads, of the ports in turn, while it has fewer than 64 reads outstanding (R225, R396). -/
def State.fetchPump (s : State) (q : Nat) : Nat → State
  | 0 => s
  | k + 1 =>
    bif Nat.ble 64 (s.fget (F.mtxOutRd (3 + q))) || s.flag (F.mtxOutRst (3 + q)) || !s.qReady q 0 then s
    else match s.fetchTurn q with
      | none => s
      | some r =>
        match (s.partFetch r).orElse (fun _ => s.nextFetch r) with
        | none => s
        | some e =>
          let t := (s.fetchRead r e).setEntry r e.pos (fun x => { x with begun := true, reads := x.reads + 1 })
          ({ t with fetchLast := Table.put 0 (r / 16 % 36 + 1) q t.fetchLast } : State).fetchPump q k

/-- The fetches of the quadrant of ring `r` go on; a Spine ring has none. -/
def State.fetchMore (s : State) (r : Nat) : State := s.when (Nat.blt r 2304) (·.fetchPump (r / 576) 64)

/-- The reads of a TX entry have ended. -/
def State.fetchEnds (s : State) (r : Nat) (e : RingEntry) : State := s.transEnd (ringMaster r) false e.reads

/-- A frame has been read whole (R225): it is queued for its port, as a pair of copies where R182 asks for it. -/
def State.fetched (s : State) (r : Nat) (l : List Byte) : State :=
  match s.inFetch r with
  | none => s
  | some e =>
    bif l.length != txTotal e.words || !s.qReady (r / 576) 0 || (s.partFetch r).any (fun x => x.pos == e.pos) then s
    else (((s.fetchEnds r e).setEntry r e.pos (fun x => { x with whole := true })).hostSend (r / 16) (frameOf r e l)).fetchMore r

/-! ### Enabling and stopping (R211, R237) -/

/-- A ring starts at H with a scan (R216, R237); a Notice Ring has none. -/
def State.ringStart (s : State) (r : Nat) : State :=
  let t := (s.fset (F.ringCtlEn r) true).fset (F.ringStsRun r) true
  ((t.setRing r { t.ring r with due := isSoftRing r, enHeld := false, lost := false }).slotWrite r false).hiddenWritten
    (ringMem r).1 (ringMem r).2 (r % 2304 % 576)

/-- A write of RING_CTL (R237). -/
def State.writeRingCtl (s : State) (r w : Nat) : State :=
  bif bitAt w 0 then
    bif s.flag (F.ringCtlEn r) then s
    else bif s.flag (F.ringStsIdle r) then s.ringStart r
    else (s.fset (F.ringCtlEn r) true).setRing r { s.ring r with enHeld := true }
  else bif s.flag (F.ringStsRun r) then s.ringStop r
  else (s.fset (F.ringCtlEn r) false).setRing r { s.ring r with enHeld := false }

/-- No accepted entry remains (R237): H = F, the slot is written, IDLE sets, and a held enable runs. -/
def State.ringIdle (s : State) (r : Nat) : State :=
  bif s.flag (F.ringStsRun r) || s.flag (F.ringStsIdle r) || (s.ring r).entries.any (fun e => !e.done) then s
  else
    let t := s.when (isSoftRing r) (·.ringAdvance r)
    let t := (t.slotWrite r false).fset (F.ringStsIdle r) true
    t.when (t.ring r).enHeld (·.ringStart r)

/-- A write of RING_HEAD (R211, R233). -/
def State.writeRingHead (s : State) (r w : Nat) : State :=
  bif s.ringLocked r then s
  else
    let t := (s.wr (Reg.ringHead r) w).wr (Reg.ringScan r) w
    bif isSoftRing r then t else t.wr (Reg.ntcCons (r - 2320)) w

/-- A write of NTC_CONS (R233). -/
def State.writeNtcCons (s : State) (h w : Nat) : State :=
  let c := s.rd (Reg.ntcCons h)
  let p := s.rd (Reg.ringHead (noticeRing h))
  bif Nat.ble ((w + 2 ^ 32 - c) % 2 ^ 32) ((p + 2 ^ 32 - c) % 2 ^ 32) then s.wr (Reg.ntcCons h) (w % 2 ^ 32)
  else s.fset (bif h == 0 then F.ntcStsConsErrA else F.ntcStsConsErrB) true

/-- A write of RING_STS clears ERR and LINK_LOST; ERR_CODE clears with ERR, and the slot follows (R222). -/
def State.writeRingSts (s : State) (r w : Nat) : State :=
  let t := s.store (Reg.ringSts r) w
  t.when (s.flag (F.ringStsErr r) && !t.flag (F.ringStsErr r)) fun u =>
    (u.fput (F.ringStsErrCode r) 0).slotWrite r false

/-- A doorbell (R216). -/
def State.ringDoorbell (s : State) (r : Nat) : State :=
  bif isSoftRing r then (s.fset (F.ringStsDbPend r) true).ringCount r 1 else s

/-! ### The commands -/

/-- DOORBELL (R216): a write at BAR2 offset `off`. -/
def execDoorbell (off : Nat) (s : State) : Host.Outcome State Fault Refusal :=
  .next (s.when (Nat.blt (off / 8) 2320 && s.ringWorks (off / 8)) (·.ringDoorbell (off / 8)))

/-- RING_SCAN_START (R217). -/
def execRingScanStart (r : Nat) (bad : Bool) (s : State) : Host.Outcome State Fault Refusal :=
  .next (s.when (s.ringWorks r && isSoftRing r) fun t => ((t.ringWordRead r).scanStart r (bad || !t.ringWordGood r)).reportReads)

/-- The scan read of ring `r` returns (R217): the read ends, its entries are accepted, and fetches begin. With an
unreadable state word the ring stops and the data is discarded (R242). -/
def State.scanReturns (s : State) (r : Nat) (words : List Nat) (bad : Bool) : State :=
  let t := s.when ((s.ring r).scanning || Nat.blt 0 (s.ring r).discard) (·.readIn (ringMaster r))
  bif bad then (t.ringEcc r).scanData r words
  else (t.scanData r words).fetchMore r

/-- SCAN_DATA_RETURN (R217, R242): the words that the scan read of ring `r` returns; `bad` says that the ring's state
word cannot be read. -/
def execScanDataReturn (r : Nat) (d : ScanData) (s : State) : Host.Outcome State Fault Refusal :=
  .next (s.when (s.ringWorks r && isSoftRing r) fun t =>
    ((t.ringWordRead r).oneSlot (·.scanReturns r d.words (d.bad || !t.ringWordGood r))).ringWordWritten r)

/-- TX_FETCH_DONE (R225): the frame of the next entry of transmit ring `r` has been read whole. -/
def execTxFetchDone (r : Nat) (bytes : List Byte) (s : State) : Host.Outcome State Fault Refusal :=
  .next (s.when (s.ringWorks r && isTxRing r) (·.fetched r bytes))

/-- ENTRY_COMPLETE (R221, R242): the work and the writebacks of an entry have ended. -/
def execEntryComplete (r : Nat) (e : EntryEnd) (s : State) : Host.Outcome State Fault Refusal :=
  .next (s.when (s.ringWorks r) fun t =>
    ((t.ringWordRead r).oneSlot fun u => (u.when (e.bad || !t.ringWordGood r) (·.ringEcc r)).entryEnds r e.pos).reportReads)

/-- MSIX_GAP_EXPIRE (R223): the time of GAP runs on in an isolated quadrant, whose gate lets no message out (R28). -/
def execMsixGapExpire (r : Nat) (s : State) : Host.Outcome State Fault Refusal :=
  .next (s.when (s.ringWorks r || (s.ringIsolated r && s.ready (ringDom r))) fun t =>
    let x := t.ring r
    (t.setRing r { x with gap := false, irqHeld := false }).when (x.irqHeld && !t.ringIsolated r) (·.ringIrq r))

/-- RING_ENABLE (R237): RING_CTL is written with EN = 1. -/
def execRingEnable (r w : Nat) (s : State) : Host.Outcome State Fault Refusal :=
  .next (s.atReg (Reg.ringCtl r) (·.writeRingCtl r (w ||| 1)))

/-- RING_DISABLE (R237): RING_CTL is written with EN = 0. -/
def execRingDisable (r w : Nat) (s : State) : Host.Outcome State Fault Refusal :=
  .next (s.atReg (Reg.ringCtl r) (·.writeRingCtl r (withBits w 0 1 0)))

/-- RING_IDLE (R237). -/
def execRingIdle (r : Nat) (s : State) : Host.Outcome State Fault Refusal :=
  .next (s.when (s.ringWorks r) (·.ringIdle r))

/-- RING_HEAD_WRITE (R211). -/
def execRingHeadWrite (r w : Nat) (s : State) : Host.Outcome State Fault Refusal :=
  .next (s.atReg (Reg.ringHead r) (·.writeRingHead r w))

/-- HOST_LINK_LOST (R238). -/
def execHostLinkLost (h : Nat) (s : State) : Host.Outcome State Fault Refusal :=
  .next (s.atDom (45 + h) (·.hostLost h))

/-- NOTICE_WRITE (R235): an enabled event of a block is written as a notice to host `h`, or lost. -/
def execNoticeWrite (h code block index : Nat) (args : List Nat) (s : State) : Host.Outcome State Fault Refusal :=
  .next (s.when (s.ringWorks (noticeRing h)) (·.noticeTo h code block index args))

/-- NOTICE_CONSUMER_WRITE (R233). -/
def execNoticeConsumerWrite (h w : Nat) (s : State) : Host.Outcome State Fault Refusal :=
  .next (s.atReg (Reg.ntcCons h) (·.writeNtcCons h w))

/-- BUS_WRITE_ERROR (R239): a write for the entry at count `pos` fails or is cut; none for a head slot write, whose error
a ring takes after IDLE too. A ring that stops takes it, and its write has ended. -/
def execBusWriteError (r : Nat) (pos : Option Nat) (s : State) : Host.Outcome State Fault Refusal :=
  .next (s.when (s.ringWorks r) fun t =>
    match pos with
    | none => t.when (t.ring r).slotOut (fun u => (u.transEnd (ringMaster r) true 1).ringError r 5)
    | some n => t.when (t.entryAt r n).isSome (fun u =>
        (((u.transEnd (ringMaster r) true 1).abandonFrom r n).ringError r 5).fetchMore r))

/-- BUS_READ_ERROR (R226): a buffer read for the entry at count `pos`, or a scan read, returns an error. Of a read whose
data is thrown away (R237) the error is, too. -/
def execBusReadError (r : Nat) (pos : Option Nat) (s : State) : Host.Outcome State Fault Refusal :=
  .next (s.when (s.ringWorks r) fun t => t.oneSlot fun t =>
    match pos with
    | none =>
      let x := t.ring r
      bif Nat.blt 0 x.discard then (t.setRing r { x with discard := x.discard - 1 }).readIn (ringMaster r)
      else t.when x.scanning fun u => ((u.readIn (ringMaster r)).scanEnd r).ringError r 4
    | some n => match t.entryAt r n with
      | some e => t.when (isTxRing r && e.begun && !e.whole) fun u =>
        (((u.fetchEnds r e).txComplete r n 7 (u.statusB r 7) 0 0).ringError r 4).fetchMore r
      | none => t)

end Sys2Proof.Machine
end

