-- ==== Sys2Proof/Machine/Matrix.lean ====
section
/-! DEFINITION. The commands of the bus matrix, Bulk Mover, Seal units and event router that carry out no access of
their own (R392 to R411). -/

namespace Sys2Proof.Machine

/-- A write of MTX_CTL: SEQ_RUN rising starts the sequencer at internal address 0 (R398). -/
def State.writeMtxCtl (s : State) (w : Nat) : State :=
  let t := s.store Reg.mtxCtl w
  bif !s.flag F.mtxCtlSeqRun && t.flag F.mtxCtlSeqRun && t.ready 50 then { t with seqStart := some 0 } else t

/-- A write of SEAL_CTL_n. -/
def State.writeSealCtl (s : State) (n w : Nat) : State := (s.store (Reg.sealCtl n) w).sealCtlWritten n (s.flag (F.sealCtlEn n))

/-- The trip that is judged next: the oldest one, and of those that arrived for its unit in the same handshake the one
of the lowest port (R410). -/
def nextTrip : List Trip → Option Trip
  | [] => none
  | x :: r => some (r.foldl (fun y z => bif z.unit == x.unit && z.at' == x.at' && Nat.blt z.port y.port then z else y) x)

/-- SEAL_TRIP_CHECK (R408, R410): the next trip frame on its way is judged; `bad` says that the alive state word cannot
be read. -/
def execSealTripCheck (bad : Bool) (s : State) : Host.Outcome State Fault Refusal :=
  .next (match nextTrip s.trips with
    | none => s
    | some x => (({ s with trips := s.trips.erase x }).judgeTrip x bad).reportReads)

/-- MASTER_RESET (R403). -/
def execMasterReset (m : Nat) (cut : Bool) (s : State) : Host.Outcome State Fault Refusal :=
  .next (s.atDom 47 (·.masterReset m cut))

/-- BMV_GO (R404): BMV_CTL_n is written with GO. -/
def execBmvGo (n w : Nat) (s : State) : Host.Outcome State Fault Refusal :=
  .next (s.atReg (Reg.bmvCtl n) (·.writeBmvCtl n (w ||| 2)))

/-- BMV_ABORT (R406): BMV_CTL_n is written with EN = 0. -/
def execBmvAbort (n w : Nat) (s : State) : Host.Outcome State Fault Refusal :=
  .next (s.atReg (Reg.bmvCtl n) (·.writeBmvCtl n (withBits w 0 1 0)))

/-- SEAL_START (R409): SEAL_GO.START is written. -/
def execSealStart (n : Nat) (s : State) : Host.Outcome State Fault Refusal :=
  .next (s.atReg (Reg.sealCtl n) (·.sealStart n))

/-- SEAL_EVAL_DONE (R409). -/
def execSealEvalDone (n : Nat) (bad : Bool) (s : State) : Host.Outcome State Fault Refusal :=
  .next (s.atReg (Reg.sealCtl n) (fun t => (t.sealDone n bad).reportReads))

/-- EVENT_PULSE (R411). -/
def execEventPulse (s : State) : Host.Outcome State Fault Refusal := .next (s.atDom 47 (·.deliverPulse))

/-- FIRE (R411): EVR_SOFT.FIRE is written. -/
def execFire (s : State) : Host.Outcome State Fault Refusal := .next (s.atReg Reg.evrSoft (·.pulse 23))

/-- SEQ_RUN (R398): MTX_CTL is written with SEQ_RUN = 1. -/
def execSeqRun (w : Nat) (s : State) : Host.Outcome State Fault Refusal :=
  .next (s.atReg Reg.mtxCtl (·.writeMtxCtl (w ||| 1)))

end Sys2Proof.Machine
end

