-- ==== Sys2Proof/Machine/Time.lean ====
section
/-! DEFINITION. Invar's counter, steps and slews, the follower copies, the capture inputs and the pulse outputs
(R61 to R72, R75, R96 to R101, R103). -/

namespace Sys2Proof.Machine

/-! ### The history (R75) -/

/-- The mean of the history, 2^-8 ppb; its rounding is not stated. -/
def State.histMean (s : State) : Int :=
  bif s.inv.hist.isEmpty then 0 else freeQuot (s.inv.hist.foldl (· + ·) 0) s.inv.hist.length s.freeChoice

/-- Store the history; HIST_N and INV_RATE_MEAN follow. -/
def State.setHist (s : State) (l : List Int) : State :=
  let t := (s.onInv (fun x => { x with hist := l })).fput F.invStsHistN l.length
  (t.fput F.invRateMeanMean (encodeSigned t.histMean 32)).useFree

/-- HISTORY_PUSH (R75): the mean of r over the second, or r itself where no time has passed. -/
def State.histPush (s : State) : State :=
  bif s.fget F.invStsServo != 2 then s
  else
    let t := s.sumUp
    let d := t.counter - t.inv.sumFrom
    let m := bif d == 0 then t.curRate else freeQuot t.inv.sum d t.freeChoice
    let t := t.useFree.setHist ((m :: t.inv.hist).take 16)
    t.onInv (fun x => { x with sum := 0, sumFrom := t.counter, sumAt := t.counter })

/-! ### Slews (R67) -/

/-- The remainder becomes `m`; SLEWING and the rate follow. -/
def State.setSlew (s : State) (m : Int) : State :=
  (s.rateBy (fun x => { x with slew := m })).fset F.invStsSlewing (m != 0)

/-- The remainder after one more tick: each tick absorbs SLEW_MAX of it (R67). -/
def State.slewNext (s : State) : Int :=
  let x := s.inv.slew
  bif decide (x < 0) then min 0 (x + s.slewStep) else max 0 (x - s.slewStep)

/-- 2^-16 ns in the unit of the remainder, and the range of an adjustment in it. -/
def slewUnit : Int := 1000000
def adjLimit : Int := 2 ^ 47 * slewUnit

/-! ### Pulse outputs (R99 to R101) -/

/-- The record of a pulse output. -/
def State.train (s : State) (n : Nat) : Train := Table.get {} n s.inv.trains

/-- Store the record of a pulse output. -/
def State.setTrain (s : State) (n : Nat) (x : Train) : State := s.onInv (fun y => { y with trains := Table.put {} x n y.trains })

/-- PERIOD, and WIDTH within its limits (R99). -/
def State.pulsePeriod (s : State) (n : Nat) : Nat := Nat.max 20 (s.rd (Reg.tpulsePeriod n))
def State.pulseWidth (s : State) (n : Nat) : Nat := clampNat 10 (s.pulsePeriod n - 10) (s.rd (Reg.tpulseWidth n))

/-- Drive a pulse output: active or inactive level. -/
def State.drivePulse (s : State) (n : Nat) (active : Bool) : State :=
  s.pin (Pin.tpulse n) (1 + bit (active != s.flag (F.tpulseCtlInv n)))

/-- START, ns. -/
def State.pulseStart (s : State) (n : Nat) : Nat := s.instantAt (Reg.tpulseStartNs n)

/-- The first aligned instant at least 2 us ahead of the counter, its fraction included. -/
def State.pulseFirst (s : State) (n : Nat) : Nat :=
  firstGrid (s.pulseStart n) (s.pulsePeriod n) ((s.counter + nsUnit - 1) / nsUnit + 2000)

/-- The train ends. -/
def State.pulseEnd (s : State) (n : Nat) : State :=
  (((s.fset (F.tpulseCtlEn n) false).fset (F.tpulseStsRunning n) false).drivePulse n false).setTrain n {}

/-- EN is set (R100): a start that lies too near is moved, and counts as late. A pulse that still completes its width
goes on. -/
def State.pulseEnable (s : State) (n : Nat) : State :=
  let f := s.pulseFirst n
  let x := s.train n
  let t := s.fset (F.tpulseStsRunning n) true
  let t := bif x.high then t.setTrain n { x with ending := false, done := 0, first := f }
    else (t.drivePulse n false).setTrain n { edge := f }
  bif f == s.pulseStart n then t
  else
    let t := (t.fset (F.tpulseStsLate n) true).cntF (F.tpulseStsLateCnt n)
    let c := t.fget (F.tpulseStsLateCnt n)
    (t.brzEvent 0x86 96 n c 0).notice 0x86 96 n [c, 0, 0]

/-- EN is cleared (R100): a pulse in progress completes its width. -/
def State.pulseDisable (s : State) (n : Nat) : State :=
  bif (s.train n).high then s.setTrain n { s.train n with ending := true } else s.pulseEnd n

/-- A write of a TPULSE control word; a running train keeps INV, and so does a pulse that completes its width. -/
def State.writePulse (s : State) (n w : Nat) : State :=
  let was := s.flag (F.tpulseCtlEn n)
  let t := s.store (Reg.tpulseCtl n) w
  bif !was && bitAt w 0 then t.pulseEnable n
  else bif was && !bitAt w 0 then t.pulseDisable n
  else bif was || (s.train n).high then t else t.drivePulse n false

/-- PULSE_EDGE (R99, R100): the next edge of the train. -/
def State.pulseEdge (s : State) (n : Nat) : State :=
  bif !s.flag (F.tpulseStsRunning n) then s
  else
    let x := s.train n
    bif x.high && x.first != 0 then (s.drivePulse n false).setTrain n { edge := x.first }
    else bif x.high then
      bif x.ending || (s.rd (Reg.tpulseCount n) != 0 && Nat.ble (s.rd (Reg.tpulseCount n)) x.done) then s.pulseEnd n
      else (s.drivePulse n false).setTrain n { x with high := false, edge := x.edge + s.pulsePeriod n - s.pulseWidth n }
    else (s.drivePulse n true).setTrain n { x with high := true, done := x.done + 1, edge := x.edge + s.pulseWidth n }

/-- A step ends a pulse in progress and aligns the train anew (R101). The pulse that it ends has counted toward COUNT:
DESIGN CHOICE, log entry 97. -/
def State.pulseAlign (s : State) (n : Nat) : State :=
  bif !s.flag (F.tpulseStsRunning n) then s
  else
    let x := s.train n
    bif x.ending || (s.rd (Reg.tpulseCount n) != 0 && Nat.ble (s.rd (Reg.tpulseCount n)) x.done) then s.pulseEnd n
    else (s.drivePulse n false).setTrain n { x with high := false, edge := s.pulseFirst n, first := 0 }

/-! ### Steps (R66 to R69) -/

/-- An instant moved by a step. -/
def moved (d : Int) (n : Nat) : Nat := ((n : Int) + d).toNat

/-- Instants from which the model measures elapsed time move with the counter: shapers, meters, recovery
functions, kept recoveries, MAC timers, fragments, the sums of R75, cycle starts, trip ages, armings of capture inputs, step starts and
the Announces heard. -/
def State.rebase (s : State) (d : Int) : State :=
  let ns := d / (nsUnit : Int)
  let mv := fun (t : Table Nat) (k : Int) => t.map (fun (x : Nat × Nat) => (x.1, moved k x.2))
  { s with
    shapers := s.shapers.map (fun x => (x.1, { x.2 with at' := moved d x.2.at' }))
    meters := s.meters.map (fun x => (x.1, { x.2 with last := moved ns x.2.last }))
    frerLast := mv s.frerLast ns
    kept := s.kept.map (fun x => (x.1, x.2.map (moved ns)))
    ports := s.ports.map (fun x => (x.1, { x.2 with
      timers := mv x.2.timers (100 * d / (nsUnit : Int))
      tx := x.2.tx.map (fun y => { y with startAt := moved d y.startAt })
      held := x.2.held.map (fun y => { y with startAt := moved d y.startAt }) }))
    chans := s.chans.map (fun x => (x.1, { x.2 with
      startAt := moved d x.2.startAt
      txs := x.2.txs.map (fun y => { y with from' := moved d y.from' })
      leadTick := x.2.leadTick.map (moved d)
      own := x.2.own.map (fun y => (moved d y.1, y.2))
      idleTill := moved d x.2.idleTill
      trips := x.2.trips.map (fun y => { y with at' := moved d y.at' }) }))
    anl := s.anl.map (fun x => (x.1, { x.2 with lastStart := x.2.lastStart.map (moved ns) }))
    inv := { s.inv with
      sumFrom := moved d s.inv.sumFrom, sumAt := moved d s.inv.sumAt
      armAt := mv s.inv.armAt (16 * d / (nsUnit : Int))
      ptp := s.inv.ptp.map (fun x => (x.1, { x.2 with
        foreign := x.2.foreign.map (fun y => { y with seen := y.seen.map (moved ns) }) })) } }

/-- ARG0 and ARG1 of the record of a step from `old` to `new`, in units of the counter (Table 16.2). The
difference is taken between the two times in whole nanoseconds: DESIGN CHOICE, log entry 98. -/
def stepArgs (old new : Nat) : Nat × Nat :=
  let d : Int := (new / nsUnit : Nat) - ((old / nsUnit : Nat) : Int)
  (encodeSigned (d.tmod 1000000000) 32, encodeSigned (clampInt (-2147483648) 2147483647 (d.tdiv 1000000000)) 32)

/-- COMMIT entries of the active list that a forward step to now skips (R156). -/
def State.skippedCommits (s : State) : Nat :=
  bif !s.listRuns || s.cycle == 0 then 0
  else ((s.entries (s.fget F.scbStsActBank)).filter (fun e => e.type == 2)).foldl (fun n e =>
    let f := firstGrid (s.scb.start + e.offset) s.cycle s.scb.walk
    bif Nat.ble f s.now then n + (s.now - f) / s.cycle + 1 else n) 0

/-- Add to COMMIT_SKIP. -/
def State.skipCommits (s : State) (k : Nat) : State :=
  let a := Reg.scbCnt 1
  (s.wr a ((s.rd a + k) % 2 ^ 32)).when (rose (s.rd a) ((s.rd a + k) % 2 ^ 32) 32) (·.halfRange .scb)

/-- Insert into a list of numbers in ascending order. -/
def insertNat (n : Nat) : List Nat → List Nat
  | [] => [n]
  | x :: r => bif Nat.blt n x then n :: x :: r else x :: insertNat n r

/-- The places in the arming order of the actions whose armed instants have passed: edges, guard closes, guard
reopenings, and commits while the collector works. -/
def State.passedArmings (s : State) : List Nat :=
  let here := fun (p t : Nat) => Nat.ble t (s.folNow (p / 36))
  ((s.scb.edges.filter (fun e => e.armed && here e.port e.t)).map (·.order)
    ++ (s.scb.guards.filter (fun g => g.phase == 1 && here g.port g.close)).map (·.order)
    ++ (s.scb.guards.filter (fun g => Nat.blt 0 g.phase && g.reorder != 0 && here g.port g.reopen)).map (·.reorder)
    ++ (bif s.fabWorks then (s.fab.running.filter (fun c => !c.executed && Nat.ble c.tc (s.folNow 4))).map (·.order)
        else [])).foldr insertNat []

/-- The action armed at place `n` acts. -/
def State.actArming (s : State) (n : Nat) : State :=
  match s.scb.edges.find? (fun e => e.armed && e.order == n), s.scb.guards.find? (fun g => g.phase == 1 && g.order == n),
    s.scb.guards.find? (fun g => g.phase == 2 && g.reorder == n), s.fab.running.find? (fun c => !c.executed && c.order == n) with
  | some e, _, _, _ => (s.onEdges (fun l => l.filter (· != e))).actEdge e
  | none, some g, _, _ => s.closeGuard g
  | none, none, some g, _ => s.reopenGuard g
  | none, none, none, some c => s.execute c
  | none, none, none, none => s

/-- The comparators that a forward step skipped act, in arming order (R69). -/
def State.skipArmed (s : State) : State := eachOf s.passedArmings (fun n t => t.actArming n) s

/-- The Schedule Book re-bases (R156). -/
def State.scbRebase (s : State) : State :=
  bif !s.scbWorks then s
  else
    let t := s.skipCommits s.skippedCommits
    let t := { t with scb := { t.scb with walk := t.now + 1 } }
    (t.resyncAll).when (t.flag F.scbStsRunning) (·.scbEvent 3)

/-- The collector follows a step: R325 for staged commits. -/
def State.fabRebase (s : State) (was : Nat) : State := bif !s.fabWorks then s else s.fabSkip was

/-- A step of the counter to `new` (R69). A window that it ends is ended before the step's own event (R441). -/
def State.timeStep (s : State) (new : Nat) : State :=
  let was := s.now
  let old := s.counter
  let sec := s.sec
  let t := s.setSlew 0
  let t := ({ t with counter := new }).rebase ((new : Int) - old)
  let a := stepArgs old new
  let t := t.when (t.sec != sec) (·.brzWindow)
  let t := (t.brzEvent 0x81 96 0 a.1 a.2).notice 0x81 96 0 [a.1, a.2, 0]
  let t := t.when (Nat.blt was t.now) (·.skipArmed)
  let t := (t.scbRebase).fabRebase was
  forUpTo 4 (fun n u => u.pulseAlign n) t

/-- The counter value of an NT96 value: seconds, nanoseconds, fraction (R66). Nanoseconds of 10^9 or more carry into the
seconds: DESIGN CHOICE, log entry 92. -/
def nt96 (sec ns frac : Nat) : Nat := (sec * 1000000000 + ns) * nsUnit + frac * 2 ^ 32

/-- A write of INV_SET_0 (R66); its staged upper words are in place. -/
def State.timeSet (s : State) (w : Nat) : State :=
  s.timeStep (nt96 (s.woWord Reg.invSet1 + 2 ^ 32 * (s.woWord Reg.invSet2 % 65536)) (w % 2 ^ 32) (s.woWord Reg.invSet2 / 65536 % 65536))

/-- The signed offset of INV_ADJ, 2^-16 ns (R67). -/
def adjOffset (ns frac : Nat) : Int := signedOf (65536 * (ns % 2 ^ 32) + frac % 65536) 48

/-- A write of INV_ADJ_0 (R67). A step back by more than the present time leaves the counter at 0: DESIGN CHOICE, log entry
132. -/
def State.timeAdjust (s : State) (w : Nat) : State :=
  let f := s.woWord Reg.invAdj1
  let o := adjOffset w f
  bif bitAt f 16 then s.setSlew (clampInt (-adjLimit) (adjLimit - slewUnit) (s.inv.slew + o * slewUnit))
  else s.timeStep ((s.counter : Int) + o * 2 ^ 32).toNat

/-! ### The followers (R64) -/

/-- The follower of unit `u` is powered and not held in reset. -/
def State.folOn (s : State) (u : Nat) : Bool := bif Nat.blt u 4 then s.qReady u 0 else s.ready 47 && !s.unitHeld 10

/-- LOCK of a follower; INV_STS.FOL_LOCK follows. -/
def State.setFolLock (s : State) (u : Nat) (b : Bool) : State :=
  (s.fset (F.invFolLock u) b).fput F.invStsFolLock (withBits (s.fget F.invStsFolLock) u 1 (bit b))

/-- Store a follower's correction, its count against the master's, and its run of small errors. -/
def State.setFol (s : State) (u : Nat) (c skew : Int) (run : Nat) : State :=
  s.onInv (fun x => { x with
    fol := Table.put 0 c u x.fol, folPh := Table.put 0 (c - skew) u x.folPh, folRun := Table.put 0 run u x.folRun, folNew := withBits x.folNew u 1 0 })

/-- A broadcast reaches follower `u`, whose uncorrected phase lies `skew` 1/16 ns behind. -/
def State.follow (s : State) (u : Nat) (skew : Int) : State :=
  bif !s.folOn u then s
  else
    let c := Table.get 0 u s.inv.fol
    let e := skew + signedOf (s.fget (F.invFolSkewTrim u)) 8 - c
    let t := s.fput (F.invFolErr u) (encodeSigned (clampInt (-128) 127 e) 8)
    bif bitAt s.inv.folNew u then t.setFol u (c + e) skew 0
    else bif decide (64 < e.natAbs) then
      ((t.setFolLock u false).setFol u (c + e) skew 0).report [(bif u == 4 then 33 else 8 * u + 1, 1)]
    else
      let c := c + (bif decide (0 < e) then 1 else bif decide (e < 0) then -1 else 0)
      let run := bif decide (e.natAbs ≤ 8) then Nat.min 16 (Table.get 0 u s.inv.folRun + 1) else 0
      (t.setFol u c skew run).when (run == 16) (·.setFolLock u true)

/-- FOLLOWER_BROADCAST (R64): the phases of followers 0..4. -/
def State.followAll (s : State) (skews : List Int) : State :=
  bif !s.inv.started then s
  else forUpTo 5 (fun u t => t.follow u (skews.getD u 0)) (s.emit (.broadcast s.counter))

/-! ### Capture inputs (R96 to R98) -/

/-- ARM of a written TCAP_CFG word. -/
def State.writeTcap (s : State) (n w : Nat) : State :=
  let t := s.store (Reg.tcapCfg n) w
  bif !bitAt w 0 then t
  else
    ((((t.wr (Reg.tcapSts n) 0).wr (Reg.tcapNs n) 0).wr (Reg.tcapSec n) 0).wr (Reg.tcapSecx n) 0).onInv
      (fun x => { x with armed := withBits x.armed n 1 1, armAt := Table.put 0 (16 * s.counter / nsUnit) n x.armAt })

/-- The edge matches POL. -/
def State.polMatch (s : State) (n : Nat) (rising : Bool) : Bool :=
  match s.fget (F.tcapCfgPol n) with
  | 0 => rising
  | 1 => !rising
  | _ => true

/-- TCAP_EDGE (R96): an edge that survives the filter, with its stamp in 1/16 ns. An arming captures an edge stamped at
or after the tick on which it took effect (R98). -/
def State.tcapEdge (s : State) (n : Nat) (rising : Bool) (t16 : Nat) : State :=
  bif Nat.blt 3 n || !s.polMatch n rising then s
  else
    let ns := t16 / 16
    let t := (s.cnt (Reg.tcapEdges n)).pulse (17 + n)
    let t := t.when (t.flag (F.tcapCfgBronze n)) (·.brzEvent (0x88 + n) 96 (bit rising) (fsNs ns) (fsSec ns))
    let t := t.when (t.flag (F.tcapCfgNotice n)) (·.notice (0x88 + n) 96 (bit rising) [fsNs ns, fsSec ns, 0])
    bif !bitAt t.inv.armed n || Nat.blt t16 (Table.get 0 n t.inv.armAt) then t
    else
      let t := (t.wr (Reg.tcapSts n) (1 + 2 * bit rising)).putInstant (Reg.tcapNs n) ns (4096 * (t16 % 16))
      t.onInv (fun x => { x with armed := withBits x.armed n 1 0 })

/-! ### The tick -/

/-- A tick absorbs its share of a slew in progress; with the last of it the extra rate is gone (R67). In FREERUN with
STEER = 1 the slew is absorbed too, while neither the increment nor the code changes: DESIGN CHOICE, log entry 133. -/
def State.absorb (s : State) (m : Int) : State := (s.when (m == 0) (·.sumUp)).onInv (fun x => { x with slew := m })

/-- One tick of the time clock (R61): from its start on the counter runs whenever PD00 is powered (R63). A new second
is what AGE of Anneal's groups counts. -/
def State.tick (s : State) : State :=
  bif !s.inv.started || !s.ready 0 then s
  else
    let t := { s with counter := s.counter + s.tickUnits }
    let t := t.when (s.inv.slew != 0) (·.absorb s.slewNext)
    t.when (t.sec != s.sec && t.ready 50) (·.anlSecond)

/-! ### Commands -/

/-- TIME_PLL_UNLOCK (R103): after first lock. -/
def execTimePllUnlock (s : State) : Host.Outcome State Fault Refusal :=
  .next (s.atDom 0 fun s => (bif s.inv.started && s.flag F.invStsPllLock then
    ((s.fset F.invStsPllLock false).fset F.qchStsAlive false).report [(56, 1)] else s))

/-- OSC_IN_LOSS (R103). -/
def execOscInLoss (s : State) : Host.Outcome State Fault Refusal :=
  .next (s.atDom 0 fun s => ((s.fset F.invStsOscOk false).report [(55, 1)]))

/-- FOLLOWER_BROADCAST (R64). -/
def execFollowerBroadcast (skews : List Int) (s : State) : Host.Outcome State Fault Refusal :=
  .next (s.atDom 0 (·.followAll skews))

/-- TIME_SET (R66): a write `w` of INV_SET_0 by a requester. -/
def execTimeSet (req : Requester) (w : Nat) (s : State) : Host.Outcome State Fault Refusal :=
  .next (s.atDom 0 fun s => ((s.applyStaged req Reg.invSet0).timeSet w))

/-- TIME_ADJUST_STEP (R67): a write `w` of INV_ADJ_0 by a requester, with SLEW = 0. -/
def execTimeAdjustStep (req : Requester) (w : Nat) (s : State) : Host.Outcome State Fault Refusal :=
  .next (s.atDom 0 fun s => ((s.applyStaged req Reg.invAdj0).timeAdjust w))

/-- TIME_ADJUST_SLEW (R67): a write `w` of INV_ADJ_0 by a requester, with SLEW = 1. -/
def execTimeAdjustSlew (req : Requester) (w : Nat) (s : State) : Host.Outcome State Fault Refusal :=
  .next (s.atDom 0 fun s => (((s.applyStaged req Reg.invAdj0)).timeAdjust w))

/-- SLEW_ABSORBED (R67): once the ticks have absorbed the remainder, SLEWING clears and INV_RATE shows the rate without
the slew. -/
def execSlewAbsorbed (s : State) : Host.Outcome State Fault Refusal :=
  .next (s.atDom 0 fun t => t.when (t.inv.slew == 0) (·.setSlew 0))

/-- HISTORY_PUSH (R75). -/
def execHistoryPush (s : State) : Host.Outcome State Fault Refusal :=
  .next (s.atDom 0 fun t => t.histPush.hiddenPass 57 0 0)

/-- TCAP_EDGE (R96). -/
def execTcapEdge (n : Nat) (rising : Bool) (t16 : Nat) (s : State) : Host.Outcome State Fault Refusal :=
  .next (s.atDom 0 (·.tcapEdge n rising t16))

/-- TCAP_ARM (R97): a write `w` of TCAP_CFG_n with ARM = 1. -/
def execTcapArm (n w : Nat) (s : State) : Host.Outcome State Fault Refusal :=
  .next (s.atDom 0 (·.writeTcap n (w ||| 1)))

/-- PULSE_ENABLE (R100): a write `w` of the control word of TPULSE[n] with EN = 1. -/
def execPulseEnable (n w : Nat) (s : State) : Host.Outcome State Fault Refusal :=
  .next (s.atDom 0 (·.writePulse n (w ||| 1)))

/-- PULSE_DISABLE (R100): a write `w` with EN = 0. -/
def execPulseDisable (n w : Nat) (s : State) : Host.Outcome State Fault Refusal :=
  .next (s.atDom 0 (·.writePulse n (w &&& 0xFFFFFFFE)))

/-- PULSE_EDGE (R99). -/
def execPulseEdge (n : Nat) (s : State) : Host.Outcome State Fault Refusal := .next (s.atDom 0 (·.pulseEdge n))

end Sys2Proof.Machine
end

