-- ==== Sys2Proof/Machine/Servo.lean ====
section
/-! DEFINITION. The servo, its references, and the IRIG-B input (R68, R70 to R76, R92 to R95). -/

namespace Sys2Proof.Machine

/-! ### The law (R68, R74) -/

/-- The servo may step (R68). -/
def State.stepAllowed (s : State) : Bool :=
  match s.fget F.invCtlStepPolicy with
  | 0 => false
  | 1 => !s.flag F.invStsEverLocked
  | _ => true

/-- A value divided by an interval of 2^k s; the rounding of an inexact quotient is not stated. -/
def overTau (v : Int) (k : Int) (up : Bool) : Int :=
  bif decide (k < 0) then v * (2 : Int) ^ k.natAbs else freeQuot v (2 ^ k.natAbs) up

/-- 1 ppb of the integrator and of the proportional term. -/
def ppbUnit : Int := 2 ^ 24

/-- The servo law on an offset in 2^-16 ns, taken at intervals of 2^k s (R74). -/
def State.servoLaw (s : State) (theta k : Int) : State :=
  bif s.servo == servoAcquire && decide (65536 * s.rd Reg.invStepThresh < theta.natAbs) && s.stepAllowed then
    s.timeStep ((s.counter : Int) - theta * 2 ^ 32).toNat
  else
    let up := s.freeChoice
    let d := freeQuot (overTau ((s.fget F.invServoCfgKi : Int) * theta) k up) 256 up
    let lim : Int := 1000 * (s.fget F.invServoLimSlewMax : Int) * ppbUnit
    let i := clampInt (-(1000000 * ppbUnit)) (1000000 * ppbUnit) (s.inv.integ - d)
    let p := clampInt (-lim) lim (-(overTau ((s.fget F.invServoCfgKp : Int) * theta) k up))
    s.useFree.rateBy (fun x => { x with integ := i, rate := freeQuot (i + p) 65536 up })

/-- Runs of small and of large offsets, and the states they lead to (Table 3.2). -/
def State.servoRuns (s : State) (theta : Int) : State :=
  let th := 65536 * s.fget F.invServoLimLockThresh
  let a := bif Nat.ble theta.natAbs th then s.inv.inRun + 1 else 0
  let b := bif Nat.blt (4 * th) theta.natAbs then s.inv.outRun + 1 else 0
  let t := s.onInv (fun x => { x with inRun := a, outRun := b })
  bif s.servo == servoAcquire && Nat.ble 16 a then t.setServo servoLocked
  else bif s.servo == servoLocked && Nat.ble 4 b then t.setServo servoAcquire
  else t

/-- The offset in 1/16 ns, as a register shows it; its rounding is not stated. -/
def State.showOffset (s : State) (a : Nat) (theta : Int) : State :=
  (s.wr a (encodeSigned (clampInt (-2147483648) 2147483647 (freeQuot theta 4096 s.freeChoice)) 32)).useFree

/-- The servo has left HOLDOVER or FREERUN for ACQUIRE: an UNCALIBRATED port becomes SLAVE (R80), and INV_PARENT shows
it. -/
def State.slaveNow (s : State) : State :=
  eachOf (allPorts.filter (fun p => s.ptpState p == ptpUncalibrated)) (fun p t =>
    (t.setPtpState p ptpSlave).when (s.inv.parent.any (·.1 == p)) (·.fput F.invParent2SlavePort p)) s

/-- ACQUIRE is entered (R74): the integrator starts at the rate in force. -/
def State.startAcquire (s : State) : State :=
  let r := bif s.servo == servoHold then s.inv.rate else bif s.flag F.invCtlSteer then 0 else s.rateSet
  ((s.setServo servoAcquire).onInv (fun x => { x with integ := r * 65536 })).slaveNow

/-- A measurement (R73, R74, R76). -/
def State.measureOffset (s : State) (theta k : Int) : State :=
  let s := s.showOffset Reg.invOffset theta
  bif !s.flag F.invCtlEn || s.fget F.invCtlSrc == 0 then s
  else bif Nat.blt 0 s.inv.skip then s.onInv (fun x => { x with skip := x.skip - 1 })
  else
    let t := bif s.servo == servoFree || s.servo == servoHold then s.startAcquire else s
    (t.servoLaw theta k).servoRuns theta

/-- A write of INV_CTL (Table 3.11): EN starts and stops the servo, HIST_CLR empties the history. -/
def State.writeInvCtl (s : State) (w : Nat) : State :=
  let was := s.flag F.invCtlEn
  let t := s.store Reg.invCtl w
  let t := t.when (bitAt w 7) (·.setHist [])
  let t := t.when (!was && t.flag F.invCtlEn) (fun u =>
    (u.fput F.invVtrimBaseBase (u.fget F.invVtrimCode)).onInv (fun x => { x with skip := 0 }))
  let t := t.when (was && !t.flag F.invCtlEn) (·.setServo servoFree)
  t.freeRate

/-- A write of INV_RATE_SET. -/
def State.writeRateSet (s : State) (w : Nat) : State := (s.store Reg.invRateSet w).freeRate

/-- A write of INV_SERVO_LIM: a slew in progress goes on at the new SLEW_MAX (R67). -/
def State.writeServoLim (s : State) (w : Nat) : State :=
  bif s.inv.slew == 0 then s.store Reg.invServoLim w else ((s.sumUp).store Reg.invServoLim w).showRate

/-- A write of INV_VTRIM (Table 3.16): ignored while the servo drives the code. -/
def State.writeVtrim (s : State) (w : Nat) : State :=
  bif s.flag F.invCtlSteer && s.servo != servoFree then s else s.driveVtrim (w % 2 ^ 18)

/-! ### IRIG-B (R92 to R95) -/

/-- Days from 1970-01-01 to the first of January of a year. -/
def daysToYear (y : Nat) : Nat := 365 * (y - 1970) + ((y - 1969) / 4 - (y - 1901) / 100 + (y - 1601) / 400)

/-- The year of a time in seconds: the last whose first of January does not lie after it. -/
def yearFrom (days : Nat) : Nat → Nat → Nat
  | 0, y => y
  | n + 1, y => bif Nat.ble (daysToYear (y + 1)) days then yearFrom days n (y + 1) else y

/-- The year of a counter value. -/
def yearOf (sec : Nat) : Nat :=
  let days := sec / 86400
  yearFrom (days % 146097) 400 1970 + 400 * (days / 146097)

/-- The code expression B000 to B007 of a frame, from the fields present (R92): Table 3.8 names the codes with a BCD year
and those with straight binary seconds; which of the others carry a control field is PRESUMED (IRIG Standard 200). -/
def irigCode (f : IrigFrame) : Nat :=
  (bif f.year.isSome then 4 else 0)
  + (match f.control, f.sbs.isSome with
    | true, true => 0
    | true, false => 1
    | false, false => 2
    | false, true => 3)

/-- Two BCD digits, units first. -/
def bcd2 (l : List Nat) (i : Nat) : Nat := l.getD i 0 + 10 * l.getD (i + 1) 0

/-- Second of day and day of year of a frame. -/
def irigSod (f : IrigFrame) : Nat := bcd2 f.digits 0 + 60 * bcd2 f.digits 2 + 3600 * bcd2 f.digits 4
def irigDoy (f : IrigFrame) : Nat := bcd2 f.digits 6 + 100 * f.digits.getD 8 0

/-- The year of a frame (R93): BCD, else the IEEE 1344 year, else that of the counter. -/
def State.irigYear (s : State) (f : IrigFrame) : Nat :=
  match f.year, s.flag F.irigCtlIeee1344, f.ctlYear with
  | some y, _, _ => 2000 + bcd2 y 0
  | none, true, some y => 2000 + y % 100
  | none, _, _ => yearOf s.sec

/-- The decoded time in seconds. -/
def State.irigTime (s : State) (f : IrigFrame) : Nat :=
  86400 * (daysToYear (s.irigYear f) + (irigDoy f - 1)) + irigSod f

/-- The PTP time of the on-time point (R93), s. -/
def State.irigPtp (s : State) (f : IrigFrame) : Int :=
  let o : Int := 3600 * (f.offsetHours : Int) + 1800 * bit f.offsetHalf
  let l := s.flag F.irigCtlIeee1344 && s.flag F.irigCtlLocal
  (s.irigTime f : Int) + (bif l then (bif f.offsetMinus then -o else o) else 0) + s.fget F.invPtpDs3UtcOffset

/-- The checks of R93. -/
def State.irigValid (s : State) (f : IrigFrame) : Bool :=
  f.markers && f.digits.all (fun d => Nat.ble d 9) && f.year.all (fun y => y.all (fun d => Nat.ble d 9))
  && f.sbs.all (· == irigSod f)
  && (match s.inv.irigLast with
    | some t => s.irigTime f == t + 1
    | none => true)
  && (!s.flag F.irigCtlIeee1344 || f.parity)

/-- A frame is missing or invalid: two in a row clear IRIG_LOCK (R94), which loses an IRIG reference (R73). -/
def State.irigMiss (s : State) : State :=
  let n := s.inv.irigBad + 1
  let t := s.onInv (fun x => { x with irigBad := n, irigGood := 0, irigLast := none })
  bif Nat.ble 2 n && t.flag F.invStsIrigLock then
    let t := (t.fset F.invStsIrigLock false).fset F.irigStsLock false
    let t := (t.brzEvent 0x85 96 0 0 0).notice 0x85 96 0 [0, 0, 0]
    t.when (t.fget F.invCtlSrc == 2) (·.loseReference)
  else t

/-- What the IRIG registers show of a valid frame. -/
def State.irigShow (s : State) (f : IrigFrame) : State :=
  let t := ((s.fput F.irigStsCode (irigCode f)).fput F.irigDateYear (s.irigYear f)).fput F.irigDateDoy (irigDoy f)
  let t := t.fput F.irigSodSod (irigSod f)
  t.when (t.flag F.irigCtlIeee1344) (fun u =>
    ((u.fset F.irigStsLeapPend f.leapPending).fset F.irigStsDst f.dst).fput F.irigStsTq f.quality)

/-- IRIG_FRAME_DECODED (R93 to R95). -/
def State.irigFrame (s : State) (f : IrigFrame) : State :=
  bif !s.flag F.irigCtlEn then s
  else bif !s.irigValid f then
    ((s.fset F.irigStsFrameErr true).cntF F.irigStsErrCnt).irigMiss
  else
    let n := s.inv.irigGood + 1
    let theta : Int := 4096 * ((f.stamp : Int) - 16 * s.fget F.irigCtlCableDelay) - s.irigPtp f * 1000000000 * 65536
    let t := (s.onInv (fun x => { x with irigGood := n, irigBad := 0, irigLast := some (s.irigTime f) })).irigShow f
    let t := t.when (Nat.ble 3 n && !t.flag F.invStsIrigLock) (fun u =>
      (((u.fset F.invStsIrigLock true).fset F.irigStsLock true).brzEvent 0x84 96 0 0 0).notice 0x84 96 0 [0, 0, 0])
    let t := t.showOffset Reg.irigOffset theta
    t.when (t.fget F.invCtlSrc == 2) (·.measureOffset theta 0)

/-! ### Commands -/

/-- HIST_CLR (R75): a write `w` of INV_CTL with HIST_CLR = 1. -/
def execHistClr (w : Nat) (s : State) : Host.Outcome State Fault Refusal :=
  .next (s.atDom 0 (·.writeInvCtl (w ||| 128)))

/-- SERVO_ENABLE (R70): a write `w` of INV_CTL that carries EN. -/
def execServoEnable (w : Nat) (s : State) : Host.Outcome State Fault Refusal :=
  .next (s.atDom 0 (·.writeInvCtl w))

/-- REFERENCE_LOST (R73). -/
def execReferenceLost (s : State) : Host.Outcome State Fault Refusal := .next (s.atDom 0 (·.loseReference))

/-- IRIG_FRAME_DECODED (R94). -/
def execIrigFrameDecoded (f : IrigFrame) (s : State) : Host.Outcome State Fault Refusal :=
  .next (s.atDom 0 (·.irigFrame f))

/-- IRIG_FRAME_MISSING (R94). While IRIG_CTL.EN = 0 it has no effect, and IRIG_LOCK keeps its value: DESIGN CHOICE, log
entry 96. -/
def execIrigFrameMissing (s : State) : Host.Outcome State Fault Refusal :=
  .next (s.atDom 0 fun s => (s.when (s.flag F.irigCtlEn) (·.irigMiss)))

end Sys2Proof.Machine
end

