-- ==== Sys2Proof/Machine/Ptp.lean ====
section
/-! DEFINITION. PTP (R77 to R89): enabling ports, delays, and the messages that Invar receives and sends. Messages start at their PTP header; stamps are in 1/16 ns. -/

namespace Sys2Proof.Machine

/-! ### Enabling ports (R79) -/

/-- The sole ports of an ordinary clock (R79): another port that is not DISABLED keeps this one out, unless the
two are a PRP twin pair. -/
def State.ptpAlone (s : State) (p : Nat) : Bool :=
  s.flag F.invPtpCtlBc || allPorts.all (fun x => x == p || s.ptpState x == ptpDisabled
    || (x == twinOf p && s.pairMode (pairOf p) == 1))

/-- A DISABLED port that is enabled starts (R79, R80). INITIALIZING is passed in no time, and no read shows it: DESIGN
CHOICE, log entry 136. -/
def State.ptpStart (s : State) (p : Nat) : State :=
  bif s.flag F.invPtpCtlPtpEn && s.flag (F.invPctlEn p) && s.ptpState p == ptpDisabled && s.ptpAlone p then
    s.setPtpState p (bif s.portUp p then ptpListening else ptpFaulty)
  else s

/-- A port is disabled. -/
def State.ptpStop (s : State) (p : Nat) : State :=
  bif s.ptpState p == ptpDisabled then s else (s.setPtpState p ptpDisabled).ptpForget p

/-- A write of INV_PCTL_p. With BC = 0, a port that was kept DISABLED does not start when the active one is disabled:
DESIGN CHOICE, log entry 135. -/
def State.writePctl (s : State) (p w : Nat) : State :=
  let t := s.store (Reg.invPctl p) w
  bif t.flag (F.invPctlEn p) then t.ptpStart p
  else bif t.ptpState p == ptpDisabled then t else (t.ptpStop p).evaluate

/-- A write of INV_PTP_CTL (R79): PTP_EN does not set while clockIdentity is 0. -/
def State.writePtpCtl (s : State) (w : Nat) : State :=
  let was := s.flag F.invPtpCtlPtpEn
  let t := s.store Reg.invPtpCtl w
  let t := t.when (t.clockId == 0) (·.fset F.invPtpCtlPtpEn false)
  bif t.flag F.invPtpCtlPtpEn then (bif was then t else eachOf allPorts (fun p u => u.ptpStart p) t)
  else bif was then (eachOf allPorts (fun p u => u.ptpStop p) t).newParent none
  else t

/-! ### Reception (R82, R87) -/

/-- A message that reaches Invar from port `p` while `on` holds: a message that fails the checks of R87 is discarded and
counted. -/
def State.ptpHear (s : State) (on : Bool) (p : Nat) (l : List Byte) (f : State → State) : State :=
  s.fromQuad (p / 36) fun s =>
    bif !s.flag F.invPtpCtlPtpEn || !on then s else bif !s.ptpGood 0 l then s.ptpCount p 7 else f s

/-- A message is taken by a port that takes part. -/
def State.ptpTake (s : State) (p : Nat) (l : List Byte) (f : State → State) : State := s.ptpHear (s.ptpRuns p) p l f

/-- A peer delay message is taken by every enabled port, whatever its state (R82). -/
def State.ptpPeer (s : State) (p : Nat) (l : List Byte) (f : State → State) : State :=
  s.ptpHear (s.flag (F.invPctlEn p)) p l f

/-- The receive stamp of a PCS stamp (R89). -/
def State.rxStamp (s : State) (p pcs : Nat) : Int := (pcs : Int) - s.fget (F.invPlatRxLat p)

/-- A PTP80 time at offset `o`, in 2^-16 ns. -/
def ptpTime (o : Nat) (l : List Byte) : Int := 65536 * ((beAt l o 6 * 1000000000 + beAt l (o + 6) 4 : Nat) : Int)

/-- The port's delay and asymmetry, 2^-16 ns. -/
def State.ptpOffsets (s : State) (p : Nat) : Int :=
  4096 * ((s.fget (F.invPdlyDelay p) : Int) + signedOf (s.fget (F.invPasymAsym p)) 32)

/-- A completed Sync (R82): t2 - t1 less the corrections, 2^-16 ns. The servo's interval is the port's own LOG_SYNC, not
the master's logMessageInterval: DESIGN CHOICE, log entry 134. -/
def State.syncDone (s : State) (p : Nat) (forward : Int) : State :=
  let t := s.setPtp p { s.ptpOf p with waiting := none, forward := some forward }
  t.when (t.fget F.invCtlSrc == 1) (fun u =>
    (u.measureOffset (forward - u.ptpOffsets p) (signedOf (u.fget F.invPtpIntvLogSync) 8)).showParent)

/-- The port hears its parent. -/
def State.hearsParent (s : State) (p : Nat) (l : List Byte) : Bool :=
  (s.ptpState p == ptpSlave || s.ptpState p == ptpUncalibrated) && s.inv.parent == some (p, ptpSrc 0 l)

/-- PTP_SYNC_RECEIVED (R74, R82). -/
def State.syncReceivedPtp (s : State) (p : Nat) (l : List Byte) (pcs : Nat) : State :=
  s.ptpTake p l fun s =>
    let t := s.ptpCount p 1
    bif !t.hearsParent p l then t
    else
      let rx := 4096 * t.rxStamp p pcs
      bif isTwoStep 0 l then t.setPtp p { t.ptpOf p with waiting := some (ptpSeq 0 l, rx.toNat, ptpCorr 0 l) }
      else t.syncDone p (rx - ptpTime 34 l - ptpCorr 0 l)

/-- FOLLOW_UP_RECEIVED (R73). -/
def State.followUp (s : State) (p : Nat) (l : List Byte) : State :=
  s.ptpTake p l fun s =>
    match (s.ptpOf p).waiting with
    | some x => bif x.1 == ptpSeq 0 l && s.hearsParent p l then
        s.syncDone p ((x.2.1 : Int) - ptpTime 34 l - x.2.2 - ptpCorr 0 l) else s
    | none => s

/-- TLVs of an Announce up to 64 bytes, cut at a TLV boundary (R88). -/
def cutTlvs (n : Nat) (room : Nat) (l : List Byte) : List Byte :=
  match n with
  | 0 => []
  | k + 1 =>
    let len := 4 + be16 l 2
    bif Nat.blt l.length 4 || Nat.blt room len || Nat.blt l.length len then []
    else l.take len ++ cutTlvs k (room - len) (l.drop len)

/-- The foreign master record after an Announce. -/
def heardOf (old : List Foreign) (now : Nat) (l : List Byte) : Foreign :=
  let src := ptpSrc 0 l
  let seen := match old.find? (fun f => f.src == src) with
    | some f => f.seen
    | none => []
  { src := src, seen := (now :: seen).take 4, priority1 := byteAt l 47, clockClass := byteAt l 48, accuracy := byteAt l 49
    variance := be16 l 50, priority2 := byteAt l 52, gm := beAt l 53 8, steps := be16 l 61, flags := be16 l 6
    utc := be16 l 44, timeSource := byteAt l 63, tlvs := cutTlvs 16 64 (l.drop 64) }

/-- ANNOUNCE_RECEIVED (R80). -/
def State.announceReceived (s : State) (p : Nat) (l : List Byte) : State :=
  s.ptpTake p l fun s =>
    let t := s.ptpCount p 3
    bif t.flag (F.invPctlMasterOnly p) then t
    else
      let x := t.ptpOf p
      let f := heardOf x.foreign t.now l
      (t.setPtp p { x with timedOut := false, foreign := x.foreign.filter (fun g => g.src != f.src) ++ [f] }).evaluate

/-- ANNOUNCE_RECEIPT_TIMEOUT (R80). -/
def State.announceTimeout (s : State) (p : Nat) : State :=
  bif !s.ptpRuns p then s
  else (s.setPtp p { s.ptpOf p with timedOut := true, foreign := [] }).evaluate

/-! ### Delays (R82) -/

/-- A new delay value in 2^-16 ns: a negative one is discarded, the first is taken as it is, a later one moves
the held value by an eighth of the difference. The rounding to 1/16 ns is not stated. -/
def State.newDelay (s : State) (p : Nat) (d : Int) : State :=
  bif decide (d < 0) then s.ptpCount p 7
  else
    let held : Int := (s.fget (F.invPdlyDelay p) : Int)
    let v := bif s.flag (F.invPdlyValid p) then held + freeQuot (d - 4096 * held) 32768 s.freeChoice else freeQuot d 4096 s.freeChoice
    ((s.useFree).fput (F.invPdlyDelay p) (encodeSigned v 28)).fset (F.invPdlyValid p) true

/-- DELAY_RESP_RECEIVED (R82): the answer to the port's last Delay_Req, which gives a delay once a Sync has been completed;
a second one discards both. -/
def State.delayResp (s : State) (p : Nat) (l : List Byte) : State :=
  s.ptpTake p l fun s =>
    let x := s.ptpOf p
    bif !s.endToEnd || beAt l 44 10 != s.portId p || ptpSeq 0 l != (x.reqSeq + 65535) % 65536 then s
    else bif !x.asked then
      match x.before with
      | some w => ((s.setPtp p { x with before := none }).wr (Reg.invPdly p) w).ptpCount p 7
      | none => s
    else
      let t := s.setPtp p { x with asked := false, left := none, before := some (s.rd (Reg.invPdly p)) }
      match x.left, x.forward with
      | some t3, some f => t.newDelay p (freeQuot (f + ptpTime 34 l - 4096 * (t3 : Int) - ptpCorr 0 l) 2 s.freeChoice)
      | _, _ => t

/-- PDELAY_EXCHANGE_COMPLETE (R82): the response with its PCS stamp, the follow-up of a two-step responder, and
whether more than one response came. -/
def State.pdelayDone (s : State) (p : Nat) (l : List Byte) (pcs : Nat) (fup : List Byte) (more : Bool) : State :=
  s.ptpPeer p l fun s =>
    let x := s.ptpOf p
    match x.left with
    | some t1 =>
      bif !x.asked || s.endToEnd || beAt l 44 10 != s.portId p || ptpSeq 0 l != (x.reqSeq + 65535) % 65536 then s
      else
        let t := s.setPtp p { x with asked := false, left := none }
        bif more then t.ptpCount p 7
        else
          let two := isTwoStep 0 l
          let turn := bif two then ptpTime 34 fup - ptpTime 34 l else 0
          let corr := ptpCorr 0 l + (bif two then ptpCorr 0 fup else 0)
          t.newDelay p (freeQuot (4096 * (s.rxStamp p pcs - t1) - turn - corr) 2 s.freeChoice)
    | none => s

/-- DELAY_RESPONSE_TIMEOUT (R82). -/
def State.delayLost (s : State) (p : Nat) : State :=
  bif (s.ptpOf p).asked then (s.setPtp p { s.ptpOf p with asked := false, left := none }).ptpCount p 5 else s

/-- DELAY_REQ_RECEIVED (R82): a master answers with its receive stamp; the part below 1 ns travels in
correctionField. -/
def State.delayReq (s : State) (p : Nat) (l : List Byte) (pcs : Nat) : State :=
  s.ptpTake p l fun s =>
    bif s.ptpState p != ptpMaster || !s.endToEnd then s
    else
      let t := (s.rxStamp p pcs).toNat
      s.sendPtp p false false false
        (s.ptpMessage p 9 0 (ptpCorr 0 l - 4096 * (t % 16 : Nat)) (ptpSeq 0 l) 3 (s.fget F.invPtpIntvLogDelayreq)
          (ptp80 t ++ mkBytes (beBytes 10 (ptpSrc 0 l))))

/-- PDELAY_REQ_RECEIVED (R83). In two-step mode the request's correctionField and the part of t2 below 1 ns go into
Pdelay_Resp, not into the Follow_Up: DESIGN CHOICE, log entry 137. -/
def State.pdelayReq (s : State) (p : Nat) (l : List Byte) (pcs : Nat) : State :=
  s.ptpPeer p l fun s =>
    bif s.endToEnd then s
    else
      let t := (s.rxStamp p pcs).toNat
      let asker := mkBytes (beBytes 10 (ptpSrc 0 l))
      bif s.flag F.invPtpCtlTwoStep then
        s.sendPtp p true false false
          (s.ptpMessage p 3 (twoStepFlag true) (ptpCorr 0 l - 4096 * (t % 16 : Nat)) (ptpSeq 0 l) 5 0x7F (ptp80 t ++ asker))
      else
        s.sendPtp p true false true
          (s.ptpMessage p 3 0 (ptpCorr 0 l - 4096 * (t : Int)) (ptpSeq 0 l) 5 0x7F (List.replicate 10 0 ++ asker))

/-! ### Transmission (R82, R83, R88) -/

/-- SYNC_TRANSMIT (R83). -/
def State.syncSend (s : State) (p : Nat) : State :=
  bif s.ptpState p != ptpMaster then s
  else
    let two := s.flag F.invPtpCtlTwoStep
    let x := s.ptpOf p
    let t := (s.setPtp p { x with syncSeq := (x.syncSeq + 1) % 65536 }).ptpCount p 0
    t.sendPtp p false true (!two)
      (t.ptpMessage p 0 (twoStepFlag two) 0 x.syncSeq 0 (t.fget F.invPtpIntvLogSync) (List.replicate 10 0))

/-- The template TLVs in the order written, up to a TLV of type 0 (R88). -/
def templateTlvs : Nat → List Byte → List Byte
  | 0, _ => []
  | n + 1, l =>
    let len := 4 + be16 l 2
    bif Nat.blt l.length 4 || be16 l 0 == 0 || Nat.blt l.length len then [] else l.take len ++ templateTlvs n (l.drop len)

/-- An IEEE_C37_238 TLV, and an ALTERNATE_TIME_OFFSET_INDICATOR TLV. -/
def isC37 (l : List Byte) : Bool := be16 l 0 == 3 && beAt l 4 3 == 0x1C129D
def isAtoi (l : List Byte) : Bool := be16 l 0 == 9

/-- The parent's TLVs that a boundary clock passes on, INACC added (R88). -/
def passTlvs (inacc : Nat) : Nat → List Byte → List Byte
  | 0, _ => []
  | n + 1, l =>
    let len := 4 + be16 l 2
    bif Nat.blt l.length 4 || Nat.blt l.length len then []
    else
      let x := l.take len
      (bif isC37 x then replaceAt 16 (mkBytes (beBytes 4 (Nat.min 0xFFFFFFFF (beAt x 16 4 + inacc)))) x
       else bif isAtoi x then x else []) ++ passTlvs inacc n (l.drop len)

/-- The bytes of the TLV areas. -/
def State.tlvBytes (s : State) (i : Nat) : List Byte := mkBytes (bytesOfWords (s.words (Reg.invTlv i) 16))

/-- The foreign master that is the parent. -/
def State.parentSet (s : State) : Option Foreign :=
  match s.inv.parent with
  | some x => (s.ptpOf x.1).foreign.find? (fun f => f.src == x.2)
  | none => none

/-- The flags of an own Announce (Table 3.25): the traceable flags are not stated. -/
def State.annFlags (s : State) : Nat :=
  bit (s.flag F.invPtpDs3Leap61) + 2 * bit (s.flag F.invPtpDs3Leap59) + 4 * bit (s.flag F.invPtpDs3UtcValid)
  + 8 * bit (!s.flag F.invCtlTsArb) + 16 * s.freeVal 2

/-- The body of an Announce: the own data set as grandmaster, the parent's otherwise (R88). -/
def State.annBody (s : State) : List Byte :=
  let e := match s.parentSet with
    | some f => { f with steps := f.steps + 1 }
    | none => { s.ownSet with utc := s.fget F.invPtpDs3UtcOffset, timeSource := s.fget F.invPtpDs3TimeSource }
  let tlvs := bif s.fget F.invPtpCtlProfile != 2 then []
    else match s.parentSet with
      | some f => passTlvs (s.rd Reg.invC37Inacc) 16 f.tlvs
      | none => templateTlvs 16 (s.tlvBytes 0)
  List.replicate 10 0 ++ net16 e.utc ++ mkBytes ([0, e.priority1, e.clockClass, e.accuracy] ++ beBytes 2 e.variance
    ++ [e.priority2] ++ beBytes 8 e.gm ++ beBytes 2 e.steps ++ [e.timeSource]) ++ tlvs

/-- ANNOUNCE_TRANSMIT (R88). -/
def State.annSend (s : State) (p : Nat) : State :=
  bif s.ptpState p != ptpMaster then s
  else
    let x := s.ptpOf p
    let t := (s.setPtp p { x with annSeq := (x.annSeq + 1) % 65536 }).ptpCount p 2
    let flags := match t.parentSet with
      | some f => f.flags % 64
      | none => t.annFlags
    (t.useFree).sendPtp p false true false (t.ptpMessage p 0xB flags 0 x.annSeq 5 (t.fget F.invPtpIntvLogAnn) t.annBody)

/-- DELAY_REQ_TRANSMIT (R82): Delay_Req on the port that follows the master, Pdelay_Req on every enabled port. On an HSR
pair neither Delay_Req nor Delay_Resp carries an HSR tag: DESIGN CHOICE, log entry 138. -/
def State.delaySend (s : State) (p : Nat) : State :=
  let x := s.ptpOf p
  let e2e := s.endToEnd
  bif !(bif e2e then s.ptpState p == ptpSlave || s.ptpState p == ptpUncalibrated
      else s.flag F.invPtpCtlPtpEn && s.flag (F.invPctlEn p)) then s
  else
    let t := (s.setPtp p { x with reqSeq := (x.reqSeq + 1) % 65536, asked := true, left := none, before := none }).ptpCount p 4
    bif e2e then t.sendPtp p false false false (t.ptpMessage p 1 0 0 x.reqSeq 1 0x7F (List.replicate 10 0))
    else t.sendPtp p true false false (t.ptpMessage p 2 0 0 x.reqSeq 5 0x7F (List.replicate 20 0))

/-! ### Commands -/

/-- PTP_SYNC_RECEIVED (R74): the message, and the PCS stamp of its frame. -/
def execPtpSyncReceived (p : Nat) (l : List Byte) (pcs : Nat) (s : State) : Host.Outcome State Fault Refusal :=
  .next (s.syncReceivedPtp p l pcs)

/-- FOLLOW_UP_RECEIVED (R73). -/
def execFollowUpReceived (p : Nat) (l : List Byte) (s : State) : Host.Outcome State Fault Refusal := .next (s.followUp p l)

/-- ANNOUNCE_RECEIVED (R80). -/
def execAnnounceReceived (p : Nat) (l : List Byte) (s : State) : Host.Outcome State Fault Refusal :=
  .next (s.announceReceived p l)

/-- ANNOUNCE_RECEIPT_TIMEOUT (R80). -/
def execAnnounceReceiptTimeout (p : Nat) (s : State) : Host.Outcome State Fault Refusal := .next (s.announceTimeout p)

/-- PRE_MASTER_TIMEOUT (R80): the port becomes MASTER, and an evaluation follows. -/
def execPreMasterTimeout (p : Nat) (s : State) : Host.Outcome State Fault Refusal :=
  .next (s.when (s.ptpState p == ptpPreMaster) fun t => (t.setPtpState p ptpMaster).evaluate)

/-- SYNC_TRANSMIT (R83). -/
def execSyncTransmit (p : Nat) (s : State) : Host.Outcome State Fault Refusal := .next (s.syncSend p)

/-- ANNOUNCE_TRANSMIT (R88). -/
def execAnnounceTransmit (p : Nat) (s : State) : Host.Outcome State Fault Refusal := .next (s.annSend p)

/-- DELAY_REQ_TRANSMIT (R82). -/
def execDelayReqTransmit (p : Nat) (s : State) : Host.Outcome State Fault Refusal := .next (s.delaySend p)

/-- DELAY_REQ_RECEIVED (R82). -/
def execDelayReqReceived (p : Nat) (l : List Byte) (pcs : Nat) (s : State) : Host.Outcome State Fault Refusal :=
  .next (s.delayReq p l pcs)

/-- DELAY_RESP_RECEIVED (R82). -/
def execDelayRespReceived (p : Nat) (l : List Byte) (s : State) : Host.Outcome State Fault Refusal := .next (s.delayResp p l)

/-- PDELAY_REQ_RECEIVED (R83). -/
def execPdelayReqReceived (p : Nat) (l : List Byte) (pcs : Nat) (s : State) : Host.Outcome State Fault Refusal :=
  .next (s.pdelayReq p l pcs)

/-- PDELAY_EXCHANGE_COMPLETE (R82). -/
def execPdelayExchangeComplete (p : Nat) (l : List Byte) (pcs : Nat) (fup : List Byte) (more : Bool) (s : State) :
    Host.Outcome State Fault Refusal :=
  .next (s.pdelayDone p l pcs fup more)

/-- DELAY_RESPONSE_TIMEOUT (R82). -/
def execDelayResponseTimeout (p : Nat) (s : State) : Host.Outcome State Fault Refusal := .next (s.delayLost p)

/-- TC_MATCH_ENTRY_EXPIRE (R85): the entry of quadrant `q` for a source and a sequenceId. -/
def execTcMatchEntryExpire (q src seq : Nat) (s : State) : Host.Outcome State Fault Refusal :=
  .next (s.onInv (fun x => { x with tc := dropTc q src seq x.tc }))

end Sys2Proof.Machine
end

