-- ==== Sys2Proof/Machine/Receive.lean ====
section
/-! DEFINITION. A received frame from its 64th byte to its end: MAC checks, control frames, pass-through, and the
delivery of the local copy (R113, R114, R118 to R120, R140, R187 to R202, R228 to R230). -/

namespace Sys2Proof.Machine

/-- The frame that port `p` receives: the pre-emptable one, or the other. -/
def State.rxOf (s : State) (p : Nat) (pre : Bool) : Option RxProg := bif pre then (s.mac p).rxPre else (s.mac p).rx

/-- Store it. -/
def State.setRx (s : State) (p : Nat) (pre : Bool) (r : Option RxProg) : State :=
  bif pre then s.setMac p { s.mac p with rxPre := r } else s.setMac p { s.mac p with rx := r }

/-- EtherType 0x8808 directly after the addresses: a control frame, which no other unit sees (R118). -/
def isControl (l : List Byte) : Bool := be16 l 12 == 0x8808

/-- The frame carries a tag or trailer of its pair's mode (R187); `len` is its length. -/
def State.tagged (s : State) (p len : Nat) (l : List Byte) : Bool :=
  match s.pairMode (pairOf p) with
  | 0 => false
  | 1 => validPrp (s.tpid2 p) l
  | _ => hasHsr (s.tpid2 p) l && hsrSizeFits (s.tpid2 p) len l

/-- A frame of EtherType 0x892F on an HSR pair whose LSDU_size is wrong. -/
def State.tagError (s : State) (p len : Nat) (l : List Byte) : Bool :=
  Nat.ble 2 (s.pairMode (pairOf p)) && hasHsr (s.tpid2 p) l && !hsrSizeFits (s.tpid2 p) len l

/-- The receive ring of a class (R228). -/
def State.rxRing (s : State) (p cls : Nat) : Nat :=
  16 * (bif s.pairMode (pairOf p) == 0 then p else 2 * pairOf p) + 8 + cls

/-- The EtherType of a frame at port `p` behind its tags. -/
def State.etyOf (s : State) (p : Nat) (l : List Byte) : Nat := be16 l (hdrParse (s.tpid2 p) l).off

/-- The local copy is bound for host memory when the class verdict is ready (R229). -/
def State.hostBound (s : State) (p : Nat) (l : List Byte) (v : Verdict) : Bool :=
  bif s.etyOf p l == 0x88F7 then s.flag (F.invPctlMirror p) || forHost ((hdrParse (s.tpid2 p) l).off + 2) l
  else s.etyOf p l == 0x88FB || (v.act != 2 && v.act != 1 && s.addrAccepts p (frameDa l) v)

/-- Bytes of a port's receive store (R229). -/
def storeSize : Nat := 16384

/-- Bytes of port `p`'s receive store are taken. -/
def State.storeTake (s : State) (p n : Nat) : State :=
  { s with stores := Table.put 0 (Table.get 0 p s.stores + n) p s.stores }

/-- The receive store of port `p` can reserve MAX_FRAME bytes. -/
def State.storeFits (s : State) (p : Nat) : Bool :=
  Nat.ble (Table.get 0 p s.stores + s.fget (F.macMaxfMaxFrame p)) storeSize

/-- The 64th byte has arrived (R113, R130, R195, R196, R198, R229). -/
def State.rxBegin (s : State) (p : Nat) (pre : Bool) (head : List Byte) (stamp : Nat) (x : RxFlaws) : State :=
  let l := head.take 64
  bif isControl l then s
  else
    let r := s.classify p l x.stream
    let v := r.1
    let may := s.mayForward p l
    let full := may && s.ptFull p (twinOf p)
    let fast := may && !full && s.cutThrough p && s.flag (F.dupPair0FastPass (pairOf p))
    let bound := s.hostBound p l v && s.qReady (p / 36) 8
    let ovf := bound && !s.storeFits p
    let room := bif bound && !ovf then s.fget (F.macMaxfMaxFrame p) else 0
    let ts := stamp - s.fget (F.invPlatRxLat p)
    let t := (r.2.when ovf (·.ringCount (s.rxRing p v.cls) 4)).when (room != 0) (·.storeTake p room)
    let t := t.when full (·.pairCount (pairOf p) 17)
    let t := t.setRx p pre (some
      { verdict := v, ptFull := full, ovf := ovf, room := room, stamp := ts, fwd := bif fast then s.nextFrame else 0
        ptRoom := may && !full && !fast
        own := s.pairMode (pairOf p) == 2 && hasHsr (s.tpid2 p) l && frameSa l == s.nodeAddr p })
    t.when fast (·.offerCopy p v.cls ts l true)

/-- The Source Table verdict of a tagged frame, of which the bytes `l` have arrived (R190, R195 to R198). -/
def State.rxLookup (s : State) (p : Nat) (pre whole : Bool) (l : List Byte) (bad : Option Nat) : State :=
  match s.rxOf p pre with
  | none => s
  | some r =>
    bif r.looked.isSome || r.own then s
    else
      let k := pairOf p
      let tp := s.tpid2 p
      let seq := bif s.pairMode k == 1 then prpSeq l else hsrSeq tp l
      let want := s.mayForward p l && !r.ptFull
      let d := s.lookup k (frameSa l) seq (twinOf p % 2) want bad
      let t := d.2
      let r := { r with looked := some (bit d.1.accept) }
      let t := t.when d.1.fwdDup (·.pairCount k 14)
      let t := t.when d.1.forward (·.pairCount k (12 + p % 2))
      bif d.1.forward then
        (bif r.fwd != 0 then t.setRx p pre (some r)
         else bif t.cutThrough p && !whole then
          (t.setRx p pre (some { r with fwd := t.nextFrame, ptRoom := false })).offerCopy p r.verdict.cls r.stamp l true
         else t.setRx p pre (some { r with pend := true }))
      else
        let u := t.setRx p pre (some { r with fwd := 0, ptRoom := false })
        u.when (r.fwd != 0) (·.stompCopy (twinOf p) r.fwd (l.take (s.copyStarted (twinOf p))))

/-! ### The end of the frame -/

/-- Bytes with the FCS behind them. -/
def withFcs (l : List Byte) (fcs : Nat) : List Byte := l ++ mkBytes (wordBytes fcs)

/-- A frame longer than a MAX_FRAME ends after the byte that exceeds it (R197). -/
def clipAt (m fcs : Nat) (l : List Byte) : List Byte :=
  bif Nat.blt m (l.length + 4) then (withFcs l fcs).take (m + 1) else l

/-- The frame that port `p` receives is no longer in reception; what it reserved in the store is free. -/
def State.rxClose (s : State) (p : Nat) (pre : Bool) : State :=
  match s.rxOf p pre with
  | none => s
  | some r => (s.setRx p pre none).storeFree p r.room

/-- A discarded frame: its copy ends with a stomped FCS, or has not started and is taken back (R114, R197). -/
def State.rxDrop (s : State) (p : Nat) (pre : Bool) (l : List Byte) : State :=
  match s.rxOf p pre with
  | none => s
  | some r => (s.rxClose p pre).when (r.fwd != 0) (·.stompCopy (twinOf p) r.fwd l)

/-- What port `p` was receiving is discarded before its end: a copy on the line ends after the byte in progress with a
stomped FCS, and one that has not started is taken back (R109, R114). -/
def State.rxAbandon (s : State) (p : Nat) (pre : Bool) : State :=
  match s.rxOf p pre with
  | none => s
  | some r => s.rxDrop p pre ((s.copyBytes (twinOf p) r.fwd).take (s.copyStarted (twinOf p)))

/-- The continuations of a pre-emptable frame of number `n` follow in order, the next with count `k`, behind `at'` bytes of
`l`: each part but the last ends with the mCRC of the bytes so far (R124). -/
def contsGood (n : Nat) (l : List Byte) : Nat → Nat → List (Nat × Nat × Nat × Nat) → Bool
  | _, at', [] => at' == l.length
  | k, at', x :: r =>
    x.1 == smdCont n && x.2.1 == fragCode k && (r.isEmpty || x.2.2.2 == mCrc (l.take (at' + x.2.2.1)))
    && contsGood n l (k + 1) (at' + x.2.2.1) r

/-- The mPackets of a pre-emptable frame reassemble (R124): it begins with an SMD-S, and its continuations follow in
order. -/
def reassembles (l : List Byte) : List (Nat × Nat × Nat × Nat) → Bool
  | [] => false
  | x :: r =>
    match [0, 1, 2, 3].find? (fun n => x.1 == smdStart n) with
    | none => false
    | some n => (r.isEmpty || x.2.2.2 == mCrc (l.take x.2.2.1)) && contsGood n l 0 x.2.2.1 r

/-- A reassembly error (R124). -/
def State.assyError (s : State) (e : RxEnd) : Bool :=
  e.pre && (!s.flag (F.macPeCtlPeEn e.port) || !reassembles e.bytes e.parts)

/-- The continuation fragments among the mPackets of a frame. -/
def contCount (e : RxEnd) : Nat := (e.parts.filter (fun x => [0, 1, 2, 3].any (fun n => x.1 == smdCont n))).length

/-- The counter of Table 4.4 for a frame that is discarded; none for a good one. -/
def State.rxFate (s : State) (e : RxEnd) (cut : Bool) : Option Nat :=
  let good := e.fcs == crc32 (natBytes e.bytes)
  let len := e.bytes.length + 4
  bif cut then some 18
  else bif s.assyError e then some 19
  else bif Nat.blt len 64 then some (bif good && !e.code then 12 else 13)
  else bif e.code then some 17
  else bif Nat.ble len (s.fget (F.macMaxfMaxFrame e.port)) then (bif good then none else some 16)
  else some (bif good then 14 else 15)

/-- The received FCS is the complement of the computed one (R197). -/
def stomped (e : RxEnd) : Bool := e.fcs == stompedFcs e.bytes

/-- The MAX_FRAME that ends a copy received on port `p`: the ingress one, or a smaller egress one (R197). -/
def State.copyMax (s : State) (p : Nat) : Nat :=
  Nat.min (s.fget (F.macMaxfMaxFrame p)) (s.fget (F.macMaxfMaxFrame (twinOf p)))

/-- Discard a received frame and count it in row `n` of Table 4.4. -/
def State.rxDiscard (s : State) (e : RxEnd) (n : Nat) : State :=
  let p := e.port
  let t := (s.macCount p n 1).macCount p 20 (e.bytes.length + 4)
  let t := t.when (n == 19) (·.macEvent p 6)
  let t := t.when ((n == 15 || n == 16) && stomped e && t.qReady (p / 36) 7) (·.pairCount (pairOf p) 16)
  t.rxDrop p e.pre (clipAt (s.copyMax p) e.fcs e.bytes)

/-! ### Control frames (R118 to R120) -/

/-- Load timer `i` with `v` quanta from now. -/
def State.loadTimer (s : State) (p i v : Nat) : State :=
  let m := s.mac p
  s.setMac p { m with timers := Table.put 0 (bif v == 0 then 0 else s.now100 + v * s.quantum p) i m.timers }

/-- A PAUSE frame of `v` quanta. -/
def State.pauseFrame (s : State) (p v : Nat) : State :=
  let t := s.macCount p 21 1
  bif s.fget (F.macFcMode p) == 1 then (t.loadTimer p 8 v).showStopped p else t

/-- A PFC frame: its enable bits and its eight times. -/
def State.pfcFrame (s : State) (p enable : Nat) (times : List Nat) : State :=
  let on := (List.range 8).filter (bitAt enable)
  let t := eachOf on (fun i u => u.macCount p (23 + i) 1) (s.macCount p 22 1)
  bif s.fget (F.macFcMode p) == 2 then (eachOf on (fun i u => u.loadTimer p i (times.getD i 0)) t).showStopped p else t

/-- A frame of EtherType 0x8808 with a good FCS. -/
def State.controlFrame (s : State) (p : Nat) (l : List Byte) : State :=
  bif frameDa l != 0x0180C2000001 && frameDa l != s.macAddr p then s.macCount p 31 1
  else match be16 l 14 with
    | 1 => s.pauseFrame p (be16 l 16)
    | 0x101 => s.pfcFrame p (be16 l 16) ((List.range 8).map (fun i => be16 l (18 + 2 * i)))
    | _ => s.macCount p 31 1

/-! ### Delivery (R188, R228 to R230) -/

/-- The local copy without the tag or trailer of its pair (R188). -/
def State.untag (s : State) (p len : Nat) (l : List Byte) : List Byte :=
  bif s.flag (F.dupPair0KeepTag (pairOf p)) || !s.tagged p len l then l
  else bif s.pairMode (pairOf p) == 1 then l.take (l.length - 6)
  else removeAt (typeOff (s.tpid2 p) l) 6 l

/-- BUF_SIZE and ADDR of an RXBUF entry. -/
def bufSize (e : RingEntry) : Nat := e.words.getD 3 0 % 2 ^ 14
def bufAddr (e : RingEntry) : Nat := e.words.getD 1 0 + 2 ^ 32 * e.words.getD 2 0

/-- The fewest leading entries that hold `n` bytes; none where they do not (R229). -/
def fewest (n : Nat) : List RingEntry → Option (List RingEntry)
  | [] => none
  | e :: r => bif Nat.ble n (bufSize e) then some [e] else (fewest (n - bufSize e) r).map (e :: ·)

/-- The accepted, unused RXBUF entries of a ring. -/
def State.freeBufs (s : State) (r : Nat) : List RingEntry := (s.ring r).entries.filter (fun e => !e.done && !e.begun)

/-- What unit 1 of every entry of a frame says. -/
structure RxInfo where
  stamp : Nat := 0
  cls : Nat := 0
  colour : Nat := 0
  member : Nat := 0
  hit : Bool := false
  fg : Nat := 0
  deriving DecidableEq, Repr

/-- Unit 1 of an RXBUF entry (Table 8.7). -/
def rxUnit (x : RxInfo) (len total : Nat) (first last : Bool) : List Nat :=
  [fsNs (x.stamp / 16), fsSec (x.stamp / 16),
   len + 2 ^ 14 * bit first + 2 ^ 15 * bit last + 2 ^ 16 * x.cls + 2 ^ 19 * x.colour + 2 ^ 21 * x.member + 2 ^ 22 * bit x.hit,
   total + 2 ^ 14 * x.fg]

/-- Fill buffers in turn, each up to its size. -/
def State.fillBufs (s : State) (r : Nat) (l : List Byte) : List RingEntry → State
  | [] => s
  | e :: rest =>
    (s.hostBus (s.ringHost r) (bufAddr e) (ringMaster r) true (.hostData (s.ringHost r) (bufAddr e) (l.take (bufSize e)))).fillBufs r (l.drop (bufSize e)) rest

/-- The entries of a frame with the unit 1 that each gets once the data is written; the frame fills `keep` bytes of the
store of port `p`. -/
def carrying (p keep total : Nat) (x : RxInfo) (frame : Nat) (first : Bool) (left : Nat) : List RingEntry → List RingEntry
  | [] => []
  | e :: rest =>
    { e with
      begun := true, frame := frame, unit1 := rxUnit x (Nat.min left (bufSize e)) total first rest.isEmpty, port := p
      store := bif first then keep else 0 } :: carrying p keep total x frame false (left - bufSize e) rest

/-- Put changed entries in the place of those at their counts. -/
def putEntries (new : List RingEntry) (l : List RingEntry) : List RingEntry :=
  l.map (fun e => bif e.done then e else (new.find? (fun x => x.pos == e.pos)).getD e)

/-- Place a frame of port `p` in ring `r` (R228 to R230): its data is written now; unit 1 of each entry and their
completion follow. -/
def State.place (s : State) (p r : Nat) (x : RxInfo) (l : List Byte) : State :=
  bif !s.flag (F.ringStsRun r) then s.ringCount r 5
  else match fewest l.length (s.freeBufs r) with
    | none => s.ringStarve r
    | some es =>
      let t := s.fillBufs r l es
      let new := carrying p l.length l.length x ((es.head?.map (·.pos)).getD 0 + 1) true l.length es
      (t.setRing r { t.ring r with entries := putEntries new (t.ring r).entries }).storeTake p l.length

/-- The local copy goes to its ring; at shed level 3 classes 0 to 5 are dropped (R47). -/
def State.deliver (s : State) (p len : Nat) (x : RxInfo) (l : List Byte) : State :=
  let q := p / 36
  let r := s.rxRing p x.cls
  bif !s.qReady q 8 then s
  else bif Nat.ble 3 (s.fget (F.hscMarginShed q)) && Nat.ble x.cls 5 then s.ringCount r 3
  else s.place p r x (s.untag p len l)

/-- The FRER step (R199): whether the local copy goes on. -/
def State.frerStep (s : State) (p : Nat) (v : Verdict) (bad : Bool) (l : List Byte) : Bool × State :=
  let q := p / 36
  let f := bitsOf (v.word 3) 14 12
  bif v.hit == 0 || !bitAt (v.word 2) 21 || !s.flag (F.dupCtlEn q) || !s.flag (frEn q f) then (true, s)
  else
    let s := s.touch (frerAddr q f 0) 4
    bif bad || !s.wordsReadable (frerAddr q f 0) 4 then (true, s.frerLost q f) else s.recover q f (s.frerSeq p f l)

/-- A received PTP frame (R87, R131): Signaling and Management messages pass Invar's checks and go to the host ring, and
MIRROR delivers every message there. The others reach Invar by their own rows. -/
def State.ptpFrame (s : State) (p len : Nat) (x : RxInfo) (l : List Byte) : State :=
  let o := (hdrParse (s.tpid2 p) l).off + 2
  let mine := forHost o l
  let bad := mine && s.flag F.invPtpCtlPtpEn && !s.ptpGood o l
  (s.when bad (·.fromQuad (p / 36) (·.ptpCount p 7))).when (s.flag (F.invPctlMirror p) || (mine && !bad)) (·.deliver p len x l)

/-- The local copy of an accepted frame after its last byte (R140 to R142, R199, R201, R228). -/
def State.localCopy (s : State) (e : RxEnd) (r : RxProg) : State :=
  let p := e.port
  let l := e.bytes
  let len := l.length + 4
  let v := r.verdict
  let ety := s.etyOf p l
  let info : RxInfo :=
    { stamp := r.stamp, cls := v.cls, fg := v.fg, hit := v.hit != 0
      member := bif s.pairMode (pairOf p) == 0 then 0 else p % 2 }
  bif r.ovf then s
  else bif ety == 0x88F7 then s.ptpFrame p len info l
  else bif ety == 0x88FB then s.deliver p len info l
  else match s.filtered p (frameDa l) len v with
    | some t => t
    | none =>
      let dei := match (hdrParse (s.tpid2 p) l).tci with
        | some c => bitAt c 12
        | none => false
      let m := bif v.meter && s.flag (F.clsCtlEn (p / 36)) then s.police p v.fg len dei e.flaws.meter else ((0, true), s)
      bif !m.1.2 then m.2
      else
        let f := m.2.frerStep p v e.flaws.frer l
        bif !f.1 then f.2
        else bif v.act == 2 then f.2.takeTrip p (bitsOf (v.word 3) 28 3) l
        else f.2.deliver p len { info with colour := m.1.1 } l

/-- The pass-through copy of a good frame is completed, or offered whole (R196, R197). -/
def State.endCopy (s : State) (e : RxEnd) (r : RxProg) : State :=
  let x := twinOf e.port
  let m := s.copyMax e.port
  let long := Nat.blt m (e.bytes.length + 4)
  let l := clipAt m e.fcs e.bytes
  bif r.fwd != 0 then
    (s.onCopy x r.fwd (fun f => { f with bytes := l, arriving := false, stomp := long || e.flaws.buffer })).refresh x
  else bif r.pend then
    (s.offerCopy e.port r.verdict.cls r.stamp l false).when (long || e.flaws.buffer)
      (·.onCopy x s.nextFrame (fun f => { f with stomp := true }))
  else s

/-- The tag counters of R187. -/
def State.countTag (s : State) (p len : Nat) (l : List Byte) : State :=
  let k := pairOf p
  bif s.pairMode k == 0 then s
  else bif s.tagged p len l then
    (s.pairCount k (p % 2)).when (s.pairMode k == 1 && prpLan l != 0xA + p % 2) (·.pairCount k 4)
  else s.pairCount k (2 + p % 2)

/-- A good frame that is no control frame. -/
def State.rxGood (s : State) (e : RxEnd) : State :=
  let p := e.port
  let l := e.bytes
  let len := l.length + 4
  let k := pairOf p
  let t := s.countGood p 0 len (frameDa l)
  let t := bif (t.rxOf p e.pre).isSome then t else t.rxBegin p e.pre l e.stamp e.flaws
  bif t.tagError p len l then (t.pairCount k 5).rxDrop p e.pre (clipAt (s.copyMax p) e.fcs l)
  else
    let t := t.countTag p len l
    let t := t.when (t.tagged p len l) (·.rxLookup p e.pre true l e.flaws.source)
    match t.rxOf p e.pre with
    | none => t
    | some r =>
      let t := (t.endCopy e r).rxClose p e.pre
      bif r.own then t.pairCount k 11
      else bif r.looked == some 0 && t.etyOf p l != 0x88F7 then t.pairCount k 6
      else t.localCopy e r

/-- FRAME_END_RECEIVED (R113): a port that is not enabled passes nothing on and counts nothing (R109). -/
def State.rxEnd (s : State) (e : RxEnd) : State :=
  let p := e.port
  let s := ((s.macCount p 53 e.fecCorr).macCount p 54 e.fecUncorr).macCount p 55 e.fecSym
  let cut := e.cut || (match s.rxOf p e.pre with
    | some r => r.cut
    | none => false)
  bif !s.flag (F.macCtlEn p) || !(s.portUp p || cut) then s.rxDrop p e.pre e.bytes
  else
    let s := s.macCount p 32 (contCount e)
    match s.rxFate e cut with
    | some n => s.rxDiscard e n
    | none => bif isControl e.bytes then (s.controlFrame p e.bytes).setRx p e.pre none else s.rxGood e

end Sys2Proof.Machine
end

