-- ==== Sys2Proof/Machine/Mac.lean ====
section
/-! DEFINITION. The MAC and PCS commands: the link state machine, frames in and out, flow control and
verification (R105 to R128). -/

namespace Sys2Proof.Machine

/-- The PCS of a port runs: its quadrant's base and its bank are READY and a PHY is selected. -/
def State.pcsRuns (s : State) (p : Nat) : Bool :=
  s.qReady (p / 36) 0 && s.ready (bankDom p) && s.phy p != 0

/-- A link event of a port whose PCS runs; what the line carries follows (R108, R109). -/
def State.onPort (s : State) (p : Nat) (f : State → State) : State :=
  s.when (s.pcsRuns p) (fun t => (f t).showLine p)

/-- The latency pair of Table 3.6 in 1/16 ns: transmit, receive (R90). -/
def platOf : Nat → Nat → Option (Nat × Nat)
  | 1, _ => some (1792, 3776)
  | 2, _ => some (768, 1576)
  | 3, 0 => some (616, 984)
  | 3, _ => some (776, 4464)
  | 4, 0 => some (348, 540)
  | 4, 1 => some (400, 1768)
  | 4, _ => some (436, 2340)
  | _, _ => none

/-- INV_PLAT is loaded from Table 3.6; a port that is off loads nothing (R90). -/
def State.loadPlat (s : State) (p : Nat) : State :=
  match platOf (s.phy p) (s.fget (F.pcsCtlFec p)) with
  | some x => (s.fput (F.invPlatTxLat p) x.1).fput (F.invPlatRxLat p) x.2
  | none => s

/-- The link state machine restarts in DOWN (R106): what the receiver has locked is lost. -/
def State.linkRestart (s : State) (p : Nat) : State :=
  let t := s.clr (Reg.pcsSts p) 0x7C
  (t.toDown p).zeroCredits p

/-- A write of PCS_CTL (R106). -/
def State.writePcsCtl (s : State) (p w : Nat) : State :=
  let t := s.store (Reg.pcsCtl p) w
  bif t.rd (Reg.pcsCtl p) % 32 == s.rd (Reg.pcsCtl p) % 32 then t
  else ((t.loadPlat p).linkRestart p).showLine p

/-- A write of MAC_PE_CTL: verification starts again when PE_EN or VERIFY_DIS changes (R125). -/
def State.writePeCtl (s : State) (p w : Nat) : State :=
  let t := s.store (Reg.macPeCtl p) w
  bif t.rd (Reg.macPeCtl p) % 4 == s.rd (Reg.macPeCtl p) % 4 then t.refresh p
  else (t.restartVerify p).refresh p

/-- Lock of a clocked or BASE-R receiver, with FEC lock where FEC is selected (Table 4.3). -/
def State.gainLock (s : State) (p : Nat) : State :=
  ((s.fset (F.pcsStsLock p) true).fset (F.pcsStsFecLock p) (s.fget (F.pcsCtlFec p) != 0)).fset (F.pcsStsHiBer p) false

/-- A frame in reception is cut (R110, R111). -/
def State.cutRx (s : State) (p : Nat) : State :=
  let x := s.mac p
  s.setMac p { x with
    rx := x.rx.map (fun r => { r with cut := true })
    rxPre := x.rxPre.map (fun r => { r with cut := true }) }

/-- The port holds UP through its open fabric guard (R111). -/
def State.guardHolds (s : State) (p : Nat) : Bool := s.flag (F.pcsStsGuarded p) && s.portUp p

/-! ### Link -/

/-- PHY_CHANGE (R106): PCS_CTL is written with `w`. -/
def execPhyChange (p w : Nat) (s : State) : Host.Outcome State Fault Refusal :=
  .next (s.atReg (Reg.pcsCtl p) (·.writePcsCtl p w))

/-- The PLL of the port's rate runs (Table 4.22): a receiver that has locked shows it. -/
def State.pllShown (s : State) (p : Nat) : State :=
  s.fset (bif s.baseR p then F.sdsStsPllA (p / 6) else F.sdsStsPllB (p / 6)) true

/-- CDR_LOCK (R108): DOWN to SYNC. -/
def execCdrLock (p : Nat) (s : State) : Host.Outcome State Fault Refusal :=
  .next (s.onPort p fun t =>
    let u := (((t.pllShown p).fset (F.pcsStsCdr p) true).fset (F.pcsStsRfRx p) false).fset (F.pcsStsHiBer p) false
    u.when (u.fget (F.pcsStsState p) == 0) (·.fput (F.pcsStsState p) 1))

/-- PCS_LOCK (R108, R111): SYNC to UP_WAIT; in a guarded relock lock has returned. -/
def execPcsLock (p : Nat) (s : State) : Host.Outcome State Fault Refusal :=
  .next (s.onPort p fun t => t.when (t.flag (F.pcsStsCdr p) && t.fget (F.pcsStsState p) != 0) fun u =>
    let v := u.gainLock p
    bif v.fget (F.pcsStsState p) == 1 then v.fput (F.pcsStsState p) 2
    else v.when (v.mac p).relock fun x => x.setMac p { x.mac p with relocked := true })

/-- UP_DLY_EXPIRE (R108): UP_WAIT to UP. -/
def execUpDlyExpire (p : Nat) (s : State) : Host.Outcome State Fault Refusal :=
  .next (s.onPort p fun t => t.when (t.fget (F.pcsStsState p) == 2 && t.flag (F.pcsStsLock p))
    (fun u => (u.enterUpPort p).refresh p))

/-- LOSS_OF_LOCK (R108, R111): loss of lock, and with `cdr` of CDR lock too; to DOWN outside a guard. A receiver without
lock receives no Remote Fault. -/
def execLossOfLock (p : Nat) (cdr : Bool) (s : State) : Host.Outcome State Fault Refusal :=
  .next (s.onPort p fun t =>
    let u := ((t.fset (F.pcsStsLock p) false).fset (F.pcsStsFecLock p) false).fset (F.pcsStsRfRx p) false
    let u := u.when cdr (·.fset (F.pcsStsCdr p) false)
    bif u.guardHolds p then (u.cutRx p).setMac p { (u.cutRx p).mac p with relock := true, relocked := false }
    else u.toDown p)

/-- HI_BER (R108, R111): declared at BASE-R; the port leaves UP outside a guard. -/
def execHiBer (p : Nat) (s : State) : Host.Outcome State Fault Refusal :=
  .next (s.onPort p fun t => t.when (t.baseR p) fun u =>
    let v := ((u.fset (F.pcsStsHiBer p) true).macCount p 58 1).macEvent p 2
    bif v.guardHolds p then v else v.toDown p)

/-- REMOTE_FAULT_RECEIVED (R108): to DOWN, in a guard too. -/
def execRemoteFaultReceived (p : Nat) (s : State) : Host.Outcome State Fault Refusal :=
  .next (s.onPort p fun t => t.when (t.baseR p) fun u =>
    ((u.fset (F.pcsStsRfRx p) true).macEvent p 3).toDown p)

/-- SERDES_PLL_UNLOCK (R128): a PLL of bank `b` (0..23) loses lock, PLL_B with `pllB`; the bank's ports go to
DOWN and the source of the quadrant reports it. -/
def execSerdesPllUnlock (b : Nat) (pllB : Bool) (s : State) : Host.Outcome State Fault Refusal :=
  .next (s.when (s.qReady (b / 6) 0 && s.ready (qDom (b / 6) (1 + b % 6))) fun t =>
    let u := (t.fset (F.sdsStsUnlock b) true).fset (bif pllB then F.sdsStsPllB b else F.sdsStsPllA b) false
    let u := forUpTo 6 (fun i x => (x.linkRestart (6 * b + i)).showLine (6 * b + i)) u
    u.corrected (8 * (b / 6) + 6) 0)

/-! ### Reception -/

/-- FRAME_64TH_BYTE (R113): the first 64 bytes of a frame have arrived; `pre` for a pre-emptable one, `stamp` the
PCS stamp of its SFD in 1/16 ns. -/
def execFrame64thByte (p : Nat) (pre : Bool) (head : List Byte) (stamp : Nat) (flaws : RxFlaws) (s : State) :
    Host.Outcome State Fault Refusal :=
  .next (s.atDom (qDom (p / 36) 0) fun t =>
    t.when (t.flag (F.macCtlEn p) && t.portUp p && (t.rxOf p pre).isNone && (!pre || t.flag (F.macPeCtlPeEn p)))
      fun u => (u.rxBegin p pre head stamp flaws).reportReads)

/-- FRAME_END_RECEIVED (R113). -/
def execFrameEndReceived (e : RxEnd) (s : State) : Host.Outcome State Fault Refusal :=
  .next (s.atDom (qDom (e.port / 36) 0) (fun t => (t.rxEnd e).reportReads))

/-- A control frame reaches the MAC: it is enabled and the port is up (R109). -/
def State.macHears (s : State) (p : Nat) : Bool := s.qReady (p / 36) 0 && s.flag (F.macCtlEn p) && s.portUp p

/-- PAUSE_FRAME_RECEIVED (R118, R120): a PAUSE frame of `v` quanta ends. -/
def execPauseFrameReceived (p v : Nat) (s : State) : Host.Outcome State Fault Refusal :=
  .next (s.when (s.macHears p) (·.pauseFrame p v))

/-- PFC_FRAME_RECEIVED (R118, R120): a PFC frame ends, with its enable bits and eight times. -/
def execPfcFrameReceived (p enable : Nat) (times : List Nat) (s : State) : Host.Outcome State Fault Refusal :=
  .next (s.when (s.macHears p) (·.pfcFrame p enable times))

/-- PAUSE_TIMER_EXPIRE (R120): the PAUSE timer (`i` = 8) or PFC timer `i` expires. -/
def execPauseTimerExpire (p i : Nat) (s : State) : Host.Outcome State Fault Refusal :=
  .next (s.atDom (qDom (p / 36) 0) fun t =>
    (t.setMac p { t.mac p with timers := Table.put 0 0 i (t.mac p).timers }).showStopped p)

/-! ### Transmission -/

/-- The entries of the shapers of port `p` are read (R179, R428). -/
def State.shapersRead (s : State) (p : Nat) : State := eachOf (s.shpKeys p) (fun k t => t.touch (shpEntry k) 4) s

/-- The words of the frame that leaves port `p` are read: those of a copy from the pass-through buffer, whose FCS is
stomped where one cannot be corrected (R204), otherwise those of the MAC. -/
def State.txRead (s : State) (p : Nat) : State :=
  let q := p / 36
  match (s.mac p).tx with
  | none => s
  | some x => bif x.frame.source == 3 then
      (s.hiddenRead (8 * q + 2) 3 (p % 36)).when (!s.hiddenGood (8 * q + 2) 3 (p % 36)) (·.stompTx p)
    else s.hiddenRead (8 * q + 2) 0 (p % 36)

/-- TX_FRAME_QUEUED (R162): the oldest frame on its way to a class queue of port `p` becomes a candidate. -/
def execTxFrameQueued (p : Nat) (s : State) : Host.Outcome State Fault Refusal :=
  .next (s.atDom (qDom (p / 36) 0) fun t =>
    (t.oneSlot (fun u => ((u.takeComing p).dropTooBig p).refresh p)).hiddenWritten (8 * (p / 36) + 2) 0 (p % 36))

/-- SELECTION_POINT (R161). -/
def execSelectionPoint (p : Nat) (s : State) : Host.Outcome State Fault Refusal :=
  .next (s.atDom (qDom (p / 36) 0) fun t => ((t.shapersRead p).oneSlot (·.selection p)).reportReads)

/-- TX_FRAME_DONE (R225): the frame has left at PCS stamp `pcs`, 1/16 ns. -/
def execTxFrameDone (p pcs : Nat) (s : State) : Host.Outcome State Fault Refusal :=
  .next (s.atDom (qDom (p / 36) 0) fun t =>
    (((t.shapersRead p).txRead p).oneSlot (·.txDone p pcs)).hiddenPass (8 * (p / 36) + 2) 2 (p % 36))

/-! ### Verification -/

/-- VERIFY_TIMER_EXPIRE (R125): another verify mPacket, or FAILED after the last attempt. Where the port may send none
(R28, R109), the mPacket waits for the first selection point at which it may: DESIGN CHOICE, log entry 142. -/
def execVerifyTimerExpire (p : Nat) (s : State) : Host.Outcome State Fault Refusal :=
  .next (s.atDom (qDom (p / 36) 0) fun t => t.when (t.fget (F.macPeStsVstate p) == 2) fun u =>
    bif Nat.blt (u.fget (F.macPeStsTries p)) (u.fget (F.macPeCtlVerifyLimit p)) then
      (bif u.sendsMpacket p then u.sendVerify p else u.setMac p { u.mac p with verifyDue := true })
    else u.setVerify p 4)

/-- VERIFY_MPACKET_RECEIVED (R125): a respond mPacket is owed while PE_EN = 1. -/
def execVerifyMpacketReceived (p : Nat) (s : State) : Host.Outcome State Fault Refusal :=
  .next (s.when (s.macHears p) fun t => (t.macCount p 50 1).when (t.flag (F.macPeCtlPeEn p)) fun u =>
    u.setMac p { u.mac p with respondDue := (u.mac p).respondDue + 1 })

/-- RESPOND_MPACKET_RECEIVED (R125): VERIFYING to SUCCEEDED. -/
def execRespondMpacketReceived (p : Nat) (s : State) : Host.Outcome State Fault Refusal :=
  .next (s.when (s.macHears p) fun t => (t.macCount p 52 1).when (t.fget (F.macPeStsVstate p) == 2) fun u =>
    (u.setVerify p 3).refresh p)

end Sys2Proof.Machine
end

