-- ==== Sys2Proof/Machine/Nitinol.lean ====
section
/-! DEFINITION. The commands of the Nitinol slices (chapter 10): landing rounds and samples, the hold scan,
lanes, cell commands, commit lists and reacquisition. -/

namespace Sys2Proof.Machine

/-! ### The landing law (R291 to R297) -/

/-- SHAPE or REF at a round: index 15 stands for every index above 15. -/
def profIdx (k : Nat) : Nat := Nat.min k 15

/-- Sample of round `j` of a landing: flag and code. -/
def sampleOf (x : Landing) (j : Nat) : Option (Nat × Nat) :=
  match Table.get 0 j x.samples with
  | 0 => none
  | n + 1 => some (n / 16384, n % 16384)

/-- I and fb before word `k`, in 1/256 code: a valid sample of round k - D_L steers them. -/
def State.integrate (s : State) (q c : Nat) (x : Landing) (i : Int) : Int × Int :=
  let dl := s.fget (F.grfLat2Dl q)
  bif Nat.blt x.k dl then (i, x.fb)
  else match sampleOf x (x.k - dl) with
  | some (1, sm) =>
    let e : Int := 256 * (x.s0 : Int) + ((x.target : Int) - x.s0) * s.fget (F.nitProfRef q (profIdx (x.k - dl))) - 256 * (sm : Int)
    let gs := s.gainSlope q c
    let i' := i + roundDiv (s.fget (F.nitLand1KiL q) * e * 1024) gs
    (i', roundDiv (s.fget (F.nitLand1KpL q) * e * 1024) gs + i')
  | _ => (i, x.fb)

/-- The channel word u[k] before the slew and range limits. -/
def State.rawWord (s : State) (q c : Nat) (x : Landing) (fb : Int) : Int :=
  let gs := s.gainSlope q c
  roundDiv ((256 * (x.d0 : Int) + fb) * gs
    + ((x.target : Int) - x.s0) * s.fget (F.nitProfShape q (profIdx x.k)) * 262144) (256 * gs)

/-- The channel word u[k]: limited to SLEW_L around the previous word and to 0..16383. -/
def State.landWord (s : State) (q c m : Nat) (x : Landing) (fb : Int) : Nat :=
  let prev : Int := bif x.k == 0 then (x.d0 : Int) else (s.fget (F.nitCh1Out m) : Int)
  let slew : Int := (s.fget (F.nitLand1SlewL q) : Int)
  (clampInt 0 16383 (clampInt (prev - slew) (prev + slew) (s.rawWord q c x fb))).toNat

/-- The gain update of R297. -/
def State.tuneGain (s : State) (q c : Nat) (x : Landing) (drel : Nat) : State :=
  bif !s.flag (F.nitCtlGtEn q) || x.stale || s.flag (Cell.uncal q c) || Nat.blt (distance drel x.d0) (s.fget (F.nitTuneGtMin q)) then s
  else
    let den : Int := ((drel : Int) - x.d0) * s.fget (F.nitLand0Slope q)
    let num : Int := 262144 * ((x.lastS : Int) - x.s0)
    let t := s.when (den == 0) State.useFree
    let obs : Int := bif den == 0 then (s.freeVal 13 : Int) else bif decide (den < 0) then roundDiv (-num) den.natAbs else roundDiv num den.natAbs
    bif decide (obs < 256) || decide (4095 < obs) then t.nitCount q 14
    else
      let g : Int := (s.gainOf q c : Int)
      (t.fput (Cell.gain q c) (g + roundDiv (obs - g) 8).toNat).nitCount q 13

/-- The release of a settled cell (R293). A request that has not taken it over yet waits for a channel of its own. -/
def State.settleRelease (s : State) (q m c u : Nat) (x : Landing) : State :=
  let retry := s.flag (F.nitCh0Attempt m)
  let t := ((s.fput (Cell.state q c) (s.fget (Cell.dest q c))).fput (Cell.drive q c) u).fput (Cell.sense q c) x.lastS
  let t := ((t.armCell q c).fput (Cell.alrm q c) 0).fput (Cell.clip q c) 0
  let t := bif retry then t.nitCount q 1 else (t.nitCount q 0).tuneGain q c x u
  let t := (t.giveResult q x.commit (bif retry then rRetry else rSettled)).freeCh m
  match x.takeover with
  | some y => t.setNit q { t.nit q with wait := (t.nit q).wait ++ [(y.1, c, y.2.1)] }
  | none => t

/-- A second attempt without settling (R294): the cell is parked with the output of round 63, which its
release word carries at round 64. -/
def State.failLanding (s : State) (q m c : Nat) : State :=
  let t := ((s.keepSense q m).fput (Cell.drive q c) (s.fget (F.nitCh1Out m))).nitCount q 2
  let t := ((t.parkCell q c 1).giveResult q (s.land m).commit rParked).endTakeover m rRefused
  t.setLand m { t.land m with commit := 0, parkNow := true }

/-- The retry after 64 rounds (R294). -/
def State.retryLanding (s : State) (m : Nat) : State :=
  let x := s.land m
  let t := (((s.fset (F.nitCh0Attempt m) true).fput (F.nitCh0Round m) 0).wr (Reg.nitCh2 m) 0).leaveTail m
  t.setLand m { begun := x.begun, commit := x.commit, start := x.start, target := x.target, stale := x.stale, takeover := x.takeover
                d0 := s.fget (F.nitCh1Out m), s0 := s.fget (F.nitCh1Sense m) }

/-- The attempt has reached round 64 without declaring settling. -/
def State.timedOut (s : State) (m : Nat) : Bool :=
  s.bound m && Nat.ble 64 (s.land m).k && (s.land m).rel.isNone && !(s.land m).parkNow

/-- Count a start after its commit's round 0 (R296). -/
def State.lateStart (s : State) (q id at' : Nat) : State :=
  match (s.nit q).commits.find? (fun c => c.id == id) with
  | none => s
  | some c =>
    match c.round0 with
    | none => s.onNitCommit q id (fun c => { c with round0 := some at' })
    | some r => bif Nat.ble at' r then s else bif Nat.ble (at' - r) 6400 then s.nitCount q 5 else s.nitCount q 6

/-- Round 0 of an attempt is entered in the round grid; the first one of the landing is its start. -/
def State.startRound (s : State) (q m at' : Nat) : State :=
  let x := s.land m
  bif x.k == 0 then
    (s.setLand m { x with grid0 := (s.nit q).grid, begun := true }).when (!x.begun) (·.lateStart q x.commit at')
  else s

/-- The word of one channel at a round: the 16 bits of LAND_DRV, and the state after it. A word that is not ready goes out
with op 00 and counts in WORD_DROP; its release follows at the next round (R261). -/
def State.roundWord (s : State) (q i at' : Nat) : Nat × State :=
  let m := 256 * q + i
  let c := s.fget (F.nitCh0Cell m)
  let late := (s.nit q).dropCh.any (· == i)
  bif !s.bound m then (0, s)
  else bif (s.land m).parkNow then
    bif late then (0, s.nitCount q 16)
    else (2 ^ 15 + s.fget (F.nitCh1Out m), (((s.keepSense q m).giveResult q (s.land m).commit rParked).endTakeover m rParked).freeCh m)
  else
    let s := s.preemptAt q m at'
    bif s.timedOut m && s.flag (F.nitCh0Attempt m) then
      bif late then (0, (s.failLanding q m c).nitCount q 16)
      else (2 ^ 15 + s.fget (F.nitCh1Out m), (s.failLanding q m c).freeCh m)
    else
    let s := s.when (s.timedOut m) (·.retryLanding m)
    bif Nat.blt at' (s.land m).start then (0, s)
    else
      let s := s.startRound q m at'
      let x := s.land m
      let r := s.integrate q c x (signedOf (s.rd (Reg.nitCh2 m)) 32)
      let u := s.landWord q c m x r.2
      let t := (s.wr (Reg.nitCh2 m) (encodeSigned r.1 32)).fput (F.nitCh0Round m) (Nat.min x.k 63)
      let x' := { x with k := x.k + 1, fb := r.2, times := at' :: x.times }
      bif late then (0, (t.setLand m x').nitCount q 16)
      else
        let t := (t.setLand m x').fput (F.nitCh1Out m) u
        match x.rel with
        | some k => bif Nat.ble k x.k then (2 ^ 15 + u, t.settleRelease q m c u x) else (2 ^ 14 + u, t)
        | none => (2 ^ 14 + u, t)

/-- The words of all 256 channels in ascending order. -/
def State.roundWords (s : State) (q at' : Nat) : List Nat × State :=
  (List.range 256).foldl (fun a i => let r := a.2.roundWord q i at'; (a.1 ++ [r.1], r.2)) ([], s)

/-- The ten LAND_DRV flits of a round, APPLY last (R259, R260). -/
def State.sendRound (s : State) (q : Nat) (w : List Nat) : State :=
  forUpTo 10 (fun b t => t.sendFlit q 0x10 0 (28 * b + 256 * bit (b == 9) + 512 * (s.nit q).grid)
    (flitWords (padTo 28 (w.drop (28 * b))))) s

/-- The word of local channel `i` cannot be read (R309): its landing ends INTERRUPTED and its cell is landed anew. -/
def State.loseChannel (s : State) (q i : Nat) : State :=
  let m := 256 * q + i
  bif Nat.ble 256 i || !s.bound m then s
  else
    let t := s.interruptCh m
    t.setNit q { t.nit q with requeue := (t.nit q).requeue ++ [s.fget (F.nitCh0Cell m)] }

/-- LANDING_ROUND (R261, R289, R291, R293): the round due at instant `at'` (1/16 ns); `late` lists channels
whose word is not ready, `lost` those whose state cannot be read (R309). -/
def State.landingRound (s : State) (q at' : Nat) (late lost : List Nat) : State :=
  bif !s.isUp q then s
  else bif s.fget (F.nitStsBound q) == 0 then s.serveWait q
  else
    let s := eachOf lost (fun i t => t.loseChannel q i) s
    let s := s.setNit q { s.nit q with dropCh := late ++ (s.nit q).dropCh }
    let r := s.roundWords q at'
    let t := r.2.sendRound q r.1
    (t.setNit q { t.nit q with grid := ((t.nit q).grid + 1) % 128, dropCh := [] }).serveWait q

/-! ### Landing samples (R288, R292, R293) -/

/-- The settle run after a valid or clipped sample. -/
def State.settleRun (s : State) (q j : Nat) (x : Landing) (hit : Bool) (code : Nat) : Landing :=
  let run := bif hit then x.run + 1 else 0
  let x := { x with run := run, runJ := bif hit && x.run == 0 then j else x.runJ }
  bif run == 8 && x.rel.isNone then { x with rel := some (j + s.fget (F.grfLat2Dl q)), lastS := code } else x

/-- The instant of the settle round, ns. -/
def settleInstant (x : Landing) : Nat := (x.times.getD (x.times.length - 1 - x.runJ) 0) / 16

/-- A word of ROUND `round` arrives from channel `m`: samples of an earlier attempt or landing that it passes over are
missing, and one of them that is stale counts too (R292). -/
def State.tailSample (s : State) (q m round flag : Nat) : State :=
  let x := Table.get (0, 0) (m % 256) (s.nit q).tails
  let d := (x.1 + 128 - round) % 128
  let old := Nat.ble 1 d && Nat.ble d x.2
  let lost := bif old then x.2 - d else x.2
  let rest := bif old then d - 1 else 0
  let t := eachOf (List.range (lost + bit (old && flag == 3))) (fun _ u => u.nitCount q 8) s
  bif x.2 == 0 then s
  else t.setNit q { t.nit q with tails := Table.put (0, 0) (bif rest == 0 then (0, 0) else (x.1, rest)) (m % 256) (t.nit q).tails }

/-- One sample of channel `m` at round `j`. -/
def State.landSample (s : State) (q m j flag code : Nat) : State :=
  let x := s.land m
  bif Nat.blt j x.nextJ || !Nat.blt j x.k then s
  else
    let t := eachOf (List.range (j - x.nextJ)) (fun _ u => u.nitCount q 8) s
    let x := { x with nextJ := j + 1, samples := Table.put 0 (flag * 16384 + code + 1) j x.samples }
    bif flag == 3 then (t.nitCount q 8).setLand m { x with stale := true }
    else
      let hit := flag == 1 && Nat.ble (distance x.target code) (s.fget (F.nitLand0Win q))
      let x' := s.settleRun q j x hit code
      let t := (t.setLand m x').when (flag == 1) (·.fput (F.nitCh1Sense m) code)
      t.when (x.rel.isNone && x'.rel.isSome)
        (·.onNitCommit q x.commit (fun c => { c with settle := Nat.max c.settle (settleInstant x') }))

/-- A LAND_BIND was lost (R288): the channel is bound again and the landing restarts in its attempt. -/
def State.rebind (s : State) (q i : Nat) : State :=
  let m := 256 * q + i
  let x := s.land m
  let t := ((s.nitCount q 7).sendBinds q [(i, s.fget (F.nitCh0Cell m))] 1).wr (Reg.nitCh2 m) 0
  (t.fput (F.nitCh0Round m) 0).setLand m { x with
    fb := 0, k := 0, times := [], samples := [], nextJ := 0, run := 0, runJ := 0, rel := none }

/-- One word of a LAND_SNS flit: a flag 00 of a round of the present attempt means a lost LAND_BIND (R288). -/
def State.landSense (s : State) (q i round w : Nat) : State :=
  let m := 256 * q + i
  let s := s.tailSample q m round (bitsOf w 14 2)
  let j := (round + 128 - (s.land m).grid0) % 128
  bif !s.bound m then s
  else bif bitsOf w 14 2 == 0 then s.when (Nat.blt j (s.land m).k) (·.rebind q i)
  else s.landSample q m j (bitsOf w 14 2) (bitsOf w 0 14)

/-- Pair the words of a flit with their indices from BASE on. -/
def indexed (base : Nat) (words : List Nat) (limit : Nat) : List (Nat × Nat) :=
  (List.zip (List.range 28) words).filterMap (fun x => bif Nat.blt (base + x.1) limit then some (base + x.1, x.2) else none)

/-! ### The hold scan (R281 to R284) -/

/-- The local cell of word `w` of a pair (Table 9.1). -/
def pairCell (pair w : Nat) : Nat := (2 * pair + w / 512) * 512 + w % 512

/-- The hold scan writes the cell: BAR or CROSS, targeted, not bound (R282). -/
def State.holdWrites (s : State) (q c : Nat) : Bool :=
  Nat.blt (s.fget (Cell.state q c)) 2 && s.targeted q c && !(s.nit q).bad.any (· == c)

/-- The word of HOLD_DRV for word `w` of a pair. -/
def State.holdWord (s : State) (q pair w : Nat) : Nat :=
  bif Nat.blt w 1024 && s.holdWrites q (pairCell pair w) then 2 ^ 14 + s.fget (Cell.drive q (pairCell pair w)) else 0

/-- HOLD_MISS counts the flits of the last step that did not arrive, HOLD_LAT after RDRV = 1 (R268). -/
def State.countMissing (s : State) (q : Nat) : State :=
  match (s.nit q).stepped with
  | none => s
  | some p =>
    let n := 37 - popCount (Table.get 0 p (s.nit q).gotSns) 37
    let k := bif (s.nit q).stepLat then 37 - popCount (Table.get 0 p (s.nit q).gotLat) 37 else 0
    (s.grfCountBy q 10 (n + k)).setNit q { s.nit q with stepped := none }

/-- Forget what has arrived for a pair, whose step starts now. -/
def State.stepPair (s : State) (q p : Nat) (lat : Bool) : State :=
  s.setNit q { s.nit q with
    stepped := some p
    stepLat := lat
    gotSns := Table.put 0 0 p (s.nit q).gotSns
    gotLat := Table.put 0 0 p (s.nit q).gotLat }

/-- The correction of the hold law, in drive codes (R282). -/
def State.holdStep (s : State) (q c : Nat) (e : Int) : Int :=
  let slew : Int := (s.fget (F.nitHoldSlewH q) : Int)
  clampInt (-slew) slew (roundDiv (s.fget (F.nitHoldKh q) * e * 1024) (s.gainSlope q c))

/-- DRIVE corrected once for a sense code (R282). -/
def State.holdDrive (s : State) (q c code : Nat) : State :=
  let e : Int := (s.fget (Cell.target q c (s.fget (Cell.state q c))) : Int) - code
  bif Nat.ble e.natAbs (s.fget (F.nitHoldDbH q)) then s
  else s.fput (Cell.drive q c) (clampInt 0 16383 ((s.fget (Cell.drive q c) : Int) + s.holdStep q c e)).toNat

/-- The first write after a reacquisition is the latch read back, corrected once for the sense read back (R302). -/
def State.firstDrives (s : State) (q pair : Nat) : State :=
  bif !bitAt (s.nit q).first pair then s
  else
    let t := s.setNit q { s.nit q with first := (s.nit q).first - 2 ^ pair }
    forUpTo 1024 (fun w u =>
      let c := pairCell pair w
      u.when (u.holdWrites q c && (u.nit q).sensed.any (· == c) && !u.inCal q (w / 32)) (fun v => v.holdDrive q c (v.fget (Cell.sense q c)))) t

/-- Cells of a quadrant with a Cell Table word whose check bits were inverted (R428). -/
def State.spoiltCells (s : State) (q : Nat) : List Nat :=
  s.injected.filterMap (fun x =>
    bif Nat.ble (cellAddr q 0) x.1 && Nat.blt x.1 (cellAddr q 65536) then some ((x.1 - cellAddr q 0) / 8) else none)

/-- The entries of cells are read. -/
def State.cellsRead (s : State) (q : Nat) (l : List Nat) : State := eachOf l (fun c t => t.touch (cellAddr q c) 2) s

/-- Entries fail their check (R278, R307): they are remembered, and no GAIN of theirs is retained. -/
def State.loseEntries (s : State) (q : Nat) (l : List Nat) : State :=
  eachOf l (fun c t => t.fput (Cell.gain q c) 0) (s.setNit q { s.nit q with bad := (s.nit q).bad ++ l })

/-- Entries of the pair that this visit cannot read (R307): they get no write, and await their rebuild. -/
def State.unreadable (s : State) (q pair : Nat) (bad : List Nat) : State :=
  let n := s.nit q
  let new := bad.filter (fun c => c / 1024 == pair && !n.bad.any (· == c))
  bif new.isEmpty then s
  else (s.setNit q { n with sensed := n.sensed.filter (fun c => !new.any (· == c)) }).loseEntries q new

/-- HOLD_VISIT (R281, R282): the pair's write words and a step. A pair with an entry to rebuild since an earlier
visit is stepped with RDRV = 1; `bad` lists the cells whose entry this visit cannot read (R307). -/
def State.holdVisit (s : State) (q pair : Nat) (bad : List Nat) : State :=
  bif !s.flag (F.nitStsRun q) || !s.isUp q then s
  else
    let s := s.when (pair == 0) (fun t => t.fset (F.nitStsSlow q) (t.slowWanted q))
    let lat := (s.nit q).bad.any (fun c => c / 1024 == pair)
    let met := (s.spoiltCells q).filter (fun c => c / 1024 == pair)
    let s := (s.cellsRead q met).unreadable q pair (bad ++ met.filter (fun c => !s.wordsReadable (cellAddr q c) 2))
    let s := s.firstDrives q pair
    let t := (s.countMissing q).nitCount q 10
    let t := forUpTo 37 (fun b u => u.sendFlit q 0x12 0 (pair + 64 * (28 * b))
      (flitWords ((List.range 28).map (fun n => s.holdWord q pair (28 * b + n))))) t
    (t.sendFlit q 0x13 0 (pair + 64 * bit lat) []).stepPair q pair lat

/-- The hold law for a valid sense (R282). -/
def State.holdValid (s : State) (q c code : Nat) : State :=
  let tg := s.fget (Cell.target q c (s.fget (Cell.state q c)))
  let e : Int := (tg : Int) - code
  let t := s.fput (Cell.clip q c) 0
  let near := Nat.ble e.natAbs (s.fget (F.nitHlimHoldAlarm q))
  let t := bif near then (t.fput (Cell.alrm q c) 0).armCell q c else (t.nitCount q 11).when (s.flag (Cell.armed q c)) (·.fput (Cell.alrm q c) (s.fget (Cell.alrm q c) + 1))
  bif t.fget (Cell.alrm q c) == 3 then t.parkCell q c 2
  else t.holdDrive q c code

/-- A valid sense is recorded; taken while neither hold group of its word is in calibration it clears STALE (R284). -/
def State.takeSense (s : State) (q c code g : Nat) : State :=
  (s.fput (Cell.sense q c) code).when (!s.inCal q g && !s.inCal q (g + 32)) (·.fset (Cell.stale q c) false)

/-- The hold law for one sense word of a visit (R282 to R285). -/
def State.holdLaw (s : State) (q c w g : Nat) : State :=
  let flag := bif s.inCal q g then 3 else bitsOf w 14 2
  let code := bitsOf w 0 14
  bif bitsOf w 14 2 == 0 then s
  else bif s.fget (Cell.state q c) == cellParked then s.when (flag == 1) (·.takeSense q c code g)
  else bif !s.holdWrites q c || (s.nit q).dropCell.any (· == c) then s
  else bif flag == 1 then (s.takeSense q c code g).holdValid q c code
  else bif flag == 2 then
    let t := s.fput (Cell.clip q c) (s.fget (Cell.clip q c) + 1)
    t.when (t.fget (Cell.clip q c) == 3) (·.parkCell q c 3)
  else s.fset (Cell.stale q c) true

/-- One sense word of a readback step (R300). -/
def State.readSense (s : State) (q c w g : Nat) : State :=
  bif bitsOf w 14 2 == 1 then
    (s.takeSense q c (bitsOf w 0 14) g).setNit q { s.nit q with sensed := c :: (s.nit q).sensed.filter (· != c) }
  else s.setNit q { s.nit q with sensed := (s.nit q).sensed.filter (· != c) }

/-- HOLD_SNS (R282, R300): the sense words of one BASE group of a pair. -/
def State.holdSns (s : State) (q pair base : Nat) (words : List Nat) : State :=
  let n := s.nit q
  let s := s.setNit q { n with gotSns := Table.put 0 (Table.get 0 pair n.gotSns ||| 2 ^ (base / 28)) pair n.gotSns }
  let t := eachOf (indexed base words 1024) (fun x u =>
    bif u.flag (F.nitStsReacq q) || (u.nit q).bad.any (· == pairCell pair x.1) then u.readSense q (pairCell pair x.1) x.2 (x.1 / 32)
    else bif u.flag (F.nitStsRun q) then u.holdLaw q (pairCell pair x.1) x.2 (x.1 / 32) else u) s
  t.setNit q { t.nit q with dropCell := (t.nit q).dropCell.filter (fun c => !(indexed base words 1024).any (fun x => pairCell pair x.1 == c)) }

/-- The entries of cells are stored by the visit that has sensed them, but for those that await their rebuild (R307,
R428). -/
def State.cellsStored (s : State) (q : Nat) (cs : List Nat) : State :=
  s.when (s.flag (F.nitStsReacq q) || s.flag (F.nitStsRun q)) fun t =>
    eachOf (cs.filter (fun c => !(t.nit q).bad.any (· == c))) (fun c u => u.entryWritten (8 * q + 3) 1 (cellAddr q c) 2) t

/-- The state that a sense value points at (R301 step 3). -/
def State.sensedState (s : State) (q c : Nat) : Option Nat :=
  let v := s.fget (Cell.sense q c)
  let w := s.fget (F.nitHlimReacqWin q)
  bif !(s.nit q).sensed.any (· == c) then none
  else bif Nat.ble (distance (s.fget (Cell.target q c 0)) v) w then some 0
  else bif Nat.ble (distance (s.fget (Cell.target q c 1)) v) w then some 1 else none

/-- Rebuild an entry from latch and sense (R307): step 3 of R301 on the sense of this step. Its words are written anew,
and an untargeted cell takes BAR. -/
def State.rebuild (s : State) (q c : Nat) : State :=
  let s := s.setNit q { s.nit q with bad := (s.nit q).bad.filter (· != c) }
  let s := { s with injected := (Table.drop (cellAddr q c) (Table.drop (cellAddr q c + 4) s.injected)) }
  let s := s.fput (Cell.gain q c) (s.gainOf q c)
  bif !s.targeted q c then s.fput (Cell.state q c) 0
  else match s.sensedState q c with
  | some i => (s.fput (Cell.state q c) i).armCell q c
  | none => s.parkCell q c 4

/-- HOLD_LAT (R300): latch codes of one BASE group of a pair; an entry that failed its check is rebuilt. -/
def State.holdLat (s : State) (q pair base : Nat) (words : List Nat) : State :=
  let n := s.nit q
  let s := s.setNit q { n with gotLat := Table.put 0 (Table.get 0 pair n.gotLat ||| 2 ^ (base / 28)) pair n.gotLat }
  eachOf (indexed base words 1024) (fun x u =>
    let c := pairCell pair x.1
    bif u.flag (F.nitStsReacq q) then u.fput (Cell.drive q c) (bitsOf x.2 0 14)
    else bif (u.nit q).bad.any (· == c) then (u.fput (Cell.drive q c) (bitsOf x.2 0 14)).rebuild q c else u) s

/-! ### Lanes (R274 to R276) -/

/-- Retire or return lanes and apply the capacity tiers. -/
def State.applyLanes (s : State) (q w : Nat) : State :=
  let old := s.fget (F.nitStsRetired q)
  let t := s.setRetired q w
  let r := t.fget (F.nitStsRetired q)
  let t := t.when (capTier old != capTier r) (·.nitEvent q 4 0 0 r)
  let t := t.when (Nat.blt old 7 && Nat.ble 7 r) (·.corrected (8 * q + 7) 3)
  (t.when (Nat.blt old 10 && Nat.ble 10 r) (·.report [(8 * q + 4, 1)])).when (t.isUp q) (·.serveWait q)

/-- LOCKSTEP_MISMATCH (R274): `kind` 0 is a landing word of local channel `item`, 1 a hold update of cell
`item`; `inTime` says that the second result is released before its deadline. -/
def State.lockstep (s : State) (q lane kind item : Nat) (inTime : Bool) : State :=
  bif bitAt (s.retired q) lane || Nat.ble 64 lane then s
  else
    let t := s.nitCount q 15
    let t := t.when (!inTime && kind == 0) (fun u => u.setNit q { u.nit q with dropCh := item :: (u.nit q).dropCh })
    let t := t.when (!inTime && kind == 1) (fun u => (u.setNit q { u.nit q with dropCell := item :: (u.nit q).dropCell }).nitCount q 16)
    let t := (t.nitEvent q 3 0 0 (popCount (s.retired q) laneCount + 1)).corrected (8 * q + 7) 2
    t.applyLanes q (s.retired q ||| 2 ^ lane)

/-- The lanes under test. -/
def State.testing (s : State) (q : Nat) : Nat := s.rd (Reg.nitLaneTest0 q) + 2 ^ 32 * s.rd (Reg.nitLaneTest1 q)

/-- LANE_SELF_TEST_DONE (R275). -/
def State.laneTested (s : State) (q lane : Nat) (pass : Bool) : State :=
  bif !bitAt (s.testing q) lane then s
  else
    let t := s.clr (bif Nat.blt lane 32 then Reg.nitLaneTest0 q else Reg.nitLaneTest1 q) (2 ^ (lane % 32))
    bif pass then t.applyLanes q (t.retired q &&& ((2 ^ 64 - 1) ^^^ 2 ^ lane)) else t.applyLanes q (t.retired q ||| 2 ^ lane)

/-! ### Cell commands (R286) -/

/-- A cell command ends with a result (Table 10.18). -/
def State.cellDone (s : State) (q res : Nat) : State :=
  (s.fput (F.nitCellResResult q) res).fset (F.nitCellCmdGoBusy q) false

/-- PARK (R286): a landing ends PARKED at the next round; a PARKED cell is left as it is. -/
def State.hostPark (s : State) (q c : Nat) : State :=
  bif s.fget (Cell.state q c) == cellParked then s
  else match s.chanOf q c with
  | some m => ((s.keepSense q m).setLand m { s.land m with parkNow := true }).fput (Cell.drive q c) (s.fget (F.nitCh1Out m)) |>.parkCell q c 5
  | none =>
    let due := ((s.nit q).wait.filterMap (fun x => bif x.2.1 == c then some x.2.2 else none))
      ++ (s.nit q).commits.flatMap (fun x => x.binds.filterMap (fun y => bif y.1 == c then some y.2 else none))
    let t := (s.dropWaiting q c rParked).parkCell q c 5
    match due.getLast? with
    | some d => t.fput (Cell.dest q c) d
    | none => t

/-- UNPARK (R286): the cell lands from its latch; the slice itself is the requester. One that waits already takes the
later destination; outside operation it waits for the re-landings that follow the reacquisition. -/
def State.unpark (s : State) (q c dest : Nat) : State :=
  bif s.fget (Cell.state q c) != cellParked then s.cellDone q 1
  else bif !s.targeted q c then s.cellDone q 2
  else
    let s := s.dropWaiting q c rPreempted
    bif s.flag (F.nitStsRun q) then (s.bindAll q [(0, c, dest)]).cellDone q 0
    else (s.setNit q { s.nit q with wait := (s.nit q).wait ++ [(0, c, dest)] }).cellDone q 0

/-- A write of NIT_CELL_CMD: GO starts the command unless one is running. -/
def State.writeCellCmd (s : State) (q w : Nat) : State :=
  bif s.flag (F.nitCellCmdGoBusy q) then s
  else
    let s := s.store (Reg.nitCellCmd q) w
    let c := bitsOf w 0 16
    let op := bitsOf w 16 2
    bif !bitAt w 31 then s
    else bif op == 0 then
      ((s.wr (Reg.nitCellData0 q) (s.rd (cellAddr q c))).wr (Reg.nitCellData1 q) (s.rd (cellAddr q c + 4))).cellDone q 0
    else bif !s.flag (F.nitCtlEn q) then s.cellDone q 3
    else match op with
    | 1 => (s.hostPark q c).cellDone q 0
    | 2 => s.unpark q c 0
    | _ => s.unpark q c 1

/-! ### Commits (R287 to R290) -/

/-- Insert a cell by its local number. -/
def insertReq (x : Nat × Nat) : List (Nat × Nat) → List (Nat × Nat)
  | [] => [x]
  | y :: r => bif Nat.blt x.1 y.1 then x :: y :: r else y :: insertReq x r

/-- The cell of row `r`, column `c` as a request of quadrant `q`. -/
def cellReq (q r c dest : Nat) : List (Nat × Nat) :=
  bif Nat.blt r 512 && r / 128 == q then [((r - 128 * q) * 512 + c, dest)] else []

/-- The cells of quadrant `q` that a commit changes, with their destinations, ascending. -/
def commitCells (q : Nat) (moves : List (Nat × Nat × Nat)) : List (Nat × Nat) :=
  (moves.flatMap (fun x => cellReq q x.2.1 x.1 0 ++ cellReq q x.2.2 x.1 1)).foldl (fun a x => insertReq x a) []

/-- COMMIT_LISTS_RECEIVED (R287, R288, R290): a commit learned at least 1 200 ns ahead is bound by
LAND_BIND_SEND; any other is bound at once. -/
def State.commitLists (s : State) (q id : Nat) : State :=
  match s.fab.running.find? (fun c => c.id == id && bitAt c.owe q) with
  | none => s
  | some c =>
    bif (s.nit q).commits.any (fun x => x.id == id) || !s.open' q 9 then s
    else
      let l := commitCells q c.moves
      let early := Nat.ble (s.folNow q + 1200) c.tc
      let start := bif early then 16 * c.tc else 0
      let t := s.setNit q { s.nit q with
        commits := (s.nit q).commits ++ [{ id := id, tc := bif early then c.tc else 0, open' := l.length, round0 := bif early then some start else none }] }
      let r := l.foldl (fun (a : List (Nat × Nat × Nat) × State) x =>
        let b := a.2.landRequest q id start x
        (a.1 ++ b.1, b.2)) ([], t)
      bif early then r.2.onNitCommit q id (fun x => { x with binds := r.1.map (fun y => y.2) })
      else r.2.bindAll q r.1

/-- LAND_BIND_SEND (R288). -/
def State.landBindSend (s : State) (q id : Nat) : State :=
  match (s.nit q).commits.find? (fun c => c.id == id) with
  | none => s
  | some c =>
    (s.onNitCommit q id (fun x => { x with binds := [] })).bindAll q (c.binds.map (fun x => (id, x)))

/-! ### Reacquisition (R299 to R305) -/

/-- REACQUISITION_START (R300). -/
def State.reacqStart (s : State) (q : Nat) : State :=
  let n := s.nit q
  bif !(n.want && n.started && s.isUp q && s.flag (F.nitCtlEn q) && !s.flag (F.nitStsReacq q)) || n.held then s
  else
    let t := ((s.countMissing q).nitInterrupt q).setHoldRel q false
    let t := ((t.fset (F.nitStsReacq q) true).fset (F.nitStsReacqFail q) false).nitCount q 17
    t.setNit q { t.nit q with
      want := false, pass := 0, todo := List.range 64, stepped := none, gotSns := [], gotLat := [], sensed := [] }

/-- Every flit of the pair has arrived. -/
def State.pairRead (s : State) (q p : Nat) : Bool :=
  Table.get 0 p (s.nit q).gotSns == 2 ^ 37 - 1 && Table.get 0 p (s.nit q).gotLat == 2 ^ 37 - 1

/-- The pairs that still lack a flit. -/
def State.lacking (s : State) (q : Nat) : List Nat := (List.range 64).filter (fun p => !s.pairRead q p)

/-- READBACK_STEP (R300): the next pair of the pass, or the first of the next pass over the lacking pairs. -/
def State.readback (s : State) (q : Nat) : State :=
  bif !s.flag (F.nitStsReacq q) || !s.isUp q then s
  else
    let t := s.countMissing q
    let n := t.nit q
    let n := bif n.todo.isEmpty && Nat.blt n.pass 3 then { n with pass := n.pass + 1, todo := t.lacking q } else n
    match n.todo with
    | [] => t
    | p :: r => ((t.setNit q { n with todo := r }).sendFlit q 0x13 0 (p + 64) []).stepPair q p true

/-- The state of a cell in the collector's map in force (R301 step 2): CROSS when F connects its column to
its row. -/
def State.mapState (s : State) (q c : Nat) : Nat :=
  let col := c % 512
  bit (bitsOf (s.rd (0x888000 + 4 * (col / 2))) (16 * (col % 2)) 10 == 128 * q + c / 512)

/-- The intended state of a targeted cell (R301); none leaves it PARKED. -/
def State.intended (s : State) (q c : Nat) : Option Nat :=
  let n := s.nit q
  bif !n.cold && !n.bad.any (· == c) then
    (bif s.fget (Cell.state q c) == cellMoving then some (s.fget (Cell.dest q c)) else some (s.fget (Cell.state q c)))
  else bif s.flag F.fabStsFvalid then some (s.mapState q c)
  else s.sensedState q c

/-- Classify one cell (R301). -/
def State.classifyCell (s : State) (q c : Nat) : State :=
  let n := s.nit q
  bif !s.targeted q c then s.when (n.cold || n.bad.any (· == c)) (·.fput (Cell.state q c) 0)
  else bif s.fget (Cell.state q c) == cellParked && !n.cold && !n.bad.any (· == c) then s
  else match s.intended q c with
  | none => s.parkCell q c 4
  | some i =>
    bif Nat.ble (distance (s.fget (Cell.target q c i)) (s.fget (Cell.sense q c))) (s.fget (F.nitHlimReacqWin q)) then
      (s.fput (Cell.state q c) i).armCell q c
    else
      let t := (s.fput (Cell.state q c) cellMoving).fput (Cell.dest q c) i
      t.setNit q { t.nit q with requeue := (t.nit q).requeue ++ [c] }

/-- A FRESH assembly (R305): every retained state but GAIN is discarded, and every targeted cell starts at BAR from
drive 0. A GAIN that the entry has lost takes GAIN_INIT (`loseEntries`). -/
def State.freshCell (s : State) (q c : Nat) : State :=
  let gain := bif s.fget (Cell.gain q c) == 0 then s.fget (F.nitTuneGainInit q) else s.fget (Cell.gain q c)
  let t := (s.fset (Cell.stale q c) false).wr (cellAddr q c + 4) gain
  bif !s.targeted q c then t.fput (Cell.state q c) 0
  else
    let t := ((t.fput (Cell.state q c) 0).fput (Cell.drive q c) 0).fset (Cell.armed q c) false
    t.setNit q { t.nit q with unarmed := (t.nit q).unarmed ++ [c] }

/-- REACQUISITION_END (R301, R302, R304, R305): every cell is classified and HOLD_REL is set, or the
reacquisition fails. The packing of the counts in the record is not stated: free values. -/
def State.reacqEnd (s : State) (q : Nat) : State :=
  bif !s.flag (F.nitStsReacq q) || !(s.nit q).todo.isEmpty then s
  else bif !(s.lacking q).isEmpty then
    (bif (s.nit q).pass == 3 then (s.countMissing q).reacqFail q else s)
  else
    let fresh := (s.link q).fresh
    let t := (s.setNit q { s.nit q with stepped := none, unarmed := bif fresh then [] else (s.nit q).unarmed }).setLink q { s.link q with fresh := false }
    let t := bif fresh then (forUpTo 65536 (fun c u => u.freshCell q c) t) else forUpTo 65536 (fun c u => u.classifyCell q c) t
    let t := t.setNit q { t.nit q with cold := false, bad := [], first := 2 ^ 64 - 1 }
    let t := t.when fresh (fun u => u.fset (F.nitStsLifting q) !((u.nit q).unarmed.isEmpty))
    let t := ((t.setHoldRel q true).fset (F.nitStsRun q) true).fset (F.nitStsReacq q) false
    let t := t.when (fresh && (t.nit q).unarmed.isEmpty) (·.nitEvent q 5 0 0 0)
    ((t.nitEvent q 0 0 (t.freeVal 32) (t.useFree.freeVal 32)).useFree).useFree

/-- RELANDING_START (R303): queued re-landings, and cells that wait, take the free channels in ascending local cell order. -/
def State.relandingStart (s : State) (q : Nat) : State :=
  bif !s.flag (F.nitStsRun q) then s
  else
    let l := (s.nit q).requeue
    let t := eachOf l (fun _ u => u.nitCount q 18) (s.setNit q { s.nit q with requeue := [] })
    (t.setNit q { t.nit q with wait := (t.nit q).wait ++ l.map (fun c => (0, c, s.fget (Cell.dest q c))) }).serveWait q

/-- A write of NIT_CTL (Table 10.10, R299, R304). -/
def State.writeNitCtl (s : State) (q w : Nat) : State :=
  let t := s.store (Reg.nitCtl q) w
  let was := s.flag (F.nitCtlEn q)
  let t := t.when (!was && bitAt w 0) (·.wantReacq q)
  let t := t.when (bitAt w 3 && s.flag (F.nitStsReacqFail q)) (·.wantReacq q)
  t.when (was && !bitAt w 0) (fun u =>
    let u := (u.nitInterrupt q).setHoldRel q false
    (u.fset (F.nitStsReacq q) false).setNit q { u.nit q with want := false, todo := [], held := false })

/-- NITINOL_STARTUP_DONE (R275, R278): lanes that failed start retired, entries that failed their check are
remembered. -/
def State.nitStarted (s : State) (q failed : Nat) (bad : List Nat) : State :=
  bif (s.nit q).started || !s.qReady q 9 then s
  else
    let met := s.spoiltCells q
    let t := s.cellsRead q met
    let bad := bad ++ met.filter (fun c => !s.wordsReadable (cellAddr q c) 2)
    ((t.setNit q { t.nit q with started := true, bad := [] }).loseEntries q bad).applyLanes q (s.retired q ||| failed % 2 ^ 64)

/-! ### Commands -/

def execLandingRound (q at' : Nat) (late lost : List Nat) (s : State) : Host.Outcome State Fault Refusal :=
  .next (s.landingRound q at' late lost)

/-- LAND_SNS (R288, R292, R293): ROUND captured and the words from BASE on. -/
def execLandSns (q base round : Nat) (words : List Nat) (fcnt : Nat) (s : State) : Host.Outcome State Fault Refusal :=
  .next (eachOf (indexed base words 256) (fun x t => t.landSense q x.1 round x.2) (s.goodFlit q fcnt))

/-- LANDING_ATTEMPT_TIMEOUT (R294): channel `i` of quadrant `q`. -/
def execLandingAttemptTimeout (q i : Nat) (s : State) : Host.Outcome State Fault Refusal :=
  .next (bif !s.timedOut (256 * q + i) then s
    else bif s.flag (F.nitCh0Attempt (256 * q + i)) then
      s.failLanding q (256 * q + i) (s.fget (F.nitCh0Cell (256 * q + i)))
    else s.retryLanding (256 * q + i))

def execHoldVisit (q pair : Nat) (bad : List Nat) (s : State) : Host.Outcome State Fault Refusal :=
  .next (s.holdVisit q pair bad).reportReads

def execHoldSns (q pair base : Nat) (words : List Nat) (fcnt : Nat) (s : State) : Host.Outcome State Fault Refusal :=
  .next (((s.goodFlit q fcnt).holdSns q pair base words).cellsStored q ((indexed base words 1024).map (fun x => pairCell pair x.1)))

def execHoldLat (q pair base : Nat) (words : List Nat) (fcnt : Nat) (s : State) : Host.Outcome State Fault Refusal :=
  .next ((s.goodFlit q fcnt).holdLat q pair base words)

def execLockstepMismatch (q lane kind item : Nat) (inTime : Bool) (s : State) : Host.Outcome State Fault Refusal :=
  .next (s.lockstep q lane kind item inTime)

/-- LANE_SELF_TEST (R275): a write `w` of NIT_LANE_TEST_h. -/
def execLaneSelfTest (q h w : Nat) (s : State) : Host.Outcome State Fault Refusal :=
  .next (s.atReg (Reg.nitLaneTest0 q) (·.orw (bif h == 0 then Reg.nitLaneTest0 q else Reg.nitLaneTest1 q) (w % 2 ^ 32)))

def execLaneSelfTestDone (q lane : Nat) (pass : Bool) (s : State) : Host.Outcome State Fault Refusal :=
  .next (s.laneTested q lane pass)

def execNitinolStartupDone (q failed : Nat) (bad : List Nat) (s : State) : Host.Outcome State Fault Refusal :=
  .next (s.nitStarted q failed bad).reportReads

/-- CELL_READ, CELL_PARK, UNPARK_BAR, UNPARK_CROSS: a write of NIT_CELL_CMD with that OP and GO. -/
def execCellRead (q c : Nat) (s : State) : Host.Outcome State Fault Refusal :=
  .next (s.atReg (Reg.nitCellCmd q) (·.writeCellCmd q (c % 65536 + 2 ^ 31)))
def execCellPark (q c : Nat) (s : State) : Host.Outcome State Fault Refusal :=
  .next (s.atReg (Reg.nitCellCmd q) (·.writeCellCmd q (c % 65536 + 2 ^ 16 + 2 ^ 31)))
def execUnparkBar (q c : Nat) (s : State) : Host.Outcome State Fault Refusal :=
  .next (s.atReg (Reg.nitCellCmd q) (·.writeCellCmd q (c % 65536 + 2 ^ 17 + 2 ^ 31)))
def execUnparkCross (q c : Nat) (s : State) : Host.Outcome State Fault Refusal :=
  .next (s.atReg (Reg.nitCellCmd q) (·.writeCellCmd q (c % 65536 + 3 * 2 ^ 16 + 2 ^ 31)))

def execCommitListsReceived (q id : Nat) (s : State) : Host.Outcome State Fault Refusal := .next (s.commitLists q id)
def execLandBindSend (q id : Nat) (s : State) : Host.Outcome State Fault Refusal := .next (s.landBindSend q id)
def execReacquisitionStart (q : Nat) (s : State) : Host.Outcome State Fault Refusal := .next (s.reacqStart q)
def execReadbackStep (q : Nat) (s : State) : Host.Outcome State Fault Refusal := .next (s.readback q)
def execReacquisitionEnd (q : Nat) (s : State) : Host.Outcome State Fault Refusal := .next (s.reacqEnd q)
def execRelandingStart (q : Nat) (s : State) : Host.Outcome State Fault Refusal := .next (s.relandingStart q)

/-- NITINOL_ENABLE, NITINOL_DISABLE and REACQ: a write `w` of NIT_CTL with that bit. -/
def execNitinolEnable (q w : Nat) (s : State) : Host.Outcome State Fault Refusal := .next (s.atReg (Reg.nitCtl q) (·.writeNitCtl q (w ||| 1)))
def execNitinolDisable (q w : Nat) (s : State) : Host.Outcome State Fault Refusal :=
  .next (s.atReg (Reg.nitCtl q) (·.writeNitCtl q (w &&& 0xFFFFFFFE)))
def execReacq (q w : Nat) (s : State) : Host.Outcome State Fault Refusal := .next (s.atReg (Reg.nitCtl q) (·.writeNitCtl q (w ||| 8)))

end Sys2Proof.Machine
end

