-- ==== Sys2Proof/Machine/PowerOps.lean ====
section
/-! DEFINITION. The states of the power domains, requests, holds, and what entering reset and READY do (R448 to
R462). -/

namespace Sys2Proof.Machine

/-- The domain that domain `n` requires to be on (Table 17.1); PD00 and PD47 require none. -/
def requiresOf (n : Nat) : Option Nat :=
  bif n == 0 || n == 47 then none
  else bif Nat.blt n 45 then (bif (n - 1) % 11 == 0 then some 47 else some (1 + 11 * ((n - 1) / 11)))
  else some 47

/-- The requests of PWR_ON_0..1 as one mask. -/
def State.requested (s : State) : Nat := s.rd Reg.pwrOn0 + 2 ^ 32 * s.rd Reg.pwrOn1

/-- The state code of domain `n`. -/
def State.domState (s : State) (n : Nat) : Nat := s.fget (F.pwrDomState n)

/-- The power-down sequence of domain `n` runs. -/
def State.goingOff (s : State) (n : Nat) : Bool := bitAt s.pwr.offing n

/-- The domains that ramp. -/
def State.ramping (s : State) : List Nat := (List.range 52).filter (fun n => s.domState n == 1)

/-- BUSY and RAMP_DOM (Table 17.11). -/
def State.showBusy (s : State) : State :=
  let r := s.ramping
  (s.fset F.pwrStsBusy (!r.isEmpty || s.pwr.offing != 0)).fput F.pwrStsRampDom (r.headD 0)

/-- Store the state of domain `n`, its PWR_RDY bit, and BUSY. -/
def State.setDomState (s : State) (n v : Nat) : State :=
  let a := bif Nat.blt n 32 then Reg.pwrRdy0 else Reg.pwrRdy1
  let t := s.fput (F.pwrDomState n) v
  (t.wr a (withBits (t.rd a) (n % 32) 1 (bit (v == 3)))).showBusy

/-- PCS_STS.PWR of the ports of quadrant `q`: their bank's domain is powered. -/
def State.showPwr (s : State) (q : Nat) : State :=
  s.when (s.qReady q 0) fun t => forUpTo 36 (fun l u =>
    let n := qDom q (1 + l / 6)
    u.fset (F.pcsStsPwr (36 * q + l)) (Nat.ble 2 (u.domState n) && !u.goingOff n)) t

/-- What follows a change of the state of domain `n` in its quadrant: bank power, HOLDOVER_N, port links and lines. -/
def State.domFollow (s : State) (n : Nat) : State :=
  bif n == 0 || Nat.ble 45 n then s
  else
    let q := (n - 1) / 11
    let i := (n - 1) % 11
    let t := (s.showPwr q).driveHold q
    bif i == 0 then forUpTo 36 (fun l u => u.ptpLink (36 * q + l)) t
    else bif Nat.ble i 6 then forUpTo 6 (fun j u =>
      let p := 36 * q + 6 * (i - 1) + j
      (u.ptpLink p).when (u.qReady q 0) (·.showLine p)) t
    else t

/-- Domain `n` enters reset (R449, R451); one that is OFF or ramps has nothing to end. -/
def State.dropDomain (s : State) (n : Nat) (off spare : Bool) : State :=
  bif Nat.ble 2 (s.domState n) && !s.goingOff n then
    ((s.oneSlot (·.resetDomain n off spare)).setDomState n 2).domFollow n
  else s

/-- Every domain of `q` that is on has become READY. -/
def State.quadSettled (s : State) (q : Nat) : Bool :=
  (List.range 11).all fun i => s.domState (qDom q i) == 0 || s.domState (qDom q i) == 3

/-- The isolation of a quadrant whose unit runs again ends when its domains that are on are READY (R421,
Table 17.7); its ports take the state that the list prescribes (R158). -/
def State.tryEndIso (s : State) (q : Nat) : State :=
  bif s.iso q && !s.flag F.qchStsFatal && s.fget (F.qchUnitState q) == 0 && s.quadSettled q then
    let t := s.endIsolation q
    forUpTo 36 (fun l u => u.resync (36 * q + l)) t
  else s

/-- Something holds domain `n` in reset (Table 17.3). -/
def State.heldInReset (s : State) (n : Nat) : Bool :=
  s.pwr.porLow || s.pwr.rstLow
  || (Nat.blt 0 s.pwr.ctrl && !(Nat.ble 45 n && Nat.ble n 46 && bitAt s.pwr.keep (n - 45)))
  || s.bitOf (bif Nat.blt n 32 then Reg.pwrHold0 else Reg.pwrHold1) (n % 32)
  || (Nat.ble 45 n && Nat.ble n 46 && bitAt s.pwr.perst (n - 45))

/-- Domain `n` may become READY: it is in RESET, nothing holds it and it is not being switched off. -/
def State.mayReady (s : State) (n : Nat) : Bool := s.domState n == 2 && !s.goingOff n && !s.heldInReset n

/-- Domain `n` becomes READY (R449, R461); with the MAC domain the fetches of its quadrant go on. -/
def State.becomeReady (s : State) (n : Nat) : State :=
  bif !s.mayReady n then s
  else
    let t := (s.setDomState n 3).domFollow n
    bif n == 48 then t.resyncAll
    else bif Nat.blt n 45 then
      let q := (n - 1) / 11
      let t := t.when ((n - 1) % 11 == 0) (fun u => (forUpTo 36 (fun l v => v.resync (36 * q + l)) u).fetchPump q 64)
      t.tryEndIso q
    else t

/-- A controller reset takes effect (R455): PD01 to PD51 but `keep` enter reset; `cause` is 1 for RST_N, 2 for
CTRL_RST. -/
def State.controllerReset (s : State) (keep : Nat → Bool) (cause : Nat) : State :=
  let t := (s.fput F.pwrCauseCtrl cause).cntF F.pwrCauseCtrlCnt
  eachOf ((List.range 52).filter (fun n => n != 0 && !keep n)) (fun n u => u.dropDomain n false false) t

/-! ### Requests (R451) -/

/-- One pass over the changes of a request: `new` wanted, `old` in force, `no` refused. A switch-on whose Requires
domain is not wanted, and a switch-off that a wanted domain requires, is taken back. -/
def refusePass (old : Nat) (x : Nat × Nat) : Nat × Nat :=
  (List.range 52).foldl (fun x n =>
    let need := match requiresOf n with
      | some r => bitAt x.1 r
      | none => true
    bif bitAt x.1 n && !bitAt old n && !need then (withBits x.1 n 1 0, x.2 ||| 2 ^ n)
    else bif !bitAt x.1 n && bitAt old n && (List.range 52).any (fun m => bitAt x.1 m && requiresOf m == some n) then
      (withBits x.1 n 1 1, x.2 ||| 2 ^ n)
    else x) x

/-- The requests in force after a write of `new`, and the domains refused. -/
def acceptRequest (old new : Nat) : Nat × Nat :=
  refusePass old (refusePass old (refusePass old (refusePass old (new, 0))))

/-- Domain `n` is switched off (R449, R451): its clamps set and its work ends. -/
def State.switchOff (s : State) (n : Nat) : State :=
  bif s.domState n == 0 || s.goingOff n then s
  else
    let t := bif s.domState n == 1 then s.setDomState n 2 else s.dropDomain n true false
    (({ t with pwr := { t.pwr with offing := t.pwr.offing ||| 2 ^ n } }).showBusy).domFollow n

/-- Refused changes show in REFUSED and REF_DOM. -/
def State.showRefused (s : State) (no : Nat) : State :=
  match (List.range 52).find? (fun n => bitAt no n) with
  | some n => (s.fset F.pwrStsRefused true).fput F.pwrStsRefDom n
  | none => s

/-- A write of PWR_ON_j (R451); a request of PWR_ON_1 takes the place of the automatic ones. -/
def State.writePwrOn (s : State) (j w : Nat) : State :=
  let old := s.requested
  let new := bif j == 0 then withBits (withBits old 0 32 w) 0 1 1 else withBits old 32 20 w
  let r := acceptRequest old new
  let t := ((s.wr Reg.pwrOn0 (r.1 % 2 ^ 32)).wr Reg.pwrOn1 (r.1 / 2 ^ 32)).showRefused r.2
  let t := { t with pwr := { t.pwr with auto := bif j == 0 then t.pwr.auto else 0 } }
  eachOf ((List.range 52).filter (fun n => bitAt old n && !bitAt r.1 n)) (fun n u => u.switchOff n) t

/-- The automatic requests of R458: PD45 to PD47. -/
def autoMask : Nat := 0xE000

/-- A write of PWR_CTL: CTRL_RST starts a controller reset (R455). HOST_AUTO cleared before the first lock takes the
automatic requests back (R458). -/
def State.writePwrCtl (s : State) (w : Nat) : State :=
  let t := s.store Reg.pwrCtl w
  let t := t.when (!t.flag F.pwrCtlHostAuto && !t.inv.started) (·.clr Reg.pwrOn1 t.pwr.auto)
  bif bitAt w 0 then
    let keep := bit (t.flag F.pwrCtlKeepHa) + 2 * bit (t.flag F.pwrCtlKeepHb)
    let held := bif t.pwr.ctrl == 0 then keep else t.pwr.keep &&& keep
    ({ t with pwr := { t.pwr with ctrl := t.pwr.ctrl + 1, keep := held } }).controllerReset
      (fun n => Nat.ble 45 n && Nat.ble n 46 && bitAt keep (n - 45)) 2
  else t

/-- A write of PWR_HOLD_j: every domain whose bit is 1 is held in reset (Table 17.3). -/
def State.writePwrHold (s : State) (j w : Nat) : State :=
  let a := bif j == 0 then Reg.pwrHold0 else Reg.pwrHold1
  let t := s.store a w
  eachOf ((List.range 52).filter (fun n => n / 32 == j && t.bitOf a (n % 32) && t.ready n)) (fun n u => u.dropDomain n false false) t

/-! ### Device reset (R455) -/

/-- A word of the AON ring. -/
def aonWord (a : Nat) : Bool := Nat.ble 0x200000 a && Nat.blt a 0x400000

/-- The requests of `s` stay in force beside the automatic ones (R455, R458). -/
def State.keepRequests (r s : State) : State :=
  let t := (r.wr Reg.pwrOn0 (s.rd Reg.pwrOn0)).wr Reg.pwrOn1 (s.rd Reg.pwrOn1 ||| autoMask)
  { t with pwr := { t.pwr with auto := autoMask &&& (autoMask ^^^ (s.rd Reg.pwrOn1 &&& autoMask)) } }

/-- A device reset: everything but the queue, the levels of the reset pins, the Keep store and the test access
port returns to its reset value; `cause` is PWR_CAUSE.DEV. A cold power-up clears the AON ring too (R434). Any other
leaves the domains that are requested on (R455), to which the automatic power-up adds its own: DEDUCED, log entry 143. The
outputs are undriven while POR_N is low (Table 17.4). -/
def State.deviceReset (s : State) (cause : Nat) : State :=
  let r : State := { State.reset with
    pending := s.pending, out := s.out, free := s.free, tap := s.tap
    regs := bif cause == 1 then [] else s.regs.filter (fun x => aonWord x.1)
    injected := s.injected.filter (fun x => Nat.ble (2 ^ 41) x.1 || (cause != 1 && aonWord x.1))
    brz := { keep := s.brz.keep }
    pins := bif s.pwr.porLow then [] else State.reset.pins
    pwr := { porLow := s.pwr.porLow, rstLow := s.pwr.rstLow, perst := s.pwr.perst } }
  (r.when (cause != 1) (·.keepRequests s)).fput F.pwrCauseDev cause

/-- The outputs of PD00 once it drives them. -/
def State.drivePd00 (s : State) : State := { s with pins := State.reset.pins }

/-- The time PLL locks (R63, R458): the counter starts at 0 with the first lock. INV_STS.OSC_OK sets with the lock, which
needs OSC_IN: DESIGN CHOICE, log entry 139. -/
def State.pllLock (s : State) : State :=
  let t := (s.fset F.invStsPllLock true).fset F.invStsOscOk true
  let t := bif t.inv.started then t
    else
      let u := { t with counter := 0, inv := { t.inv with started := true } }
      u.when (u.flag F.pwrCtlHostAuto) (·.orw Reg.pwrOn1 autoMask)
  t.fset F.qchStsAlive (t.flag F.qchCtlAliveEn && !t.flag F.qchStsFatal)

end Sys2Proof.Machine
end

