-- ==== Sys2Proof/Machine/Quench.lean ====
section
/-! DEFINITION. Quench: the reports, grace timers, recoveries and register writes of chapter 15. -/

namespace Sys2Proof.Machine

/-! ### Reports (R414, R416) -/

/-- The causes of a report whose domains are READY (R450): a block in another domain reports nothing. -/
def State.liveCauses (s : State) (n mask : Nat) : Nat :=
  (List.range 16).foldl (fun m j => bif bitAt mask j && s.ready (causeDom n j) then m + 2 ^ j else m) 0

/-- Error pins pulse in one handshake: sources with their cause masks. -/
def State.errorPins (s : State) (rs : List (Nat × Nat)) : State :=
  let live := (rs.map (fun x => (x.1, s.liveCauses x.1 x.2))).filter (fun x => x.2 != 0 && Nat.blt x.1 64)
  bif live.isEmpty then s else s.report live

/-- W1C bits `w` of QCH_FSW_j (R418): the status bit and the causes clear, and the grace timer stops (R419). A report of
the same handshake on a source whose bit is set wins: the bit stays 1 and CAUSE takes the new bits (R424). -/
def State.clearFsw (s : State) (j w : Nat) (rs : List (Nat × Nat)) : State :=
  let t := eachOf ((List.range 32).filter (fun i => bitAt w i)) (fun i t =>
    let n := 32 * j + i
    (t.fput (F.qchSrc1Cause n) 0).when (!rs.any (fun x => x.1 == n && s.liveCauses x.1 x.2 != 0))
      (fun u => (u.fset (fswBit n) false).fset (pendBit n) false)) s
  (t.errorPins rs).driveFault

/-- A write of QCH_FSW_j in a handshake without reports. -/
def State.writeFsw (s : State) (j w : Nat) : State := s.clearFsw j w []

/-- Grace timers that expire in one handshake (R419, R424): a fatal reaction first, then the contained ones. -/
def State.graceExpire (s : State) (ns : List Nat) : State :=
  let due := ns.filter (fun n => Nat.blt n 64 && s.flag (pendBit n))
  (eachOf due (fun n u => u.fset (pendBit n) false) s).reactAll due

/-! ### Recovery (R421, R422) -/

/-- The kept recovery instants after a recovery: the last 8 automatic ones; a write of RECOVER empties them. -/
def State.keepRecovery (s : State) (u : Nat) (auto : Bool) : State :=
  { s with kept := Table.put [] (bif auto then (s.now :: s.keptOf u).take 8 else []) u s.kept }

/-- Unit `u` recovers: a quadrant's domains that are on are reset, the descriptor engine first, so that no entry whose
frame waits in a MAC completes (R239), and its isolation ends once they are READY; a Spine unit leaves reset. -/
def State.recoverUnit (s : State) (u : Nat) (auto : Bool) : State :=
  let t := ((s.fput (F.qchUnitState u) 0).cntF (F.qchUnitRcnt u)).keepRecovery u auto
  let n := t.fget (F.qchUnitRcnt u)
  let t := (t.brzEvent (0x60 + u) 97 u n 0).notice (0x60 + u) 97 u [n, 0, 0]
  let t := bif Nat.blt u 4 then
      (eachOf [8, 0, 1, 2, 3, 4, 5, 6, 7, 9, 10] (fun i v => v.dropDomain (qDom u i) false true) t).tryEndIso u
    else bif u == 4 then t.resyncAll else t
  t.driveFault

/-- A report of a contained or fatal source of unit `u` is among those of a handshake (R421). -/
def State.reportsUnit (s : State) (u : Nat) (rs : List (Nat × Nat)) : Bool :=
  rs.any (fun x => s.targetOf x.1 == u && s.fget (F.qchSrc0Class x.1) != 0 && s.liveCauses x.1 x.2 != 0)

/-- The quiet period of unit `u` ends in the handshake of the reports `rs`: they are taken first, and one of the unit
restarts the period (R421, R424). -/
def State.quietEnds (s : State) (u : Nat) (rs : List (Nat × Nat)) : State :=
  let t := s.errorPins rs
  t.when (t.fget (F.qchUnitState u) == 1 && !s.reportsUnit u rs) (·.recoverUnit u true)

/-- A write of QCH_UNIT_u. -/
def State.writeUnit (s : State) (u w : Nat) : State :=
  s.when (bitAt w 2 && s.fget (F.qchUnitState u) == 2 && !s.flag F.qchStsFatal) (·.recoverUnit u false)

/-! ### Register writes (R417, R425, R427, R428) -/

/-- The ALIVE square wave by network time (R425). -/
def State.showAlive (s : State) : State :=
  bif s.flag F.invStsPllLock && s.inv.started && s.flag F.qchCtlAliveEn && !s.flag F.qchStsFatal then
    (s.fset F.qchStsAlive true).pin Pin.alive (bif Nat.blt (s.nsec % 1000000) 500000 then 2 else 1)
  else s

/-- A write of QCH_CTL (Table 15.8). -/
def State.writeQchCtl (s : State) (w : Nat) : State :=
  let t := s.store Reg.qchCtl w
  let t := bif t.flag F.qchCtlAliveEn then t.showAlive else t.aliveLow
  let t := t.when (bitAt w 2) (·.fset F.qchStsFirstV false)
  t.when (bitAt w 3) (·.errorPins [(63, 1)])

/-- How many memories an injection source names: its causes (R428, Table 15.1). -/
def injectionCauses (n : Nat) : Nat :=
  bif Nat.blt n 32 then (bif n % 8 == 2 then 5 else bif n % 8 == 3 then 2 else 0)
  else bif Nat.ble 34 n && Nat.ble n 40 then 1
  else bif n == 57 then 5 else 0

/-- A write of QCH_INJ (R428): an armed injection stays, and one that names no memory is ignored. -/
def State.writeInj (s : State) (w : Nat) : State :=
  let bits := bitsOf w 12 2
  bif s.flag F.qchInjArm || !Nat.blt (bitsOf w 8 3) (injectionCauses (bitsOf w 0 6)) || bits == 0 || bits == 3 then s
  else s.wr Reg.qchInj w

/-! ### Commands -/

/-- FAULT_REPORT (R416, R417): the sources whose error pins pulse in one handshake, each with its causes. -/
def execFaultReport (rs : List (Nat × Nat)) (s : State) : Host.Outcome State Fault Refusal :=
  .next (s.atDom 0 fun t => (t.errorPins rs).hiddenPass 57 3 0)

/-- FAULT_CLEAR (R418, R424): QCH_FSW_j is written, in one handshake with reports. -/
def execFaultClear (j : Nat) (x : ClearWrite) (s : State) : Host.Outcome State Fault Refusal :=
  .next (s.atDom 0 (·.clearFsw j x.word x.reports))

/-- GRACE_EXPIRE (R419, R424). -/
def execGraceExpire (ns : List Nat) (s : State) : Host.Outcome State Fault Refusal := .next (s.atDom 0 (·.graceExpire ns))

/-- QUIET_EXPIRE (R421, R424): a unit in QUIET recovers. -/
def execQuietExpire (e : QuietEnd) (s : State) : Host.Outcome State Fault Refusal :=
  .next (s.atDom 0 (·.quietEnds e.unit e.reports))

/-- RECOVER (R422, R424): QCH_UNIT_u is written with RECOVER = 1. Where grace timers expire in the same handshake, their reactions are taken first, and one on a LATCHED unit leaves the write ignored. -/
def execRecover (u : Nat) (x : RecoverWrite) (s : State) : Host.Outcome State Fault Refusal :=
  .next (s.atDom 0 fun t =>
    let due := x.due.filter (fun n => Nat.blt n 64 && t.flag (pendBit n))
    bif due.isEmpty then t.writeUnit u (x.word ||| 4)
    else
      let v := t.graceExpire x.due
      v.when (!due.any (fun n => t.targetOf n == u)) (·.writeUnit u (x.word ||| 4)))

/-- KICK (R427): QCH_WD is written with KICK = 1; the timer restarts. -/
def execKick (w : Nat) (s : State) : Host.Outcome State Fault Refusal :=
  .next (s.atDom 0 (·.store Reg.qchWd (w ||| 2)))

/-- WATCHDOG_EXPIRE (R427). -/
def execWatchdogExpire (s : State) : Host.Outcome State Fault Refusal :=
  .next (s.atDom 0 fun t => t.when (t.flag F.qchWdWdEn) (·.errorPins [(63, 2)]))

/-- SW_FATAL (R427): QCH_CTL is written with SW_FATAL = 1. -/
def execSwFatal (w : Nat) (s : State) : Host.Outcome State Fault Refusal := .next (s.atDom 0 (·.writeQchCtl (w ||| 8)))

/-- FIRST_CLR (R417): QCH_CTL is written with FIRST_CLR = 1. -/
def execFirstClr (w : Nat) (s : State) : Host.Outcome State Fault Refusal := .next (s.atDom 0 (·.writeQchCtl (w ||| 4)))

/-- INJECTION_ARM (R428): QCH_INJ is written with ARM = 1. -/
def execInjectionArm (w : Nat) (s : State) : Host.Outcome State Fault Refusal :=
  .next (s.atDom 0 (·.writeInj (w ||| 2 ^ 31)))

/-- ALIVE_TOGGLE (R425). -/
def execAliveToggle (s : State) : Host.Outcome State Fault Refusal := .next (s.atDom 0 (·.showAlive))

end Sys2Proof.Machine
end

