-- ==== Sys2Proof/Machine/Redundancy.lean ====
section
/-! DEFINITION. The redundancy commands: staged table access, the bucket calculator, the Source Table verdict and
the sweeps (R189 to R194, R200). -/

namespace Sys2Proof.Machine

/-- A write of DUP_STG_CMD (R194): while BUSY = 1 it is ignored and counted. -/
def State.writeDupStg (s : State) (q w : Nat) : State :=
  bif s.flag (F.dupStgCmdGoBusy q) then s.cntF (F.dupErrStgLost q)
  else
    let t := s.store (Reg.dupStgCmd q) w
    let i := t.fget (F.dupStgCmdIndex q)
    let f := t.flag (F.dupStgCmdTable q)
    t.when (bitAt w 31) fun u =>
      (bif u.flag (F.dupStgCmdOp q) then u.dupEntryRead q i f else u.dupEntryWrite q i f).fset (F.dupStgCmdGoBusy q) true

/-- DUP_HASH for the key held (R189). -/
def State.dupRehash (s : State) (q : Nat) : State :=
  s.fput (F.dupHashBucket q)
    (sourceBucket (2 ^ 32 * s.fget (F.dupHashKey1SaHi q) + s.rd (Reg.dupHashKey0 q)) (s.fget (F.dupHashKey1Pair q)))

/-- DUP_STAGED_WRITE (R194): DUP_STG_CMD is written with GO and OP = WRITE. -/
def execDupStagedWrite (q w : Nat) (s : State) : Host.Outcome State Fault Refusal :=
  .next (s.atReg (Reg.dupStgCmd q) fun t => (t.writeDupStg q (withBits (w ||| 2 ^ 31) 17 1 0)).reportReads)

/-- DUP_STAGED_READ (R194): DUP_STG_CMD is written with GO and OP = READ. -/
def execDupStagedRead (q w : Nat) (s : State) : Host.Outcome State Fault Refusal :=
  .next (s.atReg (Reg.dupStgCmd q) fun t => (t.writeDupStg q (w ||| 2 ^ 31 ||| 2 ^ 17)).reportReads)

/-- DUP_STAGED_DONE (R194): BUSY clears. -/
def execDupStagedDone (q : Nat) (s : State) : Host.Outcome State Fault Refusal :=
  .next (s.atDom (qDom q 7) (·.fset (F.dupStgCmdGoBusy q) false))

/-- DUP_HASH_KEY_WRITE (R189): key word `j` is written. -/
def execDupHashKeyWrite (q j w : Nat) (s : State) : Host.Outcome State Fault Refusal :=
  .next (s.atReg (Reg.dupHash q) fun t =>
    (t.store (bif j == 0 then Reg.dupHashKey0 q else Reg.dupHashKey1 q) w).dupRehash q)

/-- The bytes of a frame that port `p` of an HSR pair receives go into the pass-through buffer towards its twin. -/
def State.passWritten (s : State) (p : Nat) : State :=
  s.when (s.pairMode (pairOf p) == 2) (·.hiddenWritten (8 * (p / 36) + 2) 3 (twinOf p % 36))

/-- SOURCE_LOOKUP_DONE (R190): the verdict for the tagged frame that port `p` receives, of which the bytes `l`
have arrived; `bad` names a way of its bucket that cannot be read (R204). -/
def execSourceLookupDone (p : Nat) (pre : Bool) (l : List Byte) (bad : Option Nat) (s : State) :
    Host.Outcome State Fault Refusal :=
  .next (s.when (s.qReady (p / 36) 0 && s.qReady (p / 36) 7 && s.flag (F.macCtlEn p)
    && s.pairMode (pairOf p) != 0) fun t =>
      ((t.rxLookup p pre false l bad).passWritten p).reportReads)

/-- The word at `a` is one of quadrant `q`'s Source Table, or of its FRER table. -/
def inSources (q a : Nat) : Bool := Nat.ble (sourceAddr q 0 0) a && Nat.blt a (sourceAddr q 65536 0)
def inFrer (q a : Nat) : Bool := Nat.ble (frerAddr q 0 0) a && Nat.blt a (frerAddr q 4096 0)

/-- AGE_SWEEP (R192): every valid entry of quadrant `q` ages one tick. -/
def execAgeSweep (q : Nat) (s : State) : Host.Outcome State Fault Refusal :=
  .next (s.atDom (qDom q 7) fun t =>
    (eachOf (t.sourceListed q) (fun i u => u.ageEntry q i) (t.touchAll (inSources q))).reportReads)

/-- FRER_SWEEP (R200): every recovery function of quadrant `q` is visited. -/
def execFrerSweep (q : Nat) (s : State) : Host.Outcome State Fault Refusal :=
  .next (s.atDom (qDom q 7) fun t =>
    (eachOf (t.frerListed q) (fun f u => u.frerSweepOne q f) (t.touchAll (inFrer q))).reportReads)

end Sys2Proof.Machine
end

