-- ==== Sys2Proof/Machine/Schedule.lean ====
section
/-! DEFINITION. The schedule commands: the Schedule Book's banks and walk, edges at their comparators, fabric guards
and credit shapers (R53 to R56, R145 to R177). -/

namespace Sys2Proof.Machine

/-! ### Shaper entries (R172 to R177) -/

/-- The shaper whose entry holds window offset `o` of quadrant `q`; none for a hole of Table 6.15. -/
def shaperAt (q o : Nat) : Option Nat :=
  bif Nat.ble 0x120000 o && Nat.blt o 0x122400 && Nat.blt (o % 0x100) 0x80 then
    some (svcKey (36 * q + (o - 0x120000) / 0x100) (o % 0x100 / 16))
  else bif Nat.ble 0x130000 o && Nat.blt o 0x130240 then some (prtKey (36 * q + (o - 0x130000) / 16))
  else bif Nat.ble 0x140000 o && Nat.blt o 0x180000 then some (subKey q ((o - 0x140000) / 16))
  else none

/-- Reserved bits of word `j` of an entry are 0 (Table 6.15). -/
def shaperMask (k j : Nat) : Nat :=
  [0x01FFFFFF, 0xFFFFFFFF, 0xFFFFFFFF, bif keyLevel k == 0 then 0x73F else 0].getD j 0

/-- The credit of a shaper after a write of word `j` of its entry (R176): a change of I leaves it, but for a positive
credit above the new HI_CREDIT, and a change of a limit cuts it into the new range. -/
def State.cutCredit (s : State) (k j : Nat) (c : Int) : Int :=
  match j with
  | 0 => bif decide (0 < c) then min (s.shpHi k) c else c
  | 1 => min (s.shpHi k) (max (s.shpLo k) c)
  | 2 => min (s.shpHi k) (max (s.shpLo k) c)
  | _ => c

/-- Write word `j` of a shaper entry: enabling sets the credit to 0 (R176, R177). -/
def State.writeShaper (s : State) (k j w : Nat) : State :=
  let c := s.creditNow k
  let was := s.shpOn k
  let old := s.shpPort k
  let t := s.wr (shpEntry k + 4 * j) (w &&& shaperMask k j)
  let m := (t.shp k).mode
  let t := bif was then t.setShp k { credit := t.cutCredit k j c, at' := t.counter, mode := m }
    else t.setShp k { credit := 0, at' := t.counter, mode := 0 }
  let t := (t.shpSettle old k).refresh old
  bif t.shpPort k == old then t else (t.shpSettle (t.shpPort k) k).refresh (t.shpPort k)

/-- The shaper that SHP_PEEK_SEL names, if the quadrant has it. -/
def peekKey (q level index : Nat) : Option Nat :=
  match level with
  | 0 => some (subKey q index)
  | 1 => bif Nat.blt index 288 then some (svcKey (36 * q + index / 8) (index % 8)) else none
  | _ => bif Nat.blt index 36 then some (prtKey (36 * q + index)) else none

/-- The readout registers take the state of a shaper (Table 6.13); one that does not exist shows credit 0, eligible. -/
def State.showShaper (t : State) (q : Nat) : Option Nat → State
  | none => (t.wr (Reg.shpPeekCredit q) 0).wr (Reg.shpPeekSts q) 1
  | some k =>
    (t.wr (Reg.shpPeekCredit q) (encodeSigned (t.creditNow k / 1024) 32)).wr (Reg.shpPeekSts q)
      (bit (t.shpEligible k) + 2 * bit ((t.shp k).mode == 1) + 4 * bit ((t.shp k).mode == 3))

/-- A write of SHP_PEEK_SEL captures the shaper's state. -/
def State.writeShpPeek (s : State) (q w : Nat) : State :=
  let t := s.store (Reg.shpPeekSel q) w
  t.showShaper q (peekKey q (t.fget (F.shpPeekSelLevel q)) (t.fget (F.shpPeekSelIndex q)))

/-- A write of GATE_CTL: the list opens or takes the quadrant's gates (Table 6.12). -/
def State.writeGateCtl (s : State) (q w : Nat) : State :=
  let t := s.store (Reg.gateCtl q) w
  bif t.flag (F.gateCtlEn q) == s.flag (F.gateCtlEn q) then t
  else forUpTo 36 (fun i u => u.resync (36 * q + i)) t

/-! ### Comparators (R54, R55) -/

/-- The Quench source and cause of a late arm at the comparator of `kind` for index `n`: quadrant edges, TPULSE,
or the switched Spine. -/
def lateSource (kind n : Nat) : Nat × Nat :=
  bif Nat.ble kind 3 then (8 * (n / 36) + 6, 1) else bif kind == 4 then (59, 1) else (51, 0)

/-- A late action (R55). -/
def State.lateArm (s : State) (kind n : Nat) : State :=
  (s.cnt Reg.hscLateArm).corrected (lateSource kind n).1 (lateSource kind n).2

/-- A computed edge of the list reaches the comparator of its port, or is discarded at the gate of its quadrant (R158,
R450). -/
def State.armList (s : State) (kind p t : Nat) : State :=
  let mine := fun (e : Edge) => e.port == p && e.kind == kind && e.t == t
  bif !s.scb.edges.any mine then s
  else bif !s.gateReach p then (s.onEdges (fun l => l.filter (fun e => !mine e))).isoDrop p
  else (s.arming).onEdges (fun l => l.map (fun e => bif mine e then { e with armed := true, order := s.armings + 1 } else e))

/-- The action reaches its comparator: kinds 0 and 1 an edge of the list, 2 and 3 a guard edge; the others are armed
where their instants are kept. -/
def State.armEdge (s : State) (kind n t : Nat) : State :=
  match kind with
  | 0 => s.armList 0 n t
  | 1 => s.armList 1 n t
  | 2 => s.armGuard n t
  | 3 => s.armReopen n t
  | _ => s

/-- The follower whose comparator releases an action of `kind` for index `n` (Table 2.4): that of the port's quadrant,
or the switched Spine's. -/
def armFollower (kind n : Nat) : Nat := bif Nat.ble kind 3 then n / 36 else 4

/-- The count that the comparator of `kind` compares with: a pulse output's is the master counter, in PD00. -/
def State.armNow (s : State) (kind n : Nat) : Nat := bif kind == 4 then s.now else s.folNow (armFollower kind n)

/-- The action reaches a comparator (R55): it has been computed or is on its way, and no gate discards it. -/
def State.arrives (s : State) (kind n t : Nat) : Bool :=
  match kind with
  | 0 => s.gateReach n && s.scb.edges.any (fun e => e.port == n && e.kind == 0 && e.t == t)
  | 1 => s.gateReach n && s.scb.edges.any (fun e => e.port == n && e.kind == 1 && e.t == t)
  | 2 => s.gateReach n && s.scb.guards.any (Guard.fresh n t)
  | 3 => s.gateReach n && s.scb.guards.any (fun g => g.port == n && g.live && g.reopen == t)
  | 4 => s.ready 0 && s.flag (F.tpulseStsRunning n) && (s.train n).edge == t
  | 5 => s.fabWorks && s.fab.running.any (fun c => c.id == n && !c.executed && c.tc == t)
  | 6 => s.ready 51 && !s.unitHeld 8 && s.cbState (n / 4096) != cbOff
  | _ => false

/-- A late action is executed on arrival (R55). -/
def State.actLate (s : State) (kind n t : Nat) : State :=
  match kind with
  | 0 => s.fireAt n 0 t
  | 1 => s.fireAt n 1 t
  | 2 => s.closeLate n t
  | 3 => s.reopenLate n t
  | 4 => s.atDom 0 (·.pulseEdge n)
  | 5 => s.when s.fabWorks fun t => (match t.fab.running.find? (fun c => c.id == n && !c.executed) with
    | some c => t.execute c
    | none => t)
  | 6 => s.onStar (·.guardOpen (n / 4096) (n % 4096) false)
  | _ => s

/-! ### The Schedule Book -/

/-- The old list's entries at or after T_sw have been withdrawn, and none of them is handed over (R152). -/
def State.cutAt (s : State) (t : Nat) : Bool := s.pastSwitch t && Nat.ble s.scb.next (s.folNow 4 + 1600)

/-- Hand one COMMIT entry over, or skip one that cannot be read (R154, R179). -/
def State.handNext (s : State) (bad : Bool) : State :=
  match s.nextCommit s.scb.walk with
  | none => s
  | some x =>
    bif Nat.blt (s.folNow 4 + 1000 * s.fget F.scbCtlRunahead) x.1 || s.cutAt x.1 then s
    else
      let b := s.fget F.scbStsActBank
      let t := { s with scb := { s.scb with walk := x.1 + 1 } }.commitRead b x.2
      bif bad || !s.commitReadable b x.2 then (t.scbCount 4).scbEvent 4 else t.handOver x.1 x.2.tgt x.2.arg

/-- The touched rows and columns of a commit arrive (R167, R179): one whose masks arrive while the Schedule Book does
not work stays unguarded, and one that has executed by then counts at once. -/
def State.masksArrive (s : State) (id : Nat) : State :=
  match s.commitOf id with
  | none => s
  | some c =>
    bif c.unguarded then s
    else bif s.scbWorks then s.learn id c.tc c.moves
    else (s.onCommit id (fun x => { x with unguarded := true })).when c.executed (·.fabCount 16)

/-- EDGE_COMPUTE_START (R54): the Schedule Book begins the edge of `kind` (0 gate, 1 hold raise, 2 guard close,
3 guard reopen) of port `p` at instant `t`; guard edges are computed when the commit is learned. The list entries `bad`
cannot be read: each is skipped and counted (R179). An edge of the pending list takes its place beside one of the old list,
which the switch withdraws (R152). -/
def execEdgeComputeStart (kind p t : Nat) (bad : List Nat) (s : State) : Host.Outcome State Fault Refusal :=
  .next (s.when (s.scbWorks && Nat.ble kind 1) fun u =>
    let at' := bif kind == 1 then t + u.holdAdv p else t
    let v := u.when (u.listAt at') (·.entriesRead (u.bankAt at') bad)
    (match v.listEdge p kind t bad with
    | some e => v.onEdges (fun l => bif l.any (fun x => x.port == p && x.kind == kind && x.t == t && x.fresh == e.fresh) then l else l ++ [e])
    | none => v).reportReads)

/-- ACTION_ARMED (R55): the action of `kind` for index `n` with instant `t` reaches its comparator: 0 to 3 as above
for port `n`, 4 TPULSE `n`, 5 the fabric commit with number `n`, 6 the window `n` % 4096 of Cabinet Bus channel
`n` / 4096. One that comes after its tick is counted, reported and executed at once; one that reaches no comparator is
not. -/
def execActionArmed (kind n t : Nat) (s : State) : Host.Outcome State Fault Refusal :=
  .next ((s.armEdge kind n t).when (s.arrives kind n t && Nat.blt t (s.armNow kind n)) fun v =>
    ((v.lateArm kind n).actLate kind n t).reportReads)

/-- SCHEDULE_GO (R150): SCB_ACT is written with GO. -/
def execScheduleGo (w : Nat) (s : State) : Host.Outcome State Fault Refusal :=
  .next (s.atReg Reg.scbAct (·.writeScbAct (w ||| 1)))

/-- SCHEDULE_ABORT (R151): SCB_ACT is written with ABORT. -/
def execScheduleAbort (w : Nat) (s : State) : Host.Outcome State Fault Refusal :=
  .next (s.atReg Reg.scbAct (·.writeScbAct (w ||| 4)))

/-- VALIDATION_DONE (R150). -/
def execValidationDone (s : State) : Host.Outcome State Fault Refusal := .next (s.when s.scbWorks (·.validated))

/-- SCHEDULE_RAM_WRITE (R149): the word at BAR0 offset `a`. -/
def execScheduleRamWrite (a w : Nat) (s : State) : Host.Outcome State Fault Refusal :=
  .next (s.atReg a fun t => (t.when (t.schedOpen a) (·.memWritten 34 0 a)).writeSched a w)

/-- BANK_SWITCH (R151). -/
def execBankSwitch (s : State) : Host.Outcome State Fault Refusal := .next (s.when s.scbWorks (·.bankSwitch))

/-- SCB_CYCLE_START (R153). -/
def execScbCycleStart (s : State) : Host.Outcome State Fault Refusal := .next (s.when s.scbWorks (·.cycleStart))

/-- COMMIT_HANDOFF (R154): the next COMMIT entry; `bad` says that it cannot be read. -/
def execCommitHandoff (bad : Bool) (s : State) : Host.Outcome State Fault Refusal :=
  .next (s.when (s.scbWorks && s.listRuns) (fun t => (t.handNext bad).reportReads))

/-- SCHEDULE_ENABLE (R157): SCB_CTL is written. -/
def execScheduleEnable (w : Nat) (s : State) : Host.Outcome State Fault Refusal :=
  .next (s.atReg Reg.scbCtl (·.writeScbCtl w))

/-- GATE_TRANSITION (R160): the port's list comparator sets its gates. -/
def execGateTransition (p : Nat) (s : State) : Host.Outcome State Fault Refusal := .next (s.fireEdge p 0)

/-- HOLD_RAISE (R160). -/
def execHoldRaise (p : Nat) (s : State) : Host.Outcome State Fault Refusal := .next (s.fireEdge p 1)

/-- HOLD_RELEASE (R160): the hold release of the next armed edge of the port acts, and the edge keeps its gates. -/
def execHoldRelease (p : Nat) (s : State) : Host.Outcome State Fault Refusal :=
  .next (match firstEdge p 0 s.validEdges with
    | none => s
    | some e => s.when (e.hold == 1) fun t =>
      (t.onEdges (fun l => l.map (fun x => bif x == e then { x with hold := 0 } else x))).actEdge
        { e with kind := 1 })

/-- TOUCHED_MASKS_RECEIVED (R167). -/
def execTouchedMasksReceived (id : Nat) (s : State) : Host.Outcome State Fault Refusal := .next (s.masksArrive id)

/-- GUARD_CLOSE (R167). -/
def execGuardClose (p : Nat) (s : State) : Host.Outcome State Fault Refusal := .next (s.guardCloses p)

/-- GUARD_REOPEN (R168). -/
def execGuardReopen (p : Nat) (s : State) : Host.Outcome State Fault Refusal := .next (s.guardReopens p)

/-- SHAPER_ENTRY_WRITE (R176): the shaper word at window offset `o` of quadrant `q`. -/
def execShaperEntryWrite (q o w : Nat) (s : State) : Host.Outcome State Fault Refusal :=
  .next (match shaperAt q o with
    | none => s
    | some k => s.atReg (shpEntry k) fun t => (t.memWritten (8 * q + 2) 2 (shpEntry k + o % 16)).writeShaper k (o % 16 / 4) w)

/-- SHAPER_PEEK (R173). -/
def execShaperPeek (q w : Nat) (s : State) : Host.Outcome State Fault Refusal :=
  .next (s.atReg (Reg.shpPeekSel q) (·.writeShpPeek q w))

/-- SHAPER_CREDIT_ZERO (R173): the credit of a waiting shaper of port `p` has reached 0; selection is
re-evaluated. -/
def execShaperCreditZero (p : Nat) (s : State) : Host.Outcome State Fault Refusal :=
  .next (s.atDom (qDom (p / 36) 0) (·.refresh p))

end Sys2Proof.Machine
end

