-- ==== Sys2Proof/Machine/RegWrite.lean ====
section
/-! DEFINITION. Which operation a write of each register or table word carries out (R14, R31, R32). -/

namespace Sys2Proof.Machine

/-! ### Words whose writes act and that no other file covers -/

/-- A write of MAC_CTL: with EN cleared the port is not UP for transmission, and what it receives is dropped
(R109). -/
def State.writeMacCtl (s : State) (p w : Nat) : State :=
  let t := s.store (Reg.macCtl p) w
  bif s.flag (F.macCtlEn p) && !t.flag (F.macCtlEn p) then
    ((((t.cutTx p).rxAbandon p false).rxAbandon p true).refresh p).showLine p
  else (t.refresh p).showLine p

/-- A write of a trim entry: the group reads as written by the host (R352). -/
def State.writeTrim (s : State) (a w : Nat) : State :=
  let o := a - 0x44000
  (s.store a w).when (!s.locked a && implOf a != 0) (fun t =>
    t.putStatus (o / 0x3000) (o % 0x3000 / 0x80) (F.anlGroupHostw (o / 0x3000) (o % 0x3000 / 0x80)) 1)

/-- A word of a Cell Table or Cell Target entry (R280); reserved bits are 0 (R278, R279). -/
def State.writeCellWord (s : State) (q a v : Nat) : State :=
  let o := windowOff a
  bif Nat.ble 0x480000 o then s.writeTarget q a v
  else bif !s.flag (F.nitCtlEn q) then s.wr a (bif o % 8 == 0 then v else v &&& 0x1FFFFF)
  else bif o % 8 == 0 then s.nitCount q 19
  else s.wr a (withBits (s.rd a) 0 12 (clampNat 256 4095 (bitsOf v 0 12)))

/-- Bits of word `j` of a policy entry that hold state (Table 11.6). -/
def policyMask (j : Nat) : Nat :=
  [0xFFFF0737, 0xFF, 0x03FF01FF, 0x03FF01FF, 0x03FF01FF, 0x03FF01FF, 0x03FF03FF, 0x03FF03FF].getD j 0

/-- A write into Map RAM: map slots and the policy table; F ignores writes (R311). -/
def State.writeMap (s : State) (a v : Nat) : State :=
  bif Nat.blt a 0x880000 then s.wr a v
  else bif Nat.blt a 0x888000 then s.wr a (v &&& policyMask (a % 32 / 4))
  else s

/-- A register of ring `r` at offset `o` of its block. -/
def State.writeRingWord (s : State) (r o a v : Nat) : State :=
  bif o == 0x18 then s.writeRingCtl r v
  else bif o == 0x1C then s.writeRingSts r v
  else bif o == 0x20 then s.writeRingHead r v
  else s.store a v

/-! ### The Spine -/

/-- GLB_ and PWR_. -/
def State.writeGlbPwr (s : State) (a v : Nat) : State :=
  bif a == Reg.hscSlkCtl then s.writeSlkCtl v
  else bif a == Reg.hscVid then s.writeVid v
  else bif Nat.ble 0x1000 a && Nat.blt a 0x1480 then s.writeRingWord (spineRing a) (a % 0x40) a v
  else bif a == Reg.ntcCons 0 then s.writeNtcCons 0 v
  else bif a == Reg.ntcCons 1 then s.writeNtcCons 1 v
  else bif a == Reg.pwrCtl then s.writePwrCtl v
  else bif a == Reg.pwrOn0 then s.writePwrOn 0 v
  else bif a == Reg.pwrOn1 then s.writePwrOn 1 v
  else bif a == Reg.pwrHold0 then s.writePwrHold 0 v
  else bif a == Reg.pwrHold1 then s.writePwrHold 1 v
  else s.store a v

/-- QCH_. -/
def State.writeQch (s : State) (a v : Nat) : State :=
  bif a == Reg.qchCtl then s.writeQchCtl v
  else bif a == Reg.qchFsw0 then s.writeFsw 0 v
  else bif a == Reg.qchFsw1 then s.writeFsw 1 v
  else bif a == Reg.qchInj then s.writeInj v
  else bif Nat.ble (Reg.qchUnit 0) a && Nat.ble a (Reg.qchUnit 10) then s.writeUnit ((a - Reg.qchUnit 0) / 4) v
  else bif Nat.ble (Reg.qchSrc0 0) a then (s.store a v).driveFault
  else s.store a v

/-- INV_. -/
def State.writeInv (s : State) (a v : Nat) : State :=
  bif a == Reg.invCtl then s.writeInvCtl v
  else bif a == Reg.invSet0 then s.timeSet v
  else bif a == Reg.invAdj0 then s.timeAdjust v
  else bif a == Reg.invRateSet then s.writeRateSet v
  else bif a == Reg.invVtrim then s.writeVtrim v
  else bif a == Reg.invServoLim then s.writeServoLim v
  else bif a == Reg.invPtpCtl then s.writePtpCtl v
  else bif Nat.ble 0x30200 a && Nat.blt a 0x30280 && a % 32 == 16 then s.writeTcap ((a - 0x30200) / 32) v
  else bif Nat.ble 0x30300 a && Nat.blt a 0x30380 && a % 32 == 24 then s.writePulse ((a - 0x30300) / 32) v
  else bif Nat.ble 0x34000 a && Nat.blt a 0x36400 && a % 64 == 0 then s.writePctl ((a - 0x34000) / 64) v
  else s.store a v

/-- ANL_, SUP_ and BRZ_; a write of BRZ_SW_0 submits the requester's record. -/
def State.writeAnlSupBrz (s : State) (q : Requester) (a v : Nat) : State :=
  bif a == Reg.anlCtl then s.writeAnlCtl v
  else bif Nat.ble 0x44000 a && Nat.blt a 0x50000 then s.writeTrim a v
  else bif a == Reg.supCtl then s.writeSupCtl v
  else bif a == Reg.supExt then s.writeSupExt v
  else bif a == Reg.brzCtl then s.writeBrzCtl v
  else bif a == Reg.brzSw0 then s.softRecord q v
  else s.store a v

/-- MTX_, BMV_, SEAL_ and EVR_. -/
def State.writeMatrix (s : State) (a v : Nat) : State :=
  bif a == Reg.mtxCtl then s.writeMtxCtl v
  else bif Nat.ble 0x80000 a && Nat.blt a 0x80200 && a % 0x40 == 0x14 then s.writeBmvCtl ((a - 0x80000) / 0x40) v
  else bif Nat.ble 0x90000 a && Nat.blt a 0x90800 && a % 0x100 == 0 then s.writeSealCtl ((a - 0x90000) / 0x100) v
  else bif Nat.ble 0x90000 a && Nat.blt a 0x90800 && a % 0x100 == 8 then s.when (bitAt v 0) (·.sealStart ((a - 0x90000) / 0x100))
  else bif a == Reg.evrSoft then s.when (bitAt v 0) (·.pulse 23)
  else s.store a v

/-- CBS_ and the mode tables; a channel enables nothing in the safe state (R423). -/
def State.writeCbs (s : State) (a v : Nat) : State :=
  let c := (a - 0xB1000) / 0x1000
  bif Nat.ble 0xC0000 a then s.writeMode a v
  else bif Nat.blt a 0xB1000 || Nat.ble 0xB5000 a then s
  else bif a == Reg.cbsCtl c then s.when (!(s.flag F.qchStsFatal && bitAt v 0)) (·.writeCbCtl c v)
  else bif a == Reg.cbsModeReq c then s.writeModeReq c v
  else bif a == Reg.cbsSpokeEn c then s.writeSpokeEn c v
  else bif Nat.ble 0x840 ((a - 0xB1000) % 0x1000) && a % 0x40 == 0 then
    (s.store a v).when (bitAt v 3) (·.hostUnblock c (((a - 0xB1000) % 0x1000 - 0x800) / 0x40))
  else s.store a v

/-- FAB_, POL_, SCB_, and the memories behind SCH, MAP and BKP. -/
def State.writeFabScb (s : State) (a v : Nat) : State :=
  bif a == Reg.fabCtl then s.writeFabCtl v
  else bif a == Reg.fabLoad then s.writeFabLoad v
  else bif a == Reg.scbCtl then s.writeScbCtl v
  else bif a == Reg.scbAct then s.writeScbAct v
  else bif Nat.blt a 0x200000 then s.store a v
  else bif Nat.blt a 0x400000 then s
  else bif Nat.blt a 0x800000 then s.writeSched a v
  else s.writeMap a v

/-- A write of the Spine word at `a`. -/
def State.writeSpine (s : State) (q : Requester) (a v : Nat) : State :=
  bif Nat.blt a 0x40000 then
    (bif Nat.blt a 0x20000 then s.writeGlbPwr a v else bif Nat.blt a 0x30000 then s.writeQch a v else s.writeInv a v)
  else bif Nat.blt a 0x70000 then s.writeAnlSupBrz q a v
  else bif Nat.blt a 0xB0000 then s.writeMatrix a v
  else bif Nat.blt a 0x100000 then s.writeCbs a v
  else s.writeFabScb a v

/-! ### Quadrant windows -/

/-- MAC_, PCS_ and SDS_ of quadrant `q` at window offset `o`. -/
def State.writeMacWord (s : State) (q o a v : Nat) : State :=
  let p := 36 * q + o / 0x1000
  bif Nat.ble 0x24000 o then s.store a v
  else match o % 0x1000 with
  | 0x00 => s.writeMacCtl p v
  | 0x14 | 0x18 => (s.store a v).showStopped p
  | 0x20 => s.writePeCtl p v
  | 0x40 => s.writePcsCtl p v
  | _ => s.store a v

/-- CLS_ and MTR_. -/
def State.writeClsWord (s : State) (q o a v : Nat) : State :=
  bif a == Reg.clsStgCmd q then s.writeClsStg q v
  else bif a == Reg.clsHashKey0 q || a == Reg.clsHashKey1 q then (s.store a v).clsRehash q
  else bif a == Reg.mtrPeekIdx q then s.writeMtrPeek q v
  else bif Nat.blt o 0x80000 then s.store a v
  else bif Nat.blt o 0xC0000 then s.writeStream q ((o - 0x80000) / 16) (o % 16 / 4) v
  else s.writeMeter q ((o - 0xC0000) / 16) (o % 16 / 4) v

/-- GATE_ and SHP_. -/
def State.writeGateWord (s : State) (q o a v : Nat) : State :=
  bif a == Reg.gateCtl q then s.writeGateCtl q v
  else bif a == Reg.shpPeekSel q then s.writeShpPeek q v
  else bif Nat.ble 0x101000 o && Nat.blt o 0x102200 then (s.store a v).refresh (36 * q + (o - 0x101000) / 0x80)
  else match shaperAt q o with
  | some k => s.writeShaper k (o % 16 / 4) v
  | none => s.store a v

/-- DUP_, the FRER table and its counters, which are read-only. -/
def State.writeDupWord (s : State) (q o a v : Nat) : State :=
  bif a == Reg.dupStgCmd q then s.writeDupStg q v
  else bif a == Reg.dupHashKey0 q || a == Reg.dupHashKey1 q then (s.store a v).dupRehash q
  else bif Nat.ble 0x190000 o && Nat.blt o 0x1A0000 then s.writeFrer q ((o - 0x190000) / 16) (o % 16 / 4) v
  else s.store a v

/-- NIT_ and GRF_. -/
def State.writeNitGrf (s : State) (q o a v : Nat) : State :=
  bif a == Reg.nitCtl q then s.writeNitCtl q v
  else bif a == Reg.nitCellCmd q then s.writeCellCmd q v
  else bif a == Reg.nitLaneTest0 q || a == Reg.nitLaneTest1 q then s.orw a v
  else bif a == Reg.grfCtl q then s.writeGrfCtl q v
  else bif a == Reg.lldCtl q then (s.store a v).lldArmAll q
  else bif Nat.ble 0x3C2000 o && Nat.blt o 0x3C3000 && o % 16 == 4 then (s.store a v).lldArm (256 * q + (o - 0x3C2000) / 16)
  else s.store a v

/-- A write of the word at `a` of quadrant `q`'s window. -/
def State.writeWindow (s : State) (q a v : Nat) : State :=
  let o := windowOff a
  bif Nat.blt o 0x180000 then
    (bif Nat.blt o 0x40000 then s.writeMacWord q o a v
    else bif Nat.blt o 0x100000 then s.writeClsWord q o a v else s.writeGateWord q o a v)
  else bif Nat.blt o 0x200000 then
    (bif Nat.blt o 0x1C0000 then s.writeDupWord q o a v
    else bif Nat.ble 0x1C1000 o && Nat.blt o 0x1CA000 then s.writeRingWord (576 * q + (o - 0x1C1000) / 0x40) (o % 0x40) a v
    else s.store a v)
  else bif Nat.blt o 0x400000 then s.writeNitGrf q o a v
  else bif Nat.blt o 0x4C0000 then s.writeCellWord q a v
  else bif Nat.ble 0x600000 o && Nat.blt o 0x700000 then s.writeSource q ((o - 0x600000) / 16) (o % 16 / 4) v
  else s

/-- A write of the whole word at BAR0 offset `a` reaches its register. -/
def State.writeReg (s : State) (q : Requester) (a v : Nat) : State :=
  bif Nat.blt a 0x1000000 then s.writeSpine q a v else s.writeWindow (quadOf a) a v

end Sys2Proof.Machine
end

