-- ==== Sys2Proof/Machine/Access.lean ====
section
/-! DEFINITION. An access of a requester to the BAR0 image: reaching the target, wide values, the words that show a
live value, and the memory words with inverted check bits (R15 to R17, R28, R392, R399 to R401, R428, R450). -/

namespace Sys2Proof.Machine

/-! ### Gates (R28, R392) -/

/-- The internal address of BAR0 offset `a`. -/
def bar0Base : Nat := 0x100000000

/-- What the matrix answers an access of master `m` to BAR0 offset `a` (R28, R392, R401, R450). -/
inductive Gate where
  | open'
  | def'
  | shut
  deriving DecidableEq, Repr

/-- The gate of an access: DEF for an unconnected target, the isolation gate of a domain that is not READY or of an
isolated quadrant. -/
def State.gateOf (s : State) (m a : Nat) : Gate :=
  let t := targetOfWord a
  bif t == 15 || !connected m t then .def'
  else bif s.ready (domainOf a) && (Nat.blt a 0x1000000 || !s.iso (quadOf a)) then .open' else .shut

/-- The requester can issue accesses: its own domain is READY, its matrix port does not drain (R403), and the matrix
is READY, but that the Service Port reaches PD00 blocks by a path of PD00 (R458). -/
def State.issues (s : State) (q : Requester) : Bool :=
  s.ready 0 && !s.flag (F.mtxOutRst (masterOf q)) && (match q with
    | .hostA => s.ready 45 && s.ready 47
    | .hostB => s.ready 46 && s.ready 47
    | .servicePort => true
    | .bulkMover => s.ready 47
    | .sequencer => s.ready 50 && s.ready 47)

/-! ### Memory words with inverted check bits (R428) -/

/-- The memory, by source and cause, that holds the word at `a`. -/
def memoryOf (a : Nat) : Option (Nat × Nat) :=
  bif Nat.blt a 0x1000000 then
    (bif Nat.ble 0x41000 a && Nat.blt a 0x41800 || Nat.ble 0x44000 a && Nat.blt a 0x50000 then some (37, 0)
    else bif Nat.ble 0x90000 a && Nat.blt a 0x90800 && (a % 0x100 == 4 || Nat.ble 0x40 (a % 0x100) && Nat.blt (a % 0x100) 0x90) then some (40, 0)
    else bif Nat.ble 0xC0000 a && Nat.blt a 0x100000 then some (38, 0)
    else bif Nat.ble 0x200000 a && Nat.blt a 0x400000 then some (57, 1)
    else bif Nat.ble 0x400000 a && Nat.blt a 0x800000 then some (34, 0)
    else bif Nat.ble 0x800000 a then some (35, 0) else none)
  else
    let o := windowOff a
    let q := quadOf a
    bif Nat.ble 0x80000 o && Nat.blt o 0x100000 then some (8 * q + 2, 1)
    else bif Nat.ble 0x120000 o && Nat.blt o 0x180000 then some (8 * q + 2, 2)
    else bif (Nat.ble 0x190000 o && Nat.blt o 0x1C0000) || Nat.ble 0x600000 o then some (8 * q + 2, 3)
    else bif Nat.ble 0x400000 o && Nat.blt o 0x600000 then some (8 * q + 3, 1) else none

/-- A host write of the memory word at `a` stores it now: not a locked trim or status word of Anneal (R356), a frozen
Schedule RAM bank or mode (R149, R368), the map in force, a Keep word, the first word of a Cell Table entry in operation
(R280), or a word that only its block writes. -/
def State.takesWrite (s : State) (a : Nat) : Bool :=
  bif Nat.blt a 0x1000000 then
    (bif Nat.ble 0x41000 a && Nat.blt a 0x50000 then !s.locked a
    else bif Nat.ble 0x90000 a && Nat.blt a 0x90800 then a % 0x100 != 4
    else bif Nat.ble 0xC0000 a && Nat.blt a 0x100000 then s.modeOpen a
    else bif Nat.ble 0x400000 a && Nat.blt a 0x800000 then s.schedOpen a
    else !(Nat.ble 0x200000 a && Nat.blt a 0x400000) && Nat.blt a 0x888000)
  else !(Nat.ble 0x1A0000 (windowOff a) && Nat.blt (windowOff a) 0x1C0000) && !Nat.ble 0x700000 (windowOff a)
    && !(Nat.ble 0x400000 (windowOff a) && Nat.blt (windowOff a) 0x480000 && a % 8 == 0 && s.flag (F.nitCtlEn (quadOf a)))

/-- A read of the word under `key`: one with inverted check bits is reported, and one that cannot be corrected reads
a free value. -/
def State.memRead (s : State) (key n : Nat) : State × Nat :=
  let x := Table.get 0 key s.injected
  bif x == 0 then (s, n)
  else bif s.readable key then (s.report [injReport x], n)
  else ((s.report [injReport x]).useFree, s.freeVal 32)

/-! ### Reads -/

/-- A word of the Keep page window: record `i` of the selected page, while it lies below COUNT (Table 16.11). -/
def State.keepPage (s : State) (a : Nat) : Nat :=
  let b := s.fget F.brzKeepSelBank
  let i := 1024 * s.fget F.brzKeepSelPage + (a - 0x68000) / 32
  bif Nat.blt i (s.keepWord b 3) then s.keepWord b (8 + 8 * i + a % 32 / 4) else 0

/-- A word of a Cabinet Bus channel: with NT_EN = 1, RHO and NT_SAT follow network time while the channel is on (R365). -/
def State.cbWord (s : State) (a : Nat) : Nat :=
  match (List.range 4).find? (fun c => s.flag (F.cbsCtlNtEn c) && s.cbState c != cbOff
      && (a == Reg.cbsRate c || a == Reg.cbsSts c)) with
  | none => s.rd a
  | some c => bif a == Reg.cbsRate c then withBits (s.rd a) (F.cbsRateRho c).lo 16 (encodeSigned (s.cbRho c) 16)
    else withBits (s.rd a) (F.cbsStsNtSat c).lo 1 (bit (Nat.blt 2621 s.ntRho.natAbs))

/-- The value that a read of the register at `a` shows now. -/
def State.liveWord (s : State) (a : Nat) : Nat :=
  bif a == Reg.invNow0 then s.nsec
  else bif a == Reg.invNow1 then s.sec % 2 ^ 32
  else bif a == Reg.invNow2 then s.sec / 2 ^ 32 + 2 ^ 16 * (s.counter % nsUnit / 2 ^ 32)
  else bif a == Reg.invHold then withBits (s.rd a) 0 16 s.holdSeconds
  else bif Nat.ble (Reg.qchUnit 0) a && Nat.ble a (Reg.qchUnit 10) then
    withBits (s.rd a) 8 4 (s.hourCount ((a - Reg.qchUnit 0) / 4))
  else bif Nat.ble 0xB0000 a && Nat.blt a 0xC0000 then s.cbWord a
  else bif a == Reg.brzKeepSts then withBits (s.rd a) 4 1 (bit (s.flag F.brzKeepStsBusy || !s.brz.checked))
  else bif Nat.ble 0x60060 a && Nat.blt a 0x60080 then s.keepWord (s.fget F.brzKeepSelBank) ((a - 0x60060) / 4)
  else bif Nat.ble 0x68000 a && Nat.blt a 0x70000 then s.keepPage a
  else bif Nat.ble 0x1000000 a && Nat.blt (windowOff a) 0x24000 && a % 0x1000 == 0x1C then
    withBits (s.rd a) 16 16 (s.quantaLeft (36 * quadOf a + windowOff a / 0x1000))
  else s.rd a

/-- A read of the lowest word of a wide value captures the upper words (R17). -/
def State.capture (s : State) (q : Requester) (a : Nat) : State :=
  eachOf (upperWords a) (fun u t => t.setShadow q u (s.liveWord u)) s

/-- A ring record with a word that cannot be corrected is presented with V = 0 (R447). -/
def State.ringMark (s : State) (a n : Nat) : Nat :=
  bif Nat.ble 0x200000 a && Nat.blt a 0x400000 && a % 32 == 28 && !(List.range 8).all (fun j => s.readable (a - 28 + 4 * j)) then
    n % 2 ^ 31 else n

/-- The memory word that a read at `a` shows: a Keep word behind the Keep windows, otherwise the word at `a`. -/
def State.wordKey (s : State) (a : Nat) : Nat :=
  let b := s.fget F.brzKeepSelBank
  let i := 1024 * s.fget F.brzKeepSelPage + (a - 0x68000) / 32
  bif Nat.ble 0x60060 a && Nat.blt a 0x60080 then keepKey b ((a - 0x60060) / 4)
  else bif Nat.ble 0x68000 a && Nat.blt a 0x70000 && Nat.blt i (s.keepWord b 3) then keepKey b (8 + 8 * i + a % 32 / 4) else a

/-- A read that reaches the word at `a`. -/
def State.readReg (s : State) (q : Requester) (a : Nat) : State × Nat :=
  match wideLow a with
  | some _ => (s, s.shadowOf q a)
  | none =>
    let r := (s.capture q a).memRead (s.wordKey a) (s.liveWord a)
    (r.1, s.ringMark a r.2)

/-! ### Writes -/

/-- Merge the enabled bytes of `v` into `old`. -/
def mergeBytes (old v be : Nat) : Nat :=
  (List.range 4).foldl (fun n i => bif bitAt be i then withBits n (8 * i) 8 (bitsOf v (8 * i) 8) else n) old

/-- The word that a write of `v` with byte enables `be` gives its register or memory word: at REG a partial write is
discarded (R16); a memory behind another target takes the enabled bytes (R397). -/
def State.wholeWord (s : State) (a v be : Nat) : Option Nat :=
  bif be % 16 == 15 then some (v % 2 ^ 32)
  else bif targetOfWord a == 0 then none
  else some (mergeBytes (s.rd a) v be)

/-- A whole write that reaches the word at `a` (R17): an upper word of a wide value is staged, its write-one bits
act at once, and a lowest word takes what is staged. -/
def State.writeWhole (s : State) (q : Requester) (a v : Nat) : State :=
  match wideLow a with
  | some _ =>
    let w := actsAtOnce a
    (s.stage q a (some (v &&& (0xFFFFFFFF ^^^ w)))).when (w != 0) (·.writeReg q a (v &&& w))
  | none =>
    let t := s.applyStaged q a
    let t := match memoryOf a with
      | some m => t.when (t.takesWrite a) (·.memWritten m.1 m.2 a)
      | none => t
    t.writeReg q a v

/-- A write of the word at `a` that has reached its block; a block held in reset takes none. -/
def State.writeReached (s : State) (q : Requester) (a v be : Nat) : State :=
  bif s.blockHeld a then s
  else match s.wholeWord a v be with
  | some w => s.writeWhole q a w
  | none => s

/-! ### Accesses to the BAR0 image -/

/-- The quadrants whose Anneal step an access of the sequencer at an internal address belongs to: the quadrant of
the window that it names, otherwise every quadrant. -/
def stepQuads (addr : Nat) : List Nat :=
  bif Nat.ble (bar0Base + 0x1000000) addr && Nat.blt addr (bar0Base + 0x3000000) then [quadOf (addr - bar0Base)]
  else [0, 1, 2, 3]

/-- The error flag reaches the sequencer: its running step ends ERROR (R401). -/
def State.seqError (s : State) (addr : Nat) : State :=
  eachOf (stepQuads addr) (fun q t => t.when (Nat.blt 0 (t.anlOf q).stage) (·.endStep q 4)) s

/-- DEF or an isolation gate answers: counted and logged while the matrix runs; the sequencer's step ends (R401). -/
def State.refuse (s : State) (m addr : Nat) (write iso : Bool) : State :=
  s.when (s.ready 47) fun t => (t.defAccess addr m write iso false).when (m == 8) (·.seqError addr)

/-- A write of master `m`, as requester `q`, at BAR0 offset `a`, after which what its block has read with inverted check
bits is reported (R428); the answer says whether the error flag returns. -/
def State.busWrite (s : State) (m : Nat) (q : Requester) (a v be : Nat) : State × Bool :=
  match s.gateOf m a with
  | .open' => ((s.writeReached q (a / 4 * 4) v be).reportReads, false)
  | .def' => (s.refuse m (bar0Base + a) true false, true)
  | .shut => (s.refuse m (bar0Base + a) true true, true)

/-- A read; DEF and the gates answer all ones with the error flag (R401). -/
def State.busRead (s : State) (m : Nat) (q : Requester) (a : Nat) : State × Nat × Bool :=
  match s.gateOf m a with
  | .open' =>
    let r := s.readReg q (a / 4 * 4)
    (r.1, r.2, false)
  | .def' => (s.refuse m (bar0Base + a) false false, 0xFFFFFFFF, true)
  | .shut => (s.refuse m (bar0Base + a) false true, 0xFFFFFFFF, true)

/-- The bits of the bytes that byte enables address. -/
def laneMask (be : Nat) : Nat := mergeBytes 0 0xFFFFFFFF be

/-! ### BAR2 (R32) -/

/-- A write of the Vector Control word of an MSI-X entry that unmasks a pending vector sends it (PCI Express 5.0). -/
def State.msixUnmask (s : State) (h v : Nat) : State :=
  let o := 0x18000 + 4 * (v / 32)
  bif !bitAt (s.msixWord h (0x1000C + 16 * v)) 0 && bitAt (s.msixWord h o) (v % 32) then
    (s.setMsix h o (withBits (s.msixWord h o) (v % 32) 1 0)).emit (.msix h v)
  else s

/-- A write of host `h` at BAR2 offset `o`: a doorbell, an MSI-X table word, or nothing. Of an MSI-X word the enabled bytes
are written and the others stay: DESIGN CHOICE, log entry 75. -/
def State.bar2Write (s : State) (h o v be : Nat) : State :=
  bif Nat.blt o 0x4890 then s.when (s.ringWorks (o / 8)) (·.ringDoorbell (o / 8))
  else bif Nat.ble 0x10000 o && Nat.blt o 0x18000 then
    let o := o / 4 * 4
    (s.setMsix h o (mergeBytes (s.msixWord h o) v be)).when (o % 16 == 12) (·.msixUnmask h ((o - 0x10000) / 16))
  else s

/-- What a read of host `h` at BAR2 offset `o` returns: the MSI-X table and the pending bits; the doorbells and the
unused ranges read 0. -/
def State.bar2Read (s : State) (h o : Nat) : Nat :=
  bif Nat.ble 0x10000 o && Nat.blt o 0x18100 then s.msixWord h (o / 4 * 4) else 0

/-- The host that a requester is. -/
def hostOf : Requester → Option Nat
  | .hostA => some 0
  | .hostB => some 1
  | _ => none

/-! ### Commands -/

/-- A register write of a requester at BAR0 offset `a`. -/
def State.regWrite (s : State) (q : Requester) (a v be : Nat) : State :=
  s.when (s.issues q) fun t => ((t.granting (masterOf q) (targetOfWord a)).busWrite (masterOf q) q a v be).1

/-- What a requester sees of a read of the bytes that `be` addresses (R16, R401): a host whose read failed sees
Unsupported Request while UR_EN = 1. -/
def State.answer (s : State) (q : Requester) (addr be n : Nat) (err : Bool) : State :=
  bif err && (hostOf q).isSome && s.flag F.mtxCtlUrEn then s.emit (.unsupported q addr)
  else s.emit (.readData q addr (n &&& laneMask be))

/-- A register read of a requester at BAR0 offset `a`; the addressed bytes leave the block. -/
def State.regRead (s : State) (q : Requester) (a be : Nat) : State :=
  s.when (s.issues q) fun t =>
    let r := (t.granting (masterOf q) (targetOfWord a)).busRead (masterOf q) q a
    r.1.answer q a be r.2.1 r.2.2

/-- A host's read of a BAR (Table 1.5): BAR2 holds doorbells and MSI-X words; BAR4 and BAR5 are not implemented and
read 0. -/
def State.barRead (s : State) (q : Requester) (h bar o be : Nat) : State :=
  bif bar == 2 then s.emit (.readData q o (s.bar2Read h o &&& laneMask be)) else s.emit (.readData q o 0)

/-- WIDE_LOW_WORD_READ (R16, R17, R32): a read of BAR0, or by a host of another BAR. -/
def execWideLowWordRead (q : Requester) (r : BusRead) (s : State) : Host.Outcome State Fault Refusal :=
  .next (bif r.bar == 0 then s.regRead q r.addr r.be
  else match hostOf q with
    | some h => s.when (s.issues q) (·.barRead q h r.bar r.addr r.be)
    | none => s)

end Sys2Proof.Machine
end

