-- ==== Sys2Proof/Machine/Anneal.lean ====
section
/-! DEFINITION. The commands of Anneal (chapter 12). They act while PD50 is READY and unit 7 is not held in
reset. -/

namespace Sys2Proof.Machine

/-- Anneal works. -/
def State.onAnneal (s : State) (f : State → State) : State := s.when (s.ready 50 && !s.unitHeld 7) f

/-- ZONE_SAMPLE (R343, R344): on-die zone `z` = 0..15 reads `temp`; 0x8000 is invalid. -/
def execZoneSample (z temp : Nat) (s : State) : Host.Outcome State Fault Refusal :=
  .next (s.onAnneal (fun t => t.when (Nat.blt z 16) (·.zoneReading z (temp % 65536) (temp % 65536 != 0x8000))))

/-- PASS_MAX_AGE (R344): MAX_AGE seconds have passed since the last pass of `q` completed. -/
def execPassMaxAge (q : Nat) (s : State) : Host.Outcome State Fault Refusal :=
  .next (s.onAnneal (fun t => t.when (t.fget F.anlCfgMaxAge != 0 && t.flag F.anlCtlEn) (·.passDue q)))

/-- RUN_NOW (R344): a write `w` of ANL_CTL with RUN_NOW of quadrant `q`. -/
def execRunNow (q w : Nat) (s : State) : Host.Outcome State Fault Refusal :=
  .next (s.atReg Reg.anlCtl (·.writeAnlCtl (w ||| 2 ^ (4 + q % 4))))

/-- ANNEAL_STEP_START (R346). -/
def execAnnealStepStart (q : Nat) (s : State) : Host.Outcome State Fault Refusal := .next (s.onAnneal (·.stepStart q))

/-- ANNEAL_TABLE_LOAD (R352); `bad` says that a table word of the group cannot be read (R357). -/
def execAnnealTableLoad (q : Nat) (bad : Bool) (s : State) : Host.Outcome State Fault Refusal :=
  .next (s.onAnneal (fun t => (t.tableLoad q bad).reportReads))

/-- ANNEAL_ENABLE (R352): a write `w` of ANL_CTL with EN = 1. -/
def execAnnealEnable (w : Nat) (s : State) : Host.Outcome State Fault Refusal :=
  .next (s.atReg Reg.anlCtl (·.writeAnlCtl (w ||| 1)))

/-- UNCAL_BATCH_WRITE (R353). -/
def execUncalBatchWrite (q : Nat) (s : State) : Host.Outcome State Fault Refusal := .next (s.onAnneal (·.uncalBatch q))

end Sys2Proof.Machine
end

