-- ==== Sys2Proof/Machine/Bronze.lean ====
section
/-! DEFINITION. The commands of Bronze and Supply Watch (chapter 16). -/

namespace Sys2Proof.Machine

/-- BRONZE_EVENT (R430, R432, R435, R436). -/
def execBronzeEvent (code block index arg0 arg1 : Nat) (s : State) : Host.Outcome State Fault Refusal :=
  .next (s.atDom 0 fun s => bif listedCode code then s.brzEvent code block index arg0 arg1 else s)

/-- BRONZE_RECORD_WRITE (R431, R435). -/
def execBronzeRecordWrite (s : State) : Host.Outcome State Fault Refusal :=
  .next (s.atDom 0 fun t =>
    let n := t.rd Reg.brzWseq
    let u := t.writeRecord
    u.when (u.rd Reg.brzWseq != n) (·.entryWritten 57 1 (ringWordAt n 0) 8))

/-- BRONZE_WINDOW_START (R436). -/
def execBronzeWindowStart (s : State) : Host.Outcome State Fault Refusal := .next (s.atDom 0 (·.brzWindow))

/-- FREEZE (R438): a write `w` of BRZ_CTL. -/
def execFreeze (w : Nat) (s : State) : Host.Outcome State Fault Refusal :=
  .next (s.atDom 0 (·.writeBrzCtl (w ||| 1)))

/-- UNFREEZE (R438): a write `w` of BRZ_CTL. -/
def execUnfreeze (w : Nat) (s : State) : Host.Outcome State Fault Refusal :=
  .next (s.atDom 0 (·.writeBrzCtl (w ||| 2)))

/-- KEEP_FLUSH_DONE (R439). -/
def execKeepFlushDone (s : State) : Host.Outcome State Fault Refusal := .next (s.atDom 0 (·.endFlush.reportReads))

/-- KEEP_CHECK_DONE (R440). -/
def execKeepCheckDone (s : State) : Host.Outcome State Fault Refusal := .next (s.atDom 0 (·.keepCheck.reportReads))

/-- BRONZE_READY (R434). -/
def execBronzeReady (s : State) : Host.Outcome State Fault Refusal := .next (s.atDom 0 (·.brzStart.reportReads))

/-- SOFTWARE_RECORD (R440): a write `w` of BRZ_SW_0 by a requester. -/
def execSoftwareRecord (req : Requester) (w : Nat) (s : State) : Host.Outcome State Fault Refusal :=
  .next (s.atDom 0 (·.softRecord req w))

/-- SUPPLY_SAMPLE (R442, R443). -/
def execSupplySample (raw : Nat) (s : State) : Host.Outcome State Fault Refusal :=
  .next (s.atDom 0 fun t => (t.supplySample raw).hiddenPass 57 2 0)

/-- RIPPLE_WINDOW_END (R443). -/
def execRippleWindowEnd (s : State) : Host.Outcome State Fault Refusal := .next (s.atDom 0 (·.rippleWindow))

/-- PFW_ASSERT (R444). -/
def execPfwAssert (s : State) : Host.Outcome State Fault Refusal := .next (s.atDom 0 (·.pfwAssert))

/-- PFW_RELEASE (R444). -/
def execPfwRelease (s : State) : Host.Outcome State Fault Refusal :=
  .next (s.atDom 0 fun s => bif s.flag F.supStsPfw then (s.brzEvent 0x79 99 0 0 0).fset F.supStsPfw false else s)

end Sys2Proof.Machine
end

