-- ==== Sys2Proof/Machine/Bus.lean ====
section
/-! DEFINITION. Bursts of the bus matrix, the Bulk Mover's transfers and the Service Port (R392 to R406, R476, R477). -/

namespace Sys2Proof.Machine

/-! ### Words by internal address -/

/-- The key that names a Code RAM word among the injected words. -/
def codeKey (w : Nat) : Nat := 0x8000000 + w

/-- A write of a word at an internal address (R35, R398, R401): Boot ROM writes and addresses outside every target
go to DEF, as does a host's memory for a master that is not connected to it. -/
def State.intWrite (s : State) (m : Nat) (q : Requester) (addr v be : Nat) : State × Bool :=
  match s.placeOf addr with
  | .bar0 a => s.busWrite m q a v be
  | .code o =>
    bif !connected m 1 then (s.refuse m addr true false, true)
    else bif !s.ready 50 then (s.refuse m addr true true, true)
    else
      let w := o / 4
      let n := mergeBytes (Table.get 0 w s.code) v be
      ({ s with code := Table.put 0 n w s.code }.memWritten 39 0 (codeKey w), false)
  | _ => (s.refuse m addr true false, true)

/-- A read of a word at an internal address. -/
def State.intRead (s : State) (m : Nat) (q : Requester) (addr : Nat) : State × Nat × Bool :=
  match s.placeOf addr with
  | .bar0 a => s.busRead m q a
  | .code o =>
    bif !connected m 1 then (s.refuse m addr false false, 0xFFFFFFFF, true)
    else bif !s.ready 50 then (s.refuse m addr false true, 0xFFFFFFFF, true)
    else
      let r := s.memRead (codeKey (o / 4)) (Table.get 0 (o / 4) s.code)
      (r.1.when (m == 8 && Table.get 0 (codeKey (o / 4)) s.injected % 4 == 2) (·.fset F.mtxCtlSeqRun false), r.2, false)
  | .boot o =>
    bif !connected m 1 then (s.refuse m addr false false, 0xFFFFFFFF, true)
    else bif !s.ready 50 then (s.refuse m addr false true, 0xFFFFFFFF, true)
    else (s, Config.bootWord (o / 4) % 2 ^ 32, false)
  | _ => (s.refuse m addr false false, 0xFFFFFFFF, true)

/-! ### Bursts (R393 to R396) -/

/-- Bytes of a master's beat (Table 14.1). -/
def beatBytes (m : Nat) : Nat := bif m == 2 || m == 8 then 4 else bif m == 9 || m == 10 then 16 else 64

/-- A burst is 1 to 16 beats and stays within 4 KiB (R395). -/
def burstOk (b : Burst) : Bool :=
  Nat.blt 0 b.words.length && Nat.ble (4 * b.words.length) (16 * beatBytes b.master)
  && Nat.ble (b.addr % 4096 + 4 * b.words.length) 4096 && b.addr % 4 == 0

/-- The master on which an idle target parks (R394): the one it last granted, or the one that REG_PARK or SEQ_PARK names
where it is connected. -/
def State.parkedOn (s : State) (t : Nat) : Option Nat :=
  bif t == 0 || t == 1 then
    let m := s.fget (bif t == 0 then F.mtxCtlRegPark else F.mtxCtlSeqPark)
    bif Nat.blt m 11 && connected m t then some m else none
  else bif Table.get 0 t s.granted == 0 then none else some (Table.get 0 t s.granted - 1)

/-- The next requesting master in ascending id after the last granted (R393). -/
def State.nextMaster (s : State) (t : Nat) (req : List Nat) : Option Nat :=
  let last := Table.get 0 t s.granted
  ((List.range 11).map (fun k => (last + k) % 11)).find? (fun m => req.any (· == m))

/-- The master that a target grants: a lone request of the master it parks on skips arbitration (R394). -/
def State.grantee (s : State) (t : Nat) (req : List Nat) : Option Nat :=
  match s.parkedOn t with
  | some m => bif req.all (· == m) && !req.isEmpty then some m else s.nextMaster t req
  | none => s.nextMaster t req

/-- The words of a granted burst are carried out in ascending address order; a read's answers leave the block. -/
def State.burstWords (s : State) (m : Nat) (q : Requester) (write : Bool) (addr : Nat) : List (Nat × Nat) → State
  | [] => s
  | x :: r =>
    let t := bif write then (s.intWrite m q addr x.1 x.2).1
      else
        let y := s.intRead m q addr
        y.1.answer q addr x.2 y.2.1 y.2.2
    t.burstWords m q write (addr + 4) r

/-- A code fetch of the sequencer that cannot be corrected stops it (R413). -/
def State.codeStop (s : State) (b : Burst) : State :=
  s.when (b.bad && b.master == 8 && s.targetOfAddr b.addr == 1) (·.fset F.mtxCtlSeqRun false)

/-! ### The Bulk Mover (R405, R406) -/

/-- Read `k` words from an internal address for the mover, in ascending order (R17, R405). -/
def State.moverWords (s : State) (addr : Nat) : Nat → State × List Nat × Bool
  | 0 => (s, [], false)
  | k + 1 =>
    let r := s.intRead 7 .bulkMover addr
    let u := r.1.moverWords (addr + 4) k
    (u.1, r.2.1 :: u.2.1, r.2.2 || u.2.2)

/-- The `len` bytes at an internal byte address. -/
def State.moverRead (s : State) (addr len : Nat) : State × List Nat × Bool :=
  let r := s.moverWords (addr / 4 * 4) ((addr % 4 + len + 3) / 4)
  (r.1, ((r.2.1.flatMap (fun w => (List.range 4).map (fun i => bitsOf w (8 * i) 8))).drop (addr % 4)).take len, r.2.2)

/-- The word at an aligned address that bytes `l` from byte address `at'` on fill, with its byte enables. -/
def wordAt (w at' : Nat) (l : List Nat) : Nat × Nat :=
  (List.range 4).foldl (fun x i =>
    bif Nat.ble at' (w + i) && Nat.blt (w + i) (at' + l.length) then
      (x.1 + l.getD (w + i - at') 0 % 256 * 2 ^ (8 * i), x.2 + 2 ^ i)
    else x) (0, 0)

/-- Write bytes to an internal address, word by word in ascending order. -/
def State.moverWrite (s : State) (w at' : Nat) (l : List Nat) : Nat → State × Bool
  | 0 => (s, false)
  | k + 1 =>
    let x := wordAt w at' l
    let r := s.intWrite 7 .bulkMover w x.1 x.2
    let u := r.1.moverWrite (w + 4) at' l k
    (u.1, r.2 || u.2)

/-- The write burst of bytes that have been read goes out (R405). -/
def State.issueWrite (s : State) (n dst : Nat) (l : List Nat) : State :=
  let s := s.granting 7 (s.targetOfAddr dst)
  let r := match s.placeOf dst with
    | .host h a => (s.emit (.hostData h a (l.map (fun b => BitVec.ofNat 8 b))), false)
    | _ => s.moverWrite (dst / 4 * 4) dst l ((dst % 4 + l.length + 3) / 4)
  (r.1.setMover n { r.1.mover n with writes := (r.1.mover n).writes ++ [(l.length, r.2)] }).outWr 1

/-- The next burst of channel `n`: a write whose bytes have been read, otherwise a read. -/
def State.issueOne (s : State) (n : Nat) : State :=
  let x := s.mover n
  bif s.mayWrite n then
    match x.held with
    | h :: r => (s.setMover n { x with held := r, late := x.late - 1 }).issueWrite n h.1 h.2
    | [] => s
  else s.issueRead n

/-- The channels issue their bursts one at a time, round-robin in ascending channel number after the one served last
(R405). -/
def State.issueBursts (s : State) : Nat → State
  | 0 => s
  | k + 1 =>
    match s.bmvTurn (fun n => s.mayWrite n || s.mayIssue n) with
    | none => s
    | some n => (({ s with bmvLast := n + 1 } : State).issueOne n).issueBursts k

/-- Count the write bursts that the limit of 64 holds back, each once (R396). -/
def State.countHeld (s : State) (n : Nat) : State :=
  let x := s.mover n
  bif s.writesFull && Nat.blt x.late x.held.length then
    eachOf (List.range (x.held.length - x.late)) (fun _ t => t.cnt (Reg.mtxCnt 2)) (s.setMover n { x with late := x.held.length })
  else s

/-- Every channel goes on after a change: a channel that has failed drops what it holds, the bursts that may go out do,
and a channel that has nothing left ends (R405, R406). -/
def State.moversGo (s : State) : State :=
  let t := forUpTo 8 (fun n u => u.when ((u.mover n).fail != 0) (fun v => v.setMover n { v.mover n with held := [], late := 0 })) s
  forUpTo 8 (fun n u => (u.countHeld n).moverCheck n) (t.issueBursts 256)

/-- The oldest read burst of channel `n` returns: from host memory with `data`, otherwise with what the model's own
words hold; `err` is the error flag of a host read. -/
def State.readReturns (s : State) (n : Nat) (data : List Nat) (err : Bool) : State :=
  let x := s.mover n
  match x.reads with
  | [] => s
  | b :: r =>
    let t := (s.setMover n { x with reads := r }).outRd (-1)
    let host := match t.placeOf (x.src + b.1) with
      | .host _ _ => true
      | _ => false
    let d := bif host then (t, (data ++ List.replicate b.2 0).take b.2, err) else t.moverRead (x.src + b.1) b.2
    let u := d.1
    let y := u.mover n
    let u := u.setMover n (bif d.2.2 then { y with fail := bif y.fail == 0 then 2 else y.fail }
      else { y with held := y.held ++ [(x.dst + b.1, d.2.1)] })
    u.moversGo

/-- The oldest write burst of channel `n` is answered. -/
def State.writeAnswered (s : State) (n : Nat) (err : Bool) : State :=
  let x := s.mover n
  match x.writes with
  | [] => s
  | w :: r =>
    let t := (s.setMover n { x with writes := r, fail := bif (w.2 || err) && x.fail == 0 then 3 else x.fail
                                    abortAt := bif w.2 || err then none else x.abortAt }).outWr (-1)
    let t := t.wr (Reg.bmvBytes n) (t.rd (Reg.bmvBytes n) + bif w.2 || err then 0 else w.1)
    t.moversGo

/-- BMV_READ_RETURN (R405). -/
def execBmvReadReturn (n : Nat) (data : List Nat) (err : Bool) (s : State) : Host.Outcome State Fault Refusal :=
  .next (s.atDom 47 (·.readReturns n data err))

/-- BMV_WRITE_RESPONSE (R406). -/
def execBmvWriteResponse (n : Nat) (err : Bool) (s : State) : Host.Outcome State Fault Refusal :=
  .next (s.atDom 47 (·.writeAnswered n err))

/-- The Bulk Mover goes on after a change from `s` that has taken the Spine's shed level to 0 (R405). -/
def State.resumed (s t : State) : State :=
  t.when (s.fget (F.hscMarginShed 4) != 0 && t.fget (F.hscMarginShed 4) == 0) (·.moversGo)

/-! ### The Service Port (R400, R476, R477) -/

/-- The internal address behind a Service Port address (R400); none outside every window. -/
def State.windowAddr (s : State) (addr : Nat) : Option Nat :=
  let n := addr / 2 ^ 30 % 4
  let off := addr % 2 ^ 30
  bif s.flag (F.mtxSpw1En n) && Nat.blt off (2 ^ s.fget (F.mtxSpw1SizeLog2 n)) then
    some (s.fget (F.mtxSpw0BaseLo n) * 4096 + s.fget (F.mtxSpw1BaseHi n) * 2 ^ 32 + off)
  else none

/-- The status byte that refuses a transaction before any access: ERR with ALIGN for an unaligned address, and with BUSY
for four pending; 0 for neither. -/
def earlyStatus (addr waiting : Nat) : Nat :=
  let align := addr % 4 != 0
  let busy := Nat.ble 4 waiting
  bif align || busy then 0x81 + 2 * bit align + 4 * bit busy else 0

/-- An access passes through the Service Port's memory: its word is written, then read, and what the access has read is
reported (R428). -/
def State.servicePass (s : State) : State := ((s.hiddenWritten 57 4 0).hiddenRead 57 4 0).reportReads

/-- The answer of a transaction is clocked out, or as many of its words as the master takes (R477). -/
def State.serviceAnswer (s : State) (cut : Option Nat) (l : List Nat) : State :=
  match cut with
  | none => s.emit (.serviceReply l)
  | some n => s.when (n != 0) (·.emit (.serviceReply (l.take n)))

/-- The access of a transaction; after an error the data of a read is all ones. -/
def State.serviceAccess (s : State) (x : SvcAccess) : State :=
  bif x.write then
    let r := match s.windowAddr x.addr with
      | some a => (s.granting 2 (s.targetOfAddr a)).intWrite 2 .servicePort a (x.word % 2 ^ 32) 15
      | none => ((s.granting 2 15).refuse 2 x.addr true false, true)
    s.resumed ((r.1.serviceAnswer x.cut [0x80 + bit r.2]).servicePass)
  else
    let r := match s.windowAddr x.addr with
      | some a => (s.granting 2 (s.targetOfAddr a)).intRead 2 .servicePort a
      | none => ((s.granting 2 15).refuse 2 x.addr false false, 0xFFFFFFFF, true)
    (r.1.serviceAnswer x.cut [0x80 + bit r.2.2, bif r.2.2 then 0xFFFFFFFF else r.2.1]).servicePass

/-- The accesses that waited for the port go on in order (R477). -/
def State.serviceGo (s : State) : State := eachOf s.svc (fun x t => t.serviceAccess x) { s with svc := [] }

/-- A Service Port transaction; `waiting` earlier accesses count as pending beside those that wait while the port drains
after a reset (R403), behind which it queues (R477). -/
def State.serviceTake (s : State) (x : SvcAccess) (waiting : Nat) : State :=
  let n := earlyStatus x.addr (waiting + s.svc.length)
  bif n != 0 then s.serviceAnswer x.cut (bif x.write then [n] else [n, 0xFFFFFFFF])
  else bif s.issues .servicePort then s.serviceGo.serviceAccess x
  else { s with svc := s.svc ++ [x] }

/-- MASTER_DRAIN_DONE (R403): nothing of the reset master is outstanding; its port takes requests again, the ones that
waited for it first. -/
def execMasterDrainDone (m : Nat) (s : State) : Host.Outcome State Fault Refusal :=
  .next (s.atDom 47 fun t => t.when (t.flag (F.mtxOutRst m)) (fun u =>
    let u := { u.wr (Reg.mtxOut m) 0 with rings := u.rings.map (fun (x : Nat × Ring) => bif ringMaster x.1 == m then (x.1, { x.2 with discard := 0 }) else x) }
    let u := (u.issueParked m false 64).issueParked m true 64
    bif m == 7 then u.moversGo else bif m == 2 then u.serviceGo else u.when (Nat.ble 3 m && Nat.ble m 6) (·.fetchPump (m - 3) 64)))

/-! ### Rows that write registers -/

/-- SHED_LEVEL_LEAVE (R47). -/
def execShedLevelLeave (u : Nat) (s : State) : Host.Outcome State Fault Refusal := .next (s.resumed (s.shedLeave u))

/-- MIN_RST (R42): a write `w` of HSC_SLK_CTL with MIN_RST = 1. -/
def execMinRst (w : Nat) (s : State) : Host.Outcome State Fault Refusal := .next (s.resumed (s.writeSlkCtl (w ||| 2 ^ 31)))

/-- REG_WRITE (R14 to R16, R32): of BAR0, or by a host of BAR2. -/
def execRegWrite (q : Requester) (bar2 : Bool) (a v be : Nat) (s : State) : Host.Outcome State Fault Refusal :=
  .next (bif bar2 then
    (match hostOf q with
    | some h => s.when (s.issues q) (·.bar2Write h a v be)
    | none => s)
  else s.resumed (s.regWrite q a v be))

/-- WIDE_UPPER_WORD_WRITE (R17). -/
def execWideUpperWordWrite (q : Requester) (a v : Nat) (s : State) : Host.Outcome State Fault Refusal :=
  .next (s.resumed (s.regWrite q a v 15))

/-- WIDE_LOW_WORD_WRITE (R17). -/
def execWideLowWordWrite (q : Requester) (a v : Nat) (s : State) : Host.Outcome State Fault Refusal :=
  .next (s.resumed (s.regWrite q a v 15))

/-! ### Granted bursts -/

/-- Master `m` is a ring engine: its accesses have commands of their own. -/
def engineMaster (m : Nat) : Bool := (Nat.ble 3 m && Nat.ble m 6) || m == 9 || m == 10

/-- MATRIX_BURST (R393 to R397): earlier transactions have ended; a master with 64 outstanding is held back. Accesses
of the ring engines have commands of their own and are counted there: of their bursts the row moves the grant and ends
earlier ones. So have the Bulk Mover's; a grant of it lets the channels go on. -/
def State.burst (s : State) (b : Burst) : State :=
  let x := outField b.master b.write
  let s := bif b.master == 7 then s
    else bif engineMaster b.master then s.transEnd b.master b.write b.ended else s.fput x (s.fget x - b.ended)
  let t := servedAt b.master (s.targetOfAddr b.addr)
  bif s.flag (F.mtxOutRst b.master) || !burstOk b then s
  else bif !engineMaster b.master && Nat.ble 64 (s.fget x) then s.cnt (Reg.mtxCnt 2)
  else bif s.grantee t (b.master :: b.requesters) != some b.master then s
  else
    let u := s.grant b.master t
    bif b.master == 7 then u.moversGo
    else bif engineMaster b.master then u
    else
      let u := u.outstanding b.master b.write
      match requesterOf b.master with
      | some q => bif u.issues q then u.resumed ((u.burstWords b.master q b.write b.addr b.words).codeStop b) else u
      | none => u

/-- MATRIX_BURST. -/
def execMatrixBurst (b : Burst) (s : State) : Host.Outcome State Fault Refusal := .next (s.atDom 47 (·.burst b))

/-! ### The Service Port -/

/-- SERVICE_PORT_WRITE (R476). -/
def execServicePortWrite (addr v : Nat) (x : SvcEnd) (s : State) : Host.Outcome State Fault Refusal :=
  .next (s.atDom 0 (·.serviceTake { write := true, addr := addr, word := v, cut := x.cut } x.waiting))

/-- SERVICE_PORT_READ (R476). -/
def execServicePortRead (addr : Nat) (x : SvcEnd) (s : State) : Host.Outcome State Fault Refusal :=
  .next (s.atDom 0 (·.serviceTake { addr := addr, cut := x.cut } x.waiting))

/-- SERVICE_PORT_UNKNOWN (R476): no access, and SP_SDO stays undriven. -/
def execServicePortUnknown (s : State) : Host.Outcome State Fault Refusal := .next s

/-- SERVICE_PORT_CUT (R477): SP_CS_N rose before the last data or address bit; no access. -/
def execServicePortCut (s : State) : Host.Outcome State Fault Refusal := .next s

end Sys2Proof.Machine
end

