-- ==== Sys2Proof/Machine/Cabinet.lean ====
section
/-! DEFINITION. The commands of the Cabinet Bus star (chapter 13). They act while PD51 is READY and unit 8 is not
held in reset. -/

namespace Sys2Proof.Machine

/-- CB_CHANNEL_ENABLE (R378): a write `w` of CBS_CTL_c with EN = 1; nothing enables a channel in the safe state. -/
def execCbChannelEnable (c w : Nat) (s : State) : Host.Outcome State Fault Refusal :=
  .next (s.atReg (Reg.cbsCtl c) (fun t => (t.when (!t.flag F.qchStsFatal) (·.writeCbCtl c (w ||| 1))).reportReads))

/-- CB_CHANNEL_DISABLE (R378): a write `w` of CBS_CTL_c with EN = 0. -/
def execCbChannelDisable (c w : Nat) (s : State) : Host.Outcome State Fault Refusal :=
  .next (s.atReg (Reg.cbsCtl c) (·.writeCbCtl c (w &&& 0xFFFFFFFE)))

/-- CB_CYCLE_START (R363); `bad` says that a channel state word cannot be read (R390). -/
def execCbCycleStart (c : Nat) (bad : Bool) (s : State) : Host.Outcome State Fault Refusal :=
  .next (s.onStar (·.cbCycleStart c bad))

/-- GUARDIAN_OPEN (R370): window `id`; `bad` says that its mode table word cannot be read. -/
def execGuardianOpen (c id : Nat) (bad : Bool) (s : State) : Host.Outcome State Fault Refusal :=
  .next (s.onStar (fun t => (t.guardOpen c id bad).reportReads))

/-- GUARDIAN_CLOSE (R370). -/
def execGuardianClose (c : Nat) (s : State) : Host.Outcome State Fault Refusal := .next (s.onStar (·.guardClose' c))

/-- CB_SOF_ARRIVAL (R371): on spoke `k`, `at'` microticks into the cycle. -/
def execCbSofArrival (c k at' : Nat) (start : Bool) (s : State) : Host.Outcome State Fault Refusal :=
  .next (s.onStar (·.sofArrives c k at' start))

/-- CB_FRAME_END (R360, R362): the code groups after SOF, those of the header, of the payload and of the CRC and those
behind them; a transmission that ends early lacks the later ones. -/
def execCbFrameEnd (c k at' : Nat) (head payload check tail : List Nat) (s : State) : Host.Outcome State Fault Refusal :=
  .next (s.onStar (·.cbFrameEnd c k at' (head ++ payload ++ check ++ tail)))

/-- CB_NIT_START (R375). -/
def execCbNitStart (c : Nat) (s : State) : Host.Outcome State Fault Refusal := .next (s.onStar (·.nitStart c))

/-- UNBLOCK (R373): a write of CBS_SPK of spoke `k`. -/
def execUnblock (c k : Nat) (s : State) : Host.Outcome State Fault Refusal :=
  .next (s.atReg (Reg.cbsSpk0 c k) (·.hostUnblock c k))

/-- CB_LISTEN_TIMEOUT (R379). -/
def execCbListenTimeout (c : Nat) (s : State) : Host.Outcome State Fault Refusal := .next (s.onStar (·.listenTimeout c))

/-- CB_MODE_REQUEST (R382): a write `w` of CBS_MODE_REQ with GO = 1. -/
def execCbModeRequest (c w : Nat) (s : State) : Host.Outcome State Fault Refusal :=
  .next (s.atReg (Reg.cbsModeReq c) (fun t => (t.writeModeReq c (w ||| 2 ^ 31)).reportReads))

/-- CB_MODE_SWITCH (R382). -/
def execCbModeSwitch (c : Nat) (s : State) : Host.Outcome State Fault Refusal := .next (s.onStar (·.modeSwitch c))

/-- CB_OWN_FRAME_SEND (R383): window `id`; `bad` and `badTrip` say that the window's or the trip queue's word cannot be
read (R390), `badRing` that the state word of the channel's CB_TX ring cannot (R242). -/
def execCbOwnFrameSend (c id : Nat) (bad badTrip badRing : Bool) (s : State) : Host.Outcome State Fault Refusal :=
  .next (s.onStar (fun t =>
    ((t.when (badRing && t.ringWorks (2312 + 2 * c) && t.flag (F.ringStsRun (2312 + 2 * c))) (·.ringEcc (2312 + 2 * c))).ownFrame
      c id bad badTrip).reportReads))

/-- CB_HALT_TIMEOUT (R378). -/
def execCbHaltTimeout (c : Nat) (s : State) : Host.Outcome State Fault Refusal := .next (s.onStar (·.haltTimeout c))

/-- SPOKE_CODE_GROUP_SYNC (R389). -/
def execSpokeCodeGroupSync (c k : Nat) (locked : Bool) (s : State) : Host.Outcome State Fault Refusal :=
  .next (s.onStar (·.spokeLock c k locked))

end Sys2Proof.Machine
end

