-- ==== Sys2Proof/Machine/Fabric.lean ====
section
/-! DEFINITION. The commands of the commit collector, the light-loss detectors and the policy engine
(chapter 11). They act while PD49 is READY and unit 5 is not held in reset. -/

namespace Sys2Proof.Machine

/-- The collector and the policy engine work. -/
def State.onFabric (s : State) (f : State → State) : State := s.when s.fabWorks f

/-- FAB_LOAD (R314): a write `w` of FAB_LOAD with GO = 1. -/
def execFabLoad (w : Nat) (s : State) : Host.Outcome State Fault Refusal :=
  .next (s.atReg Reg.fabLoad (·.writeFabLoad (w ||| 2 ^ 31)))

/-- FAB_LOAD_DONE (R314); `bad`: 1 for an uncorrectable word of the map slot, 2 for one of F (R342). -/
def execFabLoadDone (bad : Nat) (s : State) : Host.Outcome State Fault Refusal := 
  .next (s.onFabric (fun t => (t.fabLoaded bad).reportReads))

/-- FAB_ENABLE (R314): a write `w` of FAB_CTL with EN = 1. -/
def execFabEnable (w : Nat) (s : State) : Host.Outcome State Fault Refusal :=
  .next (s.atReg Reg.fabCtl (·.writeFabCtl (w ||| 1)))

/-- FAB_COMMIT (R317): the entry at count `pos` of fabric ring `r`. -/
def execFabCommit (r pos : Nat) (s : State) : Host.Outcome State Fault Refusal := .next (s.fabCommit r pos)

/-- CANCEL (R317): the entry at count `pos` of fabric ring `r`. -/
def execCancel (r pos : Nat) (s : State) : Host.Outcome State Fault Refusal := .next (s.fabCancel r pos)

/-- COMMIT_RESOLVED (R321); `bad`: 1 for an uncorrectable word of the map slot, 2 for one of F (R342). -/
def execCommitResolved (bad : Nat) (s : State) : Host.Outcome State Fault Refusal := 
  .next (s.onFabric (fun t => (t.resolveNext bad).reportReads))

/-- RESOLVE_DEADLINE (R321). -/
def execResolveDeadline (s : State) : Host.Outcome State Fault Refusal := .next (s.onFabric (·.resolveLate))

/-- FAB_ARM (R322): a FAB_ARM pulse. -/
def execFabArm (s : State) : Host.Outcome State Fault Refusal := .next s.fabArm

/-- ARM_DEADLINE (R322). -/
def execArmDeadline (s : State) : Host.Outcome State Fault Refusal := .next (s.onFabric (·.armLate))

/-- COMMIT_DISPATCH (R326). -/
def execCommitDispatch (s : State) : Host.Outcome State Fault Refusal := .next (s.onFabric (·.dispatch))

/-- COMMIT_INSTANT (R327). -/
def execCommitInstant (s : State) : Host.Outcome State Fault Refusal := .next (s.onFabric (·.commitInstant))

/-- SLICE_REPORT (R328): quadrant `q` reports commit `id`. -/
def execSliceReport (q id : Nat) (s : State) : Host.Outcome State Fault Refusal := .next (s.sliceReport q id)

/-- COMMIT_WITHDRAWAL (R152). -/
def execCommitWithdrawal (s : State) : Host.Outcome State Fault Refusal := .next (s.onFabric (·.withdrawOld))

/-- BLANK_END (R332): monitor `i`, commit `id`. -/
def execBlankEnd (i id : Nat) (s : State) : Host.Outcome State Fault Refusal := .next (s.blankEnd i id)

/-- POLICY_BUILD (R335); `bad` lists entries with an uncorrectable word, `fbad` says that F has one (R342). -/
def execPolicyBuild (bad : List Nat) (fbad : Bool) (s : State) : Host.Outcome State Fault Refusal :=
  .next (s.onFabric (fun t => (t.policyBuild bad fbad).reportReads))

/-- WTR_EXPIRE (R338): of a policy entry. -/
def execWtrExpire (x : WtrEnd) (s : State) : Host.Outcome State Fault Refusal :=
  .next (s.onFabric (fun t => (t.wtrExpire x.entry x.fbad).reportReads))

end Sys2Proof.Machine
end

