-- ==== Sys2Proof/Machine/Grafa.lean ====
section
/-! DEFINITION. The commands of the Grafa link (chapter 9). A write reaches its register only while the lane
domain answers; what the lanes receive is ignored while it is not READY. -/

namespace Sys2Proof.Machine

/-- What the lanes of quadrant `q` receive or a timer of its link does. -/
def State.onLink (s : State) (q : Nat) (f : State → State) : State := s.atDom (qDom q 10) f

/-- GRAFA_ENABLE (R266): a write `w` of GRF_CTL with EN = 1. -/
def execGrafaEnable (q w : Nat) (s : State) : Host.Outcome State Fault Refusal :=
  .next (s.atReg (Reg.grfCtl q) (·.writeGrfCtl q (w ||| 1)))

/-- GRAFA_DISABLE (R267): a write `w` of GRF_CTL with EN = 0. -/
def execGrafaDisable (q w : Nat) (s : State) : Host.Outcome State Fault Refusal :=
  .next (s.atReg (Reg.grfCtl q) (·.writeGrfCtl q (w &&& 0xFFFFFFFE)))

/-- RETRAIN (R266): a write `w` of GRF_CTL with RETRAIN = 1. -/
def execRetrain (q w : Nat) (s : State) : Host.Outcome State Fault Refusal :=
  .next (s.atReg (Reg.grfCtl q) (·.writeGrfCtl q (w ||| 2)))

/-- HOLD_REL_WRITE (R252): a write `w` of GRF_CTL with HOLD_REL = 1. -/
def execHoldRelWrite (q w : Nat) (s : State) : Host.Outcome State Fault Refusal :=
  .next (s.atReg (Reg.grfCtl q) (·.writeGrfCtl q (w ||| 4)))

/-- UPSTREAM_LOCK_ACQUIRED (R256, R266): the block headers that the four upstream lanes have received. -/
def execUpstreamLockAcquired (l : LaneHeads) (s : State) : Host.Outcome State Fault Refusal :=
  .next (s.onLink l.quad (·.locksAcquired l.quad l.heads))

/-- LOCK_TIMEOUT (R266): FAIL_CODE 1. -/
def execLockTimeout (q : Nat) (s : State) : Host.Outcome State Fault Refusal :=
  .next (s.when (s.fget (F.grfStsState q) == linkLock) (·.trainFail q 1))

/-- ALIGN_DONE (R266). -/
def execAlignDone (q : Nat) (s : State) : Host.Outcome State Fault Refusal := .next (s.onLink q (·.alignDone q))

/-- ALIGN_TIMEOUT (R266): FAIL_CODE 2. -/
def execAlignTimeout (q : Nat) (s : State) : Host.Outcome State Fault Refusal :=
  .next (s.when (s.fget (F.grfStsState q) == linkAlign) (·.trainFail q 2))

/-- RETRY_DELAY_EXPIRE (R266). -/
def execRetryDelayExpire (q : Nat) (s : State) : Host.Outcome State Fault Refusal := .next (s.retryNow q)

/-- BLOCK_LOCK_LOST (R256, R267): the block headers that lane `j` of quadrant `q` has received. -/
def execBlockLockLost (q j : Nat) (heads : List Nat) (s : State) : Host.Outcome State Fault Refusal :=
  .next (s.onLink q (·.headersIn q j heads))

/-- SYNC_MISSED (R257) on lane `j`. -/
def execSyncMissed (q j : Nat) (s : State) : Host.Outcome State Fault Refusal := .next (s.onLink q (·.syncMissed q j))

/-- COMMAND_TIMEOUT (R264) of the command with this SEQ. -/
def execCommandTimeout (q seq : Nat) (s : State) : Host.Outcome State Fault Refusal := .next (s.cmdTimeout q seq)

/-- GRAFA_SYNC_TRANSMIT (R257): `at'` is the follower time of its first bit, 1/16 ns. -/
def execGrafaSyncTransmit (q at' : Nat) (s : State) : Host.Outcome State Fault Refusal :=
  .next (s.syncTransmit q at')

/-- GRAFA_SYNC_RECEIVED (R257): control byte, QUAD, LANE and skew of each lane. -/
def execGrafaSyncReceived (q : Nat) (lanes : List (Nat × Nat × Nat × Nat)) (s : State) : Host.Outcome State Fault Refusal :=
  .next (s.onLink q (·.syncReceived q lanes))

/-- FLIT_CRC_ERROR (R258), after `idle` good IDLE flits. -/
def execFlitCrcError (q idle : Nat) (s : State) : Host.Outcome State Fault Refusal := .next (s.onLink q (·.flitBad q idle))

/-- FLIT_TYPE_ERROR (R258). -/
def execFlitTypeError (q fcnt : Nat) (s : State) : Host.Outcome State Fault Refusal :=
  .next (s.onLink q (·.flitUnknown q fcnt))

/-- PING_TIMER (R266): the PING of each second in UP. -/
def execPingTimer (q : Nat) (s : State) : Host.Outcome State Fault Refusal :=
  .next (s.when (s.isUp q) (·.command q 0x02 []))

/-- MEASURE_PING (R266). -/
def execMeasurePing (q : Nat) (s : State) : Host.Outcome State Fault Refusal := .next (s.measurePing q)

/-- RSP (R264): SEQ, OP, STATUS, payload words, the round trip in 1/16 ns and FCNT. -/
def execRsp (q seq op status : Nat) (words : List Nat) (rtt fcnt : Nat) (s : State) : Host.Outcome State Fault Refusal :=
  .next (s.onLink q (fun t => (t.rspArrives q seq op status words rtt fcnt).reportReads))

/-- STATUS (R265). -/
def execStatus (q temp0 temp1 alarm cal flags bound : Nat) (cnts : List Nat) (fcnt : Nat) (s : State) :
    Host.Outcome State Fault Refusal :=
  .next (s.onLink q (·.statusArrives q temp0 temp1 alarm cal flags bound cnts fcnt))

/-- TAP (R263): tap sample set `j`, the 28 codes from monitor `base` on, and the groups whose flit of an earlier
set was lost. -/
def execTap (q base j : Nat) (codes lost : List Nat) (fcnt : Nat) (s : State) : Host.Outcome State Fault Refusal :=
  .next (s.onLink q fun t => (t.tapArrives q base j codes lost fcnt).hiddenPass (8 * q + 3) 0 base)

end Sys2Proof.Machine
end

