-- ==== Sys2Proof/Machine/Pins.lean ====
section
/-! DEFINITION. The test access port (R479). -/

namespace Sys2Proof.Machine

/-- Instruction opcodes of the test access port (Table 18.12). -/
def tapExtest : Nat := 0x00
def tapIdcode : Nat := 0x01
def tapSample : Nat := 0x02
def tapHighz : Nat := 0x03
def tapClamp : Nat := 0x04
def tapPulse : Nat := 0x05
def tapTrain : Nat := 0x06
def tapBypass : Nat := 0x3F

/-- IDCODE: version 0, part 0x7144, manufacturer code 0x726, and the fixed 1 (R479). -/
def idcode : Nat := 0x07144E4D

/-- The instruction that a value of the 6-bit instruction register selects: every opcode that Table 18.12 does not give is
BYPASS. -/
def tapOf (ir : Nat) : Nat := bif Nat.ble (ir % 64) tapTrain then ir % 64 else tapBypass

/-- The instruction register takes a value, and the instruction it selects is in force. -/
def State.tapSelect (s : State) (ir : Nat) : State := { s with tap := { s.tap with ir := tapOf ir } }

/-- A scan of the boundary register under the instruction in force: what it captured leaves on TDO, a value that
the manual does not give, and `v` becomes its content. -/
def State.boundaryScan (s : State) (v : Option Nat) : State :=
  match v with
  | some v => ({ s with tap := { s.tap with boundary := v } }.emit (.tdo (s.freeVal 32))).useFree
  | none => s

/-- An instruction in force drives the boundary register onto the outputs (R479). -/
def State.boundaryDrives (s : State) : Bool :=
  s.tap.ir == tapExtest || s.tap.ir == tapHighz || s.tap.ir == tapClamp || s.tap.ir == tapPulse || s.tap.ir == tapTrain

/-- The number by which the boundary register's content gives an output its level. -/
def Output.cell : Output → Nat
  | .low k => k
  | .ethernet p => 2 ^ 8 + p
  | .grafa n => 2 ^ 9 + n
  | .pcie h n => 2 ^ 10 + 16 * h + n
  | .spoke c k => 2 ^ 11 + 16 * c + k
  | .spSdo => 2 ^ 12
  | .tdo => 2 ^ 12 + 1

/-- The device's function drives an output (Table 17.4): otherwise it is in high impedance, or its lane in electrical
idle. SP_SDO is driven by PD00 while a transaction is answered, and TDO only in a shift: the model shows both as what is
sent (`Out.serviceReply`, `Out.tdo`), and between commands neither shifts. -/
def State.driven (s : State) : Output → Bool
  | .low k => Table.get 0 k s.pins != 0
  | .ethernet p => s.ready (qDom (p / 36) (1 + p % 36 / 6))
  | .grafa n => s.qReady (n / 4) 10
  | .pcie h _ => s.ready (45 + h)
  | .spoke c k => s.spokeDriven c k
  | .spSdo => false
  | .tdo => false

/-- The level of an output at its pad, plus one, 0 where nothing drives it: HIGHZ undrives it, the other instructions that
drive the boundary register set it from that register, and otherwise it is as the device's function has it, 1 for
a lane that carries what the function sends (R457, R479). TDO belongs to the port itself. -/
def State.pad (s : State) (o : Output) : Nat :=
  bif s.boundaryDrives && o != .tdo then (bif s.tap.ir == tapHighz then 0 else Config.padLevel o.cell s.tap.boundary)
  else match o with
  | .low k => Table.get 0 k s.pins
  | o => bit (s.driven o)

/-- The output that something sent leaves on; none for what stays inside the device. -/
def Out.output : Out → Option Output
  | .frame p _ _ | .cut p _ _ | .fragment p _ _ _ _ | .verify p _ | .lineIdle p _ => some (.ethernet p)
  | .flit q _ | .idle q _ | .sync q _ => some (.grafa (4 * q))
  | .hostWrite h _ _ | .hostData h _ _ | .hostRead h _ _ | .msix h _ => some (.pcie h 0)
  | .readData .hostA _ _ | .unsupported .hostA _ => some (.pcie 0 0)
  | .readData .hostB _ _ | .unsupported .hostB _ => some (.pcie 1 0)
  | .spoke c m _ | .spokeCut c m _ _ => some (.spoke c (Nat.log2 m))
  | .serviceReply _ => some .spSdo
  | .tdo _ => some .tdo
  | .broadcast _ | .readData _ _ _ | .unsupported _ _ => none

/-- What the device's function sends reaches its pad: not while an instruction drives the boundary register there
(R479). -/
def State.leaves (s : State) (x : Out) : Bool := !s.boundaryDrives || x.output == none || x.output == some .tdo

/-- TAP_RESET (Table 17.3): Test-Logic-Reset selects IDCODE. -/
def execTapReset (s : State) : Host.Outcome State Fault Refusal := .next (s.tapSelect tapIdcode)

/-- EXTEST: the pins follow the boundary register; `v` is what a scan under it loads. -/
def execExtest (v : Option Nat) (s : State) : Host.Outcome State Fault Refusal :=
  .next ((s.tapSelect tapExtest).boundaryScan v)

/-- IDCODE: the device identifier leaves on TDO. -/
def execIdcode (s : State) : Host.Outcome State Fault Refusal := .next ((s.tapSelect tapIdcode).emit (.tdo idcode))

/-- SAMPLE/PRELOAD: `v` is what the scan preloads; the pins keep their function. -/
def execSamplePreload (v : Option Nat) (s : State) : Host.Outcome State Fault Refusal :=
  .next ((s.tapSelect tapSample).boundaryScan v)

/-- HIGHZ: every output is in high impedance. -/
def execHighz (s : State) : Host.Outcome State Fault Refusal := .next (s.tapSelect tapHighz)

/-- CLAMP: the pins hold the boundary register's values. -/
def execClamp (s : State) : Host.Outcome State Fault Refusal := .next (s.tapSelect tapClamp)

/-- EXTEST_PULSE (IEEE 1149.6). -/
def execExtestPulse (v : Option Nat) (s : State) : Host.Outcome State Fault Refusal :=
  .next ((s.tapSelect tapPulse).boundaryScan v)

/-- EXTEST_TRAIN (IEEE 1149.6). -/
def execExtestTrain (v : Option Nat) (s : State) : Host.Outcome State Fault Refusal :=
  .next ((s.tapSelect tapTrain).boundaryScan v)

/-- BYPASS. -/
def execBypass (s : State) : Host.Outcome State Fault Refusal := .next (s.tapSelect tapBypass)

end Sys2Proof.Machine
end

