-- ==== Sys2Proof/Machine/Power.lean ====
section
/-! DEFINITION. The commands of power domains, resets and start-up (chapter 17). -/

namespace Sys2Proof.Machine

/-- TIME_PLL_LOCK (R63, R458). -/
def execTimePllLock (s : State) : Host.Outcome State Fault Refusal := .next (s.atDom 0 (·.pllLock))

/-- POWER_REQUEST (R451): PWR_ON_j is written with `w`. -/
def execPowerRequest (j w : Nat) (s : State) : Host.Outcome State Fault Refusal :=
  .next (s.atReg Reg.pwrOn0 (·.writePwrOn j w))

/-- The waiting domain that ramps next (R449): requested on, OFF, its Requires domain READY; the lowest of them. -/
def State.nextRamp (s : State) : Option Nat :=
  (List.range 52).find? fun n =>
    bitAt s.requested n && s.domState n == 0 && (match requiresOf n with
      | some r => s.ready r
      | none => true)

/-- DOMAIN_RAMP_START (R449): ramps take one domain at a time; the automatic requests act from time PLL lock on. -/
def execDomainRampStart (s : State) : Host.Outcome State Fault Refusal :=
  .next (s.atDom 0 fun t =>
    bif !t.inv.started || !t.ramping.isEmpty then t
    else match t.nextRamp with
      | some n => t.setDomState n 1
      | none => t)

/-- DOMAIN_RAMP_DONE (R449): the ramping domain enters RESET. -/
def execDomainRampDone (s : State) : Host.Outcome State Fault Refusal :=
  .next (match s.ramping with
    | n :: _ => ((s.cntF (F.pwrDomRamps n)).setDomState n 2).domFollow n
    | [] => s)

/-- DOMAIN_OFF (R449): the power-down sequence of domain `n` ends. -/
def execDomainOff (n : Nat) (s : State) : Host.Outcome State Fault Refusal :=
  .next (s.when (s.goingOff n) fun t =>
    let u := ({ t with pwr := { t.pwr with offing := t.pwr.offing &&& (2 ^ 52 - 1 - 2 ^ n) } }).setDomState n 0
    bif Nat.blt n 45 then u.tryEndIso ((n - 1) / 11) else u)

/-- DOMAIN_READY (R449, R461). -/
def execDomainReady (n : Nat) (s : State) : Host.Outcome State Fault Refusal := .next (s.becomeReady n)

/-- COLD_POWER_UP (R455, R458). -/
def execColdPowerUp (s : State) : Host.Outcome State Fault Refusal :=
  .next ({ s with tap := {} }.deviceReset 1)

/-- POR_ASSERT (R455). -/
def execPorAssert (s : State) : Host.Outcome State Fault Refusal :=
  .next ({ s with pwr := { s.pwr with porLow := true } }.deviceReset 2)

/-- POR_RELEASE (R458). -/
def execPorRelease (s : State) : Host.Outcome State Fault Refusal :=
  .next (s.when s.pwr.porLow fun t => { t with pwr := { t.pwr with porLow := false } }.drivePd00)

/-- PD00_UNDERVOLTAGE (R455). -/
def execPd00Undervoltage (s : State) : Host.Outcome State Fault Refusal :=
  .next (s.when (!s.pwr.porLow) (·.deviceReset 3))

/-- CONTROLLER_RESET_ASSERT (R455): RST_N has been low for 1 us; a device reset in progress covers it. -/
def execControllerResetAssert (s : State) : Host.Outcome State Fault Refusal :=
  .next (({ s with pwr := { s.pwr with rstLow := true } }).atDom 0 (·.controllerReset (fun _ => false) 1))

/-- CONTROLLER_RESET_RELEASE (R455). -/
def execControllerResetRelease (s : State) : Host.Outcome State Fault Refusal :=
  .next { s with pwr := { s.pwr with rstLow := false } }

/-- RST_N_GLITCH (Table 17.3). -/
def execRstNGlitch (s : State) : Host.Outcome State Fault Refusal := .next (s.atDom 0 (·.fset F.pwrStsRstGlitch true))

/-- CTRL_RST (R455): PWR_CTL is written with CTRL_RST = 1. -/
def execCtrlRst (w : Nat) (s : State) : Host.Outcome State Fault Refusal :=
  .next (s.atReg Reg.pwrCtl (·.writePwrCtl (w ||| 1)))

/-- CTRL_RST_EXPIRE (R455): t_CRST after the write of CTRL_RST. -/
def execCtrlRstExpire (s : State) : Host.Outcome State Fault Refusal :=
  .next { s with pwr := { s.pwr with ctrl := s.pwr.ctrl - 1, keep := bif s.pwr.ctrl == 1 then 0 else s.pwr.keep } }

/-- PWR_HOLD (R455): PWR_HOLD_j is written with `w`. -/
def execPwrHold (j w : Nat) (s : State) : Host.Outcome State Fault Refusal :=
  .next (s.atReg Reg.pwrHold0 (·.writePwrHold j w))

/-- PERST_ASSERT (R455, R238). -/
def execPerstAssert (h : Nat) (s : State) : Host.Outcome State Fault Refusal :=
  .next (({ s with pwr := { s.pwr with perst := withBits s.pwr.perst h 1 1 } }).dropDomain (45 + h) false false)

/-- PERST_RELEASE (R458): the host interface leaves reset once nothing else holds it. -/
def execPerstRelease (h : Nat) (s : State) : Host.Outcome State Fault Refusal :=
  .next { s with pwr := { s.pwr with perst := withBits s.pwr.perst h 1 0 } }

end Sys2Proof.Machine
end

