-- ==== Sys2Proof/Machine/Dispatch.lean ====
section
/-! DEFINITION. One arm per row of the opcode table. -/

namespace Sys2Proof.Machine

/-- What a command does to everything but the queue. -/
def exec (i : Instr) (s : State) : Host.Outcome State Fault Refusal :=
  match i with
  | .regWrite q bar2 a v be => Sys2Proof.Machine.execRegWrite q bar2 a v be s
  | .wideLowWordRead q r => Sys2Proof.Machine.execWideLowWordRead q r s
  | .wideUpperWordWrite q a v => Sys2Proof.Machine.execWideUpperWordWrite q a v s
  | .wideLowWordWrite q a v => Sys2Proof.Machine.execWideLowWordWrite q a v s
  | .doorbell off => Sys2Proof.Machine.execDoorbell off s
  | .marginMeasurement u period => Sys2Proof.Machine.execMarginMeasurement u period s
  | .vidRaise => Sys2Proof.Machine.execVidRaise s
  | .vidLower => Sys2Proof.Machine.execVidLower s
  | .shedLevelEnter u => Sys2Proof.Machine.execShedLevelEnter u s
  | .shedLevelLeave u => Sys2Proof.Machine.execShedLevelLeave u s
  | .coreTimingLost u => Sys2Proof.Machine.execCoreTimingLost u s
  | .minRst w => Sys2Proof.Machine.execMinRst w s
  | .codeViolation u chs => Sys2Proof.Machine.execCodeViolation u chs s
  | .handshakeStall u chs => Sys2Proof.Machine.execHandshakeStall u chs s
  | .edgeComputeStart kind p t bad => Sys2Proof.Machine.execEdgeComputeStart kind p t bad s
  | .actionArmed kind n t => Sys2Proof.Machine.execActionArmed kind n t s
  | .timePllLock => Sys2Proof.Machine.execTimePllLock s
  | .timePllUnlock => Sys2Proof.Machine.execTimePllUnlock s
  | .oscInLoss => Sys2Proof.Machine.execOscInLoss s
  | .followerBroadcast skews => Sys2Proof.Machine.execFollowerBroadcast skews s
  | .timeSet req w => Sys2Proof.Machine.execTimeSet req w s
  | .timeAdjustStep req w => Sys2Proof.Machine.execTimeAdjustStep req w s
  | .timeAdjustSlew req w => Sys2Proof.Machine.execTimeAdjustSlew req w s
  | .slewAbsorbed => Sys2Proof.Machine.execSlewAbsorbed s
  | .histClr w => Sys2Proof.Machine.execHistClr w s
  | .historyPush => Sys2Proof.Machine.execHistoryPush s
  | .servoEnable w => Sys2Proof.Machine.execServoEnable w s
  | .ptpSyncReceived p l pcs => Sys2Proof.Machine.execPtpSyncReceived p l pcs s
  | .followUpReceived p l => Sys2Proof.Machine.execFollowUpReceived p l s
  | .referenceLost => Sys2Proof.Machine.execReferenceLost s
  | .announceReceived p l => Sys2Proof.Machine.execAnnounceReceived p l s
  | .announceReceiptTimeout p => Sys2Proof.Machine.execAnnounceReceiptTimeout p s
  | .preMasterTimeout p => Sys2Proof.Machine.execPreMasterTimeout p s
  | .syncTransmit p => Sys2Proof.Machine.execSyncTransmit p s
  | .announceTransmit p => Sys2Proof.Machine.execAnnounceTransmit p s
  | .delayReqTransmit p => Sys2Proof.Machine.execDelayReqTransmit p s
  | .delayReqReceived p l pcs => Sys2Proof.Machine.execDelayReqReceived p l pcs s
  | .delayRespReceived p l => Sys2Proof.Machine.execDelayRespReceived p l s
  | .pdelayReqReceived p l pcs => Sys2Proof.Machine.execPdelayReqReceived p l pcs s
  | .pdelayExchangeComplete p l pcs fup more => Sys2Proof.Machine.execPdelayExchangeComplete p l pcs fup more s
  | .delayResponseTimeout p => Sys2Proof.Machine.execDelayResponseTimeout p s
  | .tcMatchEntryExpire q src seq => Sys2Proof.Machine.execTcMatchEntryExpire q src seq s
  | .irigFrameDecoded f => Sys2Proof.Machine.execIrigFrameDecoded f s
  | .tcapEdge n rising t16 => Sys2Proof.Machine.execTcapEdge n rising t16 s
  | .tcapArm n w => Sys2Proof.Machine.execTcapArm n w s
  | .pulseEnable n w => Sys2Proof.Machine.execPulseEnable n w s
  | .pulseDisable n w => Sys2Proof.Machine.execPulseDisable n w s
  | .pulseEdge n => Sys2Proof.Machine.execPulseEdge n s
  | .phyChange p w => Sys2Proof.Machine.execPhyChange p w s
  | .cdrLock p => Sys2Proof.Machine.execCdrLock p s
  | .pcsLock p => Sys2Proof.Machine.execPcsLock p s
  | .upDlyExpire p => Sys2Proof.Machine.execUpDlyExpire p s
  | .lossOfLock p cdr => Sys2Proof.Machine.execLossOfLock p cdr s
  | .hiBer p => Sys2Proof.Machine.execHiBer p s
  | .remoteFaultReceived p => Sys2Proof.Machine.execRemoteFaultReceived p s
  | .frame64thByte p pre head stamp flaws => Sys2Proof.Machine.execFrame64thByte p pre head stamp flaws s
  | .frameEndReceived e => Sys2Proof.Machine.execFrameEndReceived e s
  | .pauseFrameReceived p v => Sys2Proof.Machine.execPauseFrameReceived p v s
  | .pfcFrameReceived p enable times => Sys2Proof.Machine.execPfcFrameReceived p enable times s
  | .pauseTimerExpire p idx => Sys2Proof.Machine.execPauseTimerExpire p idx s
  | .txFrameQueued p => Sys2Proof.Machine.execTxFrameQueued p s
  | .selectionPoint p => Sys2Proof.Machine.execSelectionPoint p s
  | .txFrameDone p pcs => Sys2Proof.Machine.execTxFrameDone p pcs s
  | .verifyTimerExpire p => Sys2Proof.Machine.execVerifyTimerExpire p s
  | .verifyMpacketReceived p => Sys2Proof.Machine.execVerifyMpacketReceived p s
  | .respondMpacketReceived p => Sys2Proof.Machine.execRespondMpacketReceived p s
  | .serdesPllUnlock b pllB => Sys2Proof.Machine.execSerdesPllUnlock b pllB s
  | .clsStagedWrite q w => Sys2Proof.Machine.execClsStagedWrite q w s
  | .clsStagedRead q w => Sys2Proof.Machine.execClsStagedRead q w s
  | .clsStagedDone q => Sys2Proof.Machine.execClsStagedDone q s
  | .clsHashKeyWrite q j w => Sys2Proof.Machine.execClsHashKeyWrite q j w s
  | .meterPeek q w => Sys2Proof.Machine.execMeterPeek q w s
  | .scheduleGo w => Sys2Proof.Machine.execScheduleGo w s
  | .scheduleAbort w => Sys2Proof.Machine.execScheduleAbort w s
  | .validationDone => Sys2Proof.Machine.execValidationDone s
  | .scheduleRamWrite a w => Sys2Proof.Machine.execScheduleRamWrite a w s
  | .bankSwitch => Sys2Proof.Machine.execBankSwitch s
  | .scbCycleStart => Sys2Proof.Machine.execScbCycleStart s
  | .commitHandoff bad => Sys2Proof.Machine.execCommitHandoff bad s
  | .scheduleEnable w => Sys2Proof.Machine.execScheduleEnable w s
  | .gateTransition p => Sys2Proof.Machine.execGateTransition p s
  | .holdRaise p => Sys2Proof.Machine.execHoldRaise p s
  | .holdRelease p => Sys2Proof.Machine.execHoldRelease p s
  | .touchedMasksReceived id => Sys2Proof.Machine.execTouchedMasksReceived id s
  | .guardClose p => Sys2Proof.Machine.execGuardClose p s
  | .guardReopen p => Sys2Proof.Machine.execGuardReopen p s
  | .shaperEntryWrite q o w => Sys2Proof.Machine.execShaperEntryWrite q o w s
  | .shaperPeek q w => Sys2Proof.Machine.execShaperPeek q w s
  | .dupStagedWrite q w => Sys2Proof.Machine.execDupStagedWrite q w s
  | .dupStagedRead q w => Sys2Proof.Machine.execDupStagedRead q w s
  | .dupStagedDone q => Sys2Proof.Machine.execDupStagedDone q s
  | .dupHashKeyWrite q j w => Sys2Proof.Machine.execDupHashKeyWrite q j w s
  | .sourceLookupDone p pre l bad => Sys2Proof.Machine.execSourceLookupDone p pre l bad s
  | .ageSweep q => Sys2Proof.Machine.execAgeSweep q s
  | .frerSweep q => Sys2Proof.Machine.execFrerSweep q s
  | .ringScanStart r bad => Sys2Proof.Machine.execRingScanStart r bad s
  | .scanDataReturn r d => Sys2Proof.Machine.execScanDataReturn r d s
  | .txFetchDone r bytes => Sys2Proof.Machine.execTxFetchDone r bytes s
  | .entryComplete r e => Sys2Proof.Machine.execEntryComplete r e s
  | .msixGapExpire r => Sys2Proof.Machine.execMsixGapExpire r s
  | .ringEnable r w => Sys2Proof.Machine.execRingEnable r w s
  | .ringDisable r w => Sys2Proof.Machine.execRingDisable r w s
  | .ringIdle r => Sys2Proof.Machine.execRingIdle r s
  | .ringHeadWrite r w => Sys2Proof.Machine.execRingHeadWrite r w s
  | .hostLinkLost h => Sys2Proof.Machine.execHostLinkLost h s
  | .noticeWrite h code block index args => Sys2Proof.Machine.execNoticeWrite h code block index args s
  | .noticeConsumerWrite h w => Sys2Proof.Machine.execNoticeConsumerWrite h w s
  | .busWriteError r pos => Sys2Proof.Machine.execBusWriteError r pos s
  | .busReadError r pos => Sys2Proof.Machine.execBusReadError r pos s
  | .grafaEnable q w => Sys2Proof.Machine.execGrafaEnable q w s
  | .grafaDisable q w => Sys2Proof.Machine.execGrafaDisable q w s
  | .retrain q w => Sys2Proof.Machine.execRetrain q w s
  | .holdRelWrite q w => Sys2Proof.Machine.execHoldRelWrite q w s
  | .upstreamLockAcquired l => Sys2Proof.Machine.execUpstreamLockAcquired l s
  | .lockTimeout q => Sys2Proof.Machine.execLockTimeout q s
  | .alignDone q => Sys2Proof.Machine.execAlignDone q s
  | .alignTimeout q => Sys2Proof.Machine.execAlignTimeout q s
  | .retryDelayExpire q => Sys2Proof.Machine.execRetryDelayExpire q s
  | .blockLockLost q j heads => Sys2Proof.Machine.execBlockLockLost q j heads s
  | .syncMissed q j => Sys2Proof.Machine.execSyncMissed q j s
  | .commandTimeout q seq => Sys2Proof.Machine.execCommandTimeout q seq s
  | .grafaSyncTransmit q at' => Sys2Proof.Machine.execGrafaSyncTransmit q at' s
  | .grafaSyncReceived q lanes => Sys2Proof.Machine.execGrafaSyncReceived q lanes s
  | .flitCrcError q idle => Sys2Proof.Machine.execFlitCrcError q idle s
  | .pingTimer q => Sys2Proof.Machine.execPingTimer q s
  | .rsp q seq op status words rtt fcnt => Sys2Proof.Machine.execRsp q seq op status words rtt fcnt s
  | .status q temp0 temp1 alarm cal flags bound cnts fcnt => Sys2Proof.Machine.execStatus q temp0 temp1 alarm cal flags bound cnts fcnt s
  | .tap q base j codes lost fcnt => Sys2Proof.Machine.execTap q base j codes lost fcnt s
  | .holdSns q pair base words fcnt => Sys2Proof.Machine.execHoldSns q pair base words fcnt s
  | .holdLat q pair base words fcnt => Sys2Proof.Machine.execHoldLat q pair base words fcnt s
  | .landSns q base round words fcnt => Sys2Proof.Machine.execLandSns q base round words fcnt s
  | .landingRound q at' late lost => Sys2Proof.Machine.execLandingRound q at' late lost s
  | .landingAttemptTimeout q idx => Sys2Proof.Machine.execLandingAttemptTimeout q idx s
  | .lockstepMismatch q lane kind item inTime => Sys2Proof.Machine.execLockstepMismatch q lane kind item inTime s
  | .laneSelfTest q h w => Sys2Proof.Machine.execLaneSelfTest q h w s
  | .laneSelfTestDone q lane pass => Sys2Proof.Machine.execLaneSelfTestDone q lane pass s
  | .nitinolStartupDone q failed bad => Sys2Proof.Machine.execNitinolStartupDone q failed bad s
  | .holdVisit q pair bad => Sys2Proof.Machine.execHoldVisit q pair bad s
  | .cellRead q c => Sys2Proof.Machine.execCellRead q c s
  | .cellPark q c => Sys2Proof.Machine.execCellPark q c s
  | .unparkBar q c => Sys2Proof.Machine.execUnparkBar q c s
  | .unparkCross q c => Sys2Proof.Machine.execUnparkCross q c s
  | .commitListsReceived q id => Sys2Proof.Machine.execCommitListsReceived q id s
  | .reacquisitionStart q => Sys2Proof.Machine.execReacquisitionStart q s
  | .readbackStep q => Sys2Proof.Machine.execReadbackStep q s
  | .reacquisitionEnd q => Sys2Proof.Machine.execReacquisitionEnd q s
  | .relandingStart q => Sys2Proof.Machine.execRelandingStart q s
  | .nitinolEnable q w => Sys2Proof.Machine.execNitinolEnable q w s
  | .nitinolDisable q w => Sys2Proof.Machine.execNitinolDisable q w s
  | .reacq q w => Sys2Proof.Machine.execReacq q w s
  | .fabLoad w => Sys2Proof.Machine.execFabLoad w s
  | .fabLoadDone bad => Sys2Proof.Machine.execFabLoadDone bad s
  | .fabEnable w => Sys2Proof.Machine.execFabEnable w s
  | .fabCommit r pos => Sys2Proof.Machine.execFabCommit r pos s
  | .cancel r pos => Sys2Proof.Machine.execCancel r pos s
  | .commitResolved bad => Sys2Proof.Machine.execCommitResolved bad s
  | .resolveDeadline => Sys2Proof.Machine.execResolveDeadline s
  | .fabArm => Sys2Proof.Machine.execFabArm s
  | .armDeadline => Sys2Proof.Machine.execArmDeadline s
  | .commitDispatch => Sys2Proof.Machine.execCommitDispatch s
  | .commitInstant => Sys2Proof.Machine.execCommitInstant s
  | .sliceReport q id => Sys2Proof.Machine.execSliceReport q id s
  | .commitWithdrawal => Sys2Proof.Machine.execCommitWithdrawal s
  | .blankEnd idx id => Sys2Proof.Machine.execBlankEnd idx id s
  | .policyBuild bad fbad => Sys2Proof.Machine.execPolicyBuild bad fbad s
  | .wtrExpire x => Sys2Proof.Machine.execWtrExpire x s
  | .zoneSample z temp => Sys2Proof.Machine.execZoneSample z temp s
  | .passMaxAge q => Sys2Proof.Machine.execPassMaxAge q s
  | .runNow q w => Sys2Proof.Machine.execRunNow q w s
  | .annealStepStart q => Sys2Proof.Machine.execAnnealStepStart q s
  | .annealTableLoad q bad => Sys2Proof.Machine.execAnnealTableLoad q bad s
  | .annealEnable w => Sys2Proof.Machine.execAnnealEnable w s
  | .uncalBatchWrite q => Sys2Proof.Machine.execUncalBatchWrite q s
  | .cbChannelEnable c w => Sys2Proof.Machine.execCbChannelEnable c w s
  | .cbChannelDisable c w => Sys2Proof.Machine.execCbChannelDisable c w s
  | .cbCycleStart c bad => Sys2Proof.Machine.execCbCycleStart c bad s
  | .guardianOpen c id bad => Sys2Proof.Machine.execGuardianOpen c id bad s
  | .guardianClose c => Sys2Proof.Machine.execGuardianClose c s
  | .cbSofArrival c k at' start => Sys2Proof.Machine.execCbSofArrival c k at' start s
  | .cbFrameEnd c k at' head payload check tail => Sys2Proof.Machine.execCbFrameEnd c k at' head payload check tail s
  | .cbNitStart c => Sys2Proof.Machine.execCbNitStart c s
  | .unblock c k => Sys2Proof.Machine.execUnblock c k s
  | .cbListenTimeout c => Sys2Proof.Machine.execCbListenTimeout c s
  | .cbModeRequest c w => Sys2Proof.Machine.execCbModeRequest c w s
  | .cbModeSwitch c => Sys2Proof.Machine.execCbModeSwitch c s
  | .cbOwnFrameSend c id bad badTrip badRing => Sys2Proof.Machine.execCbOwnFrameSend c id bad badTrip badRing s
  | .cbHaltTimeout c => Sys2Proof.Machine.execCbHaltTimeout c s
  | .sealTripCheck bad => Sys2Proof.Machine.execSealTripCheck bad s
  | .matrixBurst b => Sys2Proof.Machine.execMatrixBurst b s
  | .masterReset m cut => Sys2Proof.Machine.execMasterReset m cut s
  | .masterDrainDone m => Sys2Proof.Machine.execMasterDrainDone m s
  | .bmvGo n w => Sys2Proof.Machine.execBmvGo n w s
  | .bmvAbort n w => Sys2Proof.Machine.execBmvAbort n w s
  | .bmvReadReturn n data err => Sys2Proof.Machine.execBmvReadReturn n data err s
  | .bmvWriteResponse n err => Sys2Proof.Machine.execBmvWriteResponse n err s
  | .sealStart n => Sys2Proof.Machine.execSealStart n s
  | .sealEvalDone n bad => Sys2Proof.Machine.execSealEvalDone n bad s
  | .eventPulse => Sys2Proof.Machine.execEventPulse s
  | .fire => Sys2Proof.Machine.execFire s
  | .seqRun w => Sys2Proof.Machine.execSeqRun w s
  | .servicePortWrite addr v x => Sys2Proof.Machine.execServicePortWrite addr v x s
  | .servicePortRead addr x => Sys2Proof.Machine.execServicePortRead addr x s
  | .servicePortUnknown => Sys2Proof.Machine.execServicePortUnknown s
  | .servicePortCut => Sys2Proof.Machine.execServicePortCut s
  | .faultReport rs => Sys2Proof.Machine.execFaultReport rs s
  | .faultClear j x => Sys2Proof.Machine.execFaultClear j x s
  | .graceExpire ns => Sys2Proof.Machine.execGraceExpire ns s
  | .quietExpire e => Sys2Proof.Machine.execQuietExpire e s
  | .recover u x => Sys2Proof.Machine.execRecover u x s
  | .kick w => Sys2Proof.Machine.execKick w s
  | .watchdogExpire => Sys2Proof.Machine.execWatchdogExpire s
  | .swFatal w => Sys2Proof.Machine.execSwFatal w s
  | .firstClr w => Sys2Proof.Machine.execFirstClr w s
  | .injectionArm w => Sys2Proof.Machine.execInjectionArm w s
  | .aliveToggle => Sys2Proof.Machine.execAliveToggle s
  | .bronzeEvent code block index arg0 arg1 => Sys2Proof.Machine.execBronzeEvent code block index arg0 arg1 s
  | .bronzeRecordWrite => Sys2Proof.Machine.execBronzeRecordWrite s
  | .bronzeWindowStart => Sys2Proof.Machine.execBronzeWindowStart s
  | .freeze w => Sys2Proof.Machine.execFreeze w s
  | .unfreeze w => Sys2Proof.Machine.execUnfreeze w s
  | .keepFlushDone => Sys2Proof.Machine.execKeepFlushDone s
  | .keepCheckDone => Sys2Proof.Machine.execKeepCheckDone s
  | .bronzeReady => Sys2Proof.Machine.execBronzeReady s
  | .softwareRecord req w => Sys2Proof.Machine.execSoftwareRecord req w s
  | .supplySample raw => Sys2Proof.Machine.execSupplySample raw s
  | .rippleWindowEnd => Sys2Proof.Machine.execRippleWindowEnd s
  | .pfwAssert => Sys2Proof.Machine.execPfwAssert s
  | .pfwRelease => Sys2Proof.Machine.execPfwRelease s
  | .powerRequest j w => Sys2Proof.Machine.execPowerRequest j w s
  | .domainRampStart => Sys2Proof.Machine.execDomainRampStart s
  | .domainRampDone => Sys2Proof.Machine.execDomainRampDone s
  | .domainOff n => Sys2Proof.Machine.execDomainOff n s
  | .domainReady n => Sys2Proof.Machine.execDomainReady n s
  | .coldPowerUp => Sys2Proof.Machine.execColdPowerUp s
  | .porAssert => Sys2Proof.Machine.execPorAssert s
  | .porRelease => Sys2Proof.Machine.execPorRelease s
  | .pd00Undervoltage => Sys2Proof.Machine.execPd00Undervoltage s
  | .controllerResetAssert => Sys2Proof.Machine.execControllerResetAssert s
  | .controllerResetRelease => Sys2Proof.Machine.execControllerResetRelease s
  | .rstNGlitch => Sys2Proof.Machine.execRstNGlitch s
  | .ctrlRst w => Sys2Proof.Machine.execCtrlRst w s
  | .ctrlRstExpire => Sys2Proof.Machine.execCtrlRstExpire s
  | .pwrHold j w => Sys2Proof.Machine.execPwrHold j w s
  | .perstAssert h => Sys2Proof.Machine.execPerstAssert h s
  | .perstRelease h => Sys2Proof.Machine.execPerstRelease h s
  | .tapReset => Sys2Proof.Machine.execTapReset s
  | .extest v => Sys2Proof.Machine.execExtest v s
  | .idcode => Sys2Proof.Machine.execIdcode s
  | .samplePreload v => Sys2Proof.Machine.execSamplePreload v s
  | .highz => Sys2Proof.Machine.execHighz s
  | .clamp => Sys2Proof.Machine.execClamp s
  | .extestPulse v => Sys2Proof.Machine.execExtestPulse v s
  | .extestTrain v => Sys2Proof.Machine.execExtestTrain v s
  | .bypass => Sys2Proof.Machine.execBypass s
  | .irigFrameMissing => Sys2Proof.Machine.execIrigFrameMissing s
  | .shaperCreditZero p => Sys2Proof.Machine.execShaperCreditZero p s
  | .landBindSend q id => Sys2Proof.Machine.execLandBindSend q id s
  | .spokeCodeGroupSync c k locked => Sys2Proof.Machine.execSpokeCodeGroupSync c k locked s
  | .flitTypeError q fcnt => Sys2Proof.Machine.execFlitTypeError q fcnt s
  | .measurePing q => Sys2Proof.Machine.execMeasurePing q s

end Sys2Proof.Machine
end

