-- ==== Sys2Proof/WellFormed.lean ====
section
/-! DEFINITION. When a command is well formed: every operand lies in the range the manual gives it. -/

namespace Sys2Proof

/-- A quadrant (Table 1.1), a port, a ring (R207), a host, a Cabinet Bus channel (R355) and a spoke with a register
block, a containment unit of the handshake (Table 2.2). -/
def isQuad (q : Nat) : Bool := Nat.blt q 4
def isPort (p : Nat) : Bool := Nat.blt p 144
def isRing (r : Nat) : Bool := Nat.blt r 2322
def isHost (h : Nat) : Bool := Nat.blt h 2
def isChannel (c : Nat) : Bool := Nat.blt c 4
def isSpoke (k : Nat) : Bool := Nat.blt 0 k && Nat.blt k 16
def isUnit (u : Nat) : Bool := Nat.blt u 6

/-- A ring that scans for entries: every ring but the two Notice Rings (R207). -/
def scans (r : Nat) : Bool := Nat.blt r 2320

/-- A 32-bit word (R16), and a list of words. -/
def isWord (w : Nat) : Bool := Nat.blt w (2 ^ 32)
def areWords (l : List Nat) : Bool := l.all isWord

/-- An aligned offset of the BAR0 image, 64 MiB (R31). -/
def isOffset (a : Nat) : Bool := Nat.blt a 0x4000000 && a % 4 == 0

/-- Sources and causes of reports (Table 15.1). -/
def areReports (rs : List (Nat × Nat)) : Bool := rs.all (fun x => Nat.blt x.1 64 && Nat.blt x.2 65536)

/-- The shape of a burst (R393 to R395): one of the eleven masters, words with four byte enables, an address below
2^40. -/
def burstShape (b : Burst) : Bool :=
  Nat.blt b.master 11 && Nat.blt b.addr (2 ^ 40) && b.words.all (fun x => isWord x.1 && Nat.blt x.2 16)
  && b.requesters.all (Nat.blt · 11)

/-- The command is well formed. -/
def Instr.wf (c : Instr) : Bool :=
  match c with
  | .regWrite _ _ a v be => isOffset a && isWord v && Nat.blt be 16
  | .wideLowWordRead _ r => Nat.blt r.bar 6 && isOffset r.addr && Nat.blt r.be 16
  | .wideUpperWordWrite _ a v => isOffset a && isWord v
  | .wideLowWordWrite _ a v => isOffset a && isWord v
  | .doorbell off => Nat.blt off 18576 && off % 4 == 0
  | .marginMeasurement u _ => isUnit u
  | .vidRaise => true
  | .vidLower => true
  | .shedLevelEnter u => isUnit u
  | .shedLevelLeave u => isUnit u
  | .coreTimingLost u => isUnit u
  | .minRst w => isWord w
  | .codeViolation u chs => isUnit u && !chs.isEmpty
  | .handshakeStall u chs => isUnit u && !chs.isEmpty
  | .edgeComputeStart kind p _ _ => Nat.blt kind 4 && isPort p
  | .actionArmed kind _ _ => Nat.blt kind 7
  | .timePllLock => true
  | .timePllUnlock => true
  | .oscInLoss => true
  | .followerBroadcast skews => Nat.ble skews.length 5
  | .timeSet _ w => isWord w
  | .timeAdjustStep _ w => isWord w
  | .timeAdjustSlew _ w => isWord w
  | .slewAbsorbed => true
  | .histClr w => isWord w
  | .historyPush => true
  | .servoEnable w => isWord w
  | .ptpSyncReceived p _ _ => isPort p
  | .followUpReceived p _ => isPort p
  | .referenceLost => true
  | .announceReceived p _ => isPort p
  | .announceReceiptTimeout p => isPort p
  | .preMasterTimeout p => isPort p
  | .syncTransmit p => isPort p
  | .announceTransmit p => isPort p
  | .delayReqTransmit p => isPort p
  | .delayReqReceived p _ _ => isPort p
  | .delayRespReceived p _ => isPort p
  | .pdelayReqReceived p _ _ => isPort p
  | .pdelayExchangeComplete p _ _ _ _ => isPort p
  | .delayResponseTimeout p => isPort p
  | .tcMatchEntryExpire q _ seq => isQuad q && Nat.blt seq 65536
  | .irigFrameDecoded _ => true
  | .tcapEdge n _ _ => Nat.blt n 4
  | .tcapArm n w => Nat.blt n 4 && isWord w
  | .pulseEnable n w => Nat.blt n 4 && isWord w
  | .pulseDisable n w => Nat.blt n 4 && isWord w
  | .pulseEdge n => Nat.blt n 4
  | .phyChange p w => isPort p && isWord w
  | .cdrLock p => isPort p
  | .pcsLock p => isPort p
  | .upDlyExpire p => isPort p
  | .lossOfLock p _ => isPort p
  | .hiBer p => isPort p
  | .remoteFaultReceived p => isPort p
  | .frame64thByte p _ head _ _ => isPort p && head.length == 64
  | .frameEndReceived e => isPort e.port && isWord e.fcs && e.parts.all (fun x => Nat.blt x.1 256 && Nat.blt x.2.1 256)
  | .pauseFrameReceived p v => isPort p && Nat.blt v 65536
  | .pfcFrameReceived p enable times => isPort p && Nat.blt enable 256 && times.length == 8 && times.all (Nat.blt · 65536)
  | .pauseTimerExpire p i => isPort p && Nat.blt i 9
  | .txFrameQueued p => isPort p
  | .selectionPoint p => isPort p
  | .txFrameDone p _ => isPort p
  | .verifyTimerExpire p => isPort p
  | .verifyMpacketReceived p => isPort p
  | .respondMpacketReceived p => isPort p
  | .serdesPllUnlock b _ => Nat.blt b 24
  | .clsStagedWrite q w => isQuad q && isWord w
  | .clsStagedRead q w => isQuad q && isWord w
  | .clsStagedDone q => isQuad q
  | .clsHashKeyWrite q j w => isQuad q && Nat.blt j 2 && isWord w
  | .meterPeek q w => isQuad q && isWord w
  | .scheduleGo w => isWord w
  | .scheduleAbort w => isWord w
  | .validationDone => true
  | .scheduleRamWrite a w => Nat.ble 0x400000 a && Nat.blt a 0x800000 && a % 4 == 0 && isWord w
  | .bankSwitch => true
  | .scbCycleStart => true
  | .commitHandoff _ => true
  | .scheduleEnable w => isWord w
  | .gateTransition p => isPort p
  | .holdRaise p => isPort p
  | .holdRelease p => isPort p
  | .touchedMasksReceived _ => true
  | .guardClose p => isPort p
  | .guardReopen p => isPort p
  | .shaperEntryWrite q o w => isQuad q && Nat.ble 0x120000 o && Nat.blt o 0x180000 && o % 4 == 0 && isWord w
  | .shaperPeek q w => isQuad q && isWord w
  | .dupStagedWrite q w => isQuad q && isWord w
  | .dupStagedRead q w => isQuad q && isWord w
  | .dupStagedDone q => isQuad q
  | .dupHashKeyWrite q j w => isQuad q && Nat.blt j 2 && isWord w
  | .sourceLookupDone p _ l _ => isPort p && Nat.blt 0 l.length
  | .ageSweep q => isQuad q
  | .frerSweep q => isQuad q
  | .ringScanStart r _ => scans r
  | .scanDataReturn r d => scans r && areWords d.words
  | .txFetchDone r _ => isRing r
  | .entryComplete r _ => isRing r
  | .msixGapExpire r => isRing r
  | .ringEnable r w => isRing r && isWord w
  | .ringDisable r w => isRing r && isWord w
  | .ringIdle r => isRing r
  | .ringHeadWrite r w => isRing r && isWord w
  | .hostLinkLost h => isHost h
  | .noticeWrite h code block index args => isHost h && Nat.blt code 1024 && Nat.blt block 256 && Nat.blt index 65536 && args.length == 3 && areWords args
  | .noticeConsumerWrite h w => isHost h && isWord w
  | .busWriteError r _ => isRing r
  | .busReadError r _ => isRing r
  | .grafaEnable q w => isQuad q && isWord w
  | .grafaDisable q w => isQuad q && isWord w
  | .retrain q w => isQuad q && isWord w
  | .holdRelWrite q w => isQuad q && isWord w
  | .upstreamLockAcquired l => isQuad l.quad && l.heads.length == 4 && l.heads.all (fun h => h.all (Nat.blt · 16))
  | .lockTimeout q => isQuad q
  | .alignDone q => isQuad q
  | .alignTimeout q => isQuad q
  | .retryDelayExpire q => isQuad q
  | .blockLockLost q j heads => isQuad q && Nat.blt j 4 && heads.all (Nat.blt · 16)
  | .syncMissed q j => isQuad q && Nat.blt j 4
  | .commandTimeout q seq => isQuad q && Nat.blt seq 256
  | .grafaSyncTransmit q _ => isQuad q
  | .grafaSyncReceived q lanes => isQuad q && lanes.length == 4
  | .flitCrcError q _ => isQuad q
  | .pingTimer q => isQuad q
  | .rsp q seq op st words _ _ => isQuad q && Nat.blt seq 256 && Nat.blt op 256 && Nat.blt st 256 && areWords words
  | .status q _ _ _ _ _ _ cnts _ => isQuad q && cnts.length == 3
  | .tap q base j codes _ _ => isQuad q && Nat.blt base 256 && Nat.blt j 8 && codes.all (Nat.blt · 65536)
  | .holdSns q pair base words _ => isQuad q && Nat.blt pair 64 && Nat.blt base 1024 && areWords words
  | .holdLat q pair base words _ => isQuad q && Nat.blt pair 64 && Nat.blt base 1024 && areWords words
  | .landSns q base round words _ => isQuad q && Nat.blt base 256 && Nat.blt round 128 && areWords words
  | .landingRound q _ _ _ => isQuad q
  | .landingAttemptTimeout q i => isQuad q && Nat.blt i 256
  | .lockstepMismatch q lane kind _ _ => isQuad q && Nat.blt lane 64 && Nat.blt kind 2
  | .laneSelfTest q h w => isQuad q && Nat.blt h 2 && isWord w
  | .laneSelfTestDone q lane _ => isQuad q && Nat.blt lane 64
  | .nitinolStartupDone q _ _ => isQuad q
  | .holdVisit q pair _ => isQuad q && Nat.blt pair 64
  | .cellRead q c => isQuad q && Nat.blt c 65536
  | .cellPark q c => isQuad q && Nat.blt c 65536
  | .unparkBar q c => isQuad q && Nat.blt c 65536
  | .unparkCross q c => isQuad q && Nat.blt c 65536
  | .commitListsReceived q _ => isQuad q
  | .reacquisitionStart q => isQuad q
  | .readbackStep q => isQuad q
  | .reacquisitionEnd q => isQuad q
  | .relandingStart q => isQuad q
  | .nitinolEnable q w => isQuad q && isWord w
  | .nitinolDisable q w => isQuad q && isWord w
  | .reacq q w => isQuad q && isWord w
  | .fabLoad w => isWord w
  | .fabLoadDone bad => Nat.ble bad 2
  | .fabEnable w => isWord w
  | .fabCommit r _ => isRing r
  | .cancel r _ => isRing r
  | .commitResolved bad => Nat.blt bad 3
  | .resolveDeadline => true
  | .fabArm => true
  | .armDeadline => true
  | .commitDispatch => true
  | .commitInstant => true
  | .sliceReport q _ => isQuad q
  | .commitWithdrawal => true
  | .blankEnd i _ => Nat.blt i 1024
  | .policyBuild _ _ => true
  | .wtrExpire x => Nat.blt x.entry 1024
  | .zoneSample z temp => Nat.blt z 16 && Nat.blt temp 65536
  | .passMaxAge q => isQuad q
  | .runNow q w => isQuad q && isWord w
  | .annealStepStart q => isQuad q
  | .annealTableLoad q _ => isQuad q
  | .annealEnable w => isWord w
  | .uncalBatchWrite q => isQuad q
  | .cbChannelEnable c w => isChannel c && isWord w
  | .cbChannelDisable c w => isChannel c && isWord w
  | .cbCycleStart c _ => isChannel c
  | .guardianOpen c _ _ => isChannel c
  | .guardianClose c => isChannel c
  | .cbSofArrival c k _ _ => isChannel c && isSpoke k
  | .cbFrameEnd c k _ head payload check tail =>
    isChannel c && isSpoke k && (head ++ payload ++ check ++ tail).all (fun g => Nat.ble g 512)
  | .cbNitStart c => isChannel c
  | .unblock c k => isChannel c && isSpoke k
  | .cbListenTimeout c => isChannel c
  | .cbModeRequest c w => isChannel c && isWord w
  | .cbModeSwitch c => isChannel c
  | .cbOwnFrameSend c _ _ _ _ => isChannel c
  | .cbHaltTimeout c => isChannel c
  | .sealTripCheck _ => true
  | .matrixBurst b => burstShape b
  | .masterReset m _ => Nat.blt m 11
  | .masterDrainDone m => Nat.blt m 11
  | .bmvGo n w => Nat.blt n 8 && isWord w
  | .bmvAbort n w => Nat.blt n 8 && isWord w
  | .bmvReadReturn n data _ => Nat.blt n 8 && areWords data
  | .bmvWriteResponse n _ => Nat.blt n 8
  | .sealStart n => Nat.blt n 8
  | .sealEvalDone n _ => Nat.blt n 8
  | .eventPulse => true
  | .fire => true
  | .seqRun w => isWord w
  | .servicePortWrite addr v _ => isWord addr && isWord v
  | .servicePortRead addr _ => isWord addr
  | .servicePortUnknown => true
  | .servicePortCut => true
  | .faultReport rs => areReports rs
  | .faultClear j x => Nat.blt j 2 && isWord x.word && areReports x.reports
  | .graceExpire ns => ns.all (Nat.blt · 64)
  | .quietExpire e => Nat.blt e.unit 11 && areReports e.reports
  | .recover u x => Nat.blt u 11 && isWord x.word && x.due.all (Nat.blt · 64)
  | .kick w => isWord w
  | .watchdogExpire => true
  | .swFatal w => isWord w
  | .firstClr w => isWord w
  | .injectionArm w => isWord w
  | .aliveToggle => true
  | .bronzeEvent code block index arg0 arg1 => Nat.blt code 1024 && Nat.blt block 256 && Nat.blt index 65536 && isWord arg0 && isWord arg1
  | .bronzeRecordWrite => true
  | .bronzeWindowStart => true
  | .freeze w => isWord w
  | .unfreeze w => isWord w
  | .keepFlushDone => true
  | .keepCheckDone => true
  | .bronzeReady => true
  | .softwareRecord _ w => isWord w
  | .supplySample raw => Nat.blt raw 4096
  | .rippleWindowEnd => true
  | .pfwAssert => true
  | .pfwRelease => true
  | .powerRequest j w => Nat.blt j 2 && isWord w
  | .domainRampStart => true
  | .domainRampDone => true
  | .domainOff n => Nat.blt 0 n && Nat.blt n 52
  | .domainReady n => Nat.blt n 52
  | .coldPowerUp => true
  | .porAssert => true
  | .porRelease => true
  | .pd00Undervoltage => true
  | .controllerResetAssert => true
  | .controllerResetRelease => true
  | .rstNGlitch => true
  | .ctrlRst w => isWord w
  | .ctrlRstExpire => true
  | .pwrHold j w => Nat.blt j 2 && isWord w
  | .perstAssert h => isHost h
  | .perstRelease h => isHost h
  | .tapReset => true
  | .extest _ => true
  | .idcode => true
  | .samplePreload _ => true
  | .highz => true
  | .clamp => true
  | .extestPulse _ => true
  | .extestTrain _ => true
  | .bypass => true
  | .irigFrameMissing => true
  | .shaperCreditZero p => isPort p
  | .landBindSend q _ => isQuad q
  | .spokeCodeGroupSync c k _ => isChannel c && isSpoke k
  | .flitTypeError q _ => isQuad q
  | .measurePing q => isQuad q

end Sys2Proof
end

