-- ==== Sys2Proof/Safety.lean ====
section
/-! DEFINITION. What counts as a sound state of the block, and the terms in which statements speak of commands: what
a command answers, and what it leaves alone. -/

namespace Sys2Proof.Machine

/-- A register file in its canonical form: offsets rise strictly, no listed word equals its reset value, and no
listed word holds a bit that the field tables give no state (R14, R15). -/
def regsOk (r : Table Word) : Prop :=
  Table.wf resetWord r ∧ ∀ x ∈ r, x.2.toNat &&& implOf x.1 = x.2.toNat

/-- A sound state: the register file, the MSI-X words, the pins, the Keep store and Code RAM are in canonical form, so
that equal contents are equal data, and no register holds a reserved bit. -/
def State.Sound (s : State) : Prop :=
  regsOk s.regs ∧ Table.wf msixReset s.msix ∧ Table.wf (fun _ => 0) s.pins ∧ Table.wf (fun _ => 0) s.brz.keep
  ∧ Table.wf (fun _ => 0) s.code

/-- The command leaves the block as it is. -/
def NoEffect (i : Instr) (s : State) : Prop := exec i s = .next s

/-- From `s` to `t` only register words listed in `l` change: every other word and every other part of the state is
as before. -/
def OnlyWords (l : List Nat) (s t : State) : Prop :=
  { t with regs := s.regs } = s ∧ ∀ a, a ∉ l → t.word a = s.word a

/-- Every register and table word is as before; other parts of the state may change. -/
def SameWords (s t : State) : Prop := t.regs = s.regs

/-- No read waits to be reported, and no word whose key satisfies `p` has inverted check bits (R428). -/
def State.Quiet (s : State) (p : Nat → Bool) : Prop := s.touched = [] ∧ ∀ x ∈ s.injected, p x.1 = false

/-- Port `p` receives PTP messages: PTP_EN = 1, the port takes part (R80, R87), and its quadrant is not isolated (R28). -/
def State.hearsPtp (s : State) (p : Nat) : Bool := !s.iso (p / 36) && (s.flag F.invPtpCtlPtpEn && s.ptpRuns p)

/-- Port `p` receives peer delay messages: enabled, whatever its state (R82). -/
def State.hearsPeer (s : State) (p : Nat) : Bool :=
  !s.iso (p / 36) && (s.flag F.invPtpCtlPtpEn && s.flag (F.invPctlEn p))

/-- The message carries the clock's domain and version 2 and comes from another clock (R87). -/
def State.ptpForUs (s : State) (l : List Byte) : Bool :=
  byteAt l 4 == s.fget F.invPtpCtlDomain && byteAt l 1 % 16 == 2 && !(ptpSrc 0 l / 65536 == s.clockId)

end Sys2Proof.Machine
end

