-- ==== Sys2Proof/Certificates/Slice0/Obligations.lean ====
section
/-! DEFINITION. What is claimed of the model, one proposition per claim. -/

open Sys2Proof Sys2Proof.Machine

/-- For every state, command and queue: a step of a state whose queue is the command followed by the rest is exec of
that command on the state with the queue's rest. The queue is the model's own. (01_architecture.md) -/
def Obligations.StepRunsTheFrontCommand : Prop :=
  ∀ (s : State) (c : Instr) (rest : List Instr), step { s with pending := c :: rest } = exec c { s with pending := rest }

/-- On an empty queue a step adds one tick's increment to the master counter once the counter has started and while
PD00 is READY, and changes nothing before that. That a step on an empty queue is one tick is the model's design choice
of log entry 2. That a command whose condition does not hold changes nothing is the model's choice (log entry 3).
(03_invar_network_time.md) -/
def Obligations.EmptyQueueStepIsOneTick : Prop :=
  ∀ s : State, s.pending = [] →
    (s.inv.started = true → s.ready 0 = true → ∃ t, step s = .next t ∧ t.counter = s.counter + s.tickUnits) ∧
    ((s.inv.started = false ∨ s.ready 0 = false) → step s = .next s)

/-- For every command and every state, exec answers a next state, never a fault or a refusal, whose queue is the queue
before it. (00_scope.md) -/
def Obligations.EveryCommandAnswersAndKeepsTheQueue : Prop :=
  ∀ (c : Instr) (s : State), ∃ t, exec c s = .next t ∧ t.pending = s.pending

/-- Sound says: the register file, the MSI-X words, the pins, the Keep store and Code RAM are in canonical form, and
no register holds a reserved bit. If a state is sound and a step answers a next state, that state is sound. The
statement is over every state and every waiting command, not only over runs from reset. (00_scope.md) -/
def Obligations.EveryStepKeepsASoundState : Prop :=
  ∀ s t : State, s.Sound → step s = .next t → t.Sound

/-- The state right after a cold power-up meets the invariant that every step keeps. (00_scope.md) -/
def Obligations.ResetIsSound : Prop := State.reset.Sound

/-- In every sound state the value of every word has only bits that the field tables give state to, and storing any
number at any word leaves every other bit 0. (R15) -/
def Obligations.ReservedBitsReadZero : Prop :=
  (∀ s : State, s.Sound → ∀ a, s.rd a &&& implOf a = s.rd a) ∧
  ∀ (s : State) (a n i : Nat), (implOf a).testBit i = false → ((s.wr a n).rd a).testBit i = false

/-- If two sound states read the same at every word, their register files are the same data: equal contents are equal
states. (00_scope.md) -/
def Obligations.EqualReadingsAreEqualRegisterFiles : Prop :=
  ∀ s t : State, s.Sound → t.Sound → (∀ a, s.word a = t.word a) → s.regs = t.regs

/-- Right after a cold power-up every word reads the reset value of its row, every switched domain is OFF, column 0 of
the map in force is unspecified, network time is 0 and nothing waits; PWR_CAUSE reads the cold power-up. That
State.reset is the state right after a cold power-up is log entry 1. (R14, R311, R449, 17_power_reset_start.md) -/
def Obligations.ResetGivesTheStatedValues : Prop :=
  (∀ a, State.reset.rd a = resetOf a) ∧ (∀ n, 0 < n → n < 52 → State.reset.fget (F.pwrDomState n) = 0) ∧
  State.reset.fget (F.pwrDomState 0) = 3 ∧ State.reset.rd 0x888000 = 0x02000200 ∧ State.reset.counter = 0 ∧
  State.reset.pending = [] ∧ State.reset.fget F.pwrCauseDev = 1 ∧ State.reset.fget F.hscVidCode = 20

/-- For every word with no store rule of its own, state and written value, bit i of the word after a store is: the
written bit where i is RW, or RWL and its block is disabled; the old bit cleared by a written 1 where i is W1C; the
old bit where i is RO, W1S (whose action is its command's), or RWL and locked; 0 where i holds no state. Nothing but
that word changes. (R14, R16) -/
def Obligations.StoringFollowsTheAccessTypes : Prop :=
  ∀ (s : State) (a v : Nat) (r : RegRow), regRow a = some r → tableWord a = false → r.adj = [] →
    (∀ old n, fixWord a old n = n) →
    OnlyWords [a] s (s.store a v) ∧
    ∀ i, ((s.store a v).rd a).testBit i =
      ((implOf a).testBit i &&
        (if r.rw.testBit i || (r.rwl.testBit i && !s.locked a) then
          v.testBit i && !(r.w1c.testBit i && v.testBit i)
        else (s.rd a).testBit i && !(r.w1c.testBit i && v.testBit i)))

/-- A REG_WRITE with four byte enables at an aligned word that is no part of a wide value, by a requester that can
issue accesses, through an open gate, to a block no reaction holds in reset, completes: its target grants it, and the
register's write operation takes the word; the Bulk Mover goes on if that ends the Spine's shed level, and words read
meanwhile with inverted check bits are reported. In an injectable memory the word is also written with its check bits
where the memory takes it; behind a target other than REG a partial write takes the enabled bytes over the old word
(the model's choice, log entry 75). A requester that cannot issue changes nothing. A partial write at REG is granted
and changes no register. A host's write of BAR2 rings the doorbell of a working ring, or takes the enabled bytes of an
MSI-X table word (log entry 75), and one that leaves a pending vector unmasked sends it; anywhere else, and by a
requester that is no host, it changes nothing. That a command whose condition does not hold changes nothing is the
model's choice (log entry 3). (R14, R28, 14_matrix_mover_seal.md, R16, 01_architecture.md) -/
def Obligations.WritesReachTheirRegisterWhole : Prop :=
  (∀ (s : State) (q : Requester) (a v : Nat), a % 4 = 0 →
    (s.issues q = true → s.gateOf (masterOf q) a = .open' → s.blockHeld a = false → wideLow a = none → wideUpper a = 0 →
      memoryOf a = none →
      exec (.regWrite q false a v 15) s = .next (s.resumed
        ((s.granting (masterOf q) (targetOfWord a)).writeReg q a (v % 2 ^ 32)).reportReads)) ∧
    (s.issues q = false → exec (.regWrite q false a v 15) s = .next s)) ∧
  (∀ (s : State) (q : Requester) (a v be : Nat), s.issues q = true → s.gateOf (masterOf q) a = .open' → s.touched = [] →
    targetOfWord (a / 4 * 4) = 0 → be % 16 ≠ 15 →
    exec (.regWrite q false a v be) s = .next (s.granting (masterOf q) (targetOfWord a))) ∧
  (∀ (s g : State) (q : Requester) (a v be : Nat) (m : Nat × Nat), a % 4 = 0 → s.issues q = true →
    s.gateOf (masterOf q) a = .open' → s.blockHeld a = false → wideLow a = none → wideUpper a = 0 → memoryOf a = some m →
    g = s.granting (masterOf q) (targetOfWord a) → (be % 16 = 15 ∨ targetOfWord a ≠ 0) →
    ∀ w, w = (if be % 16 = 15 then v % 2 ^ 32 else mergeBytes (s.rd a) v be) →
      exec (.regWrite q false a v be) s = .next (s.resumed
        ((g.when (g.takesWrite a) (·.memWritten m.1 m.2 a)).writeReg q a w).reportReads)) ∧
  (∀ (s : State) (q : Requester) (h o v be : Nat), hostOf q = some h → s.issues q = true →
    (o < 0x4890 →
      (s.ringWorks (o / 8) = true → exec (.regWrite q true o v be) s = .next (s.ringDoorbell (o / 8))) ∧
      (s.ringWorks (o / 8) = false → exec (.regWrite q true o v be) s = .next s)) ∧
    (0x10000 ≤ o → o < 0x18000 →
      ∀ e k, e = s.setMsix h (o / 4 * 4) (mergeBytes (s.msixWord h (o / 4 * 4)) v be) → k = (o - 0x10000) / 16 →
        (o / 4 % 4 ≠ 3 → exec (.regWrite q true o v be) s = .next e) ∧
        (o / 4 % 4 = 3 →
          (bitAt (e.msixWord h (0x1000C + 16 * k)) 0 = false → bitAt (e.msixWord h (0x18000 + 4 * (k / 32))) (k % 32) = true →
            exec (.regWrite q true o v be) s = .next ((e.setMsix h (0x18000 + 4 * (k / 32))
              (withBits (e.msixWord h (0x18000 + 4 * (k / 32))) (k % 32) 1 0)).emit (.msix h k))) ∧
          (bitAt (e.msixWord h (0x1000C + 16 * k)) 0 = true ∨
              bitAt (e.msixWord h (0x18000 + 4 * (k / 32))) (k % 32) = false →
            exec (.regWrite q true o v be) s = .next e))) ∧
    ((0x4890 ≤ o ∧ o < 0x10000) ∨ 0x18000 ≤ o → exec (.regWrite q true o v be) s = .next s)) ∧
  ∀ (s : State) (q : Requester) (o v be : Nat), hostOf q = none ∨ s.issues q = false →
    exec (.regWrite q true o v be) s = .next s

/-- A REG_WRITE of a requester that can issue accesses, whose target is not connected, not READY or isolated, while
PD47 is READY and no access is logged, counts one in DEF_ACCESS and logs the address, the master, that it is a write
and whether a gate answered; every other word and everything but the grant of its target is as before. While an access
is logged, only the count changes. Such a write of the sequencer also ends its running steps with ERROR. (R28,
14_matrix_mover_seal.md) -/
def Obligations.RefusedAccessesAreCountedAndLogged : Prop :=
  ∀ (s : State) (q : Requester) (a v be : Nat), s.issues q = true → s.gateOf (masterOf q) a ≠ .open' → s.ready 47 = true →
    (q ≠ .sequencer → ∃ t, exec (.regWrite q false a v be) s = .next t ∧
      OnlyWords [Reg.mtxCnt 0, Reg.mtxDefLog0, Reg.mtxDefLog1] (s.granting (masterOf q) (targetOfWord a)) t ∧
      t.rd (Reg.mtxCnt 0) = (s.rd (Reg.mtxCnt 0) + 1) % 2 ^ 32 ∧
      (s.flag F.mtxDefLog1V = true → OnlyWords [Reg.mtxCnt 0] (s.granting (masterOf q) (targetOfWord a)) t) ∧
      (s.flag F.mtxDefLog1V = false →
        t.rd Reg.mtxDefLog0 = (bar0Base + a) % 2 ^ 32 ∧ t.fget F.mtxDefLog1Master = masterOf q ∧
        t.flag F.mtxDefLog1V = true ∧
        t.flag F.mtxDefLog1Iso = decide (s.gateOf (masterOf q) a = .shut))) ∧
    (q = .sequencer → s.gateOf 8 a = .def' → exec (.regWrite q false a v be) s = .next (s.resumed
      (((s.granting 8 (targetOfWord a)).defAccess (bar0Base + a) 8 true false false).seqError (bar0Base + a))))

/-- A WIDE_LOW_WORD_READ of BAR0 through an open gate, of a word with good check bits (that of the Keep word behind a
Keep window), leaves the requester's shadow of every upper word at the live value of that word, leaves every other
requester's shadow of every BAR0 word as it was, answers the addressed bytes of the lowest word's live value, a ring
record with an unreadable word showing V = 0 (R447), and changes no register. A read of an upper word answers the
requester's shadow and changes no shadow. A host's read of BAR2 answers its MSI-X table and pending words, and 0 in
the doorbells below 0x10000 and in the unused range from 0x18100 on; its reads of BAR4 and BAR5 answer 0. (R16, R17,
R32, R447) -/
def Obligations.ReadingTheLowestWordCaptures : Prop :=
  (∀ (s : State) (q : Requester) (a be : Nat), a % 4 = 0 → s.issues q = true → s.gateOf (masterOf q) a = .open' →
    Table.get 0 (s.wordKey a) s.injected = 0 →
    (wideLow a = none →
      ∃ t, exec (.wideLowWordRead q ⟨0, a, be⟩) s = .next t ∧
        (∀ u ∈ upperWords a, t.shadowOf q u = s.liveWord u) ∧
        (∀ r u, r ≠ q → u < 0x4000000 → t.shadowOf r u = s.shadowOf r u) ∧
        t.out = .readData q a (s.ringMark a (s.liveWord a) &&& laneMask be) :: s.out ∧ SameWords s t) ∧
    (∀ b, wideLow a = some b →
      exec (.wideLowWordRead q ⟨0, a, be⟩) s = .next
        ((s.granting (masterOf q) (targetOfWord a)).emit (.readData q a (s.shadowOf q a &&& laneMask be))))) ∧
  ∀ (s : State) (q : Requester) (h bar o be : Nat), hostOf q = some h → s.issues q = true →
    exec (.wideLowWordRead q ⟨2, o, be⟩) s = .next (s.emit (.readData q o (s.bar2Read h o &&& laneMask be))) ∧
    (o < 0x10000 ∨ 0x18100 ≤ o → s.bar2Read h o = 0) ∧
    (0x10000 ≤ o → o < 0x18100 → s.bar2Read h o = s.msixWord h (o / 4 * 4)) ∧
    (bar = 4 ∨ bar = 5 → exec (.wideLowWordRead q ⟨bar, o, be⟩) s = .next (s.emit (.readData q o 0)))

/-- Both commands complete for a requester that can issue accesses, through an open gate to a block not held in reset,
at an aligned word. A WIDE_UPPER_WORD_WRITE of a word with no write-one field only stages the word for its requester:
no register changes and no other requester's staging words change; one of a word with write-one fields stages the rest
of the word and acts on those bits at once. A WIDE_LOW_WORD_WRITE first applies what its requester staged, which
empties that requester's staging words for the value, and then is the lowest register's own write. (R17) -/
def Obligations.WritingAWideValueStagesItsUpperWords : Prop :=
  ∀ (s : State) (q : Requester) (a v : Nat), a % 4 = 0 → s.issues q = true → s.gateOf (masterOf q) a = .open' →
    s.blockHeld a = false → s.touched = [] →
    (∀ b g, wideLow a = some b → g = s.granting (masterOf q) (targetOfWord a) →
      (actsAtOnce a = 0 → ∃ t, exec (.wideUpperWordWrite q a v) s = .next t ∧
        t.stagedOf q a = v % 2 ^ 32 + 1 ∧ SameWords s t ∧
        ∀ r u, r ≠ q → u < 0x4000000 → t.stagedOf r u = s.stagedOf r u) ∧
      (actsAtOnce a ≠ 0 → exec (.wideUpperWordWrite q a v) s = .next (s.resumed
        ((g.stage q a (some (v % 2 ^ 32 &&& (0xFFFFFFFF ^^^ actsAtOnce a)))).writeReg q a
          (v % 2 ^ 32 &&& actsAtOnce a)).reportReads))) ∧
    (wideLow a = none → memoryOf a = none →
      ∃ t u, exec (.wideLowWordWrite q a v) s = .next t ∧ t = s.resumed (u.writeReg q a (v % 2 ^ 32)).reportReads ∧
        u = (s.granting (masterOf q) (targetOfWord a)).applyStaged q a ∧ ∀ w ∈ upperWords a, u.stagedOf q w = 0)

/-- For unit u = 0..5 whose base domain is READY, a measured ring period is published in HSC_MARGIN_u as M in 0.1 %,
for one rounding of an inexact M (free, log entry 12), HSC_MARGIN_MIN_u holds the lower of itself and M, the shed
level stays, and VALID reads 1, or 0 while the unit is isolated (log entry 91). Where a valid margin stood before, or
the unit is isolated, no other register changes; the first valid one lets VID follow its fields: CODE is MANUAL, or
with AUTO_VID = 1 the old code within FLOOR and CEIL, and VID is driven with it. In a unit whose base domain is not
READY nothing changes. That a command whose condition does not hold changes nothing is the model's choice (log entry
3). (R42, R454) -/
def Obligations.MeasurementPublishesTheMargin : Prop :=
  ∀ (s : State) (u period : Nat), u < 6 →
    (s.reportsFor u = true →
      ∃ t, exec (.marginMeasurement u period) s = .next t ∧
        (∃ up, t.margin u = marginOf period up ∧ t.flag (F.hscMarginValid u) = s.unitPowered u ∧
          t.fget (F.hscMarginShed u) = s.fget (F.hscMarginShed u) ∧
          signedOf (t.fget (F.hscMarginMinMin u)) 16
            = min (signedOf (s.fget (F.hscMarginMinMin u)) 16) (marginOf period up)) ∧
        (s.unitPowered u = false ∨ s.lowestMargin ≠ none → OnlyWords [Reg.hscMargin u, Reg.hscMarginMin u] s.useFree t) ∧
        (s.unitPowered u = true → s.lowestMargin = none →
          OnlyWords [Reg.hscMargin u, Reg.hscMarginMin u, Reg.hscVid] { s.useFree with pins := t.pins } t ∧
          t.fget F.hscVidCode = (if s.flag F.hscSlkCtlAutoVid
            then min (s.fget F.hscVidCeil) (max (s.fget F.hscVidFloor) (s.fget F.hscVidCode)) else s.fget F.hscVidManual) ∧
          t.fget F.hscVidManual = s.fget F.hscVidManual ∧ Table.get 0 Pin.vid t.pins = t.fget F.hscVidCode + 1)) ∧
    (s.reportsFor u = false → NoEffect (.marginMeasurement u period) s)

/-- With AUTO_VID = 1 and a valid lowest margin m: above M_LOWER, VID_LOWER leaves the code at one less, limited by
FLOOR and CEIL, CEIL winning, drives VID with it and changes no other register; below M_RAISE, VID_RAISE drives two
more, likewise limited, and at CEIL the corrected source 53 is reported. With AUTO_VID = 0, no valid margin or the
margin on the other side of its threshold the command changes nothing. That at CEIL source 53 is reported on every
raise is log entry 13's reading. VID_RAISE and VID_LOWER change nothing while AUTO_VID is 0 or no monitor of a
powered, unisolated unit has a valid margin. That a command whose condition does not hold changes nothing is the
model's choice (log entry 3). (R44, R45) -/
def Obligations.VidFollowsTheLowestMargin : Prop :=
  (∀ (s : State) (m : Int), s.lowestMargin = some m → s.flag F.hscSlkCtlAutoVid = true →
    (10 * (s.fget F.hscSlkCtlMLower : Int) < m →
      ∃ t, exec .vidLower s = .next t ∧
        t.fget F.hscVidCode = min (s.fget F.hscVidCeil) (max (s.fget F.hscVidFloor) (s.fget F.hscVidCode - 1)) ∧
        Table.get 0 Pin.vid t.pins = t.fget F.hscVidCode + 1 ∧ t.fget F.hscVidManual = s.fget F.hscVidManual ∧
        OnlyWords [Reg.hscVid] { s with pins := t.pins } t) ∧
    (m < 10 * (s.fget F.hscSlkCtlMRaise : Int) →
      ∃ t, exec .vidRaise s = .next t ∧
        ∃ v, v = s.driveVid (min (s.fget F.hscVidCeil) (max (s.fget F.hscVidFloor) (s.fget F.hscVidCode + 2))) ∧
          (v.fget F.hscVidCode < s.fget F.hscVidCeil → t = v) ∧
          (v.fget F.hscVidCode = s.fget F.hscVidCeil → t = v.corrected 53 0)) ∧
    (m ≤ 10 * (s.fget F.hscSlkCtlMLower : Int) → NoEffect .vidLower s) ∧
    (10 * (s.fget F.hscSlkCtlMRaise : Int) ≤ m → NoEffect .vidRaise s)) ∧
  (∀ s : State, (s.lowestMargin = none ∨ s.flag F.hscSlkCtlAutoVid = false) → NoEffect .vidRaise s ∧ NoEffect .vidLower s)

/-- For unit u = 0..5, SHED_LEVEL_ENTER and SHED_LEVEL_LEAVE complete so. With SHED_EN and VALID, SHED_LEVEL_ENTER
raises the level to 3 where M is below -10 %, else to 2 below -5 %, else to 1 below 0 %, when that is above the level;
from level 0 the corrected source 52 reports the unit (R47's entry as the model reports it, log entry 14). When M is
at least 5 points above the level's threshold, SHED_LEVEL_LEAVE lowers a level above 1 by one, with HSC_MARGIN_u the
only register changed, and takes level 1 to 0, which delivers the unit's held half-range events and, in the Spine
unit, lets the Bulk Mover go on. With SHED_EN = 0, VALID = 0, or M not low enough, nothing is entered; with M too low,
or at level 0, nothing is left. That a command whose condition does not hold changes nothing is the model's choice
(log entry 3). (R47) -/
def Obligations.ShedLevelsFollowTheMargin : Prop :=
  ∀ (s : State) (u : Nat), u < 6 →
    (∀ n, n = (if s.margin u < -100 then 3 else if s.margin u < -50 then 2 else if s.margin u < 0 then 1 else 0) →
      (s.flag F.hscSlkCtlShedEn = true → s.flag (F.hscMarginValid u) = true → s.fget (F.hscMarginShed u) < n →
        (s.fget (F.hscMarginShed u) = 0 →
          exec (.shedLevelEnter u) s = .next ((s.fput (F.hscMarginShed u) n).corrected 52 u)) ∧
        (0 < s.fget (F.hscMarginShed u) →
          exec (.shedLevelEnter u) s = .next (s.fput (F.hscMarginShed u) n))) ∧
      ((s.flag F.hscSlkCtlShedEn = false ∨ s.flag (F.hscMarginValid u) = false ∨ n ≤ s.fget (F.hscMarginShed u)) →
        exec (.shedLevelEnter u) s = .next s)) ∧
    (∀ n, s.fget (F.hscMarginShed u) = n + 2 →
      (-(50 * ((n : Int) + 1)) + 50 ≤ s.margin u →
        ∃ t, exec (.shedLevelLeave u) s = .next t ∧ t.fget (F.hscMarginShed u) = n + 1 ∧ t.margin u = s.margin u ∧
          OnlyWords [Reg.hscMargin u] s t) ∧
      (s.margin u < -(50 * ((n : Int) + 1)) + 50 → exec (.shedLevelLeave u) s = .next s)) ∧
    (s.fget (F.hscMarginShed u) = 1 → 50 ≤ s.margin u →
      (u ≠ 4 → exec (.shedLevelLeave u) s = .next ((s.fput (F.hscMarginShed u) 0).releaseHr u)) ∧
      (u = 4 → exec (.shedLevelLeave u) s = .next ((s.fput (F.hscMarginShed u) 0).releaseHr u).moversGo)) ∧
    (s.fget (F.hscMarginShed u) = 0 ∨ (s.fget (F.hscMarginShed u) = 1 ∧ s.margin u < 50) →
      exec (.shedLevelLeave u) s = .next s)

/-- For a unit whose base domain is READY, channels of domains that are READY (log entry 131): while STALLED is 0,
HSC_STALL_u takes the one with the lowest block id and, within it, the lowest channel id, their number (at most 63),
VIOL for a code violation, and STALLED; while STALLED is 1 the record stays. The unit's handshake source is reported,
with cause bit 0 for a stall and bit 1 for a violation. With no such channel, or in a unit whose base domain is not
READY, nothing changes. CORE_TIMING_LOST of a unit whose base domain is READY and whose margin is below -20 % reports
cause bit 2 of the handshake source; otherwise it changes nothing. MIN_RST that keeps SHED_EN = 1, or that finds no
unit at a shed level, stores the word in HSC_SLK_CTL by its access types, sets every HSC_MARGIN_MIN to its present
margin, and, once a margin is valid, drives VID by the new fields: MANUAL, or with AUTO_VID = 1 the code within FLOOR
and CEIL; before that VID stays. That a command whose condition does not hold changes nothing is the model's choice
(log entry 3). (R40, R58, R60, R50, R450, 02_handshake_core.md) -/
def Obligations.HandshakeFaultsAreReported : Prop :=
  (∀ (s : State) (u : Nat) (all : List (Nat × Nat)), u < 6 →
    (∀ c r, all.filter (fun c => s.ready (blockDom c.1)) = c :: r → s.reportsFor u = true →
      (s.flag (F.hscStallStalled u) = true →
        exec (.handshakeStall u all) s = .next (s.report [(hsSource u, 1)]) ∧
        exec (.codeViolation u all) s = .next (s.report [(hsSource u, 2)])) ∧
      (s.flag (F.hscStallStalled u) = false →
        ∃ x ∈ c :: r, (∀ y ∈ c :: r, 65536 * x.1 + x.2 ≤ 65536 * y.1 + y.2) ∧
          ∀ w, w = x.2 % 65536 + 2 ^ 16 * (x.1 % 256) + 2 ^ 24 * min 63 (r.length + 1) + 2 ^ 31 →
            exec (.handshakeStall u all) s = .next ((s.wr (Reg.hscStall u) w).report [(hsSource u, 1)]) ∧
            exec (.codeViolation u all) s = .next ((s.wr (Reg.hscStall u) (w + 2 ^ 30)).report [(hsSource u, 2)]))) ∧
    (s.reportsFor u = false ∨ (∀ c ∈ all, s.ready (blockDom c.1) = false) →
      NoEffect (.handshakeStall u all) s ∧ NoEffect (.codeViolation u all) s)) ∧
  ((∀ (s : State) (u : Nat), u < 6 →
    (s.reportsFor u = true → s.margin u < -200 →
      exec (.coreTimingLost u) s = .next (s.report [(hsSource u, 4)])) ∧
    ((s.reportsFor u = false ∨ -200 ≤ s.margin u) → NoEffect (.coreTimingLost u) s)) ∧
  ∀ (s : State) (w : Nat), (bitAt w 1 = true ∨ ∀ u, u < 6 → s.fget (F.hscMarginShed u) = 0) →
    ∃ t, exec (.minRst w) s = .next t ∧
      t.rd Reg.hscSlkCtl = (s.store Reg.hscSlkCtl (w ||| 2 ^ 31)).rd Reg.hscSlkCtl ∧
      (∀ u, u < 6 → t.fget (F.hscMarginMinMin u) = s.fget (F.hscMarginMargin u)) ∧
      (s.lowestMargin = none → t.rd Reg.hscVid = s.rd Reg.hscVid ∧ t.pins = s.pins) ∧
      (s.lowestMargin ≠ none →
        t.fget F.hscVidCode = (if t.flag F.hscSlkCtlAutoVid
          then min (s.fget F.hscVidCeil) (max (s.fget F.hscVidFloor) (s.fget F.hscVidCode)) else s.fget F.hscVidManual) ∧
        t.fget F.hscVidManual = s.fget F.hscVidManual ∧ Table.get 0 Pin.vid t.pins = t.fget F.hscVidCode + 1) ∧
      OnlyWords [Reg.hscSlkCtl, Reg.hscVid, Reg.hscMarginMin 0, Reg.hscMarginMin 1, Reg.hscMarginMin 2, Reg.hscMarginMin 3,
        Reg.hscMarginMin 4, Reg.hscMarginMin 5] { s with pins := t.pins } t)

/-- The clockClass of the own data set: 255 with SLAVE_ONLY = 1; otherwise CLASS_LOCKED with SRC = IRIG and the servo
LOCKED; otherwise CLASS_HOLD in HOLDOVER with EVER_LOCKED = 1 and HOLD_S below HOLD_LIMIT; CLASS_FREE in every other
case. (R81) -/
def Obligations.OwnClockClassFollowsItsTable : Prop :=
  ∀ s : State,
    (s.flag F.invPtpCtlSlaveOnly = true → s.ownSet.clockClass = 255) ∧
    (s.flag F.invPtpCtlSlaveOnly = false →
      (s.fget F.invCtlSrc = 2 → s.servo = servoLocked → s.ownSet.clockClass = s.fget F.invPtpDsClassLocked) ∧
      (s.servo = servoHold → s.flag F.invStsEverLocked = true → s.holdSeconds < s.fget F.invHoldHoldLimit →
        s.ownSet.clockClass = s.fget F.invPtpDsClassHold) ∧
      (¬(s.fget F.invCtlSrc = 2 ∧ s.servo = servoLocked) →
        ¬(s.servo = servoHold ∧ s.flag F.invStsEverLocked = true ∧ s.holdSeconds < s.fget F.invHoldHoldLimit) →
        s.ownSet.clockClass = s.fget F.invPtpDs2ClassFree))

/-- In PD00 out of reset, TIME_PLL_LOCK sets PLL_LOCK and OSC_OK; the first lock starts the counter at 0 and, with
HOST_AUTO = 1, requests PD45, PD46 and PD47; a later lock leaves the counter. ALIVE reads as toggling with ALIVE_EN =
1 outside the safe state. No other register changes. With POR_N low it changes nothing. That a command whose condition
does not hold changes nothing is the model's choice (log entry 3). (R63, 17_power_reset_start.md) -/
def Obligations.TimePllLockStartsTheCounter : Prop :=
  ∀ s : State,
    (s.ready 0 = true → ∃ t, exec .timePllLock s = .next t ∧
      t.flag F.invStsPllLock = true ∧ t.flag F.invStsOscOk = true ∧ t.inv.started = true ∧
      t.counter = (if s.inv.started then s.counter else 0) ∧
      (s.inv.started = false → s.flag F.pwrCtlHostAuto = true → ∀ i, 13 ≤ i → i < 16 → t.bitOf Reg.pwrOn1 i = true) ∧
      (s.inv.started = true → t.rd Reg.pwrOn1 = s.rd Reg.pwrOn1) ∧
      t.flag F.qchStsAlive = (s.flag F.qchCtlAliveEn && !s.flag F.qchStsFatal) ∧
      OnlyWords [Reg.invSts, Reg.pwrOn1, Reg.qchSts] { s with counter := t.counter, inv := t.inv } t) ∧
    (s.ready 0 = false → NoEffect .timePllLock s)

/-- For a powered follower u = 0..4 at a broadcast, with error e = skew + SKEW_TRIM less the correction in 1/16 ns:
ERR takes e held within a signed byte; a follower that loads takes the whole error; an error of at most 64 moves the
correction by one towards it, and the sixteenth error in a row of at most 8 locks the follower; a larger one clears
LOCK, takes the whole error and is reported. The follower then counts the correction less its uncorrected lag of the
broadcast away from the master. The model keeps the correction as data. (R64) -/
def Obligations.FollowersCorrectThemselves : Prop :=
  ∀ (s : State) (u : Nat) (skew c e : Int), u < 5 → s.folOn u = true → c = Table.get 0 u s.inv.fol →
    e = skew + signedOf (s.fget (F.invFolSkewTrim u)) 8 - c →
    (bitAt s.inv.folNew u = true → ∀ t, t = s.follow u skew →
      signedOf (t.fget (F.invFolErr u)) 8 = clampInt (-128) 127 e ∧ Table.get 0 u t.inv.fol = c + e ∧
      Table.get 0 u t.inv.folPh = c + e - skew ∧ bitAt t.inv.folNew u = false ∧ t.flag (F.invFolLock u) = s.flag (F.invFolLock u) ∧
      OnlyWords [(F.invFolErr u).addr] { s with inv := t.inv } t) ∧
    (bitAt s.inv.folNew u = false → e.natAbs ≤ 64 → ∀ t, t = s.follow u skew →
      signedOf (t.fget (F.invFolErr u)) 8 = clampInt (-128) 127 e ∧ Table.get 0 u t.inv.fol = c + e.sign ∧
      Table.get 0 u t.inv.folPh = c + e.sign - skew ∧
      (t.flag (F.invFolLock u) = true ↔
        s.flag (F.invFolLock u) = true ∨ (e.natAbs ≤ 8 ∧ 15 ≤ Table.get 0 u s.inv.folRun)) ∧
      OnlyWords [(F.invFolErr u).addr, Reg.invSts] { s with inv := t.inv } t) ∧
    (bitAt s.inv.folNew u = false → 64 < e.natAbs →
      s.follow u skew = ((((s.fput (F.invFolErr u) (encodeSigned (clampInt (-128) 127 e) 8)).setFolLock u false).setFol
        u (c + e) skew 0).report [(if u = 4 then 33 else 8 * u + 1, 1)]))

/-- With PD00 READY, after the requester's staged upper words are taken: TIME_SET is a step of the counter to the NT96
value with the 32 hidden fraction bits 0; TIME_ADJUST with SLEW = 0 is a step by the signed 48-bit offset in units of
2^-16 ns with the hidden bits kept; with SLEW = 1 the offset is added to the remainder of any slew (held in millionths
of 2^-16 ns) and saturates at the range; SLEW_ABSORBED clears SLEWING and shows the rate without the slew once the
ticks have absorbed the remainder. With PD00 READY: TIME_PLL_UNLOCK after the first lock clears PLL_LOCK and ALIVE and
reports source 56; OSC_IN_LOSS clears OSC_OK and reports source 55; FOLLOWER_BROADCAST of a started counter leaves the
device and reaches followers 0 to 4 in order. A counter that has not started broadcasts nothing, and an unlocked PLL
cannot unlock. With PD00 in reset nothing happens. Nanoseconds of 10^9 or more carry, and a step below 0 stops at 0
(the model's choices, log entries 92 and 132); when a slew ends is log entry 104, and what ALIVE does at an unlock log
entry 17. That a command whose condition does not hold changes nothing is the model's choice (log entry 3). (R66, R67,
R64, R103) -/
def Obligations.TimeIsSetAdjustedAndWatched : Prop :=
  ((∀ (s u : State) (q : Requester) (w : Nat), s.ready 0 = true → u = s.applyStaged q Reg.invSet0 →
    exec (.timeSet q w) s = .next (u.timeStep
      (((u.woWord Reg.invSet1 + 2 ^ 32 * (u.woWord Reg.invSet2 % 2 ^ 16)) * 1000000000 + w % 2 ^ 32) * 2 ^ 48
        + u.woWord Reg.invSet2 / 2 ^ 16 % 2 ^ 16 * 2 ^ 32))) ∧
  (∀ (s u : State) (q : Requester) (w : Nat) (o : Int), s.ready 0 = true → u = s.applyStaged q Reg.invAdj0 →
    o = signedOf (2 ^ 16 * (w % 2 ^ 32) + u.woWord Reg.invAdj1 % 2 ^ 16) 48 →
    (bitAt (u.woWord Reg.invAdj1) 16 = false →
      exec (.timeAdjustStep q w) s = .next (u.timeStep ((u.counter : Int) + o * 2 ^ 32).toNat)) ∧
    (bitAt (u.woWord Reg.invAdj1) 16 = true →
      exec (.timeAdjustSlew q w) s = .next (u.setSlew
        (clampInt (-(2 ^ 47 * 1000000)) ((2 ^ 47 - 1) * 1000000) (u.inv.slew + o * 1000000))))) ∧
  (∀ s : State, s.ready 0 = true → (s.inv.slew = 0 → exec .slewAbsorbed s = .next (s.setSlew 0)) ∧
    (s.inv.slew ≠ 0 → exec .slewAbsorbed s = .next s)) ∧
  ∀ (s : State) (q : Requester) (w : Nat), s.ready 0 = false → NoEffect (.timeSet q w) s ∧ NoEffect (.timeAdjustStep q w) s ∧
    NoEffect (.timeAdjustSlew q w) s ∧ NoEffect .slewAbsorbed s) ∧
  ((∀ s : State, s.ready 0 = true →
    (s.inv.started = true → s.flag F.invStsPllLock = true →
      exec .timePllUnlock s = .next (((s.fset F.invStsPllLock false).fset F.qchStsAlive false).report [(56, 1)])) ∧
    ((s.inv.started = false ∨ s.flag F.invStsPllLock = false) → NoEffect .timePllUnlock s) ∧
    exec .oscInLoss s = .next ((s.fset F.invStsOscOk false).report [(55, 1)]) ∧
    (∀ skews, (s.inv.started = true → exec (.followerBroadcast skews) s = .next
        (forUpTo 5 (fun u t => t.follow u (skews.getD u 0)) (s.emit (.broadcast s.counter)))) ∧
      (s.inv.started = false → NoEffect (.followerBroadcast skews) s))) ∧
  ∀ s : State, s.ready 0 = false → ∀ skews,
    NoEffect .timePllUnlock s ∧ NoEffect .oscInLoss s ∧ NoEffect (.followerBroadcast skews) s)

/-- With PD00 READY: in LOCKED, HISTORY_PUSH puts one value in front of the rate history, keeps at most 16, shows
their number in HIST_N, and starts the sum of the next second; outside LOCKED it leaves the history. HIST_CLR is
SERVO_ENABLE with bit 7 of the word set, and with EN unchanged outside FREERUN it empties the history, HIST_N and
INV_RATE_MEAN and changes no other register than these and INV_CTL. The history's own memory word is read and written
(log entry 72), with good check bits in the first clause. (R75) -/
def Obligations.HistoryKeepsSixteenSeconds : Prop :=
  (∀ s : State, s.ready 0 = true → s.inv.hist.length ≤ 16 → s.servo = servoLocked → s.Quiet (· == hiddenKey 57 0 0) →
    ∃ t, exec .historyPush s = .next t ∧ ∃ m, t.inv.hist = (m :: s.inv.hist).take 16 ∧
      t.fget F.invStsHistN = min 16 (s.inv.hist.length + 1) ∧ t.inv.sum = 0 ∧ t.inv.sumFrom = s.counter) ∧
  (∀ s : State, s.ready 0 = true → s.servo ≠ servoLocked → exec .historyPush s = .next (s.hiddenPass 57 0 0)) ∧
  (∀ (s : State) (w : Nat), exec (.histClr w) s = exec (.servoEnable (w ||| 128)) s) ∧
  ∀ (s : State) (w : Nat), s.ready 0 = true → s.servo ≠ servoFree → bitAt w 0 = s.flag F.invCtlEn →
    ∃ t, exec (.histClr w) s = .next t ∧ t.inv.hist = [] ∧ t.fget F.invStsHistN = 0 ∧ t.rd Reg.invRateMean = 0 ∧
      OnlyWords [Reg.invCtl, Reg.invSts, Reg.invRateMean] { s with inv := t.inv, free := t.free } t

/-- With PD00 READY: setting EN takes the present VTRIM code as the base and forgets skipped measurements; clearing EN
leads to FREERUN. REFERENCE_LOST in ACQUIRE or LOCKED with EN = 1 skips the next three measurements and enters
HOLDOVER at the mean rate where the history holds something, FREERUN where it is empty; with EN = 0 it changes
nothing. The first IRIG frame missing only counts; with the input disabled it changes nothing; a frame that fails a
check sets FRAME_ERR, counts and counts as missing; the second missing in a row clears IRIG_LOCK with its record and
notice and, with SRC = IRIG, loses the reference; one of the first two valid frames shows its time and offset and,
with SRC = IRIG, is a measurement. The three skipped measurements after a lost reference are log entry 21's reading.
That a command whose condition does not hold changes nothing is the model's choice (log entry 3). (R70, R73, R94) -/
def Obligations.ServoStartsStopsAndHolds : Prop :=
  (∀ (s u : State) (w : Nat), s.ready 0 = true → u = s.store Reg.invCtl w → bitAt w 7 = false →
    (s.flag F.invCtlEn = false → u.flag F.invCtlEn = true → exec (.servoEnable w) s = .next
      ((u.fput F.invVtrimBaseBase (u.fget F.invVtrimCode)).onInv (fun x => { x with skip := 0 })).freeRate) ∧
    (s.flag F.invCtlEn = true → u.flag F.invCtlEn = false → exec (.servoEnable w) s = .next (u.setServo servoFree).freeRate)) ∧
  (∀ s u : State, s.ready 0 = true → u = s.onInv (fun x => { x with skip := 3 }) → s.flag F.invCtlEn = true →
    (s.servo = servoAcquire ∨ s.servo = servoLocked) →
    (s.inv.hist = [] → exec .referenceLost s = .next (u.setServo servoFree).freeRate) ∧
    (s.inv.hist ≠ [] → exec .referenceLost s = .next ((u.setServo servoHold).rateBy (fun x => { x with rate := s.holdRate })))) ∧
  (∀ s : State, s.ready 0 = true → s.flag F.invCtlEn = false → NoEffect .referenceLost s) ∧
  (∀ s : State, s.ready 0 = true → s.flag F.irigCtlEn = true → s.inv.irigBad = 0 → exec .irigFrameMissing s =
    .next (s.onInv (fun x => { x with irigBad := 1, irigGood := 0, irigLast := none }))) ∧
  (∀ s : State, s.ready 0 = true → s.flag F.irigCtlEn = false → ∀ f, NoEffect .irigFrameMissing s ∧ NoEffect (.irigFrameDecoded f) s) ∧
  (∀ (s : State) (f : IrigFrame), s.ready 0 = true → s.flag F.irigCtlEn = true → s.irigValid f = false →
    exec (.irigFrameDecoded f) s = .next ((s.fset F.irigStsFrameErr true).cntF F.irigStsErrCnt).irigMiss) ∧
  (∀ s u v : State, s.ready 0 = true → s.flag F.irigCtlEn = true → 1 ≤ s.inv.irigBad → s.flag F.invStsIrigLock = true →
    u = ((s.onInv (fun x => { x with irigBad := x.irigBad + 1, irigGood := 0, irigLast := none })).fset
      F.invStsIrigLock false).fset F.irigStsLock false → v = (u.brzEvent 0x85 96 0 0 0).notice 0x85 96 0 [0, 0, 0] →
    exec .irigFrameMissing s = .next (if v.fget F.invCtlSrc = 2 then v.loseReference else v)) ∧
  ∀ (s v : State) (f : IrigFrame) (theta : Int), s.ready 0 = true → s.flag F.irigCtlEn = true → s.irigValid f = true →
    s.inv.irigGood < 2 →
    theta = 4096 * ((f.stamp : Int) - 16 * s.fget F.irigCtlCableDelay) - s.irigPtp f * 1000000000 * 65536 →
    v = ((s.onInv (fun x => { x with irigGood := x.irigGood + 1, irigBad := 0, irigLast := some (s.irigTime f) })).irigShow
      f).showOffset Reg.irigOffset theta →
    exec (.irigFrameDecoded f) s = .next (if v.fget F.invCtlSrc = 2 then v.measureOffset theta 0 else v)

/-- With PD00 READY and n = 0..3: TCAP_ARM leaves TCAP_STS, NS, SEC and SECX at 0, arms the input from the present
counter on and changes no other register but TCAP_CFG. A qualifying edge without BRONZE and NOTICE counts in
TCAP_EDGES; on an input armed at or before its stamp it sets DONE with the edge's polarity, stores nanoseconds,
seconds and fraction of its stamp and disarms the input; on an input not armed by then nothing else changes. An edge
that does not match POL changes nothing. That a command whose condition does not hold changes nothing is the model's
choice (log entry 3). (R96, R97, R98) -/
def Obligations.CapturesStoreTheFirstArmedEdge : Prop :=
  ∀ (s : State) (n : Nat), n < 4 → s.ready 0 = true →
    (∀ w, ∃ t, exec (.tcapArm n w) s = .next t ∧
      t.rd (Reg.tcapSts n) = 0 ∧ t.rd (Reg.tcapNs n) = 0 ∧ t.rd (Reg.tcapSec n) = 0 ∧ t.rd (Reg.tcapSecx n) = 0 ∧
      bitAt t.inv.armed n = true ∧ Table.get 0 n t.inv.armAt = 16 * s.counter / nsUnit ∧
      OnlyWords [Reg.tcapCfg n, Reg.tcapSts n, Reg.tcapNs n, Reg.tcapSec n, Reg.tcapSecx n] { s with inv := t.inv } t) ∧
    (∀ rising t16, s.polMatch n rising = true → s.flag (F.tcapCfgBronze n) = false → s.flag (F.tcapCfgNotice n) = false →
      ∃ t, exec (.tcapEdge n rising t16) s = .next t ∧
        t.rd (Reg.tcapEdges n) = (s.rd (Reg.tcapEdges n) + 1) % 2 ^ 32 ∧
        t.pulses = (if s.ready 47 then s.pulses ++ [17 + n] else s.pulses) ∧
        (bitAt s.inv.armed n = true → Table.get 0 n s.inv.armAt ≤ t16 →
          t.flag (F.tcapStsDone n) = true ∧ t.flag (F.tcapStsEdge n) = rising ∧
          t.rd (Reg.tcapNs n) = t16 / 16 % 1000000000 ∧ t.rd (Reg.tcapSec n) = t16 / 16 / 1000000000 % 2 ^ 32 ∧
          t.fget (F.tcapSecxSecHi n) = t16 / 16 / 1000000000 / 2 ^ 32 % 2 ^ 16 ∧
          t.fget (F.tcapSecxFrac n) = 4096 * (t16 % 16) ∧ bitAt t.inv.armed n = false ∧
          OnlyWords [Reg.tcapEdges n, Reg.tcapSts n, Reg.tcapNs n, Reg.tcapSec n, Reg.tcapSecx n]
            { s with inv := t.inv, pulses := t.pulses } t) ∧
        (bitAt s.inv.armed n = false ∨ t16 < Table.get 0 n s.inv.armAt →
          OnlyWords [Reg.tcapEdges n] { s with pulses := t.pulses } t)) ∧
    (∀ rising t16, s.polMatch n rising = false → NoEffect (.tcapEdge n rising t16) s)

/-- With PD00 READY and n = 0..3, a running output: an edge outside a pulse drives the active level (low with INV =
1), counts the pulse and plans the next edge WIDTH later; an edge inside a pulse that is neither the last of COUNT nor
ended by EN = 0 drives the inactive level and plans the next edge PERIOD - WIDTH later; the last one drives the
inactive level and clears EN and RUNNING; one that completes a pulse of the train before a new EN drives the inactive
level and leaves the new train's first edge planned. Registers change only in the last case but one. A stopped output
ignores edges. Setting EN is the enable operation on the stored word where EN was 0, and RUNNING reads 1; clearing EN
during a pulse lets it end and outside one ends the train; a write that leaves EN as it is stores the word. What a
train enabled during the last pulse of the one before does is log entry 109. That a command whose condition does not
hold changes nothing is the model's choice (log entry 3). (R99, R100) -/
def Obligations.PulseTrainsDriveTheirPin : Prop :=
  ∀ (s : State) (n : Nat), n < 4 → s.ready 0 = true →
    (s.flag (F.tpulseStsRunning n) = true →
      ((s.train n).high = false → ∃ t, exec (.pulseEdge n) s = .next t ∧
        Table.get 0 (Pin.tpulse n) t.pins = (if s.flag (F.tpulseCtlInv n) then 1 else 2) ∧
        t.train n = { s.train n with high := true, done := (s.train n).done + 1, edge := (s.train n).edge + s.pulseWidth n } ∧
        SameWords s t) ∧
      ((s.train n).high = true → (s.train n).first ≠ 0 → ∃ t, exec (.pulseEdge n) s = .next t ∧
        Table.get 0 (Pin.tpulse n) t.pins = (if s.flag (F.tpulseCtlInv n) then 2 else 1) ∧
        t.train n = { edge := (s.train n).first } ∧ SameWords s t) ∧
      ((s.train n).high = true → (s.train n).first = 0 →
        ((s.train n).ending = false → (s.rd (Reg.tpulseCount n) = 0 ∨ (s.train n).done < s.rd (Reg.tpulseCount n)) →
          ∃ t, exec (.pulseEdge n) s = .next t ∧
            Table.get 0 (Pin.tpulse n) t.pins = (if s.flag (F.tpulseCtlInv n) then 2 else 1) ∧
            t.train n = { s.train n with high := false, edge := (s.train n).edge + s.pulsePeriod n - s.pulseWidth n } ∧
            SameWords s t) ∧
        ((s.train n).ending = true ∨ (s.rd (Reg.tpulseCount n) ≠ 0 ∧ s.rd (Reg.tpulseCount n) ≤ (s.train n).done) →
          ∃ t, exec (.pulseEdge n) s = .next t ∧
            Table.get 0 (Pin.tpulse n) t.pins = (if s.flag (F.tpulseCtlInv n) then 2 else 1) ∧
            t.flag (F.tpulseCtlEn n) = false ∧ t.flag (F.tpulseStsRunning n) = false ∧ t.train n = {} ∧
            OnlyWords [Reg.tpulseCtl n, Reg.tpulseSts n] { s with pins := t.pins, inv := t.inv } t))) ∧
    (s.flag (F.tpulseStsRunning n) = false → exec (.pulseEdge n) s = .next s) ∧
    (∀ w, s.flag (F.tpulseCtlEn n) = false →
      ∃ t, exec (.pulseEnable n w) s = .next t ∧ t = (s.store (Reg.tpulseCtl n) (w ||| 1)).pulseEnable n ∧
        t.flag (F.tpulseStsRunning n) = true) ∧
    (∀ w, s.flag (F.tpulseCtlEn n) = true → (s.train n).high = true → ∃ t, exec (.pulseDisable n w) s = .next t ∧
      t.train n = { s.train n with ending := true } ∧ t.pins = s.pins ∧ OnlyWords [Reg.tpulseCtl n] { s with inv := t.inv } t) ∧
    (∀ w, s.flag (F.tpulseCtlEn n) = true →
      exec (.pulseEnable n w) s = .next (s.store (Reg.tpulseCtl n) (w ||| 1)) ∧
      ((s.train n).high = false →
        exec (.pulseDisable n w) s = .next ((s.store (Reg.tpulseCtl n) (w &&& 0xFFFFFFFE)).pulseEnd n))) ∧
    (∀ w u, s.flag (F.tpulseCtlEn n) = false → u = s.store (Reg.tpulseCtl n) (w &&& 0xFFFFFFFE) →
      exec (.pulseDisable n w) s = .next (if (s.train n).high then u else u.drivePulse n false))

/-- On a port that takes part while PTP_EN = 1 and its quadrant is not isolated, each of Sync, Follow_Up, Announce,
Delay_Req and Delay_Resp that carries another domainNumber, another version or the clock's own identity counts one in
DISCARD of the port and does nothing else; so does a Pdelay_Req or a Pdelay exchange on a port that is enabled,
whatever its state. On a port that does not take part (is not enabled), with PTP_EN = 0, or in an isolated quadrant it
changes nothing. That any message with the own clockIdentity is discarded, that every enabled port runs the peer
mechanism, and that a discarded message counts are the model's readings, log entries 88, 110 and 24. That a command
whose condition does not hold changes nothing is the model's choice (log entry 3). (R82, R83, R87) -/
def Obligations.PtpMessagesAreTakenOrDiscarded : Prop :=
  ∀ (s : State) (p pcs : Nat) (l fup : List Byte) (more : Bool) (c : Instr),
    (c ∈ [.ptpSyncReceived p l pcs, .followUpReceived p l, .announceReceived p l, .delayReqReceived p l pcs,
        .delayRespReceived p l] →
      (s.hearsPtp p = true → s.ptpForUs l = false → exec c s = .next (s.cnt (Reg.invPcnt p 7))) ∧
      (s.hearsPtp p = false → exec c s = .next s)) ∧
    (c ∈ [.pdelayReqReceived p l pcs, .pdelayExchangeComplete p l pcs fup more] →
      (s.hearsPeer p = true → s.ptpForUs l = false → exec c s = .next (s.cnt (Reg.invPcnt p 7))) ∧
      (s.hearsPeer p = false → exec c s = .next s))

/-- For a message that is taken (PTP_EN = 1, the quadrant not isolated, a port that takes part - for the peer delay
messages an enabled port - the clock's domain, version 2, another clock): a two-step Sync of the parent waits for its
Follow_Up; a one-step Sync completes an offset; its Follow_Up completes the waiting one; an Announce updates the
foreign master records and evaluates; a Delay_Req on an end-to-end MASTER is answered with the receive stamp; a
Pdelay_Req under the peer mechanism is answered; a Delay_Resp to the outstanding request ends it and, once a Sync is
complete, gives a new delay; a second one puts the held value back and counts in DISCARD; a Pdelay exchange with more
than one response is counted and dropped, else gives a new delay. An Announce receipt timeout forgets the foreign
masters and evaluates; PRE_MASTER passes to MASTER and evaluates; a delay response timeout counts and ends the
request; a match entry that expires leaves the table. SYNC_TRANSMIT and ANNOUNCE_TRANSMIT on a MASTER port advance the
port's sequence number, count in their PCNT and send the message, a Sync with twoStepFlag by TWO_STEP, an Announce
with the parent's flags (without a parent its own); on any other port they change nothing. DELAY_REQ_TRANSMIT sends a
Delay_Req on a SLAVE or UNCALIBRATED port under the end-to-end mechanism and a Pdelay_Req on every enabled port under
the peer mechanism, and notes the outstanding request. Message layouts and fractions are log entries 25 and 137; 24,
110 and 138 are further choices. That a command whose condition does not hold changes nothing is the model's choice
(log entry 3). (R73, R74, R80, R82, R83, R88) -/
def Obligations.PtpMessagesActAndLeave : Prop :=
  ((∀ (s : State) (p pcs : Nat) (l : List Byte), s.hearsPtp p = true → s.ptpForUs l = true →
    (s.hearsParent p l = true →
      (isTwoStep 0 l = true → exec (.ptpSyncReceived p l pcs) s = .next ((s.cnt (Reg.invPcnt p 1)).setPtp p
        { s.ptpOf p with waiting := some (ptpSeq 0 l, (4096 * s.rxStamp p pcs).toNat, ptpCorr 0 l) })) ∧
      (isTwoStep 0 l = false → exec (.ptpSyncReceived p l pcs) s = .next
        ((s.cnt (Reg.invPcnt p 1)).syncDone p (4096 * s.rxStamp p pcs - ptpTime 34 l - ptpCorr 0 l))) ∧
      (∀ rx c, (s.ptpOf p).waiting = some (ptpSeq 0 l, rx, c) →
        exec (.followUpReceived p l) s = .next (s.syncDone p ((rx : Int) - ptpTime 34 l - c - ptpCorr 0 l)))) ∧
    (s.hearsParent p l = false → exec (.ptpSyncReceived p l pcs) s = .next (s.cnt (Reg.invPcnt p 1))) ∧
    ((s.ptpOf p).waiting = none → exec (.followUpReceived p l) s = .next s) ∧
    (s.flag (F.invPctlMasterOnly p) = false → exec (.announceReceived p l) s = .next
      (((s.cnt (Reg.invPcnt p 3)).setPtp p { s.ptpOf p with
        timedOut := false
        foreign := (s.ptpOf p).foreign.filter (fun g => g.src != ptpSrc 0 l) ++ [heardOf (s.ptpOf p).foreign s.now l] }).evaluate)) ∧
    (s.flag (F.invPctlMasterOnly p) = true → exec (.announceReceived p l) s = .next (s.cnt (Reg.invPcnt p 3))) ∧
    (s.ptpState p = ptpMaster → s.endToEnd = true → exec (.delayReqReceived p l pcs) s = .next
      (s.sendPtp p false false false (s.ptpMessage p 9 0 (ptpCorr 0 l - 4096 * ((s.rxStamp p pcs).toNat % 16 : Nat)) (ptpSeq 0 l)
        3 (s.fget F.invPtpIntvLogDelayreq) (ptp80 (s.rxStamp p pcs).toNat ++ mkBytes (beBytes 10 (ptpSrc 0 l)))))) ∧
    ((s.ptpState p ≠ ptpMaster ∨ s.endToEnd = false) → exec (.delayReqReceived p l pcs) s = .next s) ∧
    (s.endToEnd = true → beAt l 44 10 = s.portId p → ptpSeq 0 l = ((s.ptpOf p).reqSeq + 65535) % 65536 →
      (∀ t3 f, (s.ptpOf p).asked = true → (s.ptpOf p).left = some t3 → (s.ptpOf p).forward = some f →
        exec (.delayRespReceived p l) s = .next ((s.setPtp p
            { s.ptpOf p with asked := false, left := none, before := some (s.rd (Reg.invPdly p)) }).newDelay p
          (freeQuot (f + ptpTime 34 l - 4096 * (t3 : Int) - ptpCorr 0 l) 2 s.freeChoice))) ∧
      ((s.ptpOf p).asked = true → ((s.ptpOf p).left = none ∨ (s.ptpOf p).forward = none) →
        exec (.delayRespReceived p l) s = .next (s.setPtp p
          { s.ptpOf p with asked := false, left := none, before := some (s.rd (Reg.invPdly p)) })) ∧
      ((s.ptpOf p).asked = false → (s.ptpOf p).before = none → exec (.delayRespReceived p l) s = .next s) ∧
      (∀ w, (s.ptpOf p).asked = false → (s.ptpOf p).before = some w → exec (.delayRespReceived p l) s = .next
        (((s.setPtp p { s.ptpOf p with before := none }).wr (Reg.invPdly p) w).cnt (Reg.invPcnt p 7))))) ∧
  (∀ (s : State) (p pcs : Nat) (l : List Byte), s.hearsPeer p = true → s.ptpForUs l = true →
    (s.endToEnd = true → exec (.pdelayReqReceived p l pcs) s = .next s) ∧
    (s.endToEnd = false → s.flag F.invPtpCtlTwoStep = true → exec (.pdelayReqReceived p l pcs) s = .next
      (s.sendPtp p true false false (s.ptpMessage p 3 0x0200 (ptpCorr 0 l - 4096 * ((s.rxStamp p pcs).toNat % 16 : Nat))
        (ptpSeq 0 l) 5 0x7F (ptp80 (s.rxStamp p pcs).toNat ++ mkBytes (beBytes 10 (ptpSrc 0 l)))))) ∧
    (s.endToEnd = false → s.flag F.invPtpCtlTwoStep = false → exec (.pdelayReqReceived p l pcs) s = .next
      (s.sendPtp p true false true (s.ptpMessage p 3 0 (ptpCorr 0 l - 4096 * ((s.rxStamp p pcs).toNat : Int)) (ptpSeq 0 l) 5 0x7F
        (List.replicate 10 0 ++ mkBytes (beBytes 10 (ptpSrc 0 l)))))) ∧
    (beAt l 44 10 = s.portId p → ptpSeq 0 l = ((s.ptpOf p).reqSeq + 65535) % 65536 → (s.ptpOf p).asked = true →
      (∀ t1 fup, (s.ptpOf p).left = some t1 → s.endToEnd = false →
        exec (.pdelayExchangeComplete p l pcs fup true) s = .next
          ((s.setPtp p { s.ptpOf p with asked := false, left := none }).cnt (Reg.invPcnt p 7)) ∧
        (isTwoStep 0 l = false → exec (.pdelayExchangeComplete p l pcs fup false) s = .next
          ((s.setPtp p { s.ptpOf p with asked := false, left := none }).newDelay p
            (freeQuot (4096 * (s.rxStamp p pcs - t1) - ptpCorr 0 l) 2 s.freeChoice))) ∧
        (isTwoStep 0 l = true → exec (.pdelayExchangeComplete p l pcs fup false) s = .next
          ((s.setPtp p { s.ptpOf p with asked := false, left := none }).newDelay p
            (freeQuot (4096 * (s.rxStamp p pcs - t1) - (ptpTime 34 fup - ptpTime 34 l) - (ptpCorr 0 l + ptpCorr 0 fup)) 2
              s.freeChoice)))))) ∧
  (∀ (s : State) (p : Nat),
    (s.ptpRuns p = true → exec (.announceReceiptTimeout p) s = .next
      (s.setPtp p { s.ptpOf p with timedOut := true, foreign := [] }).evaluate) ∧
    (s.ptpRuns p = false → exec (.announceReceiptTimeout p) s = .next s) ∧
    (s.ptpState p = ptpPreMaster → exec (.preMasterTimeout p) s = .next (s.setPtpState p ptpMaster).evaluate) ∧
    (s.ptpState p ≠ ptpPreMaster → exec (.preMasterTimeout p) s = .next s) ∧
    ((s.ptpOf p).asked = true → exec (.delayResponseTimeout p) s = .next
      ((s.setPtp p { s.ptpOf p with asked := false, left := none }).cnt (Reg.invPcnt p 5))) ∧
    ((s.ptpOf p).asked = false → exec (.delayResponseTimeout p) s = .next s)) ∧
  ∀ (s : State) (q src seq : Nat), exec (.tcMatchEntryExpire q src seq) s =
    .next { s with inv := { s.inv with tc := dropTc q src seq s.inv.tc } }) ∧
  (∀ (s : State) (p : Nat),
    (s.ptpState p = ptpMaster →
      (∀ t, t = (s.setPtp p { s.ptpOf p with syncSeq := ((s.ptpOf p).syncSeq + 1) % 65536 }).cnt (Reg.invPcnt p 0) →
        (s.flag F.invPtpCtlTwoStep = true → exec (.syncTransmit p) s = .next (t.sendPtp p false true false
          (t.ptpMessage p 0 0x0200 0 (s.ptpOf p).syncSeq 0 (t.fget F.invPtpIntvLogSync) (List.replicate 10 0)))) ∧
        (s.flag F.invPtpCtlTwoStep = false → exec (.syncTransmit p) s = .next (t.sendPtp p false true true
          (t.ptpMessage p 0 0 0 (s.ptpOf p).syncSeq 0 (t.fget F.invPtpIntvLogSync) (List.replicate 10 0))))) ∧
      (∀ t, t = (s.setPtp p { s.ptpOf p with annSeq := ((s.ptpOf p).annSeq + 1) % 65536 }).cnt (Reg.invPcnt p 2) →
        ∃ flags, (∀ f, t.parentSet = some f → flags = f.flags % 64) ∧ (t.parentSet = none → flags = t.annFlags) ∧
          exec (.announceTransmit p) s = .next (t.useFree.sendPtp p false true false
            (t.ptpMessage p 0xB flags 0 (s.ptpOf p).annSeq 5 (t.fget F.invPtpIntvLogAnn) t.annBody)))) ∧
    (s.ptpState p ≠ ptpMaster → exec (.syncTransmit p) s = .next s ∧ exec (.announceTransmit p) s = .next s) ∧
    (∀ t, t = (s.setPtp p { s.ptpOf p with
        reqSeq := ((s.ptpOf p).reqSeq + 1) % 65536, asked := true, left := none, before := none }).cnt (Reg.invPcnt p 4) →
      (s.endToEnd = true → (s.ptpState p = ptpSlave ∨ s.ptpState p = ptpUncalibrated) → exec (.delayReqTransmit p) s =
        .next (t.sendPtp p false false false (t.ptpMessage p 1 0 0 (s.ptpOf p).reqSeq 1 0x7F (List.replicate 10 0)))) ∧
      (s.endToEnd = false → s.flag F.invPtpCtlPtpEn = true → s.flag (F.invPctlEn p) = true → exec (.delayReqTransmit p) s =
        .next (t.sendPtp p true false false (t.ptpMessage p 2 0 0 (s.ptpOf p).reqSeq 5 0x7F (List.replicate 20 0))))) ∧
    ((s.endToEnd = true → s.ptpState p ≠ ptpSlave ∧ s.ptpState p ≠ ptpUncalibrated) →
      (s.endToEnd = false → s.flag F.invPtpCtlPtpEn = false ∨ s.flag (F.invPctlEn p) = false) →
      exec (.delayReqTransmit p) s = .next s))

/-- For every port p = 0..143: MAX_FRAME is 1536 after reset; a whole write of MAC_MAXF by a requester that can issue
accesses, through an open gate, while its block is not held, its RWL fields are open and no word was read with
inverted check bits, stores the written value, or the nearer of 64 and 9600; and a received frame with a good FCS and
no code or reassembly error is accepted exactly when its length with FCS lies between 64 and MAX_FRAME. (R112) -/
def Obligations.MaxFrameIsClampedAndLimitsTheLength : Prop :=
  ∀ p, p < 144 →
    State.reset.fget (F.macMaxfMaxFrame p) = 1536 ∧
    (∀ (s : State) (q : Requester) (w : Nat), s.issues q = true → s.gateOf (masterOf q) (Reg.macMaxf p) = .open' →
      s.blockHeld (Reg.macMaxf p) = false → s.locked (Reg.macMaxf p) = false → s.touched = [] →
      ∃ t, exec (.regWrite q false (Reg.macMaxf p) w 15) s = .next t ∧
        t.fget (F.macMaxfMaxFrame p)
          = (if w % 2 ^ 14 < 64 then 64 else if 9600 < w % 2 ^ 14 then 9600 else w % 2 ^ 14) ∧
        OnlyWords [Reg.macMaxf p] { s with granted := t.granted } t) ∧
    ∀ (s : State) (e : RxEnd), e.port = p → e.code = false → s.assyError e = false →
      e.fcs = crc32 (natBytes e.bytes) →
      (s.rxFate e false = none ↔ 64 ≤ e.bytes.length + 4 ∧ e.bytes.length + 4 ≤ s.fget (F.macMaxfMaxFrame p))

/-- For port p = 0..143 whose PCS runs: CDR_LOCK sets CDR, clears RF_RX and HI_BER, shows the PLL of the port's rate,
and takes STATE from DOWN to SYNC, any other state staying; PCS_LOCK with CDR set in SYNC sets LOCK and takes STATE to
UP_WAIT. No word but PCS_STS and SDS_STS of the bank changes; what the line carries follows. In a port whose PCS does
not run both change nothing; PCS_LOCK in DOWN or without CDR only lets the line follow. That a command whose condition
does not hold changes nothing is the model's choice (log entry 3). (R108, R111) -/
def Obligations.LinksLockAndComeUp : Prop :=
  ∀ (s : State) (p : Nat), p < 144 →
    (s.pcsRuns p = true →
      (∃ t, exec (.cdrLock p) s = .next t ∧
        t.flag (F.pcsStsCdr p) = true ∧ t.flag (F.pcsStsRfRx p) = false ∧ t.flag (F.pcsStsHiBer p) = false ∧
        t.fget (F.pcsStsState p) = (if s.fget (F.pcsStsState p) = 0 then 1 else s.fget (F.pcsStsState p)) ∧
        t.flag (if s.baseR p then F.sdsStsPllA (p / 6) else F.sdsStsPllB (p / 6)) = true ∧
        OnlyWords [Reg.pcsSts p, Reg.sdsSts (p / 6)] { s with ports := t.ports, out := t.out } t) ∧
      (s.flag (F.pcsStsCdr p) = true → s.fget (F.pcsStsState p) = 1 → ∃ t, exec (.pcsLock p) s = .next t ∧
        t.flag (F.pcsStsLock p) = true ∧ t.fget (F.pcsStsState p) = 2 ∧ t.flag (F.pcsStsHiBer p) = false ∧
        t.flag (F.pcsStsFecLock p) = (s.fget (F.pcsCtlFec p) != 0) ∧
        OnlyWords [Reg.pcsSts p] { s with ports := t.ports, out := t.out } t) ∧
      ((s.flag (F.pcsStsCdr p) = false ∨ s.fget (F.pcsStsState p) = 0) →
        exec (.pcsLock p) s = .next (s.showLine p))) ∧
    (s.pcsRuns p = false → exec (.cdrLock p) s = .next s ∧ exec (.pcsLock p) s = .next s)

/-- For a port whose PCS runs: UP_DLY_EXPIRE in UP_WAIT with lock enters UP; loss of lock clears the lock flags and
RF_RX, with CDR lock lost CDR too, and outside a guard goes to DOWN, in an open guard of a port that is UP it cuts
what is received and begins a relock; hi_ber at BASE-R sets HI_BER, counts it and its event and outside a guard goes
to DOWN; a Remote Fault at BASE-R sets RF_RX, its event and goes to DOWN; what the line carries follows each. In a
port whose PCS does not run the link commands change nothing. PHY_CHANGE to a port that answers stores PCS_CTL by its
store rules; where PHY and FEC stay, that is all; where they change, INV_PLAT is loaded, the link state machine
restarts in DOWN and the line follows; to one that does not answer it changes nothing. A SerDes PLL that unlocks takes
its bank's six ports to DOWN and reports the quadrant's corrected source. That a command whose condition does not hold
changes nothing is the model's choice (log entry 3). (R106, R108, R111, R128) -/
def Obligations.LinksGoUpAndDown : Prop :=
  (∀ (s : State) (p : Nat), s.pcsRuns p = true →
    (s.fget (F.pcsStsState p) = 2 → s.flag (F.pcsStsLock p) = true →
      exec (.upDlyExpire p) s = .next (((s.enterUpPort p).refresh p).showLine p)) ∧
    ((s.fget (F.pcsStsState p) ≠ 2 ∨ s.flag (F.pcsStsLock p) = false) → exec (.upDlyExpire p) s = .next (s.showLine p)) ∧
    (∀ cdr u v, u = ((s.fset (F.pcsStsLock p) false).fset (F.pcsStsFecLock p) false).fset (F.pcsStsRfRx p) false →
      v = (if cdr = true then u.fset (F.pcsStsCdr p) false else u) →
      (v.guardHolds p = false → exec (.lossOfLock p cdr) s = .next ((v.toDown p).showLine p)) ∧
      (v.guardHolds p = true → exec (.lossOfLock p cdr) s = .next
        (((v.cutRx p).setMac p { (v.cutRx p).mac p with relock := true, relocked := false }).showLine p))) ∧
    (s.baseR p = true → ∀ u, u = ((s.fset (F.pcsStsHiBer p) true).macCount p 58 1).macEvent p 2 →
      (u.guardHolds p = false → exec (.hiBer p) s = .next ((u.toDown p).showLine p)) ∧
      (u.guardHolds p = true → exec (.hiBer p) s = .next (u.showLine p))) ∧
    (s.baseR p = true → exec (.remoteFaultReceived p) s =
      .next ((((s.fset (F.pcsStsRfRx p) true).macEvent p 3).toDown p).showLine p)) ∧
    (s.baseR p = false → exec (.hiBer p) s = .next (s.showLine p) ∧ exec (.remoteFaultReceived p) s = .next (s.showLine p))) ∧
  (∀ (s : State) (p : Nat), s.pcsRuns p = false →
    exec (.upDlyExpire p) s = .next s ∧ (∀ cdr, exec (.lossOfLock p cdr) s = .next s) ∧ exec (.hiBer p) s = .next s ∧
    exec (.remoteFaultReceived p) s = .next s) ∧
  (∀ (s t : State) (p w : Nat), t = s.store (Reg.pcsCtl p) w →
    (s.reaches (Reg.pcsCtl p) = true →
      (t.rd (Reg.pcsCtl p) % 32 = s.rd (Reg.pcsCtl p) % 32 → exec (.phyChange p w) s = .next t) ∧
      (t.rd (Reg.pcsCtl p) % 32 ≠ s.rd (Reg.pcsCtl p) % 32 →
        exec (.phyChange p w) s = .next (((t.loadPlat p).linkRestart p).showLine p))) ∧
    (s.reaches (Reg.pcsCtl p) = false → exec (.phyChange p w) s = .next s)) ∧
  ∀ (s : State) (b : Nat) (pllB : Bool),
    (s.qReady (b / 6) 0 = true → s.ready (qDom (b / 6) (1 + b % 6)) = true →
      exec (.serdesPllUnlock b pllB) s = .next
        ((forUpTo 6 (fun i x => (x.linkRestart (6 * b + i)).showLine (6 * b + i))
          ((s.fset (F.sdsStsUnlock b) true).fset (if pllB then F.sdsStsPllB b else F.sdsStsPllA b) false)).corrected
            (8 * (b / 6) + 6) 0)) ∧
    ((s.qReady (b / 6) 0 = false ∨ s.ready (qDom (b / 6) (1 + b % 6)) = false) →
      exec (.serdesPllUnlock b pllB) s = .next s)

/-- While the base domain of the port's quadrant is READY, after the FEC counts of the frame end: a port with EN = 0,
or neither UP nor cut, passes nothing on; otherwise the continuation fragments count, a frame with an error is counted
and discarded in the row of Table 4.4 that the first true check names (cut, reassembly, shorter than 64, code error,
FCS, longer than MAX_FRAME), a good control frame acts as one, and any other good frame is passed on. FRAME_64TH_BYTE
begins the reception of a frame that is no control frame on an enabled port that is UP and receives none of that kind,
pre-emptable ones only with PE_EN = 1. Words read meanwhile with inverted check bits are reported. That the FEC counts
and the fragments of a frame count at its end, from operands, is the reading of log entry 34. That a command whose
condition does not hold changes nothing is the model's choice (log entry 3). (R109, R113, R114) -/
def Obligations.ReceivedFramesAreCheckedAtTheirEnd : Prop :=
  (∀ (s u v : State) (e : RxEnd) (cut : Bool),
    (s.ready (qDom (e.port / 36) 0) = true →
    u = ((s.macCount e.port 53 e.fecCorr).macCount e.port 54 e.fecUncorr).macCount e.port 55 e.fecSym →
    cut = (e.cut || (match u.rxOf e.port e.pre with
      | some r => r.cut
      | none => false)) →
    v = u.macCount e.port 32 (contCount e) →
    (u.flag (F.macCtlEn e.port) = false ∨ (u.portUp e.port = false ∧ cut = false) →
      exec (.frameEndReceived e) s = .next (u.rxDrop e.port e.pre e.bytes).reportReads) ∧
    (u.flag (F.macCtlEn e.port) = true → u.portUp e.port = true ∨ cut = true →
      (∀ n, v.rxFate e cut = some n → exec (.frameEndReceived e) s = .next (v.rxDiscard e n).reportReads) ∧
      (v.rxFate e cut = none → isControl e.bytes = true →
        exec (.frameEndReceived e) s = .next ((v.controlFrame e.port e.bytes).setRx e.port e.pre none).reportReads) ∧
      (v.rxFate e cut = none → isControl e.bytes = false → exec (.frameEndReceived e) s = .next (v.rxGood e).reportReads))) ∧
    (s.ready (qDom (e.port / 36) 0) = false → exec (.frameEndReceived e) s = .next s)) ∧
  (∀ (s : State) (e : RxEnd), s.rxFate e true = some 18 ∧
    (∀ len, len = e.bytes.length + 4 →
      (s.assyError e = true → s.rxFate e false = some 19) ∧
      (e.pre = true → s.flag (F.macPeCtlPeEn e.port) = false → s.assyError e = true) ∧
      (s.assyError e = false →
        (len < 64 → s.rxFate e false = some (if e.fcs = crc32 (natBytes e.bytes) ∧ e.code = false then 12 else 13)) ∧
        (64 ≤ len → e.code = true → s.rxFate e false = some 17) ∧
        (64 ≤ len → e.code = false → s.fget (F.macMaxfMaxFrame e.port) < len →
          s.rxFate e false = some (if e.fcs = crc32 (natBytes e.bytes) then 14 else 15)) ∧
        (64 ≤ len → e.code = false → len ≤ s.fget (F.macMaxfMaxFrame e.port) → e.fcs ≠ crc32 (natBytes e.bytes) →
          s.rxFate e false = some 16)))) ∧
  ∀ (s : State) (p stamp : Nat) (pre : Bool) (head : List Byte) (x : RxFlaws), s.ready (qDom (p / 36) 0) = true →
    (s.flag (F.macCtlEn p) = true → s.portUp p = true → s.rxOf p pre = none → (pre = true → s.flag (F.macPeCtlPeEn p) = true) →
      exec (.frame64thByte p pre head stamp x) s =
        .next (s.rxBegin p pre head stamp x).reportReads) ∧
    ((s.flag (F.macCtlEn p) = false ∨ s.portUp p = false ∨ (s.rxOf p pre).isSome = true ∨ (pre = true ∧ s.flag (F.macPeCtlPeEn p) = false)) →
      exec (.frame64thByte p pre head stamp x) s = .next s)

/-- On an enabled port that is UP: a PAUSE frame counts and, with MODE = PAUSE, loads the PAUSE timer with v quanta
from now (none for v = 0) and shows the stopped classes; a PFC frame counts, with MODE = PFC loads the timers of the
set enable bits, and leaves the other timers; with another MODE no timer changes. PAUSE_TIMER_EXPIRE stops the timer
and shows the stopped classes. A port that is not UP or not enabled ignores the frames. That a command whose condition
does not hold changes nothing is the model's choice (log entry 3). (R118, R119, R120) -/
def Obligations.FlowControlLoadsItsTimers : Prop :=
  (∀ (s : State) (p v : Nat), s.macHears p = true →
    (s.fget (F.macFcMode p) = 1 → exec (.pauseFrameReceived p v) s
      = .next (((s.macCount p 21 1).loadTimer p 8 v).showStopped p)) ∧
    (s.fget (F.macFcMode p) ≠ 1 → exec (.pauseFrameReceived p v) s = .next (s.macCount p 21 1))) ∧
  (∀ (s u : State) (p en : Nat) (times : List Nat), s.macHears p = true →
    u = eachOf ((List.range 8).filter (bitAt en)) (fun i t => t.macCount p (23 + i) 1) (s.macCount p 22 1) →
    (s.fget (F.macFcMode p) = 2 → exec (.pfcFrameReceived p en times) s =
      .next ((eachOf ((List.range 8).filter (bitAt en)) (fun i t => t.loadTimer p i (times.getD i 0)) u).showStopped p)) ∧
    (s.fget (F.macFcMode p) ≠ 2 → exec (.pfcFrameReceived p en times) s = .next u)) ∧
  (∀ (s : State) (p v en : Nat) (times : List Nat), s.macHears p = false →
    exec (.pauseFrameReceived p v) s = .next s ∧ exec (.pfcFrameReceived p en times) s = .next s) ∧
  (∀ (s : State) (p i v : Nat) (t : State), t = s.loadTimer p i v →
    Table.get 0 i (t.mac p).timers = (if v = 0 then 0 else s.now100 + v * s.quantum p) ∧
    (∀ j, j ≠ i → Table.get 0 j (t.mac p).timers = Table.get 0 j (s.mac p).timers) ∧
    (∀ r, r ≠ p → t.mac r = s.mac r) ∧ SameWords s t) ∧
  ∀ (s : State) (p i : Nat),
    (s.ready (qDom (p / 36) 0) = true → exec (.pauseTimerExpire p i) s =
      .next ((s.setMac p { s.mac p with timers := Table.put 0 0 i (s.mac p).timers }).showStopped p)) ∧
    (s.ready (qDom (p / 36) 0) = false → exec (.pauseTimerExpire p i) s = .next s)

/-- While the base domain of the port's quadrant is READY: TX_FRAME_QUEUED takes the oldest coming frame, drops it
where it is a host frame of EtherType 0x8808 or too long for MAX_FRAME, and queues it otherwise, the heads that can
never pass their gates being dropped; a selection point of an isolated quadrant, of a port in remote loop, or while a
frame is on the line, sends nothing; otherwise on an enabled port that is UP a due verify mPacket goes first, then an
owed respond mPacket, then the MAC's choice; TX_FRAME_DONE ends the frame on the line, counts it, releases its line
and completes its copy, and does nothing for a fragment due to end or a copy still arriving; the words the rows read
are reported and the ring writes of one row are one per ring; SHAPER_CREDIT_ZERO brings the port's shapers up to date.
In reset none of them does anything. While the base domain is READY, VERIFY_TIMER_EXPIRE in VERIFYING sends another
verify mPacket while TRIES is below VERIFY_LIMIT, or leaves it due where the port may send none (log entry 142), and
enters FAILED after the last; in another state it changes nothing. On an enabled port that is UP a received verify
mPacket counts and, with PE_EN = 1, makes one respond mPacket owed; a received respond mPacket counts and in VERIFYING
enters SUCCEEDED. Other ports ignore them. That a command whose condition does not hold changes nothing is the model's
choice (log entry 3). (R28, R109, R123, R161, R183, R125) -/
def Obligations.FramesLeaveThePortAndVerify : Prop :=
  ((∀ (s : State) (p pcs : Nat), s.ready (qDom (p / 36) 0) = true →
    exec (.txFrameQueued p) s = .next ((s.oneSlot (fun u => ((u.takeComing p).dropTooBig p).refresh p)).hiddenWritten
      (8 * (p / 36) + 2) 0 (p % 36)) ∧
    exec (.txFrameDone p pcs) s = .next ((((s.shapersRead p).txRead p).oneSlot (·.txDone p pcs)).hiddenPass
      (8 * (p / 36) + 2) 2 (p % 36)) ∧
    exec (.selectionPoint p) s = .next ((s.shapersRead p).oneSlot (·.selection p)).reportReads ∧
    exec (.shaperCreditZero p) s = .next (s.refresh p)) ∧
  (∀ (s : State) (p : Nat) (f : TxFrame) (r : List TxFrame), (s.mac p).coming = f :: r →
    ∀ u, u = s.setMac p { s.mac p with coming := r } →
      (f.source = 0 → etherType (s.tpid2 p) f.bytes = 0x8808 → s.takeComing p = u.dropFrame p 47 4 f) ∧
      (f.source = 1 ∨ f.source = 2 → s.fget (F.macMaxfMaxFrame p) < s.frameLen p f → s.takeComing p = u.dropFrame p 45 3 f) ∧
      (f.source = 1 ∨ f.source = 2 → s.frameLen p f ≤ s.fget (F.macMaxfMaxFrame p) →
        s.takeComing p = s.setMac p { s.mac p with coming := r, queue := (s.mac p).queue ++ [f] })) ∧
  (∀ (s : State) (p pcs : Nat), (s.mac p).tx = none → s.txDone p pcs = s) ∧
  (∀ (s : State) (p pcs : Nat) (x : TxProg), (s.mac p).tx = some x → (x.cutAt.isSome = true ∨ x.frame.arriving = true) →
    s.txDone p pcs = s) ∧
  (∀ (s : State) (p : Nat), (s.mac p).tx = none →
    ((s.iso (p / 36) = true ∨ s.fget (F.pcsCtlLoop p) = 2) → s.selection p = s) ∧
    (s.iso (p / 36) = false → s.fget (F.pcsCtlLoop p) ≠ 2 →
      ((s.mac p).verifyDue = true → s.txUp p = true → s.selection p = s.sendVerify p) ∧
      ((s.mac p).verifyDue = false →
        (0 < (s.mac p).respondDue → s.txUp p = true → s.selection p = s.sendRespond p) ∧
        ((s.mac p).respondDue = 0 → s.selection p = s.choose p)))) ∧
  (∀ (s : State) (p : Nat) (x : TxProg), (s.mac p).tx = some x → x.cutAt = none → s.selection p = s) ∧
  ∀ (s : State) (p pcs : Nat), s.ready (qDom (p / 36) 0) = false →
    exec (.txFrameQueued p) s = .next s ∧ exec (.txFrameDone p pcs) s = .next s ∧ exec (.shaperCreditZero p) s = .next s ∧
    exec (.selectionPoint p) s = .next s) ∧
  ((∀ (s : State) (p : Nat), s.ready (qDom (p / 36) 0) = true →
    (s.fget (F.macPeStsVstate p) = 2 →
      (s.fget (F.macPeStsTries p) < s.fget (F.macPeCtlVerifyLimit p) →
        (s.sendsMpacket p = true → exec (.verifyTimerExpire p) s = .next (s.sendVerify p)) ∧
        (s.sendsMpacket p = false →
          exec (.verifyTimerExpire p) s = .next (s.setMac p { s.mac p with verifyDue := true }))) ∧
      (s.fget (F.macPeCtlVerifyLimit p) ≤ s.fget (F.macPeStsTries p) → exec (.verifyTimerExpire p) s = .next (s.setVerify p 4))) ∧
    (s.fget (F.macPeStsVstate p) ≠ 2 → exec (.verifyTimerExpire p) s = .next s)) ∧
  (∀ (s u v : State) (p : Nat), s.macHears p = true → u = s.macCount p 50 1 → v = s.macCount p 52 1 →
    (u.flag (F.macPeCtlPeEn p) = true → exec (.verifyMpacketReceived p) s =
      .next (u.setMac p { u.mac p with respondDue := (u.mac p).respondDue + 1 })) ∧
    (u.flag (F.macPeCtlPeEn p) = false → exec (.verifyMpacketReceived p) s = .next u) ∧
    (v.fget (F.macPeStsVstate p) = 2 → exec (.respondMpacketReceived p) s = .next ((v.setVerify p 3).refresh p)) ∧
    (v.fget (F.macPeStsVstate p) ≠ 2 → exec (.respondMpacketReceived p) s = .next v)) ∧
  ∀ (s : State) (p : Nat),
    (s.macHears p = false → exec (.verifyMpacketReceived p) s = .next s ∧ exec (.respondMpacketReceived p) s = .next s) ∧
    (s.ready (qDom (p / 36) 0) = false → exec (.verifyTimerExpire p) s = .next s))

/-- For q = 0..3 and a command register that answers, no word read waiting to be reported: while BUSY = 1 a write of
CLS_STG_CMD or DUP_STG_CMD only counts in STG_LOST. While BUSY = 0: a staged write to the stream table leaves words 0
to 3 of the indexed entry at CLS_STG_0..3 less their reserved bits, one to the Source Table likewise from
DUP_STG_0..3, one to the meter table (MODE 3 stored as 0) or the FRER table (HLEN held within its limits) likewise,
and sets BUSY; each of the four words is stored with good check bits, or takes an armed injection (R428; in the order
of the list, log entry 72), and no other word changes; a staged read of an entry with good check bits copies its four
words into the staging registers, and of any other entry reads each word as the table gives it (a word that cannot be
corrected as a free value) and reports it. The operation ends with the DONE command, which clears BUSY. That the entry
moves at the command and DONE only clears BUSY is log entry 33's choice. Every staged command, hash key write and
meter readout of a quadrant whose register does not answer, and every sweep or DONE of a domain that is not READY,
leaves the block as it is; the sweeps of a READY domain visit every entry in use and report what they read. That a
command whose condition does not hold changes nothing is the model's choice (log entry 3). (R137, R194, R28) -/
def Obligations.StagedAccessMovesWholeEntries : Prop :=
  (∀ (s : State) (q w i : Nat), q < 4 → s.touched = [] →
    (s.reaches (Reg.clsStgCmd q) = true →
      (s.flag (F.clsStgCmdGoBusy q) = true → ∀ c ∈ [Instr.clsStagedWrite q w, .clsStagedRead q w], ∃ t, exec c s = .next t ∧
        t.fget (F.clsErrStgLost q) = (s.fget (F.clsErrStgLost q) + 1) % 256 ∧ OnlyWords [(F.clsErrStgLost q).addr] s t) ∧
      (s.flag (F.clsStgCmdGoBusy q) = false → i = w % 2 ^ 14 →
        (∀ u, u = eachOf [0, 1, 2, 3] (fun j u => u.memWritten (8 * q + 2) 1 (clsWord q i j (bitAt w 16))) s →
          ∃ t, exec (.clsStagedWrite q w) s = .next t ∧ t.flag (F.clsStgCmdGoBusy q) = true ∧
            (bitAt w 16 = false → (∀ j, j < 4 → t.rd (streamAddr q i j) = s.rd (Reg.clsStg q j) &&& streamMask j) ∧
              OnlyWords [Reg.clsStgCmd q, streamAddr q i 0, streamAddr q i 1, streamAddr q i 2, streamAddr q i 3] u t) ∧
            (bitAt w 16 = true → (∀ j, j < 3 → t.rd (meterAddr q i j) = s.rd (Reg.clsStg q j) % 2 ^ 24) ∧
              t.rd (meterAddr q i 3) = fixMode (s.rd (Reg.clsStg q 3) % 2 ^ 29) ∧
              OnlyWords [Reg.clsStgCmd q, meterAddr q i 0, meterAddr q i 1, meterAddr q i 2, meterAddr q i 3]
                { u with meters := t.meters } t)) ∧
        ∃ t, exec (.clsStagedRead q w) s = .next t ∧ t.flag (F.clsStgCmdGoBusy q) = true ∧
          (s.Quiet (fun k => (List.range 4).any (fun j => k == clsWord q i j (bitAt w 16))) →
            (∀ j, j < 4 → t.rd (Reg.clsStg q j) = s.rd (clsWord q i j (bitAt w 16))) ∧
            OnlyWords [Reg.clsStgCmd q, Reg.clsStg q 0, Reg.clsStg q 1, Reg.clsStg q 2, Reg.clsStg q 3] s t))) ∧
    (s.reaches (Reg.dupStgCmd q) = true →
      (s.flag (F.dupStgCmdGoBusy q) = true → ∀ c ∈ [Instr.dupStagedWrite q w, .dupStagedRead q w], ∃ t, exec c s = .next t ∧
        t.fget (F.dupErrStgLost q) = (s.fget (F.dupErrStgLost q) + 1) % 256 ∧ OnlyWords [(F.dupErrStgLost q).addr] s t) ∧
      (s.flag (F.dupStgCmdGoBusy q) = false → i = w % 2 ^ 16 →
        (∀ u, u = eachOf [3, 2, 0, 1] (fun j u => u.memWritten (8 * q + 2) 3 (dupWord q i j (bitAt w 16))) s →
          ∃ t, exec (.dupStagedWrite q w) s = .next t ∧ t.flag (F.dupStgCmdGoBusy q) = true ∧
            (bitAt w 16 = false →
              (∀ j, j < 4 → t.rd (sourceAddr q i j)
                = (if j = 1 then s.rd (Reg.dupStg q j) &&& 0xBF1FFFFF else s.rd (Reg.dupStg q j))) ∧
              OnlyWords [Reg.dupStgCmd q, sourceAddr q i 0, sourceAddr q i 1, sourceAddr q i 2, sourceAddr q i 3] u t) ∧
            (bitAt w 16 = true → ∀ f, f = i % 2 ^ 12 →
              (∀ j, j < 4 → t.rd (frerAddr q f j) = (if j = 0 then frerWord0 (s.rd (frerAddr q f 0)) (s.rd (Reg.dupStg q 0))
                else s.rd (Reg.dupStg q j)) &&& implOf (frerAddr q f j)) ∧
              OnlyWords [Reg.dupStgCmd q, frerAddr q f 0, frerAddr q f 1, frerAddr q f 2, frerAddr q f 3]
                { u with frerLast := t.frerLast } t)) ∧
        ∃ t, exec (.dupStagedRead q w) s = .next t ∧ t.flag (F.dupStgCmdGoBusy q) = true ∧
          (s.Quiet (fun k => (List.range 4).any (fun j => k == dupWord q i j (bitAt w 16))) →
            (∀ j, j < 4 → t.rd (Reg.dupStg q j) = s.rd (dupWord q i j (bitAt w 16))) ∧
            OnlyWords [Reg.dupStgCmd q, Reg.dupStg q 0, Reg.dupStg q 1, Reg.dupStg q 2, Reg.dupStg q 3] s t))) ∧
    (∀ a, (s.readable a = true → (s.tableRead a).2 = s.rd a) ∧ (s.readable a = false → (s.tableRead a).2 = s.freeVal 32)) ∧
    (s.ready (qDom q 0) = true → ∃ t, exec (.clsStagedDone q) s = .next t ∧
      t.flag (F.clsStgCmdGoBusy q) = false ∧ OnlyWords [Reg.clsStgCmd q] s t) ∧
    (s.ready (qDom q 7) = true → ∃ t, exec (.dupStagedDone q) s = .next t ∧
      t.flag (F.dupStgCmdGoBusy q) = false ∧ OnlyWords [Reg.dupStgCmd q] s t)) ∧
  (∀ (s : State) (q w j : Nat),
    (s.reaches (Reg.clsStgCmd q) = false → NoEffect (.clsStagedWrite q w) s ∧ NoEffect (.clsStagedRead q w) s) ∧
    (s.reaches (Reg.dupStgCmd q) = false → NoEffect (.dupStagedWrite q w) s ∧ NoEffect (.dupStagedRead q w) s) ∧
    (s.reaches (Reg.clsHash q) = false → NoEffect (.clsHashKeyWrite q j w) s) ∧
    (s.reaches (Reg.dupHash q) = false → NoEffect (.dupHashKeyWrite q j w) s) ∧
    (s.reaches (Reg.mtrPeekIdx q) = false → NoEffect (.meterPeek q w) s) ∧
    (s.ready (qDom q 0) = false → NoEffect (.clsStagedDone q) s) ∧
    (s.ready (qDom q 7) = false → NoEffect (.dupStagedDone q) s ∧ NoEffect (.ageSweep q) s ∧ NoEffect (.frerSweep q) s) ∧
    (s.ready (qDom q 7) = true →
      exec (.ageSweep q) s = .next
        (eachOf (s.sourceListed q) (fun i u => u.ageEntry q i) (s.touchAll (inSources q))).reportReads ∧
      exec (.frerSweep q) s = .next
        (eachOf (s.frerListed q) (fun f u => u.frerSweepOne q f) (s.touchAll (inFrer q))).reportReads))

/-- For q = 0..3 and registers that answer: a write of key word 0 or 1 stores it less the reserved bits and leaves the
bucket register at the CRC-32C bucket of the key then held; METER_PEEK leaves the three readout registers at the token
counts and red frames of the indexed meter and changes no other register. A meter judges B counted bytes at the count
of its follower: with B and its buckets in 1/1024 byte, MODE 1 first adds CIR for the time since the last frame, what
exceeds CBS going to the second bucket up to XBS, and colours green where the frame does not enter an aware meter
yellow and B fits in the first, else yellow where it fits in the second, else red; any other running mode fills both
buckets to their sizes and colours red where B exceeds the second, yellow where it exceeds the first or enters an
aware meter yellow, else green; a coloured frame takes B from the buckets that the colour names. (R134, R189, R141) -/
def Obligations.HashRegistersShowTheBucket : Prop :=
  ∀ (s : State) (q w : Nat), q < 4 →
    (s.reaches (Reg.clsHash q) = true → ∀ j, j < 2 → ∃ t, exec (.clsHashKeyWrite q j w) s = .next t ∧
      t.fget (F.clsHashBucket q) = streamBucket (2 ^ 32 * t.fget (F.clsHashKey1DaHi q) + t.rd (Reg.clsHashKey0 q))
        (t.fget (F.clsHashKey1Vid q)) ∧
      (j = 0 → t.rd (Reg.clsHashKey0 q) = w % 2 ^ 32 ∧ t.rd (Reg.clsHashKey1 q) = s.rd (Reg.clsHashKey1 q)) ∧
      (j = 1 → t.rd (Reg.clsHashKey0 q) = s.rd (Reg.clsHashKey0 q) ∧ t.fget (F.clsHashKey1DaHi q) = w % 2 ^ 16 ∧
        t.fget (F.clsHashKey1Vid q) = w / 2 ^ 16 % 2 ^ 12) ∧
      OnlyWords [Reg.clsHashKey0 q, Reg.clsHashKey1 q, Reg.clsHash q] s t) ∧
    (s.reaches (Reg.dupHash q) = true → ∀ j, j < 2 → ∃ t, exec (.dupHashKeyWrite q j w) s = .next t ∧
      t.fget (F.dupHashBucket q) = sourceBucket (2 ^ 32 * t.fget (F.dupHashKey1SaHi q) + t.rd (Reg.dupHashKey0 q))
        (t.fget (F.dupHashKey1Pair q)) ∧
      (j = 0 → t.rd (Reg.dupHashKey0 q) = w % 2 ^ 32 ∧ t.rd (Reg.dupHashKey1 q) = s.rd (Reg.dupHashKey1 q)) ∧
      (j = 1 → t.rd (Reg.dupHashKey0 q) = s.rd (Reg.dupHashKey0 q) ∧ t.fget (F.dupHashKey1SaHi q) = w % 2 ^ 16 ∧
        t.fget (F.dupHashKey1Pair q) = w / 2 ^ 16 % 2 ^ 5) ∧
      OnlyWords [Reg.dupHashKey0 q, Reg.dupHashKey1 q, Reg.dupHash q] s t) ∧
    (s.reaches (Reg.mtrPeekIdx q) = true → ∀ m, m = s.meterOf q (w % 2 ^ 14) → ∃ t, exec (.meterPeek q w) s = .next t ∧
      t.rd (Reg.mtrPeekC q) = m.tc % 2 ^ 32 ∧ t.rd (Reg.mtrPeekX q) = m.tx % 2 ^ 32 ∧ t.rd (Reg.mtrPeekRed q) = m.red % 2 ^ 32 ∧
      OnlyWords [Reg.mtrPeekIdx q, Reg.mtrPeekC q, Reg.mtrPeekX q, Reg.mtrPeekRed q] s t) ∧
    ∀ (g b dt tc te tp cbs xbs bt : Nat) (yel late : Bool) (m : Meter), m = s.meterOf q g → dt = s.folNow q - m.last →
      cbs = 1024 * s.fget (mtrCbs q g) → xbs = 1024 * s.fget (mtrXbs q g) → bt = 1024 * b →
      late = (s.flag (mtrAware q g) && yel) →
      (s.fget (mtrMode q g) = 1 → ∀ full, full = m.tc + s.fget (mtrCir q g) * 1024 * dt / 1000000 → tc = min full cbs →
        te = (if cbs < full then min (m.tx + (full - cbs)) xbs else m.tx) →
        (late = false → bt ≤ tc → s.meterRun q g b yel = (0, { m with tc := tc - bt, tx := te, last := s.folNow q })) ∧
        ((late = true ∨ tc < bt) → bt ≤ te →
          s.meterRun q g b yel = (1, { m with tc := tc, tx := te - bt, last := s.folNow q })) ∧
        ((late = true ∨ tc < bt) → te < bt → s.meterRun q g b yel = (2, { m with tc := tc, tx := te, last := s.folNow q }))) ∧
      (s.fget (mtrMode q g) ≠ 1 → tc = min (m.tc + s.fget (mtrCir q g) * 1024 * dt / 1000000) cbs →
        tp = min (m.tx + s.fget (mtrPir q g) * 1024 * dt / 1000000) xbs →
        (tp < bt → s.meterRun q g b yel = (2, { m with tc := tc, tx := tp, last := s.folNow q })) ∧
        (bt ≤ tp → late = true ∨ tc < bt →
          s.meterRun q g b yel = (1, { m with tc := tc, tx := tp - bt, last := s.folNow q })) ∧
        (bt ≤ tp → late = false → bt ≤ tc →
          s.meterRun q g b yel = (0, { m with tc := tc - bt, tx := tp - bt, last := s.folNow q })))

/-- While W = 0 a frame is accepted and starts the window. For a window that has started, of a PRP pair (N = 48) or an
HSR pair (N = 16), the decision on sequence number s with d = (s - H) mod 65536: d = 0 is a duplicate that leaves H
and counts at none of the lookup's counters; d up to 32767 is accepted, moves H to s, sets bit 0 and shifts the
earlier bits up; b = 65536 - d up to N - 1 is a duplicate where bit b is set, otherwise accepted, counted out of
order, with H staying; an older one is accepted exactly with OLD_ACCEPT and leaves the window. Nothing else in the
way, a frame is forwarded while Fx is clear at its position; an older one exactly when it is accepted.
SOURCE_LOOKUP_DONE applies the lookup to the frame being received on an enabled port of a paired, READY quadrant and
is ignored elsewhere. An enabled FRER function passes the first frame after TAKE_ANY, setting REC_SEQ and HIST = 1;
with delta the signed distance from REC_SEQ it discards as ROGUE from HLEN on either way, as DISCARDED a position
already set, passes an older one out of order and sets its position, and passes a newer one, counting the zero bits
lost and shifting HIST; a frame without a number passes with TAGLESS_PASS and counts TAGLESS. That a command whose
condition does not hold changes nothing is the model's choice (log entry 3). (R190, R200) -/
def Obligations.SourceLookupFollowsItsRule : Prop :=
  (∀ (prp old want : Bool) (x q n d : Nat) (w : Window) (r : Looked), n = (if prp then 48 else 16) → q < 65536 → w.h < 65536 →
    d = (q + 65536 - w.h) % 65536 → r = decideSeq prp old want x q (some w) →
    (d = 0 → r.accept = false ∧ r.counter = 19 ∧ r.win.h = w.h ∧ r.win.seen = w.seen ∧ r.forward = (want && !bitAt (w.fx x) 0)) ∧
    (0 < d → d ≤ 32767 → r.accept = true ∧ r.win.h = q ∧ r.forward = want ∧
      ∀ b, b < n → (bitAt r.win.seen b = true ↔ b = 0 ∨ d ≤ b ∧ bitAt w.seen (b - d) = true)) ∧
    (32767 < d → 65536 - d ≤ n - 1 →
      r.accept = !bitAt w.seen (65536 - d) ∧ r.win.h = w.h ∧ r.forward = (want && !bitAt (w.fx x) (65536 - d)) ∧
      bitAt r.win.seen (65536 - d) = true ∧ r.counter = (if bitAt w.seen (65536 - d) then 19 else 7)) ∧
    (32767 < d → n - 1 < 65536 - d →
      r.accept = old ∧ r.win = w ∧ r.forward = (want && old) ∧ r.counter = (if old then 8 else 9))) ∧
  (∀ (prp old want : Bool) (x q : Nat) (r : Looked), r = decideSeq prp old want x q none →
    r.accept = true ∧ r.win.h = q ∧ r.win.seen = 1 ∧ r.forward = want) ∧
  (∀ (s : State) (p : Nat) (pre : Bool) (l : List Byte) (bad : Option Nat),
    (s.qReady (p / 36) 0 = true → s.qReady (p / 36) 7 = true → s.flag (F.macCtlEn p) = true → s.pairMode (pairOf p) ≠ 0 →
      exec (.sourceLookupDone p pre l bad) s =
        .next ((s.rxLookup p pre false l bad).passWritten p).reportReads) ∧
    ((s.qReady (p / 36) 0 = false ∨ s.qReady (p / 36) 7 = false ∨ s.flag (F.macCtlEn p) = false ∨ s.pairMode (pairOf p) = 0) →
      NoEffect (.sourceLookupDone p pre l bad) s)) ∧
  ∀ (s : State) (q f n hist hlen : Nat) (d : Int), hlen = s.fget (frHlen q f) →
    hist = s.rd (frerAddr q f 2) + 2 ^ 32 * s.rd (frerAddr q f 3) → d = signedOf (n + 65536 - s.fget (frSeq q f)) 16 →
    (s.flag (frAny q f) = true → s.recover q f (some n) =
      (true, ((((s.fput (frSeq q f) n).fset (frAny q f) false).frerHist q f 1).frerWritten q f).frerPass q f)) ∧
    (s.flag (frAny q f) = false →
      ((hlen : Int) ≤ d ∨ d ≤ -(hlen : Int) → s.recover q f (some n) = (false, s.frerCount q f 3 1)) ∧
      (-(hlen : Int) < d → d < hlen →
        (∀ b : Nat, d = -(b : Int) →
          (bitAt hist b = true → s.recover q f (some n) = (false, s.frerCount q f 1 1)) ∧
          (bitAt hist b = false → s.recover q f (some n) =
            (true, (((s.frerHist q f (hist ||| 2 ^ b)).frerWritten q f).frerCount q f 2 1).frerPass q f))) ∧
        (∀ b : Nat, 0 < b → d = (b : Int) → s.recover q f (some n) =
          (true, ((((s.frerCount q f 4 ((List.range b).filter (fun i => !bitAt hist (hlen - 1 - i))).length).frerHist q f
            ((hist * 2 ^ b + 1) % 2 ^ hlen)).fput (frSeq q f) n).frerWritten q f).frerPass q f)))) ∧
    s.recover q f none = (s.flag (frTagless q f), (s.when (s.flag (frTagless q f)) (·.frerPass q f)).frerCount q f 5 1)

/-- With the Schedule Book answering: SCHEDULE_GO without ABORT that names the inactive bank (any bank while none
runs) with no validation and no activation in progress sets VALIDATING, takes the bank and its base time, and changes
no other register; otherwise it is rejected with code 13. SCHEDULE_ABORT without GO cancels a pending activation: PEND
clears and the edges of its list are dropped; with none pending it changes nothing. SCHEDULE_RAM_WRITE to a word a of
Schedule RAM that answers: to the active bank of a running list, to a bank in validation or to a bank that waits for
T_sw it only counts in ACTIVE_WR; to any other bank it stores the word, with its check bits (R428), and no other word
changes. A word with both, written by either row, first cancels what is pending, and GO is then judged with nothing
pending. That a command whose condition does not hold changes nothing is the model's choice (log entry 3). (R149,
R150, R151, R428) -/
def Obligations.GoAndScheduleRamWritesAreJudged : Prop :=
  (∀ (s : State) (w : Nat), s.reaches Reg.scbAct = true → (bitAt w 2 = false →
    (s.flag F.scbStsValidating = false → s.flag F.scbStsPend = false →
      (s.flag F.scbStsRunning = true → bitsOf w 1 1 ≠ s.fget F.scbStsActBank) →
      ∃ t, exec (.scheduleGo w) s = .next t ∧ t.flag F.scbStsValidating = true ∧ t.scb.bank = bitsOf w 1 1 ∧
        t.scb.base = s.instantAt Reg.scbPendBase0 ∧ OnlyWords [Reg.scbSts] { s with scb := t.scb } t) ∧
    ((s.flag F.scbStsValidating = true ∨ s.flag F.scbStsPend = true ∨
        (s.flag F.scbStsRunning = true ∧ bitsOf w 1 1 = s.fget F.scbStsActBank)) →
      exec (.scheduleGo w) s = .next (s.rejectBank 13))) ∧
    (bitAt w 0 = true → exec (.scheduleAbort w) s = exec (.scheduleGo (w ||| 4)) s) ∧
    (bitAt w 0 = false → s.flag F.scbStsPend = true → ∃ t, exec (.scheduleAbort w) s = .next t ∧
      t.flag F.scbStsPend = false ∧ t.scb.edges = s.scb.edges.filter (fun e => !e.fresh) ∧
      OnlyWords [Reg.scbSts] { s with scb := t.scb } t) ∧
    (bitAt w 0 = false → s.flag F.scbStsPend = false → NoEffect (.scheduleAbort w) s)) ∧
  (∀ (s u : State) (w : Nat), s.reaches Reg.scbAct = true → bitAt w 2 = true →
    u = (if s.flag F.scbStsPend = true then (s.fset F.scbStsPend false).onEdges (fun l => l.filter (fun e => !e.fresh)) else s) →
    (s.flag F.scbStsValidating = false → (s.flag F.scbStsRunning = true → bitsOf w 1 1 ≠ s.fget F.scbStsActBank) →
      ∃ t, exec (.scheduleGo w) s = .next t ∧ t.flag F.scbStsValidating = true ∧ t.flag F.scbStsPend = false ∧
        t.scb = { u.scb with bank := bitsOf w 1 1, base := s.instantAt Reg.scbPendBase0 } ∧
        OnlyWords [Reg.scbSts] { s with scb := t.scb } t) ∧
    ((s.flag F.scbStsValidating = true ∨ (s.flag F.scbStsRunning = true ∧ bitsOf w 1 1 = s.fget F.scbStsActBank)) →
      exec (.scheduleGo w) s = .next (u.rejectBank 13))) ∧
  (∀ (s : State) (a w b : Nat), 0x400000 ≤ a → a < 0x800000 → a % 4 = 0 → s.reaches a = true → b = (a - 0x400000) / 0x200000 →
    ((s.flag F.scbStsRunning = true ∧ b = s.fget F.scbStsActBank ∨
        (s.flag F.scbStsValidating = true ∨ s.flag F.scbStsPend = true) ∧ b = s.scb.bank) →
      exec (.scheduleRamWrite a w) s = .next (s.scbCount 3)) ∧
    (¬(s.flag F.scbStsRunning = true ∧ b = s.fget F.scbStsActBank) →
      ¬((s.flag F.scbStsValidating = true ∨ s.flag F.scbStsPend = true) ∧ b = s.scb.bank) →
      ∃ t, exec (.scheduleRamWrite a w) s = .next t ∧ t.rd a = w % 2 ^ 32 ∧ OnlyWords [a] (s.memWritten 34 0 a) t))

/-- With the Schedule Book working and VALIDATING = 1: a bank that passes, and whose base time is itself the first
grid point at least 2 000 ns ahead, leaves VALIDATING 0, PEND 1 and T_sw at that grid point, and changes no other
register; one whose T_sw is a later grid point also counts LATE_START and sets its event. A bank that fails leaves
VALIDATING 0 and is rejected with the code of its first failed check. T_sw never lies before BASE or less than 2 000
ns ahead. Without VALIDATING nothing changes. The 2 000 ns run from the follower's count, a begun nanosecond taken
whole. That a command whose condition does not hold changes nothing is the model's choice (log entry 3). (R150, R151)
-/
def Obligations.ValidationDecidesTheSwitch : Prop :=
  ∀ (s : State) (c sw : Nat), s.scbWorks = true → c = s.validate s.scb.bank →
    sw = firstGrid s.scb.base (s.bankCycle s.scb.bank) (s.folUp + 2000) →
    (s.flag F.scbStsValidating = true →
      (c = 0 → sw = s.scb.base → ∃ t, exec .validationDone s = .next t ∧
        t.flag F.scbStsValidating = false ∧ t.flag F.scbStsPend = true ∧ t.scb = { s.scb with next := sw } ∧
        OnlyWords [Reg.scbSts] { s with scb := t.scb } t) ∧
      (c = 0 → sw ≠ s.scb.base → exec .validationDone s = .next
        (({ (s.fset F.scbStsValidating false).fset F.scbStsPend true with scb := { s.scb with next := sw } }.scbCount 0).scbEvent 2)) ∧
      (c ≠ 0 → exec .validationDone s = .next ((s.fset F.scbStsValidating false).rejectBank c))) ∧
    (s.flag F.scbStsValidating = false → NoEffect .validationDone s) ∧
    (0 < s.bankCycle s.scb.bank → s.scb.base ≤ sw ∧ s.folUp + 2000 ≤ sw ∧ (sw - s.scb.base) % s.bankCycle s.scb.bank = 0 ∧
      (sw ≠ s.scb.base → sw < s.folUp + 2000 + s.bankCycle s.scb.bank))

/-- With the Schedule Book working: BANK_SWITCH without a pending activation and SCB_CYCLE_START without a running
list change nothing; a pending switch makes its bank the active one, loads SCB_SW, SCB_ACT_CYCLE and SCB_CYCLE_CNT,
keeps the old list's edges of entries before T_sw and the new list's, presents every reachable port's state at offset
0, sets SWITCHED and pulses the event router; a cycle start counts and applies the entries at offset 0. The next
COMMIT entry is handed over not earlier than RUNAHEAD before its instant, and not when a switch has withdrawn it; one
that cannot be read is counted with its event, and words read with inverted check bits are reported. Times are those
of the Spine's follower. SCHEDULE_ENABLE is the write of SCB_CTL: unchanged EN only stores, a changed EN brings every
port to the state prescribed. A Schedule Book held in reset does none of this. That a command whose condition does not
hold changes nothing is the model's choice (log entry 3). (R151, R152, R153, R154, R157) -/
def Obligations.TheListSwitchesAndHandsOver : Prop :=
  (∀ s : State, s.scbWorks = true →
    (s.flag F.scbStsPend = false → NoEffect .bankSwitch s) ∧
    (s.flag F.scbStsPend = true → ∀ g t,
      g = allPorts.foldl (fun m p => Table.put 0 (s.fget (F.gatePort0Group p)) p m) [] →
      t = (((((s.fset F.scbStsPend false).fput F.scbStsActBank s.scb.bank).fset F.scbStsRunning true).putInstant Reg.scbSw0
        s.scb.next 0).wr Reg.scbActCycle (s.bankCycle s.scb.bank)).wr Reg.scbCycleCnt 0 →
      exec .bankSwitch s = .next (((eachOf allPorts (fun p u =>
        bif u.gateReach p && u.listActs p then
          u.present p (stateAt (u.activeActions p) 0).gates (stateAt (u.activeActions p) 0).hold else u)
        { t with scb := { t.scb with
          start := s.scb.next, walk := s.scb.next, group := g
          edges := (s.scb.edges.filter (fun e => Nat.blt e.inst s.scb.next || e.fresh)).map (fun e => { e with fresh := false }) }
        }).scbEvent 0).pulse 22)) ∧
    (s.flag F.scbStsRunning = false → NoEffect .scbCycleStart s) ∧
    (s.flag F.scbStsRunning = true → exec .scbCycleStart s = .next (eachOf allPorts (fun p u =>
      bif u.gateReach p && u.listActs p then
        let x := ((u.activeActions p).filter (fun a => a.at' == 0)).foldl applyAction { hold := u.flag (F.gatePort5Hold p) }
        u.present p x.gates x.hold
      else u) (s.cnt Reg.scbCycleCnt))) ∧
    (s.listRuns = false → ∀ bad, NoEffect (.commitHandoff bad) s) ∧
    (s.listRuns = true → ∀ bad,
      (s.nextCommit s.scb.walk = none → exec (.commitHandoff bad) s = .next s.reportReads) ∧
      (∀ n e b, s.nextCommit s.scb.walk = some (n, e) → b = s.fget F.scbStsActBank →
        ((s.folNow 4 + 1000 * s.fget F.scbCtlRunahead < n ∨ s.cutAt n = true) →
          exec (.commitHandoff bad) s = .next s.reportReads) ∧
        (n ≤ s.folNow 4 + 1000 * s.fget F.scbCtlRunahead → s.cutAt n = false →
          ∀ u, u = { s with scb := { s.scb with walk := n + 1 } }.commitRead b e →
            (bad = false → u.commitReadable b e = true →
              exec (.commitHandoff bad) s = .next (u.handOver n e.tgt e.arg).reportReads) ∧
            (bad = true ∨ u.commitReadable b e = false →
              exec (.commitHandoff bad) s = .next ((u.scbCount 4).scbEvent 4).reportReads))))) ∧
  (∀ s : State, s.scbWorks = false → NoEffect .bankSwitch s ∧ NoEffect .scbCycleStart s ∧ NoEffect .validationDone s ∧
    ∀ bad, NoEffect (.commitHandoff bad) s) ∧
  (∀ (s : State) (w : Nat), s.reaches Reg.scbCtl = false → NoEffect (.scheduleEnable w) s) ∧
  ∀ (s t : State) (w : Nat), s.reaches Reg.scbCtl = true → t = s.store Reg.scbCtl w →
    (t.flag F.scbCtlEn = s.flag F.scbCtlEn → exec (.scheduleEnable w) s = .next t) ∧
    (s.flag F.scbCtlEn = true → t.flag F.scbCtlEn = false → exec (.scheduleEnable w) s = .next t.resyncAll) ∧
    (s.flag F.scbCtlEn = false → t.flag F.scbCtlEn = true → exec (.scheduleEnable w) s = .next
      { t with scb := { t.scb with walk := Nat.max t.scb.walk (t.folNow 4) } }.resyncAll)

/-- EDGE_COMPUTE_START with the Schedule Book working counts and reports the list entries it cannot read, adds the
edge that the others give the port at the instant, once for each list, and adds nothing where they give none; guard
edges are computed when their commit is learned. ACTION_ARMED marks the edge armed and notes its place in the arming
order, or discards and counts it at the closed gate of a quadrant that is isolated or not READY; an action that
reaches its comparator after its instant by the comparator's follower counts LATE_ARM, reports and acts at once, and
one that reaches none does not. GATE_TRANSITION and HOLD_RAISE release the earliest armed edge of their kind,
HOLD_RELEASE acts on the hold of the earliest armed gate edge that releases it; GUARD_CLOSE and GUARD_REOPEN end with
the earliest interval of the port, whose gates are presented anew where the gate block works; with none armed each
changes nothing. TOUCHED_MASKS_RECEIVED lets a working Schedule Book learn a known commit; where it does not work the
commit stays unguarded and counts if it has executed. Edges of a list that a switch has withdrawn release nothing.
What one handshake arms, in which order it is released and how guard intervals merge are the model's readings, log
entries 105 and 38. That a command whose condition does not hold changes nothing is the model's choice (log entry 3).
(R54, R55, R56, R155, R160, R167, R168) -/
def Obligations.EdgesArmAndFire : Prop :=
  (∀ (s v : State) (kind p t i : Nat) (bad : List Nat), s.scbWorks = true → kind ≤ 1 →
    i = (if kind = 1 then t + s.holdAdv p else t) → v = (if s.listAt i then s.entriesRead (s.bankAt i) bad else s) →
    (v.listEdge p kind t bad = none → exec (.edgeComputeStart kind p t bad) s = .next v.reportReads) ∧
    (∀ e, v.listEdge p kind t bad = some e → exec (.edgeComputeStart kind p t bad) s = .next (v.onEdges (fun l =>
      bif l.any (fun x => x.port == p && x.kind == kind && x.t == t && x.fresh == e.fresh) then l else l ++ [e])).reportReads)) ∧
  (∀ (s : State) (kind p t : Nat) (bad : List Nat), (s.scbWorks = false ∨ 1 < kind) →
    NoEffect (.edgeComputeStart kind p t bad) s) ∧
  (∀ (s u : State) (kind n t : Nat), u = s.armEdge kind n t →
    (s.armNow kind n ≤ t ∨ s.arrives kind n t = false → exec (.actionArmed kind n t) s = .next u) ∧
    (t < s.armNow kind n → s.arrives kind n t = true →
      exec (.actionArmed kind n t) s = .next ((u.lateArm kind n).actLate kind n t).reportReads)) ∧
  (∀ (s : State) (p : Nat), (s.iso (p / 36) = true ∨ s.ready (qDom (p / 36) 0) = false) → s.gateReach p = false) ∧
  (∀ (s : State) (kind p t : Nat) (mine : Edge → Bool), kind ≤ 1 →
    mine = (fun e => e.port == p && e.kind == kind && e.t == t) →
    (s.scb.edges.any mine = false → s.armEdge kind p t = s) ∧
    (s.scb.edges.any mine = true →
      (s.gateReach p = false → s.armEdge kind p t = (s.onEdges (fun l => l.filter (fun e => !mine e))).scbCount (5 + p / 36)) ∧
      (s.gateReach p = true → s.armEdge kind p t = { s with armings := s.armings + 1, scb := { s.scb with
        edges := s.scb.edges.map (fun e => bif mine e then { e with armed := true, order := s.armings + 1 } else e) } }))) ∧
  (∀ (s : State) (p : Nat),
    (∀ e, firstEdge p 0 s.validEdges = some e →
      exec (.gateTransition p) s = .next ((s.onEdges (fun l => l.filter (· != e))).actEdge e) ∧
      (e.hold = 1 → exec (.holdRelease p) s = .next ((s.onEdges (fun l => l.map (fun x =>
        bif x == e then { x with hold := 0 } else x))).actEdge { e with kind := 1 })) ∧
      (e.hold ≠ 1 → NoEffect (.holdRelease p) s)) ∧
    (∀ e, firstEdge p 1 s.validEdges = some e →
      exec (.holdRaise p) s = .next ((s.onEdges (fun l => l.filter (· != e))).actEdge e)) ∧
    (firstEdge p 0 s.validEdges = none → NoEffect (.gateTransition p) s ∧ NoEffect (.holdRelease p) s) ∧
    (firstEdge p 1 s.validEdges = none → NoEffect (.holdRaise p) s)) ∧
  (∀ (s : State) (p : Nat), s.scb.guards.any (fun g => g.port == p && g.phase == 1) = false → NoEffect (.guardClose p) s) ∧
  (∀ (s : State) (p : Nat), s.scb.guards.any (fun g => g.port == p && g.phase == 2) = false → NoEffect (.guardReopen p) s) ∧
  (∀ (s u : State) (p : Nat) (g : Guard) (r : List Guard),
    s.scb.guards.filter (fun x => x.port == p && x.phase == 1) = g :: r → (∀ x ∈ r, g.close ≤ x.close) →
    u = s.onGuards (fun l => l.map (fun x => bif x == g then { x with phase := 2 } else x)) →
    (s.gateOn p = true → s.guardShut p = false → exec (.guardClose p) s = .next ((u.represent p).guardFrames p)) ∧
    (s.gateOn p = true → s.guardShut p = true → exec (.guardClose p) s = .next (u.represent p)) ∧
    (s.gateOn p = false → exec (.guardClose p) s = .next u)) ∧
  (∀ (s u : State) (p : Nat) (g : Guard) (r : List Guard) (left : List (Nat × Nat)),
    s.scb.guards.filter (fun x => x.port == p && x.phase == 2) = g :: r → (∀ x ∈ r, g.reopen ≤ x.reopen) →
    left = g.commits.filter (fun x => s.undecided x.1) →
    u = s.onGuards (fun l => bif left.isEmpty then l.filter (· != g)
      else l.map (fun x => bif x == g then { x with phase := 3, commits := left } else x)) →
    (u.guardShut p = false → s.gateOn p = true → (s.iso (p / 36) = true → g.reorder ≠ 0) →
      exec (.guardReopen p) s = .next ((u.represent p).endRelock p)) ∧
    (u.guardShut p = true ∨ s.gateOn p = false ∨ (s.iso (p / 36) = true ∧ g.reorder = 0) →
      exec (.guardReopen p) s = .next u)) ∧
  ∀ (s : State) (id : Nat), (s.commitOf id = none → NoEffect (.touchedMasksReceived id) s) ∧
    ∀ c, s.commitOf id = some c →
      (c.unguarded = true → NoEffect (.touchedMasksReceived id) s) ∧
      (c.unguarded = false → s.scbWorks = true →
        exec (.touchedMasksReceived id) s = .next (s.learn id c.tc c.moves)) ∧
      (c.unguarded = false → s.scbWorks = false → ∀ u, u = s.onCommit id (fun x => { x with unguarded := true }) →
        exec (.touchedMasksReceived id) s = .next (if c.executed then u.fabCount 16 else u))

/-- A SHAPER_ENTRY_WRITE at a window offset that names a shaper, while its word answers, is the shaper's own write of
that word, with its check bits (R428); an offset that names none changes nothing. SHAPER_PEEK of an existing shaper
leaves its credit in whole bits and its eligible, waiting and frozen bits in the readout registers and changes no
other register; where the register does not answer it changes nothing. With credits in 1/1024 bit, I the idle slope
and R the line rate: a waiting shaper rises at I up to HI_CREDIT, one with no frame queued rises at I up to 0, a
frozen one holds, and one that sends moves by I - R down to LO_CREDIT (below it the credit stays); when a port's
shapers are settled, an enabled one of the service or substream level with nothing queued or sent is set to 0 from a
positive credit, with frames queued it waits, and with its frame on the line it sends. It is eligible while it is off,
its I is at least R, or its credit is at least 0. That a command whose condition does not hold changes nothing is the
model's choice (log entry 3). (R172, R173, R176, R428) -/
def Obligations.ShaperEntriesAndTheirReadout : Prop :=
  (∀ (s : State) (q o w : Nat), (shaperAt q o = none → NoEffect (.shaperEntryWrite q o w) s) ∧
    ∀ k, shaperAt q o = some k →
      (s.reaches (shpEntry k) = true → exec (.shaperEntryWrite q o w) s = .next
        ((s.memWritten (8 * q + 2) 2 (shpEntry k + o % 16)).writeShaper k (o % 16 / 4) w)) ∧
      (s.reaches (shpEntry k) = false → NoEffect (.shaperEntryWrite q o w) s)) ∧
  (∀ (s u : State) (q w k : Nat), q < 4 → u = s.store (Reg.shpPeekSel q) w →
    peekKey q (u.fget (F.shpPeekSelLevel q)) (u.fget (F.shpPeekSelIndex q)) = some k →
    (s.reaches (Reg.shpPeekSel q) = true → ∃ t, exec (.shaperPeek q w) s = .next t ∧
      t.rd (Reg.shpPeekCredit q) = encodeSigned (u.creditNow k / 1024) 32 ∧
      t.flag (F.shpPeekStsEligible q) = u.shpEligible k ∧ t.flag (F.shpPeekStsWaiting q) = ((u.shp k).mode == 1) ∧
      t.flag (F.shpPeekStsFrozen q) = ((u.shp k).mode == 3) ∧
      OnlyWords [Reg.shpPeekSel q, Reg.shpPeekCredit q, Reg.shpPeekSts q] s t) ∧
    (s.reaches (Reg.shpPeekSel q) = false → NoEffect (.shaperPeek q w) s)) ∧
  (∀ (s : State) (k : Nat) (up down c : Int), c = (s.shp k).credit →
    up = (s.shpIdle k * 1024 * (s.counter - (s.shp k).at') / (1000000000 * nsUnit) : Nat) →
    down = (s.shpRate k * 1024 * (s.counter - (s.shp k).at') / (1000000000 * nsUnit) : Nat) →
    ((s.shp k).mode = 1 → s.creditNow k = min (s.shpHi k) (c + up)) ∧
    ((s.shp k).mode = 2 → s.creditNow k = min 0 (c + up)) ∧
    ((s.shp k).mode = 3 → s.creditNow k = c) ∧
    ((s.shp k).mode = 4 →
      (up < down → s.shpLo k < c → s.creditNow k = max (s.shpLo k) (c + up - down)) ∧
      (up < down → c ≤ s.shpLo k → s.creditNow k = c) ∧ (down ≤ up → s.creditNow k = c + up - down)) ∧
    (s.shpEligible k = true ↔ s.shpOn k = false ∨ s.shpRate k ≤ s.shpIdle k ∨ 0 ≤ s.creditNow k)) ∧
  ∀ (s : State) (p k : Nat) (x : TxProg), s.shpOn k = true → s.frozenClass p (s.shpClass k) = false → keyLevel k ≠ 2 →
    ((s.mac p).tx = none → (∀ f ∈ (s.mac p).queue, k ∉ s.shpPath p f) →
      (0 ≤ s.creditNow k → (s.shpSettle p k).shp k = {}) ∧
      (s.creditNow k < 0 → (s.shpSettle p k).shp k = { credit := s.creditNow k, at' := s.counter, mode := 2 })) ∧
    ((s.mac p).tx = none → (∃ f ∈ (s.mac p).queue, k ∈ s.shpPath p f) →
      (s.shpSettle p k).shp k = { credit := s.creditNow k, at' := s.counter, mode := 1 }) ∧
    ((s.mac p).tx = some x → k ∈ s.shpPath p x.frame → (s.shp k).mode ≠ 4 →
      (s.shpSettle p k).shp k = { credit := s.creditNow k, at' := s.counter, mode := 4 })

/-- For every ring r: a RING_HEAD write that reaches a disabled and idle ring leaves H and F at the written value, on
a Notice Ring C too, and changes no other register; while the ring is enabled or not idle it changes nothing. For host
h = 0, 1: a NTC_CONS write that reaches its register is taken when the value lies between C and P modulo 2^32, both
included, and otherwise only sets CONS_ERR of the host. A doorbell of a software-produced ring whose engine runs sets
DB_PEND and counts; any other offset changes nothing. That a command whose condition does not hold changes nothing is
the model's choice (log entry 3). (R211, R216, R233) -/
def Obligations.RingCountsAreWrittenByTheirRules : Prop :=
  (∀ (s : State) (r w : Nat), r < 2322 → s.reaches (Reg.ringHead r) = true →
    (s.flag (F.ringCtlEn r) = false → s.flag (F.ringStsIdle r) = true → ∃ t, exec (.ringHeadWrite r w) s = .next t ∧
      t.rd (Reg.ringHead r) = w % 2 ^ 32 ∧ t.rd (Reg.ringScan r) = w % 2 ^ 32 ∧
      (r < 2320 → OnlyWords [Reg.ringHead r, Reg.ringScan r] s t) ∧
      (2320 ≤ r → t.rd (Reg.ntcCons (r - 2320)) = w % 2 ^ 32 ∧
        OnlyWords [Reg.ringHead r, Reg.ringScan r, Reg.ntcCons (r - 2320)] s t)) ∧
    ((s.flag (F.ringCtlEn r) = true ∨ s.flag (F.ringStsIdle r) = false) → NoEffect (.ringHeadWrite r w) s)) ∧
  (∀ (s : State) (h w c p : Nat), h < 2 → s.reaches (Reg.ntcCons h) = true → w < 2 ^ 32 → c = s.rd (Reg.ntcCons h) →
    p = s.rd (Reg.ringHead (noticeRing h)) →
    ((w + 2 ^ 32 - c) % 2 ^ 32 ≤ (p + 2 ^ 32 - c) % 2 ^ 32 → ∃ t, exec (.noticeConsumerWrite h w) s = .next t ∧
      t.rd (Reg.ntcCons h) = w ∧ OnlyWords [Reg.ntcCons h] s t) ∧
    ((p + 2 ^ 32 - c) % 2 ^ 32 < (w + 2 ^ 32 - c) % 2 ^ 32 → ∃ t, exec (.noticeConsumerWrite h w) s = .next t ∧
      t.flag (if h = 0 then F.ntcStsConsErrA else F.ntcStsConsErrB) = true ∧ t.rd (Reg.ntcCons h) = c ∧
      OnlyWords [Reg.ntcSts] s t)) ∧
  ∀ (s : State) (off : Nat),
    (off / 8 < 2320 → s.ringWorks (off / 8) = true →
      exec (.doorbell off) s = .next ((s.fset (F.ringStsDbPend (off / 8)) true).ringCount (off / 8) 1)) ∧
    ((2320 ≤ off / 8 ∨ s.ringWorks (off / 8) = false) → NoEffect (.doorbell off) s)

/-- Of a ring register that answers: RING_ENABLE of a disabled, idle ring sets EN and RUN with a scan due and writes
the head slot; before IDLE it only sets EN and is held; of an enabled ring it changes nothing. RING_DISABLE of a
running ring stops it, of another one clears EN and a held enable. While the engine works: RING_IDLE of a stopped ring
whose entries are all done advances the head of a software-produced ring, writes the slot, sets IDLE and lets a held
enable start; RING_SCAN_START of a running ring that neither scans nor is paused, with a doorbell or a due scan,
clears DB_PEND and issues the scan read, one whose state word cannot be read counts and stops the ring with code 6;
SCAN_DATA_RETURN ends the read, with one slot write for the handshake: a discarded read only counts down, other data
is walked from F, a ring whose state word cannot be read stops and discards it, and fetches go on; a fetched frame of
the right length, all its reads issued, ends its reads and is sent to its port, and fetches go on. The rows read the
ring's state word, report it, and RING_ENABLE and SCAN_DATA_RETURN write it (log entry 72). That a command whose
condition does not hold changes nothing is the model's choice (log entry 3). (R216, R217, R225, R237) -/
def Obligations.RingsStartStopAndScan : Prop :=
  (∀ (s : State) (r w : Nat), (s.reaches (Reg.ringCtl r) = false → NoEffect (.ringEnable r w) s ∧ NoEffect (.ringDisable r w) s) ∧
    (s.reaches (Reg.ringCtl r) = true →
    (s.flag (F.ringCtlEn r) = false → s.flag (F.ringStsIdle r) = true → ∀ t,
      t = (s.fset (F.ringCtlEn r) true).fset (F.ringStsRun r) true →
      exec (.ringEnable r w) s =
        .next (((t.setRing r { t.ring r with due := isSoftRing r, enHeld := false, lost := false }).slotWrite r false).hiddenWritten
          (ringMem r).1 (ringMem r).2 (r % 2304 % 576))) ∧
    (s.flag (F.ringCtlEn r) = false → s.flag (F.ringStsIdle r) = false →
      exec (.ringEnable r w) s = .next ((s.fset (F.ringCtlEn r) true).setRing r { s.ring r with enHeld := true })) ∧
    (s.flag (F.ringCtlEn r) = true → NoEffect (.ringEnable r w) s) ∧
    (s.flag (F.ringStsRun r) = true → exec (.ringDisable r w) s = .next (s.ringStop r)) ∧
    (s.flag (F.ringStsRun r) = false →
      exec (.ringDisable r w) s = .next ((s.fset (F.ringCtlEn r) false).setRing r { s.ring r with enHeld := false })))) ∧
  (∀ (s : State) (r : Nat), s.ringWorks r = true →
    (s.flag (F.ringStsRun r) = false → s.flag (F.ringStsIdle r) = false → (s.ring r).entries.all (·.done) = true →
      ∀ t, t = ((if isSoftRing r then s.ringAdvance r else s).slotWrite r false).fset (F.ringStsIdle r) true →
        ((t.ring r).enHeld = false → exec (.ringIdle r) s = .next t) ∧
        ((t.ring r).enHeld = true → exec (.ringIdle r) s = .next (t.ringStart r))) ∧
    ((s.flag (F.ringStsRun r) = true ∨ s.flag (F.ringStsIdle r) = true ∨ (s.ring r).entries.all (·.done) = false) →
      NoEffect (.ringIdle r) s)) ∧
  (∀ (s : State) (r : Nat), s.ringWorks r = true → isSoftRing r = true → ∀ bad u bad',
    u = s.hiddenRead (ringMem r).1 (ringMem r).2 (r % 2304 % 576) →
    bad' = (bad || !s.hiddenGood (ringMem r).1 (ringMem r).2 (r % 2304 % 576)) →
    exec (.ringScanStart r bad) s = .next (u.scanStart r bad').reportReads ∧
    ∀ words, exec (.scanDataReturn r ⟨words, bad⟩) s = .next ((u.oneSlot (·.scanReturns r words bad')).hiddenWritten
      (ringMem r).1 (ringMem r).2 (r % 2304 % 576)).reportReads) ∧
  (∀ (s : State) (r : Nat),
    (s.flag (F.ringStsRun r) = true → (s.ring r).scanning = false → (s.ring r).paused = false →
      ((s.flag (F.ringStsDbPend r) = true ∨ (s.ring r).due = true) →
        s.scanStart r false = (s.fset (F.ringStsDbPend r) false).scanRead r) ∧
      (s.flag (F.ringStsDbPend r) = false → (s.ring r).due = false → s.scanStart r false = s) ∧
      s.scanStart r true =
        (s.cntF (if r < 2304 then F.ringQctlEccUnc (r / 576) else F.sringCtlEccUnc)).ringError r 6) ∧
    (∀ bad, (s.flag (F.ringStsRun r) = false ∨ (s.ring r).scanning = true ∨ (s.ring r).paused = true) →
      s.scanStart r bad = s) ∧
    (∀ words, ((s.ring r).scanning = true ∨ 0 < (s.ring r).discard →
      s.scanReturns r words false = ((s.readIn (ringMaster r)).scanData r words).fetchMore r ∧
      s.scanReturns r words true = ((s.readIn (ringMaster r)).ringEcc r).scanData r words)) ∧
    (∀ words, 0 < (s.ring r).discard → s.scanData r words = s.setRing r { s.ring r with discard := (s.ring r).discard - 1 }) ∧
    (∀ words, (s.ring r).discard = 0 → (s.ring r).scanning = true → (s.ring r).part = [] →
      s.scanData r words = (s.scanEnd r).scanWalk r words 17)) ∧
  ∀ (s : State) (r : Nat) (e : RingEntry) (l : List Byte), s.ringWorks r = true → isTxRing r = true → s.inFetch r = some e →
    (l.length = txTotal e.words → s.qReady (r / 576) 0 = true → (s.partFetch r).any (fun x => x.pos == e.pos) = false →
      exec (.txFetchDone r l) s = .next ((((s.fetchEnds r e).setEntry r e.pos (fun x => { x with whole := true })).hostSend
        (r / 16) (frameOf r e l)).fetchMore r)) ∧
    (l.length ≠ txTotal e.words ∨ s.qReady (r / 576) 0 = false ∨ (s.partFetch r).any (fun x => x.pos == e.pos) = true →
      NoEffect (.txFetchDone r l) s)

/-- For a running ring with room under INFLIGHT and data at F: a header without the owned mark ends the scan with no
register changed and no entry accepted; with the owned mark, TYPE 15 accepts a SKIP of the rest of the lap; any other
type than the ring's stops the ring with code 1; a wrong UNITS stops it with code 2. A ring that does not run takes no
data; one without room pauses. That a scan looks at one header after another of the data that has come, and reads on
at F, is the reading of log entry 43. (R217, R220) -/
def Obligations.ScansExamineHeadersInOrder : Prop :=
  ∀ (s : State) (r n h f u : Nat) (rest : List Nat), f = s.rd (Reg.ringScan r) → u = bitsOf h 4 4 + 1 →
    (s.flag (F.ringStsRun r) = false → s.scanWalk r (h :: rest) (n + 1) = s) ∧
    (s.flag (F.ringStsRun r) = true → s.scanFull r = true → ∀ t, t = s.scanWalk r (h :: rest) (n + 1) →
      (t.ring r).paused = true ∧ (t.ring r).entries = (s.ring r).entries ∧ SameWords s t) ∧
    (s.flag (F.ringStsRun r) = true → s.scanFull r = false →
      (bitsOf h 8 1 ≠ s.ownedMark r f → ∀ t, t = s.scanWalk r (h :: rest) (n + 1) →
        (t.ring r).scanning = false ∧ (t.ring r).entries = (s.ring r).entries ∧ SameWords s t ∧
        ∀ k, k ≠ r → t.ring k = s.ring k) ∧
      (bitsOf h 8 1 = s.ownedMark r f →
        (bitsOf h 0 4 = 15 → s.scanWalk r (h :: rest) (n + 1) = (s.acceptSkip r).scanRead r) ∧
        (bitsOf h 0 4 ≠ 15 → bitsOf h 0 4 ≠ ringType r → s.scanWalk r (h :: rest) (n + 1) = s.ringError r 1) ∧
        (bitsOf h 0 4 ≠ 15 → bitsOf h 0 4 = ringType r →
          (unitsFit (ringType r) u = false ∨ s.ringSize r < f % s.ringSize r + u) →
          s.scanWalk r (h :: rest) (n + 1) = s.ringError r 2)))

/-- While a ring's engine works, with one slot write for the handshake: ENTRY_COMPLETE ends the entry at its count, a
received frame's entries together, and stops a ring whose state word cannot be read; MSIX_GAP_EXPIRE ends the gap and
sends a held trigger (in an isolated quadrant the gap ends and the trigger is lost). A buffer read error completes the
entry being fetched READ_ERR and stops the ring with code BUS_RD, a scan read error only stops it, and that of a read
whose data is thrown away only ends the read; a write error abandons the entry and what follows it and stops the ring
with code BUS_WR, a head slot write error only stops it, and without a slot write outstanding it is ignored. A failed
frame of a pair that sends two copies shows READ_ERR in both. A notice is stamped by Invar's count, one of the Cabinet
Bus by its follower's. A notice to host h while its Notice Ring works is written, behind a pending summary, or lost by
R234 and R235; a Notice Ring that does not run discards it. A lost host link, while its interface is READY, stops the
host's rings and is recorded. The grouping of one handshake's slot writes and the ends of bus transactions as commands
are log entries 44, 101 and 130. That a command whose condition does not hold changes nothing is the model's choice
(log entry 3). (R221, R223, R226, R232, R235, R238, R239) -/
def Obligations.RingWorkEndsAndFails : Prop :=
  (∀ (s : State) (r : Nat), s.ringWorks r = true →
    (∀ pos bad bad', bad' = (bad || !s.hiddenGood (ringMem r).1 (ringMem r).2 (r % 2304 % 576)) →
      exec (.entryComplete r ⟨pos, bad⟩) s = .next ((s.hiddenRead (ringMem r).1 (ringMem r).2 (r % 2304 % 576)).oneSlot
        fun u => (if bad' then u.ringEcc r else u).entryEnds r pos).reportReads ∧
      (s.entryAt r pos = none → s.entryEnds r pos = s) ∧
      ∀ e, s.entryAt r pos = some e → (e.frame = 0 → s.entryEnds r pos = s.entriesDone r [pos]) ∧
        (e.frame ≠ 0 → s.entryEnds r pos = s.frameWritten r e)) ∧
    ((s.ring r).irqHeld = false →
      exec (.msixGapExpire r) s = .next (s.setRing r { s.ring r with gap := false, irqHeld := false })) ∧
    ((s.ring r).irqHeld = true →
      exec (.msixGapExpire r) s = .next ((s.setRing r { s.ring r with gap := false, irqHeld := false }).ringIrq r)) ∧
    (0 < (s.ring r).discard → exec (.busReadError r none) s = .next (s.oneSlot fun u =>
      (u.setRing r { s.ring r with discard := (s.ring r).discard - 1 }).readIn (ringMaster r))) ∧
    ((s.ring r).discard = 0 → (s.ring r).scanning = true → exec (.busReadError r none) s = .next (s.oneSlot fun u =>
      ((u.readIn (ringMaster r)).scanEnd r).ringError r 4)) ∧
    ((s.ring r).discard = 0 → (s.ring r).scanning = false → s.slots = none → NoEffect (.busReadError r none) s) ∧
    (∀ n e, s.entryAt r n = some e →
      (isTxRing r = true → e.begun = true → e.whole = false → exec (.busReadError r (some n)) s = .next (s.oneSlot fun u =>
        (((u.fetchEnds r e).txComplete r n 7 (if s.sendsTwo (r / 16) then 7 else 0) 0 0).ringError r 4).fetchMore r)) ∧
      (isTxRing r = false ∨ e.begun = false ∨ e.whole = true → s.slots = none → NoEffect (.busReadError r (some n)) s)) ∧
    (∀ n, s.entryAt r n = none → NoEffect (.busWriteError r (some n)) s ∧
      (s.slots = none → NoEffect (.busReadError r (some n)) s)) ∧
    ((s.ring r).slotOut = true → exec (.busWriteError r none) s = .next ((s.transEnd (ringMaster r) true 1).ringError r 5)) ∧
    ((s.ring r).slotOut = false → NoEffect (.busWriteError r none) s) ∧
    ∀ n, (s.entryAt r n).isSome = true → exec (.busWriteError r (some n)) s =
      .next ((((s.transEnd (ringMaster r) true 1).abandonFrom r n).ringError r 5).fetchMore r)) ∧
  (∀ (s : State) (r pos : Nat), s.ringWorks r = false → (∀ bad, NoEffect (.entryComplete r ⟨pos, bad⟩) s) ∧
    (s.ringIsolated r = false ∨ s.ready (ringDom r) = false → NoEffect (.msixGapExpire r) s) ∧
    (s.ringIsolated r = true → s.ready (ringDom r) = true →
      exec (.msixGapExpire r) s = .next (s.setRing r { s.ring r with gap := false, irqHeld := false })) ∧
    NoEffect (.ringIdle r) s ∧ (∀ bad, NoEffect (.ringScanStart r bad) s ∧ ∀ w, NoEffect (.scanDataReturn r ⟨w, bad⟩) s) ∧
    (∀ l, NoEffect (.txFetchDone r l) s) ∧ (∀ n, NoEffect (.busReadError r n) s ∧ NoEffect (.busWriteError r n) s)) ∧
  (∀ (s : State) (h code block index c : Nat) (args : List Nat), c = (if block = 72 then s.folNow 4 else s.now) →
    (s.ringWorks (noticeRing h) = true → s.flag (F.ringStsRun (noticeRing h)) = true →
      (s.flag (ntcPend h) = false → 2 ≤ s.noticeFree h → exec (.noticeWrite h code block index args) s = .next
        ((s.putNotice h code block (fsNs c) (fsSec c) index args).slotWrite (noticeRing h) true)) ∧
      (s.flag (ntcPend h) = true → 4 ≤ s.noticeFree h → exec (.noticeWrite h code block index args) s = .next
        (((s.putSummary h).putNotice h code block (fsNs c) (fsSec c) index args).slotWrite (noticeRing h) true)) ∧
      (s.noticeFree h < (if s.flag (ntcPend h) then 4 else 2) →
        exec (.noticeWrite h code block index args) s = .next (s.loseNotice h code c))) ∧
    ((s.ringWorks (noticeRing h) = false ∨ s.flag (F.ringStsRun (noticeRing h)) = false) →
      NoEffect (.noticeWrite h code block index args) s)) ∧
  ∀ (s : State) (h : Nat), (s.ready (45 + h) = true → exec (.hostLinkLost h) s = .next (s.hostLost h)) ∧
    (s.ready (45 + h) = false → NoEffect (.hostLinkLost h) s)

/-- A GRF_CTL write that reaches its register stores its word with HOLD_REL accepted only while UP with the slice
enabled. Setting EN starts training (LOCK, retry delay ended); clearing it takes an UP link down with FAIL_CODE 8 and
any other to DOWN; RETRAIN takes an UP link down with FAIL_CODE 9, any other to DOWN, and starts training. While the
lane domain is READY: 64 valid headers on each unlocked lane in LOCK set ALIGN and all lane locks; ALIGN with two
consistent SYNCs goes to IDENT and sends IDENT. In LOCK and ALIGN the timeouts fail training with codes 1 and 2;
elsewhere they do nothing. An expired retry delay starts training. 16 invalid headers on a locked lane are counted,
clear its lock and fail the link or the training with 1; the second missed SYNC of a lane in UP takes it down with 3;
the eighth bad flit of 64 in UP takes it down with 4; a command's fourth timeout fails UP with 5 or training with 6 or
7, earlier ones resend and count. That a command whose condition does not hold changes nothing is the model's choice
(log entry 3). (R252, R257, R258, R264, R266, R267) -/
def Obligations.GrafaLinksTrainAndLeaveUp : Prop :=
  (∀ (s : State) (q w : Nat),
    (s.reaches (Reg.grfCtl q) = true → exec (.grafaEnable q w) s = .next (s.writeGrfCtl q (w ||| 1)) ∧
      exec (.grafaDisable q w) s = .next (s.writeGrfCtl q (w &&& 0xFFFFFFFE)) ∧
      exec (.retrain q w) s = .next (s.writeGrfCtl q (w ||| 2)) ∧
      exec (.holdRelWrite q w) s = .next (s.writeGrfCtl q (w ||| 4))) ∧
    (s.reaches (Reg.grfCtl q) = false → NoEffect (.grafaEnable q w) s ∧ NoEffect (.grafaDisable q w) s ∧
      NoEffect (.retrain q w) s ∧ NoEffect (.holdRelWrite q w) s)) ∧
  (∀ (s u t : State) (q w : Nat),
    u = ((s.store (Reg.grfCtl q) w).fset (F.grfCtlHoldRel q)
      (bitAt w 2 && s.isUp q && s.qReady q 9 && s.flag (F.nitCtlEn q))).driveHold q →
    t = (if bitAt w 0 then u else u.setLink q { u.link q with sent := none }) →
    (s.flag (F.grfCtlEn q) = false → bitAt w 0 = true → s.writeGrfCtl q w = t.startTraining q) ∧
    (s.flag (F.grfCtlEn q) = true → bitAt w 0 = false → s.writeGrfCtl q w =
      if s.isUp q then t.linkDownFrom q 8
      else ((t.fput (F.grfStsState q) linkDown).fset (F.grfStsAligned q) false).dropCmds q) ∧
    (s.flag (F.grfCtlEn q) = true → bitAt w 0 = true → bitAt w 1 = true → s.writeGrfCtl q w =
      if s.isUp q then (t.linkDownFrom q 9).startTraining q
      else (((t.fput (F.grfStsState q) linkDown).fset (F.grfStsAligned q) false).dropCmds q).startTraining q) ∧
    (s.flag (F.grfCtlEn q) = bitAt w 0 → (s.flag (F.grfCtlEn q) = true → bitAt w 1 = false) → s.writeGrfCtl q w = t)) ∧
  (∀ (s : State) (q : Nat), q < 4 → s.ready (qDom q 10) = true →
    (∀ heads, s.fget (F.grfStsState q) = linkLock → (∀ j, j < 4 → s.flag (F.grfLaneStsLock (4 * q + j)) = false) →
      (∀ j, j < 4 → (heads.getD j []).length = 64 ∧ ∀ h ∈ heads.getD j [], h = 5 ∨ h = 10) →
      ∃ t, exec (.upstreamLockAcquired ⟨q, heads⟩) s = .next t ∧
      t.fget (F.grfStsState q) = linkAlign ∧ t.fget (F.grfStsRxLock q) = 15 ∧
      ∀ j, j < 4 → t.flag (F.grfLaneStsLock (4 * q + j)) = true) ∧
    (s.fget (F.grfStsState q) = linkAlign → 2 ≤ (s.link q).syncs → exec (.alignDone q) s = .next
      (((s.fput (F.grfStsState q) linkIdent).fset (F.grfStsAligned q) true).command q 0x01 [])) ∧
    (∀ j heads, j < 4 → s.flag (F.grfLaneStsLock (4 * q + j)) = true → (Table.get [] j (s.link q).heads).all id = true →
      heads.length = 16 → (∀ h ∈ heads, h ≠ 5 ∧ h ≠ 10) →
      ∃ u, exec (.blockLockLost q j heads) s = .next (((u.laneLock q j false).linkFails q 1 1).lockedAll q) ∧
        u.rd (Reg.grfLaneCrc (4 * q + j)) = (s.rd (Reg.grfLaneCrc (4 * q + j)) + 16) % 2 ^ 32 ∧
        OnlyWords [Reg.grfLaneCrc (4 * q + j)] { s with links := u.links } u) ∧
    (∀ j n t, n = Table.get 0 j (s.link q).missed + 1 →
      t = (s.setLink q { s.link q with missed := Table.put 0 n j (s.link q).missed, syncs := 0 }).grfCount q 6 →
      exec (.syncMissed q j) s = .next (if s.isUp q = true ∧ 2 ≤ n then t.linkDownFrom q 3 else t)) ∧
    (∀ idle w t, w = (true :: (List.replicate (Nat.min idle 64) false ++ (s.link q).crcWin)).take 64 →
      t = (s.setLink q { s.link q with crcWin := w }).grfCount q 0 →
      exec (.flitCrcError q idle) s = .next (if s.isUp q = true ∧ 8 ≤ badFlits w then t.linkDownFrom q 4 else t))) ∧
  (∀ (s : State) (q : Nat),
    (s.fget (F.grfStsState q) = linkLock → exec (.lockTimeout q) s = .next (s.trainFail q 1)) ∧
    (s.fget (F.grfStsState q) ≠ linkLock → NoEffect (.lockTimeout q) s) ∧
    (s.fget (F.grfStsState q) = linkAlign → exec (.alignTimeout q) s = .next (s.trainFail q 2)) ∧
    (s.fget (F.grfStsState q) ≠ linkAlign → NoEffect (.alignTimeout q) s) ∧
    (s.fget (F.grfStsState q) = linkDown → (s.link q).retry = true →
      exec (.retryDelayExpire q) s = .next (s.startTraining q)) ∧
    ((s.fget (F.grfStsState q) ≠ linkDown ∨ (s.link q).retry = false) → NoEffect (.retryDelayExpire q) s) ∧
    (s.flag (F.grfCtlEn q) = true → s.startTraining q =
      (s.fput (F.grfStsState q) linkLock).setLink q { s.link q with retry := false, syncs := 0, missed := [] }) ∧
    (∀ seq, (s.link q).cmds.find? (fun d => d.seq == seq) = none → NoEffect (.commandTimeout q seq) s) ∧
    ∀ seq c, (s.link q).cmds.find? (fun d => d.seq == seq) = some c →
      (c.resends < 3 → exec (.commandTimeout q seq) s = .next (((s.setLink q { s.link q with
        cmds := (s.link q).cmds.map (fun d => bif d.seq == seq then { d with resends := d.resends + 1 } else d) }).sendCmd q c).grfCount q 3)) ∧
      (3 ≤ c.resends → exec (.commandTimeout q seq) s = .next (s.linkFails q 5 (if c.op = 1 then 6 else 7))))

/-- While the Grafa lane domain of q is READY: received SYNCs set each lane's LANE and SKEW, and in ALIGN a consistent
set counts while any other restarts the count; a good flit of unknown type counts TYPE_ERR; a response that names no
outstanding command by SEQ and OP is only a good flit, one that does frees its slot and serves IDENT, PING, ALARM_CLR
or by OP the Anneal engine, which an isolated quadrant does not reach; STATUS before IDENT is only a good flit; TAP
outside UP changes no monitor, in UP each code of the group is stored with VALID and given to its detector, stamped
T_S + W + 1000 j. With EN = 1 a SYNC leaves on each lane with its quadrant, lane and count (Table 9.4), behind the
IDLE flits that fill the interval before it, and the count advances modulo 65536. PING_TIMER sends a PING in UP and
MEASURE_PING one of the 16 in MEASURE; elsewhere they do nothing. What a response or TAP reads with inverted check
bits is reported. That ALARM_CLR has no requester and in which form the SYNC and IDLE flits are recorded are log
entries 53 and 108. A detector ignores a missing or blanked sample and one of a monitor that is off; a first low
sample in LIGHT leads to LOW1 with its instant kept, a second to a declaration with that onset, any other back to
LIGHT; in DARK and LOST RESTORE_N high samples in a row lead to LIGHT, from LOST with RESTORED to the policy engine,
and any other sample restarts the run. That a command whose condition does not hold changes nothing is the model's
choice (log entry 3). (R257, R258, R263, R264, R265, R266, R330, R331) -/
def Obligations.GrafaFlitsAreTaken : Prop :=
  (∀ (s g : State) (q fcnt : Nat), s.ready (qDom q 10) = true → g = s.goodFlit q fcnt →
    (∀ lanes t, t = forUpTo 4 (fun j u => match lanes[j]? with
        | some x => u.laneSync q j x
        | none => u) s →
      exec (.grafaSyncReceived q lanes) s = .next (if s.fget (F.grfStsState q) = linkAlign then
        t.setLink q { t.link q with syncs := if syncsFit q lanes then (t.link q).syncs + 1 else 0 } else t)) ∧
    exec (.flitTypeError q fcnt) s = .next (g.grfCount q 2) ∧
    (∀ seq op status words rtt,
      ((∀ c ∈ (g.link q).cmds, ¬(c.seq = seq ∧ c.op = op)) →
        exec (.rsp q seq op status words rtt fcnt) s = .next g.reportReads) ∧
      (∀ c, (g.link q).cmds.find? (fun d => d.seq == seq && d.op == op) = some c → ∀ t,
        t = (g.setLink q { g.link q with cmds := (g.link q).cmds.filter (fun c => c.seq != seq) }).pumpCmds q 4 →
        (op = 1 → exec (.rsp q seq op status words rtt fcnt) s = .next (t.identRsp q status words).reportReads) ∧
        (op = 2 → exec (.rsp q seq op status words rtt fcnt) s = .next (t.pingRsp q rtt).reportReads) ∧
        (op = 0x0A → exec (.rsp q seq op status words rtt fcnt) s = .next t.reportReads) ∧
        (op ≠ 1 → op ≠ 2 → op ≠ 0x0A → exec (.rsp q seq op status words rtt fcnt) s =
          .next ((t.serviceOf q op status (c.words.getD 0 0)).fromQuad q (·.anlRsp q c status words)).reportReads))) ∧
    (∀ a b alarm cal flags bound cnts,
      exec (.status q a b alarm cal flags bound cnts fcnt) s = .next (s.statusArrives q a b alarm cal flags bound cnts fcnt) ∧
      (g.fget (F.grfStsState q) < linkIdent → s.statusArrives q a b alarm cal flags bound cnts fcnt = g)) ∧
    ∀ base j codes lost,
      exec (.tap q base j codes lost fcnt) s = .next ((s.tapArrives q base j codes lost fcnt).hiddenPass (8 * q + 3) 0 base) ∧
      (g.isUp q = false → s.tapArrives q base j codes lost fcnt = g) ∧
      (g.isUp q = true → s.tapArrives q base j codes lost fcnt =
        forUpTo 28 (fun n u => match codes[n]? with
          | some c => bif Nat.blt (base + n) 256 then
              u.tapCode (256 * q + base + n) c (((g.link q).syncAt + g.fget (F.grfLat0W q)) / 16 + 1000 * j) else u
          | none => u) (eachOf lost (fun b u => u.tapLost q b) g))) ∧
  (∀ (s : State) (q : Nat),
    (∀ a t, s.flag (F.grfCtlEn q) = true → t.link q = s.link q →
      ((s.link q).sent = none → t = s) → (∀ n, (s.link q).sent = some n → t = s.emit (.idle q (1562 - n))) →
      exec (.grafaSyncTransmit q a) s = .next ((t.setLink q { s.link q with
        syncTx := ((s.link q).syncTx + 1) % 65536, syncAt := a, sent := some 0 }).emit (.sync q (syncLanes q (s.link q).syncTx)))) ∧
    (∀ n, n < 65536 → syncLanes q n = (List.range 4).map (fun j =>
      [(0xA, [0xE1, 64 * q + j, n / 256, n % 256, 0, 0, 0, 0])])) ∧
    (∀ a, s.flag (F.grfCtlEn q) = false → NoEffect (.grafaSyncTransmit q a) s) ∧
    (s.isUp q = true → exec (.pingTimer q) s = .next (s.command q 0x02 [])) ∧
    (s.isUp q = false → NoEffect (.pingTimer q) s) ∧
    (s.fget (F.grfStsState q) = linkMeasure → (s.link q).pinged < 16 → exec (.measurePing q) s = .next
      ((s.setLink q { s.link q with pinged := (s.link q).pinged + 1 }).command q 0x02 [])) ∧
    ((s.fget (F.grfStsState q) ≠ linkMeasure ∨ 16 ≤ (s.link q).pinged) → NoEffect (.measurePing q) s)) ∧
  ∀ (s u : State) (i code a : Nat) (low high : Bool), u = s.lldArm i →
    low = (code != 0xFFFF && Nat.blt code (s.fget (F.lldMon0LosThresh i))) →
    high = (code == 0xFFFF || !low && Nat.ble (s.fget (F.lldMon0ClrThresh i)) code) →
    ((code = 0 ∨ s.flag (F.lldMon1Blanked i) = true ∨ u.fget (F.lldMon1State i) = 0) → s.lldSample i code a = u) ∧
    (code ≠ 0 → s.flag (F.lldMon1Blanked i) = false →
      (u.fget (F.lldMon1State i) = 2 → s.lldSample i code a = if low then
        (u.fput (F.lldMon1State i) 3).onFab (fun x => { x with low1 := Table.put 0 a i x.low1 }) else u) ∧
      (u.fget (F.lldMon1State i) = 3 → s.lldSample i code a = if low then u.declare i (Table.get 0 i u.fab.low1)
        else u.fput (F.lldMon1State i) 2) ∧
      (∀ n, (u.fget (F.lldMon1State i) = 1 ∨ u.fget (F.lldMon1State i) = 4) → n = Table.get 0 i u.fab.highRun + 1 →
        (high = false → s.lldSample i code a = u.setHigh i 0) ∧
        (high = true → n < u.fget (F.lldCtlRestoreN (i / 256)) → s.lldSample i code a = u.setHigh i n) ∧
        (high = true → u.fget (F.lldCtlRestoreN (i / 256)) ≤ n → s.lldSample i code a =
          if u.fget (F.lldMon1State i) = 4 ∧ u.iso (i / 256) = false
          then ((u.setHigh i 0).fput (F.lldMon1State i) 2).polRestored i
          else (u.setHigh i 0).fput (F.lldMon1State i) 2)))

/-- For a BAR or CROSS cell that the scan writes, a valid sense word of code S whose group is in service, and e = T -
S by STATE: within HOLD_ALARM and outside LIFTING, SENSE takes S, CLIP and ALRM become 0, ARMED is set, STALE clears
when the paired group is in service too, and DRIVE stays while |e| is at most DB_H, else moves by round(KH e 1024 /
(GAIN SLOPE)) limited to SLEW_H and held in 0..16383; STATE stays and no other word changes. Beyond HOLD_ALARM,
HOLD_ALARM counts; an armed cell with ALRM = 2 is parked with CAUSE 2 and keeps DRIVE, one with a lower ALRM adds 1,
an unarmed cell does not, and these two move DRIVE as before. A third clipped sense parks the cell with CAUSE 3, an
earlier one only counts in CLIP; a missing sense changes nothing; a word taken in calibration or marked stale sets
STALE only; a PARKED cell only records a valid sense. (R282, R284, R285) -/
def Obligations.HoldLawMovesTheLatch : Prop :=
  ∀ (s : State) (q c g : Nat), q < 4 → c < 65536 →
    (s.fget (Cell.state q c) < 2 → s.holdWrites q c = true → c ∉ (s.nit q).dropCell → s.inCal q g = false →
      ∀ (code : Nat) (e : Int), code < 2 ^ 14 → e = (s.fget (Cell.target q c (s.fget (Cell.state q c))) : Int) - code →
      (e.natAbs ≤ s.fget (F.nitHlimHoldAlarm q) → s.flag (F.nitStsLifting q) = false →
        ∀ t, t = s.holdLaw q c (2 ^ 14 + code) g →
        t.fget (Cell.sense q c) = code ∧ t.fget (Cell.clip q c) = 0 ∧ t.fget (Cell.alrm q c) = 0 ∧
        t.flag (Cell.armed q c) = true ∧ t.fget (Cell.state q c) = s.fget (Cell.state q c) ∧
        t.flag (Cell.stale q c) = (s.flag (Cell.stale q c) && s.inCal q (g + 32)) ∧
        t.fget (Cell.drive q c) = (if e.natAbs ≤ s.fget (F.nitHoldDbH q) then s.fget (Cell.drive q c) else
          (clampInt 0 16383 ((s.fget (Cell.drive q c) : Int) + clampInt (-(s.fget (F.nitHoldSlewH q) : Int))
            (s.fget (F.nitHoldSlewH q)) (roundDiv (s.fget (F.nitHoldKh q) * e * 1024) (s.gainSlope q c)))).toNat) ∧
        OnlyWords [cellAddr q c, cellAddr q c + 4] s t) ∧
      (s.fget (F.nitHlimHoldAlarm q) < e.natAbs → ∀ u,
        u = ((s.takeSense q c code g).fput (Cell.clip q c) 0).nitCount q 11 →
        (s.flag (Cell.armed q c) = true → s.fget (Cell.alrm q c) = 2 →
          s.holdLaw q c (2 ^ 14 + code) g = (u.fput (Cell.alrm q c) 3).parkCell q c 2) ∧
        (s.flag (Cell.armed q c) = true → s.fget (Cell.alrm q c) < 2 →
          s.holdLaw q c (2 ^ 14 + code) g = (u.fput (Cell.alrm q c) (s.fget (Cell.alrm q c) + 1)).holdDrive q c code) ∧
        (s.flag (Cell.armed q c) = false → s.fget (Cell.alrm q c) < 3 →
          s.holdLaw q c (2 ^ 14 + code) g = u.holdDrive q c code))) ∧
    (∀ w, bitsOf w 14 2 = 2 → s.inCal q g = false → s.fget (Cell.state q c) < 2 → s.holdWrites q c = true →
      c ∉ (s.nit q).dropCell →
      (s.fget (Cell.clip q c) < 2 → s.holdLaw q c w g = s.fput (Cell.clip q c) (s.fget (Cell.clip q c) + 1)) ∧
      (s.fget (Cell.clip q c) = 2 → s.holdLaw q c w g = (s.fput (Cell.clip q c) 3).parkCell q c 3)) ∧
    (∀ w, bitsOf w 14 2 ≠ 0 → (bitsOf w 14 2 = 3 ∨ s.inCal q g = true) → s.fget (Cell.state q c) < 2 →
      s.holdWrites q c = true → c ∉ (s.nit q).dropCell → s.holdLaw q c w g = s.fset (Cell.stale q c) true) ∧
    (∀ w, bitsOf w 14 2 = 1 → s.inCal q g = false → s.fget (Cell.state q c) = 3 →
      s.holdLaw q c w g = s.takeSense q c (bitsOf w 0 14) g) ∧
    ∀ w, bitsOf w 14 2 = 0 → s.holdLaw q c w g = s

/-- A landing round on an UP link with a bound channel interrupts and re-lands the channels whose state cannot be
read, computes and sends the words and advances the grid; with none bound it serves the waiting cells. LAND_SNS words
reach their channels: missing samples of an earlier landing are settled first, an unbound channel stops there, a lost
binding is renewed if the round belongs to the attempt, any other word is a sample. A first attempt that timed out is
retried, a second fails. HOLD_VISIT with RUN on an UP link marks the entries it cannot read, corrects first writes,
counts missing flits and sends 37 write flits and a step, and reports what its reads met; else it only reports.
HOLD_SNS and HOLD_LAT words are taken in order. A mismatch of a lane in service retires it. NIT_LANE_TEST writes put
lanes under test; the end of a test retires or returns the lane. NIT_CELL_CMD runs its OP unless one is running: READ
copies the entry, with EN = 0 the others answer OFF, PARK parks with CAUSE 5, an unpark of a cell not PARKED answers
STATE, of one without target NOTGT, else it lands the cell, after a reacquisition if one is due. Each row has no
effect where its condition does not hold. A sensed entry is stored with its check bits. How a flag 00 of an ended
landing, requests outside operation and unreadable entries are taken are log entries 118, 121 and 90. That a command
whose condition does not hold changes nothing is the model's choice (log entry 3). (R261, R274, R275, R281, R282,
R286, R288, R293, R294, R300) -/
def Obligations.NitinolSlicesServeCells : Prop :=
  (∀ (s : State) (q a : Nat) (late lost : List Nat),
    (s.fget (F.nitStsBound q) ≠ 0 → s.isUp q = true → ∀ l u r t, l = eachOf lost (fun i v => v.loseChannel q i) s →
      u = l.setNit q { l.nit q with dropCh := late ++ (l.nit q).dropCh } → r = u.roundWords q a → t = r.2.sendRound q r.1 →
      exec (.landingRound q a late lost) s = .next
        ((t.setNit q { t.nit q with grid := ((t.nit q).grid + 1) % 128, dropCh := [] }).serveWait q)) ∧
    (s.fget (F.nitStsBound q) = 0 → s.isUp q = true → exec (.landingRound q a late lost) s = .next (s.serveWait q)) ∧
    (s.isUp q = false → NoEffect (.landingRound q a late lost) s)) ∧
  (∀ (s t : State) (q i : Nat), t = s.interruptCh (256 * q + i) →
    (i < 256 → s.bound (256 * q + i) = true → s.loseChannel q i = t.setNit q
      { t.nit q with requeue := (t.nit q).requeue ++ [s.fget (F.nitCh0Cell (256 * q + i))] }) ∧
    (s.bound (256 * q + i) = false → s.loseChannel q i = s)) ∧
  (∀ (s : State) (q base round fcnt : Nat) (words : List Nat),
    exec (.landSns q base round words fcnt) s = .next
      (eachOf (indexed base words 256) (fun x t => t.landSense q x.1 round x.2) (s.goodFlit q fcnt)) ∧
    ∀ i w u j, u = s.tailSample q (256 * q + i) round (bitsOf w 14 2) →
      j = (round + 128 - (u.land (256 * q + i)).grid0) % 128 →
      (u.bound (256 * q + i) = false → s.landSense q i round w = u) ∧
      (u.bound (256 * q + i) = true → bitsOf w 14 2 = 0 → j < (u.land (256 * q + i)).k →
        s.landSense q i round w = u.rebind q i) ∧
      (u.bound (256 * q + i) = true → bitsOf w 14 2 = 0 → (u.land (256 * q + i)).k ≤ j → s.landSense q i round w = u) ∧
      (u.bound (256 * q + i) = true → bitsOf w 14 2 ≠ 0 → s.landSense q i round w =
        u.landSample q (256 * q + i) j (bitsOf w 14 2) (bitsOf w 0 14))) ∧
  (∀ (s : State) (q i : Nat),
    (s.timedOut (256 * q + i) = false → NoEffect (.landingAttemptTimeout q i) s) ∧
    (s.timedOut (256 * q + i) = true → s.flag (F.nitCh0Attempt (256 * q + i)) = false →
      exec (.landingAttemptTimeout q i) s = .next (s.retryLanding (256 * q + i))) ∧
    (s.timedOut (256 * q + i) = true → s.flag (F.nitCh0Attempt (256 * q + i)) = true →
      exec (.landingAttemptTimeout q i) s = .next (s.failLanding q (256 * q + i) (s.fget (F.nitCh0Cell (256 * q + i)))))) ∧
  (∀ (s u v g t : State) (q pair : Nat) (bad met : List Nat) (lat : Bool),
    (s.flag (F.nitStsRun q) = true → s.isUp q = true →
      u = s.when (pair == 0) (fun t => t.fset (F.nitStsSlow q) (t.slowWanted q)) →
      lat = (u.nit q).bad.any (fun c => c / 1024 == pair) → met = (u.spoiltCells q).filter (fun c => c / 1024 == pair) →
      v = (u.cellsRead q met).unreadable q pair (bad ++ met.filter (fun c => !u.wordsReadable (cellAddr q c) 2)) →
      g = v.firstDrives q pair →
      t = forUpTo 37 (fun b r => r.sendFlit q 0x12 0 (pair + 64 * (28 * b))
        (flitWords ((List.range 28).map (fun n => r.holdWord q pair (28 * b + n))))) ((g.countMissing q).nitCount q 10) →
      exec (.holdVisit q pair bad) s = .next
        ((t.sendFlit q 0x13 0 (pair + 64 * bit lat) []).stepPair q pair lat).reportReads) ∧
    ((s.flag (F.nitStsRun q) = false ∨ s.isUp q = false) → exec (.holdVisit q pair bad) s = .next s.reportReads)) ∧
  (∀ (s : State) (q pair base fcnt : Nat) (words : List Nat),
    exec (.holdSns q pair base words fcnt) s = .next
      (((s.goodFlit q fcnt).holdSns q pair base words).cellsStored q
        ((indexed base words 1024).map (fun x => pairCell pair x.1))) ∧
    exec (.holdLat q pair base words fcnt) s = .next ((s.goodFlit q fcnt).holdLat q pair base words)) ∧
  (∀ (s : State) (q lane kind item : Nat) (inTime pass : Bool),
    ((bitAt (s.retired q) lane = true ∨ 64 ≤ lane) → NoEffect (.lockstepMismatch q lane kind item inTime) s) ∧
    (bitAt (s.retired q) lane = false → lane < 64 → ∀ u,
      (inTime = true → u = s.nitCount q 15) →
      (inTime = false → kind = 0 → u = (s.nitCount q 15).setNit q
        { (s.nitCount q 15).nit q with dropCh := item :: ((s.nitCount q 15).nit q).dropCh }) →
      (inTime = false → kind = 1 → u = ((s.nitCount q 15).setNit q
        { (s.nitCount q 15).nit q with dropCell := item :: ((s.nitCount q 15).nit q).dropCell }).nitCount q 16) →
      (inTime = true ∨ kind = 0 ∨ kind = 1) → exec (.lockstepMismatch q lane kind item inTime) s = .next
        (((u.nitEvent q 3 0 0 (popCount (s.retired q) laneCount + 1)).corrected (8 * q + 7) 2).applyLanes q
          (s.retired q ||| 2 ^ lane))) ∧
    (bitAt (s.testing q) lane = false → NoEffect (.laneSelfTestDone q lane pass) s) ∧
    (bitAt (s.testing q) lane = true → ∀ t,
      t = s.clr (if lane < 32 then Reg.nitLaneTest0 q else Reg.nitLaneTest1 q) (2 ^ (lane % 32)) →
      exec (.laneSelfTestDone q lane pass) s = .next (t.applyLanes q
        (if pass then t.retired q &&& ((2 ^ 64 - 1) ^^^ 2 ^ lane) else t.retired q ||| 2 ^ lane)))) ∧
  (∀ (s : State) (q h w : Nat),
    (s.reaches (Reg.nitLaneTest0 q) = true → exec (.laneSelfTest q h w) s = .next
      (s.orw (if h = 0 then Reg.nitLaneTest0 q else Reg.nitLaneTest1 q) (w % 2 ^ 32))) ∧
    (s.reaches (Reg.nitLaneTest0 q) = false → NoEffect (.laneSelfTest q h w) s)) ∧
  (∀ (s : State) (q c : Nat),
    (s.reaches (Reg.nitCellCmd q) = true →
      exec (.cellRead q c) s = .next (s.writeCellCmd q (c % 65536 + 2 ^ 31)) ∧
      exec (.cellPark q c) s = .next (s.writeCellCmd q (c % 65536 + 2 ^ 16 + 2 ^ 31)) ∧
      exec (.unparkBar q c) s = .next (s.writeCellCmd q (c % 65536 + 2 ^ 17 + 2 ^ 31)) ∧
      exec (.unparkCross q c) s = .next (s.writeCellCmd q (c % 65536 + 3 * 2 ^ 16 + 2 ^ 31))) ∧
    (s.reaches (Reg.nitCellCmd q) = false → NoEffect (.cellRead q c) s ∧ NoEffect (.cellPark q c) s ∧
      NoEffect (.unparkBar q c) s ∧ NoEffect (.unparkCross q c) s)) ∧
  ∀ (s t : State) (q w c : Nat), t = s.store (Reg.nitCellCmd q) w → c = bitsOf w 0 16 →
    (s.flag (F.nitCellCmdGoBusy q) = true → s.writeCellCmd q w = s) ∧
    (s.flag (F.nitCellCmdGoBusy q) = false → bitAt w 31 = false → s.writeCellCmd q w = t) ∧
    (s.flag (F.nitCellCmdGoBusy q) = false → bitAt w 31 = true →
      (bitsOf w 16 2 = 0 → s.writeCellCmd q w = ((t.wr (Reg.nitCellData0 q) (t.rd (cellAddr q c))).wr (Reg.nitCellData1 q)
        (t.rd (cellAddr q c + 4))).cellDone q 0) ∧
      (bitsOf w 16 2 ≠ 0 → t.flag (F.nitCtlEn q) = false → s.writeCellCmd q w = t.cellDone q 3) ∧
      (bitsOf w 16 2 = 1 → t.flag (F.nitCtlEn q) = true → s.writeCellCmd q w = (t.hostPark q c).cellDone q 0) ∧
      (2 ≤ bitsOf w 16 2 → t.flag (F.nitCtlEn q) = true → s.writeCellCmd q w = t.unpark q c (bitsOf w 16 2 - 2)) ∧
      (∀ d, t.fget (Cell.state q c) ≠ cellParked → t.unpark q c d = t.cellDone q 1) ∧
      (∀ d, t.fget (Cell.state q c) = cellParked → t.targeted q c = false → t.unpark q c d = t.cellDone q 2) ∧
      (∀ d r, t.fget (Cell.state q c) = cellParked → t.targeted q c = true → r = t.dropWaiting q c rPreempted →
        t.unpark q c d = (if r.flag (F.nitStsRun q) = true then r.bindAll q [(0, c, d)] else
          r.setNit q { r.nit q with wait := (r.nit q).wait ++ [(0, c, d)] }).cellDone q 0))

/-- COMMIT_LISTS_RECEIVED of a commit owed by this slice and not yet known, while the slice's domain is open, takes it
at once or for LAND_BIND_SEND; any other is ignored; LAND_BIND_SEND binds what waits and is ignored for an unknown
commit. NITINOL_STARTUP_DONE of a slice READY and not started sets it started, remembers the entries that cannot be
read, whose GAIN is lost, and retires failed lanes; either way it reports what its reads met. REACQUISITION_START
needs a wish, a started slice, UP, EN and no hold or running reacquisition: it then interrupts the slice, clears
HOLD_REL, sets REACQ and counts; READBACK_STEP steps the next pair; REACQUISITION_END waits for all flits and fails
after the third pass; complete, it classifies every cell, or starts every cell anew after a FRESH IDENT (only then the
lift-off begins anew), and releases the hold. RELANDING_START with RUN serves what is queued with what waits. Setting
EN asks for a reacquisition, REACQ does after a failed one, clearing EN interrupts the slice. The kept FRESH and the
free arguments of the record are log entries 116 and 63. That a command whose condition does not hold changes nothing
is the model's choice (log entry 3). (R287, R288, R290, R299, R300, R301, R303, R304, R305) -/
def Obligations.CommitsAndReacquisitionRunInASlice : Prop :=
  (∀ (s : State) (q id : Nat) (x : Commit), s.fab.running.find? (fun c => c.id == id && bitAt c.owe q) = some x →
    (∀ y ∈ (s.nit q).commits, y.id ≠ id) → s.open' q 9 = true → ∀ l t r start,
      l = commitCells q x.moves →
      start = (if s.folNow q + 1200 ≤ x.tc then 16 * x.tc else 0) →
      t = s.setNit q { s.nit q with commits := (s.nit q).commits ++ [{ id := id, tc := start / 16, open' := l.length, round0 := if s.folNow q + 1200 ≤ x.tc then some start else none }] } →
      r = l.foldl (fun (a : List (Nat × Nat × Nat) × State) z =>
        let b := a.2.landRequest q id start z
        (a.1 ++ b.1, b.2)) ([], t) →
      exec (.commitListsReceived q id) s = .next (if s.folNow q + 1200 ≤ x.tc then
        r.2.onNitCommit q id (fun y => { y with binds := r.1.map (fun y => y.2) }) else r.2.bindAll q r.1)) ∧
  (∀ (s : State) (q id : Nat), (s.fab.running.find? (fun c => c.id == id && bitAt c.owe q) = none ∨
    (∃ y ∈ (s.nit q).commits, y.id = id) ∨ s.open' q 9 = false) → NoEffect (.commitListsReceived q id) s) ∧
  (∀ (s : State) (q id : Nat),
    ((s.nit q).commits.find? (fun c => c.id == id) = none → NoEffect (.landBindSend q id) s) ∧
    ∀ c, (s.nit q).commits.find? (fun c => c.id == id) = some c → exec (.landBindSend q id) s = .next
      ((s.onNitCommit q id (fun x => { x with binds := [] })).bindAll q (c.binds.map (fun x => (id, x))))) ∧
  (∀ (s t : State) (q failed : Nat) (bad met : List Nat),
    ((s.nit q).started = false → s.qReady q 9 = true → met = s.spoiltCells q → t = s.cellsRead q met →
      exec (.nitinolStartupDone q failed bad) s = .next (((t.setNit q { t.nit q with started := true, bad := [] }).loseEntries q
        (bad ++ met.filter (fun c => !s.wordsReadable (cellAddr q c) 2))).applyLanes q (s.retired q ||| failed % 2 ^ 64)).reportReads) ∧
    (((s.nit q).started = true ∨ s.qReady q 9 = false) → exec (.nitinolStartupDone q failed bad) s = .next s.reportReads)) ∧
  (∀ (s : State) (q : Nat), let n := s.nit q
    (n.want = true → n.started = true → s.isUp q = true → s.flag (F.nitCtlEn q) = true → s.flag (F.nitStsReacq q) = false →
      n.held = false → ∀ t, t = (((((s.countMissing q).nitInterrupt q).setHoldRel q false).fset (F.nitStsReacq q) true).fset
        (F.nitStsReacqFail q) false).nitCount q 17 →
      exec (.reacquisitionStart q) s = .next (t.setNit q { t.nit q with
        want := false, pass := 0, todo := List.range 64, stepped := none, gotSns := [], gotLat := [], sensed := [] })) ∧
    ((n.want = false ∨ n.started = false ∨ s.isUp q = false ∨ s.flag (F.nitCtlEn q) = false ∨
      s.flag (F.nitStsReacq q) = true ∨ n.held = true) → NoEffect (.reacquisitionStart q) s)) ∧
  (∀ (s : State) (q : Nat), s.flag (F.nitStsReacq q) = true → s.isUp q = true → ∀ t p r, t = s.countMissing q →
    ((t.nit q).todo = [] → (3 ≤ (t.nit q).pass ∨ t.lacking q = []) → exec (.readbackStep q) s = .next t) ∧
    ((t.nit q).todo = p :: r → exec (.readbackStep q) s = .next
      (((t.setNit q { t.nit q with todo := r }).sendFlit q 0x13 0 (p + 64) []).stepPair q p true)) ∧
    ((t.nit q).todo = [] → (t.nit q).pass < 3 → t.lacking q = p :: r → exec (.readbackStep q) s = .next
      (((t.setNit q { t.nit q with pass := (t.nit q).pass + 1, todo := r }).sendFlit q 0x13 0 (p + 64) []).stepPair q p true))) ∧
  (∀ (s : State) (q : Nat), (s.flag (F.nitStsReacq q) = false ∨ s.isUp q = false) → NoEffect (.readbackStep q) s) ∧
  (∀ (s : State) (q : Nat), s.flag (F.nitStsReacq q) = true → (s.nit q).todo = [] →
    (s.lacking q ≠ [] → (s.nit q).pass = 3 → exec (.reacquisitionEnd q) s = .next ((s.countMissing q).reacqFail q)) ∧
    (s.lacking q ≠ [] → (s.nit q).pass ≠ 3 → NoEffect (.reacquisitionEnd q) s) ∧
    (s.lacking q = [] → ∀ b c l m t,
      b = (s.setNit q { s.nit q with stepped := none, unarmed := if (s.link q).fresh = true then [] else (s.nit q).unarmed }).setLink q { s.link q with fresh := false } →
      c = (if (s.link q).fresh = true then forUpTo 65536 (fun c u => u.freshCell q c) b
        else forUpTo 65536 (fun c u => u.classifyCell q c) b) →
      l = (c.setNit q { c.nit q with cold := false, bad := [], first := 2 ^ 64 - 1 }).when (s.link q).fresh
        (fun u => u.fset (F.nitStsLifting q) !((u.nit q).unarmed.isEmpty)) →
      m = ((l.setHoldRel q true).fset (F.nitStsRun q) true).fset (F.nitStsReacq q) false →
      t = m.when ((s.link q).fresh && (m.nit q).unarmed.isEmpty) (·.nitEvent q 5 0 0 0) →
      exec (.reacquisitionEnd q) s = .next (t.nitEvent q 0 0 (t.freeVal 32) (t.useFree.freeVal 32)).useFree.useFree)) ∧
  (∀ (s : State) (q : Nat), (s.flag (F.nitStsReacq q) = false ∨ (s.nit q).todo ≠ []) → NoEffect (.reacquisitionEnd q) s) ∧
  (∀ (s : State) (q : Nat),
    (s.flag (F.nitStsRun q) = true → ∀ t,
      t = eachOf (s.nit q).requeue (fun _ u => u.nitCount q 18) (s.setNit q { s.nit q with requeue := [] }) →
      exec (.relandingStart q) s = .next ((t.setNit q { t.nit q with wait := (t.nit q).wait ++ (s.nit q).requeue.map (fun c => (0, c, s.fget (Cell.dest q c))) }).serveWait q)) ∧
    (s.flag (F.nitStsRun q) = false → NoEffect (.relandingStart q) s)) ∧
  (∀ (s : State) (q w : Nat),
    (s.reaches (Reg.nitCtl q) = true → exec (.nitinolEnable q w) s = .next (s.writeNitCtl q (w ||| 1)) ∧
      exec (.nitinolDisable q w) s = .next (s.writeNitCtl q (w &&& 0xFFFFFFFE)) ∧
      exec (.reacq q w) s = .next (s.writeNitCtl q (w ||| 8))) ∧
    (s.reaches (Reg.nitCtl q) = false → NoEffect (.nitinolEnable q w) s ∧ NoEffect (.nitinolDisable q w) s ∧
      NoEffect (.reacq q w) s)) ∧
  ∀ (s t r : State) (q w : Nat), t = s.store (Reg.nitCtl q) w →
    r = (if bitAt w 3 = true ∧ s.flag (F.nitStsReacqFail q) = true then t.wantReacq q else t) →
    (s.flag (F.nitCtlEn q) = false → bitAt w 0 = true → bitAt w 3 = false → s.writeNitCtl q w = t.wantReacq q) ∧
    (s.flag (F.nitCtlEn q) = bitAt w 0 → s.writeNitCtl q w = r) ∧
    (s.flag (F.nitCtlEn q) = true → bitAt w 0 = false → ∀ u,
      u = ((r.nitInterrupt q).setHoldRel q false).fset (F.nitStsReacq q) false →
      s.writeNitCtl q w = u.setNit q { u.nit q with want := false, todo := [], held := false })

/-- FAB_LOAD with GO loads a slot with EN = 0 and nothing loading; its end clears LOADING, sets LOAD_ERR and, with no
error, F and FVALID, and reports what its reads met, as COMMIT_RESOLVED does. A word of F that cannot be read takes
FVALID away, and fails a load that would keep it (log entry 145) and every resolution. EN sets only with FVALID = 1.
While the collector works: a FAB entry not begun becomes a commit, refused by the first check of R318 that applies,
else staged in T_c order; CANCEL discards the first staged commit of its ring and tag; the first unresolved staged
commit is resolved unless it waits unarmed, its deadline refuses it LATE; FAB_ARM arms the first unarmed waiting
commit or counts, its deadline refuses it NOT_ARMED; a resolved first commit is dispatched outside the safe state; the
first dispatched commit executes at its instant. A slice report with every cell ended is taken while the quadrant is
not isolated; COMMIT_WITHDRAWAL acts with PEND = 1. A blank ends once its commit has left; before that it stays. While
the collector does not work nothing of it acts. That a command whose condition does not hold changes nothing is the
model's choice (log entry 3). (R314, R317, R318, R321, R322, R324, R326, R327, R328, R152, R332) -/
def Obligations.CommitsRunThroughTheCollector : Prop :=
  (∀ (s : State) (w : Nat),
    (s.reaches Reg.fabLoad = true → exec (.fabLoad w) s = .next (s.writeFabLoad (w ||| 2 ^ 31))) ∧
    (s.reaches Reg.fabLoad = false → NoEffect (.fabLoad w) s) ∧
    (s.reaches Reg.fabCtl = true → exec (.fabEnable w) s = .next (s.writeFabCtl (w ||| 1))) ∧
    (s.reaches Reg.fabCtl = false → NoEffect (.fabEnable w) s)) ∧
  (∀ (s : State) (w : Nat),
    (bitAt w 31 = true → s.flag F.fabCtlEn = false → s.flag F.fabStsLoading = false → s.writeFabLoad w =
      (s.fset F.fabStsLoading true).onFab (fun x => { x with loading := bitsOf w 0 8 })) ∧
    ((s.flag F.fabCtlEn = true ∨ s.flag F.fabStsLoading = true) → s.writeFabLoad w = s) ∧
    ((bitAt w 0 = false ∨ s.flag F.fabStsFvalid = true) → s.writeFabCtl w = s.store Reg.fabCtl w) ∧
    (bitAt w 0 = true → s.flag F.fabStsFvalid = false →
      s.writeFabCtl w = (s.store Reg.fabCtl w).fset F.fabCtlEn false)) ∧
  (∀ (c : Instr) (s : State), s.fabWorks = false →
    (∃ n r pos, c = .fabLoadDone n ∨ c = .commitResolved n ∨ c = .resolveDeadline ∨ c = .fabArm ∨ c = .armDeadline ∨
      c = .commitDispatch ∨ c = .commitInstant ∨ c = .commitWithdrawal ∨ c = .fabCommit r pos ∨ c = .cancel r pos) →
    NoEffect c s) ∧
  (∀ s : State, s.fabWorks = true →
    (∀ bad m l lost code t, m = s.fab.loading → l = s.slotSpec m →
      lost = (bad == 2 || !s.fGood (fun c => !l.any (fun x => x.1 == c))) →
      code = (if bad = 1 ∨ lost = true ∨ s.slotReadable m = false ∨ s.slotCrc m = false then 5 else checkSpec s.fmaps l) →
      t = (((s.fRead.when lost (·.loseF)).touch (mapBase m) 273).fset F.fabStsLoading false).fput F.fabStsLoadErr code →
      (s.flag F.fabStsLoading = true → exec (.fabLoadDone bad) s = .next (if code = 0 then
        (eachOf l (fun x u => u.setF x.1 x.2) t).fset F.fabStsFvalid true else t.fabEvent 3 0 code m).reportReads) ∧
      (s.flag F.fabStsLoading = false → exec (.fabLoadDone bad) s = .next s.reportReads)) ∧
    (∀ r pos e w, s.fabEntry r pos 0 = some e → w = e.words.getD 1 0 → exec (.fabCommit r pos) s = .next
      ((s.beginEntry r pos).takeCommit
        { src := 1, ring := r, pos := pos, map := bitsOf w 8 8, tag := bitsOf w 16 16, asap := bitAt w 2, wait := bitAt w 3,
          tc := nearInstant (s.folNow 4) (e.words.getD 2 0) (e.words.getD 3 0) } false)) ∧
    (∀ r pos, s.fabEntry r pos 0 = none → NoEffect (.fabCommit r pos) s) ∧
    (∀ r pos, s.fabEntry r pos 1 = none → NoEffect (.cancel r pos) s) ∧
    (∀ r pos e hit t, s.fabEntry r pos 1 = some e → hit = s.fab.staged.find? (fun c =>
        c.src == 1 && c.ring == r && c.tag == bitsOf (e.words.getD 1 0) 16 16) →
      (∀ c, hit = some c → t = s.refuseCommit c 8) → (hit = none → t = s) → exec (.cancel r pos) s = .next
        ((t.ringWrite r (t.unitAddr r pos + 16) [if hit = none then 13 else 0, fsNs (s.folNow 4), fsSec (s.folNow 4), 0]).entriesDone r [pos])) ∧
    (∀ n, n = 2 ∨ s.fGood (fun _ => true) = false → exec (.commitResolved n) s = .next s.fRead.loseF.reportReads) ∧
    (∀ n, n < 2 → s.fGood (fun _ => true) = true →
      (s.fab.staged.find? (fun c => !c.resolved) = none → exec (.commitResolved n) s = .next s.fRead.reportReads) ∧
      ∀ c, s.fab.staged.find? (fun c => !c.resolved) = some c →
        (c.wait = true → c.armed = false → exec (.commitResolved n) s = .next s.fRead.reportReads) ∧
        ((c.wait = false ∨ c.armed = true) →
          (∀ l, c.spec = some l → exec (.commitResolved n) s = .next (s.fRead.resolveWith c l).reportReads) ∧
          (∀ t, t = s.fRead.touch (mapBase c.map) 273 →
            (c.spec = none → (n = 1 ∨ s.slotReadable c.map = false ∨ s.slotCrc c.map = false) →
              exec (.commitResolved n) s = .next (t.refuseCommit c 5).reportReads) ∧
            (c.spec = none → n = 0 → s.slotReadable c.map = true → s.slotCrc c.map = true →
              exec (.commitResolved n) s = .next (t.resolveWith c (s.slotSpec c.map)).reportReads)))) ∧
    (∀ c, s.fab.staged.find? (fun c => !c.resolved) = some c → exec .resolveDeadline s = .next (s.refuseCommit c 2)) ∧
    (s.fab.staged.find? (fun c => !c.resolved) = none → NoEffect .resolveDeadline s) ∧
    (s.fab.staged.find? (fun c => c.wait && !c.armed) = none →
      exec .fabArm s = .next (s.fabCount 15) ∧ NoEffect .armDeadline s) ∧
    (∀ c, s.fab.staged.find? (fun c => c.wait && !c.armed) = some c →
      exec .fabArm s = .next (s.onCommit c.id (fun x => { x with armed := true })) ∧
      exec .armDeadline s = .next (s.refuseCommit c 10)) ∧
    (∀ c r, s.fab.staged = c :: r →
      (c.resolved = true → s.flag F.qchStsFatal = false → ∀ d, d = { c with owe := s.partMask, removed := s.partMask != 15, order := s.armings + 1 } →
        exec .commitDispatch s = .next
          (s.arming.onFab (fun x => { x with staged := r, running := x.running ++ [d] })).annealPreempt) ∧
      ((c.resolved = false ∨ s.flag F.qchStsFatal = true) → NoEffect .commitDispatch s)) ∧
    (s.fab.staged = [] → NoEffect .commitDispatch s) ∧
    (∀ c, s.fab.running.find? (fun c => !c.executed) = some c → exec .commitInstant s = .next (s.execute c)) ∧
    (s.fab.running.find? (fun c => !c.executed) = none → NoEffect .commitInstant s) ∧
    (s.flag F.scbStsPend = false → NoEffect .commitWithdrawal s) ∧
    (s.flag F.scbStsPend = true → exec .commitWithdrawal s = .next
      (eachOf (s.fab.running.filter (fun c => c.src == 0 && Nat.ble s.scb.next c.tc && !c.executed)) (fun c u => u.withdraw c 8)
        (eachOf (s.fab.staged.filter (fun c => c.src == 0 && Nat.ble s.scb.next c.tc)) (fun c u => u.refuseCommit c 8) s)))) ∧
  (∀ (s : State) (c : Commit) (format late : Bool),
    (s.flag F.fabCtlEn = false → s.acceptCode c format late = 11) ∧
    (s.flag F.fabCtlEn = true → format = true → s.acceptCode c format late = 12) ∧
    (s.flag F.fabCtlEn = true → format = false → late = true → s.acceptCode c format late = 2) ∧
    (s.flag F.fabCtlEn = true → format = false → late = false →
      (∃ x ∈ s.fab.staged ++ s.fab.running, x.src ≠ 2 ∧ c.tc ≤ x.tc) → s.acceptCode c format late = 4) ∧
    (s.acceptCode c format late = 0 → (∀ x ∈ s.fab.staged ++ s.fab.running, x.src ≠ 2 → x.tc + 2000 ≤ c.tc) ∧
      s.fab.staged.length < 8 ∧ s.flag F.fabCtlEn = true ∧ format = false ∧ late = false)) ∧
  (∀ (s t : State) (q id : Nat) (n : NitCommit), (s.nit q).commits.find? (fun c => c.id == id) = some n →
    t = s.setNit q { s.nit q with commits := (s.nit q).commits.filter (fun c => c.id != id) } →
    (n.open' = 0 → s.iso q = false → ∀ ok, ok = n.res.getD 0 0 + n.res.getD 1 0 + n.res.getD 7 0 →
      exec (.sliceReport q id) s = .next ((t.onCommit id (fun c => bif bitAt c.owe q then
        { c with owe := c.owe - 2 ^ q, got := c.got + 2 ^ q, ok := c.ok + ok, bad := c.bad + (n.res.foldl (· + ·) 0 - ok),
                 settle := Nat.max c.settle n.settle }
        else c)).tryComplete id)) ∧
    ((n.open' ≠ 0 ∨ s.iso q = true) → NoEffect (.sliceReport q id) s)) ∧
  ∀ (s t : State) (i id : Nat),
    ((∃ c ∈ s.fab.running, c.id = id) → NoEffect (.blankEnd i id) s) ∧
    ((∀ c ∈ s.fab.running, c.id ≠ id) →
      t = s.onFab (fun x => { x with blanks := x.blanks.filter (fun y => !(y.1 == i && y.2 == id)) }) →
      exec (.blankEnd i id) s = .next (if (∃ y ∈ t.fab.blanks, y.1 = i) ∨ s.lldReached (i / 256) = false then t
        else t.fset (F.lldMon1Blanked i) false))

/-- POLICY_BUILD while the engine works outside the safe state takes every queued declaration in order: with
POL_CTL.EN = 0, an entry that does not act, or STATE PROTECTED or FAILED, NOACT counts; in WTR the entry becomes
PROTECTED and WTR_CANCEL counts; an idle entry with FAB_CTL.EN = 0 or FVALID = 0 fails, otherwise its moves are
examined against F: it fails, is deferred, counts NOACT when all are skipped, or joins the commit with WORK_ROW taken
from F and becomes PROTECTED. The deferred declarations stay queued; a commit with moves is issued and its entries
tell. WTR_EXPIRE of an entry in WTR without a revert commit on its way gives the collector one that sets its columns
back; any other is ignored. In the safe state or with the engine not working both do nothing. Entries and F are read:
an entry with a word that cannot be read acts as EN = 0, a word of F that cannot takes FVALID away, and what the reads
met is reported; the completions of one build give each ring one slot write. That a command whose condition does not
hold changes nothing is the model's choice (log entry 3). (R335, R336, R338) -/
def Obligations.PolicyEntriesSwitchAndRestore : Prop :=
  (∀ (s : State) (bad : List Nat) (b : PolBuild) (d : Nat × Nat) (o : State), let i := d.1
    s = o.polRead i →
    ((s.flag F.polCtlEn = false ∨ s.polActs i = false ∨ i ∈ bad ∨ s.polGood i = false) →
      State.takeDecl bad (b, o) d = (b, s.polCount 4)) ∧
    (s.flag F.polCtlEn = true → s.polActs i = true → i ∉ bad → s.polGood i = true →
      ((s.fget (Pol.state i) = 1 ∨ s.fget (Pol.state i) = 3) → State.takeDecl bad (b, o) d = (b, s.polCount 4)) ∧
      (s.fget (Pol.state i) = 2 → State.takeDecl bad (b, o) d = (b, (s.polPut (Pol.state i) 1).polCount 6)) ∧
      (s.fget (Pol.state i) = 0 →
        ((s.flag F.fabCtlEn = false ∨ s.flag F.fabStsFvalid = false) → State.takeDecl bad (b, o) d = (b, s.polFail i)) ∧
        (s.flag F.fabCtlEn = true → s.flag F.fabStsFvalid = true → ∀ l y, l = s.polMoves i →
          y = s.examine (b.moves.map (·.1)) ((l.filter (fun m => s.fmap m.2.1 != m.2.2)).map (·.2.1)) l →
          (y.1 = 1 → State.takeDecl bad (b, o) d = (b, s.polFail i)) ∧
          (y.1 = 2 → State.takeDecl bad (b, o) d = ({ b with deferred := b.deferred ++ [d] }, s.polCount 5)) ∧
          (y.1 = 0 → y.2 = [] → State.takeDecl bad (b, o) d = (b, s.polCount 4)) ∧
          (y.1 = 0 → y.2 ≠ [] → State.takeDecl bad (b, o) d =
            ({ b with moves := b.moves ++ y.2.map (·.2), switched := b.switched ++ [(i, y.2)] },
              ((eachOf y.2 (fun m u => u.polPut (Pol.work i m.1) (s.fmap m.2.1)) s).polPut (Pol.state i) 1).polCount 1)))))) ∧
  (∀ (s : State) (bad : List Nat) (fbad : Bool),
    (s.fabWorks = true → exec (.policyBuild bad fbad) s = .next (s.policyBuild bad fbad).reportReads) ∧
    (s.fabWorks = false → NoEffect (.policyBuild bad fbad) s) ∧
    (s.flag F.qchStsFatal = true → s.policyBuild bad fbad = s) ∧
    (s.fabWorks = true → s.flag F.qchStsFatal = false → s.slots.isSome = true → ∀ u r t,
      u = s.fRead.when (fbad || !s.fGood (fun _ => true)) (·.loseF) →
      r = u.fab.decl.foldl (State.takeDecl bad) ({}, u) → t = r.2.onFab (fun x => { x with decl := r.1.deferred }) →
      (r.1.switched = [] → s.policyBuild bad fbad = t) ∧
      (∀ e l, r.1.switched = e :: l → s.policyBuild bad fbad =
        eachOf (e :: l) (fun x v => (v.polTell 0 x.1 x.2.length).noticeFrame x.1 1 (u.folNow 4) x.2)
          (t.issueProtection e.1 r.1.moves))) ∧
    (s.fabWorks = true → s.flag F.qchStsFatal = false → s.slots = none → ∀ t,
      t = State.policyBuild { s with slots := some [] } bad fbad →
      s.policyBuild bad fbad = eachOf (t.slots.getD []) (fun x u => u.slotNow x.1 x.2) { t with slots := none })) ∧
  ∀ (s : State) (i : Nat) (fbad : Bool),
    (s.fabWorks = false → NoEffect (.wtrExpire ⟨i, fbad⟩) s) ∧
    (s.fabWorks = true → (s.flag F.qchStsFatal = true ∨ s.fget (Pol.state i) ≠ 2 ∨
      (∃ c ∈ s.fab.staged ++ s.fab.running, c.src = 3 ∧ c.tag = i)) → exec (.wtrExpire ⟨i, fbad⟩) s = .next s.reportReads) ∧
    (s.fabWorks = true → s.flag F.qchStsFatal = false → s.fget (Pol.state i) = 2 →
      (∀ c ∈ s.fab.staged ++ s.fab.running, ¬(c.src = 3 ∧ c.tag = i)) → ∀ r, r = s.fRead.polRead i →
      ((fbad = true ∨ s.fGood (fun _ => true) = false) → exec (.wtrExpire ⟨i, fbad⟩) s = .next r.loseF.reportReads) ∧
      (fbad = false → s.fGood (fun _ => true) = true → s.polGood i = false →
        exec (.wtrExpire ⟨i, fbad⟩) s = .next r.reportReads) ∧
      (fbad = false → s.fGood (fun _ => true) = true → s.polGood i = true →
      ∀ tc spec, tc = (s.fab.staged ++ s.fab.running).foldl (fun m c => Nat.max m (c.tc + 2000)) (s.folNow 4 + s.fget F.polRevRevLead) →
      spec = ((s.polMoves i).filter (fun m => s.fmap m.2.1 == m.2.2)).map (fun m => (m.2.1, s.fget (Pol.work i m.1))) →
      exec (.wtrExpire ⟨i, fbad⟩) s =
        .next (r.takeCommit { src := 3, tag := i, tc := tc, spec := some spec } false).reportReads))

/-- While Anneal works: an on-die zone takes a reading, valid unless 0x8000; with EN = 0 nothing more follows. A pass
at MAX_AGE is due with MAX_AGE not 0 and EN = 1, else nothing. A due pass that may start takes the six references from
the readings, clears RUN_NOW and lists the 88 groups; with a zone invalid it only shows WAIT_SENS. A walk over the
groups that is through begins again over those to retry; the next group's step starts with CAL_START in a pass with no
step running when the conditions of R346 hold, STEP_GAP among them, else nothing more follows. A group of the table
load on an UP link with EN = 1 and PUSH is read back with three TRIM_READ, or pushed from the table, or with zeros
when it has no source, or left unloaded when its words cannot be read; after its writes TRIM_APPLY waits for the end
of HOLD; the row reads the group's status word too and reports what its reads met. A pending UNCAL batch rewrites 64
entries while the slice's domain is open. An ANL_CTL write that sets EN starts the load of every quadrant with no
group dealt with yet, RUN_NOW makes passes due, and a pass left with no group ends. While Anneal does not work none of
it acts. That a command whose condition does not hold changes nothing is the model's choice (log entry 3). (R343,
R344, R345, R346, R352, R353) -/
def Obligations.AnnealFindsDueZonesAndStepsGroups : Prop :=
  (∀ s : State, (s.ready 50 = false ∨ s.unitHeld 7 = true) → ∀ q z temp bad, NoEffect (.zoneSample z temp) s ∧
    NoEffect (.passMaxAge q) s ∧ NoEffect (.annealStepStart q) s ∧ NoEffect (.annealTableLoad q bad) s ∧
    NoEffect (.uncalBatchWrite q) s) ∧
  (∀ s : State, s.ready 50 = true → s.unitHeld 7 = false →
    (∀ z temp, z < 16 → exec (.zoneSample z temp) s = .next (s.zoneReading z (temp % 65536) (temp % 65536 != 0x8000))) ∧
    (∀ z temp, 16 ≤ z → NoEffect (.zoneSample z temp) s) ∧
    (∀ q, s.fget F.anlCfgMaxAge ≠ 0 → s.flag F.anlCtlEn = true → exec (.passMaxAge q) s = .next (s.passDue q)) ∧
    (∀ q, (s.fget F.anlCfgMaxAge = 0 ∨ s.flag F.anlCtlEn = false) → NoEffect (.passMaxAge q) s) ∧
    (∀ q u, u = s.nextWalk q →
      (u.nextGroup q = none → exec (.annealStepStart q) s = .next u) ∧
      ∀ g, u.nextGroup q = some g →
        (u.flag (F.anlQ0Pass q) = true → (u.anlOf q).stage = 0 → u.mayStep q g = true →
          ∀ t, t = ((u.fset (F.anlQ0Step q) true).fput (F.anlQ0Group q) g).anlCount q 1 →
          exec (.annealStepStart q) s = .next
            ((t.setAnl q { t.anlOf q with stage := 1, lastStart := some u.now }).command q 0x03 [g])) ∧
        ((u.flag (F.anlQ0Pass q) = false ∨ (u.anlOf q).stage ≠ 0 ∨ u.mayStep q g = false) →
          exec (.annealStepStart q) s = .next u)) ∧
    (∀ q, ((s.steppable (s.anlOf q).todo ≠ [] → s.nextWalk q = s) ∧
      (s.steppable (s.anlOf q).todo = [] → s.nextWalk q = s.setAnl q
        { s.anlOf q with todo := (s.anlOf q).todo.foldr insertGroup (s.anlOf q).retry, retry := [] }))) ∧
    (∀ q g, s.mayStep q g = true → ∀ a, (s.anlOf q).lastStart = some a →
      a + 1000000 * s.fget F.anlCfgStepGap ≤ s.now) ∧
    (∀ q bad, (s.anlOf q).load = [] → exec (.annealTableLoad q bad) s = .next s.reportReads) ∧
    (∀ q x g l bad o, x = s.anlOf q → x.load = g :: l → o = s.touch (Reg.anlGroup q g) 1 →
      (s.flag (F.anlQ0Push q) = false ∨ s.isUp q = false ∨ s.flag F.anlCtlEn = false ∨ s.iso q = true ∨
        x.check = true) → exec (.annealTableLoad q bad) s = .next o.reportReads) ∧
    (∀ q x g l bad o, x = s.anlOf q → x.load = g :: l → o = s.touch (Reg.anlGroup q g) 1 → s.flag (F.anlQ0Push q) = true → s.isUp q = true → s.flag F.anlCtlEn = true →
      s.iso q = false → x.check = false →
      (x.phase = 0 → s.readsBack q g = true → ∀ t, t = o.setAnl q { x with phase := 4 } → exec (.annealTableLoad q bad) s = .next
        (((t.loadSend q 0x09 0 [g, 0]).loadSend q 0x09 0 [g, 13]).loadSend q 0x09 0 [g, 26]).reportReads) ∧
      (x.phase = 0 → s.readsBack q g = false → (bad = true ∨ s.wordsReadable (Reg.anlTrim q g 0) 32 = false) →
        s.hasSource q g = true →
        exec (.annealTableLoad q bad) s = .next ((o.touch (Reg.anlTrim q g 0) 32).loadLost q g).reportReads) ∧
      (x.phase = 0 → s.readsBack q g = false →
        ((bad = false ∧ s.wordsReadable (Reg.anlTrim q g 0) 32 = true) ∨ s.hasSource q g = false) → ∀ m t,
        m = (if s.hasSource q g then s.tableTrims q g else List.replicate 32 0) →
        t = (o.when (s.hasSource q g) (·.touch (Reg.anlTrim q g 0) 32)).setAnl q { x with phase := 1, trims := m } →
        exec (.annealTableLoad q bad) s = .next (((t.loadSend q 0x07 0 (trimWords g 0 13 m)).loadSend q 0x07 0
          (trimWords g 13 13 m)).loadSend q 0x07 0 (trimWords g 26 6 m)).reportReads) ∧
      (x.phase = 2 → s.flag (F.grfStsAsmHold q) = false → exec (.annealTableLoad q bad) s = .next
        ((o.setAnl q { x with phase := 3 }).loadSend q 0x08 0 [g]).reportReads) ∧
      ((x.phase = 1 ∨ x.phase = 3 ∨ x.phase = 4 ∨ (x.phase = 2 ∧ s.flag (F.grfStsAsmHold q) = true)) →
        exec (.annealTableLoad q bad) s = .next o.reportReads)) ∧
    (∀ q, ((s.anlOf q).uncal = [] ∨ s.open' q 9 = false) → NoEffect (.uncalBatchWrite q) s) ∧
    (∀ q g k r w b, (s.anlOf q).uncal = (g, k) :: r → s.open' q 9 = true → w = 32 * (g % 32) + k →
      b = (s.flag (F.anlGroupUncal q (w / 32)) || s.flag (F.anlGroupUncal q (32 + w / 32))) →
      exec (.uncalBatchWrite q) s = .next
        (forUpTo 64 (fun p t => t.fset (Cell.uncal q ((2 * p + w / 512) * 512 + w % 512)) b)
          (s.setAnl q { s.anlOf q with uncal := r })))) ∧
  (∀ (s : State) (z temp : Nat) (v : Bool) (t : State), t = (s.fput (F.anlZone0Temp z) temp).fset (F.anlZone0Valid z) v →
    t.flag F.anlCtlEn = false → s.zoneReading z temp v = t) ∧
  (∀ (s : State) (q : Nat), s.flag (F.anlQ0Due q) = true → s.flag (F.anlQ0Pass q) = false → s.flag F.anlCtlEn = true →
    s.flag (F.anlQ0Push q) = false → (s.anlOf q).started = true →
    (s.zonesValid q = false → s.tryPass q = s.fset (F.anlQ0WaitSens q) true) ∧
    (s.zonesValid q = true → ∀ t, t = eachOf (zonesOf q) (fun z u => u.fput (F.anlZone1TRef z) (u.fget (F.anlZone0Temp z)))
        ((((s.fset (F.anlQ0Due q) false).fset (F.anlQ0WaitSens q) false).fset (F.anlQ0Pass q) true).clr Reg.anlCtl (2 ^ (4 + q))) →
      s.tryPass q = t.setAnl q { t.anlOf q with started := true, todo := List.range 88, retry := [], errs := [], trig := [] })) ∧
  (∀ (s : State) (q w : Nat),
    (s.reaches Reg.anlCtl = true → exec (.runNow q w) s = .next (s.writeAnlCtl (w ||| 2 ^ (4 + q % 4))) ∧
      exec (.annealEnable w) s = .next (s.writeAnlCtl (w ||| 1))) ∧
    (s.reaches Reg.anlCtl = false → NoEffect (.runNow q w) s ∧ NoEffect (.annealEnable w) s)) ∧
  ∀ (s t : State) (w : Nat),
    (s.flag F.anlCtlEn = false → bitAt w 0 = true →
      t = forUpTo 4 (fun q v => ((v.setAnl q { v.anlOf q with started := false, done := [] }).loadStart q).firstDue q) (s.store Reg.anlCtl w)) →
    ((s.flag F.anlCtlEn = true ∨ bitAt w 0 = false) → t = s.store Reg.anlCtl w) →
    s.writeAnlCtl w =
      forUpTo 4 (fun q u => (if bitAt w (4 + q) then (u.orw Reg.anlCtl (2 ^ (4 + q))).passDue q else u).endPass q) t

/-- Outside the safe state a CBS_CTL write that sets EN checks MODE_INIT: a failed check is shown in ERR and the
channel stays, a good one enters LISTEN with that mode; clearing EN ends the frames and leads to OFF. While the star
works: a channel whose state word is bad enters HALT; the next cycle start of a running channel closes the guardian,
lets quiet blocked spokes back, counts and starts its cycle, COLDSTART enters INTEGRATE at cycle 4, INTEGRATE NORMAL
or LISTEN at cycle 8; an OFF or HALT channel starts none. The NIT of such a channel judges its cycle; a LISTEN timeout
with CS_EN makes the star lead; a HALT timeout with AUTO_RESTART returns to LISTEN; a mode request that may not act is
rejected with its code, another is pending; a due mode switch takes effect; a spoke's code-group lock shows. A channel
that follows network time shows its rate at each cycle start. UNBLOCK of a blocked spoke leaves it in REINT with two
strikes; the write is remembered for the strikes of its handshake (R388). A bad synchronisation cycle, EN in the safe
state and what a switch drops are log entries 81, 60 and 82. That a command whose condition does not hold changes
nothing is the model's choice (log entry 3). (R363, R367, R373, R375, R377, R378, R379, R382, R389) -/
def Obligations.CabinetChannelsRunTheirStates : Prop :=
  (∀ (s : State) (c w : Nat),
    (s.reaches (Reg.cbsCtl c) = true →
      (s.flag F.qchStsFatal = false → exec (.cbChannelEnable c w) s = .next (s.writeCbCtl c (w ||| 1)).reportReads) ∧
      (s.flag F.qchStsFatal = true → exec (.cbChannelEnable c w) s = .next s.reportReads) ∧
      exec (.cbChannelDisable c w) s = .next (s.writeCbCtl c (w &&& 0xFFFFFFFE))) ∧
    (s.reaches (Reg.cbsCtl c) = false → NoEffect (.cbChannelEnable c w) s ∧ NoEffect (.cbChannelDisable c w) s) ∧
    (s.reaches (Reg.cbsModeReq c) = true →
      exec (.cbModeRequest c w) s = .next (s.writeModeReq c (w ||| 2 ^ 31)).reportReads) ∧
    (s.reaches (Reg.cbsModeReq c) = false → NoEffect (.cbModeRequest c w) s)) ∧
  (∀ (s : State) (c k : Nat),
    (s.reaches (Reg.cbsSpk0 c k) = true → ∀ t l,
      l = (k, s.counter, s.spokeShut c k) :: (s.chan c).unblocks.filter (fun y => y.2.1 == s.counter) →
      t = s.setChan c { s.chan c with unblocks := l } →
      (s.spokeShut c k = true → exec (.unblock c k) s = .next
        ((t.fput (F.cbsSpk1State c k) 2).fput (F.cbsSpk1Strikes c k) 2)) ∧
      (s.spokeShut c k = false → exec (.unblock c k) s = .next t)) ∧
    (s.reaches (Reg.cbsSpk0 c k) = false → NoEffect (.unblock c k) s)) ∧
  (∀ (s t u : State) (c w code m : Nat), t = s.store (Reg.cbsCtl c) w → m = t.fget (F.cbsCtlModeInit c) →
    code = t.checkMode c m → u = eachOf (t.modeSpoilt (modeBase c m)) (fun k v => v.touch k 1) t →
    (t.flag (F.cbsCtlEn c) = s.flag (F.cbsCtlEn c) → s.writeCbCtl c w = t) ∧
    (s.flag (F.cbsCtlEn c) = true → t.flag (F.cbsCtlEn c) = false → s.writeCbCtl c w = t.goOff c) ∧
    (s.flag (F.cbsCtlEn c) = false → t.flag (F.cbsCtlEn c) = true →
      (code ≠ 0 → s.writeCbCtl c w = u.fput (F.cbsStsErr c) code) ∧
      (code = 0 → ∀ v, v = u.fput (F.cbsStsErr c) 0 → s.writeCbCtl c w =
        (((v.fput (F.cbsStsMode c) m).setChan c { txs := (v.chan c).txs }).showRate' c).cbEnter c cbListen))) ∧
  (∀ (s u : State) (c w st m code : Nat), u = eachOf (s.modeSpoilt (modeBase c (bitsOf w 0 3))) (fun k v => v.touch k 1) s →
    st = s.cbState c → m = bitsOf w 0 3 → bitAt w 31 = true →
    ((s.flag (F.cbsModeStsPend c) = true ∨ ¬(st = cbNormal ∨ st = cbPassive) ∨ m = s.fget (F.cbsStsMode c)) →
      s.writeModeReq c w = (s.fput (F.cbsModeStsRej c) 12).cbsEvent c 6 c st (s.fget (F.cbsStsCycle c))) ∧
    (s.flag (F.cbsModeStsPend c) = false → (st = cbNormal ∨ st = cbPassive) → m ≠ s.fget (F.cbsStsMode c) →
      code = s.checkMode c m →
      (code ≠ 0 → s.writeModeReq c w = (u.fput (F.cbsModeStsRej c) code).cbsEvent c 6 c st (s.fget (F.cbsStsCycle c))) ∧
      (code = 0 → s.writeModeReq c w = ((u.fput (F.cbsModeStsNext c) m).fset (F.cbsModeStsPend c) true).showLeft c
        (switchAhead (s.fget (F.cbsStsCycle c))
          (if u.mdMatrix (u.cbMode c) then Nat.max 1 (u.mdBasic (u.cbMode c)) else 1) 128 (clampNat 2 31 (bitsOf w 4 5)))))) ∧
  (∀ s : State, (s.ready 51 = false ∨ s.unitHeld 8 = true) → ∀ c k l bad, NoEffect (.cbCycleStart c bad) s ∧
    NoEffect (.cbNitStart c) s ∧ NoEffect (.cbListenTimeout c) s ∧ NoEffect (.cbHaltTimeout c) s ∧ NoEffect (.cbModeSwitch c) s ∧
    NoEffect (.spokeCodeGroupSync c k l) s) ∧
  ∀ (s : State) (c : Nat), s.ready 51 = true → s.unitHeld 8 = false →
    (s.cbState c ≠ cbOff → exec (.cbCycleStart c true) s = .next (s.cbEnter c cbHalt)) ∧
    (s.cbState c = cbOff → ∀ bad, NoEffect (.cbCycleStart c bad) s) ∧
    (s.strikesOn c = false → s.cbState c ≠ cbColdstart → (s.cbState c ≠ cbListen ∨ (s.chan c).first = false) →
      NoEffect (.cbCycleStart c false) s) ∧
    ((s.strikesOn c = true ∨ s.cbState c = cbColdstart ∨ (s.cbState c = cbListen ∧ (s.chan c).first = true)) →
      ∀ st u x n t v, st = s.cbState c → u = (s.guardClose' c).reintegrate c → x = u.chan c →
      n = (if x.first then 0 else (u.fget (F.cbsStsCycle c) + 1) % 64) →
      t = ((u.fput (F.cbsStsCycle c) n).cbsCount c 0).setChan c { x with
        synced := [], devs := [], ownSync := false, led := false, lead := x.lead && st != cbColdstart, first := false
        msNext := 0, msAt := u.dynStart (u.cbMode c), noisy := x.txs.map (·.spoke)
        startAt := u.folCounter 4, rho := signedOf (u.fget (F.cbsRateRho c)) 16 } →
      v = (if (t.showRate' c).flag (F.cbsModeStsPend c) = true ∧ 0 < x.left then (t.showRate' c).showLeft c (x.left - 1)
        else t.showRate' c) →
      (¬(st = cbColdstart ∧ n = 4) → ¬(st = cbIntegrate ∧ n = 8) → exec (.cbCycleStart c false) s = .next v) ∧
      (st = cbColdstart → n = 4 → exec (.cbCycleStart c false) s = .next (v.cbEnter c cbIntegrate)) ∧
      (st = cbIntegrate → n = 8 → 2 ≤ x.goodRun → exec (.cbCycleStart c false) s = .next (v.cbEnter c cbNormal)) ∧
      (st = cbIntegrate → n = 8 → x.goodRun < 2 → exec (.cbCycleStart c false) s = .next
        (((v.cbsCount c 4).cbsEvent c 3 c cbListen n).toListen c))) ∧
    ((s.cbState c < cbColdstart ∨ cbPassive < s.cbState c) → NoEffect (.cbNitStart c) s) ∧
    (cbColdstart ≤ s.cbState c → s.cbState c ≤ cbPassive → ∀ v mid u out bad app t,
      v = (s.guardClose' c).devSet c → mid = middle (v.map (·.2)) → u = (s.guardClose' c).fput (F.cbsStsSyncN c) v.length →
      (u.flag (F.cbsCtlNtEn c) = true → exec (.cbNitStart c) s = .next ((u.cbFollow c).cbJudge c (!(u.chan c).ownSync))) ∧
      (u.flag (F.cbsCtlNtEn c) = false → out = Nat.blt (u.pi80 c) mid.natAbs → bad = (Nat.blt v.length (u.minSync c) || out) →
      app = (if bad then (0 : Int) else mid) →
      t = (u.fput (F.cbsOfsMid c) (encodeSigned app 16)).when out (·.cbsCount c 7) →
      (u.fget (F.cbsStsCycle c) % 2 = 0 → exec (.cbNitStart c) s = .next
        ((t.setChan c { t.chan c with devsEven := v, midEven := app }).cbJudge c bad)) ∧
      (u.fget (F.cbsStsCycle c) % 2 = 1 → exec (.cbNitStart c) s = .next ((t.cbRate c).cbJudge c bad)))) ∧
    (s.cbState c = cbListen → s.flag (F.cbsCtlCsEn c) = true → s.relaying c = false →
      exec (.cbListenTimeout c) s = .next (s.setChan c { s.chan c with lead := true, first := true })) ∧
    ((s.cbState c ≠ cbListen ∨ s.flag (F.cbsCtlCsEn c) = false ∨ s.relaying c = true) → NoEffect (.cbListenTimeout c) s) ∧
    (s.cbState c = cbHalt → s.flag (F.cbsCtlAutoRestart c) = true → exec (.cbHaltTimeout c) s = .next (s.toListen c)) ∧
    ((s.cbState c ≠ cbHalt ∨ s.flag (F.cbsCtlAutoRestart c) = false) → NoEffect (.cbHaltTimeout c) s) ∧
    (s.flag (F.cbsModeStsPend c) = true → (s.chan c).left ≤ 1 → ∀ a b d,
      a = ((s.fset (F.cbsModeStsPend c) false).showLeft c 0).fput (F.cbsStsMode c) (s.fget (F.cbsModeStsNext c)) →
      b = ((a.cbsCount c 9).cbsEvent c 5 c (a.cbState c) (a.fget (F.cbsStsCycle c))).dropNoWindow c →
      d = b.setChan c { b.chan c with msAt := b.dynStart (b.cbMode c) } →
      exec (.cbModeSwitch c) s = .next
        ((eachOf ((b.chan c).trips.filter (fun q => !d.holdsTrip c q.bytes.length)) (fun _ w => w.dropTrip c 16) d).setTrips c
          ((b.chan c).trips.filter (fun q => d.holdsTrip c q.bytes.length)))) ∧
    ((s.flag (F.cbsModeStsPend c) = false ∨ 1 < (s.chan c).left) → NoEffect (.cbModeSwitch c) s) ∧
    ∀ k l, (k ≠ 0 → s.spokeOn c k = true →
        exec (.spokeCodeGroupSync c k l) s = .next (s.fset (F.cbsSpk1Lock c k) l)) ∧
      ((k = 0 ∨ s.spokeOn c k = false) → NoEffect (.spokeCodeGroupSync c k l) s)

/-- While the star works: GUARDIAN_OPEN closes the window before, opens the permitted spokes of the new one (none with
a word that cannot be read) and cuts early senders; a minislot out of turn opens nothing. GUARDIAN_CLOSE of an open
window cuts what still runs at its end and counts a silent owner; of none it changes nothing. An SOF on spoke 0, a
disabled spoke, an OFF channel or a spoke already sending changes nothing; in LISTEN the first start frame leads; on a
blocked spoke or in HALT it only starts an unheard transmission; in a window it is relayed, loses the arbitration or
lies outside by the window's rule. The end of a frame shows what was relayed and takes it off; of none it changes
nothing; of a disabled spoke or an OFF channel nothing more follows; a good start frame fixes the cycle's start, a bad
one ends COLDSTART, and a frame in a minislot ends it. In NORMAL an own window sends its entry or a NULL frame, a TRIP
window the trip that fits; in INTEGRATE and PASSIVE own windows send NULL frames; in LISTEN a start frame that is due
leads; OFF and HALT send nothing. With a state word of its running CB_TX ring that cannot be read that ring stops
first. GUARDIAN_OPEN and CB_OWN_FRAME_SEND report what their reads met. EMPTY and EARLY, when frames are shown and
when own frames come are log entries 127, 126 and 128. That a command whose condition does not hold changes nothing is
the model's choice (log entry 3). (R358, R362, R370, R371, R372, R379, R383, R386, R390, R242) -/
def Obligations.TheGuardianAndTheFramesOfACycle : Prop :=
  (∀ s : State, (s.ready 51 = false ∨ s.unitHeld 8 = true) → ∀ c k a b e f h p r l, NoEffect (.guardianOpen c k b) s ∧
    NoEffect (.guardianClose c) s ∧ NoEffect (.cbSofArrival c k a b) s ∧ NoEffect (.cbFrameEnd c k a h p r l) s ∧
    NoEffect (.cbOwnFrameSend c k b e f) s) ∧
  ∀ (s : State) (c : Nat), s.ready 51 = true → s.unitHeld 8 = false →
    (∀ id bad u x mini, u = s.guardClose' c → x = u.chan c → mini = (Nat.ble 64 id && !u.mdMatrix (u.cbMode c)) →
      (mini = true → (id - 64 ≠ x.msNext ∨ u.dynEnd (u.cbMode c) ≤ x.msAt) →
        exec (.guardianOpen c id bad) s = .next u.reportReads) ∧
      ((mini = false ∨ (id - 64 = x.msNext ∧ x.msAt < u.dynEnd (u.cbMode c))) → ∀ l o,
        ((bad = true ∨ u.winBad c id = true) → l = [] ∧ o = 0) →
        (bad = false → u.winBad c id = false → l = u.toOpen c id ∧ o = u.emptyOwner c id) →
        exec (.guardianOpen c id bad) s = .next
          (eachOf ((x.txs.filter (fun y => l.any (· == y.spoke) && u.passes c y.spoke)).map (·.spoke)) (fun k v => v.cutSpoke c k 4 0)
            ((u.touchWin c id).setChan c { x with win := id + 1, open' := l, winner := 0, wonAt := 0, owner := o, sent := x.txs.any (fun y => y.spoke == o) })).reportReads)) ∧
    ((s.chan c).win = 0 → NoEffect (.guardianClose c) s) ∧
    ((s.chan c).win ≠ 0 → ∀ x u v, x = s.chan c →
      u = eachOf (x.txs.filter (fun y => y.kind == 0 && x.open'.any (· == y.spoke)))
        (fun y v => v.cutSpoke c y.spoke 3 (groupsBy y.at' (s.closeAt c (x.win - 1)))) s →
      v = (if x.owner ≠ 0 ∧ x.sent = false then u.spokeCount c x.owner 2 else u) →
      ((s.mdMatrix (s.cbMode c) = true ∨ x.win - 1 < 64) → exec (.guardianClose c) s = .next (v.setChan c { v.chan c with
        win := 0, open' := [], winner := 0, wonAt := 0, owner := 0, sent := false, msNext := x.msNext, msAt := x.msAt })) ∧
      (s.mdMatrix (s.cbMode c) = false → 64 ≤ x.win - 1 → exec (.guardianClose c) s = .next (v.setChan c { v.chan c with
        win := 0, open' := [], winner := 0, wonAt := 0, owner := 0, sent := false, msNext := x.msNext + 1
        msAt := x.msAt + s.mdMsLen (s.cbMode c) }))) ∧
    (∀ k a b, (k = 0 ∨ s.spokeOn c k = false ∨ s.cbState c = cbOff ∨ (∃ x ∈ (s.chan c).txs, x.spoke = k)) →
      NoEffect (.cbSofArrival c k a b) s) ∧
    (∀ k a b, k ≠ 0 → s.spokeOn c k = true → s.cbState c ≠ cbOff → (∀ x ∈ (s.chan c).txs, x.spoke ≠ k) →
      ∀ u x add, u = s.setChan c { s.chan c with noisy := k :: (s.chan c).noisy, sent := (s.chan c).sent || (s.chan c).owner == k } →
      x = u.chan c → add = (fun (t : State) (w kind : Nat) =>
        t.onTxs c (fun l => l ++ [{ spoke := k, at' := a, win := w, kind := kind, from' := u.folCounter 4 }])) →
      (u.cbState c = cbListen → (u.mayLead c k b = false ∨ u.relaying c = true) →
        exec (.cbSofArrival c k a b) s = .next (add u 0 4)) ∧
      (u.cbState c = cbListen → u.mayLead c k b = true → u.relaying c = false → exec (.cbSofArrival c k a b) s = .next
        (add ((u.dropRelays c).takeLead c k a (u.folCounter 4)) 0 0)) ∧
      (u.cbState c ≠ cbListen → u.tiesLead c a = true → u.mayLead c k b = true → k < u.fget (F.cbsStsLeader c) →
        exec (.cbSofArrival c k a b) s = .next (add ((u.dropRelays c).takeLead c k a (u.folCounter 4)) 0 0)) ∧
      (u.cbState c ≠ cbListen → u.tiesLead c a = true → (u.mayLead c k b = false ∨ u.fget (F.cbsStsLeader c) ≤ k) →
        exec (.cbSofArrival c k a b) s = .next (add u 0 4)) ∧
      (u.cbState c = cbColdstart → u.tiesLead c a = false → u.windowKind c k a = 0 → u.spokeShut c k = false →
        exec (.cbSofArrival c k a b) s = .next (add u x.win 0)) ∧
      (u.cbState c = cbColdstart → u.tiesLead c a = false → (u.windowKind c k a ≠ 0 ∨ u.spokeShut c k = true) →
        exec (.cbSofArrival c k a b) s = .next (add (u.cbsCount c 17) 0 4)) ∧
      (u.spokeShut c k = true → cbIntegrate ≤ u.cbState c → exec (.cbSofArrival c k a b) s = .next (add u 0 4)) ∧
      (u.cbState c = cbHalt → exec (.cbSofArrival c k a b) s = .next (add u 0 4)) ∧
      (u.spokeShut c k = false → cbIntegrate ≤ u.cbState c → u.cbState c ≤ cbPassive →
        (u.windowKind c k a = 3 → exec (.cbSofArrival c k a b) s = .next (add u 0 3)) ∧
        (u.windowKind c k a = 1 → exec (.cbSofArrival c k a b) s = .next (add (u.spokeCount c k 7) x.win 1)) ∧
        (u.windowKind c k a = 0 → x.winner = 0 → exec (.cbSofArrival c k a b) s = .next
          (add (u.setChan c { u.chan c with winner := k + 1, wonAt := a }) x.win 0)) ∧
        (u.windowKind c k a = 0 → x.winner = k + 1 → exec (.cbSofArrival c k a b) s = .next
          (add (u.setChan c { u.chan c with winner := k + 1, wonAt := x.wonAt }) x.win 0)) ∧
        (u.windowKind c k a = 0 → x.winner ≠ 0 → x.winner ≠ k + 1 → ∀ t,
          t = (u.onTxs c (fun l => l.map (fun y => bif y.spoke == x.winner - 1 then { y with kind := 1 } else y))).spokeCount c
            (x.winner - 1) 7 →
          exec (.cbSofArrival c k a b) s = .next (add (t.setChan c { t.chan c with winner := k + 1, wonAt := a }) x.win 0)))) ∧
    (∀ k a h p r e, (∀ x ∈ (s.chan c).txs, x.spoke ≠ k) → NoEffect (.cbFrameEnd c k a h p r e) s) ∧
    (∀ k a h p r e l x t, l = h ++ p ++ r ++ e → (s.chan c).txs.find? (fun x => x.spoke == k) = some x →
      t = (s.onTxs c (fun m => m.filter (fun y => y.spoke != k))).showRelay c x l →
      ((s.spokeOn c k = false ∨ s.cbState c = cbOff) → exec (.cbFrameEnd c k a h p r e) s = .next t) ∧
      (s.spokeOn c k = true → s.cbState c ≠ cbOff → ∀ bad, bad = (if (∃ g ∈ l, 512 ≤ g) then 8 else 1) →
        (x.kind = 1 ∨ x.kind = 2 ∨ x.kind = 4 → exec (.cbFrameEnd c k a h p r e) s = .next (t.spokeCount c k bad)) ∧
        (x.kind = 3 → exec (.cbFrameEnd c k a h p r e) s = .next ((t.spokeCount c k bad).strike c k 5)) ∧
        (x.kind = 0 → ∀ g u v, g = l.dropLast → u = t.relayedWhole c k →
          (cbWhole l = true → cbWellFormed k g = true → s.cbMatches c k x g = true →
            v = (if x.win = 0 then u.fixCycle c x (cbId g) else u).cbValid c k x g (x.from' / nsUnit)) →
          ((cbWhole l = false ∨ cbWellFormed k g = false ∨ s.cbMatches c k x g = false) →
            v = if x.win = 0 ∧ (u.spokeCount c k bad).cbState c = cbColdstart then ((u.spokeCount c k bad).cbsCount c 5).toListen c
              else u.spokeCount c k bad) →
          (x.win < 65 → exec (.cbFrameEnd c k a h p r e) s = .next v) ∧
          (65 ≤ x.win → exec (.cbFrameEnd c k a h p r e) s = .next
            (if (v.chan c).win = x.win ∧ v.mdMatrix (v.cbMode c) = false then v.miniEnd c (v.macroFrom c a) else v))))) ∧
    (∀ id bad bt x t, ((bad = true ∨ s.winBad c id = true) → x = 0) → (bad = false → s.winBad c id = false → x = s.winCell c id) →
      t = s.touchWin c id →
      ((s.cbState c = cbOff ∨ s.cbState c = cbHalt) → exec (.cbOwnFrameSend c id bad bt false) s = .next t.reportReads) ∧
      (s.cbState c = cbListen → (s.chan c).lead = true → (s.chan c).first = false → cellKind x = 1 → cellOwner x = 0 →
        cellSync x = true → exec (.cbOwnFrameSend c id bad bt false) s = .next
          ((t.takeLead c 0 (t.actionPoint c id) (t.chan c).startAt).sendOwn c id true true true false []).reportReads) ∧
      (s.cbState c = cbListen → ((s.chan c).lead = false ∨ (s.chan c).first = true ∨ cellKind x ≠ 1 ∨ cellOwner x ≠ 0 ∨
        cellSync x = false) → exec (.cbOwnFrameSend c id bad bt false) s = .next t.reportReads) ∧
      (s.cbState c = cbColdstart → (s.chan c).lead = false → cellKind x = 1 → cellOwner x = 0 → cellSync x = true →
        s.fget (F.cbsStsLeader c) = 0 → exec (.cbOwnFrameSend c id bad bt false) s = .next
          (t.sendOwn c id true (s.fget (F.cbsStsCycle c) == 0) true false []).reportReads) ∧
      (cellKind x = 1 → cellOwner x = 0 → id < 64 → ∀ sync, sync = (cellSync x && s.flag (F.cbsCtlSyncNode c)) →
        ((s.cbState c = cbIntegrate ∨ s.cbState c = cbPassive) →
          exec (.cbOwnFrameSend c id bad bt false) s = .next (t.sendOwn c id sync false true false []).reportReads) ∧
        (s.cbState c = cbNormal → cellTrip x = true →
          exec (.cbOwnFrameSend c id bad bt false) s = .next (t.tripWindow c id sync bt).reportReads) ∧
        (s.cbState c = cbNormal → cellTrip x = false → s.ownEntry c id = none →
          exec (.cbOwnFrameSend c id bad bt false) s = .next (t.sendOwn c id sync false true false []).reportReads) ∧
        (∀ e, s.cbState c = cbNormal → cellTrip x = false → s.ownEntry c id = some e →
          exec (.cbOwnFrameSend c id bad bt false) s = .next (t.sendEntry c id sync e).reportReads)) ∧
      ∀ r, r = 2312 + 2 * c →
        (s.ringWorks r = true → s.flag (F.ringStsRun r) = true →
          exec (.cbOwnFrameSend c id bad bt true) s = .next ((s.ringEcc r).ownFrame c id bad bt).reportReads) ∧
        ((s.ringWorks r = false ∨ s.flag (F.ringStsRun r) = false) →
          exec (.cbOwnFrameSend c id bad bt true) s = exec (.cbOwnFrameSend c id bad bt false) s))

/-- For channel n = 0..7 whose registers answer and a BMV_CTL write with GO, which takes the word's EN before GO is
judged (log entry 79): with EN = 1 written, BUSY = 0 and LEN not 0 the channel is BUSY and DONE, STATUS and BYTES read
0; with LEN = 0 it is not BUSY, DONE is 1, STATUS is OK, BYTES reads 0 and its completion pulse, source 1 + n, is
waiting in the event router, and nothing leaves the block unless another channel may issue a burst; with BUSY = 1 and
EN = 1 written, or with EN = 0 written to a channel that is idle or not enabled, the GO is ignored: EN is as written,
BUSY stays, and only the GO_IGN counter BMV_CNT 1 advances besides; EN = 0 written to a busy enabled channel aborts
it, and the GO is ignored and counted. The addresses and LEN stay in each case but the last. (R404) -/
def Obligations.GoStartsAMoverChannel : Prop :=
  ∀ (s : State) (n w : Nat), n < 8 → s.reaches (Reg.bmvCtl n) = true → s.ready 47 = true →
    (bitAt w 0 = true → s.flag (F.bmvCtlGoBusy n) = false → s.rd (Reg.bmvLen n) ≠ 0 → ∃ t, exec (.bmvGo n w) s = .next t ∧
      t.flag (F.bmvCtlEn n) = true ∧ t.flag (F.bmvCtlGoBusy n) = true ∧ t.flag (F.bmvStsDone n) = false ∧
      t.fget (F.bmvStsStatus n) = 0 ∧ t.rd (Reg.bmvBytes n) = 0 ∧
      (∀ a ∈ [Reg.bmvSrcLo n, Reg.bmvSrcHi n, Reg.bmvDstLo n, Reg.bmvDstHi n, Reg.bmvLen n], t.rd a = s.rd a) ∧
      t.pulses = s.pulses) ∧
    (bitAt w 0 = true → s.flag (F.bmvCtlGoBusy n) = false → s.rd (Reg.bmvLen n) = 0 → ∃ t, exec (.bmvGo n w) s = .next t ∧
      t.flag (F.bmvCtlEn n) = true ∧ t.flag (F.bmvCtlGoBusy n) = false ∧ t.flag (F.bmvStsDone n) = true ∧
      t.fget (F.bmvStsStatus n) = 0 ∧ t.rd (Reg.bmvBytes n) = 0 ∧
      (∀ a ∈ [Reg.bmvSrcLo n, Reg.bmvSrcHi n, Reg.bmvDstLo n, Reg.bmvDstHi n, Reg.bmvLen n], t.rd a = s.rd a) ∧
      t.pulses = s.pulses ++ [1 + n] ∧ ((∀ m, m < 8 → s.mayIssue m = false) → t.out = s.out)) ∧
    ((bitAt w 0 = true ∧ s.flag (F.bmvCtlGoBusy n) = true ∨
        bitAt w 0 = false ∧ (s.flag (F.bmvCtlEn n) = false ∨ s.flag (F.bmvCtlGoBusy n) = false)) →
      ∃ t, exec (.bmvGo n w) s = .next t ∧
        t.rd (Reg.bmvCnt 1) = (s.rd (Reg.bmvCnt 1) + 1) % 2 ^ 32 ∧ t.flag (F.bmvCtlEn n) = bitAt w 0 ∧
        t.flag (F.bmvCtlGoBusy n) = s.flag (F.bmvCtlGoBusy n) ∧ OnlyWords [Reg.bmvCnt 1, Reg.bmvCtl n] s t) ∧
    (bitAt w 0 = false → s.flag (F.bmvCtlEn n) = true → s.flag (F.bmvCtlGoBusy n) = true →
      exec (.bmvGo n w) s = .next (((s.fset (F.bmvCtlEn n) false).moverAbort n).cnt (Reg.bmvCnt 1)))

/-- With PD47 READY: clearing EN of a busy channel that has not failed aborts it; the oldest read return or write
response of a channel is taken and the channels go on, with nothing outstanding nothing changes; the oldest event
pulse reaches every sink that selects it; a master reset drains its port, counts a cut burst, clears its staged words
and throws its data away, and the end of the drain frees it and lets what waited go out; a burst of legal form that is
granted is counted and carried out, one over 64 outstanding is held, one not granted or illegal changes only the ended
count; a lone request of the master a target parks on is granted, else the next in turn. Of the trips on their way the
oldest is judged, of one unit and handshake the lowest port first; SEAL_START restarts an evaluation, its end gives
the verdict. FIRE and SEQ_RUN act where their register answers. A Service Port access outside every window goes to
DEF; BUSY and ALIGN answers (both bits where both hold) make no access; an access waits behind earlier ones while its
port drains; of a transaction cut after its last bit the access is made and its answer is shown as far as it was
clocked; an unknown or early cut one changes nothing. What the bursts of ring engines count, the status bytes, what
one handshake is and what a reset without anything outstanding does are log entries 78, 77, 100 and 102. That a
command whose condition does not hold changes nothing is the model's choice (log entry 3). (R393, R394, R396, R398,
R400, R403, R405, R406, R409, R410, R411, R476) -/
def Obligations.MatrixSealsEventsAndServicePort : Prop :=
  (∀ (s : State) (n w : Nat) (b : Bool),
    (s.reaches (Reg.bmvCtl n) = true → exec (.bmvAbort n w) s = .next (s.writeBmvCtl n (withBits w 0 1 0))) ∧
    (s.reaches (Reg.bmvCtl n) = false → NoEffect (.bmvAbort n w) s ∧ NoEffect (.bmvGo n w) s) ∧
    (s.reaches (Reg.sealCtl n) = true → exec (.sealStart n) s = .next (s.sealStart n) ∧
      exec (.sealEvalDone n b) s = .next (s.sealDone n b).reportReads) ∧
    (s.reaches (Reg.sealCtl n) = false → NoEffect (.sealStart n) s ∧ NoEffect (.sealEvalDone n b) s) ∧
    (s.reaches Reg.evrSoft = true → exec .fire s = .next (s.pulse 23)) ∧
    (s.reaches Reg.evrSoft = false → NoEffect .fire s) ∧
    (s.reaches Reg.mtxCtl = true → exec (.seqRun w) s = .next (s.writeMtxCtl (w ||| 1))) ∧
    (s.reaches Reg.mtxCtl = false → NoEffect (.seqRun w) s) ∧
    (s.ready 47 = true → exec .eventPulse s = .next s.deliverPulse) ∧
    (s.ready 47 = false → NoEffect .eventPulse s)) ∧
  (∀ s : State, (s.trips = [] → ∀ b, NoEffect (.sealTripCheck b) s) ∧
    (∀ x b, nextTrip s.trips = some x → exec (.sealTripCheck b) s = .next (({ s with trips := s.trips.erase x }).judgeTrip x b).reportReads) ∧
    (∀ x r y, s.trips = x :: r → nextTrip s.trips = some y → y.unit = x.unit ∧ y.at' = x.at' ∧
      ∀ z ∈ s.trips, z.unit = x.unit → z.at' = x.at' → y.port ≤ z.port) ∧
    (s.pulses = [] → s.deliverPulse = s) ∧
    (∀ x r, s.pulses = x :: r → s.deliverPulse = forUpTo 13 (fun j t =>
      if t.fget (F.evrSinkSrc j) = x then (t.cnt (Reg.evrCnt j)).sinkActs j x else t) { s with pulses := r }) ∧
    (∀ n b, Table.get 0 n s.sealRun ≠ 1 → s.sealDone n b = s) ∧
    (∀ n w t u, bitAt w 0 = false → t = s.fset (F.bmvCtlEn n) false → s.flag (F.bmvCtlEn n) = true →
      t.flag (F.bmvCtlGoBusy n) = true → (t.mover n).fail = 0 →
      u = (t.setMover n { t.mover n with fail := 1, abortAt := some t.counter }).moverCheck n →
      s.writeBmvCtl n w = if bitAt w 1 then u.moverGo n else u) ∧
    (s.flag F.mtxCtlSeqRun = false → s.ready 50 = true → ∀ w t, t = s.store Reg.mtxCtl w → t.flag F.mtxCtlSeqRun = true →
      t.ready 50 = true → s.writeMtxCtl w = { t with seqStart := some 0 })) ∧
  (∀ (s : State) (n : Nat), s.ready 47 = true →
    ((s.mover n).reads = [] → ∀ d e, NoEffect (.bmvReadReturn n d e) s) ∧
    ((s.mover n).writes = [] → ∀ e, NoEffect (.bmvWriteResponse n e) s) ∧
    (∀ b r d e t u, (s.mover n).reads = b :: r → t = (s.setMover n { s.mover n with reads := r }).outRd (-1) →
      ((∃ h a, t.placeOf ((s.mover n).src + b.1) = .host h a) → u = (t, (d ++ List.replicate b.2 0).take b.2, e)) →
      ((∀ h a, t.placeOf ((s.mover n).src + b.1) ≠ .host h a) → u = t.moverRead ((s.mover n).src + b.1) b.2) →
      exec (.bmvReadReturn n d e) s = .next (u.1.setMover n (if u.2.2 = true then
          { u.1.mover n with fail := if (u.1.mover n).fail = 0 then 2 else (u.1.mover n).fail }
        else { u.1.mover n with held := (u.1.mover n).held ++ [((s.mover n).dst + b.1, u.2.1)] })).moversGo) ∧
    (∀ w r e t bad, (s.mover n).writes = w :: r → bad = (w.2 || e) →
      t = (s.setMover n ({ s.mover n with
        writes := r
        fail := if bad = true ∧ (s.mover n).fail = 0 then 3 else (s.mover n).fail
        abortAt := if bad then none else (s.mover n).abortAt } : Mover)).outWr (-1) →
      exec (.bmvWriteResponse n e) s = .next (t.wr (Reg.bmvBytes n)
        (t.rd (Reg.bmvBytes n) + if bad then 0 else w.1)).moversGo) ∧
    (∀ m t, t = s.fset (F.mtxOutRst m) true →
      exec (.masterReset m false) s = .next ((t.clearMaster m).discardOf m) ∧
      exec (.masterReset m true) s = .next (((t.cnt (Reg.mtxCnt 1)).clearMaster m).discardOf m)) ∧
    (∀ m, (m = 7 → s.discardOf m = { forUpTo 8 (fun n u => u.fset (F.bmvCtlGoBusy n) false) s with movers := [] }) ∧
      (m ≠ 7 → s.discardOf m =
        { s with rings := s.rings.map (fun (x : Nat × Ring) => if ringMaster x.1 = m then (x.1, dropReads x.2) else x) })) ∧
    (∀ m u t, u = s.wr (Reg.mtxOut m) 0 → t = (({ u with rings := u.rings.map (fun (x : Nat × Ring) =>
        if ringMaster x.1 = m then (x.1, { x.2 with discard := 0 }) else x) }).issueParked m false 64).issueParked m true 64 →
      (s.flag (F.mtxOutRst m) = true → (m < 2 ∨ 7 < m) → exec (.masterDrainDone m) s = .next t) ∧
      (s.flag (F.mtxOutRst m) = true → m = 2 → exec (.masterDrainDone m) s = .next t.serviceGo) ∧
      (s.flag (F.mtxOutRst m) = true → m = 7 → exec (.masterDrainDone m) s = .next t.moversGo) ∧
      (s.flag (F.mtxOutRst m) = true → 3 ≤ m → m ≤ 6 → exec (.masterDrainDone m) s = .next (t.fetchPump (m - 3) 64)) ∧
      (s.flag (F.mtxOutRst m) = false → NoEffect (.masterDrainDone m) s)) ∧
    (∀ b f t g, f = outField b.master b.write → t = (if b.master = 7 then s else if engineMaster b.master then s.transEnd b.master b.write b.ended
        else s.fput f (s.fget f - b.ended)) →
      g = servedAt b.master (t.targetOfAddr b.addr) →
      ((t.flag (F.mtxOutRst b.master) = true ∨ burstOk b = false) → exec (.matrixBurst b) s = .next t) ∧
      (t.flag (F.mtxOutRst b.master) = false → burstOk b = true →
        (64 ≤ t.fget f → engineMaster b.master = false → exec (.matrixBurst b) s = .next (t.cnt (Reg.mtxCnt 2))) ∧
        (t.fget f < 64 ∨ engineMaster b.master = true →
        (t.grantee g (b.master :: b.requesters) ≠ some b.master → exec (.matrixBurst b) s = .next t) ∧
        (t.grantee g (b.master :: b.requesters) = some b.master → ∀ u, u = t.grant b.master g →
          (b.master = 7 → exec (.matrixBurst b) s = .next u.moversGo) ∧
          (engineMaster b.master = true → exec (.matrixBurst b) s = .next u) ∧
          (b.master ≠ 7 → engineMaster b.master = false → ∀ v, v = u.outstanding b.master b.write →
            (requesterOf b.master = none → exec (.matrixBurst b) s = .next v) ∧
            (∀ q, requesterOf b.master = some q → v.issues q = false → exec (.matrixBurst b) s = .next v) ∧
            (∀ q, requesterOf b.master = some q → v.issues q = true → exec (.matrixBurst b) s = .next
              (v.resumed ((v.burstWords b.master q b.write b.addr b.words).codeStop b))))))))) ∧
  (∀ (s : State) (n : Nat), s.ready 47 = false → ∀ d e m b, NoEffect (.bmvReadReturn n d e) s ∧ NoEffect (.bmvWriteResponse n e) s ∧
    NoEffect (.masterReset m e) s ∧ NoEffect (.masterDrainDone m) s ∧ NoEffect (.matrixBurst b) s) ∧
  (∀ (s : State) (g : Nat) (req : List Nat),
    (∀ m, s.parkedOn g = some m → req ≠ [] → (∀ x ∈ req, x = m) → s.grantee g req = some m) ∧
    (∀ m, s.parkedOn g = some m → (∃ x ∈ req, x ≠ m) → s.grantee g req = s.nextMaster g req) ∧
    (s.parkedOn g = none → s.grantee g req = s.nextMaster g req)) ∧
  (∀ s : State, exec .servicePortUnknown s = .next s ∧ exec .servicePortCut s = .next s) ∧
  (∀ (s : State) (a v : Nat) (x : SvcEnd) (y z : SvcAccess) (n : Nat), y = { write := true, addr := a, word := v, cut := x.cut } →
    z = { addr := a, cut := x.cut } → n = x.waiting + s.svc.length →
    (s.ready 0 = false → NoEffect (.servicePortWrite a v x) s ∧ NoEffect (.servicePortRead a x) s) ∧
    (s.ready 0 = true →
      (a % 4 ≠ 0 ∨ 4 ≤ n → ∀ b, b = 0x81 + (if a % 4 ≠ 0 then 2 else 0) + (if 4 ≤ n then 4 else 0) →
        exec (.servicePortWrite a v x) s = .next (s.serviceAnswer x.cut [b]) ∧
        exec (.servicePortRead a x) s = .next (s.serviceAnswer x.cut [b, 0xFFFFFFFF])) ∧
      (a % 4 = 0 → n < 4 →
        (s.issues .servicePort = false → exec (.servicePortWrite a v x) s = .next { s with svc := s.svc ++ [y] } ∧
          exec (.servicePortRead a x) s = .next { s with svc := s.svc ++ [z] }) ∧
        (s.issues .servicePort = true → exec (.servicePortWrite a v x) s = .next (s.serviceGo.serviceAccess y) ∧
          exec (.servicePortRead a x) s = .next (s.serviceGo.serviceAccess z))))) ∧
  (∀ s : State, (s.svc = [] → s.serviceGo = s) ∧
    ∀ y l, s.svc = y :: l → s.serviceGo = eachOf (y :: l) (fun x t => t.serviceAccess x) { s with svc := [] }) ∧
  (∀ (s : State) (l : List Nat), s.serviceAnswer none l = s.emit (.serviceReply l) ∧ s.serviceAnswer (some 0) l = s ∧
    ∀ n, s.serviceAnswer (some (n + 1)) l = s.emit (.serviceReply (l.take (n + 1)))) ∧
  ∀ (s : State) (a v : Nat) (cut : Option Nat),
    (s.windowAddr a = none → ∀ t, t = s.granting 2 15 →
      s.serviceAccess ⟨true, a, v, cut⟩ = s.resumed (((t.refuse 2 a true false).serviceAnswer cut [0x81]).servicePass) ∧
      s.serviceAccess ⟨false, a, v, cut⟩ = ((t.refuse 2 a false false).serviceAnswer cut [0x81, 0xFFFFFFFF]).servicePass) ∧
    (∀ x, s.windowAddr a = some x → ∀ t, t = s.granting 2 (s.targetOfAddr x) →
      (∀ r, r = t.intWrite 2 .servicePort x (v % 2 ^ 32) 15 →
        s.serviceAccess ⟨true, a, v, cut⟩ = s.resumed ((r.1.serviceAnswer cut [0x80 + bit r.2]).servicePass)) ∧
      ∀ r, r = t.intRead 2 .servicePort x →
        s.serviceAccess ⟨false, a, v, cut⟩ =
          (r.1.serviceAnswer cut [0x80 + bit r.2.2, if r.2.2 then 0xFFFFFFFF else r.2.1]).servicePass)

/-- Recording one report of source n below 64 sets its status bit, ORs its cause bits into CAUSE, adds one to COUNT
and changes no other register word. With PD00 READY: the reports of one handshake whose domains are READY are one
update; a FAULT_CLEAR write clears each named bit with its CAUSE and its grace timer and drives FAULT_N, but where a
report of the same handshake names the source its bit and timer stay and CAUSE takes the new bits; the running grace
timers of one expiry stop and react together (R424); a unit in QUIET recovers at the end of its quiet period unless a
report of it comes in the same handshake, any other state stays; RECOVER recovers a LATCHED unit outside the safe
state unless a reaction on it comes in the same handshake; KICK stores its word; a watchdog timeout with WD_EN = 1
reports source 63 cause 1, with WD_EN = 0 nothing; SW_FATAL reports source 63 cause 0; FIRST_CLR clears FIRST_V; a
valid QCH_INJ write while unarmed arms, any other leaves it; ALIVE shows its level while it toggles. With PD00 not
READY nothing happens. A write with both FIRST_CLR and SW_FATAL clears FIRST_V first. Injection, reports of domains
that are not READY, and what one handshake is are log entries 72, 71 and 100. That a command whose condition does not
hold changes nothing is the model's choice (log entry 3). (R416, R417, R418, R419, R421, R422, R424, R425, R427, R428)
-/
def Obligations.QuenchLatchesReactsAndRecovers : Prop :=
  (∀ (s t : State) (n c : Nat), n < 64 → c < 2 ^ 16 → t = s.latchOne n c →
    t.flag (fswBit n) = true ∧ t.fget (F.qchSrc1Cause n) = (s.fget (F.qchSrc1Cause n) ||| c) % 2 ^ (F.qchSrc1Cause n).width ∧
    t.fget (F.qchSrc1Count n) = (s.fget (F.qchSrc1Count n) + 1) % 2 ^ (F.qchSrc1Count n).width ∧
    OnlyWords [(fswBit n).addr, (F.qchSrc1Cause n).addr] s t) ∧
  (∀ (s : State), s.ready 0 = true → ∀ (rs : List (Nat × Nat)) (j w u : Nat) (ns : List Nat),
    exec (.faultReport rs) s = .next ((s.errorPins rs).hiddenPass 57 3 0) ∧
    exec (.faultClear j ⟨w, rs⟩) s = .next (s.clearFsw j w rs) ∧
    exec (.graceExpire ns) s = .next (s.graceExpire ns) ∧
    (∀ t, t = s.errorPins rs →
      (t.fget (F.qchUnitState u) = 1 → s.reportsUnit u rs = false → exec (.quietExpire ⟨u, rs⟩) s = .next (t.recoverUnit u true)) ∧
      ((t.fget (F.qchUnitState u) ≠ 1 ∨ s.reportsUnit u rs = true) → exec (.quietExpire ⟨u, rs⟩) s = .next t)) ∧
    ((∀ n ∈ ns, n < 64 → s.flag (pendBit n) = false) →
      (s.fget (F.qchUnitState u) = 2 → s.flag F.qchStsFatal = false → exec (.recover u ⟨w, ns⟩) s = .next (s.recoverUnit u false)) ∧
      ((s.fget (F.qchUnitState u) ≠ 2 ∨ s.flag F.qchStsFatal = true) → NoEffect (.recover u ⟨w, ns⟩) s)) ∧
    (∀ n v, n ∈ ns → n < 64 → s.flag (pendBit n) = true → v = s.graceExpire ns →
      (s.targetOf n = u → exec (.recover u ⟨w, ns⟩) s = .next v) ∧
      ((∀ m ∈ ns, m < 64 → s.flag (pendBit m) = true → s.targetOf m ≠ u) → v.fget (F.qchUnitState u) = 2 →
        v.flag F.qchStsFatal = false → exec (.recover u ⟨w, ns⟩) s = .next (v.recoverUnit u false))) ∧
    exec (.kick w) s = .next (s.store Reg.qchWd (w ||| 2)) ∧
    (s.flag F.qchWdWdEn = true → exec .watchdogExpire s = .next (s.errorPins [(63, 2)])) ∧
    (s.flag F.qchWdWdEn = false → NoEffect .watchdogExpire s) ∧
    exec (.swFatal w) s = .next (s.writeQchCtl (w ||| 8)) ∧ exec (.firstClr w) s = .next (s.writeQchCtl (w ||| 4)) ∧
    exec (.injectionArm w) s = .next (s.writeInj (w ||| 2 ^ 31)) ∧ exec .aliveToggle s = .next s.showAlive) ∧
  (∀ (s : State), s.ready 0 = false → ∀ (rs : List (Nat × Nat)) (j w u : Nat) (ns : List Nat),
    NoEffect (.faultReport rs) s ∧ NoEffect (.faultClear j ⟨w, rs⟩) s ∧ NoEffect (.graceExpire ns) s ∧
    NoEffect (.quietExpire ⟨u, rs⟩) s ∧ NoEffect (.recover u ⟨w, ns⟩) s ∧ NoEffect (.kick w) s ∧ NoEffect .watchdogExpire s ∧
    NoEffect (.swFatal w) s ∧ NoEffect (.firstClr w) s ∧ NoEffect (.injectionArm w) s ∧ NoEffect .aliveToggle s) ∧
  (∀ (s : State) (rs live : List (Nat × Nat)),
    live = (rs.map (fun x => (x.1, s.liveCauses x.1 x.2))).filter (fun x => x.2 != 0 && Nat.blt x.1 64) →
    s.errorPins rs = if live = [] then s else s.report live) ∧
  (∀ (s : State) (ns due : List Nat), due = ns.filter (fun n => Nat.blt n 64 && s.flag (pendBit n)) →
    s.graceExpire ns = (eachOf due (fun n u => u.fset (pendBit n) false) s).reactAll due) ∧
  (∀ (s t : State) (j w : Nat), j < 2 → t = s.clearFsw j w [] → ∀ i n, i < 32 → n = 32 * j + i →
    (bitAt w i = true → t.flag (fswBit n) = false ∧ t.fget (F.qchSrc1Cause n) = 0 ∧ t.flag (pendBit n) = false) ∧
    (bitAt w i = false → t.flag (fswBit n) = s.flag (fswBit n) ∧ t.fget (F.qchSrc1Cause n) = s.fget (F.qchSrc1Cause n) ∧
      t.flag (pendBit n) = s.flag (pendBit n))) ∧
  (∀ (s : State) (j w : Nat) (rs : List (Nat × Nat)), s.clearFsw j w rs =
    ((eachOf ((List.range 32).filter (fun i => bitAt w i)) (fun i t =>
      if rs.any (fun x => x.1 == 32 * j + i && s.liveCauses x.1 x.2 != 0) then t.fput (F.qchSrc1Cause (32 * j + i)) 0
      else ((t.fput (F.qchSrc1Cause (32 * j + i)) 0).fset (fswBit (32 * j + i)) false).fset (pendBit (32 * j + i)) false)
      s).errorPins rs).driveFault) ∧
  (∀ (s t u : State) (w : Nat), t = s.store Reg.qchCtl w → u = (if t.flag F.qchCtlAliveEn then t.showAlive else t.aliveLow) →
    (bitAt w 2 = false → bitAt w 3 = false → s.writeQchCtl w = u) ∧
    (bitAt w 2 = true → bitAt w 3 = false → s.writeQchCtl w = u.fset F.qchStsFirstV false) ∧
    (bitAt w 2 = false → bitAt w 3 = true → s.writeQchCtl w = u.errorPins [(63, 1)]) ∧
    (bitAt w 2 = true → bitAt w 3 = true → s.writeQchCtl w = (u.fset F.qchStsFirstV false).errorPins [(63, 1)])) ∧
  (∀ (s : State) (w : Nat),
    (s.flag F.qchInjArm = false → bitsOf w 8 3 < injectionCauses (bitsOf w 0 6) → (bitsOf w 12 2 = 1 ∨ bitsOf w 12 2 = 2) →
      s.writeInj w = s.wr Reg.qchInj w) ∧
    ((s.flag F.qchInjArm = true ∨ injectionCauses (bitsOf w 0 6) ≤ bitsOf w 8 3 ∨ bitsOf w 12 2 = 0 ∨ bitsOf w 12 2 = 3) →
      s.writeInj w = s)) ∧
  ∀ s : State,
    (s.flag F.invStsPllLock = true → s.inv.started = true → s.flag F.qchCtlAliveEn = true → s.flag F.qchStsFatal = false →
      s.showAlive = (s.fset F.qchStsAlive true).pin Pin.alive (if s.nsec % 1000000 < 500000 then 2 else 1)) ∧
    ((s.flag F.invStsPllLock = false ∨ s.inv.started = false ∨ s.flag F.qchCtlAliveEn = false ∨ s.flag F.qchStsFatal = true) →
      s.showAlive = s)

/-- With PD00 READY: a listed event is offered to the recorder, another is not; the oldest queued event of a recorder
that is READY is written at WSEQ, which then advances, or is lost while the ring is frozen and full; a window start
writes the summaries and clears the counts; BRZ_CTL writes store their word, then arm KEEP, trigger a freeze and
unfreeze in this order; the end of a flush of a READY recorder seals its bank, else nothing; the Keep check reads both
banks and shows the newest; the start of a recorder not READY sets WSEQ, settles what earlier triggers numbered (log
entry 72 reports what these rows read) and queues the start record, of one READY it only reports the reads that wait;
a software record with a code from 0x380 on is offered, a lower one does nothing; a supply sample with EN = 1 is taken
into the window, with EN = 0 not; a ripple window is judged with EN and NOM, else only emptied; PFW_N low is recorded
once and its release ends it. With PD00 not READY nothing happens. That a command whose condition does not hold
changes nothing is the model's choice (log entry 3). (R430, R431, R434, R435, R436, R438, R439, R440, R442, R443,
R444) -/
def Obligations.BronzeRecordsAndSupplyWatchSamples : Prop :=
  (∀ (s : State), s.ready 0 = true → ∀ (code block index arg0 arg1 w raw : Nat) (q : Requester),
    (listedCode code = true → exec (.bronzeEvent code block index arg0 arg1) s = .next (s.brzEvent code block index arg0 arg1)) ∧
    (listedCode code = false → NoEffect (.bronzeEvent code block index arg0 arg1) s) ∧
    exec .bronzeWindowStart s = .next s.brzWindow ∧ exec (.freeze w) s = .next (s.writeBrzCtl (w ||| 1)) ∧
    exec (.unfreeze w) s = .next (s.writeBrzCtl (w ||| 2)) ∧ exec .keepFlushDone s = .next s.endFlush.reportReads ∧
    exec .keepCheckDone s = .next s.keepCheck.reportReads ∧ exec .bronzeReady s = .next s.brzStart.reportReads ∧
    (s.flag F.brzStsReady = true → exec .bronzeReady s = .next s.reportReads) ∧
    exec (.softwareRecord q w) s = .next (s.softRecord q w) ∧
    exec (.supplySample raw) s = .next ((s.supplySample raw).hiddenPass 57 2 0) ∧
    (s.flag F.supCtlEn = true → s.fget F.supCtlNom ≠ 0 → exec .rippleWindowEnd s = .next s.rippleWindow) ∧
    ((s.flag F.supCtlEn = false ∨ s.fget F.supCtlNom = 0) → exec .rippleWindowEnd s = .next
      { s with sup := { s.sup with winMax := 0, winMin := 0xFFF } }) ∧
    (s.flag F.supStsPfw = false → exec .pfwAssert s = .next
      (((((s.brzEvent 0x78 99 0 0 0).trigger 2).fset F.supStsPfw true).cnt (Reg.supCnt 4)).corrected 61 0)) ∧
    (s.flag F.supStsPfw = true → NoEffect .pfwAssert s ∧
      exec .pfwRelease s = .next ((s.brzEvent 0x79 99 0 0 0).fset F.supStsPfw false)) ∧
    (s.flag F.supStsPfw = false → NoEffect .pfwRelease s)) ∧
  (∀ (s : State), s.ready 0 = false → ∀ (code block index arg0 arg1 w raw : Nat) (q : Requester),
    NoEffect (.bronzeEvent code block index arg0 arg1) s ∧ NoEffect .bronzeRecordWrite s ∧ NoEffect .bronzeWindowStart s ∧
    NoEffect (.freeze w) s ∧ NoEffect (.unfreeze w) s ∧ NoEffect .keepFlushDone s ∧ NoEffect .keepCheckDone s ∧
    NoEffect .bronzeReady s ∧ NoEffect (.softwareRecord q w) s ∧ NoEffect (.supplySample raw) s ∧
    NoEffect .rippleWindowEnd s ∧ NoEffect .pfwAssert s ∧ NoEffect .pfwRelease s) ∧
  (∀ s : State, (s.brz.queue = [] ∨ s.flag F.brzStsReady = false) → NoEffect .bronzeRecordWrite s) ∧
  (∀ (s t u : State) (e : BrzEntry) (l : List BrzEntry) (n : Nat), s.ready 0 = true → s.brz.queue = e :: l →
    s.flag F.brzStsReady = true → t = { s with brz := { s.brz with queue := l } } → n = t.rd Reg.brzWseq →
    (t.ringFull = false → u = ((t.putRecord e n).wr Reg.brzWseq ((n + 1) % 2 ^ 32)).cnt (Reg.brzCnt 0) →
      s.writeRecord = if u.ringFull then u.lostRecord.fset F.brzStsFull true else u.lostRecord) ∧
    (t.ringFull = true → s.writeRecord = t.brzLose.fset F.brzStsFull true) ∧
    (s.writeRecord.rd Reg.brzWseq ≠ s.rd Reg.brzWseq → exec .bronzeRecordWrite s = .next
      (s.writeRecord.entryWritten 57 1 (ringWordAt (s.rd Reg.brzWseq) 0) 8)) ∧
    (s.writeRecord.rd Reg.brzWseq = s.rd Reg.brzWseq → exec .bronzeRecordWrite s = .next s.writeRecord)) ∧
  (∀ (s t u v : State) (w : Nat), t = s.store Reg.brzCtl w → u = (if bitAt w 6 then t.fset F.brzCtlKeepArm true else t) →
    v = (if bitAt w 0 then u.trigger 1 else u) → s.writeBrzCtl w = if bitAt w 1 then v.unfreeze else v) ∧
  (∀ s : State, (s.brz.flush = none → s.endFlush = s) ∧ (s.flag F.brzStsReady = false → s.endFlush = s) ∧
    (∀ b n cause vf ns sec f c first v l h, s.brz.flush = some [b, n, cause, vf, ns, sec, f] → s.flag F.brzStsReady = true →
      c = s.validRun f 4096 → v = s.touchAll (inRecords f (c + 1)) →
      first = (f + 2 ^ 32 + 1 - c) % 2 ^ 32 → l = v.recordRange first c → h = [n, first, c, cause + 65536 * vf, ns, sec] →
      ∀ t, t = (((((v.setKeeps b 8 l).setKeeps b 1 h).setKeep b 7 (crc32c (bytesOfWords (h ++ l)))).setKeep b 0 2).fput
        F.brzKeepStsNewest b).fset F.brzKeepStsBusy false →
      s.endFlush = { t.fset F.brzStsFlushing false with brz := { t.brz with flush := none } }) ∧
    (∀ v n t u, v = { s.touchAll (fun k => Nat.ble (2 ^ 41) k) with brz := { s.brz with checked := true } } → n = v.newestBank →
      t = (v.fput F.brzKeepStsNewest n).fset F.brzKeepStsBusy v.brz.flush.isSome →
      u = (if [0, 1].any (fun b => v.keepWord b 0 == 2 && !v.keepGood b) then t.fset F.brzKeepStsCrcBad true else t) →
      s.keepCheck = if [0, 1].any (fun b => v.keepWord b 0 == 1 && (n == 3 || Nat.blt (v.keepWord n 1) (v.keepWord b 1))) then
        (u.fset F.brzKeepStsIncomplete true).corrected 62 0 else u) ∧
    (∀ n r t u, s.flag F.brzStsReady = false → n = (if s.coldStart then 0 else s.nextSeq) →
      r = (if s.coldStart then s else s.touchAll (fun a => Nat.ble 0x200000 a && Nat.blt a 0x400000)) →
      t = r.wr Reg.brzWseq n →
      u = (if s.brz.early then t.wr Reg.brzFseq ((t.rd Reg.brzFseq + n) % 2 ^ 32) else t) →
      s.brzStart = ({ u with brz := { u.brz with
          queue := u.brzEntry 3 98 0 (bit !(s.coldStart)) 0 :: s.brz.queue
          early := false
          flush := s.brz.flush.map (fun (l : List Nat) => l.set 6 ((l.getD 6 0 + n) % 2 ^ 32)) } }).fset F.brzStsReady true)) ∧
  (∀ (s t : State) (q : Requester) (w : Nat), t = s.applyStaged q Reg.brzSw0 →
    (0x380 ≤ bitsOf w 0 10 → s.softRecord q w = t.brzEvent (bitsOf w 0 10) (requesterBlock q) (bitsOf w 16 16)
      (t.woWord Reg.brzSw1) (t.woWord Reg.brzSw2)) ∧
    (bitsOf w 0 10 < 0x380 → s.softRecord q w = s)) ∧
  ∀ (s : State) (raw : Nat), (s.flag F.supCtlEn = false → s.supplySample raw = s) ∧
    (s.flag F.supCtlEn = true → s.sup.count < 63 → ∀ t, t = s.supplySample raw →
      t.sup.samples = (raw % 4096 :: s.sup.samples).take 64 ∧ t.sup.count = s.sup.count + 1 ∧
      t.fget F.supNowRaw = raw % 4096 ∧ t.fget F.supNowVf = s.fget F.supNowVf ∧ OnlyWords [Reg.supNow] { s with sup := t.sup } t)

/-- POWER_REQUEST, PWR_HOLD and CTRL_RST writes act where their register answers: a change that switches a domain on
without the domain it requires, or off while one that requires it is requested, keeps its bit and shows in REFUSED and
REF_DOM, the others apply. With PD00 READY and the time PLL locked once (log entry 65), DOMAIN_RAMP_START ramps the
next requested domain if none ramps; DOMAIN_RAMP_DONE counts and puts it in RESET, with none ramping nothing;
DOMAIN_OFF ends a power-down that runs; DOMAIN_READY of a domain in RESET that nothing holds makes it READY, of any
other it changes nothing. COLD_POWER_UP, POR_N low and an undervoltage reset the device with PWR_CAUSE.DEV 1, 2 and 3,
keeping the queue, the output record and the Keep store (log entry 69); POR release drives the pins. RST_N low resets
the controller with cause 1, CTRL_RST counts (log entry 68); a glitch shows. PERST_N resets its host interface. Each
TAP instruction is put in force, any other opcode is BYPASS; IDCODE sends the identifier, boundary scans preload and
send a free value; nothing else changes. That a command whose condition does not hold changes nothing is the model's
choice (log entry 3). (R449, R451, R455, R458, R461, R479) -/
def Obligations.PowerDomainsResetsAndTheTestPort : Prop :=
  (∀ (s : State) (j w : Nat),
    (s.reaches Reg.pwrOn0 = true → exec (.powerRequest j w) s = .next (s.writePwrOn j w)) ∧
    (s.reaches Reg.pwrOn0 = false → NoEffect (.powerRequest j w) s) ∧
    (s.reaches Reg.pwrHold0 = true → exec (.pwrHold j w) s = .next (s.writePwrHold j w)) ∧
    (s.reaches Reg.pwrHold0 = false → NoEffect (.pwrHold j w) s) ∧
    (s.reaches Reg.pwrCtl = true → exec (.ctrlRst w) s = .next (s.writePwrCtl (w ||| 1))) ∧
    (s.reaches Reg.pwrCtl = false → NoEffect (.ctrlRst w) s) ∧
    (s.ready 0 = true → exec .rstNGlitch s = .next (s.fset F.pwrStsRstGlitch true)) ∧
    (s.ready 0 = false → NoEffect .rstNGlitch s)) ∧
  (∀ s : State,
    ((s.ready 0 = false ∨ s.inv.started = false ∨ s.ramping ≠ [] ∨ s.nextRamp = none) → NoEffect .domainRampStart s) ∧
    (∀ n, s.ready 0 = true → s.inv.started = true → s.ramping = [] → s.nextRamp = some n →
      exec .domainRampStart s = .next (s.setDomState n 1)) ∧
    (s.ramping = [] → NoEffect .domainRampDone s) ∧
    (∀ n l, s.ramping = n :: l → exec .domainRampDone s = .next (((s.cntF (F.pwrDomRamps n)).setDomState n 2).domFollow n)) ∧
    (∀ n, (s.goingOff n = false → NoEffect (.domainOff n) s) ∧
      (s.goingOff n = true → ∀ u, u = ({ s with pwr := { s.pwr with
          offing := s.pwr.offing &&& (2 ^ 52 - 1 - 2 ^ n) } }).setDomState n 0 →
        exec (.domainOff n) s = .next (if n < 45 then u.tryEndIso ((n - 1) / 11) else u)) ∧
      (s.mayReady n = false → NoEffect (.domainReady n) s) ∧
      (s.mayReady n = true → ∀ u, u = (s.setDomState n 3).domFollow n →
        (n = 48 → exec (.domainReady n) s = .next u.resyncAll) ∧
        (n = 45 ∨ n = 46 ∨ n = 47 ∨ 49 ≤ n → exec (.domainReady n) s = .next u) ∧
        (n < 45 → (n - 1) % 11 ≠ 0 → exec (.domainReady n) s = .next (u.tryEndIso ((n - 1) / 11))) ∧
        (n < 45 → (n - 1) % 11 = 0 → exec (.domainReady n) s = .next
          ((((forUpTo 36 (fun l v => v.resync (36 * ((n - 1) / 11) + l)) u).fetchPump ((n - 1) / 11) 64).tryEndIso
            ((n - 1) / 11))))))) ∧
  (∀ (old n : Nat), n < 52 →
    (bitAt old n = false → (∃ m, requiresOf n = some m ∧ bitAt old m = false ∧ m ≠ n) →
      acceptRequest old (withBits old n 1 1) = (old, 2 ^ n)) ∧
    (bitAt old n = false → (∀ m, requiresOf n = some m → bitAt old m = true) →
      acceptRequest old (withBits old n 1 1) = (withBits old n 1 1, 0)) ∧
    (bitAt old n = true → (∃ m, m < 52 ∧ bitAt old m = true ∧ requiresOf m = some n) →
      acceptRequest old (withBits old n 1 0) = (old, 2 ^ n)) ∧
    (bitAt old n = true → (∀ m, m < 52 → bitAt old m = true → requiresOf m ≠ some n) →
      acceptRequest old (withBits old n 1 0) = (withBits old n 1 0, 0))) ∧
  (∀ (s t u v : State) (j w new : Nat) (r : Nat × Nat),
    new = (if j = 0 then withBits (withBits s.requested 0 32 w) 0 1 1 else withBits s.requested 32 20 w) →
    r = acceptRequest s.requested new → t = (s.wr Reg.pwrOn0 (r.1 % 2 ^ 32)).wr Reg.pwrOn1 (r.1 / 2 ^ 32) →
    (∀ n, n < 52 → bitAt r.2 n = true → (∀ m, m < n → bitAt r.2 m = false) →
      u = (t.fset F.pwrStsRefused true).fput F.pwrStsRefDom n) →
    ((∀ n, n < 52 → bitAt r.2 n = false) → u = t) →
    v = { u with pwr := { u.pwr with auto := if j = 0 then u.pwr.auto else 0 } } →
    s.writePwrOn j w = eachOf ((List.range 52).filter (fun n => bitAt s.requested n && !bitAt r.1 n)) (fun n x => x.switchOff n) v) ∧
  (∀ s : State,
    exec .coldPowerUp s = .next (({ s with tap := {} }).deviceReset 1) ∧
    exec .porAssert s = .next (({ s with pwr := { s.pwr with porLow := true } }).deviceReset 2) ∧
    (s.pwr.porLow = false → exec .pd00Undervoltage s = .next (s.deviceReset 3)) ∧
    (s.pwr.porLow = true → NoEffect .pd00Undervoltage s) ∧
    (s.pwr.porLow = true → exec .porRelease s = .next
      { s with pwr := { s.pwr with porLow := false }, pins := State.reset.pins }) ∧
    (s.pwr.porLow = false → NoEffect .porRelease s) ∧
    (∀ c t, t = s.deviceReset c → t.pending = s.pending ∧ t.out = s.out ∧ t.free = s.free ∧ t.brz.keep = s.brz.keep ∧
      t.brz.queue = [] ∧ t.inv = State.reset.inv ∧ t.pulses = [] ∧ t.movers = [] ∧ t.rings = []) ∧
    (s.ready 0 = true → exec .controllerResetAssert s = .next
      (({ s with pwr := { s.pwr with rstLow := true } }).controllerReset (fun _ => false) 1)) ∧
    (s.ready 0 = false → exec .controllerResetAssert s = .next { s with pwr := { s.pwr with rstLow := true } }) ∧
    exec .controllerResetRelease s = .next { s with pwr := { s.pwr with rstLow := false } } ∧
    exec .ctrlRstExpire s = .next { s with pwr := { s.pwr with
      ctrl := s.pwr.ctrl - 1, keep := if s.pwr.ctrl = 1 then 0 else s.pwr.keep } } ∧
    ∀ h, exec (.perstAssert h) s = .next
        (({ s with pwr := { s.pwr with perst := withBits s.pwr.perst h 1 1 } }).dropDomain (45 + h) false false) ∧
      exec (.perstRelease h) s = .next { s with pwr := { s.pwr with perst := withBits s.pwr.perst h 1 0 } }) ∧
  (∀ (s : State) (ir : Nat), (ir < 7 → (s.tapSelect ir).tap = { s.tap with ir := ir }) ∧
    (7 ≤ ir → ir < 64 → (s.tapSelect ir).tap = { s.tap with ir := 0x3F })) ∧
  ∀ (s : State),
    exec .tapReset s = .next (s.tapSelect tapIdcode) ∧ exec .highz s = .next (s.tapSelect tapHighz) ∧
    exec .clamp s = .next (s.tapSelect tapClamp) ∧ exec .bypass s = .next (s.tapSelect tapBypass) ∧
    exec .idcode s = .next ((s.tapSelect tapIdcode).emit (.tdo 0x07144E4D)) ∧
    exec (.extest none) s = .next (s.tapSelect tapExtest) ∧ exec (.samplePreload none) s = .next (s.tapSelect tapSample) ∧
    exec (.extestPulse none) s = .next (s.tapSelect tapPulse) ∧ exec (.extestTrain none) s = .next (s.tapSelect tapTrain) ∧
    ∀ (v : Nat) (f : State → State),
      (∀ t, f t = ({ t with tap := { t.tap with boundary := v } }.emit (.tdo (t.freeVal 32))).useFree) →
      exec (.extest (some v)) s = .next (f (s.tapSelect tapExtest)) ∧
      exec (.samplePreload (some v)) s = .next (f (s.tapSelect tapSample)) ∧
      exec (.extestPulse (some v)) s = .next (f (s.tapSelect tapPulse)) ∧
      exec (.extestTrain (some v)) s = .next (f (s.tapSelect tapTrain)) ∧
      ∀ ir t, ir < 7 → t = f (s.tapSelect ir) → t.tap.ir = ir ∧ t.tap.boundary = v ∧ SameWords s t ∧ t.free = s.free + 1 ∧
        t.out.length = s.out.length + 1 ∧ t.pins = s.pins
end

