-- ==== Sys2Proof/Laws/Bits.lean ====
section
/-! SUPPORT. Laws of bit fields: which bits a field write leaves, and a field read after a field write. -/

namespace Sys2Proof

/-- Every bit of a number with a field replaced. -/
theorem testBit_withBits (n lo w v i : Nat) :
    (withBits n lo w v).testBit i
      = if i < lo then n.testBit i else if i < lo + w then v.testBit (i - lo) else n.testBit i := by
  have h1 : withBits n lo w v = 2 ^ lo * (2 ^ w * (n >>> (lo + w)) + v % 2 ^ w) + n % 2 ^ lo := by
    unfold withBits
    rw [Nat.shiftLeft_eq, Nat.shiftLeft_eq, Nat.pow_add]
    ring
  rw [h1, Nat.testBit_two_pow_mul_add _ (Nat.mod_lt _ (Nat.two_pow_pos lo)),
    Nat.testBit_two_pow_mul_add _ (Nat.mod_lt _ (Nat.two_pow_pos w))]
  by_cases a : i < lo
  · simp [a, Nat.testBit_mod_two_pow]
  · by_cases b : i < lo + w
    · simp [a, b, Nat.testBit_mod_two_pow, show i - lo < w by omega]
    · simp only [a, b, show ¬ i - lo < w by omega, if_false, Nat.testBit_shiftRight]
      congr 1
      omega

/-- Every bit of a field's value. -/
theorem testBit_bitsOf (n lo w i : Nat) : (bitsOf n lo w).testBit i = (decide (i < w) && n.testBit (lo + i)) := by
  simp [bitsOf, Nat.testBit_mod_two_pow, Nat.testBit_shiftRight]

theorem bitsOf_lt (n lo w : Nat) : bitsOf n lo w < 2 ^ w := Nat.mod_lt _ (Nat.two_pow_pos w)

/-- A field read after a write of the same field. -/
theorem bitsOf_withBits_self (n lo w v : Nat) : bitsOf (withBits n lo w v) lo w = v % 2 ^ w := by
  apply Nat.eq_of_testBit_eq
  intro i
  rw [testBit_bitsOf, testBit_withBits, Nat.testBit_mod_two_pow]
  by_cases h : i < w <;> simp [h]

/-- A field read after a write of a field of other bits. -/
theorem bitsOf_withBits_other {lo w lo' w' : Nat} (h : lo' + w' ≤ lo ∨ lo + w ≤ lo') (n v : Nat) :
    bitsOf (withBits n lo w v) lo' w' = bitsOf n lo' w' := by
  apply Nat.eq_of_testBit_eq
  intro i
  rw [testBit_bitsOf, testBit_bitsOf, testBit_withBits]
  by_cases hi : i < w'
  · by_cases a : lo' + i < lo
    · simp [a]
    · have b : ¬ lo' + i < lo + w := by omega
      simp [a, b]
  · simp [hi]

/-- Masking keeps a field whose bits the mask holds. -/
theorem bitsOf_and {m lo w : Nat} (h : bitsOf m lo w = 2 ^ w - 1) (n : Nat) :
    bitsOf (n &&& m) lo w = bitsOf n lo w := by
  apply Nat.eq_of_testBit_eq
  intro i
  have hm := congrArg (·.testBit i) h
  simp only [testBit_bitsOf, Nat.testBit_two_pow_sub_one, Nat.testBit_and] at hm ⊢
  by_cases hi : i < w
  · simp only [hi, decide_true, Bool.true_and] at hm ⊢
    simp [hm]
  · simp [hi]

end Sys2Proof
end

