-- ==== Sys2Proof/Laws/Table.lean ====
section
/-! SUPPORT. Laws of sparse tables: a read after a write, and that writing and clearing keep the canonical form. -/

namespace Sys2Proof

variable {α : Type}

theorem ne_beq {a b : Nat} (h : a ≠ b) : (a == b) = false := beq_eq_false_iff_ne.mpr h

theorem Table.get_drop_ne {d : α} {k j : Nat} (h : j ≠ k) (t : Table α) :
    Table.get d j (Table.drop k t) = Table.get d j t := by
  induction t with
  | nil => rfl
  | cons p r ih =>
    by_cases hk : p.1 = k
    · simp [Table.drop, Table.get, hk, ih, ne_beq (Ne.symm h)]
    · simp [Table.drop, Table.get, ne_beq hk, ih]

theorem Table.get_drop_self (d : α) (k : Nat) (t : Table α) : Table.get d k (Table.drop k t) = d := by
  induction t with
  | nil => rfl
  | cons p r ih =>
    by_cases hk : p.1 = k
    · simp [Table.drop, hk, ih]
    · simp [Table.drop, Table.get, ne_beq hk, ih]

theorem Table.get_place_self (d v : α) (k : Nat) (t : Table α) :
    Table.get d k (Table.place k v (Table.drop k t)) = v := by
  induction t with
  | nil => simp [Table.drop, Table.place, Table.get]
  | cons p r ih =>
    by_cases hk : p.1 = k
    · simpa [Table.drop, hk] using ih
    · simp only [Table.drop, ne_beq hk, cond_false, Table.place]
      cases Nat.blt k p.1 <;> simp [Table.get, ne_beq hk, ih]

theorem Table.get_place_ne {d : α} {k j : Nat} (h : j ≠ k) (v : α) (t : Table α) :
    Table.get d j (Table.place k v t) = Table.get d j t := by
  induction t with
  | nil => simp [Table.place, Table.get, ne_beq (Ne.symm h)]
  | cons p r ih =>
    simp only [Table.place]
    cases Nat.blt k p.1 <;> simp [Table.get, ih, ne_beq (Ne.symm h)]

/-- A read of the key just written. -/
theorem Table.get_put_self [DecidableEq α] (d v : α) (k : Nat) (t : Table α) :
    Table.get d k (Table.put d v k t) = v := by
  unfold Table.put
  split
  · rw [Table.get_drop_self]; exact Eq.symm ‹v = d›
  · exact Table.get_place_self d v k t

/-- A write leaves every other key alone. -/
theorem Table.get_put_ne [DecidableEq α] {d e : α} {k j : Nat} (h : j ≠ k) (v : α) (t : Table α) :
    Table.get d j (Table.put e v k t) = Table.get d j t := by
  unfold Table.put
  split
  · exact Table.get_drop_ne h t
  · rw [Table.get_place_ne h, Table.get_drop_ne h]

theorem Table.drop_drop (k : Nat) (t : Table α) : Table.drop k (Table.drop k t) = Table.drop k t := by
  induction t with
  | nil => rfl
  | cons p r ih => by_cases hk : p.1 = k <;> simp [Table.drop, hk, ih, ne_beq]

theorem Table.drop_place (k : Nat) (v : α) (t : Table α) : Table.drop k (Table.place k v t) = Table.drop k t := by
  induction t with
  | nil => simp [Table.place, Table.drop]
  | cons p r ih =>
    simp only [Table.place]
    cases Nat.blt k p.1 <;> by_cases hk : p.1 = k <;> simp [Table.drop, hk, ih, ne_beq]

/-- The second of two writes of a key is the one that counts. -/
theorem Table.put_put [DecidableEq α] (d v w : α) (k : Nat) (t : Table α) :
    Table.put d w k (Table.put d v k t) = Table.put d w k t := by
  unfold Table.put
  by_cases h : v = d <;> simp [h, Table.drop_drop, Table.drop_place]

theorem Table.mem_drop {k : Nat} {x : Nat × α} {t : Table α} : x ∈ Table.drop k t ↔ x ∈ t ∧ x.1 ≠ k := by
  induction t with
  | nil => simp [Table.drop]
  | cons p r ih =>
    simp only [Table.drop]
    by_cases hk : p.1 = k
    · simp only [hk, beq_self_eq_true, cond_true, ih, List.mem_cons]
      constructor
      · exact fun h => ⟨.inr h.1, h.2⟩
      · rintro ⟨rfl | h, h2⟩
        · exact absurd hk h2
        · exact ⟨h, h2⟩
    · simp only [beq_eq_false_iff_ne.mpr hk, cond_false, List.mem_cons, ih]
      constructor
      · rintro (rfl | h)
        · exact ⟨.inl rfl, hk⟩
        · exact ⟨.inr h.1, h.2⟩
      · rintro ⟨rfl | h, h2⟩
        · exact .inl rfl
        · exact .inr ⟨h, h2⟩

theorem Table.mem_place {k : Nat} {v : α} {x : Nat × α} {t : Table α} :
    x ∈ Table.place k v t ↔ x = (k, v) ∨ x ∈ t := by
  induction t with
  | nil => simp [Table.place]
  | cons p r ih =>
    simp only [Table.place]
    cases Nat.blt k p.1
    · simp only [cond_false, List.mem_cons, ih]; tauto
    · simp

theorem Table.rise_drop {k : Nat} {t : Table α} (h : t.Pairwise (fun x y => x.1 < y.1)) :
    (Table.drop k t).Pairwise (fun x y => x.1 < y.1) := by
  induction t with
  | nil => simp [Table.drop]
  | cons p r ih =>
    rw [List.pairwise_cons] at h
    simp only [Table.drop]
    cases (p.1 == k)
    · exact List.pairwise_cons.mpr ⟨fun x hx => h.1 x (Table.mem_drop.mp hx).1, ih h.2⟩
    · exact ih h.2

theorem Table.rise_place {k : Nat} {v : α} {t : Table α} (h : t.Pairwise (fun x y => x.1 < y.1))
    (hk : ∀ x ∈ t, x.1 ≠ k) : (Table.place k v t).Pairwise (fun x y => x.1 < y.1) := by
  induction t with
  | nil => simp [Table.place]
  | cons p r ih =>
    rw [List.pairwise_cons] at h
    simp only [Table.place]
    cases hb : Nat.blt k p.1
    · have hlt : p.1 < k := by
        have h1 : ¬ k < p.1 := fun hl => by rw [Nat.blt_eq.mpr hl] at hb; exact absurd hb (by decide)
        have h2 := hk p (by simp)
        omega
      refine List.pairwise_cons.mpr ⟨fun x hx => ?_, ih h.2 (fun x hx => hk x (List.mem_cons_of_mem _ hx))⟩
      rcases Table.mem_place.mp hx with rfl | hx
      · exact hlt
      · exact h.1 x hx
    · have hlt : k < p.1 := by simpa [Nat.blt_eq] using hb
      refine List.pairwise_cons.mpr ⟨fun x hx => ?_, List.pairwise_cons.mpr h⟩
      rcases List.mem_cons.mp hx with rfl | hx
      · exact hlt
      · exact Nat.lt_trans hlt (h.1 x hx)

/-- The empty table is in canonical form. -/
theorem Table.wf_nil (d : Nat → α) : Table.wf d [] := ⟨List.Pairwise.nil, by simp⟩

/-- Writing a key keeps the canonical form. -/
theorem Table.wf_put [DecidableEq α] {d : Nat → α} {t : Table α} (h : Table.wf d t) (v : α) (k : Nat) :
    Table.wf d (Table.put (d k) v k t) := by
  unfold Table.put
  split
  · exact ⟨Table.rise_drop h.1, fun x hx => h.2 x (Table.mem_drop.mp hx).1⟩
  · rename_i hv
    refine ⟨Table.rise_place (Table.rise_drop h.1) (fun x hx => (Table.mem_drop.mp hx).2), fun x hx => ?_⟩
    rcases Table.mem_place.mp hx with rfl | hx
    · exact hv
    · exact h.2 x (Table.mem_drop.mp hx).1

/-- Keeping some of the entries keeps the canonical form. -/
theorem Table.wf_filter {d : Nat → α} {t : Table α} (h : Table.wf d t) (p : Nat × α → Bool) :
    Table.wf d (t.filter p) :=
  ⟨h.1.filter p, fun x hx => h.2 x (List.mem_of_mem_filter hx)⟩

/-- Two tables in canonical form that read alike under every key are equal. -/
theorem Table.ext_wf {d : Nat → α} {t u : Table α} (ht : Table.wf d t) (hu : Table.wf d u)
    (h : ∀ k, Table.get (d k) k t = Table.get (d k) k u) : t = u := by
  induction t generalizing u with
  | nil =>
    cases u with
    | nil => rfl
    | cons y s =>
      have := h y.1
      simp [Table.get] at this
      exact absurd this.symm (hu.2 y (by simp))
  | cons x r ih =>
    have hx := List.pairwise_cons.mp ht.1
    cases u with
    | nil =>
      have := h x.1
      simp [Table.get] at this
      exact absurd this (ht.2 x (by simp))
    | cons y s =>
      have hy := List.pairwise_cons.mp hu.1
      have miss : ∀ (l : Table α) (k : Nat), (∀ z ∈ l, k < z.1) → Table.get (d k) k l = d k := by
        intro l k hl
        induction l with
        | nil => rfl
        | cons z l ihl =>
          have hz : (z.1 == k) = false := by
            have := hl z (by simp)
            simp; omega
          simp [Table.get, hz, ihl (fun w hw => hl w (List.mem_cons_of_mem _ hw))]
      have heq : x.1 = y.1 := by
        by_contra hne
        rcases Nat.lt_or_gt_of_ne hne with hlt | hgt
        · have h1 := h x.1
          rw [miss (y :: s) x.1 (by
            intro z hz
            rcases List.mem_cons.mp hz with rfl | hz
            · exact hlt
            · exact Nat.lt_trans hlt (hy.1 z hz))] at h1
          simp [Table.get] at h1
          exact ht.2 x (by simp) h1
        · have h1 := h y.1
          rw [miss (x :: r) y.1 (by
            intro z hz
            rcases List.mem_cons.mp hz with rfl | hz
            · exact hgt
            · exact Nat.lt_trans hgt (hx.1 z hz))] at h1
          simp [Table.get] at h1
          exact hu.2 y (by simp) h1.symm
      have hval : x.2 = y.2 := by
        have h1 := h x.1
        simpa [Table.get, heq] using h1
      have hxy : x = y := Prod.ext heq hval
      subst hxy
      congr 1
      refine ih ⟨hx.2, fun z hz => ht.2 z (List.mem_cons_of_mem _ hz)⟩
        ⟨hy.2, fun z hz => hu.2 z (List.mem_cons_of_mem _ hz)⟩ fun k => ?_
      by_cases hk : x.1 = k
      · subst hk
        rw [miss r x.1 hx.1, miss s x.1 hy.1]
      · have h1 := h k
        simpa [Table.get, ne_beq hk] using h1

end Sys2Proof
end

