-- ==== Sys2Proof/Laws/Regs.lean ====
section
/-! SUPPORT. Laws of the register file: the masks of the access table, and a word or a field read after a write. -/

namespace Sys2Proof.Machine

/-! ### The access table -/

/-- A row's masks lie in 32 bits and its reset value in its masks. -/
def rowSound (r : RegRow) : Bool := Nat.blt (rowImpl r) (2 ^ 32) && (r.reset &&& rowImpl r == r.reset)

theorem findRow_mem {l : List RegRow} {a : Nat} {r : RegRow} (h : findRow l a = some r) : r ∈ l := by
  induction l with
  | nil => simp [findRow] at h
  | cons x l ih =>
    simp only [findRow] at h
    cases hx : rowHit x a
    · rw [hx] at h; exact List.mem_cons_of_mem _ (ih h)
    · rw [hx] at h; simp only [cond_true, Option.some.injEq] at h; simp [h]


theorem spine_sound (a : Nat) : (spineRows a).all rowSound = true := by
  unfold spineRows
  simp only [Bool.cond_eq_ite]
  split_ifs <;> decide +kernel

theorem window_sound (o : Nat) : (windowRows o).all rowSound = true := by
  unfold windowRows
  simp only [Bool.cond_eq_ite]
  split_ifs <;> decide +kernel

theorem sound_of_find {l : List RegRow} {b : Nat} {r : RegRow} (hl : l.all rowSound = true)
    (hf : findRow l b = some r) : rowSound r = true := List.all_eq_true.mp hl r (findRow_mem hf)

theorem regRow_sound {a : Nat} {r : RegRow} (h : regRow a = some r) : rowSound r = true := by
  unfold regRow at h
  simp only [Bool.cond_eq_ite] at h
  split_ifs at h
  · exact sound_of_find (spine_sound _) h
  · exact sound_of_find (window_sound _) h

/-- The masks of a word lie in 32 bits (R16). -/
theorem implOf_lt (a : Nat) : implOf a < 2 ^ 32 := by
  unfold implOf
  cases tableWord a
  · simp only [cond_false]
    split
    · rename_i r hr
      have h := regRow_sound hr
      simp only [rowSound, Bool.and_eq_true, Nat.blt_eq] at h
      exact h.1
    · decide
  · simp only [cond_true]; decide

/-- A reset value holds no reserved bit (R14, R15). -/
theorem resetOf_impl (a : Nat) : resetOf a &&& implOf a = resetOf a := by
  unfold resetOf implOf
  cases tableWord a
  · simp only [cond_false]
    split
    · rename_i r hr
      have h := regRow_sound hr
      simp only [rowSound, Bool.and_eq_true, beq_iff_eq] at h
      exact h.2
    · rfl
  · simp only [cond_true]
    cases (Nat.ble 0x888000 a && Nat.blt a 0x888400) <;> decide

theorem and_impl_lt (n a : Nat) : n &&& implOf a < 2 ^ 32 := Nat.lt_of_le_of_lt Nat.and_le_right (implOf_lt a)

theorem resetOf_lt (a : Nat) : resetOf a < 2 ^ 32 := resetOf_impl a ▸ and_impl_lt _ a

/-! ### Words -/

/-- A word just written holds the written bits that hold state. -/
theorem State.rd_wr_self (s : State) (a n : Nat) : (s.wr a n).rd a = n &&& implOf a := by
  simp only [State.rd, State.word, State.wr, Table.get_put_self, BitVec.toNat_ofNat]
  exact Nat.mod_eq_of_lt (and_impl_lt n a)

theorem State.word_wr_ne {a b : Nat} (h : b ≠ a) (s : State) (n : Nat) : (s.wr a n).word b = s.word b :=
  Table.get_put_ne h _ _

/-- A write leaves every other word alone. -/
theorem State.rd_wr_ne {a b : Nat} (h : b ≠ a) (s : State) (n : Nat) : (s.wr a n).rd b = s.rd b :=
  congrArg BitVec.toNat (State.word_wr_ne h s n)

/-- A word never written since reset reads its reset value (R14). -/
theorem rd_of_regs_nil {s : State} (h : s.regs = []) (a : Nat) : s.rd a = resetOf a := by
  simp only [State.rd, State.word, h, Table.get, resetWord, BitVec.toNat_ofNat]
  exact Nat.mod_eq_of_lt (resetOf_lt a)

theorem State.word_eq_of_regs {s t : State} (h : t.regs = s.regs) (a : Nat) : t.word a = s.word a := by
  simp only [State.word, h]

theorem State.rd_eq_of_regs {s t : State} (h : t.regs = s.regs) (a : Nat) : t.rd a = s.rd a := by
  simp only [State.rd, State.word_eq_of_regs h]

theorem State.fget_eq_of_regs {s t : State} (h : t.regs = s.regs) (f : Fld) : t.fget f = s.fget f := by
  simp only [State.fget, State.rd_eq_of_regs h]

/-! ### Fields -/

/-- Every bit of the field holds state. -/
def Fld.held (f : Fld) : Bool := bitsOf (implOf f.addr) f.lo f.width == 2 ^ f.width - 1

theorem State.fget_lt (s : State) (f : Fld) : s.fget f < 2 ^ f.width := bitsOf_lt _ _ _

/-- A field read after a write of it. -/
theorem State.fget_fput_self {f : Fld} (h : Fld.held f = true) (s : State) (n : Nat) :
    (s.fput f n).fget f = n % 2 ^ f.width := by
  simp only [State.fget, State.fput, State.rd_wr_self]
  rw [bitsOf_and (by simpa [Fld.held] using h), bitsOf_withBits_self]

/-- A field read after a write of a field of another word. -/
theorem State.fget_fput_ne {f g : Fld} (h : g.addr ≠ f.addr) (s : State) (n : Nat) :
    (s.fput f n).fget g = s.fget g := by
  simp only [State.fget, State.fput, State.rd_wr_ne h]

/-- A field read after a write of other bits of its word. -/
theorem State.fget_fput_other {f g : Fld} (hg : Fld.held g = true) (ha : g.addr = f.addr)
    (hb : g.lo + g.width ≤ f.lo ∨ f.lo + f.width ≤ g.lo) (s : State) (n : Nat) :
    (s.fput f n).fget g = s.fget g := by
  simp only [State.fget, State.fput, ha, State.rd_wr_self]
  rw [bitsOf_and (by simpa [Fld.held, ha] using hg), bitsOf_withBits_other hb]

theorem State.word_fput_ne {f : Fld} {b : Nat} (h : b ≠ f.addr) (s : State) (n : Nat) :
    (s.fput f n).word b = s.word b := State.word_wr_ne h _ _

theorem State.rd_fput_ne {f : Fld} {b : Nat} (h : b ≠ f.addr) (s : State) (n : Nat) :
    (s.fput f n).rd b = s.rd b := State.rd_wr_ne h _ _

/-- A flag read after a write of it. -/
theorem State.flag_fset_self {f : Fld} (h : Fld.held f = true) (hw : f.width = 1) (s : State) (b : Bool) :
    (s.fset f b).flag f = b := by
  simp only [State.flag, State.fset, State.fget_fput_self h, hw]
  cases b <;> rfl

theorem State.flag_fput_ne {f g : Fld} (h : g.addr ≠ f.addr) (s : State) (n : Nat) :
    (s.fput f n).flag g = s.flag g := by simp only [State.flag, State.fget_fput_ne h]

/-- A register write changes nothing but the register file. -/
theorem State.wr_rest (s : State) (a n : Nat) : { s.wr a n with regs := s.regs } = s := rfl

theorem State.fput_rest (s : State) (f : Fld) (n : Nat) : { s.fput f n with regs := s.regs } = s := rfl

end Sys2Proof.Machine
end

