-- ==== Sys2Proof/Laws/State.lean ====
section
/-! SUPPORT. What each primitive update of the state leaves in each field. -/

namespace Sys2Proof.Machine

variable (s : State)

@[simp] theorem State.wr_pending (a n : Nat) : (s.wr a n).pending = s.pending := rfl
@[simp] theorem State.wr_msix (a n : Nat) : (s.wr a n).msix = s.msix := rfl
@[simp] theorem State.wr_shadow (a n : Nat) : (s.wr a n).shadow = s.shadow := rfl
@[simp] theorem State.wr_staged (a n : Nat) : (s.wr a n).staged = s.staged := rfl
@[simp] theorem State.wr_wo (a n : Nat) : (s.wr a n).wo = s.wo := rfl
@[simp] theorem State.wr_counter (a n : Nat) : (s.wr a n).counter = s.counter := rfl
@[simp] theorem State.wr_armings (a n : Nat) : (s.wr a n).armings = s.armings := rfl
@[simp] theorem State.wr_free (a n : Nat) : (s.wr a n).free = s.free := rfl
@[simp] theorem State.wr_out (a n : Nat) : (s.wr a n).out = s.out := rfl
@[simp] theorem State.wr_pins (a n : Nat) : (s.wr a n).pins = s.pins := rfl
@[simp] theorem State.wr_keptInstants (a n : Nat) : (s.wr a n).kept = s.kept := rfl
@[simp] theorem State.wr_injected (a n : Nat) : (s.wr a n).injected = s.injected := rfl
@[simp] theorem State.wr_touched (a n : Nat) : (s.wr a n).touched = s.touched := rfl
@[simp] theorem State.wr_brz (a n : Nat) : (s.wr a n).brz = s.brz := rfl
@[simp] theorem State.wr_sup (a n : Nat) : (s.wr a n).sup = s.sup := rfl
@[simp] theorem State.wr_rings (a n : Nat) : (s.wr a n).rings = s.rings := rfl
@[simp] theorem State.wr_slots (a n : Nat) : (s.wr a n).slots = s.slots := rfl
@[simp] theorem State.wr_stores (a n : Nat) : (s.wr a n).stores = s.stores := rfl
@[simp] theorem State.wr_fetchLast (a n : Nat) : (s.wr a n).fetchLast = s.fetchLast := rfl
@[simp] theorem State.wr_notices (a n : Nat) : (s.wr a n).notices = s.notices := rfl
@[simp] theorem State.wr_ports (a n : Nat) : (s.wr a n).ports = s.ports := rfl
@[simp] theorem State.wr_nextFrame (a n : Nat) : (s.wr a n).nextFrame = s.nextFrame := rfl
@[simp] theorem State.wr_fab (a n : Nat) : (s.wr a n).fab = s.fab := rfl
@[simp] theorem State.wr_heldHr (a n : Nat) : (s.wr a n).heldHr = s.heldHr := rfl
@[simp] theorem State.wr_inv (a n : Nat) : (s.wr a n).inv = s.inv := rfl
@[simp] theorem State.wr_owed (a n : Nat) : (s.wr a n).owed = s.owed := rfl
@[simp] theorem State.wr_scb (a n : Nat) : (s.wr a n).scb = s.scb := rfl
@[simp] theorem State.wr_shapers (a n : Nat) : (s.wr a n).shapers = s.shapers := rfl
@[simp] theorem State.wr_meters (a n : Nat) : (s.wr a n).meters = s.meters := rfl
@[simp] theorem State.wr_frerLast (a n : Nat) : (s.wr a n).frerLast = s.frerLast := rfl
@[simp] theorem State.wr_trips (a n : Nat) : (s.wr a n).trips = s.trips := rfl
@[simp] theorem State.wr_links (a n : Nat) : (s.wr a n).links = s.links := rfl
@[simp] theorem State.wr_nits (a n : Nat) : (s.wr a n).nits = s.nits := rfl
@[simp] theorem State.wr_lands (a n : Nat) : (s.wr a n).lands = s.lands := rfl
@[simp] theorem State.wr_anl (a n : Nat) : (s.wr a n).anl = s.anl := rfl
@[simp] theorem State.wr_chans (a n : Nat) : (s.wr a n).chans = s.chans := rfl
@[simp] theorem State.wr_code (a n : Nat) : (s.wr a n).code = s.code := rfl
@[simp] theorem State.wr_seqStart (a n : Nat) : (s.wr a n).seqStart = s.seqStart := rfl
@[simp] theorem State.wr_granted (a n : Nat) : (s.wr a n).granted = s.granted := rfl
@[simp] theorem State.wr_parked (a n : Nat) : (s.wr a n).parked = s.parked := rfl
@[simp] theorem State.wr_movers (a n : Nat) : (s.wr a n).movers = s.movers := rfl
@[simp] theorem State.wr_bmvLast (a n : Nat) : (s.wr a n).bmvLast = s.bmvLast := rfl
@[simp] theorem State.wr_cand (a n : Nat) : (s.wr a n).cand = s.cand := rfl
@[simp] theorem State.wr_sealRun (a n : Nat) : (s.wr a n).sealRun = s.sealRun := rfl
@[simp] theorem State.wr_pulses (a n : Nat) : (s.wr a n).pulses = s.pulses := rfl
@[simp] theorem State.wr_pwr (a n : Nat) : (s.wr a n).pwr = s.pwr := rfl
@[simp] theorem State.wr_tap (a n : Nat) : (s.wr a n).tap = s.tap := rfl
@[simp] theorem State.wr_svc (a n : Nat) : (s.wr a n).svc = s.svc := rfl

@[simp] theorem State.emit_pending (o : Out) : (s.emit o).pending = s.pending := rfl
@[simp] theorem State.emit_regs (o : Out) : (s.emit o).regs = s.regs := rfl
@[simp] theorem State.emit_msix (o : Out) : (s.emit o).msix = s.msix := rfl
@[simp] theorem State.emit_shadow (o : Out) : (s.emit o).shadow = s.shadow := rfl
@[simp] theorem State.emit_staged (o : Out) : (s.emit o).staged = s.staged := rfl
@[simp] theorem State.emit_wo (o : Out) : (s.emit o).wo = s.wo := rfl
@[simp] theorem State.emit_counter (o : Out) : (s.emit o).counter = s.counter := rfl
@[simp] theorem State.emit_armings (o : Out) : (s.emit o).armings = s.armings := rfl
@[simp] theorem State.emit_free (o : Out) : (s.emit o).free = s.free := rfl
@[simp] theorem State.emit_pins (o : Out) : (s.emit o).pins = s.pins := rfl
@[simp] theorem State.emit_keptInstants (o : Out) : (s.emit o).kept = s.kept := rfl
@[simp] theorem State.emit_injected (o : Out) : (s.emit o).injected = s.injected := rfl
@[simp] theorem State.emit_touched (o : Out) : (s.emit o).touched = s.touched := rfl
@[simp] theorem State.emit_brz (o : Out) : (s.emit o).brz = s.brz := rfl
@[simp] theorem State.emit_sup (o : Out) : (s.emit o).sup = s.sup := rfl
@[simp] theorem State.emit_rings (o : Out) : (s.emit o).rings = s.rings := rfl
@[simp] theorem State.emit_slots (o : Out) : (s.emit o).slots = s.slots := rfl
@[simp] theorem State.emit_stores (o : Out) : (s.emit o).stores = s.stores := rfl
@[simp] theorem State.emit_fetchLast (o : Out) : (s.emit o).fetchLast = s.fetchLast := rfl
@[simp] theorem State.emit_notices (o : Out) : (s.emit o).notices = s.notices := rfl
@[simp] theorem State.emit_ports (o : Out) : (s.emit o).ports = s.ports := rfl
@[simp] theorem State.emit_nextFrame (o : Out) : (s.emit o).nextFrame = s.nextFrame := rfl
@[simp] theorem State.emit_fab (o : Out) : (s.emit o).fab = s.fab := rfl
@[simp] theorem State.emit_heldHr (o : Out) : (s.emit o).heldHr = s.heldHr := rfl
@[simp] theorem State.emit_inv (o : Out) : (s.emit o).inv = s.inv := rfl
@[simp] theorem State.emit_owed (o : Out) : (s.emit o).owed = s.owed := rfl
@[simp] theorem State.emit_scb (o : Out) : (s.emit o).scb = s.scb := rfl
@[simp] theorem State.emit_shapers (o : Out) : (s.emit o).shapers = s.shapers := rfl
@[simp] theorem State.emit_meters (o : Out) : (s.emit o).meters = s.meters := rfl
@[simp] theorem State.emit_frerLast (o : Out) : (s.emit o).frerLast = s.frerLast := rfl
@[simp] theorem State.emit_trips (o : Out) : (s.emit o).trips = s.trips := rfl
@[simp] theorem State.emit_links (o : Out) : (s.emit o).links = s.links := rfl
@[simp] theorem State.emit_nits (o : Out) : (s.emit o).nits = s.nits := rfl
@[simp] theorem State.emit_lands (o : Out) : (s.emit o).lands = s.lands := rfl
@[simp] theorem State.emit_anl (o : Out) : (s.emit o).anl = s.anl := rfl
@[simp] theorem State.emit_chans (o : Out) : (s.emit o).chans = s.chans := rfl
@[simp] theorem State.emit_code (o : Out) : (s.emit o).code = s.code := rfl
@[simp] theorem State.emit_seqStart (o : Out) : (s.emit o).seqStart = s.seqStart := rfl
@[simp] theorem State.emit_granted (o : Out) : (s.emit o).granted = s.granted := rfl
@[simp] theorem State.emit_parked (o : Out) : (s.emit o).parked = s.parked := rfl
@[simp] theorem State.emit_movers (o : Out) : (s.emit o).movers = s.movers := rfl
@[simp] theorem State.emit_bmvLast (o : Out) : (s.emit o).bmvLast = s.bmvLast := rfl
@[simp] theorem State.emit_cand (o : Out) : (s.emit o).cand = s.cand := rfl
@[simp] theorem State.emit_sealRun (o : Out) : (s.emit o).sealRun = s.sealRun := rfl
@[simp] theorem State.emit_pulses (o : Out) : (s.emit o).pulses = s.pulses := rfl
@[simp] theorem State.emit_pwr (o : Out) : (s.emit o).pwr = s.pwr := rfl
@[simp] theorem State.emit_tap (o : Out) : (s.emit o).tap = s.tap := rfl
@[simp] theorem State.emit_svc (o : Out) : (s.emit o).svc = s.svc := rfl

@[simp] theorem State.pin_pending (k v : Nat) : (s.pin k v).pending = s.pending := rfl
@[simp] theorem State.pin_regs (k v : Nat) : (s.pin k v).regs = s.regs := rfl
@[simp] theorem State.pin_msix (k v : Nat) : (s.pin k v).msix = s.msix := rfl
@[simp] theorem State.pin_shadow (k v : Nat) : (s.pin k v).shadow = s.shadow := rfl
@[simp] theorem State.pin_staged (k v : Nat) : (s.pin k v).staged = s.staged := rfl
@[simp] theorem State.pin_wo (k v : Nat) : (s.pin k v).wo = s.wo := rfl
@[simp] theorem State.pin_counter (k v : Nat) : (s.pin k v).counter = s.counter := rfl
@[simp] theorem State.pin_armings (k v : Nat) : (s.pin k v).armings = s.armings := rfl
@[simp] theorem State.pin_free (k v : Nat) : (s.pin k v).free = s.free := rfl
@[simp] theorem State.pin_out (k v : Nat) : (s.pin k v).out = s.out := rfl
@[simp] theorem State.pin_keptInstants (k v : Nat) : (s.pin k v).kept = s.kept := rfl
@[simp] theorem State.pin_injected (k v : Nat) : (s.pin k v).injected = s.injected := rfl
@[simp] theorem State.pin_touched (k v : Nat) : (s.pin k v).touched = s.touched := rfl
@[simp] theorem State.pin_brz (k v : Nat) : (s.pin k v).brz = s.brz := rfl
@[simp] theorem State.pin_sup (k v : Nat) : (s.pin k v).sup = s.sup := rfl
@[simp] theorem State.pin_rings (k v : Nat) : (s.pin k v).rings = s.rings := rfl
@[simp] theorem State.pin_slots (k v : Nat) : (s.pin k v).slots = s.slots := rfl
@[simp] theorem State.pin_stores (k v : Nat) : (s.pin k v).stores = s.stores := rfl
@[simp] theorem State.pin_fetchLast (k v : Nat) : (s.pin k v).fetchLast = s.fetchLast := rfl
@[simp] theorem State.pin_notices (k v : Nat) : (s.pin k v).notices = s.notices := rfl
@[simp] theorem State.pin_ports (k v : Nat) : (s.pin k v).ports = s.ports := rfl
@[simp] theorem State.pin_nextFrame (k v : Nat) : (s.pin k v).nextFrame = s.nextFrame := rfl
@[simp] theorem State.pin_fab (k v : Nat) : (s.pin k v).fab = s.fab := rfl
@[simp] theorem State.pin_heldHr (k v : Nat) : (s.pin k v).heldHr = s.heldHr := rfl
@[simp] theorem State.pin_inv (k v : Nat) : (s.pin k v).inv = s.inv := rfl
@[simp] theorem State.pin_owed (k v : Nat) : (s.pin k v).owed = s.owed := rfl
@[simp] theorem State.pin_scb (k v : Nat) : (s.pin k v).scb = s.scb := rfl
@[simp] theorem State.pin_shapers (k v : Nat) : (s.pin k v).shapers = s.shapers := rfl
@[simp] theorem State.pin_meters (k v : Nat) : (s.pin k v).meters = s.meters := rfl
@[simp] theorem State.pin_frerLast (k v : Nat) : (s.pin k v).frerLast = s.frerLast := rfl
@[simp] theorem State.pin_trips (k v : Nat) : (s.pin k v).trips = s.trips := rfl
@[simp] theorem State.pin_links (k v : Nat) : (s.pin k v).links = s.links := rfl
@[simp] theorem State.pin_nits (k v : Nat) : (s.pin k v).nits = s.nits := rfl
@[simp] theorem State.pin_lands (k v : Nat) : (s.pin k v).lands = s.lands := rfl
@[simp] theorem State.pin_anl (k v : Nat) : (s.pin k v).anl = s.anl := rfl
@[simp] theorem State.pin_chans (k v : Nat) : (s.pin k v).chans = s.chans := rfl
@[simp] theorem State.pin_code (k v : Nat) : (s.pin k v).code = s.code := rfl
@[simp] theorem State.pin_seqStart (k v : Nat) : (s.pin k v).seqStart = s.seqStart := rfl
@[simp] theorem State.pin_granted (k v : Nat) : (s.pin k v).granted = s.granted := rfl
@[simp] theorem State.pin_parked (k v : Nat) : (s.pin k v).parked = s.parked := rfl
@[simp] theorem State.pin_movers (k v : Nat) : (s.pin k v).movers = s.movers := rfl
@[simp] theorem State.pin_bmvLast (k v : Nat) : (s.pin k v).bmvLast = s.bmvLast := rfl
@[simp] theorem State.pin_cand (k v : Nat) : (s.pin k v).cand = s.cand := rfl
@[simp] theorem State.pin_sealRun (k v : Nat) : (s.pin k v).sealRun = s.sealRun := rfl
@[simp] theorem State.pin_pulses (k v : Nat) : (s.pin k v).pulses = s.pulses := rfl
@[simp] theorem State.pin_pwr (k v : Nat) : (s.pin k v).pwr = s.pwr := rfl
@[simp] theorem State.pin_tap (k v : Nat) : (s.pin k v).tap = s.tap := rfl
@[simp] theorem State.pin_svc (k v : Nat) : (s.pin k v).svc = s.svc := rfl

@[simp] theorem State.useFree_pending : (s.useFree).pending = s.pending := rfl
@[simp] theorem State.useFree_regs : (s.useFree).regs = s.regs := rfl
@[simp] theorem State.useFree_msix : (s.useFree).msix = s.msix := rfl
@[simp] theorem State.useFree_shadow : (s.useFree).shadow = s.shadow := rfl
@[simp] theorem State.useFree_staged : (s.useFree).staged = s.staged := rfl
@[simp] theorem State.useFree_wo : (s.useFree).wo = s.wo := rfl
@[simp] theorem State.useFree_counter : (s.useFree).counter = s.counter := rfl
@[simp] theorem State.useFree_armings : (s.useFree).armings = s.armings := rfl
@[simp] theorem State.useFree_out : (s.useFree).out = s.out := rfl
@[simp] theorem State.useFree_pins : (s.useFree).pins = s.pins := rfl
@[simp] theorem State.useFree_keptInstants : (s.useFree).kept = s.kept := rfl
@[simp] theorem State.useFree_injected : (s.useFree).injected = s.injected := rfl
@[simp] theorem State.useFree_touched : (s.useFree).touched = s.touched := rfl
@[simp] theorem State.useFree_brz : (s.useFree).brz = s.brz := rfl
@[simp] theorem State.useFree_sup : (s.useFree).sup = s.sup := rfl
@[simp] theorem State.useFree_rings : (s.useFree).rings = s.rings := rfl
@[simp] theorem State.useFree_slots : (s.useFree).slots = s.slots := rfl
@[simp] theorem State.useFree_stores : (s.useFree).stores = s.stores := rfl
@[simp] theorem State.useFree_fetchLast : (s.useFree).fetchLast = s.fetchLast := rfl
@[simp] theorem State.useFree_notices : (s.useFree).notices = s.notices := rfl
@[simp] theorem State.useFree_ports : (s.useFree).ports = s.ports := rfl
@[simp] theorem State.useFree_nextFrame : (s.useFree).nextFrame = s.nextFrame := rfl
@[simp] theorem State.useFree_fab : (s.useFree).fab = s.fab := rfl
@[simp] theorem State.useFree_heldHr : (s.useFree).heldHr = s.heldHr := rfl
@[simp] theorem State.useFree_inv : (s.useFree).inv = s.inv := rfl
@[simp] theorem State.useFree_owed : (s.useFree).owed = s.owed := rfl
@[simp] theorem State.useFree_scb : (s.useFree).scb = s.scb := rfl
@[simp] theorem State.useFree_shapers : (s.useFree).shapers = s.shapers := rfl
@[simp] theorem State.useFree_meters : (s.useFree).meters = s.meters := rfl
@[simp] theorem State.useFree_frerLast : (s.useFree).frerLast = s.frerLast := rfl
@[simp] theorem State.useFree_trips : (s.useFree).trips = s.trips := rfl
@[simp] theorem State.useFree_links : (s.useFree).links = s.links := rfl
@[simp] theorem State.useFree_nits : (s.useFree).nits = s.nits := rfl
@[simp] theorem State.useFree_lands : (s.useFree).lands = s.lands := rfl
@[simp] theorem State.useFree_anl : (s.useFree).anl = s.anl := rfl
@[simp] theorem State.useFree_chans : (s.useFree).chans = s.chans := rfl
@[simp] theorem State.useFree_code : (s.useFree).code = s.code := rfl
@[simp] theorem State.useFree_seqStart : (s.useFree).seqStart = s.seqStart := rfl
@[simp] theorem State.useFree_granted : (s.useFree).granted = s.granted := rfl
@[simp] theorem State.useFree_parked : (s.useFree).parked = s.parked := rfl
@[simp] theorem State.useFree_movers : (s.useFree).movers = s.movers := rfl
@[simp] theorem State.useFree_bmvLast : (s.useFree).bmvLast = s.bmvLast := rfl
@[simp] theorem State.useFree_cand : (s.useFree).cand = s.cand := rfl
@[simp] theorem State.useFree_sealRun : (s.useFree).sealRun = s.sealRun := rfl
@[simp] theorem State.useFree_pulses : (s.useFree).pulses = s.pulses := rfl
@[simp] theorem State.useFree_pwr : (s.useFree).pwr = s.pwr := rfl
@[simp] theorem State.useFree_tap : (s.useFree).tap = s.tap := rfl
@[simp] theorem State.useFree_svc : (s.useFree).svc = s.svc := rfl

@[simp] theorem State.resetWords_pending (p : Nat → Bool) : (s.resetWords p).pending = s.pending := rfl
@[simp] theorem State.resetWords_msix (p : Nat → Bool) : (s.resetWords p).msix = s.msix := rfl
@[simp] theorem State.resetWords_shadow (p : Nat → Bool) : (s.resetWords p).shadow = s.shadow := rfl
@[simp] theorem State.resetWords_staged (p : Nat → Bool) : (s.resetWords p).staged = s.staged := rfl
@[simp] theorem State.resetWords_wo (p : Nat → Bool) : (s.resetWords p).wo = s.wo := rfl
@[simp] theorem State.resetWords_counter (p : Nat → Bool) : (s.resetWords p).counter = s.counter := rfl
@[simp] theorem State.resetWords_armings (p : Nat → Bool) : (s.resetWords p).armings = s.armings := rfl
@[simp] theorem State.resetWords_free (p : Nat → Bool) : (s.resetWords p).free = s.free := rfl
@[simp] theorem State.resetWords_out (p : Nat → Bool) : (s.resetWords p).out = s.out := rfl
@[simp] theorem State.resetWords_pins (p : Nat → Bool) : (s.resetWords p).pins = s.pins := rfl
@[simp] theorem State.resetWords_keptInstants (p : Nat → Bool) : (s.resetWords p).kept = s.kept := rfl
@[simp] theorem State.resetWords_injected (p : Nat → Bool) :
    (s.resetWords p).injected = dropWhere p s.injected := rfl
@[simp] theorem State.resetWords_touched (p : Nat → Bool) : (s.resetWords p).touched = s.touched := rfl
@[simp] theorem State.resetWords_brz (p : Nat → Bool) : (s.resetWords p).brz = s.brz := rfl
@[simp] theorem State.resetWords_sup (p : Nat → Bool) : (s.resetWords p).sup = s.sup := rfl
@[simp] theorem State.resetWords_rings (p : Nat → Bool) : (s.resetWords p).rings = s.rings := rfl
@[simp] theorem State.resetWords_slots (p : Nat → Bool) : (s.resetWords p).slots = s.slots := rfl
@[simp] theorem State.resetWords_stores (p : Nat → Bool) : (s.resetWords p).stores = s.stores := rfl
@[simp] theorem State.resetWords_fetchLast (p : Nat → Bool) : (s.resetWords p).fetchLast = s.fetchLast := rfl
@[simp] theorem State.resetWords_notices (p : Nat → Bool) : (s.resetWords p).notices = s.notices := rfl
@[simp] theorem State.resetWords_ports (p : Nat → Bool) : (s.resetWords p).ports = s.ports := rfl
@[simp] theorem State.resetWords_nextFrame (p : Nat → Bool) : (s.resetWords p).nextFrame = s.nextFrame := rfl
@[simp] theorem State.resetWords_fab (p : Nat → Bool) : (s.resetWords p).fab = s.fab := rfl
@[simp] theorem State.resetWords_heldHr (p : Nat → Bool) : (s.resetWords p).heldHr = s.heldHr := rfl
@[simp] theorem State.resetWords_inv (p : Nat → Bool) : (s.resetWords p).inv = s.inv := rfl
@[simp] theorem State.resetWords_owed (p : Nat → Bool) : (s.resetWords p).owed = s.owed := rfl
@[simp] theorem State.resetWords_scb (p : Nat → Bool) : (s.resetWords p).scb = s.scb := rfl
@[simp] theorem State.resetWords_shapers (p : Nat → Bool) : (s.resetWords p).shapers = s.shapers := rfl
@[simp] theorem State.resetWords_meters (p : Nat → Bool) : (s.resetWords p).meters = s.meters := rfl
@[simp] theorem State.resetWords_frerLast (p : Nat → Bool) : (s.resetWords p).frerLast = s.frerLast := rfl
@[simp] theorem State.resetWords_trips (p : Nat → Bool) : (s.resetWords p).trips = s.trips := rfl
@[simp] theorem State.resetWords_links (p : Nat → Bool) : (s.resetWords p).links = s.links := rfl
@[simp] theorem State.resetWords_nits (p : Nat → Bool) : (s.resetWords p).nits = s.nits := rfl
@[simp] theorem State.resetWords_lands (p : Nat → Bool) : (s.resetWords p).lands = s.lands := rfl
@[simp] theorem State.resetWords_anl (p : Nat → Bool) : (s.resetWords p).anl = s.anl := rfl
@[simp] theorem State.resetWords_chans (p : Nat → Bool) : (s.resetWords p).chans = s.chans := rfl
@[simp] theorem State.resetWords_code (p : Nat → Bool) : (s.resetWords p).code = s.code := rfl
@[simp] theorem State.resetWords_seqStart (p : Nat → Bool) : (s.resetWords p).seqStart = s.seqStart := rfl
@[simp] theorem State.resetWords_granted (p : Nat → Bool) : (s.resetWords p).granted = s.granted := rfl
@[simp] theorem State.resetWords_parked (p : Nat → Bool) : (s.resetWords p).parked = s.parked := rfl
@[simp] theorem State.resetWords_movers (p : Nat → Bool) : (s.resetWords p).movers = s.movers := rfl
@[simp] theorem State.resetWords_bmvLast (p : Nat → Bool) : (s.resetWords p).bmvLast = s.bmvLast := rfl
@[simp] theorem State.resetWords_cand (p : Nat → Bool) : (s.resetWords p).cand = s.cand := rfl
@[simp] theorem State.resetWords_sealRun (p : Nat → Bool) : (s.resetWords p).sealRun = s.sealRun := rfl
@[simp] theorem State.resetWords_pulses (p : Nat → Bool) : (s.resetWords p).pulses = s.pulses := rfl
@[simp] theorem State.resetWords_pwr (p : Nat → Bool) : (s.resetWords p).pwr = s.pwr := rfl
@[simp] theorem State.resetWords_tap (p : Nat → Bool) : (s.resetWords p).tap = s.tap := rfl
@[simp] theorem State.resetWords_svc (p : Nat → Bool) : (s.resetWords p).svc = s.svc := rfl

@[simp] theorem State.emit_out (o : Out) : (s.emit o).out = o :: s.out := rfl
@[simp] theorem State.useFree_free : s.useFree.free = s.free + 1 := rfl

/-! Updates that touch no register: every word reads as before. -/

@[simp] theorem State.emit_word (o : Out) (a : Nat) : (s.emit o).word a = s.word a := rfl
@[simp] theorem State.emit_rd (o : Out) (a : Nat) : (s.emit o).rd a = s.rd a := rfl
@[simp] theorem State.emit_fget (o : Out) (g : Fld) : (s.emit o).fget g = s.fget g := rfl
@[simp] theorem State.emit_flag (o : Out) (g : Fld) : (s.emit o).flag g = s.flag g := rfl
@[simp] theorem State.pin_word (k v : Nat) (a : Nat) : (s.pin k v).word a = s.word a := rfl
@[simp] theorem State.pin_rd (k v : Nat) (a : Nat) : (s.pin k v).rd a = s.rd a := rfl
@[simp] theorem State.pin_fget (k v : Nat) (g : Fld) : (s.pin k v).fget g = s.fget g := rfl
@[simp] theorem State.pin_flag (k v : Nat) (g : Fld) : (s.pin k v).flag g = s.flag g := rfl
@[simp] theorem State.useFree_word (a : Nat) : (s.useFree).word a = s.word a := rfl
@[simp] theorem State.useFree_rd (a : Nat) : (s.useFree).rd a = s.rd a := rfl
@[simp] theorem State.useFree_fget (g : Fld) : (s.useFree).fget g = s.fget g := rfl
@[simp] theorem State.useFree_flag (g : Fld) : (s.useFree).flag g = s.flag g := rfl
@[simp] theorem State.onInv_word (f : Inv → Inv) (a : Nat) : (s.onInv f).word a = s.word a := rfl
@[simp] theorem State.onInv_rd (f : Inv → Inv) (a : Nat) : (s.onInv f).rd a = s.rd a := rfl
@[simp] theorem State.onInv_fget (f : Inv → Inv) (g : Fld) : (s.onInv f).fget g = s.fget g := rfl
@[simp] theorem State.onInv_flag (f : Inv → Inv) (g : Fld) : (s.onInv f).flag g = s.flag g := rfl
@[simp] theorem State.setMac_word (p : Nat) (x : MacPort) (a : Nat) : (s.setMac p x).word a = s.word a := rfl
@[simp] theorem State.setMac_rd (p : Nat) (x : MacPort) (a : Nat) : (s.setMac p x).rd a = s.rd a := rfl
@[simp] theorem State.setMac_fget (p : Nat) (x : MacPort) (g : Fld) : (s.setMac p x).fget g = s.fget g := rfl
@[simp] theorem State.setMac_flag (p : Nat) (x : MacPort) (g : Fld) : (s.setMac p x).flag g = s.flag g := rfl
@[simp] theorem State.setRing_word (r : Nat) (x : Ring) (a : Nat) : (s.setRing r x).word a = s.word a := rfl
@[simp] theorem State.setRing_rd (r : Nat) (x : Ring) (a : Nat) : (s.setRing r x).rd a = s.rd a := rfl
@[simp] theorem State.setRing_fget (r : Nat) (x : Ring) (g : Fld) : (s.setRing r x).fget g = s.fget g := rfl
@[simp] theorem State.setRing_flag (r : Nat) (x : Ring) (g : Fld) : (s.setRing r x).flag g = s.flag g := rfl
@[simp] theorem State.setLink_word (q : Nat) (x : Link) (a : Nat) : (s.setLink q x).word a = s.word a := rfl
@[simp] theorem State.setLink_rd (q : Nat) (x : Link) (a : Nat) : (s.setLink q x).rd a = s.rd a := rfl
@[simp] theorem State.setLink_fget (q : Nat) (x : Link) (g : Fld) : (s.setLink q x).fget g = s.fget g := rfl
@[simp] theorem State.setLink_flag (q : Nat) (x : Link) (g : Fld) : (s.setLink q x).flag g = s.flag g := rfl
@[simp] theorem State.setNit_word (q : Nat) (x : Nit) (a : Nat) : (s.setNit q x).word a = s.word a := rfl
@[simp] theorem State.setNit_rd (q : Nat) (x : Nit) (a : Nat) : (s.setNit q x).rd a = s.rd a := rfl
@[simp] theorem State.setNit_fget (q : Nat) (x : Nit) (g : Fld) : (s.setNit q x).fget g = s.fget g := rfl
@[simp] theorem State.setNit_flag (q : Nat) (x : Nit) (g : Fld) : (s.setNit q x).flag g = s.flag g := rfl
@[simp] theorem State.setMover_word (n : Nat) (x : Mover) (a : Nat) : (s.setMover n x).word a = s.word a := rfl
@[simp] theorem State.setMover_rd (n : Nat) (x : Mover) (a : Nat) : (s.setMover n x).rd a = s.rd a := rfl
@[simp] theorem State.setMover_fget (n : Nat) (x : Mover) (g : Fld) : (s.setMover n x).fget g = s.fget g := rfl
@[simp] theorem State.setMover_flag (n : Nat) (x : Mover) (g : Fld) : (s.setMover n x).flag g = s.flag g := rfl
@[simp] theorem State.setShadow_word (q : Requester) (a n : Nat) (a : Nat) : (s.setShadow q a n).word a = s.word a := rfl
@[simp] theorem State.setShadow_rd (q : Requester) (a n : Nat) (a : Nat) : (s.setShadow q a n).rd a = s.rd a := rfl
@[simp] theorem State.setShadow_fget (q : Requester) (a n : Nat) (g : Fld) : (s.setShadow q a n).fget g = s.fget g := rfl
@[simp] theorem State.setShadow_flag (q : Requester) (a n : Nat) (g : Fld) : (s.setShadow q a n).flag g = s.flag g := rfl
@[simp] theorem State.stage_word (q : Requester) (a : Nat) (v : Option Nat) (a : Nat) : (s.stage q a v).word a = s.word a := rfl
@[simp] theorem State.stage_rd (q : Requester) (a : Nat) (v : Option Nat) (a : Nat) : (s.stage q a v).rd a = s.rd a := rfl
@[simp] theorem State.stage_fget (q : Requester) (a : Nat) (v : Option Nat) (g : Fld) : (s.stage q a v).fget g = s.fget g := rfl
@[simp] theorem State.stage_flag (q : Requester) (a : Nat) (v : Option Nat) (g : Fld) : (s.stage q a v).flag g = s.flag g := rfl
@[simp] theorem State.pulse_word (id a : Nat) : (s.pulse id).word a = s.word a := by
  unfold State.pulse State.when
  cases s.ready 47 <;> rfl

end Sys2Proof.Machine
end

