-- ==== Sys2Proof/Laws/Frame.lean ====
section
/-! SUPPORT. Laws of the frames: how register writes build up a change of a few words only. -/

set_option Elab.async false

namespace Sys2Proof.Machine

variable {l : List Nat} {s t : State}

theorem OnlyWords.refl : OnlyWords l s s := ⟨rfl, fun _ _ => rfl⟩

/-- A write of a listed word. -/
theorem OnlyWords.wr {a : Nat} (h : OnlyWords l s t) (ha : a ∈ l) (n : Nat) : OnlyWords l s (t.wr a n) :=
  ⟨h.1, fun b hb => (State.word_wr_ne (show b ≠ a from fun e => hb (by rw [e]; exact ha)) t n).trans (h.2 b hb)⟩

/-- A write of a field of a listed word. -/
theorem OnlyWords.fput {f : Fld} (h : OnlyWords l s t) (hf : f.addr ∈ l) (n : Nat) : OnlyWords l s (t.fput f n) :=
  h.wr hf _

theorem OnlyWords.fset {f : Fld} (h : OnlyWords l s t) (hf : f.addr ∈ l) (b : Bool) : OnlyWords l s (t.fset f b) :=
  h.wr hf _

theorem OnlyWords.cond {u : State} {b : Bool} (ht : OnlyWords l s t) (hu : OnlyWords l s u) :
    OnlyWords l s (bif b then t else u) := by cases b <;> assumption

theorem OnlyWords.when {b : Bool} {f : State → State} (ht : OnlyWords l s t) (hf : OnlyWords l s (f t)) :
    OnlyWords l s (t.when b f) := OnlyWords.cond hf ht

theorem OnlyWords.rd {a : Nat} (h : OnlyWords l s t) (ha : a ∉ l) : t.rd a = s.rd a :=
  congrArg BitVec.toNat (h.2 a ha)

theorem OnlyWords.fget {f : Fld} (h : OnlyWords l s t) (hf : f.addr ∉ l) : t.fget f = s.fget f := by
  simp only [State.fget, h.rd hf]

theorem OnlyWords.mono {m : List Nat} (h : OnlyWords l s t) (hm : ∀ a, a ∈ l → a ∈ m) : OnlyWords m s t :=
  ⟨h.1, fun a ha => h.2 a (fun hl => ha (hm a hl))⟩

theorem State.when_true {b : Bool} (h : b = true) (s : State) (f : State → State) : s.when b f = f s := by
  subst h; rfl

theorem State.when_false {b : Bool} (h : b = false) (s : State) (f : State → State) : s.when b f = s := by
  subst h; rfl

/-- A command reaches a register that answers, and no other. -/
theorem State.atReg_reached {a : Nat} (h : s.reaches a = true) (f : State → State) : s.atReg a f = f s :=
  State.when_true h s f

theorem State.atReg_unreached {a : Nat} (h : s.reaches a = false) (f : State → State) : s.atReg a f = s :=
  State.when_false h s f

theorem State.atDom_ready {n : Nat} (h : s.ready n = true) (f : State → State) : s.atDom n f = f s :=
  State.when_true h s f

theorem State.atDom_off {n : Nat} (h : s.ready n = false) (f : State → State) : s.atDom n f = s :=
  State.when_false h s f

end Sys2Proof.Machine
end

