-- ==== Sys2Proof/Laws/Kept.lean ====
section
/-! SUPPORT. What every operation of the block keeps: the queue of waiting commands, and the soundness of the state.
The base lemmas; the lemmas of the operations follow in the files beside this one. -/

set_option Elab.async false

namespace Sys2Proof.Machine

/-- From `z` to `s` the queue is as before, and a sound state stays sound. -/
def Kept (z s : State) : Prop := s.pending = z.pending ∧ (z.Sound → s.Sound)

/-- A command is answered by a next state to which the block has kept what it keeps. -/
def Answered (z : State) (o : Host.Outcome State Fault Refusal) : Prop := ∃ t, o = .next t ∧ Kept z t

variable {z s : State}

theorem Kept.refl (s : State) : Kept s s := ⟨rfl, id⟩

/-- An update of parts that neither the queue nor soundness reads. -/
theorem Kept.same {t : State} (h : Kept z s) (hp : t.pending = s.pending) (hr : t.regs = s.regs)
    (hm : t.msix = s.msix) (hi : t.pins = s.pins) (hk : t.brz.keep = s.brz.keep) (hc : t.code = s.code) :
    Kept z t := by
  refine ⟨hp.trans h.1, fun hz => ?_⟩
  have hs := h.2 hz
  unfold State.Sound at hs ⊢
  rw [hr, hm, hi, hk, hc]
  exact hs

/-- An update of parts that neither the queue nor soundness reads. -/
theorem Kept.upd {x_shadow : Table Nat} {x_staged : Table Nat} {x_wo : Table Nat} {x_counter : Nat}
    {x_armings : Nat} {x_free : Nat} {x_out : List Out} {x_kept : Table (List Nat)} {x_injected : Table Nat}
    {x_touched : List Nat} {b : Brz} {x_sup : Sup} {x_rings : Table Ring} {x_slots : Option (List (Nat × Bool))}
    {x_stores : Table Nat} {x_fetchLast : Table Nat} {x_notices : Table Notices} {x_ports : Table MacPort}
    {x_nextFrame : Nat} {x_fab : Fab} {x_heldHr : List (Nat × HalfRange)} {x_inv : Inv} {x_owed : Table TxOwe}
    {x_scb : Scb} {x_shapers : Table Shaper} {x_meters : Table Meter} {x_frerLast : Table Nat}
    {x_trips : List Trip} {x_links : Table Link} {x_nits : Table Nit} {x_lands : Table Landing}
    {x_anl : Table Anl} {x_chans : Table Chan} {x_seqStart : Option Nat} {x_granted : Table Nat}
    {x_parked : List (Nat × Out)} {x_movers : Table Mover} {x_bmvLast : Nat} {x_cand : Table Nat}
    {x_sealRun : Table Nat} {x_pulses : List Nat} {x_pwr : Pwr} {x_tap : Tap} {x_svc : List SvcAccess}
    (h : Kept z s) (hk : b.keep = s.brz.keep) : Kept z ⟨s.pending, s.regs, s.msix, x_shadow, x_staged, x_wo,
      x_counter, x_armings, x_free, x_out, s.pins, x_kept, x_injected, x_touched, b, x_sup, x_rings, x_slots,
      x_stores, x_fetchLast, x_notices, x_ports, x_nextFrame, x_fab, x_heldHr, x_inv, x_owed, x_scb, x_shapers,
      x_meters, x_frerLast, x_trips, x_links, x_nits, x_lands, x_anl, x_chans, s.code, x_seqStart, x_granted,
      x_parked, x_movers, x_bmvLast, x_cand, x_sealRun, x_pulses, x_pwr, x_tap, x_svc⟩ :=
    Kept.same h rfl rfl rfl rfl hk rfl

theorem Kept.cond {x y : State} {b : Bool} (hx : Kept z x) (hy : Kept z y) : Kept z (bif b then x else y) := by
  cases b <;> assumption

theorem Kept.condFst {α : Type} {x y : State × α} {b : Bool} (hx : Kept z x.1) (hy : Kept z y.1) :
    Kept z (bif b then x else y).1 := by
  cases b <;> assumption

theorem Kept.condSnd {α : Type} {x y : α × State} {b : Bool} (hx : Kept z x.2) (hy : Kept z y.2) :
    Kept z (bif b then x else y).2 := by
  cases b <;> assumption

theorem Kept.fold {α : Type} {l : List α} {f : State → α → State} (h : Kept z s)
    (hf : ∀ t x, Kept z t → Kept z (f t x)) : Kept z (l.foldl f s) := by
  induction l generalizing s with
  | nil => exact h
  | cons x l ih => exact ih (hf s x h)

theorem Kept.foldFst {α β : Type} {l : List α} {f : State × β → α → State × β} {i : State × β} (h : Kept z i.1)
    (hf : ∀ t x, Kept z t.1 → Kept z (f t x).1) : Kept z (l.foldl f i).1 := by
  induction l generalizing i with
  | nil => exact h
  | cons x l ih => exact ih (hf i x h)

theorem Kept.foldSnd {α β : Type} {l : List α} {f : β × State → α → β × State} {i : β × State} (h : Kept z i.2)
    (hf : ∀ t x, Kept z t.2 → Kept z (f t x).2) : Kept z (l.foldl f i).2 := by
  induction l generalizing i with
  | nil => exact h
  | cons x l ih => exact ih (hf i x h)

theorem regsOk_put {r : Table Word} (h : regsOk r) (a n : Nat) :
    regsOk (Table.put (resetWord a) (BitVec.ofNat 32 (n &&& implOf a)) a r) := by
  refine ⟨Table.wf_put h.1 _ _, fun x hx => ?_⟩
  have key : ∀ x ∈ Table.place a (BitVec.ofNat 32 (n &&& implOf a)) (Table.drop a r),
      x.2.toNat &&& implOf x.1 = x.2.toNat := by
    intro x hx
    rcases Table.mem_place.mp hx with rfl | hx
    · simp only [BitVec.toNat_ofNat, Nat.mod_eq_of_lt (and_impl_lt n a), Nat.and_assoc, Nat.and_self]
    · exact h.2 x (Table.mem_drop.mp hx).1
  unfold Table.put at hx
  split at hx
  · exact h.2 x (Table.mem_drop.mp hx).1
  · exact key x hx

theorem regsOk_filter {r : Table Word} (h : regsOk r) (p : Nat × Word → Bool) : regsOk (r.filter p) :=
  ⟨Table.wf_filter h.1 p, fun x hx => h.2 x (List.mem_of_mem_filter hx)⟩

theorem dropWhere_eq_filter (p : Nat → Bool) (r : Table Word) : dropWhere p r = r.filter (fun x => !p x.1) := by
  induction r with
  | nil => rfl
  | cons x r ih => simp only [dropWhere, List.filter]; cases p x.1 <;> simp [ih]

theorem State.wr_kept {a n : Nat} (h : Kept z s) : Kept z (s.wr a n) :=
  ⟨h.1, fun hz => ⟨regsOk_put (h.2 hz).1 a n, (h.2 hz).2⟩⟩

theorem State.resetWords_kept {p : Nat → Bool} (h : Kept z s) : Kept z (s.resetWords p) :=
  ⟨h.1, fun hz => ⟨by simpa only [State.resetWords, dropWhere_eq_filter] using regsOk_filter (h.2 hz).1 _, (h.2 hz).2⟩⟩

theorem State.pin_kept {k v : Nat} (h : Kept z s) : Kept z (s.pin k v) :=
  ⟨h.1, fun hz => ⟨(h.2 hz).1, (h.2 hz).2.1, Table.wf_put (h.2 hz).2.2.1 v k, (h.2 hz).2.2.2⟩⟩

theorem msixReset_at (h o : Nat) : msixReset (0x20000 * h + o) = msixReset o := by
  unfold msixReset
  rw [Nat.mul_add_mod]
  have : (0x20000 * h + o) % 16 = o % 16 := by omega
  rw [this]

theorem State.setMsix_kept {k o n : Nat} (h : Kept z s) : Kept z (s.setMsix k o n) := by
  refine ⟨h.1, fun hz => ⟨(h.2 hz).1, ?_, (h.2 hz).2.2⟩⟩
  have := Table.wf_put (h.2 hz).2.1 n (0x20000 * k + o)
  rwa [msixReset_at] at this

theorem Kept.dropMsix {p : Nat → Bool} (h : Kept z s) : Kept z { s with msix := without p s.msix } :=
  ⟨h.1, fun hz => ⟨(h.2 hz).1, Table.wf_filter (h.2 hz).2.1 _, (h.2 hz).2.2⟩⟩

theorem Kept.codeNone {x : Table Nat} (h : Kept z s) : Kept z { s with code := [], injected := x } :=
  ⟨h.1, fun hz => ⟨(h.2 hz).1, (h.2 hz).2.1, (h.2 hz).2.2.1, (h.2 hz).2.2.2.1, Table.wf_nil _⟩⟩

theorem Kept.codePut {n w : Nat} (h : Kept z s) : Kept z { s with code := Table.put 0 n w s.code } :=
  ⟨h.1, fun hz => ⟨(h.2 hz).1, (h.2 hz).2.1, (h.2 hz).2.2.1, (h.2 hz).2.2.2.1, Table.wf_put (h.2 hz).2.2.2.2 n w⟩⟩

theorem eachOf_kept {α : Type} {l : List α} {f : α → State → State} (h : Kept z s)
    (hf : ∀ x t, Kept z t → Kept z (f x t)) : Kept z (eachOf l f s) := by
  unfold eachOf
  induction l generalizing s with
  | nil => exact h
  | cons x l ih => exact ih (hf x s h)

theorem forUpTo_kept {n : Nat} {f : Nat → State → State} (h : Kept z s)
    (hf : ∀ x t, Kept z t → Kept z (f x t)) : Kept z (forUpTo n f s) := eachOf_kept h hf

theorem State.when_kept {b : Bool} {f : State → State} (h : Kept z s) (hf : ∀ t, Kept z t → Kept z (f t)) :
    Kept z (s.when b f) := Kept.cond (hf s h) h

end Sys2Proof.Machine
end

