-- ==== Sys2Proof/Laws/KeptBase.lean ====
section
/-! SUPPORT. What the operations of Ops, Flags, RingOps, Domains, TimeOps, Bmca, Store keep: the queue, and a sound state. -/

set_option Elab.async false

namespace Sys2Proof.Machine

variable {z s : State}

theorem State.fput_kept {f : Fld} {n : Nat} (h : Kept z s) :
    Kept z (State.fput s f n) := by
  unfold State.fput
  with_reducible repeat' first
    | assumption | refine wr_kept ?_

theorem State.fset_kept {f : Fld} {b : Bool} (h : Kept z s) :
    Kept z (State.fset s f b) := by
  unfold State.fset
  with_reducible repeat' first
    | assumption | refine fput_kept ?_

theorem State.clr_kept {a mask : Nat} (h : Kept z s) :
    Kept z (State.clr s a mask) := by
  unfold State.clr
  with_reducible repeat' first
    | assumption | refine wr_kept ?_

theorem State.orw_kept {a mask : Nat} (h : Kept z s) :
    Kept z (State.orw s a mask) := by
  unfold State.orw
  with_reducible repeat' first
    | assumption | refine wr_kept ?_

theorem State.emit_kept {o : Out} (h : Kept z s) :
    Kept z (State.emit s o) := by
  unfold State.emit
  with_reducible repeat' first
    | assumption | refine Kept.upd ?_ rfl

theorem State.useFree_kept (h : Kept z s) :
    Kept z (State.useFree s) := by
  unfold State.useFree
  with_reducible repeat' first
    | assumption | refine Kept.upd ?_ rfl

theorem State.cnt_kept {a : Nat} (h : Kept z s) :
    Kept z (State.cnt s a) := by
  unfold State.cnt
  with_reducible repeat' first
    | assumption | refine wr_kept ?_

theorem State.cntF_kept {f : Fld} (h : Kept z s) :
    Kept z (State.cntF s f) := by
  unfold State.cntF
  with_reducible repeat' first
    | assumption | refine fput_kept ?_

theorem State.wideAdd_kept {a width k : Nat} (h : Kept z s) :
    Kept z (State.wideAdd s a width k) := by
  unfold State.wideAdd
  with_reducible repeat' first
    | assumption | refine wr_kept ?_

theorem State.brzLose_kept (h : Kept z s) :
    Kept z (State.brzLose s) := by
  unfold State.brzLose
  with_reducible repeat' first
    | assumption | refine cnt_kept ?_ | refine Kept.upd ?_ rfl | dsimp only

theorem State.brzJoin_kept {e : BrzEntry} (h : Kept z s) :
    Kept z (State.brzJoin s e) := by
  unfold State.brzJoin
  with_reducible repeat' first
    | assumption | refine Kept.upd ?_ rfl

theorem State.suppress_kept {code : Nat} (h : Kept z s) :
    Kept z (State.suppress s code) := by
  unfold State.suppress
  with_reducible repeat' first
    | assumption | refine when_kept ?_ ?_ | refine cnt_kept ?_ | refine cntF_kept ?_ | refine Kept.upd ?_ rfl
    | (intro _ _; intros; beta_reduce) | dsimp only

theorem State.countWindow_kept {code : Nat} (h : Kept z s) :
    Kept z (State.countWindow s code) := by
  unfold State.countWindow
  with_reducible repeat' first
    | assumption | refine Kept.upd ?_ rfl

theorem State.defAccess_kept {addr master : Nat} {write iso hxl : Bool} (h : Kept z s) :
    Kept z (State.defAccess s addr master write iso hxl) := by
  unfold State.defAccess
  with_reducible repeat' first
    | assumption | refine cnt_kept ?_ | refine wr_kept ?_ | refine Kept.cond ?_ ?_ | dsimp only

theorem State.grant_kept {m t1 : Nat} (h : Kept z s) :
    Kept z (State.grant s m t1) := by
  unfold State.grant
  with_reducible repeat' first
    | assumption | refine Kept.upd ?_ rfl

theorem State.outstanding_kept {m : Nat} {write : Bool} (h : Kept z s) :
    Kept z (State.outstanding s m write) := by
  unfold State.outstanding
  with_reducible repeat' first
    | assumption | refine fput_kept ?_

theorem State.issueParked_kept {m : Nat} {write : Bool} {y3 : Nat} (h : Kept z s) :
    Kept z (State.issueParked s m write y3) := by
  induction y3 generalizing m write s with
  | zero => exact h
  | succ n ih =>
  rw [State.issueParked]
  with_reducible repeat' first
    | assumption | refine ih ?_ | refine emit_kept ?_ | refine outstanding_kept ?_ | refine Kept.cond ?_ ?_ | split
    | refine Kept.upd ?_ rfl

theorem State.request_kept {m : Nat} {o : Out} (h : Kept z s) :
    Kept z (State.request s m o) := by
  unfold State.request
  with_reducible repeat' first
    | assumption | refine issueParked_kept ?_ | refine when_kept ?_ ?_ | refine cnt_kept ?_ | refine Kept.upd ?_ rfl
    | (intro _ _; intros; beta_reduce)

theorem State.transEnd_kept {m : Nat} {write : Bool} {k : Nat} (h : Kept z s) :
    Kept z (State.transEnd s m write k) := by
  unfold State.transEnd
  with_reducible repeat' first
    | assumption | refine issueParked_kept ?_ | refine fput_kept ?_

theorem State.readIn_kept {m : Nat} (h : Kept z s) :
    Kept z (State.readIn s m) := by
  unfold State.readIn
  with_reducible repeat' first
    | assumption | refine transEnd_kept ?_

theorem State.hostBus_kept {h1 addr master : Nat} {write : Bool} {o : Out} (h : Kept z s) :
    Kept z (State.hostBus s h1 addr master write o) := by
  unfold State.hostBus
  with_reducible repeat' first
    | assumption | refine request_kept ?_ | refine grant_kept ?_ | refine outstanding_kept ?_
    | refine defAccess_kept ?_ | refine Kept.cond ?_ ?_

theorem State.fromQuad_kept {q : Nat} {f : State → State} (h : Kept z s) (hf : ∀ t, Kept z t → Kept z (f t)) :
    Kept z (State.fromQuad s q f) := by
  unfold State.fromQuad
  with_reducible repeat' first
    | assumption | exact hf _ (by assumption) | refine when_kept ?_ ?_ | (intro _ _; intros; beta_reduce) | apply hf

theorem State.toQuad_kept {q : Nat} {f : State → State} (h : Kept z s) (hf : ∀ t, Kept z t → Kept z (f t)) :
    Kept z (State.toQuad s q f) := by
  unfold State.toQuad
  with_reducible repeat' first
    | assumption | exact hf _ (by assumption) | refine when_kept ?_ ?_ | (intro _ _; intros; beta_reduce) | apply hf

theorem State.sendMsix_kept {h1 v : Nat} (h : Kept z s) :
    Kept z (State.sendMsix s h1 v) := by
  unfold State.sendMsix
  with_reducible repeat' first
    | assumption | refine setMsix_kept ?_ | refine emit_kept ?_ | refine Kept.cond ?_ ?_

theorem State.setRing_kept {r : Nat} {x : Ring} (h : Kept z s) :
    Kept z (State.setRing s r x) := by
  unfold State.setRing
  with_reducible repeat' first
    | assumption | refine Kept.upd ?_ rfl

theorem State.ringIrq_kept {r : Nat} (h : Kept z s) :
    Kept z (State.ringIrq s r) := by
  unfold State.ringIrq
  with_reducible repeat' first
    | assumption | refine setRing_kept ?_ | refine sendMsix_kept ?_ | refine Kept.cond ?_ ?_

theorem State.slotNow_kept {r : Nat} {irq : Bool} (h : Kept z s) :
    Kept z (State.slotNow s r irq) := by
  unfold State.slotNow
  with_reducible repeat' first
    | assumption | refine hostBus_kept ?_ | refine when_kept ?_ ?_ | refine setRing_kept ?_ | refine ringIrq_kept ?_
    | refine Kept.cond ?_ ?_ | (intro _ _; intros; beta_reduce) | dsimp only

theorem State.slotWrite_kept {r : Nat} {irq : Bool} (h : Kept z s) :
    Kept z (State.slotWrite s r irq) := by
  unfold State.slotWrite
  with_reducible repeat' first
    | assumption | refine slotNow_kept ?_ | split | refine Kept.upd ?_ rfl

theorem State.oneSlot_kept {f : State → State} (h : Kept z s) (hf : ∀ t, Kept z t → Kept z (f t)) :
    Kept z (State.oneSlot s f) := by
  have h1 : Kept z { s with slots := some [] } := Kept.upd h rfl
  have h2 := hf _ h1
  unfold State.oneSlot
  refine Kept.cond (hf _ h) ?_
  extract_lets +onlyGivenNames t
  have h3 : Kept z t := h2
  clear_value t
  have h4 : Kept z { t with slots := none } := Kept.upd h3 rfl
  exact eachOf_kept h4 fun x u hu => State.slotNow_kept hu

theorem State.putNotice_kept {h1 code block ns sec index : Nat} {args : List Nat} (h : Kept z s) :
    Kept z (State.putNotice s h1 code block ns sec index args) := by
  unfold State.putNotice
  with_reducible repeat' first
    | assumption | exact Kept.upd (by assumption) rfl
    | (extract_lets +onlyGivenNames x; first | (have hx : Kept z x := (by unfold x; clear x; repeat' first | assumption | exact Kept.upd (by assumption) rfl | refine hostBus_kept ?_ | refine wr_kept ?_ | refine Kept.upd ?_ rfl); clear_value x) | clear_value x)
    | refine hostBus_kept ?_ | refine wr_kept ?_ | refine Kept.upd ?_ rfl

theorem State.loseNotice_kept {h1 code t1 : Nat} (h : Kept z s) :
    Kept z (State.loseNotice s h1 code t1) := by
  unfold State.loseNotice
  with_reducible repeat' first
    | assumption | exact Kept.upd (by assumption) rfl
    | (extract_lets +onlyGivenNames x; first | (have hx : Kept z x := (by unfold x; clear x; repeat' first | assumption | exact Kept.upd (by assumption) rfl | refine fset_kept ?_ | refine cnt_kept ?_ | refine Kept.cond ?_ ?_ | refine Kept.upd ?_ rfl); clear_value x) | clear_value x)
    | refine fset_kept ?_ | refine cnt_kept ?_ | refine Kept.cond ?_ ?_ | refine Kept.upd ?_ rfl

theorem State.putSummary_kept {h1 : Nat} (h : Kept z s) :
    Kept z (State.putSummary s h1) := by
  unfold State.putSummary
  with_reducible repeat' first
    | assumption | refine fset_kept ?_ | refine putNotice_kept ?_ | dsimp only

theorem State.noticeTo_kept {h1 code block index : Nat} {args : List Nat} (h : Kept z s) :
    Kept z (State.noticeTo s h1 code block index args) := by
  unfold State.noticeTo
  with_reducible repeat' first
    | assumption | refine slotWrite_kept ?_ | refine putNotice_kept ?_ | refine putSummary_kept ?_
    | refine loseNotice_kept ?_ | refine Kept.cond ?_ ?_ | dsimp only

theorem State.notice_kept {code block index : Nat} {args : List Nat} (h : Kept z s) :
    Kept z (State.notice s code block index args) := by
  unfold State.notice
  with_reducible repeat' first
    | assumption | refine noticeTo_kept ?_

theorem State.driveFault_kept (h : Kept z s) :
    Kept z (State.driveFault s) := by
  unfold State.driveFault
  with_reducible repeat' first
    | assumption | refine pin_kept ?_ | refine fset_kept ?_ | refine Kept.cond ?_ ?_

theorem State.latchOne_kept {n cause : Nat} (h : Kept z s) :
    Kept z (State.latchOne s n cause) := by
  unfold State.latchOne
  with_reducible repeat' first
    | assumption | refine cntF_kept ?_ | refine fput_kept ?_ | refine fset_kept ?_

theorem State.firstUpdate_kept {rs : List (Nat × Nat)} (h : Kept z s) :
    Kept z (State.firstUpdate s rs) := by
  unfold State.firstUpdate
  with_reducible repeat' first
    | assumption | refine fset_kept ?_ | refine wr_kept ?_ | refine Kept.cond ?_ ?_

theorem State.brzOverflow_kept (h : Kept z s) :
    Kept z (State.brzOverflow s) := by
  unfold State.brzOverflow
  with_reducible repeat' first
    | assumption | refine latchOne_kept ?_ | refine driveFault_kept ?_ | refine brzLose_kept ?_
    | refine firstUpdate_kept ?_ | refine when_kept ?_ ?_ | refine notice_kept ?_ | refine Kept.cond ?_ ?_
    | (intro _ _; intros; beta_reduce) | dsimp only

theorem State.brzEvent_kept {code block index arg0 arg1 : Nat} (h : Kept z s) :
    Kept z (State.brzEvent s code block index arg0 arg1) := by
  unfold State.brzEvent
  with_reducible repeat' first
    | assumption | refine suppress_kept ?_ | refine brzOverflow_kept ?_ | refine brzLose_kept ?_
    | refine brzJoin_kept ?_ | refine countWindow_kept ?_ | refine Kept.cond ?_ ?_

theorem State.sourceEvent_kept {n cause : Nat} (h : Kept z s) :
    Kept z (State.sourceEvent s n cause) := by
  unfold State.sourceEvent
  with_reducible repeat' first
    | assumption | refine when_kept ?_ ?_ | refine brzEvent_kept ?_ | refine notice_kept ?_
    | (intro _ _; intros; beta_reduce)

theorem State.startGrace_kept {n : Nat} (h : Kept z s) :
    Kept z (State.startGrace s n) := by
  unfold State.startGrace
  with_reducible repeat' first
    | assumption | refine when_kept ?_ ?_ | refine fset_kept ?_ | (intro _ _; intros; beta_reduce)

theorem State.latch_kept {rs : List (Nat × Nat)} (h : Kept z s) :
    Kept z (State.latch s rs) := by
  unfold State.latch
  with_reducible repeat' first
    | assumption
    | (extract_lets +onlyGivenNames x; first | (have hx : Kept z x := (by unfold x; clear x; repeat' first | assumption | refine firstUpdate_kept ?_ | refine eachOf_kept ?_ ?_ | refine latchOne_kept ?_ | refine startGrace_kept ?_ | refine sourceEvent_kept ?_ | refine driveFault_kept ?_ | refine Kept.cond ?_ ?_ | refine Kept.foldSnd ?_ ?_ | refine Kept.fold ?_ ?_ | (intro _ _; intros; beta_reduce) | (intro _ _; intros; beta_reduce)); clear_value x) | clear_value x)
    | refine firstUpdate_kept ?_ | refine eachOf_kept ?_ ?_ | refine latchOne_kept ?_ | refine startGrace_kept ?_
    | refine sourceEvent_kept ?_ | refine driveFault_kept ?_ | refine Kept.cond ?_ ?_ | refine Kept.foldSnd ?_ ?_
    | refine Kept.fold ?_ ?_ | (intro _ _; intros; beta_reduce)

theorem State.corrected_kept {n causeBit : Nat} (h : Kept z s) :
    Kept z (State.corrected s n causeBit) := by
  unfold State.corrected
  with_reducible repeat' first
    | assumption | refine latch_kept ?_

theorem State.evtBit_kept {evt en j code block index arg0 arg1 : Nat} (h : Kept z s) :
    Kept z (State.evtBit s evt en j code block index arg0 arg1) := by
  unfold State.evtBit
  with_reducible repeat' first
    | assumption | refine when_kept ?_ ?_ | refine brzEvent_kept ?_ | refine orw_kept ?_ | refine notice_kept ?_
    | (intro _ _; intros; beta_reduce)

theorem State.quadEvt_kept {q evt en j code block index arg0 arg1 : Nat} (h : Kept z s) :
    Kept z (State.quadEvt s q evt en j code block index arg0 arg1) := by
  unfold State.quadEvt
  with_reducible repeat' first
    | assumption | refine orw_kept ?_ | refine evtBit_kept ?_ | refine Kept.cond ?_ ?_

theorem State.macEvent_kept {p j : Nat} (h : Kept z s) :
    Kept z (State.macEvent s p j) := by
  unfold State.macEvent
  with_reducible repeat' first
    | assumption | refine quadEvt_kept ?_

theorem State.grfEvent_kept {q j : Nat} (h : Kept z s) :
    Kept z (State.grfEvent s q j) := by
  unfold State.grfEvent
  with_reducible repeat' first
    | assumption | refine quadEvt_kept ?_

theorem State.nitEvent_kept {q j index cause count : Nat} (h : Kept z s) :
    Kept z (State.nitEvent s q j index cause count) := by
  unfold State.nitEvent
  with_reducible repeat' first
    | assumption | refine quadEvt_kept ?_

theorem State.scbEvent_kept {j : Nat} (h : Kept z s) :
    Kept z (State.scbEvent s j) := by
  unfold State.scbEvent
  with_reducible repeat' first
    | assumption | refine evtBit_kept ?_

theorem State.fabEvent_kept {j tag result map : Nat} (h : Kept z s) :
    Kept z (State.fabEvent s j tag result map) := by
  unfold State.fabEvent
  with_reducible repeat' first
    | assumption | refine evtBit_kept ?_

theorem State.polEvent_kept {j monitor st moves : Nat} (h : Kept z s) :
    Kept z (State.polEvent s j monitor st moves) := by
  unfold State.polEvent
  with_reducible repeat' first
    | assumption | refine evtBit_kept ?_

theorem State.anlEvent_kept {kind q group result : Nat} (h : Kept z s) :
    Kept z (State.anlEvent s kind q group result) := by
  unfold State.anlEvent
  with_reducible repeat' first
    | assumption | refine evtBit_kept ?_

theorem State.anlHalfRange_kept (h : Kept z s) :
    Kept z (State.anlHalfRange s) := by
  unfold State.anlHalfRange
  with_reducible repeat' first
    | assumption | refine when_kept ?_ ?_ | refine orw_kept ?_ | refine useFree_kept ?_ | refine notice_kept ?_
    | (intro _ _; intros; beta_reduce)

theorem State.cbsEvent_kept {c j index st cycles : Nat} (h : Kept z s) :
    Kept z (State.cbsEvent s c j index st cycles) := by
  unfold State.cbsEvent
  with_reducible repeat' first
    | assumption | refine evtBit_kept ?_

theorem State.cbsHalfRange_kept {c : Nat} (h : Kept z s) :
    Kept z (State.cbsHalfRange s c) := by
  unfold State.cbsHalfRange
  with_reducible repeat' first
    | assumption | refine cbsEvent_kept ?_

theorem State.deliverHr_kept {y1 : HalfRange} (h : Kept z s) :
    Kept z (State.deliverHr s y1) := by
  unfold State.deliverHr
  with_reducible repeat' first
    | assumption | refine orw_kept ?_ | refine scbEvent_kept ?_ | refine fabEvent_kept ?_ | refine polEvent_kept ?_
    | refine grfEvent_kept ?_ | refine nitEvent_kept ?_ | refine anlHalfRange_kept ?_ | refine cbsHalfRange_kept ?_
    | split

theorem State.halfRange_kept {h1 : HalfRange} (h : Kept z s) :
    Kept z (State.halfRange s h1) := by
  unfold State.halfRange
  with_reducible repeat' first
    | assumption | refine deliverHr_kept ?_ | refine Kept.cond ?_ ?_ | refine Kept.upd ?_ rfl

theorem State.releaseHr_kept {u : Nat} (h : Kept z s) :
    Kept z (State.releaseHr s u) := by
  unfold State.releaseHr
  with_reducible repeat' first
    | assumption | refine eachOf_kept ?_ ?_ | refine deliverHr_kept ?_ | refine Kept.upd ?_ rfl
    | (intro _ _; intros; beta_reduce)

theorem State.count_kept {a : Nat} {h1 : HalfRange} (h : Kept z s) :
    Kept z (State.count s a h1) := by
  unfold State.count
  with_reducible repeat' first
    | assumption | refine when_kept ?_ ?_ | refine cnt_kept ?_ | refine halfRange_kept ?_
    | (intro _ _; intros; beta_reduce)

theorem State.countWide_kept {a width k : Nat} {h1 : HalfRange} (h : Kept z s) :
    Kept z (State.countWide s a width k h1) := by
  unfold State.countWide
  with_reducible repeat' first
    | assumption | refine when_kept ?_ ?_ | refine wideAdd_kept ?_ | refine halfRange_kept ?_
    | (intro _ _; intros; beta_reduce)

theorem State.macCount_kept {p n k : Nat} (h : Kept z s) :
    Kept z (State.macCount s p n k) := by
  unfold State.macCount
  with_reducible repeat' first
    | assumption | refine countWide_kept ?_ | refine Kept.cond ?_ ?_

theorem State.clsCount_kept {p n : Nat} (h : Kept z s) :
    Kept z (State.clsCount s p n) := by
  unfold State.clsCount
  with_reducible repeat' first
    | assumption | refine countWide_kept ?_

theorem State.gateCount_kept {p n k : Nat} (h : Kept z s) :
    Kept z (State.gateCount s p n k) := by
  unfold State.gateCount
  with_reducible repeat' first
    | assumption | refine countWide_kept ?_

theorem State.pairCount_kept {k n : Nat} (h : Kept z s) :
    Kept z (State.pairCount s k n) := by
  unfold State.pairCount
  with_reducible repeat' first
    | assumption | refine countWide_kept ?_

theorem State.dupCount_kept {q n : Nat} (h : Kept z s) :
    Kept z (State.dupCount s q n) := by
  unfold State.dupCount
  with_reducible repeat' first
    | assumption | refine count_kept ?_

theorem State.ringCount_kept {r n : Nat} (h : Kept z s) :
    Kept z (State.ringCount s r n) := by
  unfold State.ringCount
  with_reducible repeat' first
    | assumption | refine count_kept ?_

theorem State.scbCount_kept {n : Nat} (h : Kept z s) :
    Kept z (State.scbCount s n) := by
  unfold State.scbCount
  with_reducible repeat' first
    | assumption | refine count_kept ?_

theorem State.fabCount_kept {n : Nat} (h : Kept z s) :
    Kept z (State.fabCount s n) := by
  unfold State.fabCount
  with_reducible repeat' first
    | assumption | refine count_kept ?_

theorem State.polCount_kept {n : Nat} (h : Kept z s) :
    Kept z (State.polCount s n) := by
  unfold State.polCount
  with_reducible repeat' first
    | assumption | refine count_kept ?_

theorem State.grfCount_kept {q n : Nat} (h : Kept z s) :
    Kept z (State.grfCount s q n) := by
  unfold State.grfCount
  with_reducible repeat' first
    | assumption | refine count_kept ?_

theorem State.nitCount_kept {q n : Nat} (h : Kept z s) :
    Kept z (State.nitCount s q n) := by
  unfold State.nitCount
  with_reducible repeat' first
    | assumption | refine count_kept ?_

theorem State.anlCount_kept {q n : Nat} (h : Kept z s) :
    Kept z (State.anlCount s q n) := by
  unfold State.anlCount
  with_reducible repeat' first
    | assumption | refine count_kept ?_

theorem State.cbsCount_kept {c n : Nat} (h : Kept z s) :
    Kept z (State.cbsCount s c n) := by
  unfold State.cbsCount
  with_reducible repeat' first
    | assumption | refine count_kept ?_

theorem State.spokeCount_kept {c k n : Nat} (h : Kept z s) :
    Kept z (State.spokeCount s c k n) := by
  unfold State.spokeCount
  with_reducible repeat' first
    | assumption | refine count_kept ?_ | refine Kept.cond ?_ ?_

theorem State.ringWrite_kept {r addr : Nat} {words : List Nat} (h : Kept z s) :
    Kept z (State.ringWrite s r addr words) := by
  unfold State.ringWrite
  with_reducible repeat' first
    | assumption | refine hostBus_kept ?_ | refine Kept.cond ?_ ?_

theorem State.ringRead_kept {r addr bytes : Nat} (h : Kept z s) :
    Kept z (State.ringRead s r addr bytes) := by
  unfold State.ringRead
  with_reducible repeat' first
    | assumption | refine hostBus_kept ?_ | refine Kept.cond ?_ ?_

theorem State.ringNotice_kept {r code : Nat} {args : List Nat} (h : Kept z s) :
    Kept z (State.ringNotice s r code args) := by
  unfold State.ringNotice
  with_reducible repeat' first
    | assumption | refine noticeTo_kept ?_

theorem State.ringShow_kept {r : Nat} (h : Kept z s) :
    Kept z (State.ringShow s r) := by
  unfold State.ringShow
  with_reducible repeat' first
    | assumption | refine when_kept ?_ ?_ | refine fput_kept ?_ | refine fset_kept ?_
    | (intro _ _; intros; beta_reduce) | dsimp only

theorem State.scanRead_kept {r : Nat} (h : Kept z s) :
    Kept z (State.scanRead s r) := by
  unfold State.scanRead
  with_reducible repeat' first
    | assumption | refine ringRead_kept ?_ | refine setRing_kept ?_ | dsimp only

theorem State.scanResume_kept {r : Nat} (h : Kept z s) :
    Kept z (State.scanResume s r) := by
  unfold State.scanResume
  with_reducible repeat' first
    | assumption | refine when_kept ?_ ?_ | refine scanRead_kept ?_ | (intro _ _; intros; beta_reduce)

theorem State.ringAdvance_kept {r : Nat} (h : Kept z s) :
    Kept z (State.ringAdvance s r) := by
  unfold State.ringAdvance
  with_reducible repeat' first
    | assumption | refine ringShow_kept ?_ | refine wr_kept ?_ | refine setRing_kept ?_ | dsimp only

theorem State.storeFree_kept {p n : Nat} (h : Kept z s) :
    Kept z (State.storeFree s p n) := by
  unfold State.storeFree
  with_reducible repeat' first
    | assumption | refine Kept.upd ?_ rfl

theorem State.entriesDone_kept {r : Nat} {ps : List Nat} (h : Kept z s) :
    Kept z (State.entriesDone s r ps) := by
  unfold State.entriesDone
  with_reducible repeat' first
    | assumption
    | (extract_lets +onlyGivenNames x; first | (have hx : Kept z x := (by unfold x; clear x; repeat' first | assumption | refine setRing_kept ?_ | refine eachOf_kept ?_ ?_ | refine ringCount_kept ?_ | refine ringAdvance_kept ?_ | refine scanResume_kept ?_ | refine when_kept ?_ ?_ | refine slotWrite_kept ?_ | (intro _ _; intros; beta_reduce)); clear_value x) | clear_value x)
    | refine setRing_kept ?_ | refine eachOf_kept ?_ ?_ | refine ringCount_kept ?_ | refine ringAdvance_kept ?_
    | refine scanResume_kept ?_ | refine when_kept ?_ ?_ | refine slotWrite_kept ?_
    | (intro _ _; intros; beta_reduce)

theorem State.txWriteback_kept {r : Nat} {e : RingEntry} {st stB ns sec : Nat} (h : Kept z s) :
    Kept z (State.txWriteback s r e st stB ns sec) := by
  unfold State.txWriteback
  with_reducible repeat' first
    | assumption | refine ringWrite_kept ?_

theorem State.txComplete_kept {r pos st stB ns sec : Nat} (h : Kept z s) :
    Kept z (State.txComplete s r pos st stB ns sec) := by
  unfold State.txComplete
  with_reducible repeat' first
    | assumption | refine entriesDone_kept ?_ | refine txWriteback_kept ?_ | split

theorem State.frameWritten_kept {r : Nat} {e : RingEntry} (h : Kept z s) :
    Kept z (State.frameWritten s r e) := by
  unfold State.frameWritten
  with_reducible repeat' first
    | assumption | refine eachOf_kept ?_ ?_ | refine storeFree_kept ?_ | refine ringWrite_kept ?_
    | refine entriesDone_kept ?_ | (intro _ _; intros; beta_reduce) | dsimp only

theorem State.entryEnds_kept {r pos : Nat} (h : Kept z s) :
    Kept z (State.entryEnds s r pos) := by
  unfold State.entryEnds
  with_reducible repeat' first
    | assumption | refine entriesDone_kept ?_ | refine frameWritten_kept ?_ | refine Kept.cond ?_ ?_ | split

theorem State.flushEntry_kept {r : Nat} {e : RingEntry} (h : Kept z s) :
    Kept z (State.flushEntry s r e) := by
  unfold State.flushEntry
  with_reducible repeat' first
    | assumption | refine entriesDone_kept ?_ | refine txWriteback_kept ?_ | refine ringWrite_kept ?_
    | refine Kept.cond ?_ ?_

theorem State.ringStop_kept {r : Nat} (h : Kept z s) :
    Kept z (State.ringStop s r) := by
  unfold State.ringStop
  with_reducible repeat' first
    | assumption
    | (extract_lets +onlyGivenNames x; first | (have hx : Kept z x := (by unfold x; clear x; repeat' first | assumption | refine setRing_kept ?_ | refine fset_kept ?_ | refine oneSlot_kept ?_ ?_ | refine eachOf_kept ?_ ?_ | refine flushEntry_kept ?_ | refine slotWrite_kept ?_ | refine Kept.cond ?_ ?_ | (intro _ _; intros; beta_reduce)); clear_value x) | clear_value x)
    | refine setRing_kept ?_ | refine fset_kept ?_ | refine oneSlot_kept ?_ ?_ | refine eachOf_kept ?_ ?_
    | refine flushEntry_kept ?_ | refine slotWrite_kept ?_ | refine Kept.cond ?_ ?_
    | (intro _ _; intros; beta_reduce)

theorem State.ringError_kept {r code : Nat} (h : Kept z s) :
    Kept z (State.ringError s r code) := by
  unfold State.ringError
  with_reducible repeat' first
    | assumption
    | (extract_lets +onlyGivenNames x; first | (have hx : Kept z x := (by unfold x; clear x; repeat' first | assumption | refine oneSlot_kept ?_ ?_ | refine fput_kept ?_ | refine fset_kept ?_ | refine ringStop_kept ?_ | refine slotWrite_kept ?_ | refine ringNotice_kept ?_ | refine brzEvent_kept ?_ | refine Kept.cond ?_ ?_ | (intro _ _; intros; beta_reduce)); clear_value x) | clear_value x)
    | refine oneSlot_kept ?_ ?_ | refine fput_kept ?_ | refine fset_kept ?_ | refine ringStop_kept ?_
    | refine slotWrite_kept ?_ | refine ringNotice_kept ?_ | refine brzEvent_kept ?_ | refine Kept.cond ?_ ?_
    | (intro _ _; intros; beta_reduce)

theorem State.orphanFrames_kept {gone : Nat → Nat → Bool} (h : Kept z s) :
    Kept z (State.orphanFrames s gone) := by
  unfold State.orphanFrames
  with_reducible repeat' first
    | assumption | refine Kept.upd ?_ rfl | dsimp only

theorem State.fetchDropped_kept {r : Nat} {e : RingEntry} (h : Kept z s) :
    Kept z (State.fetchDropped s r e) := by
  unfold State.fetchDropped
  with_reducible repeat' first
    | assumption | refine when_kept ?_ ?_ | refine transEnd_kept ?_ | (intro _ _; intros; beta_reduce)

theorem State.abandonFrom_kept {r pos : Nat} (h : Kept z s) :
    Kept z (State.abandonFrom s r pos) := by
  unfold State.abandonFrom
  with_reducible repeat' first
    | assumption
    | (extract_lets +onlyGivenNames x; first | (have hx : Kept z x := (by unfold x; clear x; repeat' first | assumption | refine orphanFrames_kept ?_ | refine eachOf_kept ?_ ?_ | refine fetchDropped_kept ?_ | refine storeFree_kept ?_ | refine wr_kept ?_ | refine setRing_kept ?_ | (intro _ _; intros; beta_reduce)); clear_value x) | clear_value x)
    | refine orphanFrames_kept ?_ | refine eachOf_kept ?_ ?_ | refine fetchDropped_kept ?_
    | refine storeFree_kept ?_ | refine wr_kept ?_ | refine setRing_kept ?_ | (intro _ _; intros; beta_reduce)

theorem State.ringIsolate_kept {r : Nat} (h : Kept z s) :
    Kept z (State.ringIsolate s r) := by
  unfold State.ringIsolate
  with_reducible repeat' first
    | assumption | refine fset_kept ?_ | refine setRing_kept ?_ | refine Kept.cond ?_ ?_ | dsimp only

theorem State.loseEntry_kept {r : Nat} {e : RingEntry} (h : Kept z s) :
    Kept z (State.loseEntry s r e) := by
  unfold State.loseEntry
  with_reducible repeat' first
    | assumption | refine txComplete_kept ?_ | refine fetchDropped_kept ?_ | refine entriesDone_kept ?_
    | refine storeFree_kept ?_ | refine when_kept ?_ ?_ | refine ringCount_kept ?_ | refine flushEntry_kept ?_
    | refine Kept.cond ?_ ?_ | (intro _ _; intros; beta_reduce)

theorem State.ringLinkLost_kept {r : Nat} (h : Kept z s) :
    Kept z (State.ringLinkLost s r) := by
  unfold State.ringLinkLost
  with_reducible repeat' first
    | assumption
    | (extract_lets +onlyGivenNames x; first | (have hx : Kept z x := (by unfold x; clear x; repeat' first | assumption | refine setRing_kept ?_ | refine fset_kept ?_ | refine eachOf_kept ?_ ?_ | refine loseEntry_kept ?_ | (intro _ _; intros; beta_reduce)); clear_value x) | clear_value x)
    | refine setRing_kept ?_ | refine fset_kept ?_ | refine eachOf_kept ?_ ?_ | refine loseEntry_kept ?_
    | (intro _ _; intros; beta_reduce)

theorem State.ringStarve_kept {r : Nat} (h : Kept z s) :
    Kept z (State.ringStarve s r) := by
  unfold State.ringStarve
  with_reducible repeat' first
    | assumption
    | (extract_lets +onlyGivenNames x; first | (have hx : Kept z x := (by unfold x; clear x; repeat' first | assumption | refine ringCount_kept ?_ | refine fset_kept ?_ | refine slotWrite_kept ?_ | refine ringNotice_kept ?_ | refine brzEvent_kept ?_ | refine useFree_kept ?_ | refine Kept.cond ?_ ?_); clear_value x) | clear_value x)
    | refine ringCount_kept ?_ | refine fset_kept ?_ | refine slotWrite_kept ?_ | refine ringNotice_kept ?_
    | refine brzEvent_kept ?_ | refine useFree_kept ?_ | refine Kept.cond ?_ ?_

theorem State.atReg_kept {a : Nat} {f : State → State} (h : Kept z s) (hf : ∀ t, Kept z t → Kept z (f t)) :
    Kept z (State.atReg s a f) := by
  unfold State.atReg
  with_reducible repeat' first
    | assumption | exact hf _ (by assumption) | refine when_kept ?_ ?_ | (intro _ _; intros; beta_reduce) | apply hf

theorem State.atDom_kept {n : Nat} {f : State → State} (h : Kept z s) (hf : ∀ t, Kept z t → Kept z (f t)) :
    Kept z (State.atDom s n f) := by
  unfold State.atDom
  with_reducible repeat' first
    | assumption | exact hf _ (by assumption) | refine when_kept ?_ ?_ | (intro _ _; intros; beta_reduce) | apply hf

theorem State.pulse_kept {id : Nat} (h : Kept z s) :
    Kept z (State.pulse s id) := by
  unfold State.pulse
  with_reducible repeat' first
    | assumption | refine when_kept ?_ ?_ | refine Kept.upd ?_ rfl | (intro _ _; intros; beta_reduce)

theorem State.granting_kept {m t1 : Nat} (h : Kept z s) :
    Kept z (State.granting s m t1) := by
  unfold State.granting
  with_reducible repeat' first
    | assumption | refine when_kept ?_ ?_ | refine grant_kept ?_ | (intro _ _; intros; beta_reduce)

theorem State.memWritten_kept {src cause key : Nat} (h : Kept z s) :
    Kept z (State.memWritten s src cause key) := by
  unfold State.memWritten
  with_reducible repeat' first
    | assumption | refine fset_kept ?_ | refine Kept.cond ?_ ?_ | refine Kept.upd ?_ rfl

theorem State.entryWritten_kept {src cause a n : Nat} (h : Kept z s) :
    Kept z (State.entryWritten s src cause a n) := by
  unfold State.entryWritten
  with_reducible repeat' first
    | assumption | refine eachOf_kept ?_ ?_ | refine memWritten_kept ?_ | (intro _ _; intros; beta_reduce)

theorem State.touchAll_kept {p : Nat → Bool} (h : Kept z s) :
    Kept z (State.touchAll s p) := by
  unfold State.touchAll
  with_reducible repeat' first
    | assumption | refine Kept.upd ?_ rfl

theorem State.touch_kept {a n : Nat} (h : Kept z s) :
    Kept z (State.touch s a n) := by
  unfold State.touch
  with_reducible repeat' first
    | assumption | refine touchAll_kept ?_

theorem State.tableRead_kept {a : Nat} (h : Kept z s) :
    Kept z (State.tableRead s a).1 := by
  unfold State.tableRead
  with_reducible repeat' first
    | assumption | refine touch_kept ?_ | refine useFree_kept ?_ | refine Kept.cond ?_ ?_
    | refine Kept.condFst ?_ ?_ | dsimp only

theorem State.hiddenWritten_kept {src cause n : Nat} (h : Kept z s) :
    Kept z (State.hiddenWritten s src cause n) := by
  unfold State.hiddenWritten
  with_reducible repeat' first
    | assumption | refine memWritten_kept ?_

theorem State.hiddenRead_kept {src cause n : Nat} (h : Kept z s) :
    Kept z (State.hiddenRead s src cause n) := by
  unfold State.hiddenRead
  with_reducible repeat' first
    | assumption | refine touch_kept ?_

theorem State.resetHidden_kept {p : Nat → Nat → Bool} (h : Kept z s) :
    Kept z (State.resetHidden s p) := by
  unfold State.resetHidden
  with_reducible repeat' first
    | assumption | refine Kept.upd ?_ rfl

theorem State.onInv_kept {f : Inv → Inv} (h : Kept z s) :
    Kept z (State.onInv s f) := by
  unfold State.onInv
  with_reducible repeat' first
    | assumption | refine Kept.upd ?_ rfl

theorem State.driveVtrim_kept {n : Nat} (h : Kept z s) :
    Kept z (State.driveVtrim s n) := by
  unfold State.driveVtrim
  with_reducible repeat' first
    | assumption | refine pin_kept ?_ | refine fput_kept ?_

theorem State.showRate_kept (h : Kept z s) :
    Kept z (State.showRate s) := by
  unfold State.showRate
  with_reducible repeat' first
    | assumption
    | (extract_lets +onlyGivenNames x; first | (have hx : Kept z x := (by unfold x; clear x; repeat' first | assumption | refine fput_kept ?_ | refine driveVtrim_kept ?_ | refine corrected_kept ?_ | refine fset_kept ?_ | refine Kept.cond ?_ ?_); clear_value x) | clear_value x)
    | refine fput_kept ?_ | refine driveVtrim_kept ?_ | refine corrected_kept ?_ | refine fset_kept ?_
    | refine Kept.cond ?_ ?_

theorem State.sumUp_kept (h : Kept z s) :
    Kept z (State.sumUp s) := by
  unfold State.sumUp
  with_reducible repeat' first
    | assumption | refine onInv_kept ?_

theorem State.rateBy_kept {f : Inv → Inv} (h : Kept z s) :
    Kept z (State.rateBy s f) := by
  unfold State.rateBy
  with_reducible repeat' first
    | assumption | refine showRate_kept ?_ | refine onInv_kept ?_ | refine sumUp_kept ?_

theorem State.setServo_kept {n : Nat} (h : Kept z s) :
    Kept z (State.setServo s n) := by
  unfold State.setServo
  with_reducible repeat' first
    | assumption
    | (extract_lets +onlyGivenNames x; first | (have hx : Kept z x := (by unfold x; clear x; repeat' first | assumption | refine fput_kept ?_ | refine sumUp_kept ?_ | refine onInv_kept ?_ | refine when_kept ?_ ?_ | refine fset_kept ?_ | refine notice_kept ?_ | refine brzEvent_kept ?_ | refine Kept.cond ?_ ?_ | (intro _ _; intros; beta_reduce)); clear_value x) | clear_value x)
    | refine fput_kept ?_ | refine sumUp_kept ?_ | refine onInv_kept ?_ | refine when_kept ?_ ?_
    | refine fset_kept ?_ | refine notice_kept ?_ | refine brzEvent_kept ?_ | refine Kept.cond ?_ ?_
    | (intro _ _; intros; beta_reduce)

theorem State.freeRate_kept (h : Kept z s) :
    Kept z (State.freeRate s) := by
  unfold State.freeRate
  with_reducible repeat' first
    | assumption | refine rateBy_kept ?_ | refine Kept.cond ?_ ?_

theorem State.loseReference_kept (h : Kept z s) :
    Kept z (State.loseReference s) := by
  unfold State.loseReference
  with_reducible repeat' first
    | assumption | refine onInv_kept ?_ | refine freeRate_kept ?_ | refine setServo_kept ?_ | refine rateBy_kept ?_
    | refine Kept.cond ?_ ?_ | dsimp only

theorem State.setPtp_kept {p : Nat} {x : PtpPort} (h : Kept z s) :
    Kept z (State.setPtp s p x) := by
  unfold State.setPtp
  with_reducible repeat' first
    | assumption | refine Kept.upd ?_ rfl

theorem State.ptpCount_kept {p n : Nat} (h : Kept z s) :
    Kept z (State.ptpCount s p n) := by
  unfold State.ptpCount
  with_reducible repeat' first
    | assumption | refine cnt_kept ?_

theorem State.setPtpState_kept {p n : Nat} (h : Kept z s) :
    Kept z (State.setPtpState s p n) := by
  unfold State.setPtpState
  with_reducible repeat' first
    | assumption | refine notice_kept ?_ | refine brzEvent_kept ?_ | refine fput_kept ?_ | refine Kept.cond ?_ ?_
    | dsimp only

theorem State.applyDecision_kept {same : Bool} {p n : Nat} (h : Kept z s) :
    Kept z (State.applyDecision s same p n) := by
  unfold State.applyDecision
  with_reducible repeat' first
    | assumption | refine setPtpState_kept ?_ | refine Kept.cond ?_ ?_ | dsimp only

theorem State.showParent_kept (h : Kept z s) :
    Kept z (State.showParent s) := by
  unfold State.showParent
  with_reducible repeat' first
    | assumption
    | (extract_lets +onlyGivenNames x; first | (have hx : Kept z x := (by unfold x; clear x; repeat' first | assumption | refine wr_kept ?_ | refine forUpTo_kept ?_ ?_ | refine Kept.cond ?_ ?_ | split | (intro _ _; intros; beta_reduce)); clear_value x) | clear_value x)
    | refine wr_kept ?_ | refine forUpTo_kept ?_ ?_ | refine Kept.cond ?_ ?_ | split
    | (intro _ _; intros; beta_reduce)

theorem State.newParent_kept {x : Option (Nat × Nat)} (h : Kept z s) :
    Kept z (State.newParent s x) := by
  unfold State.newParent
  with_reducible repeat' first
    | assumption
    | (extract_lets +onlyGivenNames x; first | (have hx : Kept z x := (by unfold x; clear x; repeat' first | assumption | refine showParent_kept ?_ | refine onInv_kept ?_ | refine notice_kept ?_ | refine brzEvent_kept ?_ | refine when_kept ?_ ?_ | refine loseReference_kept ?_ | refine Kept.cond ?_ ?_ | (intro _ _; intros; beta_reduce)); clear_value x) | clear_value x)
    | refine showParent_kept ?_ | refine onInv_kept ?_ | refine notice_kept ?_ | refine brzEvent_kept ?_
    | refine when_kept ?_ ?_ | refine loseReference_kept ?_ | refine Kept.cond ?_ ?_
    | (intro _ _; intros; beta_reduce)

theorem State.evaluate_kept (h : Kept z s) :
    Kept z (State.evaluate s) := by
  unfold State.evaluate
  with_reducible repeat' first
    | assumption
    | (extract_lets +onlyGivenNames x; first | (have hx : Kept z x := (by unfold x; clear x; repeat' first | assumption | refine newParent_kept ?_ | refine eachOf_kept ?_ ?_ | refine applyDecision_kept ?_ | split | (intro _ _; intros; beta_reduce)); clear_value x) | clear_value x)
    | refine newParent_kept ?_ | refine eachOf_kept ?_ ?_ | refine applyDecision_kept ?_ | split
    | (intro _ _; intros; beta_reduce)

theorem State.ptpForget_kept {p : Nat} (h : Kept z s) :
    Kept z (State.ptpForget s p) := by
  unfold State.ptpForget
  with_reducible repeat' first
    | assumption | refine setPtp_kept ?_ | dsimp only

theorem State.ptpLink_kept {p : Nat} (h : Kept z s) :
    Kept z (State.ptpLink s p) := by
  unfold State.ptpLink
  with_reducible repeat' first
    | assumption | refine fromQuad_kept ?_ ?_ | refine evaluate_kept ?_ | refine setPtpState_kept ?_
    | refine ptpForget_kept ?_ | refine Kept.cond ?_ ?_ | (intro _ _; intros; beta_reduce) | dsimp only

theorem State.store_kept {a v : Nat} (h : Kept z s) :
    Kept z (State.store s a v) := by
  unfold State.store
  with_reducible repeat' first
    | assumption | refine wr_kept ?_ | split

theorem State.setShadow_kept {q : Requester} {a n : Nat} (h : Kept z s) :
    Kept z (State.setShadow s q a n) := by
  unfold State.setShadow
  with_reducible repeat' first
    | assumption | refine Kept.upd ?_ rfl

theorem State.stage_kept {q : Requester} {a : Nat} {v : Option Nat} (h : Kept z s) :
    Kept z (State.stage s q a v) := by
  unfold State.stage
  with_reducible repeat' first
    | assumption | split | refine Kept.upd ?_ rfl

theorem State.applyUpper_kept {a v : Nat} (h : Kept z s) :
    Kept z (State.applyUpper s a v) := by
  unfold State.applyUpper
  with_reducible repeat' first
    | assumption | refine store_kept ?_ | refine Kept.cond ?_ ?_ | refine Kept.upd ?_ rfl

theorem State.applyStaged_kept {q : Requester} {a : Nat} (h : Kept z s) :
    Kept z (State.applyStaged s q a) := by
  unfold State.applyStaged
  with_reducible repeat' first
    | assumption | refine eachOf_kept ?_ ?_ | refine stage_kept ?_ | refine applyUpper_kept ?_
    | refine Kept.cond ?_ ?_ | (intro _ _; intros; beta_reduce)

theorem State.resetRequester_kept {q : Requester} (h : Kept z s) :
    Kept z (State.resetRequester s q) := by
  unfold State.resetRequester
  with_reducible repeat' first
    | assumption | refine Kept.upd ?_ rfl

theorem State.clearMaster_kept {m : Nat} (h : Kept z s) :
    Kept z (State.clearMaster s m) := by
  unfold State.clearMaster
  with_reducible repeat' first
    | assumption | exact Kept.upd (by assumption) rfl
    | (extract_lets +onlyGivenNames x; first | (have hx : Kept z x := (by unfold x; clear x; repeat' first | assumption | exact Kept.upd (by assumption) rfl | refine when_kept ?_ ?_ | refine resetRequester_kept ?_ | split | refine Kept.upd ?_ rfl | (intro _ _; intros; beta_reduce)); clear_value x) | clear_value x)
    | refine when_kept ?_ ?_ | refine resetRequester_kept ?_ | split | refine Kept.upd ?_ rfl
    | (intro _ _; intros; beta_reduce)

theorem State.discardOf_kept {m : Nat} (h : Kept z s) :
    Kept z (State.discardOf s m) := by
  unfold State.discardOf
  with_reducible repeat' first
    | assumption | refine forUpTo_kept ?_ ?_ | refine fset_kept ?_ | refine Kept.cond ?_ ?_ | refine Kept.upd ?_ rfl
    | (intro _ _; intros; beta_reduce)

theorem State.masterReset_kept {m : Nat} {cut : Bool} (h : Kept z s) :
    Kept z (State.masterReset s m cut) := by
  unfold State.masterReset
  with_reducible repeat' first
    | assumption | refine discardOf_kept ?_ | refine clearMaster_kept ?_ | refine when_kept ?_ ?_
    | refine fset_kept ?_ | refine cnt_kept ?_ | (intro _ _; intros; beta_reduce)

theorem State.masterDown_kept {m : Nat} (h : Kept z s) :
    Kept z (State.masterDown s m) := by
  unfold State.masterDown
  with_reducible repeat' first
    | assumption | refine clearMaster_kept ?_ | refine masterReset_kept ?_ | refine useFree_kept ?_
    | refine Kept.cond ?_ ?_

end Sys2Proof.Machine
end

