-- ==== Sys2Proof/Laws/KeptPorts.lean ====
section
/-! SUPPORT. What the operations of MacOps, ListOps, FrameOps, PtpOps, TxOps, ScbOps, LinkOps keep: the queue, and a sound state. -/

set_option Elab.async false

namespace Sys2Proof.Machine

variable {z s : State}

theorem State.setMac_kept {p : Nat} {x : MacPort} (h : Kept z s) :
    Kept z (State.setMac s p x) := by
  unfold State.setMac
  with_reducible repeat' first
    | assumption | refine Kept.upd ?_ rfl

theorem State.copyDone_kept {f : TxFrame} {st ts : Nat} (h : Kept z s) :
    Kept z (State.copyDone s f st ts) := by
  unfold State.copyDone
  with_reducible repeat' first
    | assumption | exact Kept.upd (by assumption) rfl
    | (extract_lets +onlyGivenNames x; first | (have hx : Kept z x := (by unfold x; clear x; repeat' first | assumption | exact Kept.upd (by assumption) rfl | refine txComplete_kept ?_ | refine Kept.cond ?_ ?_ | refine Kept.upd ?_ rfl); clear_value x) | clear_value x)
    | refine txComplete_kept ?_ | refine Kept.cond ?_ ?_ | refine Kept.upd ?_ rfl

theorem State.dropFrame_kept {p n st : Nat} {f : TxFrame} (h : Kept z s) :
    Kept z (State.dropFrame s p n st f) := by
  unfold State.dropFrame
  with_reducible repeat' first
    | assumption | refine copyDone_kept ?_ | refine macCount_kept ?_

theorem State.setShp_kept {k : Nat} {x : Shaper} (h : Kept z s) :
    Kept z (State.setShp s k x) := by
  unfold State.setShp
  with_reducible repeat' first
    | assumption | refine Kept.upd ?_ rfl

theorem State.shpSettle_kept {p k : Nat} (h : Kept z s) :
    Kept z (State.shpSettle s p k) := by
  unfold State.shpSettle
  with_reducible repeat' first
    | assumption | exact Kept.upd (by assumption) rfl
    | (extract_lets +onlyGivenNames x; first | (have hx : Kept z x := (by unfold x; clear x; repeat' first | assumption | exact Kept.upd (by assumption) rfl | refine setShp_kept ?_ | refine Kept.cond ?_ ?_ | split | refine Kept.upd ?_ rfl); clear_value x) | clear_value x)
    | refine setShp_kept ?_ | refine Kept.cond ?_ ?_ | split | refine Kept.upd ?_ rfl

theorem State.settle_kept {p : Nat} (h : Kept z s) :
    Kept z (State.settle s p) := by
  unfold State.settle
  with_reducible repeat' first
    | assumption | refine eachOf_kept ?_ ?_ | refine shpSettle_kept ?_ | (intro _ _; intros; beta_reduce)

theorem State.chargeOne_kept {b start k : Nat} (h : Kept z s) :
    Kept z (State.chargeOne s b start k) := by
  unfold State.chargeOne
  with_reducible repeat' first
    | assumption | refine setShp_kept ?_ | refine Kept.cond ?_ ?_ | dsimp only

theorem State.charge_kept {p b start : Nat} {f : TxFrame} (h : Kept z s) :
    Kept z (State.charge s p b start f) := by
  unfold State.charge
  with_reducible repeat' first
    | assumption | refine eachOf_kept ?_ ?_ | refine chargeOne_kept ?_ | (intro _ _; intros; beta_reduce)

theorem State.zeroCredits_kept {p : Nat} (h : Kept z s) :
    Kept z (State.zeroCredits s p) := by
  unfold State.zeroCredits
  with_reducible repeat' first
    | assumption | refine settle_kept ?_ | refine Kept.upd ?_ rfl

theorem State.showActive_kept {p : Nat} (h : Kept z s) :
    Kept z (State.showActive s p) := by
  unfold State.showActive
  with_reducible repeat' first
    | assumption | refine fset_kept ?_

theorem State.setVerify_kept {p v : Nat} (h : Kept z s) :
    Kept z (State.setVerify s p v) := by
  unfold State.setVerify
  with_reducible repeat' first
    | assumption | refine showActive_kept ?_ | refine fput_kept ?_ | refine when_kept ?_ ?_
    | refine macEvent_kept ?_ | (intro _ _; intros; beta_reduce) | dsimp only

theorem State.restartVerify_kept {p : Nat} (h : Kept z s) :
    Kept z (State.restartVerify s p) := by
  unfold State.restartVerify
  with_reducible repeat' first
    | assumption | refine setMac_kept ?_ | refine fput_kept ?_ | refine setVerify_kept ?_ | dsimp only

theorem State.emitCut_kept {p : Nat} {x : TxProg} (h : Kept z s) :
    Kept z (State.emitCut s p x) := by
  unfold State.emitCut
  with_reducible repeat' first
    | assumption | refine emit_kept ?_

theorem State.cutTx_kept {p : Nat} (h : Kept z s) :
    Kept z (State.cutTx s p) := by
  unfold State.cutTx
  with_reducible repeat' first
    | assumption
    | (extract_lets +onlyGivenNames x; first | (have hx : Kept z x := (by unfold x; clear x; repeat' first | assumption | refine setMac_kept ?_ | refine dropFrame_kept ?_ | refine emitCut_kept ?_ | split); clear_value x) | clear_value x)
    | refine setMac_kept ?_ | refine dropFrame_kept ?_ | refine emitCut_kept ?_ | split

theorem State.showLine_kept {p : Nat} (h : Kept z s) :
    Kept z (State.showLine s p) := by
  unfold State.showLine
  with_reducible repeat' first
    | assumption | refine setMac_kept ?_ | refine when_kept ?_ ?_ | refine emit_kept ?_
    | (intro _ _; intros; beta_reduce) | dsimp only

theorem State.fallDown_kept {p : Nat} (h : Kept z s) :
    Kept z (State.fallDown s p) := by
  unfold State.fallDown
  with_reducible repeat' first
    | assumption
    | (extract_lets +onlyGivenNames x; first | (have hx : Kept z x := (by unfold x; clear x; repeat' first | assumption | refine setMac_kept ?_ | refine macEvent_kept ?_ | refine macCount_kept ?_ | refine fput_kept ?_ | refine zeroCredits_kept ?_ | refine cutTx_kept ?_ | refine ptpLink_kept ?_ | refine restartVerify_kept ?_); clear_value x) | clear_value x)
    | refine setMac_kept ?_ | refine macEvent_kept ?_ | refine macCount_kept ?_ | refine fput_kept ?_
    | refine zeroCredits_kept ?_ | refine cutTx_kept ?_ | refine ptpLink_kept ?_ | refine restartVerify_kept ?_

theorem State.leaveUp_kept {p : Nat} (h : Kept z s) :
    Kept z (State.leaveUp s p) := by
  unfold State.leaveUp
  with_reducible repeat' first
    | assumption | refine showLine_kept ?_ | refine fallDown_kept ?_

theorem State.toDown_kept {p : Nat} (h : Kept z s) :
    Kept z (State.toDown s p) := by
  unfold State.toDown
  with_reducible repeat' first
    | assumption | refine leaveUp_kept ?_ | refine fput_kept ?_ | refine Kept.cond ?_ ?_

theorem State.enterUpPort_kept {p : Nat} (h : Kept z s) :
    Kept z (State.enterUpPort s p) := by
  unfold State.enterUpPort
  with_reducible repeat' first
    | assumption | refine ptpLink_kept ?_ | refine showLine_kept ?_ | refine restartVerify_kept ?_
    | refine macEvent_kept ?_ | refine fput_kept ?_

theorem State.endRelock_kept {p : Nat} (h : Kept z s) :
    Kept z (State.endRelock s p) := by
  unfold State.endRelock
  with_reducible repeat' first
    | assumption | refine macCount_kept ?_ | refine setMac_kept ?_ | refine macEvent_kept ?_
    | refine leaveUp_kept ?_ | refine Kept.cond ?_ ?_ | dsimp only

theorem State.entriesRead_kept {b : Nat} {bad : List Nat} (h : Kept z s) :
    Kept z (State.entriesRead s b bad) := by
  unfold State.entriesRead
  with_reducible repeat' first
    | assumption | refine eachOf_kept ?_ ?_ | refine when_kept ?_ ?_ | refine touch_kept ?_
    | refine scbEvent_kept ?_ | refine scbCount_kept ?_ | (intro _ _; intros; beta_reduce)

theorem State.commitRead_kept {b : Nat} {e : SchedEntry} (h : Kept z s) :
    Kept z (State.commitRead s b e) := by
  unfold State.commitRead
  with_reducible repeat' first
    | assumption | refine eachOf_kept ?_ ?_ | refine touch_kept ?_ | (intro _ _; intros; beta_reduce)

theorem State.sendTo_kept {p : Nat} {f : TxFrame} (h : Kept z s) :
    Kept z (State.sendTo s p f) := by
  unfold State.sendTo
  with_reducible repeat' first
    | assumption | refine setMac_kept ?_ | refine Kept.upd ?_ rfl | dsimp only

theorem State.hostSend_kept {p : Nat} {f : TxFrame} (h : Kept z s) :
    Kept z (State.hostSend s p f) := by
  unfold State.hostSend
  with_reducible repeat' first
    | assumption | exact Kept.upd (by assumption) rfl
    | (extract_lets +onlyGivenNames x; first | (have hx : Kept z x := (by unfold x; clear x; repeat' first | assumption | exact Kept.upd (by assumption) rfl | refine sendTo_kept ?_ | refine pairCount_kept ?_ | refine fput_kept ?_ | refine when_kept ?_ ?_ | refine Kept.cond ?_ ?_ | refine Kept.upd ?_ rfl | (intro _ _; intros; beta_reduce)); clear_value x) | clear_value x)
    | refine sendTo_kept ?_ | refine pairCount_kept ?_ | refine fput_kept ?_ | refine when_kept ?_ ?_
    | refine Kept.cond ?_ ?_ | refine Kept.upd ?_ rfl | (intro _ _; intros; beta_reduce)

theorem State.takeComing_kept {p : Nat} (h : Kept z s) :
    Kept z (State.takeComing s p) := by
  unfold State.takeComing
  with_reducible repeat' first
    | assumption
    | (extract_lets +onlyGivenNames x; first | (have hx : Kept z x := (by unfold x; clear x; repeat' first | assumption | refine setMac_kept ?_ | refine dropFrame_kept ?_ | refine when_kept ?_ ?_ | refine gateCount_kept ?_ | refine Kept.cond ?_ ?_ | split | (intro _ _; intros; beta_reduce)); clear_value x) | clear_value x)
    | refine setMac_kept ?_ | refine dropFrame_kept ?_ | refine when_kept ?_ ?_ | refine gateCount_kept ?_
    | refine Kept.cond ?_ ?_ | split | (intro _ _; intros; beta_reduce)

theorem State.sendPtp_kept {p : Nat} {peer tagged oneStep : Bool} {m : List Byte} (h : Kept z s) :
    Kept z (State.sendPtp s p peer tagged oneStep m) := by
  unfold State.sendPtp
  with_reducible repeat' first
    | assumption
    | (extract_lets +onlyGivenNames x; first | (have hx : Kept z x := (by unfold x; clear x; repeat' first | assumption | refine toQuad_kept ?_ ?_ | refine sendTo_kept ?_ | refine fput_kept ?_ | refine Kept.cond ?_ ?_ | (intro _ _; intros; beta_reduce)); clear_value x) | clear_value x)
    | refine toQuad_kept ?_ ?_ | refine sendTo_kept ?_ | refine fput_kept ?_ | refine Kept.cond ?_ ?_
    | (intro _ _; intros; beta_reduce)

theorem State.ptpDeparted_kept {p : Nat} {f : TxFrame} {t1 : Nat} (h : Kept z s) :
    Kept z (State.ptpDeparted s p f t1) := by
  unfold State.ptpDeparted
  with_reducible repeat' first
    | assumption
    | (extract_lets +onlyGivenNames x; first | (have hx : Kept z x := (by unfold x; clear x; repeat' first | assumption | refine sendPtp_kept ?_ | refine setPtp_kept ?_ | refine Kept.cond ?_ ?_ | split); clear_value x) | clear_value x)
    | refine sendPtp_kept ?_ | refine setPtp_kept ?_ | refine Kept.cond ?_ ?_ | split

theorem State.tcEnter_kept {inPort : Nat} {e : TcEntry} (h : Kept z s) :
    Kept z (State.tcEnter s inPort e) := by
  unfold State.tcEnter
  with_reducible repeat' first
    | assumption | exact Kept.upd (by assumption) rfl
    | (extract_lets +onlyGivenNames x; first | (have hx : Kept z x := (by unfold x; clear x; repeat' first | assumption | exact Kept.upd (by assumption) rfl | refine ptpCount_kept ?_ | refine Kept.cond ?_ ?_ | split | refine Kept.upd ?_ rfl); clear_value x) | clear_value x)
    | refine ptpCount_kept ?_ | refine Kept.cond ?_ ?_ | split | refine Kept.upd ?_ rfl

theorem State.tcCorrect_kept {p : Nat} {f : TxFrame} {t1 : Nat} (h : Kept z s) :
    Kept z (State.tcCorrect s p f t1).2 := by
  unfold State.tcCorrect
  with_reducible repeat' first
    | assumption | exact Kept.upd (by assumption) rfl
    | (extract_lets +onlyGivenNames x; first | (have hx : Kept z x := (by unfold x; clear x; repeat' first | assumption | exact Kept.upd (by assumption) rfl | refine tcEnter_kept ?_ | refine ptpCount_kept ?_ | refine Kept.cond ?_ ?_ | refine Kept.condSnd ?_ ?_ | split | refine Kept.upd ?_ rfl | dsimp only); clear_value x) | (have hx : Kept z x.2 := (by unfold x; clear x; repeat' first | assumption | exact Kept.upd (by assumption) rfl | refine tcEnter_kept ?_ | refine ptpCount_kept ?_ | refine Kept.cond ?_ ?_ | refine Kept.condSnd ?_ ?_ | split | refine Kept.upd ?_ rfl | dsimp only); clear_value x) | clear_value x)
    | refine tcEnter_kept ?_ | refine ptpCount_kept ?_ | refine Kept.cond ?_ ?_ | refine Kept.condSnd ?_ ?_ | split
    | refine Kept.upd ?_ rfl | dsimp only

theorem State.markHeld_kept {p : Nat} (h : Kept z s) :
    Kept z (State.markHeld s p) := by
  unfold State.markHeld
  with_reducible repeat' first
    | assumption
    | (extract_lets +onlyGivenNames x; first | (have hx : Kept z x := (by unfold x; clear x; repeat' first | assumption | refine setMac_kept ?_ | refine gateCount_kept ?_ | refine Kept.cond ?_ ?_); clear_value x) | clear_value x)
    | refine setMac_kept ?_ | refine gateCount_kept ?_ | refine Kept.cond ?_ ?_

theorem State.unqueue_kept {p id : Nat} (h : Kept z s) :
    Kept z (State.unqueue s p id) := by
  unfold State.unqueue
  with_reducible repeat' first
    | assumption | refine setMac_kept ?_

theorem State.dropHeads_kept {p y2 : Nat} (h : Kept z s) :
    Kept z (State.dropHeads s p y2) := by
  induction y2 generalizing p s with
  | zero => exact h
  | succ n ih =>
  rw [State.dropHeads]
  with_reducible repeat' first
    | assumption | refine ih ?_ | refine copyDone_kept ?_ | refine gateCount_kept ?_ | refine unqueue_kept ?_
    | refine eachOf_kept ?_ ?_ | refine Kept.cond ?_ ?_ | split | (intro _ _; intros; beta_reduce) | dsimp only

theorem State.dropTooBig_kept {p : Nat} (h : Kept z s) :
    Kept z (State.dropTooBig s p) := by
  unfold State.dropTooBig
  with_reducible repeat' first
    | assumption | refine dropHeads_kept ?_

theorem State.preemptCheck_kept {p : Nat} (h : Kept z s) :
    Kept z (State.preemptCheck s p) := by
  unfold State.preemptCheck
  with_reducible repeat' first
    | assumption | refine setMac_kept ?_ | refine Kept.cond ?_ ?_ | split

theorem State.refresh_kept {p : Nat} (h : Kept z s) :
    Kept z (State.refresh s p) := by
  unfold State.refresh
  with_reducible repeat' first
    | assumption | refine preemptCheck_kept ?_ | refine settle_kept ?_

theorem State.showStopped_kept {p : Nat} (h : Kept z s) :
    Kept z (State.showStopped s p) := by
  unfold State.showStopped
  with_reducible repeat' first
    | assumption | refine refresh_kept ?_ | refine fput_kept ?_

theorem State.emitPart_kept {p : Nat} {x : TxProg} {l : List Byte} {b check : Nat} (h : Kept z s) :
    Kept z (State.emitPart s p x l b check) := by
  unfold State.emitPart
  with_reducible repeat' first
    | assumption | refine when_kept ?_ ?_ | refine emit_kept ?_ | refine Kept.cond ?_ ?_
    | (intro _ _; intros; beta_reduce)

theorem State.endFragment_kept {p : Nat} {x : TxProg} {n : Nat} (h : Kept z s) :
    Kept z (State.endFragment s p x n) := by
  unfold State.endFragment
  with_reducible repeat' first
    | assumption
    | (extract_lets +onlyGivenNames x; first | (have hx : Kept z x := (by unfold x; clear x; repeat' first | assumption | refine charge_kept ?_ | refine emitPart_kept ?_ | refine setMac_kept ?_ | refine macCount_kept ?_); clear_value x) | clear_value x)
    | refine charge_kept ?_ | refine emitPart_kept ?_ | refine setMac_kept ?_ | refine macCount_kept ?_

theorem State.startTx_kept {p : Nat} {x : TxProg} (h : Kept z s) :
    Kept z (State.startTx s p x) := by
  unfold State.startTx
  with_reducible repeat' first
    | assumption | refine refresh_kept ?_ | refine setMac_kept ?_

theorem State.startFrame_kept {p : Nat} {f : TxFrame} (h : Kept z s) :
    Kept z (State.startFrame s p f) := by
  unfold State.startFrame
  with_reducible repeat' first
    | assumption | refine startTx_kept ?_ | refine setMac_kept ?_ | refine Kept.cond ?_ ?_ | dsimp only

theorem State.sendVerify_kept {p : Nat} (h : Kept z s) :
    Kept z (State.sendVerify s p) := by
  unfold State.sendVerify
  with_reducible repeat' first
    | assumption | refine fput_kept ?_ | refine macCount_kept ?_ | refine emit_kept ?_ | refine setVerify_kept ?_
    | refine setMac_kept ?_ | dsimp only

theorem State.sendRespond_kept {p : Nat} (h : Kept z s) :
    Kept z (State.sendRespond s p) := by
  unfold State.sendRespond
  with_reducible repeat' first
    | assumption | refine macCount_kept ?_ | refine emit_kept ?_ | refine setMac_kept ?_ | dsimp only

theorem State.choose_kept {p : Nat} (h : Kept z s) :
    Kept z (State.choose s p) := by
  unfold State.choose
  with_reducible repeat' first
    | assumption
    | (extract_lets +onlyGivenNames x; first | (have hx : Kept z x := (by unfold x; clear x; repeat' first | assumption | refine markHeld_kept ?_ | refine settle_kept ?_ | refine dropTooBig_kept ?_ | refine startFrame_kept ?_ | refine unqueue_kept ?_ | refine refresh_kept ?_ | refine dropFrame_kept ?_ | refine startTx_kept ?_ | refine setMac_kept ?_ | refine Kept.cond ?_ ?_ | split); clear_value x) | clear_value x)
    | refine markHeld_kept ?_ | refine settle_kept ?_ | refine dropTooBig_kept ?_ | refine startFrame_kept ?_
    | refine unqueue_kept ?_ | refine refresh_kept ?_ | refine dropFrame_kept ?_ | refine startTx_kept ?_
    | refine setMac_kept ?_ | refine Kept.cond ?_ ?_ | split

theorem State.selection_kept {p : Nat} (h : Kept z s) :
    Kept z (State.selection s p) := by
  unfold State.selection
  with_reducible repeat' first
    | assumption
    | (extract_lets +onlyGivenNames x; first | (have hx : Kept z x := (by unfold x; clear x; repeat' first | assumption | refine endFragment_kept ?_ | refine sendVerify_kept ?_ | refine sendRespond_kept ?_ | refine choose_kept ?_ | refine Kept.cond ?_ ?_ | split); clear_value x) | clear_value x)
    | refine endFragment_kept ?_ | refine sendVerify_kept ?_ | refine sendRespond_kept ?_ | refine choose_kept ?_
    | refine Kept.cond ?_ ?_ | split

theorem State.countGood_kept {p n len da : Nat} (h : Kept z s) :
    Kept z (State.countGood s p n len da) := by
  unfold State.countGood
  with_reducible repeat' first
    | assumption | refine macCount_kept ?_

theorem State.leaving_kept {p : Nat} {f : TxFrame} {t1 : Nat} (h : Kept z s) :
    Kept z (State.leaving s p f t1).2 := by
  unfold State.leaving
  with_reducible repeat' first
    | assumption | refine tcCorrect_kept ?_ | refine Kept.cond ?_ ?_ | refine Kept.condSnd ?_ ?_ | dsimp only

theorem State.txDone_kept {p pcs : Nat} (h : Kept z s) :
    Kept z (State.txDone s p pcs) := by
  unfold State.txDone
  with_reducible repeat' first
    | assumption
    | (extract_lets +onlyGivenNames x; first | (have hx : Kept z x := (by unfold x; clear x; repeat' first | assumption | refine leaving_kept ?_ | refine emitPart_kept ?_ | refine charge_kept ?_ | refine emit_kept ?_ | refine setMac_kept ?_ | refine pairCount_kept ?_ | refine countGood_kept ?_ | refine ptpDeparted_kept ?_ | refine copyDone_kept ?_ | refine refresh_kept ?_ | refine Kept.cond ?_ ?_ | refine Kept.condSnd ?_ ?_ | split | dsimp only); clear_value x) | (have hx : Kept z x.2 := (by unfold x; clear x; repeat' first | assumption | refine leaving_kept ?_ | refine emitPart_kept ?_ | refine charge_kept ?_ | refine emit_kept ?_ | refine setMac_kept ?_ | refine pairCount_kept ?_ | refine countGood_kept ?_ | refine ptpDeparted_kept ?_ | refine copyDone_kept ?_ | refine refresh_kept ?_ | refine Kept.cond ?_ ?_ | refine Kept.condSnd ?_ ?_ | split | dsimp only); clear_value x) | clear_value x)
    | refine leaving_kept ?_ | refine emitPart_kept ?_ | refine charge_kept ?_ | refine emit_kept ?_
    | refine setMac_kept ?_ | refine pairCount_kept ?_ | refine countGood_kept ?_ | refine ptpDeparted_kept ?_
    | refine copyDone_kept ?_ | refine refresh_kept ?_ | refine Kept.cond ?_ ?_ | refine Kept.condSnd ?_ ?_ | split
    | dsimp only

theorem State.present_kept {p gates : Nat} {hold : Bool} (h : Kept z s) :
    Kept z (State.present s p gates hold) := by
  unfold State.present
  with_reducible repeat' first
    | assumption
    | (extract_lets +onlyGivenNames x; first | (have hx : Kept z x := (by unfold x; clear x; repeat' first | assumption | refine when_kept ?_ ?_ | refine gateCount_kept ?_ | refine fset_kept ?_ | refine fput_kept ?_ | refine showStopped_kept ?_ | refine Kept.cond ?_ ?_ | (intro _ _; intros; beta_reduce)); clear_value x) | clear_value x)
    | refine when_kept ?_ ?_ | refine gateCount_kept ?_ | refine fset_kept ?_ | refine fput_kept ?_
    | refine showStopped_kept ?_ | refine Kept.cond ?_ ?_ | (intro _ _; intros; beta_reduce)

theorem State.resync_kept {p : Nat} (h : Kept z s) :
    Kept z (State.resync s p) := by
  unfold State.resync
  with_reducible repeat' first
    | assumption | refine present_kept ?_ | refine Kept.cond ?_ ?_ | dsimp only

theorem State.resyncAll_kept (h : Kept z s) :
    Kept z (State.resyncAll s) := by
  unfold State.resyncAll
  with_reducible repeat' first
    | assumption | refine eachOf_kept ?_ ?_ | refine resync_kept ?_ | (intro _ _; intros; beta_reduce)

theorem State.guardFrames_kept {p : Nat} (h : Kept z s) :
    Kept z (State.guardFrames s p) := by
  unfold State.guardFrames
  with_reducible repeat' first
    | assumption | refine copyDone_kept ?_ | refine macCount_kept ?_ | refine gateCount_kept ?_
    | refine setMac_kept ?_ | split

theorem State.onGuards_kept {f : List Guard → List Guard} (h : Kept z s) :
    Kept z (State.onGuards s f) := by
  unfold State.onGuards
  with_reducible repeat' first
    | assumption | refine Kept.upd ?_ rfl

theorem State.guardLate_kept {p : Nat} (h : Kept z s) :
    Kept z (State.guardLate s p) := by
  unfold State.guardLate
  with_reducible repeat' first
    | assumption | refine scbCount_kept ?_ | refine gateCount_kept ?_

theorem State.learnPort_kept {id tc p : Nat} (h : Kept z s) :
    Kept z (State.learnPort s id tc p) := by
  unfold State.learnPort
  with_reducible repeat' first
    | assumption
    | (extract_lets +onlyGivenNames x; first | (have hx : Kept z x := (by unfold x; clear x; repeat' first | assumption | refine when_kept ?_ ?_ | refine guardLate_kept ?_ | refine onGuards_kept ?_ | refine Kept.cond ?_ ?_ | (intro _ _; intros; beta_reduce)); clear_value x) | clear_value x)
    | refine when_kept ?_ ?_ | refine guardLate_kept ?_ | refine onGuards_kept ?_ | refine Kept.cond ?_ ?_
    | (intro _ _; intros; beta_reduce)

theorem State.learn_kept {id tc : Nat} {moves : List (Nat × Nat × Nat)} (h : Kept z s) :
    Kept z (State.learn s id tc moves) := by
  unfold State.learn
  with_reducible repeat' first
    | assumption | refine eachOf_kept ?_ ?_ | refine learnPort_kept ?_ | (intro _ _; intros; beta_reduce)

theorem State.arming_kept (h : Kept z s) :
    Kept z (State.arming s) := by
  unfold State.arming
  with_reducible repeat' first
    | assumption | refine Kept.upd ?_ rfl

theorem State.isoDrop_kept {p : Nat} (h : Kept z s) :
    Kept z (State.isoDrop s p) := by
  unfold State.isoDrop
  with_reducible repeat' first
    | assumption | refine scbCount_kept ?_

theorem State.armGuard_kept {p t1 : Nat} (h : Kept z s) :
    Kept z (State.armGuard s p t1) := by
  unfold State.armGuard
  with_reducible repeat' first
    | assumption | refine isoDrop_kept ?_ | refine onGuards_kept ?_ | refine gateCount_kept ?_
    | refine arming_kept ?_ | refine Kept.cond ?_ ?_ | dsimp only

theorem State.armReopen_kept {p t1 : Nat} (h : Kept z s) :
    Kept z (State.armReopen s p t1) := by
  unfold State.armReopen
  with_reducible repeat' first
    | assumption | refine isoDrop_kept ?_ | refine onGuards_kept ?_ | refine arming_kept ?_ | refine Kept.cond ?_ ?_
    | dsimp only

theorem State.represent_kept {p : Nat} (h : Kept z s) :
    Kept z (State.represent s p) := by
  unfold State.represent
  with_reducible repeat' first
    | assumption | refine present_kept ?_

theorem State.closeGuard_kept {g : Guard} (h : Kept z s) :
    Kept z (State.closeGuard s g) := by
  unfold State.closeGuard
  with_reducible repeat' first
    | assumption | refine onGuards_kept ?_ | refine when_kept ?_ ?_ | refine represent_kept ?_
    | refine guardFrames_kept ?_ | refine Kept.cond ?_ ?_ | (intro _ _; intros; beta_reduce) | dsimp only

theorem State.reopenGuard_kept {g : Guard} (h : Kept z s) :
    Kept z (State.reopenGuard s g) := by
  unfold State.reopenGuard
  with_reducible repeat' first
    | assumption | refine onGuards_kept ?_ | refine endRelock_kept ?_ | refine represent_kept ?_
    | refine Kept.cond ?_ ?_ | dsimp only

theorem State.guardCloses_kept {p : Nat} (h : Kept z s) :
    Kept z (State.guardCloses s p) := by
  unfold State.guardCloses
  with_reducible repeat' first
    | assumption | refine closeGuard_kept ?_ | refine Kept.cond ?_ ?_ | refine Kept.foldSnd ?_ ?_
    | refine Kept.fold ?_ ?_ | (intro _ _; intros; beta_reduce) | split

theorem State.guardReopens_kept {p : Nat} (h : Kept z s) :
    Kept z (State.guardReopens s p) := by
  unfold State.guardReopens
  with_reducible repeat' first
    | assumption | refine reopenGuard_kept ?_ | refine Kept.cond ?_ ?_ | refine Kept.foldSnd ?_ ?_
    | refine Kept.fold ?_ ?_ | (intro _ _; intros; beta_reduce) | split

theorem State.endGuards_kept {id : Nat} (h : Kept z s) :
    Kept z (State.endGuards s id) := by
  unfold State.endGuards
  with_reducible repeat' first
    | assumption | refine onGuards_kept ?_

theorem State.forgetGuards_kept {id : Nat} (h : Kept z s) :
    Kept z (State.forgetGuards s id) := by
  unfold State.forgetGuards
  with_reducible repeat' first
    | assumption | refine onGuards_kept ?_

theorem State.voidGuards_kept {id : Nat} (h : Kept z s) :
    Kept z (State.voidGuards s id) := by
  unfold State.voidGuards
  with_reducible repeat' first
    | assumption | refine forgetGuards_kept ?_ | refine eachOf_kept ?_ ?_ | refine gateCount_kept ?_
    | (intro _ _; intros; beta_reduce) | dsimp only

theorem State.onEdges_kept {f : List Edge → List Edge} (h : Kept z s) :
    Kept z (State.onEdges s f) := by
  unfold State.onEdges
  with_reducible repeat' first
    | assumption | refine Kept.upd ?_ rfl

theorem State.actEdge_kept {e : Edge} (h : Kept z s) :
    Kept z (State.actEdge s e) := by
  unfold State.actEdge
  with_reducible repeat' first
    | assumption
    | (extract_lets +onlyGivenNames x; first | (have hx : Kept z x := (by unfold x; clear x; repeat' first | assumption | refine present_kept ?_ | refine Kept.cond ?_ ?_); clear_value x) | clear_value x)
    | refine present_kept ?_ | refine Kept.cond ?_ ?_

theorem State.release_kept {e : Edge} (h : Kept z s) :
    Kept z (State.release s e) := by
  unfold State.release
  with_reducible repeat' first
    | assumption | refine actEdge_kept ?_ | refine onEdges_kept ?_

theorem State.fireEdge_kept {p kind : Nat} (h : Kept z s) :
    Kept z (State.fireEdge s p kind) := by
  unfold State.fireEdge
  with_reducible repeat' first
    | assumption | refine release_kept ?_ | split

theorem State.fireAt_kept {p kind t1 : Nat} (h : Kept z s) :
    Kept z (State.fireAt s p kind t1) := by
  unfold State.fireAt
  with_reducible repeat' first
    | assumption | refine release_kept ?_ | split

theorem State.closeLate_kept {p t1 : Nat} (h : Kept z s) :
    Kept z (State.closeLate s p t1) := by
  unfold State.closeLate
  with_reducible repeat' first
    | assumption | refine closeGuard_kept ?_ | split

theorem State.reopenLate_kept {p t1 : Nat} (h : Kept z s) :
    Kept z (State.reopenLate s p t1) := by
  unfold State.reopenLate
  with_reducible repeat' first
    | assumption | refine reopenGuard_kept ?_ | split

theorem State.putInstant_kept {a t1 frac : Nat} (h : Kept z s) :
    Kept z (State.putInstant s a t1 frac) := by
  unfold State.putInstant
  with_reducible repeat' first
    | assumption | refine wr_kept ?_

theorem State.rejectBank_kept {code : Nat} (h : Kept z s) :
    Kept z (State.rejectBank s code) := by
  unfold State.rejectBank
  with_reducible repeat' first
    | assumption | refine scbEvent_kept ?_ | refine fput_kept ?_

theorem State.writeScbAct_kept {w : Nat} (h : Kept z s) :
    Kept z (State.writeScbAct s w) := by
  unfold State.writeScbAct
  with_reducible repeat' first
    | assumption | exact Kept.upd (by assumption) rfl
    | (extract_lets +onlyGivenNames x; first | (have hx : Kept z x := (by unfold x; clear x; repeat' first | assumption | exact Kept.upd (by assumption) rfl | refine when_kept ?_ ?_ | refine onEdges_kept ?_ | refine fset_kept ?_ | refine rejectBank_kept ?_ | refine Kept.cond ?_ ?_ | refine Kept.upd ?_ rfl | (intro _ _; intros; beta_reduce)); clear_value x) | clear_value x)
    | refine when_kept ?_ ?_ | refine onEdges_kept ?_ | refine fset_kept ?_ | refine rejectBank_kept ?_
    | refine Kept.cond ?_ ?_ | refine Kept.upd ?_ rfl | (intro _ _; intros; beta_reduce)

theorem State.validated_kept (h : Kept z s) :
    Kept z (State.validated s) := by
  unfold State.validated
  with_reducible repeat' first
    | assumption | exact Kept.upd (by assumption) rfl
    | (extract_lets +onlyGivenNames x; first | (have hx : Kept z x := (by unfold x; clear x; repeat' first | assumption | exact Kept.upd (by assumption) rfl | refine fset_kept ?_ | refine rejectBank_kept ?_ | refine when_kept ?_ ?_ | refine scbEvent_kept ?_ | refine scbCount_kept ?_ | refine Kept.cond ?_ ?_ | refine Kept.upd ?_ rfl | (intro _ _; intros; beta_reduce)); clear_value x) | clear_value x)
    | refine fset_kept ?_ | refine rejectBank_kept ?_ | refine when_kept ?_ ?_ | refine scbEvent_kept ?_
    | refine scbCount_kept ?_ | refine Kept.cond ?_ ?_ | refine Kept.upd ?_ rfl | (intro _ _; intros; beta_reduce)

theorem State.bankSwitch_kept (h : Kept z s) :
    Kept z (State.bankSwitch s) := by
  unfold State.bankSwitch
  with_reducible repeat' first
    | assumption | exact Kept.upd (by assumption) rfl
    | (extract_lets +onlyGivenNames x; first | (have hx : Kept z x := (by unfold x; clear x; repeat' first | assumption | exact Kept.upd (by assumption) rfl | refine fset_kept ?_ | refine fput_kept ?_ | refine wr_kept ?_ | refine putInstant_kept ?_ | refine pulse_kept ?_ | refine scbEvent_kept ?_ | refine eachOf_kept ?_ ?_ | refine present_kept ?_ | refine Kept.cond ?_ ?_ | refine Kept.foldSnd ?_ ?_ | refine Kept.fold ?_ ?_ | (intro _ _; intros; beta_reduce) | refine Kept.upd ?_ rfl | (intro _ _; intros; beta_reduce)); clear_value x) | clear_value x)
    | refine fset_kept ?_ | refine fput_kept ?_ | refine wr_kept ?_ | refine putInstant_kept ?_
    | refine pulse_kept ?_ | refine scbEvent_kept ?_ | refine eachOf_kept ?_ ?_ | refine present_kept ?_
    | refine Kept.cond ?_ ?_ | refine Kept.foldSnd ?_ ?_ | refine Kept.fold ?_ ?_ | (intro _ _; intros; beta_reduce)
    | refine Kept.upd ?_ rfl

theorem State.cycleStart_kept (h : Kept z s) :
    Kept z (State.cycleStart s) := by
  unfold State.cycleStart
  with_reducible repeat' first
    | assumption | refine cnt_kept ?_ | refine eachOf_kept ?_ ?_ | refine present_kept ?_ | refine Kept.cond ?_ ?_
    | refine Kept.foldSnd ?_ ?_ | refine Kept.fold ?_ ?_ | (intro _ _; intros; beta_reduce) | dsimp only

theorem State.writeSched_kept {a v : Nat} (h : Kept z s) :
    Kept z (State.writeSched s a v) := by
  unfold State.writeSched
  with_reducible repeat' first
    | assumption | refine wr_kept ?_ | refine scbCount_kept ?_ | refine Kept.cond ?_ ?_

theorem State.writeScbCtl_kept {w : Nat} (h : Kept z s) :
    Kept z (State.writeScbCtl s w) := by
  unfold State.writeScbCtl
  with_reducible repeat' first
    | assumption | refine store_kept ?_ | refine resyncAll_kept ?_ | refine when_kept ?_ ?_ | refine Kept.cond ?_ ?_
    | refine Kept.upd ?_ rfl | (intro _ _; intros; beta_reduce) | dsimp only

theorem State.setLink_kept {q : Nat} {x : Link} (h : Kept z s) :
    Kept z (State.setLink s q x) := by
  unfold State.setLink
  with_reducible repeat' first
    | assumption | refine Kept.upd ?_ rfl

theorem State.sendFlit_kept {q type seq arg : Nat} {payload : List Nat} (h : Kept z s) :
    Kept z (State.sendFlit s q type seq arg payload) := by
  unfold State.sendFlit
  with_reducible repeat' first
    | assumption | refine emit_kept ?_ | refine setLink_kept ?_ | dsimp only

theorem State.sendCmd_kept {q : Nat} {c : Cmd} (h : Kept z s) :
    Kept z (State.sendCmd s q c) := by
  unfold State.sendCmd
  with_reducible repeat' first
    | assumption | refine sendFlit_kept ?_

theorem State.pumpCmds_kept {q y2 : Nat} (h : Kept z s) :
    Kept z (State.pumpCmds s q y2) := by
  induction y2 generalizing q s with
  | zero => exact h
  | succ n ih =>
  rw [State.pumpCmds]
  with_reducible repeat' first
    | assumption | refine ih ?_ | refine sendCmd_kept ?_ | refine setLink_kept ?_ | refine Kept.cond ?_ ?_ | split

theorem State.command_kept {q op : Nat} {words : List Nat} (h : Kept z s) :
    Kept z (State.command s q op words) := by
  unfold State.command
  with_reducible repeat' first
    | assumption | refine pumpCmds_kept ?_ | refine setLink_kept ?_ | dsimp only

theorem State.commandFirst_kept {q op : Nat} {words : List Nat} (h : Kept z s) :
    Kept z (State.commandFirst s q op words) := by
  unfold State.commandFirst
  with_reducible repeat' first
    | assumption | refine pumpCmds_kept ?_ | refine setLink_kept ?_ | dsimp only

theorem State.dropCmds_kept {q : Nat} (h : Kept z s) :
    Kept z (State.dropCmds s q) := by
  unfold State.dropCmds
  with_reducible repeat' first
    | assumption | refine setLink_kept ?_

theorem State.grfCountBy_kept {q n k : Nat} (h : Kept z s) :
    Kept z (State.grfCountBy s q n k) := by
  unfold State.grfCountBy
  with_reducible repeat' first
    | assumption | refine when_kept ?_ ?_ | refine wr_kept ?_ | refine halfRange_kept ?_
    | (intro _ _; intros; beta_reduce) | dsimp only

theorem State.goodFlit_kept {q fcnt : Nat} (h : Kept z s) :
    Kept z (State.goodFlit s q fcnt) := by
  unfold State.goodFlit
  with_reducible repeat' first
    | assumption
    | (extract_lets +onlyGivenNames x; first | (have hx : Kept z x := (by unfold x; clear x; repeat' first | assumption | refine setLink_kept ?_ | refine when_kept ?_ ?_ | refine grfCountBy_kept ?_ | split | (intro _ _; intros; beta_reduce)); clear_value x) | clear_value x)
    | refine setLink_kept ?_ | refine when_kept ?_ ?_ | refine grfCountBy_kept ?_ | split
    | (intro _ _; intros; beta_reduce)

theorem State.driveHold_kept {q : Nat} (h : Kept z s) :
    Kept z (State.driveHold s q) := by
  unfold State.driveHold
  with_reducible repeat' first
    | assumption | refine fset_kept ?_ | refine pin_kept ?_ | refine Kept.cond ?_ ?_ | dsimp only

theorem State.setHoldRel_kept {q : Nat} {b : Bool} (h : Kept z s) :
    Kept z (State.setHoldRel s q b) := by
  unfold State.setHoldRel
  with_reducible repeat' first
    | assumption | refine driveHold_kept ?_ | refine fset_kept ?_

theorem State.tapsInvalid_kept {q : Nat} (h : Kept z s) :
    Kept z (State.tapsInvalid s q) := by
  unfold State.tapsInvalid
  with_reducible repeat' first
    | assumption | refine forUpTo_kept ?_ ?_ | refine fset_kept ?_ | (intro _ _; intros; beta_reduce)

end Sys2Proof.Machine
end

