-- ==== Sys2Proof/Laws/KeptSlices.lean ====
section
/-! SUPPORT. What the operations of NitOps, AnlOps, FabOps, GrfOps keep: the queue, and a sound state. -/

set_option Elab.async false

namespace Sys2Proof.Machine

variable {z s : State}

theorem State.setNit_kept {q : Nat} {x : Nit} (h : Kept z s) :
    Kept z (State.setNit s q x) := by
  unfold State.setNit
  with_reducible repeat' first
    | assumption | refine Kept.upd ?_ rfl

theorem State.setLand_kept {m : Nat} {x : Landing} (h : Kept z s) :
    Kept z (State.setLand s m x) := by
  unfold State.setLand
  with_reducible repeat' first
    | assumption | refine Kept.upd ?_ rfl

theorem State.onNitCommit_kept {q id : Nat} {f : NitCommit → NitCommit} (h : Kept z s) :
    Kept z (State.onNitCommit s q id f) := by
  unfold State.onNitCommit
  with_reducible repeat' first
    | assumption | refine setNit_kept ?_ | refine Kept.cond ?_ ?_

theorem State.giveResult_kept {q id code : Nat} (h : Kept z s) :
    Kept z (State.giveResult s q id code) := by
  unfold State.giveResult
  with_reducible repeat' first
    | assumption | refine when_kept ?_ ?_ | refine nitCount_kept ?_ | refine onNitCommit_kept ?_
    | refine Kept.cond ?_ ?_ | (intro _ _; intros; beta_reduce) | dsimp only

theorem State.sendBinds_kept {q : Nat} {l : List (Nat × Nat)} {y3 : Nat} (h : Kept z s) :
    Kept z (State.sendBinds s q l y3) := by
  induction y3 generalizing q l s with
  | zero => exact h
  | succ n ih =>
  unfold State.sendBinds
  with_reducible repeat' first
    | assumption | refine ih ?_
    | (extract_lets +onlyGivenNames x; first | (have hx : Kept z x := (by unfold x; clear x; repeat' first | assumption | refine ih ?_ | refine sendFlit_kept ?_ | split); clear_value x) | clear_value x)
    | refine sendFlit_kept ?_ | split

theorem State.bindTo_kept {q i id c dest start : Nat} (h : Kept z s) :
    Kept z (State.bindTo s q i id c dest start) := by
  unfold State.bindTo
  with_reducible repeat' first
    | assumption
    | (extract_lets +onlyGivenNames x; first | (have hx : Kept z x := (by unfold x; clear x; repeat' first | assumption | refine fput_kept ?_ | refine wr_kept ?_ | refine setNit_kept ?_ | refine setLand_kept ?_); clear_value x) | clear_value x)
    | refine fput_kept ?_ | refine wr_kept ?_ | refine setNit_kept ?_ | refine setLand_kept ?_

theorem State.bindOrWait_kept {q start : Nat} {x : Nat × Nat × Nat} (h : Kept z s) :
    Kept z (State.bindOrWait s q start x).2 := by
  unfold State.bindOrWait
  with_reducible repeat' first
    | assumption | refine bindTo_kept ?_ | refine setNit_kept ?_ | split | dsimp only

theorem State.bindAll_kept {q : Nat} {l : List (Nat × Nat × Nat)} (h : Kept z s) :
    Kept z (State.bindAll s q l) := by
  unfold State.bindAll
  with_reducible repeat' first
    | assumption | refine bindOrWait_kept ?_ | refine sendBinds_kept ?_ | refine Kept.foldSnd ?_ ?_
    | refine Kept.fold ?_ ?_ | (intro _ _; intros; beta_reduce) | dsimp only

theorem State.serveWait_kept {q : Nat} (h : Kept z s) :
    Kept z (State.serveWait s q) := by
  unfold State.serveWait
  with_reducible repeat' first
    | assumption | refine bindAll_kept ?_ | refine setNit_kept ?_ | refine Kept.cond ?_ ?_
    | refine Kept.foldSnd ?_ ?_ | refine Kept.fold ?_ ?_ | (intro _ _; intros; beta_reduce) | dsimp only

theorem State.setLatency_kept {q w : Nat} (h : Kept z s) :
    Kept z (State.setLatency s q w) := by
  unfold State.setLatency
  with_reducible repeat' first
    | assumption
    | (extract_lets +onlyGivenNames x; first | (have hx : Kept z x := (by unfold x; clear x; repeat' first | assumption | refine fput_kept ?_ | refine setLink_kept ?_); clear_value x) | clear_value x)
    | refine fput_kept ?_ | refine setLink_kept ?_

theorem State.applyNewW_kept {q : Nat} (h : Kept z s) :
    Kept z (State.applyNewW s q) := by
  unfold State.applyNewW
  with_reducible repeat' first
    | assumption | refine setLatency_kept ?_ | refine Kept.cond ?_ ?_ | split

theorem State.leaveTail_kept {m : Nat} (h : Kept z s) :
    Kept z (State.leaveTail s m) := by
  unfold State.leaveTail
  with_reducible repeat' first
    | assumption
    | (extract_lets +onlyGivenNames x; first | (have hx : Kept z x := (by unfold x; clear x; repeat' first | assumption | refine setNit_kept ?_ | refine Kept.cond ?_ ?_); clear_value x) | clear_value x)
    | refine setNit_kept ?_ | refine Kept.cond ?_ ?_

theorem State.freeCh_kept {m : Nat} (h : Kept z s) :
    Kept z (State.freeCh s m) := by
  unfold State.freeCh
  with_reducible repeat' first
    | assumption | exact Kept.upd (by assumption) rfl
    | (extract_lets +onlyGivenNames x; first | (have hx : Kept z x := (by unfold x; clear x; repeat' first | assumption | exact Kept.upd (by assumption) rfl | refine leaveTail_kept ?_ | refine fput_kept ?_ | refine wr_kept ?_ | refine applyNewW_kept ?_ | refine Kept.upd ?_ rfl); clear_value x) | clear_value x)
    | refine leaveTail_kept ?_ | refine fput_kept ?_ | refine wr_kept ?_ | refine applyNewW_kept ?_
    | refine Kept.upd ?_ rfl

theorem State.lifted_kept {q c : Nat} (h : Kept z s) :
    Kept z (State.lifted s q c) := by
  unfold State.lifted
  with_reducible repeat' first
    | assumption | refine when_kept ?_ ?_ | refine setNit_kept ?_ | refine nitEvent_kept ?_ | refine fset_kept ?_
    | refine Kept.cond ?_ ?_ | (intro _ _; intros; beta_reduce) | dsimp only

theorem State.armCell_kept {q c : Nat} (h : Kept z s) :
    Kept z (State.armCell s q c) := by
  unfold State.armCell
  with_reducible repeat' first
    | assumption | refine lifted_kept ?_ | refine fset_kept ?_

theorem State.writeTarget_kept {q a v : Nat} (h : Kept z s) :
    Kept z (State.writeTarget s q a v) := by
  unfold State.writeTarget
  with_reducible repeat' first
    | assumption | refine wr_kept ?_ | refine lifted_kept ?_ | refine when_kept ?_ ?_ | refine setNit_kept ?_
    | refine Kept.cond ?_ ?_ | (intro _ _; intros; beta_reduce) | dsimp only

theorem State.parkCell_kept {q c cause : Nat} (h : Kept z s) :
    Kept z (State.parkCell s q c cause) := by
  unfold State.parkCell
  with_reducible repeat' first
    | assumption
    | (extract_lets +onlyGivenNames x; first | (have hx : Kept z x := (by unfold x; clear x; repeat' first | assumption | refine when_kept ?_ ?_ | refine fput_kept ?_ | refine nitCount_kept ?_ | refine corrected_kept ?_ | refine nitEvent_kept ?_ | (intro _ _; intros; beta_reduce)); clear_value x) | clear_value x)
    | refine when_kept ?_ ?_ | refine fput_kept ?_ | refine nitCount_kept ?_ | refine corrected_kept ?_
    | refine nitEvent_kept ?_ | (intro _ _; intros; beta_reduce)

theorem State.dropWaiting_kept {q c code : Nat} (h : Kept z s) :
    Kept z (State.dropWaiting s q c code) := by
  unfold State.dropWaiting
  with_reducible repeat' first
    | assumption
    | (extract_lets +onlyGivenNames x; first | (have hx : Kept z x := (by unfold x; clear x; repeat' first | assumption | refine setNit_kept ?_ | refine eachOf_kept ?_ ?_ | refine giveResult_kept ?_ | (intro _ _; intros; beta_reduce)); clear_value x) | clear_value x)
    | refine setNit_kept ?_ | refine eachOf_kept ?_ ?_ | refine giveResult_kept ?_
    | (intro _ _; intros; beta_reduce)

theorem State.endTakeover_kept {m code : Nat} (h : Kept z s) :
    Kept z (State.endTakeover s m code) := by
  unfold State.endTakeover
  with_reducible repeat' first
    | assumption | refine setLand_kept ?_ | refine giveResult_kept ?_ | split

theorem State.keepSense_kept {q m : Nat} (h : Kept z s) :
    Kept z (State.keepSense s q m) := by
  unfold State.keepSense
  with_reducible repeat' first
    | assumption | refine fput_kept ?_

theorem State.interruptCh_kept {m : Nat} (h : Kept z s) :
    Kept z (State.interruptCh s m) := by
  unfold State.interruptCh
  with_reducible repeat' first
    | assumption
    | (extract_lets +onlyGivenNames x; first | (have hx : Kept z x := (by unfold x; clear x; repeat' first | assumption | refine keepSense_kept ?_ | refine freeCh_kept ?_ | refine endTakeover_kept ?_ | refine giveResult_kept ?_ | refine fput_kept ?_ | refine nitCount_kept ?_ | refine Kept.cond ?_ ?_ | split); clear_value x) | clear_value x)
    | refine keepSense_kept ?_ | refine freeCh_kept ?_ | refine endTakeover_kept ?_ | refine giveResult_kept ?_
    | refine fput_kept ?_ | refine nitCount_kept ?_ | refine Kept.cond ?_ ?_ | split

theorem State.interruptCell_kept {q id c dest : Nat} (h : Kept z s) :
    Kept z (State.interruptCell s q id c dest) := by
  unfold State.interruptCell
  with_reducible repeat' first
    | assumption | refine nitCount_kept ?_ | refine giveResult_kept ?_ | refine fput_kept ?_

theorem State.nitInterrupt_kept {q : Nat} (h : Kept z s) :
    Kept z (State.nitInterrupt s q) := by
  unfold State.nitInterrupt
  with_reducible repeat' first
    | assumption
    | (extract_lets +onlyGivenNames x; first | (have hx : Kept z x := (by unfold x; clear x; repeat' first | assumption | refine forUpTo_kept ?_ ?_ | refine interruptCh_kept ?_ | refine eachOf_kept ?_ ?_ | refine interruptCell_kept ?_ | refine fset_kept ?_ | refine setNit_kept ?_ | (intro _ _; intros; beta_reduce)); clear_value x) | clear_value x)
    | refine forUpTo_kept ?_ ?_ | refine interruptCh_kept ?_ | refine eachOf_kept ?_ ?_
    | refine interruptCell_kept ?_ | refine fset_kept ?_ | refine setNit_kept ?_ | (intro _ _; intros; beta_reduce)

theorem State.reacqFail_kept {q : Nat} (h : Kept z s) :
    Kept z (State.reacqFail s q) := by
  unfold State.reacqFail
  with_reducible repeat' first
    | assumption | refine setNit_kept ?_ | refine fset_kept ?_ | refine corrected_kept ?_ | refine nitEvent_kept ?_
    | dsimp only

theorem State.nitLinkLost_kept {q : Nat} (h : Kept z s) :
    Kept z (State.nitLinkLost s q) := by
  unfold State.nitLinkLost
  with_reducible repeat' first
    | assumption | refine nitInterrupt_kept ?_ | refine when_kept ?_ ?_ | refine reacqFail_kept ?_
    | refine setNit_kept ?_ | (intro _ _; intros; beta_reduce) | dsimp only

theorem State.wantReacq_kept {q : Nat} (h : Kept z s) :
    Kept z (State.wantReacq s q) := by
  unfold State.wantReacq
  with_reducible repeat' first
    | assumption | refine when_kept ?_ ?_ | refine setNit_kept ?_ | (intro _ _; intros; beta_reduce)

theorem State.takeOver_kept {q m id dest start : Nat} (h : Kept z s) :
    Kept z (State.takeOver s q m id dest start) := by
  unfold State.takeOver
  with_reducible repeat' first
    | assumption | refine when_kept ?_ ?_ | refine nitCount_kept ?_ | refine endTakeover_kept ?_
    | refine setLand_kept ?_ | (intro _ _; intros; beta_reduce) | dsimp only

theorem State.preempt_kept {q m c id dest start : Nat} (h : Kept z s) :
    Kept z (State.preempt s q m c id dest start) := by
  unfold State.preempt
  with_reducible repeat' first
    | assumption
    | (extract_lets +onlyGivenNames x; first | (have hx : Kept z x := (by unfold x; clear x; repeat' first | assumption | refine nitCount_kept ?_ | refine giveResult_kept ?_ | refine fput_kept ?_ | refine leaveTail_kept ?_ | refine wr_kept ?_ | refine setLand_kept ?_); clear_value x) | clear_value x)
    | refine nitCount_kept ?_ | refine giveResult_kept ?_ | refine fput_kept ?_ | refine leaveTail_kept ?_
    | refine wr_kept ?_ | refine setLand_kept ?_

theorem State.preemptAt_kept {q m at' : Nat} (h : Kept z s) :
    Kept z (State.preemptAt s q m at') := by
  unfold State.preemptAt
  with_reducible repeat' first
    | assumption | refine preempt_kept ?_ | refine Kept.cond ?_ ?_ | split

theorem State.landRequest_kept {q id start : Nat} {x : Nat × Nat} (h : Kept z s) :
    Kept z (State.landRequest s q id start x).2 := by
  unfold State.landRequest
  with_reducible repeat' first
    | assumption
    | (extract_lets +onlyGivenNames x; first | (have hx : Kept z x := (by unfold x; clear x; repeat' first | assumption | refine giveResult_kept ?_ | refine interruptCell_kept ?_ | refine takeOver_kept ?_ | refine when_kept ?_ ?_ | refine dropWaiting_kept ?_ | refine nitCount_kept ?_ | refine Kept.cond ?_ ?_ | refine Kept.condSnd ?_ ?_ | split | (intro _ _; intros; beta_reduce) | dsimp only); clear_value x) | (have hx : Kept z x.2 := (by unfold x; clear x; repeat' first | assumption | refine giveResult_kept ?_ | refine interruptCell_kept ?_ | refine takeOver_kept ?_ | refine when_kept ?_ ?_ | refine dropWaiting_kept ?_ | refine nitCount_kept ?_ | refine Kept.cond ?_ ?_ | refine Kept.condSnd ?_ ?_ | split | (intro _ _; intros; beta_reduce) | dsimp only); clear_value x) | clear_value x)
    | refine giveResult_kept ?_ | refine interruptCell_kept ?_ | refine takeOver_kept ?_ | refine when_kept ?_ ?_
    | refine dropWaiting_kept ?_ | refine nitCount_kept ?_ | refine Kept.cond ?_ ?_ | refine Kept.condSnd ?_ ?_
    | split | (intro _ _; intros; beta_reduce) | dsimp only

theorem State.setRetired_kept {q w : Nat} (h : Kept z s) :
    Kept z (State.setRetired s q w) := by
  unfold State.setRetired
  with_reducible repeat' first
    | assumption | refine fput_kept ?_ | refine wr_kept ?_ | dsimp only

theorem State.setAnl_kept {q : Nat} {x : Anl} (h : Kept z s) :
    Kept z (State.setAnl s q x) := by
  unfold State.setAnl
  with_reducible repeat' first
    | assumption | refine Kept.upd ?_ rfl

theorem State.firstDue_kept {q : Nat} (h : Kept z s) :
    Kept z (State.firstDue s q) := by
  unfold State.firstDue
  with_reducible repeat' first
    | assumption | refine when_kept ?_ ?_ | refine fset_kept ?_ | (intro _ _; intros; beta_reduce)

theorem State.tryPass_kept {q : Nat} (h : Kept z s) :
    Kept z (State.tryPass s q) := by
  unfold State.tryPass
  with_reducible repeat' first
    | assumption
    | (extract_lets +onlyGivenNames x; first | (have hx : Kept z x := (by unfold x; clear x; repeat' first | assumption | refine firstDue_kept ?_ | refine fset_kept ?_ | refine clr_kept ?_ | refine eachOf_kept ?_ ?_ | refine fput_kept ?_ | refine setAnl_kept ?_ | refine Kept.cond ?_ ?_ | (intro _ _; intros; beta_reduce)); clear_value x) | clear_value x)
    | refine firstDue_kept ?_ | refine fset_kept ?_ | refine clr_kept ?_ | refine eachOf_kept ?_ ?_
    | refine fput_kept ?_ | refine setAnl_kept ?_ | refine Kept.cond ?_ ?_ | (intro _ _; intros; beta_reduce)

theorem State.passDue_kept {q : Nat} (h : Kept z s) :
    Kept z (State.passDue s q) := by
  unfold State.passDue
  with_reducible repeat' first
    | assumption | refine tryPass_kept ?_ | refine fset_kept ?_

theorem State.zoneReading_kept {z1 temp : Nat} {valid : Bool} (h : Kept z s) :
    Kept z (State.zoneReading s z1 temp valid) := by
  unfold State.zoneReading
  with_reducible repeat' first
    | assumption
    | (extract_lets +onlyGivenNames x; first | (have hx : Kept z x := (by unfold x; clear x; repeat' first | assumption | refine fset_kept ?_ | refine fput_kept ?_ | refine when_kept ?_ ?_ | refine anlCount_kept ?_ | refine setAnl_kept ?_ | refine tryPass_kept ?_ | refine Kept.cond ?_ ?_ | (intro _ _; intros; beta_reduce)); clear_value x) | clear_value x)
    | refine fset_kept ?_ | refine fput_kept ?_ | refine when_kept ?_ ?_ | refine anlCount_kept ?_
    | refine setAnl_kept ?_ | refine tryPass_kept ?_ | refine Kept.cond ?_ ?_ | (intro _ _; intros; beta_reduce)

theorem State.nextWalk_kept {q : Nat} (h : Kept z s) :
    Kept z (State.nextWalk s q) := by
  unfold State.nextWalk
  with_reducible repeat' first
    | assumption | refine setAnl_kept ?_ | refine Kept.cond ?_ ?_ | dsimp only

theorem State.endPass_kept {q : Nat} (h : Kept z s) :
    Kept z (State.endPass s q) := by
  unfold State.endPass
  with_reducible repeat' first
    | assumption
    | (extract_lets +onlyGivenNames x; first | (have hx : Kept z x := (by unfold x; clear x; repeat' first | assumption | refine nextWalk_kept ?_ | refine anlCount_kept ?_ | refine fset_kept ?_ | refine wr_kept ?_ | refine tryPass_kept ?_ | refine anlEvent_kept ?_ | refine Kept.cond ?_ ?_); clear_value x) | clear_value x)
    | refine nextWalk_kept ?_ | refine anlCount_kept ?_ | refine fset_kept ?_ | refine wr_kept ?_
    | refine tryPass_kept ?_ | refine anlEvent_kept ?_ | refine Kept.cond ?_ ?_

theorem State.putStatus_kept {q g : Nat} {x : Fld} {v : Nat} (h : Kept z s) :
    Kept z (State.putStatus s q g x v) := by
  unfold State.putStatus
  with_reducible repeat' first
    | assumption | refine memWritten_kept ?_ | refine fput_kept ?_

theorem State.setSrc_kept {q g n : Nat} (h : Kept z s) :
    Kept z (State.setSrc s q g n) := by
  unfold State.setSrc
  with_reducible repeat' first
    | assumption | refine putStatus_kept ?_

theorem State.setUncal_kept {q g : Nat} {b : Bool} (h : Kept z s) :
    Kept z (State.setUncal s q g b) := by
  unfold State.setUncal
  with_reducible repeat' first
    | assumption | refine fput_kept ?_ | refine putStatus_kept ?_ | refine when_kept ?_ ?_ | refine setAnl_kept ?_
    | refine Kept.cond ?_ ?_ | (intro _ _; intros; beta_reduce) | dsimp only

theorem State.uncalBatch_kept {q : Nat} (h : Kept z s) :
    Kept z (State.uncalBatch s q) := by
  unfold State.uncalBatch
  with_reducible repeat' first
    | assumption
    | (extract_lets +onlyGivenNames x; first | (have hx : Kept z x := (by unfold x; clear x; repeat' first | assumption | refine forUpTo_kept ?_ ?_ | refine fset_kept ?_ | refine setAnl_kept ?_ | refine Kept.cond ?_ ?_ | split | (intro _ _; intros; beta_reduce)); clear_value x) | clear_value x)
    | refine forUpTo_kept ?_ ?_ | refine fset_kept ?_ | refine setAnl_kept ?_ | refine Kept.cond ?_ ?_ | split
    | (intro _ _; intros; beta_reduce)

theorem State.endStep_kept {q res : Nat} (h : Kept z s) :
    Kept z (State.endStep s q res) := by
  unfold State.endStep
  with_reducible repeat' first
    | assumption
    | (extract_lets +onlyGivenNames x; first | (have hx : Kept z x := (by unfold x; clear x; repeat' first | assumption | refine putStatus_kept ?_ | refine fset_kept ?_ | refine setAnl_kept ?_ | refine anlCount_kept ?_ | refine corrected_kept ?_ | refine anlEvent_kept ?_ | refine endPass_kept ?_ | split); clear_value x) | clear_value x)
    | refine putStatus_kept ?_ | refine fset_kept ?_ | refine setAnl_kept ?_ | refine anlCount_kept ?_
    | refine corrected_kept ?_ | refine anlEvent_kept ?_ | refine endPass_kept ?_ | split

theorem State.stepStart_kept {q : Nat} (h : Kept z s) :
    Kept z (State.stepStart s q) := by
  unfold State.stepStart
  with_reducible repeat' first
    | assumption
    | (extract_lets +onlyGivenNames x; first | (have hx : Kept z x := (by unfold x; clear x; repeat' first | assumption | refine nextWalk_kept ?_ | refine anlCount_kept ?_ | refine fput_kept ?_ | refine fset_kept ?_ | refine command_kept ?_ | refine setAnl_kept ?_ | refine Kept.cond ?_ ?_ | split); clear_value x) | clear_value x)
    | refine nextWalk_kept ?_ | refine anlCount_kept ?_ | refine fput_kept ?_ | refine fset_kept ?_
    | refine command_kept ?_ | refine setAnl_kept ?_ | refine Kept.cond ?_ ?_ | split

theorem State.readTrimsOf_kept {q g : Nat} (h : Kept z s) :
    Kept z (State.readTrimsOf s q g) := by
  unfold State.readTrimsOf
  with_reducible repeat' first
    | assumption | refine touch_kept ?_ | refine passDue_kept ?_ | refine setUncal_kept ?_ | refine setSrc_kept ?_
    | refine eachOf_kept ?_ ?_ | refine wr_kept ?_ | refine Kept.cond ?_ ?_ | (intro _ _; intros; beta_reduce)
    | dsimp only

theorem State.sendTrims_kept {q g : Nat} {l : List Nat} (h : Kept z s) :
    Kept z (State.sendTrims s q g l) := by
  unfold State.sendTrims
  with_reducible repeat' first
    | assumption | refine command_kept ?_

theorem State.putTrim_kept {q g n v : Nat} (h : Kept z s) :
    Kept z (State.putTrim s q g n v) := by
  unfold State.putTrim
  with_reducible repeat' first
    | assumption | refine memWritten_kept ?_ | refine wr_kept ?_

theorem State.putTrims_kept {q g m : Nat} {l : List Nat} (h : Kept z s) :
    Kept z (State.putTrims s q g m l) := by
  unfold State.putTrims
  with_reducible repeat' first
    | assumption | refine eachOf_kept ?_ ?_ | refine putTrim_kept ?_ | (intro _ _; intros; beta_reduce)

theorem State.applyStep_kept {q : Nat} (h : Kept z s) :
    Kept z (State.applyStep s q) := by
  unfold State.applyStep
  with_reducible repeat' first
    | assumption
    | (extract_lets +onlyGivenNames x; first | (have hx : Kept z x := (by unfold x; clear x; repeat' first | assumption | refine setSrc_kept ?_ | refine touch_kept ?_ | refine putTrims_kept ?_ | refine when_kept ?_ ?_ | refine putStatus_kept ?_ | refine cntF_kept ?_ | refine setUncal_kept ?_ | refine endStep_kept ?_ | (intro _ _; intros; beta_reduce)); clear_value x) | clear_value x)
    | refine setSrc_kept ?_ | refine touch_kept ?_ | refine putTrims_kept ?_ | refine when_kept ?_ ?_
    | refine putStatus_kept ?_ | refine cntF_kept ?_ | refine setUncal_kept ?_ | refine endStep_kept ?_
    | (intro _ _; intros; beta_reduce)

theorem State.stepRsp_kept {q op status : Nat} {words : List Nat} (h : Kept z s) :
    Kept z (State.stepRsp s q op status words) := by
  unfold State.stepRsp
  with_reducible repeat' first
    | assumption
    | (extract_lets +onlyGivenNames x; first | (have hx : Kept z x := (by unfold x; clear x; repeat' first | assumption | refine endStep_kept ?_ | refine command_kept ?_ | refine setAnl_kept ?_ | refine readTrimsOf_kept ?_ | refine sendTrims_kept ?_ | refine applyStep_kept ?_ | refine Kept.cond ?_ ?_ | split); clear_value x) | clear_value x)
    | refine endStep_kept ?_ | refine command_kept ?_ | refine setAnl_kept ?_ | refine readTrimsOf_kept ?_
    | refine sendTrims_kept ?_ | refine applyStep_kept ?_ | refine Kept.cond ?_ ?_ | split

theorem State.preemptOne_kept {q : Nat} (h : Kept z s) :
    Kept z (State.preemptOne s q) := by
  unfold State.preemptOne
  with_reducible repeat' first
    | assumption | refine endStep_kept ?_ | refine setAnl_kept ?_ | refine commandFirst_kept ?_
    | refine Kept.cond ?_ ?_ | dsimp only

theorem State.annealPreempt_kept (h : Kept z s) :
    Kept z (State.annealPreempt s) := by
  unfold State.annealPreempt
  with_reducible repeat' first
    | assumption | refine forUpTo_kept ?_ ?_ | refine preemptOne_kept ?_ | (intro _ _; intros; beta_reduce)

theorem State.loadStart_kept {q : Nat} (h : Kept z s) :
    Kept z (State.loadStart s q) := by
  unfold State.loadStart
  with_reducible repeat' first
    | assumption | refine setAnl_kept ?_ | refine fset_kept ?_

theorem State.loadNext_kept {q : Nat} (h : Kept z s) :
    Kept z (State.loadNext s q) := by
  unfold State.loadNext
  with_reducible repeat' first
    | assumption | refine setAnl_kept ?_ | refine tryPass_kept ?_ | refine fset_kept ?_ | refine Kept.cond ?_ ?_
    | dsimp only

theorem State.loadLost_kept {q g : Nat} (h : Kept z s) :
    Kept z (State.loadLost s q g) := by
  unfold State.loadLost
  with_reducible repeat' first
    | assumption | refine passDue_kept ?_ | refine loadNext_kept ?_ | refine setUncal_kept ?_
    | refine setSrc_kept ?_

theorem State.loadSend_kept {q op tries : Nat} {words : List Nat} (h : Kept z s) :
    Kept z (State.loadSend s q op tries words) := by
  unfold State.loadSend
  with_reducible repeat' first
    | assumption | refine command_kept ?_ | refine setAnl_kept ?_ | dsimp only

theorem State.loadApply_kept {q g : Nat} (h : Kept z s) :
    Kept z (State.loadApply s q g) := by
  unfold State.loadApply
  with_reducible repeat' first
    | assumption | refine loadSend_kept ?_ | refine setAnl_kept ?_

theorem State.tableLoad_kept {q : Nat} {bad : Bool} (h : Kept z s) :
    Kept z (State.tableLoad s q bad) := by
  unfold State.tableLoad
  with_reducible repeat' first
    | assumption
    | (extract_lets +onlyGivenNames x; first | (have hx : Kept z x := (by unfold x; clear x; repeat' first | assumption | refine touch_kept ?_ | refine eachOf_kept ?_ ?_ | refine loadSend_kept ?_ | refine setAnl_kept ?_ | refine when_kept ?_ ?_ | refine loadLost_kept ?_ | refine loadApply_kept ?_ | refine Kept.cond ?_ ?_ | split | (intro _ _; intros; beta_reduce)); clear_value x) | clear_value x)
    | refine touch_kept ?_ | refine eachOf_kept ?_ ?_ | refine loadSend_kept ?_ | refine setAnl_kept ?_
    | refine when_kept ?_ ?_ | refine loadLost_kept ?_ | refine loadApply_kept ?_ | refine Kept.cond ?_ ?_ | split
    | (intro _ _; intros; beta_reduce)

theorem State.loadFail_kept {q g tries : Nat} {c : Cmd} (h : Kept z s) :
    Kept z (State.loadFail s q g tries c) := by
  unfold State.loadFail
  with_reducible repeat' first
    | assumption | refine loadSend_kept ?_ | refine loadNext_kept ?_ | refine anlCount_kept ?_
    | refine setUncal_kept ?_ | refine setSrc_kept ?_ | refine Kept.cond ?_ ?_

theorem State.loadPushed_kept {q g : Nat} (h : Kept z s) :
    Kept z (State.loadPushed s q g) := by
  unfold State.loadPushed
  with_reducible repeat' first
    | assumption | refine putTrims_kept ?_ | refine loadNext_kept ?_ | refine setUncal_kept ?_
    | refine setSrc_kept ?_ | refine Kept.cond ?_ ?_ | dsimp only

theorem State.loadRsp_kept {q tries : Nat} {c : Cmd} {status : Nat} {words : List Nat} (h : Kept z s) :
    Kept z (State.loadRsp s q tries c status words) := by
  unfold State.loadRsp
  with_reducible repeat' first
    | assumption
    | (extract_lets +onlyGivenNames x; first | (have hx : Kept z x := (by unfold x; clear x; repeat' first | assumption | refine setAnl_kept ?_ | refine loadFail_kept ?_ | refine loadApply_kept ?_ | refine loadPushed_kept ?_ | refine eachOf_kept ?_ ?_ | refine putTrim_kept ?_ | refine loadNext_kept ?_ | refine setUncal_kept ?_ | refine setSrc_kept ?_ | refine Kept.cond ?_ ?_ | split | (intro _ _; intros; beta_reduce)); clear_value x) | clear_value x)
    | refine setAnl_kept ?_ | refine loadFail_kept ?_ | refine loadApply_kept ?_ | refine loadPushed_kept ?_
    | refine eachOf_kept ?_ ?_ | refine putTrim_kept ?_ | refine loadNext_kept ?_ | refine setUncal_kept ?_
    | refine setSrc_kept ?_ | refine Kept.cond ?_ ?_ | split | (intro _ _; intros; beta_reduce)

theorem State.anlRsp_kept {q : Nat} {c : Cmd} {status : Nat} {words : List Nat} (h : Kept z s) :
    Kept z (State.anlRsp s q c status words) := by
  unfold State.anlRsp
  with_reducible repeat' first
    | assumption | refine setAnl_kept ?_ | refine loadRsp_kept ?_ | refine when_kept ?_ ?_ | refine stepRsp_kept ?_
    | refine Kept.cond ?_ ?_ | split | (intro _ _; intros; beta_reduce)

theorem State.anlLinkLost_kept {q : Nat} (h : Kept z s) :
    Kept z (State.anlLinkLost s q) := by
  unfold State.anlLinkLost
  with_reducible repeat' first
    | assumption
    | (extract_lets +onlyGivenNames x; first | (have hx : Kept z x := (by unfold x; clear x; repeat' first | assumption | refine fset_kept ?_ | refine setAnl_kept ?_ | refine when_kept ?_ ?_ | refine endStep_kept ?_ | (intro _ _; intros; beta_reduce)); clear_value x) | clear_value x)
    | refine fset_kept ?_ | refine setAnl_kept ?_ | refine when_kept ?_ ?_ | refine endStep_kept ?_
    | (intro _ _; intros; beta_reduce)

theorem State.anlStatus_kept {q temp0 temp1 cal : Nat} {trimValid : Bool} (h : Kept z s) :
    Kept z (State.anlStatus s q temp0 temp1 cal trimValid) := by
  unfold State.anlStatus
  with_reducible repeat' first
    | assumption
    | (extract_lets +onlyGivenNames x; first | (have hx : Kept z x := (by unfold x; clear x; repeat' first | assumption | refine when_kept ?_ ?_ | refine setLink_kept ?_ | refine setAnl_kept ?_ | refine commandFirst_kept ?_ | refine loadStart_kept ?_ | refine zoneReading_kept ?_ | refine Kept.cond ?_ ?_ | (intro _ _; intros; beta_reduce)); clear_value x) | clear_value x)
    | refine when_kept ?_ ?_ | refine setLink_kept ?_ | refine setAnl_kept ?_ | refine commandFirst_kept ?_
    | refine loadStart_kept ?_ | refine zoneReading_kept ?_ | refine Kept.cond ?_ ?_
    | (intro _ _; intros; beta_reduce)

theorem State.writeAnlCtl_kept {w : Nat} (h : Kept z s) :
    Kept z (State.writeAnlCtl s w) := by
  unfold State.writeAnlCtl
  with_reducible repeat' first
    | assumption | refine store_kept ?_ | refine when_kept ?_ ?_ | refine forUpTo_kept ?_ ?_
    | refine firstDue_kept ?_ | refine loadStart_kept ?_ | refine setAnl_kept ?_ | refine endPass_kept ?_
    | refine passDue_kept ?_ | refine orw_kept ?_ | (intro _ _; intros; beta_reduce) | dsimp only

theorem State.anlSecond_kept (h : Kept z s) :
    Kept z (State.anlSecond s) := by
  unfold State.anlSecond
  with_reducible repeat' first
    | assumption | refine forUpTo_kept ?_ ?_ | refine putStatus_kept ?_ | refine touch_kept ?_
    | refine Kept.cond ?_ ?_ | (intro _ _; intros; beta_reduce) | dsimp only

theorem State.setF_kept {c r : Nat} (h : Kept z s) :
    Kept z (State.setF s c r) := by
  unfold State.setF
  with_reducible repeat' first
    | assumption | refine memWritten_kept ?_ | refine fput_kept ?_

theorem State.fRead_kept (h : Kept z s) :
    Kept z (State.fRead s) := by
  unfold State.fRead
  with_reducible repeat' first
    | assumption | refine touch_kept ?_

theorem State.applyMoves_kept {l : List (Nat × Nat × Nat)} (h : Kept z s) :
    Kept z (State.applyMoves s l) := by
  unfold State.applyMoves
  with_reducible repeat' first
    | assumption | refine eachOf_kept ?_ ?_ | refine setF_kept ?_ | (intro _ _; intros; beta_reduce)

theorem State.onFab_kept {f : Fab → Fab} (h : Kept z s) :
    Kept z (State.onFab s f) := by
  unfold State.onFab
  with_reducible repeat' first
    | assumption | refine fput_kept ?_ | refine Kept.upd ?_ rfl | dsimp only

theorem State.onCommit_kept {id : Nat} {f : Commit → Commit} (h : Kept z s) :
    Kept z (State.onCommit s id f) := by
  unfold State.onCommit
  with_reducible repeat' first
    | assumption | refine onFab_kept ?_ | refine Kept.cond ?_ ?_ | refine Kept.upd ?_ rfl | dsimp only

theorem State.polPut_kept {f : Fld} {n : Nat} (h : Kept z s) :
    Kept z (State.polPut s f n) := by
  unfold State.polPut
  with_reducible repeat' first
    | assumption | refine memWritten_kept ?_ | refine fput_kept ?_

theorem State.polRead_kept {i : Nat} (h : Kept z s) :
    Kept z (State.polRead s i) := by
  unfold State.polRead
  with_reducible repeat' first
    | assumption | refine touch_kept ?_

theorem State.noticeFrame_kept {i evt t1 : Nat} {l : List (Nat × Nat × Nat)} (h : Kept z s) :
    Kept z (State.noticeFrame s i evt t1 l) := by
  unfold State.noticeFrame
  with_reducible repeat' first
    | assumption | refine polCount_kept ?_ | refine fput_kept ?_ | refine toQuad_kept ?_ ?_
    | refine hostSend_kept ?_ | refine Kept.cond ?_ ?_ | (intro _ _; intros; beta_reduce) | dsimp only

theorem State.polTell_kept {j i moves : Nat} (h : Kept z s) :
    Kept z (State.polTell s j i moves) := by
  unfold State.polTell
  with_reducible repeat' first
    | assumption | refine polEvent_kept ?_

theorem State.fabOutcome_kept {c : Commit} {res qmask settle ok bad : Nat} (h : Kept z s) :
    Kept z (State.fabOutcome s c res qmask settle ok bad) := by
  unfold State.fabOutcome
  with_reducible repeat' first
    | assumption
    | (extract_lets +onlyGivenNames x; first | (have hx : Kept z x := (by unfold x; clear x; repeat' first | assumption | refine wr_kept ?_ | refine when_kept ?_ ?_ | refine ringWrite_kept ?_ | refine entriesDone_kept ?_ | refine Kept.cond ?_ ?_ | (intro _ _; intros; beta_reduce)); clear_value x) | clear_value x)
    | refine wr_kept ?_ | refine when_kept ?_ ?_ | refine ringWrite_kept ?_ | refine entriesDone_kept ?_
    | refine Kept.cond ?_ ?_ | (intro _ _; intros; beta_reduce)

theorem State.notifyDone_kept {c : Commit} {res settle : Nat} (h : Kept z s) :
    Kept z (State.notifyDone s c res settle) := by
  unfold State.notifyDone
  with_reducible repeat' first
    | assumption | refine when_kept ?_ ?_ | refine notice_kept ?_ | (intro _ _; intros; beta_reduce)

theorem State.revertDone_kept {c : Commit} {good : Bool} (h : Kept z s) :
    Kept z (State.revertDone s c good) := by
  unfold State.revertDone
  with_reducible repeat' first
    | assumption | refine noticeFrame_kept ?_ | refine polTell_kept ?_ | refine polCount_kept ?_
    | refine polPut_kept ?_ | refine corrected_kept ?_ | refine Kept.cond ?_ ?_ | dsimp only

theorem State.refuseCommit_kept {c : Commit} {res : Nat} (h : Kept z s) :
    Kept z (State.refuseCommit s c res) := by
  unfold State.refuseCommit
  with_reducible repeat' first
    | assumption | exact Kept.upd (by assumption) rfl
    | (extract_lets +onlyGivenNames x; first | (have hx : Kept z x := (by unfold x; clear x; repeat' first | assumption | exact Kept.upd (by assumption) rfl | refine onFab_kept ?_ | refine fabCount_kept ?_ | refine fabOutcome_kept ?_ | refine fabEvent_kept ?_ | refine voidGuards_kept ?_ | refine revertDone_kept ?_ | refine notifyDone_kept ?_ | refine Kept.cond ?_ ?_ | refine Kept.upd ?_ rfl); clear_value x) | clear_value x)
    | refine onFab_kept ?_ | refine fabCount_kept ?_ | refine fabOutcome_kept ?_ | refine fabEvent_kept ?_
    | refine voidGuards_kept ?_ | refine revertDone_kept ?_ | refine notifyDone_kept ?_ | refine Kept.cond ?_ ?_
    | refine Kept.upd ?_ rfl

theorem State.tryComplete_kept {id : Nat} (h : Kept z s) :
    Kept z (State.tryComplete s id) := by
  unfold State.tryComplete
  with_reducible repeat' first
    | assumption
    | (extract_lets +onlyGivenNames x; first | (have hx : Kept z x := (by unfold x; clear x; repeat' first | assumption | refine onFab_kept ?_ | refine fabCount_kept ?_ | refine fabOutcome_kept ?_ | refine when_kept ?_ ?_ | refine corrected_kept ?_ | refine fabEvent_kept ?_ | refine pulse_kept ?_ | refine revertDone_kept ?_ | refine notifyDone_kept ?_ | refine Kept.cond ?_ ?_ | split | (intro _ _; intros; beta_reduce)); clear_value x) | clear_value x)
    | refine onFab_kept ?_ | refine fabCount_kept ?_ | refine fabOutcome_kept ?_ | refine when_kept ?_ ?_
    | refine corrected_kept ?_ | refine fabEvent_kept ?_ | refine pulse_kept ?_ | refine revertDone_kept ?_
    | refine notifyDone_kept ?_ | refine Kept.cond ?_ ?_ | split | (intro _ _; intros; beta_reduce)

theorem State.dropQuadrant_kept {q : Nat} (h : Kept z s) :
    Kept z (State.dropQuadrant s q) := by
  unfold State.dropQuadrant
  with_reducible repeat' first
    | assumption | refine eachOf_kept ?_ ?_ | refine tryComplete_kept ?_ | refine onCommit_kept ?_
    | refine Kept.cond ?_ ?_ | (intro _ _; intros; beta_reduce)

theorem State.takeCommit_kept {c : Commit} {format : Bool} (h : Kept z s) :
    Kept z (State.takeCommit s c format) := by
  unfold State.takeCommit
  with_reducible repeat' first
    | assumption | exact Kept.upd (by assumption) rfl
    | (extract_lets +onlyGivenNames x; first | (have hx : Kept z x := (by unfold x; clear x; repeat' first | assumption | exact Kept.upd (by assumption) rfl | refine when_kept ?_ ?_ | refine onFab_kept ?_ | refine fabCount_kept ?_ | refine refuseCommit_kept ?_ | refine Kept.cond ?_ ?_ | refine Kept.upd ?_ rfl | (intro _ _; intros; beta_reduce)); clear_value x) | clear_value x)
    | refine when_kept ?_ ?_ | refine onFab_kept ?_ | refine fabCount_kept ?_ | refine refuseCommit_kept ?_
    | refine Kept.cond ?_ ?_ | refine Kept.upd ?_ rfl | (intro _ _; intros; beta_reduce)

theorem State.handOver_kept {tc map arg : Nat} (h : Kept z s) :
    Kept z (State.handOver s tc map arg) := by
  unfold State.handOver
  with_reducible repeat' first
    | assumption | refine takeCommit_kept ?_

theorem State.beginEntry_kept {r pos : Nat} (h : Kept z s) :
    Kept z (State.beginEntry s r pos) := by
  unfold State.beginEntry
  with_reducible repeat' first
    | assumption | refine setRing_kept ?_ | refine Kept.cond ?_ ?_

theorem State.fabCommit_kept {r pos : Nat} (h : Kept z s) :
    Kept z (State.fabCommit s r pos) := by
  unfold State.fabCommit
  with_reducible repeat' first
    | assumption
    | (extract_lets +onlyGivenNames x; first | (have hx : Kept z x := (by unfold x; clear x; repeat' first | assumption | refine takeCommit_kept ?_ | refine beginEntry_kept ?_ | refine Kept.cond ?_ ?_ | split); clear_value x) | clear_value x)
    | refine takeCommit_kept ?_ | refine beginEntry_kept ?_ | refine Kept.cond ?_ ?_ | split

theorem State.fabCancel_kept {r pos : Nat} (h : Kept z s) :
    Kept z (State.fabCancel s r pos) := by
  unfold State.fabCancel
  with_reducible repeat' first
    | assumption
    | (extract_lets +onlyGivenNames x; first | (have hx : Kept z x := (by unfold x; clear x; repeat' first | assumption | refine refuseCommit_kept ?_ | refine entriesDone_kept ?_ | refine ringWrite_kept ?_ | refine Kept.cond ?_ ?_ | split); clear_value x) | clear_value x)
    | refine refuseCommit_kept ?_ | refine entriesDone_kept ?_ | refine ringWrite_kept ?_ | refine Kept.cond ?_ ?_
    | split

theorem State.loseF_kept (h : Kept z s) :
    Kept z (State.loseF s) := by
  unfold State.loseF
  with_reducible repeat' first
    | assumption | refine oneSlot_kept ?_ ?_ | refine eachOf_kept ?_ ?_ | refine refuseCommit_kept ?_
    | refine fset_kept ?_ | (intro _ _; intros; beta_reduce)

theorem State.resolveWith_kept {c : Commit} {l : List (Nat × Nat)} (h : Kept z s) :
    Kept z (State.resolveWith s c l) := by
  unfold State.resolveWith
  with_reducible repeat' first
    | assumption | refine refuseCommit_kept ?_ | refine onCommit_kept ?_ | refine Kept.cond ?_ ?_ | dsimp only

theorem State.resolveNext_kept {bad : Nat} (h : Kept z s) :
    Kept z (State.resolveNext s bad) := by
  unfold State.resolveNext
  with_reducible repeat' first
    | assumption
    | (extract_lets +onlyGivenNames x; first | (have hx : Kept z x := (by unfold x; clear x; repeat' first | assumption | refine fRead_kept ?_ | refine loseF_kept ?_ | refine resolveWith_kept ?_ | refine touch_kept ?_ | refine refuseCommit_kept ?_ | refine Kept.cond ?_ ?_ | split); clear_value x) | clear_value x)
    | refine fRead_kept ?_ | refine loseF_kept ?_ | refine resolveWith_kept ?_ | refine touch_kept ?_
    | refine refuseCommit_kept ?_ | refine Kept.cond ?_ ?_ | split

theorem State.resolveLate_kept (h : Kept z s) :
    Kept z (State.resolveLate s) := by
  unfold State.resolveLate
  with_reducible repeat' first
    | assumption | refine refuseCommit_kept ?_ | split

theorem State.fabArm_kept (h : Kept z s) :
    Kept z (State.fabArm s) := by
  unfold State.fabArm
  with_reducible repeat' first
    | assumption | refine fabCount_kept ?_ | refine onCommit_kept ?_ | refine Kept.cond ?_ ?_ | split

theorem State.armLate_kept (h : Kept z s) :
    Kept z (State.armLate s) := by
  unfold State.armLate
  with_reducible repeat' first
    | assumption | refine refuseCommit_kept ?_ | split

theorem State.retime_kept {c : Commit} (h : Kept z s) :
    Kept z (State.retime s c) := by
  unfold State.retime
  with_reducible repeat' first
    | assumption | refine fabCount_kept ?_ | refine onFab_kept ?_ | refine Kept.upd ?_ rfl

theorem State.fabSkip_kept {was : Nat} (h : Kept z s) :
    Kept z (State.fabSkip s was) := by
  unfold State.fabSkip
  with_reducible repeat' first
    | assumption
    | (extract_lets +onlyGivenNames x; first | (have hx : Kept z x := (by unfold x; clear x; repeat' first | assumption | refine eachOf_kept ?_ ?_ | refine retime_kept ?_ | refine refuseCommit_kept ?_ | refine Kept.cond ?_ ?_ | split | (intro _ _; intros; beta_reduce)); clear_value x) | clear_value x)
    | refine eachOf_kept ?_ ?_ | refine retime_kept ?_ | refine refuseCommit_kept ?_ | refine Kept.cond ?_ ?_
    | split | (intro _ _; intros; beta_reduce)

theorem State.blankStart_kept {id i : Nat} (h : Kept z s) :
    Kept z (State.blankStart s id i) := by
  unfold State.blankStart
  with_reducible repeat' first
    | assumption | refine onFab_kept ?_ | refine when_kept ?_ ?_ | refine fset_kept ?_ | refine fput_kept ?_
    | refine Kept.cond ?_ ?_ | (intro _ _; intros; beta_reduce) | dsimp only

theorem State.blankEnd_kept {i id : Nat} (h : Kept z s) :
    Kept z (State.blankEnd s i id) := by
  unfold State.blankEnd
  with_reducible repeat' first
    | assumption | refine onFab_kept ?_ | refine fset_kept ?_ | refine Kept.cond ?_ ?_ | dsimp only

theorem State.dispatch_kept (h : Kept z s) :
    Kept z (State.dispatch s) := by
  unfold State.dispatch
  with_reducible repeat' first
    | assumption | exact Kept.upd (by assumption) rfl
    | (extract_lets +onlyGivenNames x; first | (have hx : Kept z x := (by unfold x; clear x; repeat' first | assumption | exact Kept.upd (by assumption) rfl | refine annealPreempt_kept ?_ | refine onFab_kept ?_ | refine arming_kept ?_ | refine Kept.cond ?_ ?_ | split | refine Kept.upd ?_ rfl); clear_value x) | clear_value x)
    | refine annealPreempt_kept ?_ | refine onFab_kept ?_ | refine arming_kept ?_ | refine Kept.cond ?_ ?_ | split
    | refine Kept.upd ?_ rfl

theorem State.execute_kept {c : Commit} (h : Kept z s) :
    Kept z (State.execute s c) := by
  unfold State.execute
  with_reducible repeat' first
    | assumption
    | (extract_lets +onlyGivenNames x; first | (have hx : Kept z x := (by unfold x; clear x; repeat' first | assumption | refine applyMoves_kept ?_ | refine onCommit_kept ?_ | refine when_kept ?_ ?_ | refine onFab_kept ?_ | refine endGuards_kept ?_ | refine fabCount_kept ?_ | refine tryComplete_kept ?_ | refine eachOf_kept ?_ ?_ | refine blankStart_kept ?_ | (intro _ _; intros; beta_reduce)); clear_value x) | clear_value x)
    | refine applyMoves_kept ?_ | refine onCommit_kept ?_ | refine when_kept ?_ ?_ | refine onFab_kept ?_
    | refine endGuards_kept ?_ | refine fabCount_kept ?_ | refine tryComplete_kept ?_ | refine eachOf_kept ?_ ?_
    | refine blankStart_kept ?_ | (intro _ _; intros; beta_reduce)

theorem State.commitInstant_kept (h : Kept z s) :
    Kept z (State.commitInstant s) := by
  unfold State.commitInstant
  with_reducible repeat' first
    | assumption | refine execute_kept ?_ | split

theorem State.sliceReport_kept {q id : Nat} (h : Kept z s) :
    Kept z (State.sliceReport s q id) := by
  unfold State.sliceReport
  with_reducible repeat' first
    | assumption
    | (extract_lets +onlyGivenNames x; first | (have hx : Kept z x := (by unfold x; clear x; repeat' first | assumption | refine setNit_kept ?_ | refine tryComplete_kept ?_ | refine onCommit_kept ?_ | refine Kept.cond ?_ ?_ | refine Kept.foldSnd ?_ ?_ | refine Kept.fold ?_ ?_ | (intro _ _; intros; beta_reduce) | split); clear_value x) | clear_value x)
    | refine setNit_kept ?_ | refine tryComplete_kept ?_ | refine onCommit_kept ?_ | refine Kept.cond ?_ ?_
    | refine Kept.foldSnd ?_ ?_ | refine Kept.fold ?_ ?_ | (intro _ _; intros; beta_reduce) | split

theorem State.withdrawCh_kept {id m : Nat} (h : Kept z s) :
    Kept z (State.withdrawCh s id m) := by
  unfold State.withdrawCh
  with_reducible repeat' first
    | assumption
    | (extract_lets +onlyGivenNames x; first | (have hx : Kept z x := (by unfold x; clear x; repeat' first | assumption | refine sendFlit_kept ?_ | refine freeCh_kept ?_ | refine fput_kept ?_ | refine setNit_kept ?_ | refine when_kept ?_ ?_ | refine setLand_kept ?_ | refine Kept.cond ?_ ?_ | split | (intro _ _; intros; beta_reduce)); clear_value x) | clear_value x)
    | refine sendFlit_kept ?_ | refine freeCh_kept ?_ | refine fput_kept ?_ | refine setNit_kept ?_
    | refine when_kept ?_ ?_ | refine setLand_kept ?_ | refine Kept.cond ?_ ?_ | split
    | (intro _ _; intros; beta_reduce)

theorem State.withdrawSlice_kept {id q : Nat} (h : Kept z s) :
    Kept z (State.withdrawSlice s id q) := by
  unfold State.withdrawSlice
  with_reducible repeat' first
    | assumption | refine forUpTo_kept ?_ ?_ | refine withdrawCh_kept ?_ | refine serveWait_kept ?_
    | refine setNit_kept ?_ | (intro _ _; intros; beta_reduce) | dsimp only

theorem State.withdraw_kept {c : Commit} {res : Nat} (h : Kept z s) :
    Kept z (State.withdraw s c res) := by
  unfold State.withdraw
  with_reducible repeat' first
    | assumption | refine refuseCommit_kept ?_ | refine forUpTo_kept ?_ ?_ | refine toQuad_kept ?_ ?_
    | refine withdrawSlice_kept ?_ | (intro _ _; intros; beta_reduce)

theorem State.withdrawOld_kept (h : Kept z s) :
    Kept z (State.withdrawOld s) := by
  unfold State.withdrawOld
  with_reducible repeat' first
    | assumption | refine eachOf_kept ?_ ?_ | refine refuseCommit_kept ?_ | refine withdraw_kept ?_
    | refine Kept.cond ?_ ?_ | (intro _ _; intros; beta_reduce) | dsimp only

theorem State.polFail_kept {i : Nat} (h : Kept z s) :
    Kept z (State.polFail s i) := by
  unfold State.polFail
  with_reducible repeat' first
    | assumption | refine noticeFrame_kept ?_ | refine corrected_kept ?_ | refine polTell_kept ?_
    | refine polCount_kept ?_ | refine polPut_kept ?_

theorem State.takeDecl_kept {bad : List Nat} {x : PolBuild × State} {d : Nat × Nat} (h : Kept z x.2) :
    Kept z (State.takeDecl bad x d).2 := by
  unfold State.takeDecl
  with_reducible repeat' first
    | assumption
    | (extract_lets +onlyGivenNames x; first | (have hx : Kept z x := (by unfold x; clear x; repeat' first | assumption | refine polRead_kept ?_ | refine polCount_kept ?_ | refine polPut_kept ?_ | refine polFail_kept ?_ | refine eachOf_kept ?_ ?_ | refine Kept.cond ?_ ?_ | refine Kept.condSnd ?_ ?_ | split | (intro _ _; intros; beta_reduce) | dsimp only); clear_value x) | (have hx : Kept z x.2 := (by unfold x; clear x; repeat' first | assumption | refine polRead_kept ?_ | refine polCount_kept ?_ | refine polPut_kept ?_ | refine polFail_kept ?_ | refine eachOf_kept ?_ ?_ | refine Kept.cond ?_ ?_ | refine Kept.condSnd ?_ ?_ | split | (intro _ _; intros; beta_reduce) | dsimp only); clear_value x) | clear_value x)
    | refine polRead_kept ?_ | refine polCount_kept ?_ | refine polPut_kept ?_ | refine polFail_kept ?_
    | refine eachOf_kept ?_ ?_ | refine Kept.cond ?_ ?_ | refine Kept.condSnd ?_ ?_ | split
    | (intro _ _; intros; beta_reduce) | dsimp only

theorem State.issueProtection_kept {i : Nat} {spec : List (Nat × Nat)} (h : Kept z s) :
    Kept z (State.issueProtection s i spec) := by
  unfold State.issueProtection
  with_reducible repeat' first
    | assumption | exact Kept.upd (by assumption) rfl
    | (extract_lets +onlyGivenNames x; first | (have hx : Kept z x := (by unfold x; clear x; repeat' first | assumption | exact Kept.upd (by assumption) rfl | refine polCount_kept ?_ | refine onFab_kept ?_ | refine eachOf_kept ?_ ?_ | refine refuseCommit_kept ?_ | refine withdraw_kept ?_ | refine execute_kept ?_ | refine annealPreempt_kept ?_ | refine Kept.upd ?_ rfl | (intro _ _; intros; beta_reduce)); clear_value x) | clear_value x)
    | refine polCount_kept ?_ | refine onFab_kept ?_ | refine eachOf_kept ?_ ?_ | refine refuseCommit_kept ?_
    | refine withdraw_kept ?_ | refine execute_kept ?_ | refine annealPreempt_kept ?_ | refine Kept.upd ?_ rfl
    | (intro _ _; intros; beta_reduce)

theorem State.policyBuild_kept {bad : List Nat} {fbad : Bool} (h : Kept z s) :
    Kept z (State.policyBuild s bad fbad) := by
  unfold State.policyBuild
  with_reducible repeat' first
    | assumption
    | (extract_lets +onlyGivenNames x; first | (have hx : Kept z x := (by unfold x; clear x; repeat' first | assumption | refine oneSlot_kept ?_ ?_ | refine when_kept ?_ ?_ | refine fRead_kept ?_ | refine loseF_kept ?_ | refine takeDecl_kept ?_ | refine onFab_kept ?_ | refine issueProtection_kept ?_ | refine eachOf_kept ?_ ?_ | refine noticeFrame_kept ?_ | refine polTell_kept ?_ | refine Kept.cond ?_ ?_ | refine Kept.condSnd ?_ ?_ | refine Kept.foldSnd ?_ ?_ | refine Kept.fold ?_ ?_ | (intro _ _; intros; beta_reduce) | split | (intro _ _; intros; beta_reduce) | dsimp only); clear_value x) | (have hx : Kept z x.2 := (by unfold x; clear x; repeat' first | assumption | refine oneSlot_kept ?_ ?_ | refine when_kept ?_ ?_ | refine fRead_kept ?_ | refine loseF_kept ?_ | refine takeDecl_kept ?_ | refine onFab_kept ?_ | refine issueProtection_kept ?_ | refine eachOf_kept ?_ ?_ | refine noticeFrame_kept ?_ | refine polTell_kept ?_ | refine Kept.cond ?_ ?_ | refine Kept.condSnd ?_ ?_ | refine Kept.foldSnd ?_ ?_ | refine Kept.fold ?_ ?_ | (intro _ _; intros; beta_reduce) | split | (intro _ _; intros; beta_reduce) | dsimp only); clear_value x) | clear_value x)
    | refine oneSlot_kept ?_ ?_ | refine when_kept ?_ ?_ | refine fRead_kept ?_ | refine loseF_kept ?_
    | refine takeDecl_kept ?_ | refine onFab_kept ?_ | refine issueProtection_kept ?_ | refine eachOf_kept ?_ ?_
    | refine noticeFrame_kept ?_ | refine polTell_kept ?_ | refine Kept.cond ?_ ?_ | refine Kept.condSnd ?_ ?_
    | refine Kept.foldSnd ?_ ?_ | refine Kept.fold ?_ ?_ | (intro _ _; intros; beta_reduce) | split | dsimp only

theorem State.polRestored_kept {i : Nat} (h : Kept z s) :
    Kept z (State.polRestored s i) := by
  unfold State.polRestored
  with_reducible repeat' first
    | assumption | refine polRead_kept ?_ | refine polPut_kept ?_ | refine polCount_kept ?_ | refine polTell_kept ?_
    | refine Kept.cond ?_ ?_ | dsimp only

theorem State.wtrExpire_kept {i : Nat} {fbad : Bool} (h : Kept z s) :
    Kept z (State.wtrExpire s i fbad) := by
  unfold State.wtrExpire
  with_reducible repeat' first
    | assumption
    | (extract_lets +onlyGivenNames x; first | (have hx : Kept z x := (by unfold x; clear x; repeat' first | assumption | refine polRead_kept ?_ | refine fRead_kept ?_ | refine loseF_kept ?_ | refine takeCommit_kept ?_ | refine Kept.cond ?_ ?_ | refine Kept.foldSnd ?_ ?_ | refine Kept.fold ?_ ?_ | (intro _ _; intros; beta_reduce) | split); clear_value x) | clear_value x)
    | refine polRead_kept ?_ | refine fRead_kept ?_ | refine loseF_kept ?_ | refine takeCommit_kept ?_
    | refine Kept.cond ?_ ?_ | refine Kept.foldSnd ?_ ?_ | refine Kept.fold ?_ ?_ | (intro _ _; intros; beta_reduce)
    | split

theorem State.lldArm_kept {i : Nat} (h : Kept z s) :
    Kept z (State.lldArm s i) := by
  unfold State.lldArm
  with_reducible repeat' first
    | assumption | refine fput_kept ?_ | refine when_kept ?_ ?_ | refine Kept.cond ?_ ?_ | refine Kept.upd ?_ rfl
    | (intro _ _; intros; beta_reduce)

theorem State.lldArmAll_kept {q : Nat} (h : Kept z s) :
    Kept z (State.lldArmAll s q) := by
  unfold State.lldArmAll
  with_reducible repeat' first
    | assumption | refine forUpTo_kept ?_ ?_ | refine lldArm_kept ?_ | (intro _ _; intros; beta_reduce)

theorem State.setHigh_kept {i n : Nat} (h : Kept z s) :
    Kept z (State.setHigh s i n) := by
  unfold State.setHigh
  with_reducible repeat' first
    | assumption | refine Kept.upd ?_ rfl

theorem State.declare_kept {i onset : Nat} (h : Kept z s) :
    Kept z (State.declare s i onset) := by
  unfold State.declare
  with_reducible repeat' first
    | assumption
    | (extract_lets +onlyGivenNames x; first | (have hx : Kept z x := (by unfold x; clear x; repeat' first | assumption | refine wr_kept ?_ | refine cnt_kept ?_ | refine fput_kept ?_ | refine fromQuad_kept ?_ ?_ | refine brzEvent_kept ?_ | refine polCount_kept ?_ | refine onFab_kept ?_ | refine Kept.cond ?_ ?_ | (intro _ _; intros; beta_reduce)); clear_value x) | clear_value x)
    | refine wr_kept ?_ | refine cnt_kept ?_ | refine fput_kept ?_ | refine fromQuad_kept ?_ ?_
    | refine brzEvent_kept ?_ | refine polCount_kept ?_ | refine onFab_kept ?_ | refine Kept.cond ?_ ?_
    | (intro _ _; intros; beta_reduce)

theorem State.highSample_kept {i st : Nat} (h : Kept z s) :
    Kept z (State.highSample s i st) := by
  unfold State.highSample
  with_reducible repeat' first
    | assumption | refine setHigh_kept ?_ | refine fput_kept ?_ | refine when_kept ?_ ?_
    | refine polRestored_kept ?_ | refine Kept.cond ?_ ?_ | (intro _ _; intros; beta_reduce) | dsimp only

theorem State.lldSample_kept {i code at' : Nat} (h : Kept z s) :
    Kept z (State.lldSample s i code at') := by
  unfold State.lldSample
  with_reducible repeat' first
    | assumption | exact Kept.upd (by assumption) rfl
    | (extract_lets +onlyGivenNames x; first | (have hx : Kept z x := (by unfold x; clear x; repeat' first | assumption | exact Kept.upd (by assumption) rfl | refine lldArm_kept ?_ | refine fput_kept ?_ | refine declare_kept ?_ | refine highSample_kept ?_ | refine setHigh_kept ?_ | refine Kept.cond ?_ ?_ | split | refine Kept.upd ?_ rfl); clear_value x) | clear_value x)
    | refine lldArm_kept ?_ | refine fput_kept ?_ | refine declare_kept ?_ | refine highSample_kept ?_
    | refine setHigh_kept ?_ | refine Kept.cond ?_ ?_ | split | refine Kept.upd ?_ rfl

theorem State.writeFabLoad_kept {w : Nat} (h : Kept z s) :
    Kept z (State.writeFabLoad s w) := by
  unfold State.writeFabLoad
  with_reducible repeat' first
    | assumption | refine onFab_kept ?_ | refine fset_kept ?_ | refine Kept.cond ?_ ?_

theorem State.fabLoaded_kept {bad : Nat} (h : Kept z s) :
    Kept z (State.fabLoaded s bad) := by
  unfold State.fabLoaded
  with_reducible repeat' first
    | assumption
    | (extract_lets +onlyGivenNames x; first | (have hx : Kept z x := (by unfold x; clear x; repeat' first | assumption | refine when_kept ?_ ?_ | refine fRead_kept ?_ | refine loseF_kept ?_ | refine fput_kept ?_ | refine fset_kept ?_ | refine touch_kept ?_ | refine fabEvent_kept ?_ | refine eachOf_kept ?_ ?_ | refine setF_kept ?_ | refine Kept.cond ?_ ?_ | (intro _ _; intros; beta_reduce)); clear_value x) | clear_value x)
    | refine when_kept ?_ ?_ | refine fRead_kept ?_ | refine loseF_kept ?_ | refine fput_kept ?_
    | refine fset_kept ?_ | refine touch_kept ?_ | refine fabEvent_kept ?_ | refine eachOf_kept ?_ ?_
    | refine setF_kept ?_ | refine Kept.cond ?_ ?_ | (intro _ _; intros; beta_reduce)

theorem State.writeFabCtl_kept {w : Nat} (h : Kept z s) :
    Kept z (State.writeFabCtl s w) := by
  unfold State.writeFabCtl
  with_reducible repeat' first
    | assumption | refine when_kept ?_ ?_ | refine store_kept ?_ | refine fset_kept ?_
    | (intro _ _; intros; beta_reduce)

theorem State.fabReset_kept (h : Kept z s) :
    Kept z (State.fabReset s) := by
  unfold State.fabReset
  with_reducible repeat' first
    | assumption | exact Kept.upd (by assumption) rfl
    | (extract_lets +onlyGivenNames x; first | (have hx : Kept z x := (by unfold x; clear x; repeat' first | assumption | exact Kept.upd (by assumption) rfl | refine eachOf_kept ?_ ?_ | refine when_kept ?_ ?_ | refine fset_kept ?_ | refine voidGuards_kept ?_ | refine Kept.upd ?_ rfl | (intro _ _; intros; beta_reduce)); clear_value x) | clear_value x)
    | refine eachOf_kept ?_ ?_ | refine when_kept ?_ ?_ | refine fset_kept ?_ | refine voidGuards_kept ?_
    | refine Kept.upd ?_ rfl | (intro _ _; intros; beta_reduce)

theorem State.startTraining_kept {q : Nat} (h : Kept z s) :
    Kept z (State.startTraining s q) := by
  unfold State.startTraining
  with_reducible repeat' first
    | assumption | refine setLink_kept ?_ | refine fput_kept ?_ | refine Kept.cond ?_ ?_

theorem State.trainFail_kept {q code : Nat} (h : Kept z s) :
    Kept z (State.trainFail s q code) := by
  unfold State.trainFail
  with_reducible repeat' first
    | assumption | refine fput_kept ?_ | refine fset_kept ?_ | refine setLink_kept ?_ | refine dropCmds_kept ?_
    | refine grfEvent_kept ?_ | refine grfCount_kept ?_ | dsimp only

theorem State.linkDownFrom_kept {q code : Nat} (h : Kept z s) :
    Kept z (State.linkDownFrom s q code) := by
  unfold State.linkDownFrom
  with_reducible repeat' first
    | assumption
    | (extract_lets +onlyGivenNames x; first | (have hx : Kept z x := (by unfold x; clear x; repeat' first | assumption | refine fput_kept ?_ | refine fset_kept ?_ | refine dropCmds_kept ?_ | refine tapsInvalid_kept ?_ | refine setHoldRel_kept ?_ | refine setLink_kept ?_ | refine lldArmAll_kept ?_ | refine anlLinkLost_kept ?_ | refine nitLinkLost_kept ?_ | refine corrected_kept ?_ | refine grfEvent_kept ?_ | refine grfCount_kept ?_ | refine Kept.cond ?_ ?_); clear_value x) | clear_value x)
    | refine fput_kept ?_ | refine fset_kept ?_ | refine dropCmds_kept ?_ | refine tapsInvalid_kept ?_
    | refine setHoldRel_kept ?_ | refine setLink_kept ?_ | refine lldArmAll_kept ?_ | refine anlLinkLost_kept ?_
    | refine nitLinkLost_kept ?_ | refine corrected_kept ?_ | refine grfEvent_kept ?_ | refine grfCount_kept ?_
    | refine Kept.cond ?_ ?_

theorem State.linkUpNow_kept {q w : Nat} (h : Kept z s) :
    Kept z (State.linkUpNow s q w) := by
  unfold State.linkUpNow
  with_reducible repeat' first
    | assumption | refine fput_kept ?_ | refine setLatency_kept ?_ | refine setLink_kept ?_
    | refine wantReacq_kept ?_ | refine lldArmAll_kept ?_ | refine grfEvent_kept ?_ | dsimp only

theorem State.linkFails_kept {q code train : Nat} (h : Kept z s) :
    Kept z (State.linkFails s q code train) := by
  unfold State.linkFails
  with_reducible repeat' first
    | assumption | refine linkDownFrom_kept ?_ | refine trainFail_kept ?_ | refine Kept.cond ?_ ?_ | dsimp only

theorem State.laneLock_kept {q j : Nat} {b : Bool} (h : Kept z s) :
    Kept z (State.laneLock s q j b) := by
  unfold State.laneLock
  with_reducible repeat' first
    | assumption | refine setLink_kept ?_ | refine fset_kept ?_ | refine fput_kept ?_ | dsimp only

theorem State.headerError_kept {q j : Nat} (h : Kept z s) :
    Kept z (State.headerError s q j) := by
  unfold State.headerError
  with_reducible repeat' first
    | assumption | refine wr_kept ?_ | dsimp only

theorem State.headerIn_kept {q j h1 : Nat} (h : Kept z s) :
    Kept z (State.headerIn s q j h1) := by
  unfold State.headerIn
  with_reducible repeat' first
    | assumption
    | (extract_lets +onlyGivenNames x; first | (have hx : Kept z x := (by unfold x; clear x; repeat' first | assumption | refine setLink_kept ?_ | refine when_kept ?_ ?_ | refine headerError_kept ?_ | refine linkFails_kept ?_ | refine laneLock_kept ?_ | refine Kept.cond ?_ ?_ | (intro _ _; intros; beta_reduce)); clear_value x) | clear_value x)
    | refine setLink_kept ?_ | refine when_kept ?_ ?_ | refine headerError_kept ?_ | refine linkFails_kept ?_
    | refine laneLock_kept ?_ | refine Kept.cond ?_ ?_ | (intro _ _; intros; beta_reduce)

theorem State.lockedAll_kept {q : Nat} (h : Kept z s) :
    Kept z (State.lockedAll s q) := by
  unfold State.lockedAll
  with_reducible repeat' first
    | assumption | refine setLink_kept ?_ | refine fput_kept ?_ | refine Kept.cond ?_ ?_

theorem State.headersIn_kept {q j : Nat} {l : List Nat} (h : Kept z s) :
    Kept z (State.headersIn s q j l) := by
  unfold State.headersIn
  with_reducible repeat' first
    | assumption | refine lockedAll_kept ?_ | refine eachOf_kept ?_ ?_ | refine headerIn_kept ?_
    | (intro _ _; intros; beta_reduce)

theorem State.locksAcquired_kept {q : Nat} {l : List (List Nat)} (h : Kept z s) :
    Kept z (State.locksAcquired s q l) := by
  unfold State.locksAcquired
  with_reducible repeat' first
    | assumption | refine forUpTo_kept ?_ ?_ | refine headersIn_kept ?_ | (intro _ _; intros; beta_reduce)

theorem State.laneSync_kept {q j : Nat} {x : Nat × Nat × Nat × Nat} (h : Kept z s) :
    Kept z (State.laneSync s q j x) := by
  unfold State.laneSync
  with_reducible repeat' first
    | assumption | refine headerError_kept ?_ | refine fput_kept ?_ | refine setLink_kept ?_
    | refine Kept.cond ?_ ?_ | dsimp only

theorem State.syncReceived_kept {q : Nat} {l : List (Nat × Nat × Nat × Nat)} (h : Kept z s) :
    Kept z (State.syncReceived s q l) := by
  unfold State.syncReceived
  with_reducible repeat' first
    | assumption
    | (extract_lets +onlyGivenNames x; first | (have hx : Kept z x := (by unfold x; clear x; repeat' first | assumption | refine forUpTo_kept ?_ ?_ | refine laneSync_kept ?_ | refine when_kept ?_ ?_ | refine setLink_kept ?_ | refine Kept.cond ?_ ?_ | split | (intro _ _; intros; beta_reduce)); clear_value x) | clear_value x)
    | refine forUpTo_kept ?_ ?_ | refine laneSync_kept ?_ | refine when_kept ?_ ?_ | refine setLink_kept ?_
    | refine Kept.cond ?_ ?_ | split | (intro _ _; intros; beta_reduce)

theorem State.alignDone_kept {q : Nat} (h : Kept z s) :
    Kept z (State.alignDone s q) := by
  unfold State.alignDone
  with_reducible repeat' first
    | assumption | refine command_kept ?_ | refine fset_kept ?_ | refine fput_kept ?_ | refine Kept.cond ?_ ?_

theorem State.syncMissed_kept {q j : Nat} (h : Kept z s) :
    Kept z (State.syncMissed s q j) := by
  unfold State.syncMissed
  with_reducible repeat' first
    | assumption | refine grfCount_kept ?_ | refine setLink_kept ?_ | refine linkDownFrom_kept ?_
    | refine Kept.cond ?_ ?_ | dsimp only

theorem State.syncTransmit_kept {q at' : Nat} (h : Kept z s) :
    Kept z (State.syncTransmit s q at') := by
  unfold State.syncTransmit
  with_reducible repeat' first
    | assumption
    | (extract_lets +onlyGivenNames x; first | (have hx : Kept z x := (by unfold x; clear x; repeat' first | assumption | refine emit_kept ?_ | refine setLink_kept ?_ | refine Kept.cond ?_ ?_ | split); clear_value x) | clear_value x)
    | refine emit_kept ?_ | refine setLink_kept ?_ | refine Kept.cond ?_ ?_ | split

theorem State.flitBad_kept {q idle : Nat} (h : Kept z s) :
    Kept z (State.flitBad s q idle) := by
  unfold State.flitBad
  with_reducible repeat' first
    | assumption | refine grfCount_kept ?_ | refine setLink_kept ?_ | refine linkDownFrom_kept ?_
    | refine Kept.cond ?_ ?_ | dsimp only

theorem State.flitUnknown_kept {q fcnt : Nat} (h : Kept z s) :
    Kept z (State.flitUnknown s q fcnt) := by
  unfold State.flitUnknown
  with_reducible repeat' first
    | assumption | refine grfCount_kept ?_ | refine goodFlit_kept ?_

theorem State.cmdTimeout_kept {q seq : Nat} (h : Kept z s) :
    Kept z (State.cmdTimeout s q seq) := by
  unfold State.cmdTimeout
  with_reducible repeat' first
    | assumption | refine grfCount_kept ?_ | refine sendCmd_kept ?_ | refine setLink_kept ?_
    | refine linkFails_kept ?_ | refine Kept.cond ?_ ?_ | split

theorem State.identRsp_kept {q status : Nat} {w : List Nat} (h : Kept z s) :
    Kept z (State.identRsp s q status w) := by
  unfold State.identRsp
  with_reducible repeat' first
    | assumption
    | (extract_lets +onlyGivenNames x; first | (have hx : Kept z x := (by unfold x; clear x; repeat' first | assumption | refine wr_kept ?_ | refine fput_kept ?_ | refine fset_kept ?_ | refine setLink_kept ?_ | refine when_kept ?_ ?_ | refine grfEvent_kept ?_ | refine trainFail_kept ?_ | refine Kept.cond ?_ ?_ | (intro _ _; intros; beta_reduce)); clear_value x) | clear_value x)
    | refine wr_kept ?_ | refine fput_kept ?_ | refine fset_kept ?_ | refine setLink_kept ?_
    | refine when_kept ?_ ?_ | refine grfEvent_kept ?_ | refine trainFail_kept ?_ | refine Kept.cond ?_ ?_
    | (intro _ _; intros; beta_reduce)

theorem State.pingRsp_kept {q rtt : Nat} (h : Kept z s) :
    Kept z (State.pingRsp s q rtt) := by
  unfold State.pingRsp
  with_reducible repeat' first
    | assumption
    | (extract_lets +onlyGivenNames x; first | (have hx : Kept z x := (by unfold x; clear x; repeat' first | assumption | refine setLink_kept ?_ | refine linkUpNow_kept ?_ | refine trainFail_kept ?_ | refine applyNewW_kept ?_ | refine grfEvent_kept ?_ | refine Kept.cond ?_ ?_ | refine Kept.foldSnd ?_ ?_ | refine Kept.fold ?_ ?_ | (intro _ _; intros; beta_reduce)); clear_value x) | clear_value x)
    | refine setLink_kept ?_ | refine linkUpNow_kept ?_ | refine trainFail_kept ?_ | refine applyNewW_kept ?_
    | refine grfEvent_kept ?_ | refine Kept.cond ?_ ?_ | refine Kept.foldSnd ?_ ?_ | refine Kept.fold ?_ ?_
    | (intro _ _; intros; beta_reduce)

theorem State.serviceOf_kept {q op status g : Nat} (h : Kept z s) :
    Kept z (State.serviceOf s q op status g) := by
  unfold State.serviceOf
  with_reducible repeat' first
    | assumption | refine setLink_kept ?_ | refine Kept.cond ?_ ?_ | dsimp only

theorem State.rspArrives_kept {q seq op status : Nat} {words : List Nat} {rtt fcnt : Nat} (h : Kept z s) :
    Kept z (State.rspArrives s q seq op status words rtt fcnt) := by
  unfold State.rspArrives
  with_reducible repeat' first
    | assumption
    | (extract_lets +onlyGivenNames x; first | (have hx : Kept z x := (by unfold x; clear x; repeat' first | assumption | refine goodFlit_kept ?_ | refine pumpCmds_kept ?_ | refine setLink_kept ?_ | refine identRsp_kept ?_ | refine pingRsp_kept ?_ | refine fromQuad_kept ?_ ?_ | refine serviceOf_kept ?_ | refine anlRsp_kept ?_ | split | (intro _ _; intros; beta_reduce)); clear_value x) | clear_value x)
    | refine goodFlit_kept ?_ | refine pumpCmds_kept ?_ | refine setLink_kept ?_ | refine identRsp_kept ?_
    | refine pingRsp_kept ?_ | refine fromQuad_kept ?_ ?_ | refine serviceOf_kept ?_ | refine anlRsp_kept ?_ | split
    | (intro _ _; intros; beta_reduce)

theorem State.measurePing_kept {q : Nat} (h : Kept z s) :
    Kept z (State.measurePing s q) := by
  unfold State.measurePing
  with_reducible repeat' first
    | assumption | refine command_kept ?_ | refine setLink_kept ?_ | refine Kept.cond ?_ ?_

theorem State.asmHold_kept {q : Nat} {hold : Bool} (h : Kept z s) :
    Kept z (State.asmHold s q hold) := by
  unfold State.asmHold
  with_reducible repeat' first
    | assumption
    | (extract_lets +onlyGivenNames x; first | (have hx : Kept z x := (by unfold x; clear x; repeat' first | assumption | refine fset_kept ?_ | refine nitInterrupt_kept ?_ | refine setNit_kept ?_ | refine wantReacq_kept ?_ | refine Kept.cond ?_ ?_); clear_value x) | clear_value x)
    | refine fset_kept ?_ | refine nitInterrupt_kept ?_ | refine setNit_kept ?_ | refine wantReacq_kept ?_
    | refine Kept.cond ?_ ?_

theorem State.statusArrives_kept {q temp0 temp1 alarm cal flags bound : Nat} {cnts : List Nat} {fcnt : Nat} (h : Kept z s) :
    Kept z (State.statusArrives s q temp0 temp1 alarm cal flags bound cnts fcnt) := by
  unfold State.statusArrives
  with_reducible repeat' first
    | assumption
    | (extract_lets +onlyGivenNames x; first | (have hx : Kept z x := (by unfold x; clear x; repeat' first | assumption | refine goodFlit_kept ?_ | refine wr_kept ?_ | refine forUpTo_kept ?_ ?_ | refine grfCountBy_kept ?_ | refine setLink_kept ?_ | refine fset_kept ?_ | refine corrected_kept ?_ | refine grfEvent_kept ?_ | refine fromQuad_kept ?_ ?_ | refine asmHold_kept ?_ | refine anlStatus_kept ?_ | refine Kept.cond ?_ ?_ | (intro _ _; intros; beta_reduce)); clear_value x) | clear_value x)
    | refine goodFlit_kept ?_ | refine wr_kept ?_ | refine forUpTo_kept ?_ ?_ | refine grfCountBy_kept ?_
    | refine setLink_kept ?_ | refine fset_kept ?_ | refine corrected_kept ?_ | refine grfEvent_kept ?_
    | refine fromQuad_kept ?_ ?_ | refine asmHold_kept ?_ | refine anlStatus_kept ?_ | refine Kept.cond ?_ ?_
    | (intro _ _; intros; beta_reduce)

theorem State.tapCode_kept {i code at' : Nat} (h : Kept z s) :
    Kept z (State.tapCode s i code at') := by
  unfold State.tapCode
  with_reducible repeat' first
    | assumption | refine lldSample_kept ?_ | refine fset_kept ?_ | refine fput_kept ?_

theorem State.tapLost_kept {q base : Nat} (h : Kept z s) :
    Kept z (State.tapLost s q base) := by
  unfold State.tapLost
  with_reducible repeat' first
    | assumption | refine forUpTo_kept ?_ ?_ | refine fset_kept ?_ | refine Kept.cond ?_ ?_
    | (intro _ _; intros; beta_reduce)

theorem State.tapArrives_kept {q base j : Nat} {codes lost : List Nat} {fcnt : Nat} (h : Kept z s) :
    Kept z (State.tapArrives s q base j codes lost fcnt) := by
  unfold State.tapArrives
  with_reducible repeat' first
    | assumption
    | (extract_lets +onlyGivenNames x; first | (have hx : Kept z x := (by unfold x; clear x; repeat' first | assumption | refine goodFlit_kept ?_ | refine eachOf_kept ?_ ?_ | refine tapLost_kept ?_ | refine forUpTo_kept ?_ ?_ | refine tapCode_kept ?_ | refine Kept.cond ?_ ?_ | split | (intro _ _; intros; beta_reduce)); clear_value x) | clear_value x)
    | refine goodFlit_kept ?_ | refine eachOf_kept ?_ ?_ | refine tapLost_kept ?_ | refine forUpTo_kept ?_ ?_
    | refine tapCode_kept ?_ | refine Kept.cond ?_ ?_ | split | (intro _ _; intros; beta_reduce)

theorem State.writeGrfCtl_kept {q w : Nat} (h : Kept z s) :
    Kept z (State.writeGrfCtl s q w) := by
  unfold State.writeGrfCtl
  with_reducible repeat' first
    | assumption
    | (extract_lets +onlyGivenNames x; first | (have hx : Kept z x := (by unfold x; clear x; repeat' first | assumption | refine driveHold_kept ?_ | refine fset_kept ?_ | refine store_kept ?_ | refine setLink_kept ?_ | refine linkDownFrom_kept ?_ | refine dropCmds_kept ?_ | refine fput_kept ?_ | refine startTraining_kept ?_ | refine Kept.cond ?_ ?_); clear_value x) | clear_value x)
    | refine driveHold_kept ?_ | refine fset_kept ?_ | refine store_kept ?_ | refine setLink_kept ?_
    | refine linkDownFrom_kept ?_ | refine dropCmds_kept ?_ | refine fput_kept ?_ | refine startTraining_kept ?_
    | refine Kept.cond ?_ ?_

theorem State.retryNow_kept {q : Nat} (h : Kept z s) :
    Kept z (State.retryNow s q) := by
  unfold State.retryNow
  with_reducible repeat' first
    | assumption | refine startTraining_kept ?_ | refine Kept.cond ?_ ?_

theorem State.grfReset_kept {q : Nat} (h : Kept z s) :
    Kept z (State.grfReset s q) := by
  unfold State.grfReset
  with_reducible repeat' first
    | assumption | refine driveHold_kept ?_ | refine setLink_kept ?_

end Sys2Proof.Machine
end

