-- ==== Sys2Proof/Laws/KeptSpine.lean ====
section
/-! SUPPORT. What the operations of CabinetOps, BronzeOps, Stop keep: the queue, and a sound state. -/

set_option Elab.async false

namespace Sys2Proof.Machine

variable {z s : State}

theorem State.setChan_kept {c : Nat} {x : Chan} (h : Kept z s) :
    Kept z (State.setChan s c x) := by
  unfold State.setChan
  with_reducible repeat' first
    | assumption | refine Kept.upd ?_ rfl

theorem State.writeMode_kept {a v : Nat} (h : Kept z s) :
    Kept z (State.writeMode s a v) := by
  unfold State.writeMode
  with_reducible repeat' first
    | assumption | refine wr_kept ?_ | refine Kept.cond ?_ ?_

theorem State.touchWin_kept {c id : Nat} (h : Kept z s) :
    Kept z (State.touchWin s c id) := by
  unfold State.touchWin
  with_reducible repeat' first
    | assumption | refine eachOf_kept ?_ ?_ | refine touch_kept ?_ | (intro _ _; intros; beta_reduce)

theorem State.showRate'_kept {c : Nat} (h : Kept z s) :
    Kept z (State.showRate' s c) := by
  unfold State.showRate'
  with_reducible repeat' first
    | assumption | refine when_kept ?_ ?_ | refine fset_kept ?_ | refine fput_kept ?_
    | (intro _ _; intros; beta_reduce)

theorem State.dropTrip_kept {c n : Nat} (h : Kept z s) :
    Kept z (State.dropTrip s c n) := by
  unfold State.dropTrip
  with_reducible repeat' first
    | assumption | refine corrected_kept ?_ | refine cbsEvent_kept ?_ | refine cbsCount_kept ?_

theorem State.setTrips_kept {c : Nat} {l : List QTrip} (h : Kept z s) :
    Kept z (State.setTrips s c l) := by
  unfold State.setTrips
  with_reducible repeat' first
    | assumption | refine fput_kept ?_ | refine setChan_kept ?_ | refine Kept.upd ?_ rfl

theorem State.cancelSwitch_kept {c : Nat} (h : Kept z s) :
    Kept z (State.cancelSwitch s c) := by
  unfold State.cancelSwitch
  with_reducible repeat' first
    | assumption | refine when_kept ?_ ?_ | refine fput_kept ?_ | refine fset_kept ?_
    | (intro _ _; intros; beta_reduce)

theorem State.cbEnter_kept {c st : Nat} (h : Kept z s) :
    Kept z (State.cbEnter s c st) := by
  unfold State.cbEnter
  with_reducible repeat' first
    | assumption
    | (extract_lets +onlyGivenNames x; first | (have hx : Kept z x := (by unfold x; clear x; repeat' first | assumption | refine brzEvent_kept ?_ | refine fput_kept ?_ | refine when_kept ?_ ?_ | refine corrected_kept ?_ | refine cbsEvent_kept ?_ | refine setTrips_kept ?_ | refine eachOf_kept ?_ ?_ | refine dropTrip_kept ?_ | refine cancelSwitch_kept ?_ | refine setChan_kept ?_ | refine cbsCount_kept ?_ | refine Kept.cond ?_ ?_ | (intro _ _; intros; beta_reduce)); clear_value x) | clear_value x)
    | refine brzEvent_kept ?_ | refine fput_kept ?_ | refine when_kept ?_ ?_ | refine corrected_kept ?_
    | refine cbsEvent_kept ?_ | refine setTrips_kept ?_ | refine eachOf_kept ?_ ?_ | refine dropTrip_kept ?_
    | refine cancelSwitch_kept ?_ | refine setChan_kept ?_ | refine cbsCount_kept ?_ | refine Kept.cond ?_ ?_
    | (intro _ _; intros; beta_reduce)

theorem State.toListen_kept {c : Nat} (h : Kept z s) :
    Kept z (State.toListen s c) := by
  unfold State.toListen
  with_reducible repeat' first
    | assumption | refine cbEnter_kept ?_ | refine setChan_kept ?_ | refine fput_kept ?_ | dsimp only

theorem State.unblock_kept {c k : Nat} (h : Kept z s) :
    Kept z (State.unblock s c k) := by
  unfold State.unblock
  with_reducible repeat' first
    | assumption | refine fput_kept ?_ | refine Kept.cond ?_ ?_

theorem State.hostUnblock_kept {c k : Nat} (h : Kept z s) :
    Kept z (State.hostUnblock s c k) := by
  unfold State.hostUnblock
  with_reducible repeat' first
    | assumption | refine unblock_kept ?_ | refine setChan_kept ?_ | dsimp only

theorem State.strike_kept {c k n : Nat} (h : Kept z s) :
    Kept z (State.strike s c k n) := by
  unfold State.strike
  with_reducible repeat' first
    | assumption | refine fput_kept ?_ | refine spokeCount_kept ?_ | refine when_kept ?_ ?_
    | refine corrected_kept ?_ | refine cbsEvent_kept ?_ | refine unblock_kept ?_ | refine Kept.cond ?_ ?_
    | (intro _ _; intros; beta_reduce) | dsimp only

theorem State.onTxs_kept {c : Nat} {f : List SpokeTx → List SpokeTx} (h : Kept z s) :
    Kept z (State.onTxs s c f) := by
  unfold State.onTxs
  with_reducible repeat' first
    | assumption | refine setChan_kept ?_

theorem State.endRelay_kept {c k kind groups : Nat} {mark : Bool} (h : Kept z s) :
    Kept z (State.endRelay s c k kind groups mark) := by
  unfold State.endRelay
  with_reducible repeat' first
    | assumption | refine emit_kept ?_ | refine onTxs_kept ?_ | refine Kept.cond ?_ ?_

theorem State.cutSpoke_kept {c k n groups : Nat} (h : Kept z s) :
    Kept z (State.cutSpoke s c k n groups) := by
  unfold State.cutSpoke
  with_reducible repeat' first
    | assumption | refine strike_kept ?_ | refine endRelay_kept ?_

theorem State.guardClose'_kept {c : Nat} (h : Kept z s) :
    Kept z (State.guardClose' s c) := by
  unfold State.guardClose'
  with_reducible repeat' first
    | assumption
    | (extract_lets +onlyGivenNames x; first | (have hx : Kept z x := (by unfold x; clear x; repeat' first | assumption | refine eachOf_kept ?_ ?_ | refine cutSpoke_kept ?_ | refine when_kept ?_ ?_ | refine spokeCount_kept ?_ | refine setChan_kept ?_ | refine Kept.cond ?_ ?_ | (intro _ _; intros; beta_reduce)); clear_value x) | clear_value x)
    | refine eachOf_kept ?_ ?_ | refine cutSpoke_kept ?_ | refine when_kept ?_ ?_ | refine spokeCount_kept ?_
    | refine setChan_kept ?_ | refine Kept.cond ?_ ?_ | (intro _ _; intros; beta_reduce)

theorem State.guardOpen_kept {c id : Nat} {bad : Bool} (h : Kept z s) :
    Kept z (State.guardOpen s c id bad) := by
  unfold State.guardOpen
  with_reducible repeat' first
    | assumption
    | (extract_lets +onlyGivenNames x; first | (have hx : Kept z x := (by unfold x; clear x; repeat' first | assumption | refine guardClose'_kept ?_ | refine setChan_kept ?_ | refine touchWin_kept ?_ | refine eachOf_kept ?_ ?_ | refine cutSpoke_kept ?_ | refine Kept.cond ?_ ?_ | (intro _ _; intros; beta_reduce)); clear_value x) | clear_value x)
    | refine guardClose'_kept ?_ | refine setChan_kept ?_ | refine touchWin_kept ?_ | refine eachOf_kept ?_ ?_
    | refine cutSpoke_kept ?_ | refine Kept.cond ?_ ?_ | (intro _ _; intros; beta_reduce)

theorem State.takeLead_kept {c k at' start : Nat} (h : Kept z s) :
    Kept z (State.takeLead s c k at' start) := by
  unfold State.takeLead
  with_reducible repeat' first
    | assumption | refine setChan_kept ?_ | refine cbEnter_kept ?_ | refine showRate'_kept ?_ | refine fput_kept ?_
    | dsimp only

theorem State.dropRelays_kept {c : Nat} (h : Kept z s) :
    Kept z (State.dropRelays s c) := by
  unfold State.dropRelays
  with_reducible repeat' first
    | assumption | refine onTxs_kept ?_ | refine Kept.cond ?_ ?_

theorem State.sofArrives_kept {c k at' : Nat} {start : Bool} (h : Kept z s) :
    Kept z (State.sofArrives s c k at' start) := by
  unfold State.sofArrives
  with_reducible repeat' first
    | assumption | refine setChan_kept ?_ | refine onTxs_kept ?_ | refine takeLead_kept ?_
    | refine dropRelays_kept ?_ | refine cbsCount_kept ?_ | refine spokeCount_kept ?_ | refine Kept.cond ?_ ?_
    | split | dsimp only

theorem State.cbDeliver_kept {c k : Nat} {l : List Nat} {ns : Nat} (h : Kept z s) :
    Kept z (State.cbDeliver s c k l ns) := by
  unfold State.cbDeliver
  with_reducible repeat' first
    | assumption
    | (extract_lets +onlyGivenNames x; first | (have hx : Kept z x := (by unfold x; clear x; repeat' first | assumption | refine ringCount_kept ?_ | refine ringStarve_kept ?_ | refine entriesDone_kept ?_ | refine ringWrite_kept ?_ | refine Kept.cond ?_ ?_ | split); clear_value x) | clear_value x)
    | refine ringCount_kept ?_ | refine ringStarve_kept ?_ | refine entriesDone_kept ?_ | refine ringWrite_kept ?_
    | refine Kept.cond ?_ ?_ | split

theorem State.cbSync_kept {c k : Nat} {x : SpokeTx} {l : List Nat} (h : Kept z s) :
    Kept z (State.cbSync s c k x l) := by
  unfold State.cbSync
  with_reducible repeat' first
    | assumption
    | (extract_lets +onlyGivenNames x; first | (have hx : Kept z x := (by unfold x; clear x; repeat' first | assumption | refine setChan_kept ?_ | refine fput_kept ?_ | refine cbsCount_kept ?_ | refine Kept.cond ?_ ?_); clear_value x) | clear_value x)
    | refine setChan_kept ?_ | refine fput_kept ?_ | refine cbsCount_kept ?_ | refine Kept.cond ?_ ?_

theorem State.miniEnd_kept {c e : Nat} (h : Kept z s) :
    Kept z (State.miniEnd s c e) := by
  unfold State.miniEnd
  with_reducible repeat' first
    | assumption
    | (extract_lets +onlyGivenNames x; first | (have hx : Kept z x := (by unfold x; clear x; repeat' first | assumption | refine setChan_kept ?_); clear_value x) | clear_value x)
    | refine setChan_kept ?_

theorem State.cbValid_kept {c k : Nat} {x : SpokeTx} {l : List Nat} {sofNs : Nat} (h : Kept z s) :
    Kept z (State.cbValid s c k x l sofNs) := by
  unfold State.cbValid
  with_reducible repeat' first
    | assumption | refine cbSync_kept ?_ | refine spokeCount_kept ?_ | refine when_kept ?_ ?_
    | refine cbDeliver_kept ?_ | (intro _ _; intros; beta_reduce) | dsimp only

theorem State.showRelay_kept {c : Nat} {x : SpokeTx} {groups : List Nat} (h : Kept z s) :
    Kept z (State.showRelay s c x groups) := by
  unfold State.showRelay
  with_reducible repeat' first
    | assumption | refine emit_kept ?_ | refine Kept.cond ?_ ?_ | split

theorem State.relayedWhole_kept {c k : Nat} (h : Kept z s) :
    Kept z (State.relayedWhole s c k) := by
  unfold State.relayedWhole
  with_reducible repeat' first
    | assumption | refine when_kept ?_ ?_ | refine fput_kept ?_ | (intro _ _; intros; beta_reduce)

theorem State.fixCycle_kept {c : Nat} {x : SpokeTx} {id : Nat} (h : Kept z s) :
    Kept z (State.fixCycle s c x id) := by
  unfold State.fixCycle
  with_reducible repeat' first
    | assumption | refine setChan_kept ?_

theorem State.cbFrameEnd_kept {c k at' : Nat} {groups : List Nat} (h : Kept z s) :
    Kept z (State.cbFrameEnd s c k at' groups) := by
  unfold State.cbFrameEnd
  with_reducible repeat' first
    | assumption
    | (extract_lets +onlyGivenNames x; first | (have hx : Kept z x := (by unfold x; clear x; repeat' first | assumption | refine showRelay_kept ?_ | refine onTxs_kept ?_ | refine when_kept ?_ ?_ | refine relayedWhole_kept ?_ | refine cbValid_kept ?_ | refine fixCycle_kept ?_ | refine spokeCount_kept ?_ | refine strike_kept ?_ | refine toListen_kept ?_ | refine cbsCount_kept ?_ | refine miniEnd_kept ?_ | refine Kept.cond ?_ ?_ | split | (intro _ _; intros; beta_reduce)); clear_value x) | clear_value x)
    | refine showRelay_kept ?_ | refine onTxs_kept ?_ | refine when_kept ?_ ?_ | refine relayedWhole_kept ?_
    | refine cbValid_kept ?_ | refine fixCycle_kept ?_ | refine spokeCount_kept ?_ | refine strike_kept ?_
    | refine toListen_kept ?_ | refine cbsCount_kept ?_ | refine miniEnd_kept ?_ | refine Kept.cond ?_ ?_ | split
    | (intro _ _; intros; beta_reduce)

theorem State.cbRate_kept {c : Nat} (h : Kept z s) :
    Kept z (State.cbRate s c) := by
  unfold State.cbRate
  with_reducible repeat' first
    | assumption
    | (extract_lets +onlyGivenNames x; first | (have hx : Kept z x := (by unfold x; clear x; repeat' first | assumption | refine fput_kept ?_ | refine when_kept ?_ ?_ | refine cbsCount_kept ?_ | refine Kept.cond ?_ ?_ | (intro _ _; intros; beta_reduce)); clear_value x) | clear_value x)
    | refine fput_kept ?_ | refine when_kept ?_ ?_ | refine cbsCount_kept ?_ | refine Kept.cond ?_ ?_
    | (intro _ _; intros; beta_reduce)

theorem State.cbFollow_kept {c : Nat} (h : Kept z s) :
    Kept z (State.cbFollow s c) := by
  unfold State.cbFollow
  with_reducible repeat' first
    | assumption
    | (extract_lets +onlyGivenNames x; first | (have hx : Kept z x := (by unfold x; clear x; repeat' first | assumption | refine showRate'_kept ?_ | refine fput_kept ?_ | refine Kept.cond ?_ ?_); clear_value x) | clear_value x)
    | refine showRate'_kept ?_ | refine fput_kept ?_ | refine Kept.cond ?_ ?_

theorem State.cbJudge_kept {c : Nat} {bad : Bool} (h : Kept z s) :
    Kept z (State.cbJudge s c bad) := by
  unfold State.cbJudge
  with_reducible repeat' first
    | assumption
    | (extract_lets +onlyGivenNames x; first | (have hx : Kept z x := (by unfold x; clear x; repeat' first | assumption | refine setChan_kept ?_ | refine when_kept ?_ ?_ | refine cbsCount_kept ?_ | refine cbEnter_kept ?_ | refine toListen_kept ?_ | refine Kept.cond ?_ ?_ | (intro _ _; intros; beta_reduce)); clear_value x) | clear_value x)
    | refine setChan_kept ?_ | refine when_kept ?_ ?_ | refine cbsCount_kept ?_ | refine cbEnter_kept ?_
    | refine toListen_kept ?_ | refine Kept.cond ?_ ?_ | (intro _ _; intros; beta_reduce)

theorem State.nitStart_kept {c : Nat} (h : Kept z s) :
    Kept z (State.nitStart s c) := by
  unfold State.nitStart
  with_reducible repeat' first
    | assumption
    | (extract_lets +onlyGivenNames x; first | (have hx : Kept z x := (by unfold x; clear x; repeat' first | assumption | refine guardClose'_kept ?_ | refine fput_kept ?_ | refine cbJudge_kept ?_ | refine cbFollow_kept ?_ | refine when_kept ?_ ?_ | refine cbsCount_kept ?_ | refine setChan_kept ?_ | refine cbRate_kept ?_ | refine Kept.cond ?_ ?_ | (intro _ _; intros; beta_reduce)); clear_value x) | clear_value x)
    | refine guardClose'_kept ?_ | refine fput_kept ?_ | refine cbJudge_kept ?_ | refine cbFollow_kept ?_
    | refine when_kept ?_ ?_ | refine cbsCount_kept ?_ | refine setChan_kept ?_ | refine cbRate_kept ?_
    | refine Kept.cond ?_ ?_ | (intro _ _; intros; beta_reduce)

theorem State.showLeft_kept {c n : Nat} (h : Kept z s) :
    Kept z (State.showLeft s c n) := by
  unfold State.showLeft
  with_reducible repeat' first
    | assumption | refine setChan_kept ?_ | refine useFree_kept ?_ | refine fput_kept ?_ | refine Kept.cond ?_ ?_
    | dsimp only

theorem State.reintegrate_kept {c : Nat} (h : Kept z s) :
    Kept z (State.reintegrate s c) := by
  unfold State.reintegrate
  with_reducible repeat' first
    | assumption | refine forUpTo_kept ?_ ?_ | refine when_kept ?_ ?_ | refine unblock_kept ?_
    | (intro _ _; intros; beta_reduce)

theorem State.cbCycleStart_kept {c : Nat} {bad : Bool} (h : Kept z s) :
    Kept z (State.cbCycleStart s c bad) := by
  unfold State.cbCycleStart
  with_reducible repeat' first
    | assumption
    | (extract_lets +onlyGivenNames x; first | (have hx : Kept z x := (by unfold x; clear x; repeat' first | assumption | refine cbEnter_kept ?_ | refine reintegrate_kept ?_ | refine guardClose'_kept ?_ | refine cbsCount_kept ?_ | refine fput_kept ?_ | refine setChan_kept ?_ | refine when_kept ?_ ?_ | refine showRate'_kept ?_ | refine showLeft_kept ?_ | refine toListen_kept ?_ | refine cbsEvent_kept ?_ | refine Kept.cond ?_ ?_ | (intro _ _; intros; beta_reduce)); clear_value x) | clear_value x)
    | refine cbEnter_kept ?_ | refine reintegrate_kept ?_ | refine guardClose'_kept ?_ | refine cbsCount_kept ?_
    | refine fput_kept ?_ | refine setChan_kept ?_ | refine when_kept ?_ ?_ | refine showRate'_kept ?_
    | refine showLeft_kept ?_ | refine toListen_kept ?_ | refine cbsEvent_kept ?_ | refine Kept.cond ?_ ?_
    | (intro _ _; intros; beta_reduce)

theorem State.listenTimeout_kept {c : Nat} (h : Kept z s) :
    Kept z (State.listenTimeout s c) := by
  unfold State.listenTimeout
  with_reducible repeat' first
    | assumption | refine setChan_kept ?_ | refine Kept.cond ?_ ?_

theorem State.haltTimeout_kept {c : Nat} (h : Kept z s) :
    Kept z (State.haltTimeout s c) := by
  unfold State.haltTimeout
  with_reducible repeat' first
    | assumption | refine toListen_kept ?_ | refine Kept.cond ?_ ?_

theorem State.endFrames_kept {c : Nat} {mark : Bool} (h : Kept z s) :
    Kept z (State.endFrames s c mark) := by
  unfold State.endFrames
  with_reducible repeat' first
    | assumption
    | (extract_lets +onlyGivenNames x; first | (have hx : Kept z x := (by unfold x; clear x; repeat' first | assumption | refine eachOf_kept ?_ ?_ | refine endRelay_kept ?_ | refine emit_kept ?_ | refine setChan_kept ?_ | refine Kept.cond ?_ ?_ | split | (intro _ _; intros; beta_reduce)); clear_value x) | clear_value x)
    | refine eachOf_kept ?_ ?_ | refine endRelay_kept ?_ | refine emit_kept ?_ | refine setChan_kept ?_
    | refine Kept.cond ?_ ?_ | split | (intro _ _; intros; beta_reduce)

theorem State.goOff_kept {c : Nat} (h : Kept z s) :
    Kept z (State.goOff s c) := by
  unfold State.goOff
  with_reducible repeat' first
    | assumption | refine cbEnter_kept ?_ | refine endFrames_kept ?_ | refine when_kept ?_ ?_
    | refine setChan_kept ?_ | (intro _ _; intros; beta_reduce) | dsimp only

theorem State.writeCbCtl_kept {c w : Nat} (h : Kept z s) :
    Kept z (State.writeCbCtl s c w) := by
  unfold State.writeCbCtl
  with_reducible repeat' first
    | assumption
    | (extract_lets +onlyGivenNames x; first | (have hx : Kept z x := (by unfold x; clear x; repeat' first | assumption | refine store_kept ?_ | refine goOff_kept ?_ | refine fput_kept ?_ | refine eachOf_kept ?_ ?_ | refine touch_kept ?_ | refine cbEnter_kept ?_ | refine showRate'_kept ?_ | refine setChan_kept ?_ | refine Kept.cond ?_ ?_ | (intro _ _; intros; beta_reduce)); clear_value x) | clear_value x)
    | refine store_kept ?_ | refine goOff_kept ?_ | refine fput_kept ?_ | refine eachOf_kept ?_ ?_
    | refine touch_kept ?_ | refine cbEnter_kept ?_ | refine showRate'_kept ?_ | refine setChan_kept ?_
    | refine Kept.cond ?_ ?_ | (intro _ _; intros; beta_reduce)

theorem State.writeSpokeEn_kept {c w : Nat} (h : Kept z s) :
    Kept z (State.writeSpokeEn s c w) := by
  unfold State.writeSpokeEn
  with_reducible repeat' first
    | assumption | refine store_kept ?_ | refine eachOf_kept ?_ ?_ | refine endRelay_kept ?_
    | (intro _ _; intros; beta_reduce) | dsimp only

theorem State.writeModeReq_kept {c w : Nat} (h : Kept z s) :
    Kept z (State.writeModeReq s c w) := by
  unfold State.writeModeReq
  with_reducible repeat' first
    | assumption
    | (extract_lets +onlyGivenNames x; first | (have hx : Kept z x := (by unfold x; clear x; repeat' first | assumption | refine when_kept ?_ ?_ | refine eachOf_kept ?_ ?_ | refine touch_kept ?_ | refine cbsEvent_kept ?_ | refine fput_kept ?_ | refine showLeft_kept ?_ | refine fset_kept ?_ | refine Kept.cond ?_ ?_ | (intro _ _; intros; beta_reduce)); clear_value x) | clear_value x)
    | refine when_kept ?_ ?_ | refine eachOf_kept ?_ ?_ | refine touch_kept ?_ | refine cbsEvent_kept ?_
    | refine fput_kept ?_ | refine showLeft_kept ?_ | refine fset_kept ?_ | refine Kept.cond ?_ ?_
    | (intro _ _; intros; beta_reduce)

theorem State.dropNoWindow_kept {c : Nat} (h : Kept z s) :
    Kept z (State.dropNoWindow s c) := by
  unfold State.dropNoWindow
  with_reducible repeat' first
    | assumption | refine eachOf_kept ?_ ?_ | refine entriesDone_kept ?_ | refine txWriteback_kept ?_
    | (intro _ _; intros; beta_reduce) | dsimp only

theorem State.modeSwitch_kept {c : Nat} (h : Kept z s) :
    Kept z (State.modeSwitch s c) := by
  unfold State.modeSwitch
  with_reducible repeat' first
    | assumption
    | (extract_lets +onlyGivenNames x; first | (have hx : Kept z x := (by unfold x; clear x; repeat' first | assumption | refine fput_kept ?_ | refine showLeft_kept ?_ | refine fset_kept ?_ | refine dropNoWindow_kept ?_ | refine cbsEvent_kept ?_ | refine cbsCount_kept ?_ | refine setChan_kept ?_ | refine setTrips_kept ?_ | refine eachOf_kept ?_ ?_ | refine dropTrip_kept ?_ | refine Kept.cond ?_ ?_ | (intro _ _; intros; beta_reduce)); clear_value x) | clear_value x)
    | refine fput_kept ?_ | refine showLeft_kept ?_ | refine fset_kept ?_ | refine dropNoWindow_kept ?_
    | refine cbsEvent_kept ?_ | refine cbsCount_kept ?_ | refine setChan_kept ?_ | refine setTrips_kept ?_
    | refine eachOf_kept ?_ ?_ | refine dropTrip_kept ?_ | refine Kept.cond ?_ ?_ | (intro _ _; intros; beta_reduce)

theorem State.tripArrives_kept {c : Nat} {l : List Nat} (h : Kept z s) :
    Kept z (State.tripArrives s c l) := by
  unfold State.tripArrives
  with_reducible repeat' first
    | assumption | refine dropTrip_kept ?_ | refine setTrips_kept ?_ | refine Kept.cond ?_ ?_

theorem State.sendOwn_kept {c id : Nat} {sync start null trip : Bool} {body : List Nat} (h : Kept z s) :
    Kept z (State.sendOwn s c id sync start null trip body) := by
  unfold State.sendOwn
  with_reducible repeat' first
    | assumption | refine emit_kept ?_ | refine when_kept ?_ ?_ | refine setChan_kept ?_ | refine cbsCount_kept ?_
    | (intro _ _; intros; beta_reduce) | dsimp only

theorem State.sendEntry_kept {c id : Nat} {sync : Bool} {e : RingEntry} (h : Kept z s) :
    Kept z (State.sendEntry s c id sync e) := by
  unfold State.sendEntry
  with_reducible repeat' first
    | assumption
    | (extract_lets +onlyGivenNames x; first | (have hx : Kept z x := (by unfold x; clear x; repeat' first | assumption | refine cbsCount_kept ?_ | refine sendOwn_kept ?_ | refine entriesDone_kept ?_ | refine txWriteback_kept ?_); clear_value x) | clear_value x)
    | refine cbsCount_kept ?_ | refine sendOwn_kept ?_ | refine entriesDone_kept ?_ | refine txWriteback_kept ?_

theorem State.tripWindow_kept {c id : Nat} {sync badTrip : Bool} (h : Kept z s) :
    Kept z (State.tripWindow s c id sync badTrip) := by
  unfold State.tripWindow
  with_reducible repeat' first
    | assumption
    | (extract_lets +onlyGivenNames x; first | (have hx : Kept z x := (by unfold x; clear x; repeat' first | assumption | refine setTrips_kept ?_ | refine forUpTo_kept ?_ ?_ | refine dropTrip_kept ?_ | refine sendOwn_kept ?_ | refine brzEvent_kept ?_ | refine cbsCount_kept ?_ | refine Kept.cond ?_ ?_ | split | (intro _ _; intros; beta_reduce)); clear_value x) | clear_value x)
    | refine setTrips_kept ?_ | refine forUpTo_kept ?_ ?_ | refine dropTrip_kept ?_ | refine sendOwn_kept ?_
    | refine brzEvent_kept ?_ | refine cbsCount_kept ?_ | refine Kept.cond ?_ ?_ | split
    | (intro _ _; intros; beta_reduce)

theorem State.arbOwn_kept {c id : Nat} {e : RingEntry} (h : Kept z s) :
    Kept z (State.arbOwn s c id e) := by
  unfold State.arbOwn
  with_reducible repeat' first
    | assumption
    | (extract_lets +onlyGivenNames x; first | (have hx : Kept z x := (by unfold x; clear x; repeat' first | assumption | refine spokeCount_kept ?_ | refine onTxs_kept ?_ | refine sendEntry_kept ?_ | refine setChan_kept ?_ | refine Kept.cond ?_ ?_); clear_value x) | clear_value x)
    | refine spokeCount_kept ?_ | refine onTxs_kept ?_ | refine sendEntry_kept ?_ | refine setChan_kept ?_
    | refine Kept.cond ?_ ?_

theorem State.miniOwn_kept {c id : Nat} {e : RingEntry} (h : Kept z s) :
    Kept z (State.miniOwn s c id e) := by
  unfold State.miniOwn
  with_reducible repeat' first
    | assumption
    | (extract_lets +onlyGivenNames x; first | (have hx : Kept z x := (by unfold x; clear x; repeat' first | assumption | refine miniEnd_kept ?_ | refine sendEntry_kept ?_ | refine Kept.cond ?_ ?_); clear_value x) | clear_value x)
    | refine miniEnd_kept ?_ | refine sendEntry_kept ?_ | refine Kept.cond ?_ ?_

theorem State.ownStart_kept {c id : Nat} (h : Kept z s) :
    Kept z (State.ownStart s c id) := by
  unfold State.ownStart
  with_reducible repeat' first
    | assumption | refine sendOwn_kept ?_ | refine takeLead_kept ?_ | refine dropRelays_kept ?_
    | refine Kept.cond ?_ ?_ | dsimp only

theorem State.ownFrame_kept {c id : Nat} {bad badTrip : Bool} (h : Kept z s) :
    Kept z (State.ownFrame s c id bad badTrip) := by
  unfold State.ownFrame
  with_reducible repeat' first
    | assumption
    | (extract_lets +onlyGivenNames x; first | (have hx : Kept z x := (by unfold x; clear x; repeat' first | assumption | refine touchWin_kept ?_ | refine when_kept ?_ ?_ | refine ownStart_kept ?_ | refine sendOwn_kept ?_ | refine tripWindow_kept ?_ | refine sendEntry_kept ?_ | refine miniOwn_kept ?_ | refine arbOwn_kept ?_ | refine Kept.cond ?_ ?_ | split | (intro _ _; intros; beta_reduce)); clear_value x) | clear_value x)
    | refine touchWin_kept ?_ | refine when_kept ?_ ?_ | refine ownStart_kept ?_ | refine sendOwn_kept ?_
    | refine tripWindow_kept ?_ | refine sendEntry_kept ?_ | refine miniOwn_kept ?_ | refine arbOwn_kept ?_
    | refine Kept.cond ?_ ?_ | split | (intro _ _; intros; beta_reduce)

theorem State.spokeLock_kept {c k : Nat} {locked : Bool} (h : Kept z s) :
    Kept z (State.spokeLock s c k locked) := by
  unfold State.spokeLock
  with_reducible repeat' first
    | assumption | refine fset_kept ?_ | refine Kept.cond ?_ ?_

theorem State.onStar_kept {f : State → State} (h : Kept z s) (hf : ∀ t, Kept z t → Kept z (f t)) :
    Kept z (State.onStar s f) := by
  unfold State.onStar
  with_reducible repeat' first
    | assumption | exact hf _ (by assumption) | refine when_kept ?_ ?_ | (intro _ _; intros; beta_reduce) | apply hf

theorem State.putRecord_kept {e : BrzEntry} {q : Nat} (h : Kept z s) :
    Kept z (State.putRecord s e q) := by
  unfold State.putRecord
  with_reducible repeat' first
    | assumption | refine wr_kept ?_ | refine eachOf_kept ?_ ?_ | (intro _ _; intros; beta_reduce) | dsimp only

theorem State.lostRecord_kept (h : Kept z s) :
    Kept z (State.lostRecord s) := by
  unfold State.lostRecord
  with_reducible repeat' first
    | assumption | refine brzJoin_kept ?_ | refine Kept.cond ?_ ?_ | refine Kept.upd ?_ rfl | dsimp only

theorem State.writeRecord_kept (h : Kept z s) :
    Kept z (State.writeRecord s) := by
  unfold State.writeRecord
  with_reducible repeat' first
    | assumption | refine fset_kept ?_ | refine brzLose_kept ?_ | refine cnt_kept ?_ | refine wr_kept ?_
    | refine putRecord_kept ?_ | refine when_kept ?_ ?_ | refine lostRecord_kept ?_ | refine Kept.cond ?_ ?_ | split
    | refine Kept.upd ?_ rfl | (intro _ _; intros; beta_reduce) | dsimp only

theorem State.setKeep_kept {b w n : Nat} (h : Kept z s) : Kept z (State.setKeep s b w n) :=
  State.memWritten_kept
    ⟨h.1, fun hz => ⟨(h.2 hz).1, (h.2 hz).2.1, (h.2 hz).2.2.1, Table.wf_put (h.2 hz).2.2.2.1 n _, (h.2 hz).2.2.2.2⟩⟩

theorem State.startFlush_kept {cause ns sec : Nat} (h : Kept z s) :
    Kept z (State.startFlush s cause ns sec) := by
  unfold State.startFlush
  with_reducible repeat' first
    | assumption | exact Kept.upd (by assumption) rfl
    | (extract_lets +onlyGivenNames x; first | (have hx : Kept z x := (by unfold x; clear x; repeat' first | assumption | exact Kept.upd (by assumption) rfl | refine fset_kept ?_ | refine setKeep_kept ?_ | refine cnt_kept ?_ | refine Kept.upd ?_ rfl); clear_value x) | clear_value x)
    | refine fset_kept ?_ | refine setKeep_kept ?_ | refine cnt_kept ?_ | refine Kept.upd ?_ rfl

theorem State.triggered_kept {cause : Nat} {e : BrzEntry} (h : Kept z s) :
    Kept z (State.triggered s cause e) := by
  unfold State.triggered
  with_reducible repeat' first
    | assumption | refine when_kept ?_ ?_ | refine fset_kept ?_ | refine startFlush_kept ?_
    | (intro _ _; intros; beta_reduce) | dsimp only

theorem State.joinTrigger_kept {cause : Nat} (h : Kept z s) : Kept z (State.joinTrigger s cause) := by
  unfold State.joinTrigger
  extract_lets +onlyGivenNames g f l b t
  have ht : Kept z t := Kept.upd h rfl
  exact triggered_kept ht

theorem State.newTrigger_kept {cause : Nat} (h : Kept z s) : Kept z (State.newTrigger s cause) := by
  unfold State.newTrigger
  extract_lets +onlyGivenNames f q arg1 t1 b t2 t3
  have h1 : Kept z t1 := brzEvent_kept h
  have h2 : Kept z t2 := Kept.upd h1 rfl
  have h3 : Kept z t3 := when_kept h2 fun u hu => Kept.upd (wr_kept hu) rfl
  exact triggered_kept h3

theorem State.trigger_kept {cause : Nat} (h : Kept z s) :
    Kept z (State.trigger s cause) := by
  unfold State.trigger
  with_reducible repeat' first
    | assumption | refine joinTrigger_kept ?_ | refine newTrigger_kept ?_ | refine Kept.cond ?_ ?_

theorem State.unfreeze_kept (h : Kept z s) :
    Kept z (State.unfreeze s) := by
  unfold State.unfreeze
  with_reducible repeat' first
    | assumption | refine fset_kept ?_ | refine when_kept ?_ ?_ | refine lostRecord_kept ?_
    | (intro _ _; intros; beta_reduce) | dsimp only

theorem State.writeBrzCtl_kept {w : Nat} (h : Kept z s) :
    Kept z (State.writeBrzCtl s w) := by
  unfold State.writeBrzCtl
  with_reducible repeat' first
    | assumption | refine when_kept ?_ ?_ | refine store_kept ?_ | refine fset_kept ?_ | refine trigger_kept ?_
    | refine unfreeze_kept ?_ | (intro _ _; intros; beta_reduce)

theorem State.setKeeps_kept {b w : Nat} {y3 : List Nat} (h : Kept z s) :
    Kept z (State.setKeeps s b w y3) := by
  induction y3 generalizing b w s with
  | nil => exact h
  | cons e l ih =>
  rw [State.setKeeps]
  with_reducible repeat' first
    | assumption | refine ih ?_ | refine setKeep_kept ?_ | split

theorem State.endFlush_kept (h : Kept z s) :
    Kept z (State.endFlush s) := by
  unfold State.endFlush
  with_reducible repeat' first
    | assumption | refine touchAll_kept ?_ | refine setKeep_kept ?_ | refine setKeeps_kept ?_ | refine fset_kept ?_
    | refine fput_kept ?_ | refine Kept.cond ?_ ?_ | split | refine Kept.upd ?_ rfl | dsimp only

theorem State.keepCheck_kept (h : Kept z s) : Kept z (State.keepCheck s) := by
  unfold State.keepCheck
  extract_lets +onlyGivenNames a b s' n bad cut t1 t2
  have ha : Kept z a := touchAll_kept h
  have h1 : Kept z s' := Kept.upd ha rfl
  have h2 : Kept z t1 := fset_kept (fput_kept h1)
  have h3 : Kept z t2 := when_kept h2 fun u hu => fset_kept hu
  exact when_kept h3 fun u hu => corrected_kept (fset_kept hu)

theorem State.brzStart_kept (h : Kept z s) : Kept z (State.brzStart s) := by
  unfold State.brzStart
  refine Kept.cond h ?_
  extract_lets +onlyGivenNames n t1 t2 b t3
  have h1 : Kept z t1 := wr_kept (when_kept h fun u hu => touchAll_kept hu)
  have h2 : Kept z t2 := when_kept h1 fun u hu => wr_kept hu
  have h3 : Kept z t3 := Kept.upd h2 rfl
  exact fset_kept h3

theorem State.summaries_kept (h : Kept z s) : Kept z (eachOf (List.range 1024) (fun c u =>
    bif u.fget (F.brzLimSupp c) == 0 then u
    else (u.brzEvent 1 98 c (u.fget (F.brzLimSupp c)) (Table.get 0 c u.brz.firstSupp)).fput (F.brzLimSupp c) 0) s) := by
  refine eachOf_kept h fun c u hu => ?_
  with_reducible refine Kept.cond hu ?_
  exact State.fput_kept (State.brzEvent_kept hu)

theorem clearWindow_kept (h : Kept z s) : Kept z { s with brz := { s.brz with window := [], firstSupp := [] } } :=
  Kept.upd h rfl

theorem State.brzWindow_kept (h : Kept z s) : Kept z (State.brzWindow s) := by
  have h1 := State.summaries_kept h
  unfold State.brzWindow
  exact clearWindow_kept h1

theorem State.softRecord_kept {q : Requester} {w : Nat} (h : Kept z s) :
    Kept z (State.softRecord s q w) := by
  unfold State.softRecord
  with_reducible repeat' first
    | assumption | refine applyStaged_kept ?_ | refine brzEvent_kept ?_ | refine Kept.cond ?_ ?_ | dsimp only

theorem State.setExc_kept {k : Nat} {x : Excursion} (h : Kept z s) :
    Kept z (State.setExc s k x) := by
  unfold State.setExc
  with_reducible repeat' first
    | assumption | refine Kept.upd ?_ rfl

theorem State.excStart_kept {k : Nat} (h : Kept z s) :
    Kept z (State.excStart s k) := by
  unfold State.excStart
  with_reducible repeat' first
    | assumption | refine cnt_kept ?_ | refine brzEvent_kept ?_ | refine setExc_kept ?_ | refine fput_kept ?_
    | dsimp only

theorem State.excEnd_kept {k at' : Nat} (h : Kept z s) :
    Kept z (State.excEnd s k at') := by
  unfold State.excEnd
  with_reducible repeat' first
    | assumption | refine brzEvent_kept ?_ | refine setExc_kept ?_ | refine fput_kept ?_ | dsimp only

theorem State.excSample_kept {vf k : Nat} (h : Kept z s) :
    Kept z (State.excSample s vf k) := by
  unfold State.excSample
  with_reducible repeat' first
    | assumption
    | (extract_lets +onlyGivenNames x; first | (have hx : Kept z x := (by unfold x; clear x; repeat' first | assumption | refine when_kept ?_ ?_ | refine setExc_kept ?_ | refine excEnd_kept ?_ | refine excStart_kept ?_ | refine Kept.cond ?_ ?_ | (intro _ _; intros; beta_reduce)); clear_value x) | clear_value x)
    | refine when_kept ?_ ?_ | refine setExc_kept ?_ | refine excEnd_kept ?_ | refine excStart_kept ?_
    | refine Kept.cond ?_ ?_ | (intro _ _; intros; beta_reduce)

theorem State.excReport_kept {t : State} (h : Kept z t) : Kept z (State.excReport s t) := by
  unfold State.excReport
  exact when_kept h fun u hu => latch_kept hu

theorem State.supplySample_kept {raw : Nat} (h : Kept z s) :
    Kept z (State.supplySample s raw) := by
  unfold State.supplySample
  with_reducible repeat' first
    | assumption | exact Kept.upd (by assumption) rfl
    | (extract_lets +onlyGivenNames x; first | (have hx : Kept z x := (by unfold x; clear x; repeat' first | assumption | exact Kept.upd (by assumption) rfl | refine fput_kept ?_ | refine fset_kept ?_ | refine excReport_kept ?_ | refine excSample_kept ?_ | refine Kept.cond ?_ ?_ | refine Kept.upd ?_ rfl); clear_value x) | clear_value x)
    | refine fput_kept ?_ | refine fset_kept ?_ | refine excReport_kept ?_ | refine excSample_kept ?_
    | refine Kept.cond ?_ ?_ | refine Kept.upd ?_ rfl

theorem State.writeSupCtl_kept {w : Nat} (h : Kept z s) :
    Kept z (State.writeSupCtl s w) := by
  unfold State.writeSupCtl
  with_reducible repeat' first
    | assumption | refine store_kept ?_ | refine fset_kept ?_ | refine forUpTo_kept ?_ ?_ | refine setExc_kept ?_
    | refine Kept.cond ?_ ?_ | refine Kept.upd ?_ rfl | (intro _ _; intros; beta_reduce) | dsimp only

theorem State.writeSupExt_kept {w : Nat} (h : Kept z s) :
    Kept z (State.writeSupExt s w) := by
  unfold State.writeSupExt
  with_reducible repeat' first
    | assumption | refine fput_kept ?_ | refine Kept.cond ?_ ?_

theorem State.rippleWindow_kept (h : Kept z s) :
    Kept z (State.rippleWindow s) := by
  unfold State.rippleWindow
  with_reducible repeat' first
    | assumption | exact Kept.upd (by assumption) rfl
    | (extract_lets +onlyGivenNames x; first | (have hx : Kept z x := (by unfold x; clear x; repeat' first | assumption | exact Kept.upd (by assumption) rfl | refine fput_kept ?_ | refine setExc_kept ?_ | refine when_kept ?_ ?_ | refine excEnd_kept ?_ | refine excReport_kept ?_ | refine excStart_kept ?_ | refine Kept.cond ?_ ?_ | refine Kept.upd ?_ rfl | (intro _ _; intros; beta_reduce)); clear_value x) | clear_value x)
    | refine fput_kept ?_ | refine setExc_kept ?_ | refine when_kept ?_ ?_ | refine excEnd_kept ?_
    | refine excReport_kept ?_ | refine excStart_kept ?_ | refine Kept.cond ?_ ?_ | refine Kept.upd ?_ rfl
    | (intro _ _; intros; beta_reduce)

theorem State.pfwAssert_kept (h : Kept z s) :
    Kept z (State.pfwAssert s) := by
  unfold State.pfwAssert
  with_reducible repeat' first
    | assumption | refine corrected_kept ?_ | refine cnt_kept ?_ | refine fset_kept ?_ | refine trigger_kept ?_
    | refine brzEvent_kept ?_ | refine Kept.cond ?_ ?_

theorem State.resetDomWords_kept {n : Nat} {off : Bool} (h : Kept z s) :
    Kept z (State.resetDomWords s n off) := by
  unfold State.resetDomWords
  with_reducible repeat' first
    | assumption | refine resetWords_kept ?_

theorem State.resetMac_kept {p : Nat} (h : Kept z s) :
    Kept z (State.resetMac s p) := by
  unfold State.resetMac
  with_reducible repeat' first
    | assumption
    | (extract_lets +onlyGivenNames x; first | (have hx : Kept z x := (by unfold x; clear x; repeat' first | assumption | refine eachOf_kept ?_ ?_ | refine copyDone_kept ?_ | refine emitCut_kept ?_ | refine setMac_kept ?_ | refine storeFree_kept ?_ | split | (intro _ _; intros; beta_reduce)); clear_value x) | clear_value x)
    | refine eachOf_kept ?_ ?_ | refine copyDone_kept ?_ | refine emitCut_kept ?_ | refine setMac_kept ?_
    | refine storeFree_kept ?_ | split | (intro _ _; intros; beta_reduce)

theorem State.resetBase_kept {q : Nat} {off : Bool} (h : Kept z s) :
    Kept z (State.resetBase s q off) := by
  unfold State.resetBase
  with_reducible repeat' first
    | assumption | refine forUpTo_kept ?_ ?_ | refine resetMac_kept ?_ | refine resetDomWords_kept ?_
    | refine Kept.upd ?_ rfl | (intro _ _; intros; beta_reduce) | dsimp only

theorem State.resetBank_kept {b : Nat} {off : Bool} (h : Kept z s) :
    Kept z (State.resetBank s b off) := by
  unfold State.resetBank
  with_reducible repeat' first
    | assumption
    | (extract_lets +onlyGivenNames x; first | (have hx : Kept z x := (by unfold x; clear x; repeat' first | assumption | refine when_kept ?_ ?_ | refine forUpTo_kept ?_ ?_ | refine clr_kept ?_ | refine fallDown_kept ?_ | refine fput_kept ?_ | refine setMac_kept ?_ | refine fset_kept ?_ | refine resetDomWords_kept ?_ | refine Kept.cond ?_ ?_ | (intro _ _; intros; beta_reduce)); clear_value x) | clear_value x)
    | refine when_kept ?_ ?_ | refine forUpTo_kept ?_ ?_ | refine clr_kept ?_ | refine fallDown_kept ?_
    | refine fput_kept ?_ | refine setMac_kept ?_ | refine fset_kept ?_ | refine resetDomWords_kept ?_
    | refine Kept.cond ?_ ?_ | (intro _ _; intros; beta_reduce)

theorem State.stompTx_kept {p : Nat} (h : Kept z s) :
    Kept z (State.stompTx s p) := by
  unfold State.stompTx
  with_reducible repeat' first
    | assumption | refine setMac_kept ?_ | dsimp only

theorem State.resetDup_kept {q : Nat} {off : Bool} (h : Kept z s) :
    Kept z (State.resetDup s q off) := by
  unfold State.resetDup
  with_reducible repeat' first
    | assumption | exact Kept.upd (by assumption) rfl
    | (extract_lets +onlyGivenNames x; first | (have hx : Kept z x := (by unfold x; clear x; repeat' first | assumption | exact Kept.upd (by assumption) rfl | refine forUpTo_kept ?_ ?_ | refine setMac_kept ?_ | refine when_kept ?_ ?_ | refine stompTx_kept ?_ | refine resetDomWords_kept ?_ | split | refine Kept.upd ?_ rfl | (intro _ _; intros; beta_reduce)); clear_value x) | clear_value x)
    | refine forUpTo_kept ?_ ?_ | refine setMac_kept ?_ | refine when_kept ?_ ?_ | refine stompTx_kept ?_
    | refine resetDomWords_kept ?_ | split | refine Kept.upd ?_ rfl | (intro _ _; intros; beta_reduce)

theorem State.resetRings_kept {q : Nat} {off spare : Bool} (h : Kept z s) :
    Kept z (State.resetRings s q off spare) := by
  unfold State.resetRings
  with_reducible repeat' first
    | assumption | exact Kept.upd (by assumption) rfl
    | (extract_lets +onlyGivenNames x; first | (have hx : Kept z x := (by unfold x; clear x; repeat' first | assumption | exact Kept.upd (by assumption) rfl | refine resetDomWords_kept ?_ | refine orphanFrames_kept ?_ | refine eachOf_kept ?_ ?_ | refine wr_kept ?_ | refine fput_kept ?_ | refine setRing_kept ?_ | refine masterDown_kept ?_ | refine Kept.cond ?_ ?_ | refine Kept.upd ?_ rfl | (intro _ _; intros; beta_reduce)); clear_value x) | clear_value x)
    | refine resetDomWords_kept ?_ | refine orphanFrames_kept ?_ | refine eachOf_kept ?_ ?_ | refine wr_kept ?_
    | refine fput_kept ?_ | refine setRing_kept ?_ | refine masterDown_kept ?_ | refine Kept.cond ?_ ?_
    | refine Kept.upd ?_ rfl | (intro _ _; intros; beta_reduce)

theorem State.resetNit_kept {q : Nat} {off : Bool} (h : Kept z s) :
    Kept z (State.resetNit s q off) := by
  unfold State.resetNit
  with_reducible repeat' first
    | assumption | refine resetDomWords_kept ?_ | refine setHoldRel_kept ?_ | refine dropQuadrant_kept ?_
    | refine Kept.upd ?_ rfl | dsimp only

theorem State.resetGrf_kept {q : Nat} {off : Bool} (h : Kept z s) :
    Kept z (State.resetGrf s q off) := by
  unfold State.resetGrf
  with_reducible repeat' first
    | assumption | exact Kept.upd (by assumption) rfl
    | (extract_lets +onlyGivenNames x; first | (have hx : Kept z x := (by unfold x; clear x; repeat' first | assumption | exact Kept.upd (by assumption) rfl | refine anlLinkLost_kept ?_ | refine nitLinkLost_kept ?_ | refine grfReset_kept ?_ | refine resetDomWords_kept ?_ | refine Kept.cond ?_ ?_ | refine Kept.upd ?_ rfl); clear_value x) | clear_value x)
    | refine anlLinkLost_kept ?_ | refine nitLinkLost_kept ?_ | refine grfReset_kept ?_
    | refine resetDomWords_kept ?_ | refine Kept.cond ?_ ?_ | refine Kept.upd ?_ rfl

theorem State.resetScb_kept (h : Kept z s) :
    Kept z (State.resetScb s) := by
  unfold State.resetScb
  with_reducible repeat' first
    | assumption | refine resetWords_kept ?_ | refine Kept.upd ?_ rfl | dsimp only

theorem State.resetFab_kept (h : Kept z s) :
    Kept z (State.resetFab s) := by
  unfold State.resetFab
  with_reducible repeat' first
    | assumption | refine fabReset_kept ?_ | refine resetWords_kept ?_

theorem State.resetSpineRings_kept (h : Kept z s) :
    Kept z (State.resetSpineRings s) := by
  unfold State.resetSpineRings
  with_reducible repeat' first
    | assumption | refine resetWords_kept ?_ | refine masterDown_kept ?_ | refine resetHidden_kept ?_
    | refine Kept.upd ?_ rfl | dsimp only

theorem State.resetAnneal_kept (h : Kept z s) :
    Kept z (State.resetAnneal s) := by
  unfold State.resetAnneal
  with_reducible repeat' first
    | assumption | refine forUpTo_kept ?_ ?_ | refine when_kept ?_ ?_ | refine commandFirst_kept ?_
    | refine masterDown_kept ?_ | refine resetWords_kept ?_ | refine Kept.upd ?_ rfl
    | (intro _ _; intros; beta_reduce) | dsimp only

theorem State.resetCbs_kept (h : Kept z s) :
    Kept z (State.resetCbs s) := by
  unfold State.resetCbs
  with_reducible repeat' first
    | assumption | refine forUpTo_kept ?_ ?_ | refine cbEnter_kept ?_ | refine endFrames_kept ?_
    | refine resetWords_kept ?_ | refine Kept.upd ?_ rfl | (intro _ _; intros; beta_reduce) | dsimp only

theorem State.resetSeal_kept (h : Kept z s) :
    Kept z (State.resetSeal s) := by
  unfold State.resetSeal
  with_reducible repeat' first
    | assumption | refine resetWords_kept ?_ | refine Kept.upd ?_ rfl

theorem State.resetFollower_kept {u : Nat} (h : Kept z s) :
    Kept z (State.resetFollower s u) := by
  unfold State.resetFollower
  with_reducible repeat' first
    | assumption | refine fput_kept ?_ | refine fset_kept ?_ | refine Kept.upd ?_ rfl | dsimp only

theorem State.resetMatrix_kept (h : Kept z s) :
    Kept z (State.resetMatrix s) := by
  unfold State.resetMatrix
  with_reducible repeat' first
    | assumption | refine resetWords_kept ?_ | refine Kept.upd ?_ rfl | dsimp only

theorem State.resetUnit_kept {u : Nat} (h : Kept z s) :
    Kept z (State.resetUnit s u) := by
  unfold State.resetUnit
  with_reducible repeat' first
    | assumption | refine resetScb_kept ?_ | refine resetFab_kept ?_ | refine resetSpineRings_kept ?_
    | refine resetAnneal_kept ?_ | refine resetCbs_kept ?_ | refine resetSeal_kept ?_ | refine resetFollower_kept ?_
    | split

theorem State.unmeasure_kept {u : Nat} (h : Kept z s) :
    Kept z (State.unmeasure s u) := by
  unfold State.unmeasure
  with_reducible repeat' first
    | assumption | refine fset_kept ?_

theorem State.resetMonitor_kept {u : Nat} {off : Bool} (h : Kept z s) :
    Kept z (State.resetMonitor s u off) := by
  unfold State.resetMonitor
  with_reducible repeat' first
    | assumption | refine wr_kept ?_ | refine unmeasure_kept ?_ | refine Kept.cond ?_ ?_ | refine Kept.upd ?_ rfl

theorem State.isolate_kept {q : Nat} (h : Kept z s) :
    Kept z (State.isolate s q) := by
  unfold State.isolate
  with_reducible repeat' first
    | assumption
    | (extract_lets +onlyGivenNames x; first | (have hx : Kept z x := (by unfold x; clear x; repeat' first | assumption | refine fput_kept ?_ | refine anlLinkLost_kept ?_ | refine unmeasure_kept ?_ | refine driveHold_kept ?_ | refine forUpTo_kept ?_ ?_ | refine cutTx_kept ?_ | refine ringIsolate_kept ?_ | refine masterDown_kept ?_ | refine dropQuadrant_kept ?_ | refine Kept.cond ?_ ?_ | (intro _ _; intros; beta_reduce)); clear_value x) | clear_value x)
    | refine fput_kept ?_ | refine anlLinkLost_kept ?_ | refine unmeasure_kept ?_ | refine driveHold_kept ?_
    | refine forUpTo_kept ?_ ?_ | refine cutTx_kept ?_ | refine ringIsolate_kept ?_ | refine masterDown_kept ?_
    | refine dropQuadrant_kept ?_ | refine Kept.cond ?_ ?_ | (intro _ _; intros; beta_reduce)

theorem State.endIsolation_kept {q : Nat} (h : Kept z s) :
    Kept z (State.endIsolation s q) := by
  unfold State.endIsolation
  with_reducible repeat' first
    | assumption
    | (extract_lets +onlyGivenNames x; first | (have hx : Kept z x := (by unfold x; clear x; repeat' first | assumption | refine fput_kept ?_ | refine eachOf_kept ?_ ?_ | refine fset_kept ?_ | refine setRing_kept ?_ | refine forUpTo_kept ?_ ?_ | refine ptpLink_kept ?_ | refine wantReacq_kept ?_ | refine driveHold_kept ?_ | (intro _ _; intros; beta_reduce)); clear_value x) | clear_value x)
    | refine fput_kept ?_ | refine eachOf_kept ?_ ?_ | refine fset_kept ?_ | refine setRing_kept ?_
    | refine forUpTo_kept ?_ ?_ | refine ptpLink_kept ?_ | refine wantReacq_kept ?_ | refine driveHold_kept ?_
    | (intro _ _; intros; beta_reduce)

theorem State.aliveLow_kept (h : Kept z s) :
    Kept z (State.aliveLow s) := by
  unfold State.aliveLow
  with_reducible repeat' first
    | assumption | refine pin_kept ?_ | refine fset_kept ?_

theorem State.safeState_kept (h : Kept z s) :
    Kept z (State.safeState s) := by
  unfold State.safeState
  with_reducible repeat' first
    | assumption
    | (extract_lets +onlyGivenNames x; first | (have hx : Kept z x := (by unfold x; clear x; repeat' first | assumption | refine aliveLow_kept ?_ | refine fset_kept ?_ | refine brzEvent_kept ?_ | refine forUpTo_kept ?_ ?_ | refine isolate_kept ?_ | refine fput_kept ?_ | refine when_kept ?_ ?_ | refine goOff_kept ?_ | refine driveFault_kept ?_ | refine trigger_kept ?_ | refine Kept.cond ?_ ?_ | (intro _ _; intros; beta_reduce)); clear_value x) | clear_value x)
    | refine aliveLow_kept ?_ | refine fset_kept ?_ | refine brzEvent_kept ?_ | refine forUpTo_kept ?_ ?_
    | refine isolate_kept ?_ | refine fput_kept ?_ | refine when_kept ?_ ?_ | refine goOff_kept ?_
    | refine driveFault_kept ?_ | refine trigger_kept ?_ | refine Kept.cond ?_ ?_ | (intro _ _; intros; beta_reduce)

theorem State.reactUnit_kept {u n : Nat} (h : Kept z s) :
    Kept z (State.reactUnit s u n) := by
  unfold State.reactUnit
  with_reducible repeat' first
    | assumption
    | (extract_lets +onlyGivenNames x; first | (have hx : Kept z x := (by unfold x; clear x; repeat' first | assumption | refine brzEvent_kept ?_ | refine fput_kept ?_ | refine isolate_kept ?_ | refine resetUnit_kept ?_ | refine driveFault_kept ?_ | refine when_kept ?_ ?_ | refine safeState_kept ?_ | refine Kept.cond ?_ ?_ | (intro _ _; intros; beta_reduce)); clear_value x) | clear_value x)
    | refine brzEvent_kept ?_ | refine fput_kept ?_ | refine isolate_kept ?_ | refine resetUnit_kept ?_
    | refine driveFault_kept ?_ | refine when_kept ?_ ?_ | refine safeState_kept ?_ | refine Kept.cond ?_ ?_
    | (intro _ _; intros; beta_reduce)

theorem State.react_kept {n : Nat} (h : Kept z s) :
    Kept z (State.react s n) := by
  unfold State.react
  with_reducible repeat' first
    | assumption | refine safeState_kept ?_ | refine reactUnit_kept ?_ | refine Kept.cond ?_ ?_ | dsimp only

theorem State.includeUnit_kept {u : Nat} (h : Kept z s) :
    Kept z (State.includeUnit s u) := by
  unfold State.includeUnit
  with_reducible repeat' first
    | assumption | refine resetUnit_kept ?_ | refine fput_kept ?_ | refine Kept.cond ?_ ?_

theorem State.reactAll_kept {ns : List Nat} (h : Kept z s) :
    Kept z (State.reactAll s ns) := by
  unfold State.reactAll
  with_reducible repeat' first
    | assumption | refine safeState_kept ?_ | refine eachOf_kept ?_ ?_ | refine includeUnit_kept ?_
    | refine forUpTo_kept ?_ ?_ | refine react_kept ?_ | refine Kept.cond ?_ ?_ | (intro _ _; intros; beta_reduce)

theorem State.report_kept {rs : List (Nat × Nat)} (h : Kept z s) :
    Kept z (State.report s rs) := by
  unfold State.report
  with_reducible repeat' first
    | assumption | refine reactAll_kept ?_ | refine latch_kept ?_ | dsimp only

theorem State.reportReads_kept (h : Kept z s) :
    Kept z (State.reportReads s) := by
  unfold State.reportReads
  with_reducible repeat' first
    | assumption | refine report_kept ?_ | refine Kept.cond ?_ ?_ | refine Kept.upd ?_ rfl

theorem State.hiddenPass_kept {src cause n : Nat} (h : Kept z s) :
    Kept z (State.hiddenPass s src cause n) := by
  unfold State.hiddenPass
  with_reducible repeat' first
    | assumption | refine reportReads_kept ?_ | refine hiddenWritten_kept ?_ | refine hiddenRead_kept ?_

theorem State.hostLost_kept {h1 : Nat} (h : Kept z s) :
    Kept z (State.hostLost s h1) := by
  unfold State.hostLost
  with_reducible repeat' first
    | assumption | refine eachOf_kept ?_ ?_ | refine setRing_kept ?_ | refine ringLinkLost_kept ?_
    | refine masterDown_kept ?_ | refine corrected_kept ?_ | refine brzEvent_kept ?_ | refine Kept.cond ?_ ?_
    | refine Kept.upd ?_ rfl | (intro _ _; intros; beta_reduce) | dsimp only

theorem State.resetHost_kept {h1 : Nat} (h : Kept z s) :
    Kept z (State.resetHost s h1) := by
  unfold State.resetHost
  with_reducible repeat' first
    | assumption | refine Kept.dropMsix ?_ | refine masterDown_kept ?_ | refine Kept.upd ?_ rfl | dsimp only

theorem State.codeLost_kept {off : Bool} (h : Kept z s) : Kept z (State.codeLost s off) := by
  unfold State.codeLost
  exact Kept.cond (Kept.codeNone h) h

theorem State.resetBlocks_kept {n : Nat} {off spare : Bool} (h : Kept z s) :
    Kept z (State.resetBlocks s n off spare) := by
  unfold State.resetBlocks
  with_reducible repeat' first
    | assumption
    | (extract_lets +onlyGivenNames x; first | (have hx : Kept z x := (by unfold x; clear x; repeat' first | assumption | refine resetFollower_kept ?_ | refine resetMonitor_kept ?_ | refine resetBase_kept ?_ | refine resetDup_kept ?_ | refine resetRings_kept ?_ | refine resetNit_kept ?_ | refine resetGrf_kept ?_ | refine resetBank_kept ?_ | refine resetHost_kept ?_ | refine when_kept ?_ ?_ | refine hostLost_kept ?_ | refine resetMatrix_kept ?_ | refine resetSpineRings_kept ?_ | refine resetScb_kept ?_ | refine resetFab_kept ?_ | refine codeLost_kept ?_ | refine resetAnneal_kept ?_ | refine resetSeal_kept ?_ | refine resetCbs_kept ?_ | refine Kept.cond ?_ ?_ | split | (intro _ _; intros; beta_reduce)); clear_value x) | clear_value x)
    | refine resetFollower_kept ?_ | refine resetMonitor_kept ?_ | refine resetBase_kept ?_
    | refine resetDup_kept ?_ | refine resetRings_kept ?_ | refine resetNit_kept ?_ | refine resetGrf_kept ?_
    | refine resetBank_kept ?_ | refine resetHost_kept ?_ | refine when_kept ?_ ?_ | refine hostLost_kept ?_
    | refine resetMatrix_kept ?_ | refine resetSpineRings_kept ?_ | refine resetScb_kept ?_
    | refine resetFab_kept ?_ | refine codeLost_kept ?_ | refine resetAnneal_kept ?_ | refine resetSeal_kept ?_
    | refine resetCbs_kept ?_ | refine Kept.cond ?_ ?_ | split | (intro _ _; intros; beta_reduce)

theorem State.resetDomain_kept {n : Nat} {off spare : Bool} (h : Kept z s) :
    Kept z (State.resetDomain s n off spare) := by
  unfold State.resetDomain
  with_reducible repeat' first
    | assumption | refine resetBlocks_kept ?_ | refine resetHidden_kept ?_

end Sys2Proof.Machine
end

