-- ==== Sys2Proof/Laws/KeptFrames.lean ====
section
/-! SUPPORT. What the operations of ClsOps, DupOps, Receive, Time, Servo, Ptp, Mac keep: the queue, and a sound state. -/

set_option Elab.async false

namespace Sys2Proof.Machine

variable {z s : State}

theorem State.clsEcc_kept {q da vid : Nat} {bad : List Nat} (h : Kept z s) :
    Kept z (State.clsEcc s q da vid bad) := by
  unfold State.clsEcc
  with_reducible repeat' first
    | assumption | refine eachOf_kept ?_ ?_ | refine when_kept ?_ ?_ | refine touch_kept ?_ | refine cntF_kept ?_
    | (intro _ _; intros; beta_reduce)

theorem State.classify_kept {p : Nat} {l : List Byte} {bad : List Nat} (h : Kept z s) :
    Kept z (State.classify s p l bad).2 := by
  unfold State.classify
  with_reducible repeat' first
    | assumption
    | (extract_lets +onlyGivenNames x; first | (have hx : Kept z x := (by unfold x; clear x; repeat' first | assumption | refine clsEcc_kept ?_ | refine clsCount_kept ?_ | refine Kept.cond ?_ ?_ | refine Kept.condSnd ?_ ?_ | split | dsimp only); clear_value x) | (have hx : Kept z x.2 := (by unfold x; clear x; repeat' first | assumption | refine clsEcc_kept ?_ | refine clsCount_kept ?_ | refine Kept.cond ?_ ?_ | refine Kept.condSnd ?_ ?_ | split | dsimp only); clear_value x) | clear_value x)
    | refine clsEcc_kept ?_ | refine clsCount_kept ?_ | refine Kept.cond ?_ ?_ | refine Kept.condSnd ?_ ?_ | split
    | dsimp only

theorem State.blockStream_kept {q i : Nat} (h : Kept z s) :
    Kept z (State.blockStream s q i) := by
  unfold State.blockStream
  with_reducible repeat' first
    | assumption | refine fromQuad_kept ?_ ?_ | refine entryWritten_kept ?_ | refine fset_kept ?_
    | refine notice_kept ?_ | refine brzEvent_kept ?_ | (intro _ _; intros; beta_reduce)

theorem State.setMeter_kept {q fg : Nat} {m : Meter} (h : Kept z s) :
    Kept z (State.setMeter s q fg m) := by
  unfold State.setMeter
  with_reducible repeat' first
    | assumption | refine Kept.upd ?_ rfl

theorem State.countRed_kept {q fg : Nat} (h : Kept z s) :
    Kept z (State.countRed s q fg) := by
  unfold State.countRed
  with_reducible repeat' first
    | assumption | refine when_kept ?_ ?_ | refine setMeter_kept ?_ | refine halfRange_kept ?_
    | (intro _ _; intros; beta_reduce) | dsimp only

theorem State.police_kept {p fg len : Nat} {yellow bad : Bool} (h : Kept z s) :
    Kept z (State.police s p fg len yellow bad).2 := by
  unfold State.police
  with_reducible repeat' first
    | assumption
    | (extract_lets +onlyGivenNames x; first | (have hx : Kept z x := (by unfold x; clear x; repeat' first | assumption | refine touch_kept ?_ | refine cntF_kept ?_ | refine hiddenWritten_kept ?_ | refine hiddenRead_kept ?_ | refine clsCount_kept ?_ | refine setMeter_kept ?_ | refine when_kept ?_ ?_ | refine countRed_kept ?_ | refine Kept.cond ?_ ?_ | refine Kept.condSnd ?_ ?_ | (intro _ _; intros; beta_reduce) | dsimp only); clear_value x) | (have hx : Kept z x.2 := (by unfold x; clear x; repeat' first | assumption | refine touch_kept ?_ | refine cntF_kept ?_ | refine hiddenWritten_kept ?_ | refine hiddenRead_kept ?_ | refine clsCount_kept ?_ | refine setMeter_kept ?_ | refine when_kept ?_ ?_ | refine countRed_kept ?_ | refine Kept.cond ?_ ?_ | refine Kept.condSnd ?_ ?_ | (intro _ _; intros; beta_reduce) | dsimp only); clear_value x) | clear_value x)
    | refine touch_kept ?_ | refine cntF_kept ?_ | refine hiddenWritten_kept ?_ | refine hiddenRead_kept ?_
    | refine clsCount_kept ?_ | refine setMeter_kept ?_ | refine when_kept ?_ ?_ | refine countRed_kept ?_
    | refine Kept.cond ?_ ?_ | refine Kept.condSnd ?_ ?_ | (intro _ _; intros; beta_reduce) | dsimp only

theorem State.writeMeter_kept {q i j v : Nat} (h : Kept z s) :
    Kept z (State.writeMeter s q i j v) := by
  unfold State.writeMeter
  with_reducible repeat' first
    | assumption
    | (extract_lets +onlyGivenNames x; first | (have hx : Kept z x := (by unfold x; clear x; repeat' first | assumption | refine wr_kept ?_ | refine setMeter_kept ?_ | refine Kept.cond ?_ ?_); clear_value x) | clear_value x)
    | refine wr_kept ?_ | refine setMeter_kept ?_ | refine Kept.cond ?_ ?_

theorem State.writeStream_kept {q i j v : Nat} (h : Kept z s) :
    Kept z (State.writeStream s q i j v) := by
  unfold State.writeStream
  with_reducible repeat' first
    | assumption | refine wr_kept ?_

theorem State.clsEntryWrite_kept {q i : Nat} {meter : Bool} (h : Kept z s) :
    Kept z (State.clsEntryWrite s q i meter) := by
  unfold State.clsEntryWrite
  with_reducible repeat' first
    | assumption | refine eachOf_kept ?_ ?_ | refine memWritten_kept ?_ | refine writeMeter_kept ?_
    | refine writeStream_kept ?_ | refine Kept.cond ?_ ?_ | (intro _ _; intros; beta_reduce) | dsimp only

theorem State.clsEntryRead_kept {q i : Nat} {meter : Bool} (h : Kept z s) :
    Kept z (State.clsEntryRead s q i meter) := by
  unfold State.clsEntryRead
  with_reducible repeat' first
    | assumption | refine eachOf_kept ?_ ?_ | refine tableRead_kept ?_ | refine wr_kept ?_
    | (intro _ _; intros; beta_reduce) | dsimp only

theorem State.putWindow_kept {q i : Nat} {prp : Bool} {w : Window} (h : Kept z s) :
    Kept z (State.putWindow s q i prp w) := by
  unfold State.putWindow
  with_reducible repeat' first
    | assumption | refine wr_kept ?_

theorem State.learnSource_kept {q sa kl i : Nat} {prp : Bool} {w : Window} (h : Kept z s) :
    Kept z (State.learnSource s q sa kl i prp w) := by
  unfold State.learnSource
  with_reducible repeat' first
    | assumption | refine putWindow_kept ?_ | refine wr_kept ?_

theorem State.sourceWritten_kept {q i : Nat} (h : Kept z s) :
    Kept z (State.sourceWritten s q i) := by
  unfold State.sourceWritten
  with_reducible repeat' first
    | assumption | refine entryWritten_kept ?_

theorem State.sourceLost_kept {q i : Nat} (h : Kept z s) :
    Kept z (State.sourceLost s q i) := by
  unfold State.sourceLost
  with_reducible repeat' first
    | assumption | refine fromQuad_kept ?_ ?_ | refine cntF_kept ?_ | refine sourceWritten_kept ?_
    | refine fset_kept ?_ | refine brzEvent_kept ?_ | (intro _ _; intros; beta_reduce)

theorem State.lookup_kept {k sa seq x : Nat} {want : Bool} {bad : Option Nat} (h : Kept z s) :
    Kept z (State.lookup s k sa seq x want bad).2 := by
  unfold State.lookup
  with_reducible repeat' first
    | assumption | exact Kept.upd (by assumption) rfl
    | (extract_lets +onlyGivenNames x; first | (have hx : Kept z x := (by unfold x; clear x; repeat' first | assumption | exact Kept.upd (by assumption) rfl | refine eachOf_kept ?_ ?_ | refine touch_kept ?_ | refine pairCount_kept ?_ | refine sourceLost_kept ?_ | refine sourceWritten_kept ?_ | refine putWindow_kept ?_ | refine fset_kept ?_ | refine fput_kept ?_ | refine when_kept ?_ ?_ | refine dupCount_kept ?_ | refine learnSource_kept ?_ | refine Kept.cond ?_ ?_ | refine Kept.condSnd ?_ ?_ | split | refine Kept.upd ?_ rfl | (intro _ _; intros; beta_reduce) | dsimp only); clear_value x) | (have hx : Kept z x.2 := (by unfold x; clear x; repeat' first | assumption | exact Kept.upd (by assumption) rfl | refine eachOf_kept ?_ ?_ | refine touch_kept ?_ | refine pairCount_kept ?_ | refine sourceLost_kept ?_ | refine sourceWritten_kept ?_ | refine putWindow_kept ?_ | refine fset_kept ?_ | refine fput_kept ?_ | refine when_kept ?_ ?_ | refine dupCount_kept ?_ | refine learnSource_kept ?_ | refine Kept.cond ?_ ?_ | refine Kept.condSnd ?_ ?_ | split | refine Kept.upd ?_ rfl | (intro _ _; intros; beta_reduce) | dsimp only); clear_value x) | clear_value x)
    | refine eachOf_kept ?_ ?_ | refine touch_kept ?_ | refine pairCount_kept ?_ | refine sourceLost_kept ?_
    | refine sourceWritten_kept ?_ | refine putWindow_kept ?_ | refine fset_kept ?_ | refine fput_kept ?_
    | refine when_kept ?_ ?_ | refine dupCount_kept ?_ | refine learnSource_kept ?_ | refine Kept.cond ?_ ?_
    | refine Kept.condSnd ?_ ?_ | split | refine Kept.upd ?_ rfl | (intro _ _; intros; beta_reduce) | dsimp only

theorem State.ageEntry_kept {q i : Nat} (h : Kept z s) :
    Kept z (State.ageEntry s q i) := by
  unfold State.ageEntry
  with_reducible repeat' first
    | assumption | refine fput_kept ?_ | refine dupCount_kept ?_ | refine fset_kept ?_ | refine Kept.cond ?_ ?_
    | dsimp only

theorem State.frerCount_kept {q f n k : Nat} (h : Kept z s) :
    Kept z (State.frerCount s q f n k) := by
  unfold State.frerCount
  with_reducible repeat' first
    | assumption | refine wr_kept ?_ | refine when_kept ?_ ?_ | refine halfRange_kept ?_
    | (intro _ _; intros; beta_reduce) | dsimp only

theorem State.frerWritten_kept {q f : Nat} (h : Kept z s) :
    Kept z (State.frerWritten s q f) := by
  unfold State.frerWritten
  with_reducible repeat' first
    | assumption | refine entryWritten_kept ?_

theorem State.frerPass_kept {q f : Nat} (h : Kept z s) :
    Kept z (State.frerPass s q f) := by
  unfold State.frerPass
  with_reducible repeat' first
    | assumption | refine frerCount_kept ?_ | refine Kept.upd ?_ rfl | dsimp only

theorem State.frerHist_kept {q f hist : Nat} (h : Kept z s) :
    Kept z (State.frerHist s q f hist) := by
  unfold State.frerHist
  with_reducible repeat' first
    | assumption | refine wr_kept ?_

theorem State.recover_kept {q f : Nat} {seq : Option Nat} (h : Kept z s) :
    Kept z (State.recover s q f seq).2 := by
  unfold State.recover
  with_reducible repeat' first
    | assumption
    | (extract_lets +onlyGivenNames x; first | (have hx : Kept z x := (by unfold x; clear x; repeat' first | assumption | refine frerCount_kept ?_ | refine when_kept ?_ ?_ | refine frerPass_kept ?_ | refine frerWritten_kept ?_ | refine frerHist_kept ?_ | refine fset_kept ?_ | refine fput_kept ?_ | refine Kept.cond ?_ ?_ | refine Kept.condSnd ?_ ?_ | split | (intro _ _; intros; beta_reduce) | dsimp only); clear_value x) | (have hx : Kept z x.2 := (by unfold x; clear x; repeat' first | assumption | refine frerCount_kept ?_ | refine when_kept ?_ ?_ | refine frerPass_kept ?_ | refine frerWritten_kept ?_ | refine frerHist_kept ?_ | refine fset_kept ?_ | refine fput_kept ?_ | refine Kept.cond ?_ ?_ | refine Kept.condSnd ?_ ?_ | split | (intro _ _; intros; beta_reduce) | dsimp only); clear_value x) | clear_value x)
    | refine frerCount_kept ?_ | refine when_kept ?_ ?_ | refine frerPass_kept ?_ | refine frerWritten_kept ?_
    | refine frerHist_kept ?_ | refine fset_kept ?_ | refine fput_kept ?_ | refine Kept.cond ?_ ?_
    | refine Kept.condSnd ?_ ?_ | split | (intro _ _; intros; beta_reduce) | dsimp only

theorem State.frerLost_kept {q f : Nat} (h : Kept z s) :
    Kept z (State.frerLost s q f) := by
  unfold State.frerLost
  with_reducible repeat' first
    | assumption | refine frerPass_kept ?_ | refine frerWritten_kept ?_ | refine fset_kept ?_

theorem State.frerSweepOne_kept {q f : Nat} (h : Kept z s) :
    Kept z (State.frerSweepOne s q f) := by
  unfold State.frerSweepOne
  with_reducible repeat' first
    | assumption | refine frerCount_kept ?_ | refine fset_kept ?_ | refine Kept.cond ?_ ?_ | refine Kept.upd ?_ rfl

theorem State.writeFrer_kept {q f j v : Nat} (h : Kept z s) :
    Kept z (State.writeFrer s q f j v) := by
  unfold State.writeFrer
  with_reducible repeat' first
    | assumption | refine wr_kept ?_ | refine Kept.cond ?_ ?_ | refine Kept.upd ?_ rfl | dsimp only

theorem State.writeSource_kept {q i j v : Nat} (h : Kept z s) :
    Kept z (State.writeSource s q i j v) := by
  unfold State.writeSource
  with_reducible repeat' first
    | assumption | refine wr_kept ?_ | refine Kept.cond ?_ ?_

theorem State.dupEntryWrite_kept {q i : Nat} {frer : Bool} (h : Kept z s) :
    Kept z (State.dupEntryWrite s q i frer) := by
  unfold State.dupEntryWrite
  with_reducible repeat' first
    | assumption | refine eachOf_kept ?_ ?_ | refine memWritten_kept ?_ | refine writeFrer_kept ?_
    | refine writeSource_kept ?_ | refine Kept.cond ?_ ?_ | (intro _ _; intros; beta_reduce) | dsimp only

theorem State.dupEntryRead_kept {q i : Nat} {frer : Bool} (h : Kept z s) :
    Kept z (State.dupEntryRead s q i frer) := by
  unfold State.dupEntryRead
  with_reducible repeat' first
    | assumption | refine eachOf_kept ?_ ?_ | refine tableRead_kept ?_ | refine wr_kept ?_
    | (intro _ _; intros; beta_reduce) | dsimp only

theorem State.onCopy_kept {x id : Nat} {g : TxFrame → TxFrame} (h : Kept z s) :
    Kept z (State.onCopy s x id g) := by
  unfold State.onCopy
  with_reducible repeat' first
    | assumption | refine setMac_kept ?_ | refine Kept.cond ?_ ?_ | dsimp only

theorem State.copyGone_kept {x id : Nat} (h : Kept z s) :
    Kept z (State.copyGone s x id) := by
  unfold State.copyGone
  with_reducible repeat' first
    | assumption | refine refresh_kept ?_ | refine setMac_kept ?_ | dsimp only

theorem State.offerCopy_kept {p cls stamp : Nat} {l : List Byte} {arriving : Bool} (h : Kept z s) :
    Kept z (State.offerCopy s p cls stamp l arriving) := by
  unfold State.offerCopy
  with_reducible repeat' first
    | assumption | refine sendTo_kept ?_

theorem State.stompCopy_kept {x id : Nat} {l : List Byte} (h : Kept z s) :
    Kept z (State.stompCopy s x id l) := by
  unfold State.stompCopy
  with_reducible repeat' first
    | assumption | refine onCopy_kept ?_ | refine copyGone_kept ?_ | refine Kept.cond ?_ ?_

theorem State.takeTrip_kept {p u : Nat} {l : List Byte} (h : Kept z s) :
    Kept z (State.takeTrip s p u l) := by
  unfold State.takeTrip
  with_reducible repeat' first
    | assumption | exact Kept.upd (by assumption) rfl
    | (extract_lets +onlyGivenNames x; first | (have hx : Kept z x := (by unfold x; clear x; repeat' first | assumption | exact Kept.upd (by assumption) rfl | refine dupCount_kept ?_ | refine Kept.cond ?_ ?_ | refine Kept.upd ?_ rfl); clear_value x) | clear_value x)
    | refine dupCount_kept ?_ | refine Kept.cond ?_ ?_ | refine Kept.upd ?_ rfl

theorem State.setRx_kept {p : Nat} {pre : Bool} {r : Option RxProg} (h : Kept z s) :
    Kept z (State.setRx s p pre r) := by
  unfold State.setRx
  with_reducible repeat' first
    | assumption | refine setMac_kept ?_ | refine Kept.cond ?_ ?_

theorem State.storeTake_kept {p n : Nat} (h : Kept z s) :
    Kept z (State.storeTake s p n) := by
  unfold State.storeTake
  with_reducible repeat' first
    | assumption | refine Kept.upd ?_ rfl

theorem State.rxBegin_kept {p : Nat} {pre : Bool} {head : List Byte} {stamp : Nat} {x : RxFlaws} (h : Kept z s) :
    Kept z (State.rxBegin s p pre head stamp x) := by
  unfold State.rxBegin
  with_reducible repeat' first
    | assumption
    | (extract_lets +onlyGivenNames x; first | (have hx : Kept z x := (by unfold x; clear x; repeat' first | assumption | refine classify_kept ?_ | refine when_kept ?_ ?_ | refine ringCount_kept ?_ | refine storeTake_kept ?_ | refine pairCount_kept ?_ | refine setRx_kept ?_ | refine offerCopy_kept ?_ | refine Kept.cond ?_ ?_ | refine Kept.condSnd ?_ ?_ | (intro _ _; intros; beta_reduce) | dsimp only); clear_value x) | (have hx : Kept z x.2 := (by unfold x; clear x; repeat' first | assumption | refine classify_kept ?_ | refine when_kept ?_ ?_ | refine ringCount_kept ?_ | refine storeTake_kept ?_ | refine pairCount_kept ?_ | refine setRx_kept ?_ | refine offerCopy_kept ?_ | refine Kept.cond ?_ ?_ | refine Kept.condSnd ?_ ?_ | (intro _ _; intros; beta_reduce) | dsimp only); clear_value x) | clear_value x)
    | refine classify_kept ?_ | refine when_kept ?_ ?_ | refine ringCount_kept ?_ | refine storeTake_kept ?_
    | refine pairCount_kept ?_ | refine setRx_kept ?_ | refine offerCopy_kept ?_ | refine Kept.cond ?_ ?_
    | refine Kept.condSnd ?_ ?_ | (intro _ _; intros; beta_reduce) | dsimp only

theorem State.rxLookup_kept {p : Nat} {pre whole : Bool} {l : List Byte} {bad : Option Nat} (h : Kept z s) :
    Kept z (State.rxLookup s p pre whole l bad) := by
  unfold State.rxLookup
  with_reducible repeat' first
    | assumption
    | (extract_lets +onlyGivenNames x; first | (have hx : Kept z x := (by unfold x; clear x; repeat' first | assumption | refine lookup_kept ?_ | refine when_kept ?_ ?_ | refine pairCount_kept ?_ | refine setRx_kept ?_ | refine offerCopy_kept ?_ | refine stompCopy_kept ?_ | refine Kept.cond ?_ ?_ | refine Kept.condSnd ?_ ?_ | split | (intro _ _; intros; beta_reduce) | dsimp only); clear_value x) | (have hx : Kept z x.2 := (by unfold x; clear x; repeat' first | assumption | refine lookup_kept ?_ | refine when_kept ?_ ?_ | refine pairCount_kept ?_ | refine setRx_kept ?_ | refine offerCopy_kept ?_ | refine stompCopy_kept ?_ | refine Kept.cond ?_ ?_ | refine Kept.condSnd ?_ ?_ | split | (intro _ _; intros; beta_reduce) | dsimp only); clear_value x) | clear_value x)
    | refine lookup_kept ?_ | refine when_kept ?_ ?_ | refine pairCount_kept ?_ | refine setRx_kept ?_
    | refine offerCopy_kept ?_ | refine stompCopy_kept ?_ | refine Kept.cond ?_ ?_ | refine Kept.condSnd ?_ ?_
    | split | (intro _ _; intros; beta_reduce) | dsimp only

theorem State.rxClose_kept {p : Nat} {pre : Bool} (h : Kept z s) :
    Kept z (State.rxClose s p pre) := by
  unfold State.rxClose
  with_reducible repeat' first
    | assumption | refine storeFree_kept ?_ | refine setRx_kept ?_ | split

theorem State.rxDrop_kept {p : Nat} {pre : Bool} {l : List Byte} (h : Kept z s) :
    Kept z (State.rxDrop s p pre l) := by
  unfold State.rxDrop
  with_reducible repeat' first
    | assumption | refine when_kept ?_ ?_ | refine rxClose_kept ?_ | refine stompCopy_kept ?_ | split
    | (intro _ _; intros; beta_reduce)

theorem State.rxAbandon_kept {p : Nat} {pre : Bool} (h : Kept z s) :
    Kept z (State.rxAbandon s p pre) := by
  unfold State.rxAbandon
  with_reducible repeat' first
    | assumption | refine rxDrop_kept ?_ | split

theorem State.rxDiscard_kept {e : RxEnd} {n : Nat} (h : Kept z s) :
    Kept z (State.rxDiscard s e n) := by
  unfold State.rxDiscard
  with_reducible repeat' first
    | assumption
    | (extract_lets +onlyGivenNames x; first | (have hx : Kept z x := (by unfold x; clear x; repeat' first | assumption | refine macCount_kept ?_ | refine when_kept ?_ ?_ | refine macEvent_kept ?_ | refine pairCount_kept ?_ | refine rxDrop_kept ?_ | (intro _ _; intros; beta_reduce)); clear_value x) | clear_value x)
    | refine macCount_kept ?_ | refine when_kept ?_ ?_ | refine macEvent_kept ?_ | refine pairCount_kept ?_
    | refine rxDrop_kept ?_ | (intro _ _; intros; beta_reduce)

theorem State.loadTimer_kept {p i v : Nat} (h : Kept z s) :
    Kept z (State.loadTimer s p i v) := by
  unfold State.loadTimer
  with_reducible repeat' first
    | assumption | refine setMac_kept ?_ | refine Kept.cond ?_ ?_ | dsimp only

theorem State.pauseFrame_kept {p v : Nat} (h : Kept z s) :
    Kept z (State.pauseFrame s p v) := by
  unfold State.pauseFrame
  with_reducible repeat' first
    | assumption | refine macCount_kept ?_ | refine showStopped_kept ?_ | refine loadTimer_kept ?_
    | refine Kept.cond ?_ ?_ | dsimp only

theorem State.pfcFrame_kept {p enable : Nat} {times : List Nat} (h : Kept z s) :
    Kept z (State.pfcFrame s p enable times) := by
  unfold State.pfcFrame
  with_reducible repeat' first
    | assumption | refine eachOf_kept ?_ ?_ | refine macCount_kept ?_ | refine showStopped_kept ?_
    | refine loadTimer_kept ?_ | refine Kept.cond ?_ ?_ | (intro _ _; intros; beta_reduce) | dsimp only

theorem State.controlFrame_kept {p : Nat} {l : List Byte} (h : Kept z s) :
    Kept z (State.controlFrame s p l) := by
  unfold State.controlFrame
  with_reducible repeat' first
    | assumption | refine macCount_kept ?_ | refine pauseFrame_kept ?_ | refine pfcFrame_kept ?_
    | refine Kept.cond ?_ ?_ | split

theorem State.fillBufs_kept {r : Nat} {l : List Byte} {y3 : List RingEntry} (h : Kept z s) :
    Kept z (State.fillBufs s r l y3) := by
  induction y3 generalizing r l s with
  | nil => exact h
  | cons e l ih =>
  rw [State.fillBufs]
  with_reducible repeat' first
    | assumption | refine ih ?_ | refine hostBus_kept ?_ | split

theorem State.place_kept {p r : Nat} {x : RxInfo} {l : List Byte} (h : Kept z s) :
    Kept z (State.place s p r x l) := by
  unfold State.place
  with_reducible repeat' first
    | assumption
    | (extract_lets +onlyGivenNames x; first | (have hx : Kept z x := (by unfold x; clear x; repeat' first | assumption | refine ringCount_kept ?_ | refine ringStarve_kept ?_ | refine fillBufs_kept ?_ | refine storeTake_kept ?_ | refine setRing_kept ?_ | refine Kept.cond ?_ ?_ | split); clear_value x) | clear_value x)
    | refine ringCount_kept ?_ | refine ringStarve_kept ?_ | refine fillBufs_kept ?_ | refine storeTake_kept ?_
    | refine setRing_kept ?_ | refine Kept.cond ?_ ?_ | split

theorem State.deliver_kept {p len : Nat} {x : RxInfo} {l : List Byte} (h : Kept z s) :
    Kept z (State.deliver s p len x l) := by
  unfold State.deliver
  with_reducible repeat' first
    | assumption | refine ringCount_kept ?_ | refine place_kept ?_ | refine Kept.cond ?_ ?_ | dsimp only

theorem State.frerStep_kept {p : Nat} {v : Verdict} {bad : Bool} {l : List Byte} (h : Kept z s) :
    Kept z (State.frerStep s p v bad l).2 := by
  unfold State.frerStep
  with_reducible repeat' first
    | assumption
    | (extract_lets +onlyGivenNames x; first | (have hx : Kept z x := (by unfold x; clear x; repeat' first | assumption | refine touch_kept ?_ | refine frerLost_kept ?_ | refine recover_kept ?_ | refine Kept.cond ?_ ?_ | refine Kept.condSnd ?_ ?_ | dsimp only); clear_value x) | (have hx : Kept z x.2 := (by unfold x; clear x; repeat' first | assumption | refine touch_kept ?_ | refine frerLost_kept ?_ | refine recover_kept ?_ | refine Kept.cond ?_ ?_ | refine Kept.condSnd ?_ ?_ | dsimp only); clear_value x) | clear_value x)
    | refine touch_kept ?_ | refine frerLost_kept ?_ | refine recover_kept ?_ | refine Kept.cond ?_ ?_
    | refine Kept.condSnd ?_ ?_ | dsimp only

theorem State.ptpFrame_kept {p len : Nat} {x : RxInfo} {l : List Byte} (h : Kept z s) :
    Kept z (State.ptpFrame s p len x l) := by
  unfold State.ptpFrame
  with_reducible repeat' first
    | assumption
    | (extract_lets +onlyGivenNames x; first | (have hx : Kept z x := (by unfold x; clear x; repeat' first | assumption | refine when_kept ?_ ?_ | refine fromQuad_kept ?_ ?_ | refine ptpCount_kept ?_ | refine deliver_kept ?_ | (intro _ _; intros; beta_reduce)); clear_value x) | clear_value x)
    | refine when_kept ?_ ?_ | refine fromQuad_kept ?_ ?_ | refine ptpCount_kept ?_ | refine deliver_kept ?_
    | (intro _ _; intros; beta_reduce)

theorem State.filtered_kept {p da len : Nat} {v : Verdict} {t : State} (h : Kept z s)
    (ht : s.filtered p da len v = some t) : Kept z t := by
  unfold State.filtered at ht
  simp only [Bool.cond_eq_ite] at ht
  split_ifs at ht
  · exact Option.some.inj ht ▸ State.clsCount_kept h
  · exact Option.some.inj ht ▸ State.clsCount_kept h
  · exact Option.some.inj ht ▸ State.clsCount_kept h
  · exact Option.some.inj ht ▸ State.when_kept (State.clsCount_kept h) fun t ht => State.blockStream_kept ht

theorem State.localCopy_kept {e : RxEnd} {r : RxProg} (h : Kept z s) :
    Kept z (State.localCopy s e r) := by
  unfold State.localCopy
  extract_lets +onlyGivenNames p l len v ety info
  with_reducible refine Kept.cond h ?_
  with_reducible refine Kept.cond (State.ptpFrame_kept h) ?_
  with_reducible refine Kept.cond (State.deliver_kept h) ?_
  split
  · exact State.filtered_kept h ‹_›
  · extract_lets +onlyGivenNames dei m
    have hm : Kept z m.2 := by
      with_reducible refine Kept.condSnd ?_ h
      exact State.police_kept h
    clear_value m
    with_reducible refine Kept.cond hm ?_
    extract_lets +onlyGivenNames f
    have hf : Kept z f.2 := State.frerStep_kept hm
    clear_value f
    with_reducible refine Kept.cond hf ?_
    with_reducible refine Kept.cond ?_ ?_
    · exact State.takeTrip_kept hf
    · exact State.deliver_kept hf

theorem State.endCopy_kept {e : RxEnd} {r : RxProg} (h : Kept z s) :
    Kept z (State.endCopy s e r) := by
  unfold State.endCopy
  with_reducible repeat' first
    | assumption
    | (extract_lets +onlyGivenNames x; first | (have hx : Kept z x := (by unfold x; clear x; repeat' first | assumption | refine refresh_kept ?_ | refine onCopy_kept ?_ | refine when_kept ?_ ?_ | refine offerCopy_kept ?_ | refine Kept.cond ?_ ?_ | (intro _ _; intros; beta_reduce)); clear_value x) | clear_value x)
    | refine refresh_kept ?_ | refine onCopy_kept ?_ | refine when_kept ?_ ?_ | refine offerCopy_kept ?_
    | refine Kept.cond ?_ ?_ | (intro _ _; intros; beta_reduce)

theorem State.countTag_kept {p len : Nat} {l : List Byte} (h : Kept z s) :
    Kept z (State.countTag s p len l) := by
  unfold State.countTag
  with_reducible repeat' first
    | assumption | refine when_kept ?_ ?_ | refine pairCount_kept ?_ | refine Kept.cond ?_ ?_
    | (intro _ _; intros; beta_reduce) | dsimp only

theorem State.rxGood_kept {e : RxEnd} (h : Kept z s) :
    Kept z (State.rxGood s e) := by
  unfold State.rxGood
  with_reducible repeat' first
    | assumption
    | (extract_lets +onlyGivenNames x; first | (have hx : Kept z x := (by unfold x; clear x; repeat' first | assumption | refine countGood_kept ?_ | refine rxBegin_kept ?_ | refine rxDrop_kept ?_ | refine pairCount_kept ?_ | refine countTag_kept ?_ | refine when_kept ?_ ?_ | refine rxLookup_kept ?_ | refine rxClose_kept ?_ | refine endCopy_kept ?_ | refine localCopy_kept ?_ | refine Kept.cond ?_ ?_ | split | (intro _ _; intros; beta_reduce)); clear_value x) | clear_value x)
    | refine countGood_kept ?_ | refine rxBegin_kept ?_ | refine rxDrop_kept ?_ | refine pairCount_kept ?_
    | refine countTag_kept ?_ | refine when_kept ?_ ?_ | refine rxLookup_kept ?_ | refine rxClose_kept ?_
    | refine endCopy_kept ?_ | refine localCopy_kept ?_ | refine Kept.cond ?_ ?_ | split
    | (intro _ _; intros; beta_reduce)

theorem State.rxEnd_kept {e : RxEnd} (h : Kept z s) :
    Kept z (State.rxEnd s e) := by
  unfold State.rxEnd
  with_reducible repeat' first
    | assumption
    | (extract_lets +onlyGivenNames x; first | (have hx : Kept z x := (by unfold x; clear x; repeat' first | assumption | refine macCount_kept ?_ | refine rxDrop_kept ?_ | refine rxDiscard_kept ?_ | refine setRx_kept ?_ | refine controlFrame_kept ?_ | refine rxGood_kept ?_ | refine Kept.cond ?_ ?_ | split); clear_value x) | clear_value x)
    | refine macCount_kept ?_ | refine rxDrop_kept ?_ | refine rxDiscard_kept ?_ | refine setRx_kept ?_
    | refine controlFrame_kept ?_ | refine rxGood_kept ?_ | refine Kept.cond ?_ ?_ | split

theorem State.setHist_kept {l : List Int} (h : Kept z s) :
    Kept z (State.setHist s l) := by
  unfold State.setHist
  with_reducible repeat' first
    | assumption | refine fput_kept ?_ | refine onInv_kept ?_ | refine useFree_kept ?_ | dsimp only

theorem State.histPush_kept (h : Kept z s) :
    Kept z (State.histPush s) := by
  unfold State.histPush
  with_reducible repeat' first
    | assumption
    | (extract_lets +onlyGivenNames x; first | (have hx : Kept z x := (by unfold x; clear x; repeat' first | assumption | refine sumUp_kept ?_ | refine setHist_kept ?_ | refine useFree_kept ?_ | refine onInv_kept ?_ | refine Kept.cond ?_ ?_); clear_value x) | clear_value x)
    | refine sumUp_kept ?_ | refine setHist_kept ?_ | refine useFree_kept ?_ | refine onInv_kept ?_
    | refine Kept.cond ?_ ?_

theorem State.setSlew_kept {m : Int} (h : Kept z s) :
    Kept z (State.setSlew s m) := by
  unfold State.setSlew
  with_reducible repeat' first
    | assumption | refine fset_kept ?_ | refine rateBy_kept ?_

theorem State.setTrain_kept {n : Nat} {x : Train} (h : Kept z s) :
    Kept z (State.setTrain s n x) := by
  unfold State.setTrain
  with_reducible repeat' first
    | assumption | refine onInv_kept ?_

theorem State.drivePulse_kept {n : Nat} {active : Bool} (h : Kept z s) :
    Kept z (State.drivePulse s n active) := by
  unfold State.drivePulse
  with_reducible repeat' first
    | assumption | refine pin_kept ?_

theorem State.pulseEnd_kept {n : Nat} (h : Kept z s) :
    Kept z (State.pulseEnd s n) := by
  unfold State.pulseEnd
  with_reducible repeat' first
    | assumption | refine setTrain_kept ?_ | refine drivePulse_kept ?_ | refine fset_kept ?_

theorem State.pulseEnable_kept {n : Nat} (h : Kept z s) :
    Kept z (State.pulseEnable s n) := by
  unfold State.pulseEnable
  with_reducible repeat' first
    | assumption
    | (extract_lets +onlyGivenNames x; first | (have hx : Kept z x := (by unfold x; clear x; repeat' first | assumption | refine fset_kept ?_ | refine setTrain_kept ?_ | refine drivePulse_kept ?_ | refine cntF_kept ?_ | refine notice_kept ?_ | refine brzEvent_kept ?_ | refine Kept.cond ?_ ?_); clear_value x) | clear_value x)
    | refine fset_kept ?_ | refine setTrain_kept ?_ | refine drivePulse_kept ?_ | refine cntF_kept ?_
    | refine notice_kept ?_ | refine brzEvent_kept ?_ | refine Kept.cond ?_ ?_

theorem State.pulseDisable_kept {n : Nat} (h : Kept z s) :
    Kept z (State.pulseDisable s n) := by
  unfold State.pulseDisable
  with_reducible repeat' first
    | assumption | refine setTrain_kept ?_ | refine pulseEnd_kept ?_ | refine Kept.cond ?_ ?_

theorem State.writePulse_kept {n w : Nat} (h : Kept z s) :
    Kept z (State.writePulse s n w) := by
  unfold State.writePulse
  with_reducible repeat' first
    | assumption | refine store_kept ?_ | refine pulseEnable_kept ?_ | refine pulseDisable_kept ?_
    | refine drivePulse_kept ?_ | refine Kept.cond ?_ ?_ | dsimp only

theorem State.pulseEdge_kept {n : Nat} (h : Kept z s) :
    Kept z (State.pulseEdge s n) := by
  unfold State.pulseEdge
  with_reducible repeat' first
    | assumption | refine setTrain_kept ?_ | refine drivePulse_kept ?_ | refine pulseEnd_kept ?_
    | refine Kept.cond ?_ ?_ | dsimp only

theorem State.pulseAlign_kept {n : Nat} (h : Kept z s) :
    Kept z (State.pulseAlign s n) := by
  unfold State.pulseAlign
  with_reducible repeat' first
    | assumption | refine pulseEnd_kept ?_ | refine setTrain_kept ?_ | refine drivePulse_kept ?_
    | refine Kept.cond ?_ ?_ | dsimp only

theorem State.rebase_kept {d : Int} (h : Kept z s) :
    Kept z (State.rebase s d) := by
  unfold State.rebase
  with_reducible repeat' first
    | assumption | refine Kept.upd ?_ rfl | dsimp only

theorem State.skipCommits_kept {k : Nat} (h : Kept z s) :
    Kept z (State.skipCommits s k) := by
  unfold State.skipCommits
  with_reducible repeat' first
    | assumption | refine when_kept ?_ ?_ | refine wr_kept ?_ | refine halfRange_kept ?_
    | (intro _ _; intros; beta_reduce) | dsimp only

theorem State.actArming_kept {n : Nat} (h : Kept z s) :
    Kept z (State.actArming s n) := by
  unfold State.actArming
  with_reducible repeat' first
    | assumption | refine actEdge_kept ?_ | refine onEdges_kept ?_ | refine closeGuard_kept ?_
    | refine reopenGuard_kept ?_ | refine execute_kept ?_ | split

theorem State.skipArmed_kept (h : Kept z s) :
    Kept z (State.skipArmed s) := by
  unfold State.skipArmed
  with_reducible repeat' first
    | assumption | refine eachOf_kept ?_ ?_ | refine actArming_kept ?_ | (intro _ _; intros; beta_reduce)

theorem State.scbRebase_kept (h : Kept z s) :
    Kept z (State.scbRebase s) := by
  unfold State.scbRebase
  with_reducible repeat' first
    | assumption | refine skipCommits_kept ?_ | refine when_kept ?_ ?_ | refine resyncAll_kept ?_
    | refine scbEvent_kept ?_ | refine Kept.cond ?_ ?_ | refine Kept.upd ?_ rfl | (intro _ _; intros; beta_reduce)
    | dsimp only

theorem State.fabRebase_kept {was : Nat} (h : Kept z s) :
    Kept z (State.fabRebase s was) := by
  unfold State.fabRebase
  with_reducible repeat' first
    | assumption | refine fabSkip_kept ?_ | refine Kept.cond ?_ ?_

theorem State.timeStep_kept {new : Nat} (h : Kept z s) :
    Kept z (State.timeStep s new) := by
  unfold State.timeStep
  with_reducible repeat' first
    | assumption | exact Kept.upd (by assumption) rfl
    | (extract_lets +onlyGivenNames x; first | (have hx : Kept z x := (by unfold x; clear x; repeat' first | assumption | exact Kept.upd (by assumption) rfl | refine setSlew_kept ?_ | refine rebase_kept ?_ | refine when_kept ?_ ?_ | refine brzWindow_kept ?_ | refine notice_kept ?_ | refine brzEvent_kept ?_ | refine skipArmed_kept ?_ | refine fabRebase_kept ?_ | refine scbRebase_kept ?_ | refine forUpTo_kept ?_ ?_ | refine pulseAlign_kept ?_ | refine Kept.upd ?_ rfl | (intro _ _; intros; beta_reduce)); clear_value x) | clear_value x)
    | refine setSlew_kept ?_ | refine rebase_kept ?_ | refine when_kept ?_ ?_ | refine brzWindow_kept ?_
    | refine notice_kept ?_ | refine brzEvent_kept ?_ | refine skipArmed_kept ?_ | refine fabRebase_kept ?_
    | refine scbRebase_kept ?_ | refine forUpTo_kept ?_ ?_ | refine pulseAlign_kept ?_ | refine Kept.upd ?_ rfl
    | (intro _ _; intros; beta_reduce)

theorem State.timeSet_kept {w : Nat} (h : Kept z s) :
    Kept z (State.timeSet s w) := by
  unfold State.timeSet
  with_reducible repeat' first
    | assumption | refine timeStep_kept ?_

theorem State.timeAdjust_kept {w : Nat} (h : Kept z s) :
    Kept z (State.timeAdjust s w) := by
  unfold State.timeAdjust
  with_reducible repeat' first
    | assumption | refine setSlew_kept ?_ | refine timeStep_kept ?_ | refine Kept.cond ?_ ?_ | dsimp only

theorem State.setFolLock_kept {u : Nat} {b : Bool} (h : Kept z s) :
    Kept z (State.setFolLock s u b) := by
  unfold State.setFolLock
  with_reducible repeat' first
    | assumption | refine fput_kept ?_ | refine fset_kept ?_

theorem State.setFol_kept {u : Nat} {c skew : Int} {run : Nat} (h : Kept z s) :
    Kept z (State.setFol s u c skew run) := by
  unfold State.setFol
  with_reducible repeat' first
    | assumption | refine onInv_kept ?_

theorem State.follow_kept {u : Nat} {skew : Int} (h : Kept z s) :
    Kept z (State.follow s u skew) := by
  unfold State.follow
  with_reducible repeat' first
    | assumption
    | (extract_lets +onlyGivenNames x; first | (have hx : Kept z x := (by unfold x; clear x; repeat' first | assumption | refine fput_kept ?_ | refine setFol_kept ?_ | refine report_kept ?_ | refine setFolLock_kept ?_ | refine when_kept ?_ ?_ | refine Kept.cond ?_ ?_ | (intro _ _; intros; beta_reduce)); clear_value x) | clear_value x)
    | refine fput_kept ?_ | refine setFol_kept ?_ | refine report_kept ?_ | refine setFolLock_kept ?_
    | refine when_kept ?_ ?_ | refine Kept.cond ?_ ?_ | (intro _ _; intros; beta_reduce)

theorem State.followAll_kept {skews : List Int} (h : Kept z s) :
    Kept z (State.followAll s skews) := by
  unfold State.followAll
  with_reducible repeat' first
    | assumption | refine forUpTo_kept ?_ ?_ | refine follow_kept ?_ | refine emit_kept ?_ | refine Kept.cond ?_ ?_
    | (intro _ _; intros; beta_reduce)

theorem State.writeTcap_kept {n w : Nat} (h : Kept z s) :
    Kept z (State.writeTcap s n w) := by
  unfold State.writeTcap
  with_reducible repeat' first
    | assumption | refine store_kept ?_ | refine onInv_kept ?_ | refine wr_kept ?_ | refine Kept.cond ?_ ?_
    | dsimp only

theorem State.tcapEdge_kept {n : Nat} {rising : Bool} {t16 : Nat} (h : Kept z s) :
    Kept z (State.tcapEdge s n rising t16) := by
  unfold State.tcapEdge
  with_reducible repeat' first
    | assumption
    | (extract_lets +onlyGivenNames x; first | (have hx : Kept z x := (by unfold x; clear x; repeat' first | assumption | refine pulse_kept ?_ | refine cnt_kept ?_ | refine when_kept ?_ ?_ | refine brzEvent_kept ?_ | refine notice_kept ?_ | refine putInstant_kept ?_ | refine wr_kept ?_ | refine onInv_kept ?_ | refine Kept.cond ?_ ?_ | (intro _ _; intros; beta_reduce)); clear_value x) | clear_value x)
    | refine pulse_kept ?_ | refine cnt_kept ?_ | refine when_kept ?_ ?_ | refine brzEvent_kept ?_
    | refine notice_kept ?_ | refine putInstant_kept ?_ | refine wr_kept ?_ | refine onInv_kept ?_
    | refine Kept.cond ?_ ?_ | (intro _ _; intros; beta_reduce)

theorem State.absorb_kept {m : Int} (h : Kept z s) :
    Kept z (State.absorb s m) := by
  unfold State.absorb
  with_reducible repeat' first
    | assumption | refine onInv_kept ?_ | refine when_kept ?_ ?_ | refine sumUp_kept ?_
    | (intro _ _; intros; beta_reduce)

theorem State.tick_kept (h : Kept z s) :
    Kept z (State.tick s) := by
  unfold State.tick
  with_reducible repeat' first
    | assumption | refine when_kept ?_ ?_ | refine absorb_kept ?_ | refine reportReads_kept ?_
    | refine anlSecond_kept ?_ | refine Kept.cond ?_ ?_ | refine Kept.upd ?_ rfl | (intro _ _; intros; beta_reduce)
    | dsimp only

theorem State.servoLaw_kept {theta k : Int} (h : Kept z s) :
    Kept z (State.servoLaw s theta k) := by
  unfold State.servoLaw
  with_reducible repeat' first
    | assumption
    | (extract_lets +onlyGivenNames x; first | (have hx : Kept z x := (by unfold x; clear x; repeat' first | assumption | refine timeStep_kept ?_ | refine rateBy_kept ?_ | refine useFree_kept ?_ | refine Kept.cond ?_ ?_); clear_value x) | clear_value x)
    | refine timeStep_kept ?_ | refine rateBy_kept ?_ | refine useFree_kept ?_ | refine Kept.cond ?_ ?_

theorem State.servoRuns_kept {theta : Int} (h : Kept z s) :
    Kept z (State.servoRuns s theta) := by
  unfold State.servoRuns
  with_reducible repeat' first
    | assumption
    | (extract_lets +onlyGivenNames x; first | (have hx : Kept z x := (by unfold x; clear x; repeat' first | assumption | refine onInv_kept ?_ | refine setServo_kept ?_ | refine Kept.cond ?_ ?_); clear_value x) | clear_value x)
    | refine onInv_kept ?_ | refine setServo_kept ?_ | refine Kept.cond ?_ ?_

theorem State.showOffset_kept {a : Nat} {theta : Int} (h : Kept z s) :
    Kept z (State.showOffset s a theta) := by
  unfold State.showOffset
  with_reducible repeat' first
    | assumption | refine useFree_kept ?_ | refine wr_kept ?_

theorem State.slaveNow_kept (h : Kept z s) :
    Kept z (State.slaveNow s) := by
  unfold State.slaveNow
  with_reducible repeat' first
    | assumption | refine eachOf_kept ?_ ?_ | refine when_kept ?_ ?_ | refine setPtpState_kept ?_
    | refine fput_kept ?_ | (intro _ _; intros; beta_reduce)

theorem State.startAcquire_kept (h : Kept z s) :
    Kept z (State.startAcquire s) := by
  unfold State.startAcquire
  with_reducible repeat' first
    | assumption | refine slaveNow_kept ?_ | refine onInv_kept ?_ | refine setServo_kept ?_ | refine Kept.cond ?_ ?_
    | dsimp only

theorem State.measureOffset_kept {theta k : Int} (h : Kept z s) :
    Kept z (State.measureOffset s theta k) := by
  unfold State.measureOffset
  with_reducible repeat' first
    | assumption | refine showOffset_kept ?_ | refine onInv_kept ?_ | refine startAcquire_kept ?_
    | refine servoRuns_kept ?_ | refine servoLaw_kept ?_ | refine Kept.cond ?_ ?_ | dsimp only

theorem State.writeInvCtl_kept {w : Nat} (h : Kept z s) :
    Kept z (State.writeInvCtl s w) := by
  unfold State.writeInvCtl
  with_reducible repeat' first
    | assumption
    | (extract_lets +onlyGivenNames x; first | (have hx : Kept z x := (by unfold x; clear x; repeat' first | assumption | refine store_kept ?_ | refine when_kept ?_ ?_ | refine setHist_kept ?_ | refine onInv_kept ?_ | refine fput_kept ?_ | refine setServo_kept ?_ | refine freeRate_kept ?_ | (intro _ _; intros; beta_reduce)); clear_value x) | clear_value x)
    | refine store_kept ?_ | refine when_kept ?_ ?_ | refine setHist_kept ?_ | refine onInv_kept ?_
    | refine fput_kept ?_ | refine setServo_kept ?_ | refine freeRate_kept ?_ | (intro _ _; intros; beta_reduce)

theorem State.writeRateSet_kept {w : Nat} (h : Kept z s) :
    Kept z (State.writeRateSet s w) := by
  unfold State.writeRateSet
  with_reducible repeat' first
    | assumption | refine freeRate_kept ?_ | refine store_kept ?_

theorem State.writeServoLim_kept {w : Nat} (h : Kept z s) :
    Kept z (State.writeServoLim s w) := by
  unfold State.writeServoLim
  with_reducible repeat' first
    | assumption | refine store_kept ?_ | refine showRate_kept ?_ | refine sumUp_kept ?_ | refine Kept.cond ?_ ?_

theorem State.writeVtrim_kept {w : Nat} (h : Kept z s) :
    Kept z (State.writeVtrim s w) := by
  unfold State.writeVtrim
  with_reducible repeat' first
    | assumption | refine driveVtrim_kept ?_ | refine Kept.cond ?_ ?_

theorem State.irigMiss_kept (h : Kept z s) :
    Kept z (State.irigMiss s) := by
  unfold State.irigMiss
  with_reducible repeat' first
    | assumption
    | (extract_lets +onlyGivenNames x; first | (have hx : Kept z x := (by unfold x; clear x; repeat' first | assumption | refine onInv_kept ?_ | refine fset_kept ?_ | refine notice_kept ?_ | refine brzEvent_kept ?_ | refine when_kept ?_ ?_ | refine loseReference_kept ?_ | refine Kept.cond ?_ ?_ | (intro _ _; intros; beta_reduce)); clear_value x) | clear_value x)
    | refine onInv_kept ?_ | refine fset_kept ?_ | refine notice_kept ?_ | refine brzEvent_kept ?_
    | refine when_kept ?_ ?_ | refine loseReference_kept ?_ | refine Kept.cond ?_ ?_
    | (intro _ _; intros; beta_reduce)

theorem State.irigShow_kept {f : IrigFrame} (h : Kept z s) :
    Kept z (State.irigShow s f) := by
  unfold State.irigShow
  with_reducible repeat' first
    | assumption | refine fput_kept ?_ | refine when_kept ?_ ?_ | refine fset_kept ?_
    | (intro _ _; intros; beta_reduce) | dsimp only

theorem State.irigFrame_kept {f : IrigFrame} (h : Kept z s) :
    Kept z (State.irigFrame s f) := by
  unfold State.irigFrame
  with_reducible repeat' first
    | assumption
    | (extract_lets +onlyGivenNames x; first | (have hx : Kept z x := (by unfold x; clear x; repeat' first | assumption | refine irigMiss_kept ?_ | refine cntF_kept ?_ | refine fset_kept ?_ | refine irigShow_kept ?_ | refine onInv_kept ?_ | refine when_kept ?_ ?_ | refine notice_kept ?_ | refine brzEvent_kept ?_ | refine showOffset_kept ?_ | refine measureOffset_kept ?_ | refine Kept.cond ?_ ?_ | (intro _ _; intros; beta_reduce)); clear_value x) | clear_value x)
    | refine irigMiss_kept ?_ | refine cntF_kept ?_ | refine fset_kept ?_ | refine irigShow_kept ?_
    | refine onInv_kept ?_ | refine when_kept ?_ ?_ | refine notice_kept ?_ | refine brzEvent_kept ?_
    | refine showOffset_kept ?_ | refine measureOffset_kept ?_ | refine Kept.cond ?_ ?_
    | (intro _ _; intros; beta_reduce)

theorem State.ptpStart_kept {p : Nat} (h : Kept z s) :
    Kept z (State.ptpStart s p) := by
  unfold State.ptpStart
  with_reducible repeat' first
    | assumption | refine setPtpState_kept ?_ | refine Kept.cond ?_ ?_

theorem State.ptpStop_kept {p : Nat} (h : Kept z s) :
    Kept z (State.ptpStop s p) := by
  unfold State.ptpStop
  with_reducible repeat' first
    | assumption | refine ptpForget_kept ?_ | refine setPtpState_kept ?_ | refine Kept.cond ?_ ?_

theorem State.writePctl_kept {p w : Nat} (h : Kept z s) :
    Kept z (State.writePctl s p w) := by
  unfold State.writePctl
  with_reducible repeat' first
    | assumption | refine store_kept ?_ | refine ptpStart_kept ?_ | refine evaluate_kept ?_ | refine ptpStop_kept ?_
    | refine Kept.cond ?_ ?_ | dsimp only

theorem State.writePtpCtl_kept {w : Nat} (h : Kept z s) :
    Kept z (State.writePtpCtl s w) := by
  unfold State.writePtpCtl
  with_reducible repeat' first
    | assumption
    | (extract_lets +onlyGivenNames x; first | (have hx : Kept z x := (by unfold x; clear x; repeat' first | assumption | refine store_kept ?_ | refine when_kept ?_ ?_ | refine fset_kept ?_ | refine eachOf_kept ?_ ?_ | refine ptpStart_kept ?_ | refine newParent_kept ?_ | refine ptpStop_kept ?_ | refine Kept.cond ?_ ?_ | (intro _ _; intros; beta_reduce)); clear_value x) | clear_value x)
    | refine store_kept ?_ | refine when_kept ?_ ?_ | refine fset_kept ?_ | refine eachOf_kept ?_ ?_
    | refine ptpStart_kept ?_ | refine newParent_kept ?_ | refine ptpStop_kept ?_ | refine Kept.cond ?_ ?_
    | (intro _ _; intros; beta_reduce)

theorem State.ptpHear_kept {on : Bool} {p : Nat} {l : List Byte} {f : State → State} (h : Kept z s) (hf : ∀ t, Kept z t → Kept z (f t)) :
    Kept z (State.ptpHear s on p l f) := by
  unfold State.ptpHear
  with_reducible repeat' first
    | assumption | exact hf _ (by assumption) | refine fromQuad_kept ?_ ?_ | refine ptpCount_kept ?_
    | refine Kept.cond ?_ ?_ | (intro _ _; intros; beta_reduce) | apply hf

theorem State.ptpTake_kept {p : Nat} {l : List Byte} {f : State → State} (h : Kept z s) (hf : ∀ t, Kept z t → Kept z (f t)) :
    Kept z (State.ptpTake s p l f) := by
  unfold State.ptpTake
  with_reducible repeat' first
    | assumption | exact hf _ (by assumption) | refine ptpHear_kept ?_ ?_ | (intro _ _; intros; beta_reduce)
    | apply hf

theorem State.ptpPeer_kept {p : Nat} {l : List Byte} {f : State → State} (h : Kept z s) (hf : ∀ t, Kept z t → Kept z (f t)) :
    Kept z (State.ptpPeer s p l f) := by
  unfold State.ptpPeer
  with_reducible repeat' first
    | assumption | exact hf _ (by assumption) | refine ptpHear_kept ?_ ?_ | (intro _ _; intros; beta_reduce)
    | apply hf

theorem State.syncDone_kept {p : Nat} {forward : Int} (h : Kept z s) :
    Kept z (State.syncDone s p forward) := by
  unfold State.syncDone
  with_reducible repeat' first
    | assumption | refine setPtp_kept ?_ | refine when_kept ?_ ?_ | refine showParent_kept ?_
    | refine measureOffset_kept ?_ | (intro _ _; intros; beta_reduce) | dsimp only

theorem State.syncReceivedPtp_kept {p : Nat} {l : List Byte} {pcs : Nat} (h : Kept z s) :
    Kept z (State.syncReceivedPtp s p l pcs) := by
  unfold State.syncReceivedPtp
  with_reducible repeat' first
    | assumption | refine ptpTake_kept ?_ ?_ | refine ptpCount_kept ?_ | refine setPtp_kept ?_
    | refine syncDone_kept ?_ | refine Kept.cond ?_ ?_ | (intro _ _; intros; beta_reduce) | dsimp only

theorem State.followUp_kept {p : Nat} {l : List Byte} (h : Kept z s) :
    Kept z (State.followUp s p l) := by
  unfold State.followUp
  with_reducible repeat' first
    | assumption | refine ptpTake_kept ?_ ?_ | refine syncDone_kept ?_ | refine Kept.cond ?_ ?_ | split
    | (intro _ _; intros; beta_reduce)

theorem State.announceReceived_kept {p : Nat} {l : List Byte} (h : Kept z s) :
    Kept z (State.announceReceived s p l) := by
  unfold State.announceReceived
  with_reducible repeat' first
    | assumption
    | (extract_lets +onlyGivenNames x; first | (have hx : Kept z x := (by unfold x; clear x; repeat' first | assumption | refine ptpTake_kept ?_ ?_ | refine ptpCount_kept ?_ | refine evaluate_kept ?_ | refine setPtp_kept ?_ | refine Kept.cond ?_ ?_ | (intro _ _; intros; beta_reduce)); clear_value x) | clear_value x)
    | refine ptpTake_kept ?_ ?_ | refine ptpCount_kept ?_ | refine evaluate_kept ?_ | refine setPtp_kept ?_
    | refine Kept.cond ?_ ?_ | (intro _ _; intros; beta_reduce)

theorem State.announceTimeout_kept {p : Nat} (h : Kept z s) :
    Kept z (State.announceTimeout s p) := by
  unfold State.announceTimeout
  with_reducible repeat' first
    | assumption | refine evaluate_kept ?_ | refine setPtp_kept ?_ | refine Kept.cond ?_ ?_

theorem State.newDelay_kept {p : Nat} {d : Int} (h : Kept z s) :
    Kept z (State.newDelay s p d) := by
  unfold State.newDelay
  with_reducible repeat' first
    | assumption | refine ptpCount_kept ?_ | refine fset_kept ?_ | refine fput_kept ?_ | refine useFree_kept ?_
    | refine Kept.cond ?_ ?_ | dsimp only

theorem State.delayResp_kept {p : Nat} {l : List Byte} (h : Kept z s) :
    Kept z (State.delayResp s p l) := by
  unfold State.delayResp
  with_reducible repeat' first
    | assumption
    | (extract_lets +onlyGivenNames x; first | (have hx : Kept z x := (by unfold x; clear x; repeat' first | assumption | refine ptpTake_kept ?_ ?_ | refine ptpCount_kept ?_ | refine wr_kept ?_ | refine setPtp_kept ?_ | refine newDelay_kept ?_ | refine Kept.cond ?_ ?_ | split | (intro _ _; intros; beta_reduce)); clear_value x) | clear_value x)
    | refine ptpTake_kept ?_ ?_ | refine ptpCount_kept ?_ | refine wr_kept ?_ | refine setPtp_kept ?_
    | refine newDelay_kept ?_ | refine Kept.cond ?_ ?_ | split | (intro _ _; intros; beta_reduce)

theorem State.pdelayDone_kept {p : Nat} {l : List Byte} {pcs : Nat} {fup : List Byte} {more : Bool} (h : Kept z s) :
    Kept z (State.pdelayDone s p l pcs fup more) := by
  unfold State.pdelayDone
  with_reducible repeat' first
    | assumption
    | (extract_lets +onlyGivenNames x; first | (have hx : Kept z x := (by unfold x; clear x; repeat' first | assumption | refine ptpPeer_kept ?_ ?_ | refine setPtp_kept ?_ | refine ptpCount_kept ?_ | refine newDelay_kept ?_ | refine Kept.cond ?_ ?_ | split | (intro _ _; intros; beta_reduce)); clear_value x) | clear_value x)
    | refine ptpPeer_kept ?_ ?_ | refine setPtp_kept ?_ | refine ptpCount_kept ?_ | refine newDelay_kept ?_
    | refine Kept.cond ?_ ?_ | split | (intro _ _; intros; beta_reduce)

theorem State.delayLost_kept {p : Nat} (h : Kept z s) :
    Kept z (State.delayLost s p) := by
  unfold State.delayLost
  with_reducible repeat' first
    | assumption | refine ptpCount_kept ?_ | refine setPtp_kept ?_ | refine Kept.cond ?_ ?_

theorem State.delayReq_kept {p : Nat} {l : List Byte} {pcs : Nat} (h : Kept z s) :
    Kept z (State.delayReq s p l pcs) := by
  unfold State.delayReq
  with_reducible repeat' first
    | assumption | refine ptpTake_kept ?_ ?_ | refine sendPtp_kept ?_ | refine Kept.cond ?_ ?_
    | (intro _ _; intros; beta_reduce) | dsimp only

theorem State.pdelayReq_kept {p : Nat} {l : List Byte} {pcs : Nat} (h : Kept z s) :
    Kept z (State.pdelayReq s p l pcs) := by
  unfold State.pdelayReq
  with_reducible repeat' first
    | assumption | refine ptpPeer_kept ?_ ?_ | refine sendPtp_kept ?_ | refine Kept.cond ?_ ?_
    | (intro _ _; intros; beta_reduce) | dsimp only

theorem State.syncSend_kept {p : Nat} (h : Kept z s) :
    Kept z (State.syncSend s p) := by
  unfold State.syncSend
  with_reducible repeat' first
    | assumption
    | (extract_lets +onlyGivenNames x; first | (have hx : Kept z x := (by unfold x; clear x; repeat' first | assumption | refine ptpCount_kept ?_ | refine setPtp_kept ?_ | refine sendPtp_kept ?_ | refine Kept.cond ?_ ?_); clear_value x) | clear_value x)
    | refine ptpCount_kept ?_ | refine setPtp_kept ?_ | refine sendPtp_kept ?_ | refine Kept.cond ?_ ?_

theorem State.annSend_kept {p : Nat} (h : Kept z s) :
    Kept z (State.annSend s p) := by
  unfold State.annSend
  with_reducible repeat' first
    | assumption
    | (extract_lets +onlyGivenNames x; first | (have hx : Kept z x := (by unfold x; clear x; repeat' first | assumption | refine ptpCount_kept ?_ | refine setPtp_kept ?_ | refine sendPtp_kept ?_ | refine useFree_kept ?_ | refine Kept.cond ?_ ?_ | split); clear_value x) | clear_value x)
    | refine ptpCount_kept ?_ | refine setPtp_kept ?_ | refine sendPtp_kept ?_ | refine useFree_kept ?_
    | refine Kept.cond ?_ ?_ | split

theorem State.delaySend_kept {p : Nat} (h : Kept z s) :
    Kept z (State.delaySend s p) := by
  unfold State.delaySend
  with_reducible repeat' first
    | assumption
    | (extract_lets +onlyGivenNames x; first | (have hx : Kept z x := (by unfold x; clear x; repeat' first | assumption | refine ptpCount_kept ?_ | refine setPtp_kept ?_ | refine sendPtp_kept ?_ | refine Kept.cond ?_ ?_); clear_value x) | clear_value x)
    | refine ptpCount_kept ?_ | refine setPtp_kept ?_ | refine sendPtp_kept ?_ | refine Kept.cond ?_ ?_

theorem State.onPort_kept {p : Nat} {f : State → State} (h : Kept z s) (hf : ∀ t, Kept z t → Kept z (f t)) :
    Kept z (State.onPort s p f) := by
  unfold State.onPort
  with_reducible repeat' first
    | assumption | exact hf _ (by assumption) | refine when_kept ?_ ?_ | refine showLine_kept ?_
    | (intro _ _; intros; beta_reduce) | apply hf

theorem State.loadPlat_kept {p : Nat} (h : Kept z s) :
    Kept z (State.loadPlat s p) := by
  unfold State.loadPlat
  with_reducible repeat' first
    | assumption | refine fput_kept ?_ | split

theorem State.linkRestart_kept {p : Nat} (h : Kept z s) :
    Kept z (State.linkRestart s p) := by
  unfold State.linkRestart
  with_reducible repeat' first
    | assumption | refine clr_kept ?_ | refine zeroCredits_kept ?_ | refine toDown_kept ?_ | dsimp only

theorem State.writePcsCtl_kept {p w : Nat} (h : Kept z s) :
    Kept z (State.writePcsCtl s p w) := by
  unfold State.writePcsCtl
  with_reducible repeat' first
    | assumption | refine store_kept ?_ | refine showLine_kept ?_ | refine linkRestart_kept ?_
    | refine loadPlat_kept ?_ | refine Kept.cond ?_ ?_ | dsimp only

theorem State.writePeCtl_kept {p w : Nat} (h : Kept z s) :
    Kept z (State.writePeCtl s p w) := by
  unfold State.writePeCtl
  with_reducible repeat' first
    | assumption | refine store_kept ?_ | refine refresh_kept ?_ | refine restartVerify_kept ?_
    | refine Kept.cond ?_ ?_ | dsimp only

theorem State.gainLock_kept {p : Nat} (h : Kept z s) :
    Kept z (State.gainLock s p) := by
  unfold State.gainLock
  with_reducible repeat' first
    | assumption | refine fset_kept ?_

theorem State.cutRx_kept {p : Nat} (h : Kept z s) :
    Kept z (State.cutRx s p) := by
  unfold State.cutRx
  with_reducible repeat' first
    | assumption | refine setMac_kept ?_ | dsimp only

theorem State.pllShown_kept {p : Nat} (h : Kept z s) :
    Kept z (State.pllShown s p) := by
  unfold State.pllShown
  with_reducible repeat' first
    | assumption | refine fset_kept ?_ | refine Kept.cond ?_ ?_

theorem State.shapersRead_kept {p : Nat} (h : Kept z s) :
    Kept z (State.shapersRead s p) := by
  unfold State.shapersRead
  with_reducible repeat' first
    | assumption | refine eachOf_kept ?_ ?_ | refine touch_kept ?_ | (intro _ _; intros; beta_reduce)

theorem State.txRead_kept {p : Nat} (h : Kept z s) :
    Kept z (State.txRead s p) := by
  unfold State.txRead
  with_reducible repeat' first
    | assumption
    | (extract_lets +onlyGivenNames x; first | (have hx : Kept z x := (by unfold x; clear x; repeat' first | assumption | refine when_kept ?_ ?_ | refine hiddenRead_kept ?_ | refine stompTx_kept ?_ | refine Kept.cond ?_ ?_ | split | (intro _ _; intros; beta_reduce)); clear_value x) | clear_value x)
    | refine when_kept ?_ ?_ | refine hiddenRead_kept ?_ | refine stompTx_kept ?_ | refine Kept.cond ?_ ?_ | split
    | (intro _ _; intros; beta_reduce)

end Sys2Proof.Machine
end

