-- ==== Sys2Proof/Laws/KeptWrites.lean ====
section
/-! SUPPORT. What the operations of Rings, Nitinol, PowerOps, Quench, MoverOps, Handshake, Classify, Redundancy, Schedule, Matrix, RegWrite, Access, Anneal, Bus, Fabric, Grafa, Pins keep: the queue, and a sound state. -/

set_option Elab.async false

namespace Sys2Proof.Machine

variable {z s : State}

theorem State.acceptEntry_kept {r : Nat} {w : List Nat} (h : Kept z s) :
    Kept z (State.acceptEntry s r w) := by
  unfold State.acceptEntry
  with_reducible repeat' first
    | assumption
    | (extract_lets +onlyGivenNames x; first | (have hx : Kept z x := (by unfold x; clear x; repeat' first | assumption | refine setRing_kept ?_ | refine ringShow_kept ?_ | refine wr_kept ?_ | refine when_kept ?_ ?_ | refine slotWrite_kept ?_ | refine fset_kept ?_ | refine txComplete_kept ?_ | (intro _ _; intros; beta_reduce)); clear_value x) | clear_value x)
    | refine setRing_kept ?_ | refine ringShow_kept ?_ | refine wr_kept ?_ | refine when_kept ?_ ?_
    | refine slotWrite_kept ?_ | refine fset_kept ?_ | refine txComplete_kept ?_ | (intro _ _; intros; beta_reduce)

theorem State.acceptSkip_kept {r : Nat} (h : Kept z s) :
    Kept z (State.acceptSkip s r) := by
  unfold State.acceptSkip
  with_reducible repeat' first
    | assumption
    | (extract_lets +onlyGivenNames x; first | (have hx : Kept z x := (by unfold x; clear x; repeat' first | assumption | refine setRing_kept ?_ | refine ringAdvance_kept ?_ | refine wr_kept ?_ | refine when_kept ?_ ?_ | refine slotWrite_kept ?_ | (intro _ _; intros; beta_reduce)); clear_value x) | clear_value x)
    | refine setRing_kept ?_ | refine ringAdvance_kept ?_ | refine wr_kept ?_ | refine when_kept ?_ ?_
    | refine slotWrite_kept ?_ | (intro _ _; intros; beta_reduce)

theorem State.scanEnd_kept {r : Nat} (h : Kept z s) :
    Kept z (State.scanEnd s r) := by
  unfold State.scanEnd
  with_reducible repeat' first
    | assumption | refine setRing_kept ?_

theorem State.readRest_kept {r have' u : Nat} {data : List Nat} (h : Kept z s) :
    Kept z (State.readRest s r have' u data) := by
  unfold State.readRest
  with_reducible repeat' first
    | assumption | refine setRing_kept ?_ | refine ringRead_kept ?_ | refine when_kept ?_ ?_
    | refine ringCount_kept ?_ | (intro _ _; intros; beta_reduce) | dsimp only

theorem State.takeEntry_kept {r : Nat} {w : List Nat} (h : Kept z s) :
    Kept z (State.takeEntry s r w).1 := by
  unfold State.takeEntry
  with_reducible repeat' first
    | assumption | refine acceptEntry_kept ?_ | refine ringError_kept ?_ | refine Kept.cond ?_ ?_
    | refine Kept.condFst ?_ ?_ | dsimp only

theorem State.scanWalk_kept {r : Nat} {data : List Nat} {y3 : Nat} (h : Kept z s) :
    Kept z (State.scanWalk s r data y3) := by
  induction y3 generalizing r data s with
  | zero => exact h
  | succ n ih =>
  rw [State.scanWalk]
  with_reducible repeat' first
    | assumption | refine ih ?_
    | (extract_lets +onlyGivenNames x; first | (have hx : Kept z x := (by unfold x; clear x; repeat' first | assumption | refine ih ?_ | refine acceptSkip_kept ?_ | refine readRest_kept ?_ | refine ringError_kept ?_ | refine scanEnd_kept ?_ | refine scanRead_kept ?_ | refine setRing_kept ?_ | refine takeEntry_kept ?_ | refine Kept.cond ?_ ?_ | refine Kept.condFst ?_ ?_ | split | dsimp only); clear_value x) | (have hx : Kept z x.1 := (by unfold x; clear x; repeat' first | assumption | refine ih ?_ | refine acceptSkip_kept ?_ | refine readRest_kept ?_ | refine ringError_kept ?_ | refine scanEnd_kept ?_ | refine scanRead_kept ?_ | refine setRing_kept ?_ | refine takeEntry_kept ?_ | refine Kept.cond ?_ ?_ | refine Kept.condFst ?_ ?_ | split | dsimp only); clear_value x) | clear_value x)
    | refine acceptSkip_kept ?_ | refine readRest_kept ?_ | refine ringError_kept ?_ | refine scanEnd_kept ?_
    | refine scanRead_kept ?_ | refine setRing_kept ?_ | refine takeEntry_kept ?_ | refine Kept.cond ?_ ?_
    | refine Kept.condFst ?_ ?_ | split | dsimp only

theorem State.scanData_kept {r : Nat} {words : List Nat} (h : Kept z s) :
    Kept z (State.scanData s r words) := by
  unfold State.scanData
  with_reducible repeat' first
    | assumption | refine setRing_kept ?_ | refine scanWalk_kept ?_ | refine scanEnd_kept ?_
    | refine takeEntry_kept ?_ | refine Kept.cond ?_ ?_ | refine Kept.condFst ?_ ?_ | dsimp only

theorem State.ringWordRead_kept {r : Nat} (h : Kept z s) :
    Kept z (State.ringWordRead s r) := by
  unfold State.ringWordRead
  with_reducible repeat' first
    | assumption | refine hiddenRead_kept ?_

theorem State.ringWordWritten_kept {r : Nat} (h : Kept z s) :
    Kept z (State.ringWordWritten s r) := by
  unfold State.ringWordWritten
  with_reducible repeat' first
    | assumption | refine reportReads_kept ?_ | refine hiddenWritten_kept ?_

theorem State.ringEcc_kept {r : Nat} (h : Kept z s) :
    Kept z (State.ringEcc s r) := by
  unfold State.ringEcc
  with_reducible repeat' first
    | assumption | refine ringError_kept ?_ | refine cntF_kept ?_ | refine Kept.cond ?_ ?_

theorem State.scanStart_kept {r : Nat} {bad : Bool} (h : Kept z s) :
    Kept z (State.scanStart s r bad) := by
  unfold State.scanStart
  with_reducible repeat' first
    | assumption | refine ringEcc_kept ?_ | refine scanRead_kept ?_ | refine fset_kept ?_ | refine Kept.cond ?_ ?_

theorem State.fetchRead_kept {r : Nat} {e : RingEntry} (h : Kept z s) :
    Kept z (State.fetchRead s r e) := by
  unfold State.fetchRead
  with_reducible repeat' first
    | assumption | refine ringRead_kept ?_ | dsimp only

theorem State.setEntry_kept {r pos : Nat} {f : RingEntry → RingEntry} (h : Kept z s) :
    Kept z (State.setEntry s r pos f) := by
  unfold State.setEntry
  with_reducible repeat' first
    | assumption | refine setRing_kept ?_ | refine Kept.cond ?_ ?_

theorem State.fetchPump_kept {q y2 : Nat} (h : Kept z s) :
    Kept z (State.fetchPump s q y2) := by
  induction y2 generalizing q s with
  | zero => exact h
  | succ n ih =>
  rw [State.fetchPump]
  with_reducible repeat' first
    | assumption | refine ih ?_ | exact Kept.upd (by assumption) rfl
    | (extract_lets +onlyGivenNames x; first | (have hx : Kept z x := (by unfold x; clear x; repeat' first | assumption | refine ih ?_ | exact Kept.upd (by assumption) rfl | refine fetchRead_kept ?_ | refine setEntry_kept ?_ | refine Kept.cond ?_ ?_ | split | refine Kept.upd ?_ rfl); clear_value x) | clear_value x)
    | refine fetchRead_kept ?_ | refine setEntry_kept ?_ | refine Kept.cond ?_ ?_ | split | refine Kept.upd ?_ rfl

theorem State.fetchMore_kept {r : Nat} (h : Kept z s) :
    Kept z (State.fetchMore s r) := by
  unfold State.fetchMore
  with_reducible repeat' first
    | assumption | refine when_kept ?_ ?_ | refine fetchPump_kept ?_ | (intro _ _; intros; beta_reduce)

theorem State.fetchEnds_kept {r : Nat} {e : RingEntry} (h : Kept z s) :
    Kept z (State.fetchEnds s r e) := by
  unfold State.fetchEnds
  with_reducible repeat' first
    | assumption | refine transEnd_kept ?_

theorem State.fetched_kept {r : Nat} {l : List Byte} (h : Kept z s) :
    Kept z (State.fetched s r l) := by
  unfold State.fetched
  with_reducible repeat' first
    | assumption | refine fetchMore_kept ?_ | refine hostSend_kept ?_ | refine setEntry_kept ?_
    | refine fetchEnds_kept ?_ | refine Kept.cond ?_ ?_ | split

theorem State.ringStart_kept {r : Nat} (h : Kept z s) :
    Kept z (State.ringStart s r) := by
  unfold State.ringStart
  with_reducible repeat' first
    | assumption | refine fset_kept ?_ | refine hiddenWritten_kept ?_ | refine slotWrite_kept ?_
    | refine setRing_kept ?_ | dsimp only

theorem State.writeRingCtl_kept {r w : Nat} (h : Kept z s) :
    Kept z (State.writeRingCtl s r w) := by
  unfold State.writeRingCtl
  with_reducible repeat' first
    | assumption | refine ringStart_kept ?_ | refine setRing_kept ?_ | refine fset_kept ?_ | refine ringStop_kept ?_
    | refine Kept.cond ?_ ?_

theorem State.ringIdle_kept {r : Nat} (h : Kept z s) :
    Kept z (State.ringIdle s r) := by
  unfold State.ringIdle
  with_reducible repeat' first
    | assumption | refine when_kept ?_ ?_ | refine ringAdvance_kept ?_ | refine fset_kept ?_
    | refine slotWrite_kept ?_ | refine ringStart_kept ?_ | refine Kept.cond ?_ ?_
    | (intro _ _; intros; beta_reduce) | dsimp only

theorem State.writeRingHead_kept {r w : Nat} (h : Kept z s) :
    Kept z (State.writeRingHead s r w) := by
  unfold State.writeRingHead
  with_reducible repeat' first
    | assumption | refine wr_kept ?_ | refine Kept.cond ?_ ?_ | dsimp only

theorem State.writeNtcCons_kept {h1 w : Nat} (h : Kept z s) :
    Kept z (State.writeNtcCons s h1 w) := by
  unfold State.writeNtcCons
  with_reducible repeat' first
    | assumption | refine wr_kept ?_ | refine fset_kept ?_ | refine Kept.cond ?_ ?_ | dsimp only

theorem State.writeRingSts_kept {r w : Nat} (h : Kept z s) :
    Kept z (State.writeRingSts s r w) := by
  unfold State.writeRingSts
  with_reducible repeat' first
    | assumption | refine store_kept ?_ | refine when_kept ?_ ?_ | refine slotWrite_kept ?_ | refine fput_kept ?_
    | (intro _ _; intros; beta_reduce) | dsimp only

theorem State.ringDoorbell_kept {r : Nat} (h : Kept z s) :
    Kept z (State.ringDoorbell s r) := by
  unfold State.ringDoorbell
  with_reducible repeat' first
    | assumption | refine ringCount_kept ?_ | refine fset_kept ?_ | refine Kept.cond ?_ ?_

theorem State.scanReturns_kept {r : Nat} {words : List Nat} {bad : Bool} (h : Kept z s) :
    Kept z (State.scanReturns s r words bad) := by
  unfold State.scanReturns
  with_reducible repeat' first
    | assumption | refine when_kept ?_ ?_ | refine readIn_kept ?_ | refine scanData_kept ?_ | refine ringEcc_kept ?_
    | refine fetchMore_kept ?_ | refine Kept.cond ?_ ?_ | (intro _ _; intros; beta_reduce) | dsimp only

theorem State.tuneGain_kept {q c : Nat} {x : Landing} {drel : Nat} (h : Kept z s) :
    Kept z (State.tuneGain s q c x drel) := by
  unfold State.tuneGain
  with_reducible repeat' first
    | assumption
    | (extract_lets +onlyGivenNames x; first | (have hx : Kept z x := (by unfold x; clear x; repeat' first | assumption | refine when_kept ?_ ?_ | refine useFree_kept ?_ | refine nitCount_kept ?_ | refine fput_kept ?_ | refine Kept.cond ?_ ?_ | (intro _ _; intros; beta_reduce)); clear_value x) | clear_value x)
    | refine when_kept ?_ ?_ | refine useFree_kept ?_ | refine nitCount_kept ?_ | refine fput_kept ?_
    | refine Kept.cond ?_ ?_ | (intro _ _; intros; beta_reduce)

theorem State.settleRelease_kept {q m c u : Nat} {x : Landing} (h : Kept z s) :
    Kept z (State.settleRelease s q m c u x) := by
  unfold State.settleRelease
  with_reducible repeat' first
    | assumption
    | (extract_lets +onlyGivenNames x; first | (have hx : Kept z x := (by unfold x; clear x; repeat' first | assumption | refine fput_kept ?_ | refine armCell_kept ?_ | refine nitCount_kept ?_ | refine tuneGain_kept ?_ | refine freeCh_kept ?_ | refine giveResult_kept ?_ | refine setNit_kept ?_ | refine Kept.cond ?_ ?_ | split); clear_value x) | clear_value x)
    | refine fput_kept ?_ | refine armCell_kept ?_ | refine nitCount_kept ?_ | refine tuneGain_kept ?_
    | refine freeCh_kept ?_ | refine giveResult_kept ?_ | refine setNit_kept ?_ | refine Kept.cond ?_ ?_ | split

theorem State.failLanding_kept {q m c : Nat} (h : Kept z s) :
    Kept z (State.failLanding s q m c) := by
  unfold State.failLanding
  with_reducible repeat' first
    | assumption | refine nitCount_kept ?_ | refine fput_kept ?_ | refine keepSense_kept ?_
    | refine endTakeover_kept ?_ | refine giveResult_kept ?_ | refine parkCell_kept ?_ | refine setLand_kept ?_
    | dsimp only

theorem State.retryLanding_kept {m : Nat} (h : Kept z s) :
    Kept z (State.retryLanding s m) := by
  unfold State.retryLanding
  with_reducible repeat' first
    | assumption | refine leaveTail_kept ?_ | refine wr_kept ?_ | refine fput_kept ?_ | refine fset_kept ?_
    | refine setLand_kept ?_ | dsimp only

theorem State.lateStart_kept {q id at' : Nat} (h : Kept z s) :
    Kept z (State.lateStart s q id at') := by
  unfold State.lateStart
  with_reducible repeat' first
    | assumption | refine onNitCommit_kept ?_ | refine nitCount_kept ?_ | refine Kept.cond ?_ ?_ | split

theorem State.startRound_kept {q m at' : Nat} (h : Kept z s) :
    Kept z (State.startRound s q m at') := by
  unfold State.startRound
  with_reducible repeat' first
    | assumption | refine when_kept ?_ ?_ | refine setLand_kept ?_ | refine lateStart_kept ?_
    | refine Kept.cond ?_ ?_ | (intro _ _; intros; beta_reduce) | dsimp only

theorem State.roundWord_kept {q i at' : Nat} (h : Kept z s) :
    Kept z (State.roundWord s q i at').2 := by
  unfold State.roundWord
  with_reducible repeat' first
    | assumption
    | (extract_lets +onlyGivenNames x; first | (have hx : Kept z x := (by unfold x; clear x; repeat' first | assumption | refine nitCount_kept ?_ | refine freeCh_kept ?_ | refine endTakeover_kept ?_ | refine giveResult_kept ?_ | refine keepSense_kept ?_ | refine preemptAt_kept ?_ | refine failLanding_kept ?_ | refine when_kept ?_ ?_ | refine retryLanding_kept ?_ | refine startRound_kept ?_ | refine fput_kept ?_ | refine wr_kept ?_ | refine setLand_kept ?_ | refine settleRelease_kept ?_ | refine Kept.cond ?_ ?_ | refine Kept.condSnd ?_ ?_ | split | (intro _ _; intros; beta_reduce) | dsimp only); clear_value x) | (have hx : Kept z x.2 := (by unfold x; clear x; repeat' first | assumption | refine nitCount_kept ?_ | refine freeCh_kept ?_ | refine endTakeover_kept ?_ | refine giveResult_kept ?_ | refine keepSense_kept ?_ | refine preemptAt_kept ?_ | refine failLanding_kept ?_ | refine when_kept ?_ ?_ | refine retryLanding_kept ?_ | refine startRound_kept ?_ | refine fput_kept ?_ | refine wr_kept ?_ | refine setLand_kept ?_ | refine settleRelease_kept ?_ | refine Kept.cond ?_ ?_ | refine Kept.condSnd ?_ ?_ | split | (intro _ _; intros; beta_reduce) | dsimp only); clear_value x) | clear_value x)
    | refine nitCount_kept ?_ | refine freeCh_kept ?_ | refine endTakeover_kept ?_ | refine giveResult_kept ?_
    | refine keepSense_kept ?_ | refine preemptAt_kept ?_ | refine failLanding_kept ?_ | refine when_kept ?_ ?_
    | refine retryLanding_kept ?_ | refine startRound_kept ?_ | refine fput_kept ?_ | refine wr_kept ?_
    | refine setLand_kept ?_ | refine settleRelease_kept ?_ | refine Kept.cond ?_ ?_ | refine Kept.condSnd ?_ ?_
    | split | (intro _ _; intros; beta_reduce) | dsimp only

theorem State.roundWords_kept {q at' : Nat} (h : Kept z s) :
    Kept z (State.roundWords s q at').2 := by
  unfold State.roundWords
  with_reducible repeat' first
    | assumption | refine roundWord_kept ?_ | refine Kept.foldSnd ?_ ?_ | refine Kept.fold ?_ ?_
    | (intro _ _; intros; beta_reduce) | dsimp only

theorem State.sendRound_kept {q : Nat} {w : List Nat} (h : Kept z s) :
    Kept z (State.sendRound s q w) := by
  unfold State.sendRound
  with_reducible repeat' first
    | assumption | refine forUpTo_kept ?_ ?_ | refine sendFlit_kept ?_ | (intro _ _; intros; beta_reduce)

theorem State.loseChannel_kept {q i : Nat} (h : Kept z s) :
    Kept z (State.loseChannel s q i) := by
  unfold State.loseChannel
  with_reducible repeat' first
    | assumption | refine interruptCh_kept ?_ | refine setNit_kept ?_ | refine Kept.cond ?_ ?_ | dsimp only

theorem State.landingRound_kept {q at' : Nat} {late lost : List Nat} (h : Kept z s) :
    Kept z (State.landingRound s q at' late lost) := by
  unfold State.landingRound
  with_reducible repeat' first
    | assumption
    | (extract_lets +onlyGivenNames x; first | (have hx : Kept z x := (by unfold x; clear x; repeat' first | assumption | refine serveWait_kept ?_ | refine eachOf_kept ?_ ?_ | refine loseChannel_kept ?_ | refine setNit_kept ?_ | refine roundWords_kept ?_ | refine sendRound_kept ?_ | refine Kept.cond ?_ ?_ | refine Kept.condSnd ?_ ?_ | (intro _ _; intros; beta_reduce) | dsimp only); clear_value x) | (have hx : Kept z x.2 := (by unfold x; clear x; repeat' first | assumption | refine serveWait_kept ?_ | refine eachOf_kept ?_ ?_ | refine loseChannel_kept ?_ | refine setNit_kept ?_ | refine roundWords_kept ?_ | refine sendRound_kept ?_ | refine Kept.cond ?_ ?_ | refine Kept.condSnd ?_ ?_ | (intro _ _; intros; beta_reduce) | dsimp only); clear_value x) | clear_value x)
    | refine serveWait_kept ?_ | refine eachOf_kept ?_ ?_ | refine loseChannel_kept ?_ | refine setNit_kept ?_
    | refine roundWords_kept ?_ | refine sendRound_kept ?_ | refine Kept.cond ?_ ?_ | refine Kept.condSnd ?_ ?_
    | (intro _ _; intros; beta_reduce) | dsimp only

theorem State.tailSample_kept {q m round flag : Nat} (h : Kept z s) :
    Kept z (State.tailSample s q m round flag) := by
  unfold State.tailSample
  with_reducible repeat' first
    | assumption
    | (extract_lets +onlyGivenNames x; first | (have hx : Kept z x := (by unfold x; clear x; repeat' first | assumption | refine eachOf_kept ?_ ?_ | refine nitCount_kept ?_ | refine setNit_kept ?_ | refine Kept.cond ?_ ?_ | (intro _ _; intros; beta_reduce)); clear_value x) | clear_value x)
    | refine eachOf_kept ?_ ?_ | refine nitCount_kept ?_ | refine setNit_kept ?_ | refine Kept.cond ?_ ?_
    | (intro _ _; intros; beta_reduce)

theorem State.landSample_kept {q m j flag code : Nat} (h : Kept z s) :
    Kept z (State.landSample s q m j flag code) := by
  unfold State.landSample
  with_reducible repeat' first
    | assumption
    | (extract_lets +onlyGivenNames x; first | (have hx : Kept z x := (by unfold x; clear x; repeat' first | assumption | refine eachOf_kept ?_ ?_ | refine nitCount_kept ?_ | refine setLand_kept ?_ | refine when_kept ?_ ?_ | refine fput_kept ?_ | refine onNitCommit_kept ?_ | refine Kept.cond ?_ ?_ | (intro _ _; intros; beta_reduce)); clear_value x) | clear_value x)
    | refine eachOf_kept ?_ ?_ | refine nitCount_kept ?_ | refine setLand_kept ?_ | refine when_kept ?_ ?_
    | refine fput_kept ?_ | refine onNitCommit_kept ?_ | refine Kept.cond ?_ ?_ | (intro _ _; intros; beta_reduce)

theorem State.rebind_kept {q i : Nat} (h : Kept z s) :
    Kept z (State.rebind s q i) := by
  unfold State.rebind
  with_reducible repeat' first
    | assumption
    | (extract_lets +onlyGivenNames x; first | (have hx : Kept z x := (by unfold x; clear x; repeat' first | assumption | refine wr_kept ?_ | refine sendBinds_kept ?_ | refine nitCount_kept ?_ | refine setLand_kept ?_ | refine fput_kept ?_); clear_value x) | clear_value x)
    | refine wr_kept ?_ | refine sendBinds_kept ?_ | refine nitCount_kept ?_ | refine setLand_kept ?_
    | refine fput_kept ?_

theorem State.landSense_kept {q i round w : Nat} (h : Kept z s) :
    Kept z (State.landSense s q i round w) := by
  unfold State.landSense
  with_reducible repeat' first
    | assumption
    | (extract_lets +onlyGivenNames x; first | (have hx : Kept z x := (by unfold x; clear x; repeat' first | assumption | refine tailSample_kept ?_ | refine when_kept ?_ ?_ | refine rebind_kept ?_ | refine landSample_kept ?_ | refine Kept.cond ?_ ?_ | (intro _ _; intros; beta_reduce)); clear_value x) | clear_value x)
    | refine tailSample_kept ?_ | refine when_kept ?_ ?_ | refine rebind_kept ?_ | refine landSample_kept ?_
    | refine Kept.cond ?_ ?_ | (intro _ _; intros; beta_reduce)

theorem State.countMissing_kept {q : Nat} (h : Kept z s) :
    Kept z (State.countMissing s q) := by
  unfold State.countMissing
  with_reducible repeat' first
    | assumption
    | (extract_lets +onlyGivenNames x; first | (have hx : Kept z x := (by unfold x; clear x; repeat' first | assumption | refine setNit_kept ?_ | refine grfCountBy_kept ?_ | refine Kept.cond ?_ ?_ | split); clear_value x) | clear_value x)
    | refine setNit_kept ?_ | refine grfCountBy_kept ?_ | refine Kept.cond ?_ ?_ | split

theorem State.stepPair_kept {q p : Nat} {lat : Bool} (h : Kept z s) :
    Kept z (State.stepPair s q p lat) := by
  unfold State.stepPair
  with_reducible repeat' first
    | assumption | refine setNit_kept ?_

theorem State.holdDrive_kept {q c code : Nat} (h : Kept z s) :
    Kept z (State.holdDrive s q c code) := by
  unfold State.holdDrive
  with_reducible repeat' first
    | assumption | refine fput_kept ?_ | refine Kept.cond ?_ ?_ | dsimp only

theorem State.firstDrives_kept {q pair : Nat} (h : Kept z s) :
    Kept z (State.firstDrives s q pair) := by
  unfold State.firstDrives
  with_reducible repeat' first
    | assumption | refine setNit_kept ?_ | refine forUpTo_kept ?_ ?_ | refine when_kept ?_ ?_
    | refine holdDrive_kept ?_ | refine Kept.cond ?_ ?_ | (intro _ _; intros; beta_reduce) | dsimp only

theorem State.cellsRead_kept {q : Nat} {l : List Nat} (h : Kept z s) :
    Kept z (State.cellsRead s q l) := by
  unfold State.cellsRead
  with_reducible repeat' first
    | assumption | refine eachOf_kept ?_ ?_ | refine touch_kept ?_ | (intro _ _; intros; beta_reduce)

theorem State.loseEntries_kept {q : Nat} {l : List Nat} (h : Kept z s) :
    Kept z (State.loseEntries s q l) := by
  unfold State.loseEntries
  with_reducible repeat' first
    | assumption | refine eachOf_kept ?_ ?_ | refine fput_kept ?_ | refine setNit_kept ?_
    | (intro _ _; intros; beta_reduce)

theorem State.unreadable_kept {q pair : Nat} {bad : List Nat} (h : Kept z s) :
    Kept z (State.unreadable s q pair bad) := by
  unfold State.unreadable
  with_reducible repeat' first
    | assumption | refine loseEntries_kept ?_ | refine setNit_kept ?_ | refine Kept.cond ?_ ?_ | dsimp only

theorem State.holdVisit_kept {q pair : Nat} {bad : List Nat} (h : Kept z s) :
    Kept z (State.holdVisit s q pair bad) := by
  unfold State.holdVisit
  with_reducible repeat' first
    | assumption
    | (extract_lets +onlyGivenNames x; first | (have hx : Kept z x := (by unfold x; clear x; repeat' first | assumption | refine when_kept ?_ ?_ | refine fset_kept ?_ | refine unreadable_kept ?_ | refine cellsRead_kept ?_ | refine firstDrives_kept ?_ | refine nitCount_kept ?_ | refine countMissing_kept ?_ | refine forUpTo_kept ?_ ?_ | refine sendFlit_kept ?_ | refine stepPair_kept ?_ | refine Kept.cond ?_ ?_ | (intro _ _; intros; beta_reduce)); clear_value x) | clear_value x)
    | refine when_kept ?_ ?_ | refine fset_kept ?_ | refine unreadable_kept ?_ | refine cellsRead_kept ?_
    | refine firstDrives_kept ?_ | refine nitCount_kept ?_ | refine countMissing_kept ?_ | refine forUpTo_kept ?_ ?_
    | refine sendFlit_kept ?_ | refine stepPair_kept ?_ | refine Kept.cond ?_ ?_ | (intro _ _; intros; beta_reduce)

theorem State.holdValid_kept {q c code : Nat} (h : Kept z s) :
    Kept z (State.holdValid s q c code) := by
  unfold State.holdValid
  with_reducible repeat' first
    | assumption
    | (extract_lets +onlyGivenNames x; first | (have hx : Kept z x := (by unfold x; clear x; repeat' first | assumption | refine fput_kept ?_ | refine armCell_kept ?_ | refine when_kept ?_ ?_ | refine nitCount_kept ?_ | refine parkCell_kept ?_ | refine holdDrive_kept ?_ | refine Kept.cond ?_ ?_ | (intro _ _; intros; beta_reduce)); clear_value x) | clear_value x)
    | refine fput_kept ?_ | refine armCell_kept ?_ | refine when_kept ?_ ?_ | refine nitCount_kept ?_
    | refine parkCell_kept ?_ | refine holdDrive_kept ?_ | refine Kept.cond ?_ ?_ | (intro _ _; intros; beta_reduce)

theorem State.takeSense_kept {q c code g : Nat} (h : Kept z s) :
    Kept z (State.takeSense s q c code g) := by
  unfold State.takeSense
  with_reducible repeat' first
    | assumption | refine when_kept ?_ ?_ | refine fput_kept ?_ | refine fset_kept ?_
    | (intro _ _; intros; beta_reduce)

theorem State.holdLaw_kept {q c w g : Nat} (h : Kept z s) :
    Kept z (State.holdLaw s q c w g) := by
  unfold State.holdLaw
  with_reducible repeat' first
    | assumption
    | (extract_lets +onlyGivenNames x; first | (have hx : Kept z x := (by unfold x; clear x; repeat' first | assumption | refine when_kept ?_ ?_ | refine takeSense_kept ?_ | refine holdValid_kept ?_ | refine fput_kept ?_ | refine parkCell_kept ?_ | refine fset_kept ?_ | refine Kept.cond ?_ ?_ | (intro _ _; intros; beta_reduce)); clear_value x) | clear_value x)
    | refine when_kept ?_ ?_ | refine takeSense_kept ?_ | refine holdValid_kept ?_ | refine fput_kept ?_
    | refine parkCell_kept ?_ | refine fset_kept ?_ | refine Kept.cond ?_ ?_ | (intro _ _; intros; beta_reduce)

theorem State.readSense_kept {q c w g : Nat} (h : Kept z s) :
    Kept z (State.readSense s q c w g) := by
  unfold State.readSense
  with_reducible repeat' first
    | assumption | refine setNit_kept ?_ | refine takeSense_kept ?_ | refine Kept.cond ?_ ?_

theorem State.holdSns_kept {q pair base : Nat} {words : List Nat} (h : Kept z s) :
    Kept z (State.holdSns s q pair base words) := by
  unfold State.holdSns
  with_reducible repeat' first
    | assumption
    | (extract_lets +onlyGivenNames x; first | (have hx : Kept z x := (by unfold x; clear x; repeat' first | assumption | refine setNit_kept ?_ | refine eachOf_kept ?_ ?_ | refine readSense_kept ?_ | refine holdLaw_kept ?_ | refine Kept.cond ?_ ?_ | (intro _ _; intros; beta_reduce)); clear_value x) | clear_value x)
    | refine setNit_kept ?_ | refine eachOf_kept ?_ ?_ | refine readSense_kept ?_ | refine holdLaw_kept ?_
    | refine Kept.cond ?_ ?_ | (intro _ _; intros; beta_reduce)

theorem State.cellsStored_kept {q : Nat} {cs : List Nat} (h : Kept z s) :
    Kept z (State.cellsStored s q cs) := by
  unfold State.cellsStored
  with_reducible repeat' first
    | assumption | refine when_kept ?_ ?_ | refine eachOf_kept ?_ ?_ | refine entryWritten_kept ?_
    | (intro _ _; intros; beta_reduce)

theorem State.rebuild_kept {q c : Nat} (h : Kept z s) :
    Kept z (State.rebuild s q c) := by
  unfold State.rebuild
  with_reducible repeat' first
    | assumption | exact Kept.upd (by assumption) rfl
    | (extract_lets +onlyGivenNames x; first | (have hx : Kept z x := (by unfold x; clear x; repeat' first | assumption | exact Kept.upd (by assumption) rfl | refine setNit_kept ?_ | refine fput_kept ?_ | refine armCell_kept ?_ | refine parkCell_kept ?_ | refine Kept.cond ?_ ?_ | split | refine Kept.upd ?_ rfl); clear_value x) | clear_value x)
    | refine setNit_kept ?_ | refine fput_kept ?_ | refine armCell_kept ?_ | refine parkCell_kept ?_
    | refine Kept.cond ?_ ?_ | split | refine Kept.upd ?_ rfl

theorem State.holdLat_kept {q pair base : Nat} {words : List Nat} (h : Kept z s) :
    Kept z (State.holdLat s q pair base words) := by
  unfold State.holdLat
  with_reducible repeat' first
    | assumption
    | (extract_lets +onlyGivenNames x; first | (have hx : Kept z x := (by unfold x; clear x; repeat' first | assumption | refine setNit_kept ?_ | refine eachOf_kept ?_ ?_ | refine fput_kept ?_ | refine rebuild_kept ?_ | refine Kept.cond ?_ ?_ | (intro _ _; intros; beta_reduce)); clear_value x) | clear_value x)
    | refine setNit_kept ?_ | refine eachOf_kept ?_ ?_ | refine fput_kept ?_ | refine rebuild_kept ?_
    | refine Kept.cond ?_ ?_ | (intro _ _; intros; beta_reduce)

theorem State.applyLanes_kept {q w : Nat} (h : Kept z s) :
    Kept z (State.applyLanes s q w) := by
  unfold State.applyLanes
  with_reducible repeat' first
    | assumption
    | (extract_lets +onlyGivenNames x; first | (have hx : Kept z x := (by unfold x; clear x; repeat' first | assumption | refine setRetired_kept ?_ | refine when_kept ?_ ?_ | refine nitEvent_kept ?_ | refine corrected_kept ?_ | refine report_kept ?_ | refine serveWait_kept ?_ | (intro _ _; intros; beta_reduce)); clear_value x) | clear_value x)
    | refine setRetired_kept ?_ | refine when_kept ?_ ?_ | refine nitEvent_kept ?_ | refine corrected_kept ?_
    | refine report_kept ?_ | refine serveWait_kept ?_ | (intro _ _; intros; beta_reduce)

theorem State.lockstep_kept {q lane kind item : Nat} {inTime : Bool} (h : Kept z s) :
    Kept z (State.lockstep s q lane kind item inTime) := by
  unfold State.lockstep
  with_reducible repeat' first
    | assumption
    | (extract_lets +onlyGivenNames x; first | (have hx : Kept z x := (by unfold x; clear x; repeat' first | assumption | refine nitCount_kept ?_ | refine when_kept ?_ ?_ | refine setNit_kept ?_ | refine corrected_kept ?_ | refine nitEvent_kept ?_ | refine applyLanes_kept ?_ | refine Kept.cond ?_ ?_ | (intro _ _; intros; beta_reduce)); clear_value x) | clear_value x)
    | refine nitCount_kept ?_ | refine when_kept ?_ ?_ | refine setNit_kept ?_ | refine corrected_kept ?_
    | refine nitEvent_kept ?_ | refine applyLanes_kept ?_ | refine Kept.cond ?_ ?_
    | (intro _ _; intros; beta_reduce)

theorem State.laneTested_kept {q lane : Nat} {pass : Bool} (h : Kept z s) :
    Kept z (State.laneTested s q lane pass) := by
  unfold State.laneTested
  with_reducible repeat' first
    | assumption | refine clr_kept ?_ | refine applyLanes_kept ?_ | refine Kept.cond ?_ ?_ | dsimp only

theorem State.cellDone_kept {q res : Nat} (h : Kept z s) :
    Kept z (State.cellDone s q res) := by
  unfold State.cellDone
  with_reducible repeat' first
    | assumption | refine fset_kept ?_ | refine fput_kept ?_

theorem State.hostPark_kept {q c : Nat} (h : Kept z s) :
    Kept z (State.hostPark s q c) := by
  unfold State.hostPark
  with_reducible repeat' first
    | assumption
    | (extract_lets +onlyGivenNames x; first | (have hx : Kept z x := (by unfold x; clear x; repeat' first | assumption | refine parkCell_kept ?_ | refine fput_kept ?_ | refine setLand_kept ?_ | refine keepSense_kept ?_ | refine dropWaiting_kept ?_ | refine Kept.cond ?_ ?_ | split); clear_value x) | clear_value x)
    | refine parkCell_kept ?_ | refine fput_kept ?_ | refine setLand_kept ?_ | refine keepSense_kept ?_
    | refine dropWaiting_kept ?_ | refine Kept.cond ?_ ?_ | split

theorem State.unpark_kept {q c dest : Nat} (h : Kept z s) :
    Kept z (State.unpark s q c dest) := by
  unfold State.unpark
  with_reducible repeat' first
    | assumption | refine cellDone_kept ?_ | refine dropWaiting_kept ?_ | refine bindAll_kept ?_
    | refine setNit_kept ?_ | refine Kept.cond ?_ ?_ | dsimp only

theorem State.writeCellCmd_kept {q w : Nat} (h : Kept z s) :
    Kept z (State.writeCellCmd s q w) := by
  unfold State.writeCellCmd
  with_reducible repeat' first
    | assumption
    | (extract_lets +onlyGivenNames x; first | (have hx : Kept z x := (by unfold x; clear x; repeat' first | assumption | refine store_kept ?_ | refine cellDone_kept ?_ | refine wr_kept ?_ | refine hostPark_kept ?_ | refine unpark_kept ?_ | refine Kept.cond ?_ ?_ | split); clear_value x) | clear_value x)
    | refine store_kept ?_ | refine cellDone_kept ?_ | refine wr_kept ?_ | refine hostPark_kept ?_
    | refine unpark_kept ?_ | refine Kept.cond ?_ ?_ | split

theorem State.commitLists_kept {q id : Nat} (h : Kept z s) :
    Kept z (State.commitLists s q id) := by
  unfold State.commitLists
  with_reducible repeat' first
    | assumption
    | (extract_lets +onlyGivenNames x; first | (have hx : Kept z x := (by unfold x; clear x; repeat' first | assumption | refine setNit_kept ?_ | refine landRequest_kept ?_ | refine onNitCommit_kept ?_ | refine bindAll_kept ?_ | refine Kept.cond ?_ ?_ | refine Kept.condSnd ?_ ?_ | refine Kept.foldSnd ?_ ?_ | refine Kept.fold ?_ ?_ | (intro _ _; intros; beta_reduce) | split | dsimp only); clear_value x) | (have hx : Kept z x.2 := (by unfold x; clear x; repeat' first | assumption | refine setNit_kept ?_ | refine landRequest_kept ?_ | refine onNitCommit_kept ?_ | refine bindAll_kept ?_ | refine Kept.cond ?_ ?_ | refine Kept.condSnd ?_ ?_ | refine Kept.foldSnd ?_ ?_ | refine Kept.fold ?_ ?_ | (intro _ _; intros; beta_reduce) | split | dsimp only); clear_value x) | clear_value x)
    | refine setNit_kept ?_ | refine landRequest_kept ?_ | refine onNitCommit_kept ?_ | refine bindAll_kept ?_
    | refine Kept.cond ?_ ?_ | refine Kept.condSnd ?_ ?_ | refine Kept.foldSnd ?_ ?_ | refine Kept.fold ?_ ?_
    | (intro _ _; intros; beta_reduce) | split | dsimp only

theorem State.landBindSend_kept {q id : Nat} (h : Kept z s) :
    Kept z (State.landBindSend s q id) := by
  unfold State.landBindSend
  with_reducible repeat' first
    | assumption | refine bindAll_kept ?_ | refine onNitCommit_kept ?_ | split

theorem State.reacqStart_kept {q : Nat} (h : Kept z s) :
    Kept z (State.reacqStart s q) := by
  unfold State.reacqStart
  with_reducible repeat' first
    | assumption
    | (extract_lets +onlyGivenNames x; first | (have hx : Kept z x := (by unfold x; clear x; repeat' first | assumption | refine setHoldRel_kept ?_ | refine nitInterrupt_kept ?_ | refine countMissing_kept ?_ | refine nitCount_kept ?_ | refine fset_kept ?_ | refine setNit_kept ?_ | refine Kept.cond ?_ ?_); clear_value x) | clear_value x)
    | refine setHoldRel_kept ?_ | refine nitInterrupt_kept ?_ | refine countMissing_kept ?_
    | refine nitCount_kept ?_ | refine fset_kept ?_ | refine setNit_kept ?_ | refine Kept.cond ?_ ?_

theorem State.readback_kept {q : Nat} (h : Kept z s) :
    Kept z (State.readback s q) := by
  unfold State.readback
  with_reducible repeat' first
    | assumption
    | (extract_lets +onlyGivenNames x; first | (have hx : Kept z x := (by unfold x; clear x; repeat' first | assumption | refine countMissing_kept ?_ | refine stepPair_kept ?_ | refine sendFlit_kept ?_ | refine setNit_kept ?_ | refine Kept.cond ?_ ?_ | split); clear_value x) | clear_value x)
    | refine countMissing_kept ?_ | refine stepPair_kept ?_ | refine sendFlit_kept ?_ | refine setNit_kept ?_
    | refine Kept.cond ?_ ?_ | split

theorem State.classifyCell_kept {q c : Nat} (h : Kept z s) :
    Kept z (State.classifyCell s q c) := by
  unfold State.classifyCell
  with_reducible repeat' first
    | assumption
    | (extract_lets +onlyGivenNames x; first | (have hx : Kept z x := (by unfold x; clear x; repeat' first | assumption | refine when_kept ?_ ?_ | refine fput_kept ?_ | refine parkCell_kept ?_ | refine armCell_kept ?_ | refine setNit_kept ?_ | refine Kept.cond ?_ ?_ | split | (intro _ _; intros; beta_reduce)); clear_value x) | clear_value x)
    | refine when_kept ?_ ?_ | refine fput_kept ?_ | refine parkCell_kept ?_ | refine armCell_kept ?_
    | refine setNit_kept ?_ | refine Kept.cond ?_ ?_ | split | (intro _ _; intros; beta_reduce)

theorem State.freshCell_kept {q c : Nat} (h : Kept z s) :
    Kept z (State.freshCell s q c) := by
  unfold State.freshCell
  with_reducible repeat' first
    | assumption
    | (extract_lets +onlyGivenNames x; first | (have hx : Kept z x := (by unfold x; clear x; repeat' first | assumption | refine wr_kept ?_ | refine fset_kept ?_ | refine fput_kept ?_ | refine setNit_kept ?_ | refine Kept.cond ?_ ?_); clear_value x) | clear_value x)
    | refine wr_kept ?_ | refine fset_kept ?_ | refine fput_kept ?_ | refine setNit_kept ?_ | refine Kept.cond ?_ ?_

theorem State.reacqEnd_kept {q : Nat} (h : Kept z s) :
    Kept z (State.reacqEnd s q) := by
  unfold State.reacqEnd
  with_reducible repeat' first
    | assumption
    | (extract_lets +onlyGivenNames x; first | (have hx : Kept z x := (by unfold x; clear x; repeat' first | assumption | refine reacqFail_kept ?_ | refine countMissing_kept ?_ | refine setLink_kept ?_ | refine setNit_kept ?_ | refine forUpTo_kept ?_ ?_ | refine freshCell_kept ?_ | refine classifyCell_kept ?_ | refine when_kept ?_ ?_ | refine fset_kept ?_ | refine setHoldRel_kept ?_ | refine nitEvent_kept ?_ | refine useFree_kept ?_ | refine Kept.cond ?_ ?_ | (intro _ _; intros; beta_reduce)); clear_value x) | clear_value x)
    | refine reacqFail_kept ?_ | refine countMissing_kept ?_ | refine setLink_kept ?_ | refine setNit_kept ?_
    | refine forUpTo_kept ?_ ?_ | refine freshCell_kept ?_ | refine classifyCell_kept ?_ | refine when_kept ?_ ?_
    | refine fset_kept ?_ | refine setHoldRel_kept ?_ | refine nitEvent_kept ?_ | refine useFree_kept ?_
    | refine Kept.cond ?_ ?_ | (intro _ _; intros; beta_reduce)

theorem State.relandingStart_kept {q : Nat} (h : Kept z s) :
    Kept z (State.relandingStart s q) := by
  unfold State.relandingStart
  with_reducible repeat' first
    | assumption | refine eachOf_kept ?_ ?_ | refine nitCount_kept ?_ | refine setNit_kept ?_
    | refine serveWait_kept ?_ | refine Kept.cond ?_ ?_ | (intro _ _; intros; beta_reduce) | dsimp only

theorem State.writeNitCtl_kept {q w : Nat} (h : Kept z s) :
    Kept z (State.writeNitCtl s q w) := by
  unfold State.writeNitCtl
  with_reducible repeat' first
    | assumption
    | (extract_lets +onlyGivenNames x; first | (have hx : Kept z x := (by unfold x; clear x; repeat' first | assumption | refine store_kept ?_ | refine when_kept ?_ ?_ | refine wantReacq_kept ?_ | refine setHoldRel_kept ?_ | refine nitInterrupt_kept ?_ | refine setNit_kept ?_ | refine fset_kept ?_ | (intro _ _; intros; beta_reduce)); clear_value x) | clear_value x)
    | refine store_kept ?_ | refine when_kept ?_ ?_ | refine wantReacq_kept ?_ | refine setHoldRel_kept ?_
    | refine nitInterrupt_kept ?_ | refine setNit_kept ?_ | refine fset_kept ?_ | (intro _ _; intros; beta_reduce)

theorem State.nitStarted_kept {q failed : Nat} {bad : List Nat} (h : Kept z s) :
    Kept z (State.nitStarted s q failed bad) := by
  unfold State.nitStarted
  with_reducible repeat' first
    | assumption
    | (extract_lets +onlyGivenNames x; first | (have hx : Kept z x := (by unfold x; clear x; repeat' first | assumption | refine cellsRead_kept ?_ | refine applyLanes_kept ?_ | refine loseEntries_kept ?_ | refine setNit_kept ?_ | refine Kept.cond ?_ ?_); clear_value x) | clear_value x)
    | refine cellsRead_kept ?_ | refine applyLanes_kept ?_ | refine loseEntries_kept ?_ | refine setNit_kept ?_
    | refine Kept.cond ?_ ?_

theorem State.showBusy_kept (h : Kept z s) :
    Kept z (State.showBusy s) := by
  unfold State.showBusy
  with_reducible repeat' first
    | assumption | refine fput_kept ?_ | refine fset_kept ?_ | dsimp only

theorem State.setDomState_kept {n v : Nat} (h : Kept z s) :
    Kept z (State.setDomState s n v) := by
  unfold State.setDomState
  with_reducible repeat' first
    | assumption | refine fput_kept ?_ | refine showBusy_kept ?_ | refine wr_kept ?_ | refine Kept.cond ?_ ?_
    | dsimp only

theorem State.showPwr_kept {q : Nat} (h : Kept z s) :
    Kept z (State.showPwr s q) := by
  unfold State.showPwr
  with_reducible repeat' first
    | assumption | refine when_kept ?_ ?_ | refine forUpTo_kept ?_ ?_ | refine fset_kept ?_
    | (intro _ _; intros; beta_reduce) | dsimp only

theorem State.domFollow_kept {n : Nat} (h : Kept z s) :
    Kept z (State.domFollow s n) := by
  unfold State.domFollow
  with_reducible repeat' first
    | assumption
    | (extract_lets +onlyGivenNames x; first | (have hx : Kept z x := (by unfold x; clear x; repeat' first | assumption | refine driveHold_kept ?_ | refine showPwr_kept ?_ | refine forUpTo_kept ?_ ?_ | refine ptpLink_kept ?_ | refine when_kept ?_ ?_ | refine showLine_kept ?_ | refine Kept.cond ?_ ?_ | (intro _ _; intros; beta_reduce)); clear_value x) | clear_value x)
    | refine driveHold_kept ?_ | refine showPwr_kept ?_ | refine forUpTo_kept ?_ ?_ | refine ptpLink_kept ?_
    | refine when_kept ?_ ?_ | refine showLine_kept ?_ | refine Kept.cond ?_ ?_ | (intro _ _; intros; beta_reduce)

theorem State.dropDomain_kept {n : Nat} {off spare : Bool} (h : Kept z s) :
    Kept z (State.dropDomain s n off spare) := by
  unfold State.dropDomain
  with_reducible repeat' first
    | assumption | refine domFollow_kept ?_ | refine setDomState_kept ?_ | refine oneSlot_kept ?_ ?_
    | refine resetDomain_kept ?_ | refine Kept.cond ?_ ?_ | (intro _ _; intros; beta_reduce)

theorem State.tryEndIso_kept {q : Nat} (h : Kept z s) :
    Kept z (State.tryEndIso s q) := by
  unfold State.tryEndIso
  with_reducible repeat' first
    | assumption | refine endIsolation_kept ?_ | refine forUpTo_kept ?_ ?_ | refine resync_kept ?_
    | refine Kept.cond ?_ ?_ | (intro _ _; intros; beta_reduce) | dsimp only

theorem State.becomeReady_kept {n : Nat} (h : Kept z s) :
    Kept z (State.becomeReady s n) := by
  unfold State.becomeReady
  with_reducible repeat' first
    | assumption
    | (extract_lets +onlyGivenNames x; first | (have hx : Kept z x := (by unfold x; clear x; repeat' first | assumption | refine domFollow_kept ?_ | refine setDomState_kept ?_ | refine resyncAll_kept ?_ | refine when_kept ?_ ?_ | refine fetchPump_kept ?_ | refine forUpTo_kept ?_ ?_ | refine resync_kept ?_ | refine tryEndIso_kept ?_ | refine Kept.cond ?_ ?_ | (intro _ _; intros; beta_reduce)); clear_value x) | clear_value x)
    | refine domFollow_kept ?_ | refine setDomState_kept ?_ | refine resyncAll_kept ?_ | refine when_kept ?_ ?_
    | refine fetchPump_kept ?_ | refine forUpTo_kept ?_ ?_ | refine resync_kept ?_ | refine tryEndIso_kept ?_
    | refine Kept.cond ?_ ?_ | (intro _ _; intros; beta_reduce)

theorem State.controllerReset_kept {keep : Nat → Bool} {cause : Nat} (h : Kept z s) :
    Kept z (State.controllerReset s keep cause) := by
  unfold State.controllerReset
  with_reducible repeat' first
    | assumption | refine cntF_kept ?_ | refine fput_kept ?_ | refine eachOf_kept ?_ ?_ | refine dropDomain_kept ?_
    | (intro _ _; intros; beta_reduce) | dsimp only

theorem State.switchOff_kept {n : Nat} (h : Kept z s) :
    Kept z (State.switchOff s n) := by
  unfold State.switchOff
  with_reducible repeat' first
    | assumption | refine setDomState_kept ?_ | refine dropDomain_kept ?_ | refine domFollow_kept ?_
    | refine showBusy_kept ?_ | refine Kept.cond ?_ ?_ | refine Kept.upd ?_ rfl | dsimp only

theorem State.showRefused_kept {no : Nat} (h : Kept z s) :
    Kept z (State.showRefused s no) := by
  unfold State.showRefused
  with_reducible repeat' first
    | assumption | refine fput_kept ?_ | refine fset_kept ?_ | split

theorem State.writePwrOn_kept {j w : Nat} (h : Kept z s) :
    Kept z (State.writePwrOn s j w) := by
  unfold State.writePwrOn
  with_reducible repeat' first
    | assumption | exact Kept.upd (by assumption) rfl
    | (extract_lets +onlyGivenNames x; first | (have hx : Kept z x := (by unfold x; clear x; repeat' first | assumption | exact Kept.upd (by assumption) rfl | refine showRefused_kept ?_ | refine wr_kept ?_ | refine eachOf_kept ?_ ?_ | refine switchOff_kept ?_ | refine Kept.cond ?_ ?_ | refine Kept.upd ?_ rfl | (intro _ _; intros; beta_reduce)); clear_value x) | clear_value x)
    | refine showRefused_kept ?_ | refine wr_kept ?_ | refine eachOf_kept ?_ ?_ | refine switchOff_kept ?_
    | refine Kept.cond ?_ ?_ | refine Kept.upd ?_ rfl | (intro _ _; intros; beta_reduce)

theorem State.writePwrCtl_kept {w : Nat} (h : Kept z s) :
    Kept z (State.writePwrCtl s w) := by
  unfold State.writePwrCtl
  with_reducible repeat' first
    | assumption | exact Kept.upd (by assumption) rfl
    | (extract_lets +onlyGivenNames x; first | (have hx : Kept z x := (by unfold x; clear x; repeat' first | assumption | exact Kept.upd (by assumption) rfl | refine store_kept ?_ | refine when_kept ?_ ?_ | refine clr_kept ?_ | refine controllerReset_kept ?_ | refine Kept.cond ?_ ?_ | refine Kept.upd ?_ rfl | (intro _ _; intros; beta_reduce)); clear_value x) | clear_value x)
    | refine store_kept ?_ | refine when_kept ?_ ?_ | refine clr_kept ?_ | refine controllerReset_kept ?_
    | refine Kept.cond ?_ ?_ | refine Kept.upd ?_ rfl | (intro _ _; intros; beta_reduce)

theorem State.writePwrHold_kept {j w : Nat} (h : Kept z s) :
    Kept z (State.writePwrHold s j w) := by
  unfold State.writePwrHold
  with_reducible repeat' first
    | assumption | refine store_kept ?_ | refine eachOf_kept ?_ ?_ | refine dropDomain_kept ?_
    | refine Kept.cond ?_ ?_ | (intro _ _; intros; beta_reduce) | dsimp only

theorem State.keepRequests_kept {x : State} (h : Kept z s) : Kept z (State.keepRequests s x) := by
  unfold State.keepRequests
  with_reducible repeat' first
    | assumption | refine wr_kept ?_ | refine fput_kept ?_ | refine fset_kept ?_ | refine orw_kept ?_ | refine forUpTo_kept ?_ ?_
    | refine eachOf_kept ?_ ?_ | refine when_kept ?_ ?_ | refine Kept.upd ?_ rfl | (intro _ _; intros; beta_reduce)

theorem State.deviceReset_kept {cause : Nat} (h : Kept z s) : Kept z (State.deviceReset s cause) := by
  unfold State.deviceReset
  extract_lets +onlyGivenNames a r
  have hr : Kept z r := by
    refine ⟨h.1, fun hz => ⟨?_, Table.wf_nil _, ?_, (h.2 hz).2.2.2.1, Table.wf_nil _⟩⟩
    · show regsOk (bif cause == 1 then [] else s.regs.filter (fun x => aonWord x.1))
      cases (cause == 1)
      · exact regsOk_filter (h.2 hz).1 _
      · exact ⟨Table.wf_nil _, by simp⟩
    · show Table.wf (fun _ => 0) (bif s.pwr.porLow then [] else State.reset.pins)
      cases s.pwr.porLow
      · exact (by decide : Table.wf (fun _ => 0) State.reset.pins)
      · exact Table.wf_nil _
  exact fput_kept (when_kept hr fun u hu => keepRequests_kept hu)

theorem State.drivePd00_kept (h : Kept z s) : Kept z (State.drivePd00 s) :=
  ⟨h.1, fun hz => ⟨(h.2 hz).1, (h.2 hz).2.1, (by decide : Table.wf (fun _ => 0) State.reset.pins), (h.2 hz).2.2.2⟩⟩

theorem State.pllLock_kept (h : Kept z s) :
    Kept z (State.pllLock s) := by
  unfold State.pllLock
  with_reducible repeat' first
    | assumption | exact Kept.upd (by assumption) rfl
    | (extract_lets +onlyGivenNames x; first | (have hx : Kept z x := (by unfold x; clear x; repeat' first | assumption | exact Kept.upd (by assumption) rfl | refine fset_kept ?_ | refine when_kept ?_ ?_ | refine orw_kept ?_ | refine Kept.cond ?_ ?_ | refine Kept.upd ?_ rfl | (intro _ _; intros; beta_reduce)); clear_value x) | clear_value x)
    | refine fset_kept ?_ | refine when_kept ?_ ?_ | refine orw_kept ?_ | refine Kept.cond ?_ ?_
    | refine Kept.upd ?_ rfl | (intro _ _; intros; beta_reduce)

theorem State.errorPins_kept {rs : List (Nat × Nat)} (h : Kept z s) :
    Kept z (State.errorPins s rs) := by
  unfold State.errorPins
  with_reducible repeat' first
    | assumption | refine report_kept ?_ | refine Kept.cond ?_ ?_ | dsimp only

theorem State.clearFsw_kept {j w : Nat} {rs : List (Nat × Nat)} (h : Kept z s) :
    Kept z (State.clearFsw s j w rs) := by
  unfold State.clearFsw
  with_reducible repeat' first
    | assumption | refine eachOf_kept ?_ ?_ | refine when_kept ?_ ?_ | refine fput_kept ?_ | refine fset_kept ?_
    | refine driveFault_kept ?_ | refine errorPins_kept ?_ | (intro _ _; intros; beta_reduce) | dsimp only

theorem State.writeFsw_kept {j w : Nat} (h : Kept z s) :
    Kept z (State.writeFsw s j w) := by
  unfold State.writeFsw
  with_reducible repeat' first
    | assumption | refine clearFsw_kept ?_

theorem State.graceExpire_kept {ns : List Nat} (h : Kept z s) :
    Kept z (State.graceExpire s ns) := by
  unfold State.graceExpire
  with_reducible repeat' first
    | assumption | refine reactAll_kept ?_ | refine eachOf_kept ?_ ?_ | refine fset_kept ?_
    | (intro _ _; intros; beta_reduce) | dsimp only

theorem State.keepRecovery_kept {u : Nat} {auto : Bool} (h : Kept z s) :
    Kept z (State.keepRecovery s u auto) := by
  unfold State.keepRecovery
  with_reducible repeat' first
    | assumption | refine Kept.cond ?_ ?_ | refine Kept.upd ?_ rfl

theorem State.recoverUnit_kept {u : Nat} {auto : Bool} (h : Kept z s) :
    Kept z (State.recoverUnit s u auto) := by
  unfold State.recoverUnit
  with_reducible repeat' first
    | assumption
    | (extract_lets +onlyGivenNames x; first | (have hx : Kept z x := (by unfold x; clear x; repeat' first | assumption | refine keepRecovery_kept ?_ | refine cntF_kept ?_ | refine fput_kept ?_ | refine notice_kept ?_ | refine brzEvent_kept ?_ | refine tryEndIso_kept ?_ | refine eachOf_kept ?_ ?_ | refine dropDomain_kept ?_ | refine resyncAll_kept ?_ | refine driveFault_kept ?_ | refine Kept.cond ?_ ?_ | (intro _ _; intros; beta_reduce)); clear_value x) | clear_value x)
    | refine keepRecovery_kept ?_ | refine cntF_kept ?_ | refine fput_kept ?_ | refine notice_kept ?_
    | refine brzEvent_kept ?_ | refine tryEndIso_kept ?_ | refine eachOf_kept ?_ ?_ | refine dropDomain_kept ?_
    | refine resyncAll_kept ?_ | refine driveFault_kept ?_ | refine Kept.cond ?_ ?_
    | (intro _ _; intros; beta_reduce)

theorem State.quietEnds_kept {u : Nat} {rs : List (Nat × Nat)} (h : Kept z s) :
    Kept z (State.quietEnds s u rs) := by
  unfold State.quietEnds
  with_reducible repeat' first
    | assumption | refine errorPins_kept ?_ | refine when_kept ?_ ?_ | refine recoverUnit_kept ?_
    | (intro _ _; intros; beta_reduce) | dsimp only

theorem State.writeUnit_kept {u w : Nat} (h : Kept z s) :
    Kept z (State.writeUnit s u w) := by
  unfold State.writeUnit
  with_reducible repeat' first
    | assumption | refine when_kept ?_ ?_ | refine recoverUnit_kept ?_ | (intro _ _; intros; beta_reduce)

theorem State.showAlive_kept (h : Kept z s) :
    Kept z (State.showAlive s) := by
  unfold State.showAlive
  with_reducible repeat' first
    | assumption | refine pin_kept ?_ | refine fset_kept ?_ | refine Kept.cond ?_ ?_

theorem State.writeQchCtl_kept {w : Nat} (h : Kept z s) :
    Kept z (State.writeQchCtl s w) := by
  unfold State.writeQchCtl
  with_reducible repeat' first
    | assumption
    | (extract_lets +onlyGivenNames x; first | (have hx : Kept z x := (by unfold x; clear x; repeat' first | assumption | refine store_kept ?_ | refine showAlive_kept ?_ | refine aliveLow_kept ?_ | refine when_kept ?_ ?_ | refine fset_kept ?_ | refine errorPins_kept ?_ | refine Kept.cond ?_ ?_ | (intro _ _; intros; beta_reduce)); clear_value x) | clear_value x)
    | refine store_kept ?_ | refine showAlive_kept ?_ | refine aliveLow_kept ?_ | refine when_kept ?_ ?_
    | refine fset_kept ?_ | refine errorPins_kept ?_ | refine Kept.cond ?_ ?_ | (intro _ _; intros; beta_reduce)

theorem State.writeInj_kept {w : Nat} (h : Kept z s) :
    Kept z (State.writeInj s w) := by
  unfold State.writeInj
  with_reducible repeat' first
    | assumption | refine wr_kept ?_ | refine Kept.cond ?_ ?_ | dsimp only

theorem State.setMover_kept {n : Nat} {x : Mover} (h : Kept z s) :
    Kept z (State.setMover s n x) := by
  unfold State.setMover
  with_reducible repeat' first
    | assumption | refine Kept.upd ?_ rfl

theorem State.outRd_kept {k : Int} (h : Kept z s) :
    Kept z (State.outRd s k) := by
  unfold State.outRd
  with_reducible repeat' first
    | assumption | refine fput_kept ?_

theorem State.outWr_kept {k : Int} (h : Kept z s) :
    Kept z (State.outWr s k) := by
  unfold State.outWr
  with_reducible repeat' first
    | assumption | refine fput_kept ?_

theorem State.issueRead_kept {n : Nat} (h : Kept z s) :
    Kept z (State.issueRead s n) := by
  unfold State.issueRead
  with_reducible repeat' first
    | assumption
    | (extract_lets +onlyGivenNames x; first | (have hx : Kept z x := (by unfold x; clear x; repeat' first | assumption | refine outRd_kept ?_ | refine setMover_kept ?_ | refine granting_kept ?_ | refine emit_kept ?_ | split); clear_value x) | clear_value x)
    | refine outRd_kept ?_ | refine setMover_kept ?_ | refine granting_kept ?_ | refine emit_kept ?_ | split

theorem State.issueReads_kept {y1 : Nat} (h : Kept z s) :
    Kept z (State.issueReads s y1) := by
  induction y1 generalizing s with
  | zero => exact h
  | succ n ih =>
  rw [State.issueReads]
  with_reducible repeat' first
    | assumption | refine ih ?_ | refine issueRead_kept ?_ | split | refine Kept.upd ?_ rfl

theorem State.moverEnd_kept {n status : Nat} (h : Kept z s) :
    Kept z (State.moverEnd s n status) := by
  unfold State.moverEnd
  with_reducible repeat' first
    | assumption | refine setMover_kept ?_ | refine fput_kept ?_ | refine fset_kept ?_ | refine pulse_kept ?_
    | refine cnt_kept ?_ | refine corrected_kept ?_ | refine brzEvent_kept ?_ | refine Kept.cond ?_ ?_ | dsimp only

theorem State.moverCheck_kept {n : Nat} (h : Kept z s) :
    Kept z (State.moverCheck s n) := by
  unfold State.moverCheck
  with_reducible repeat' first
    | assumption | refine moverEnd_kept ?_ | refine Kept.cond ?_ ?_ | dsimp only

theorem State.moverGo_kept {n : Nat} (h : Kept z s) :
    Kept z (State.moverGo s n) := by
  unfold State.moverGo
  with_reducible repeat' first
    | assumption | refine cnt_kept ?_ | refine wr_kept ?_ | refine setMover_kept ?_ | refine moverCheck_kept ?_
    | refine issueReads_kept ?_ | refine fset_kept ?_ | refine Kept.cond ?_ ?_ | dsimp only

theorem State.moverAbort_kept {n : Nat} (h : Kept z s) :
    Kept z (State.moverAbort s n) := by
  unfold State.moverAbort
  with_reducible repeat' first
    | assumption | refine moverCheck_kept ?_ | refine setMover_kept ?_ | refine Kept.cond ?_ ?_

theorem State.writeBmvCtl_kept {n w : Nat} (h : Kept z s) :
    Kept z (State.writeBmvCtl s n w) := by
  unfold State.writeBmvCtl
  with_reducible repeat' first
    | assumption
    | (extract_lets +onlyGivenNames x; first | (have hx : Kept z x := (by unfold x; clear x; repeat' first | assumption | refine fset_kept ?_ | refine when_kept ?_ ?_ | refine moverAbort_kept ?_ | refine moverGo_kept ?_ | (intro _ _; intros; beta_reduce)); clear_value x) | clear_value x)
    | refine fset_kept ?_ | refine when_kept ?_ ?_ | refine moverAbort_kept ?_ | refine moverGo_kept ?_
    | (intro _ _; intros; beta_reduce)

theorem State.sealAlive_kept {n alive : Nat} {j : Judged} (h : Kept z s) :
    Kept z (State.sealAlive s n alive j) := by
  unfold State.sealAlive
  with_reducible repeat' first
    | assumption | refine fset_kept ?_ | refine fput_kept ?_ | refine memWritten_kept ?_ | refine Kept.cond ?_ ?_
    | refine Kept.upd ?_ rfl | dsimp only

theorem State.sealCount_kept {n : Nat} {j : Judged} (h : Kept z s) :
    Kept z (State.sealCount s n j) := by
  unfold State.sealCount
  with_reducible repeat' first
    | assumption | refine cnt_kept ?_ | refine when_kept ?_ ?_ | (intro _ _; intros; beta_reduce) | dsimp only

theorem State.sealLose_kept {n : Nat} {bad : Bool} (h : Kept z s) :
    Kept z (State.sealLose s n bad) := by
  unfold State.sealLose
  with_reducible repeat' first
    | assumption | refine when_kept ?_ ?_ | refine touch_kept ?_ | refine fset_kept ?_
    | (intro _ _; intros; beta_reduce)

theorem State.sealRead_kept {n : Nat} (h : Kept z s) : Kept z (State.sealRead s n).1 := by
  unfold State.sealRead
  exact Kept.foldFst h fun a k ha => tableRead_kept ha

theorem State.judgeTrip_kept {x : Trip} {bad : Bool} (h : Kept z s) :
    Kept z (State.judgeTrip s x bad) := by
  unfold State.judgeTrip
  with_reducible repeat' first
    | assumption
    | (extract_lets +onlyGivenNames x; first | (have hx : Kept z x := (by unfold x; clear x; repeat' first | assumption | refine sealLose_kept ?_ | refine sealAlive_kept ?_ | refine sealCount_kept ?_ | refine when_kept ?_ ?_ | refine cnt_kept ?_ | refine tripArrives_kept ?_ | refine brzEvent_kept ?_ | refine Kept.cond ?_ ?_ | (intro _ _; intros; beta_reduce)); clear_value x) | clear_value x)
    | refine sealLose_kept ?_ | refine sealAlive_kept ?_ | refine sealCount_kept ?_ | refine when_kept ?_ ?_
    | refine cnt_kept ?_ | refine tripArrives_kept ?_ | refine brzEvent_kept ?_ | refine Kept.cond ?_ ?_
    | (intro _ _; intros; beta_reduce)

theorem State.sealStart_kept {n : Nat} (h : Kept z s) :
    Kept z (State.sealStart s n) := by
  unfold State.sealStart
  with_reducible repeat' first
    | assumption | refine when_kept ?_ ?_ | refine cnt_kept ?_ | refine wr_kept ?_ | refine Kept.upd ?_ rfl
    | (intro _ _; intros; beta_reduce) | dsimp only

theorem State.sealDone_kept {n : Nat} {bad : Bool} (h : Kept z s) :
    Kept z (State.sealDone s n bad) := by
  unfold State.sealDone
  with_reducible repeat' first
    | assumption | exact Kept.upd (by assumption) rfl
    | (extract_lets +onlyGivenNames x; first | (have hx : Kept z x := (by unfold x; clear x; repeat' first | assumption | exact Kept.upd (by assumption) rfl | refine sealRead_kept ?_ | refine sealLose_kept ?_ | refine when_kept ?_ ?_ | refine useFree_kept ?_ | refine sealAlive_kept ?_ | refine sealCount_kept ?_ | refine wr_kept ?_ | refine pulse_kept ?_ | refine Kept.cond ?_ ?_ | refine Kept.condFst ?_ ?_ | refine Kept.upd ?_ rfl | (intro _ _; intros; beta_reduce) | dsimp only); clear_value x) | (have hx : Kept z x.1 := (by unfold x; clear x; repeat' first | assumption | exact Kept.upd (by assumption) rfl | refine sealRead_kept ?_ | refine sealLose_kept ?_ | refine when_kept ?_ ?_ | refine useFree_kept ?_ | refine sealAlive_kept ?_ | refine sealCount_kept ?_ | refine wr_kept ?_ | refine pulse_kept ?_ | refine Kept.cond ?_ ?_ | refine Kept.condFst ?_ ?_ | refine Kept.upd ?_ rfl | (intro _ _; intros; beta_reduce) | dsimp only); clear_value x) | clear_value x)
    | refine sealRead_kept ?_ | refine sealLose_kept ?_ | refine when_kept ?_ ?_ | refine useFree_kept ?_
    | refine sealAlive_kept ?_ | refine sealCount_kept ?_ | refine wr_kept ?_ | refine pulse_kept ?_
    | refine Kept.cond ?_ ?_ | refine Kept.condFst ?_ ?_ | refine Kept.upd ?_ rfl | (intro _ _; intros; beta_reduce)
    | dsimp only

theorem State.sealCtlWritten_kept {n : Nat} {was : Bool} (h : Kept z s) :
    Kept z (State.sealCtlWritten s n was) := by
  unfold State.sealCtlWritten
  with_reducible repeat' first
    | assumption | refine when_kept ?_ ?_ | refine memWritten_kept ?_ | refine fset_kept ?_ | refine Kept.upd ?_ rfl
    | (intro _ _; intros; beta_reduce)

theorem State.sinkActs_kept {j id : Nat} (h : Kept z s) :
    Kept z (State.sinkActs s j id) := by
  unfold State.sinkActs
  with_reducible repeat' first
    | assumption | refine fabArm_kept ?_ | refine when_kept ?_ ?_ | refine sealStart_kept ?_
    | refine brzEvent_kept ?_ | refine Kept.cond ?_ ?_ | (intro _ _; intros; beta_reduce)

theorem State.deliverPulse_kept (h : Kept z s) :
    Kept z (State.deliverPulse s) := by
  unfold State.deliverPulse
  with_reducible repeat' first
    | assumption | refine forUpTo_kept ?_ ?_ | refine when_kept ?_ ?_ | refine sinkActs_kept ?_ | refine cnt_kept ?_
    | split | refine Kept.upd ?_ rfl | (intro _ _; intros; beta_reduce)

theorem State.driveVid_kept {n : Nat} (h : Kept z s) :
    Kept z (State.driveVid s n) := by
  unfold State.driveVid
  with_reducible repeat' first
    | assumption | refine pin_kept ?_ | refine fput_kept ?_

theorem State.showVid_kept (h : Kept z s) :
    Kept z (State.showVid s) := by
  unfold State.showVid
  with_reducible repeat' first
    | assumption | refine when_kept ?_ ?_ | refine driveVid_kept ?_ | refine Kept.cond ?_ ?_
    | (intro _ _; intros; beta_reduce)

theorem State.measure_kept {u period : Nat} (h : Kept z s) :
    Kept z (State.measure s u period) := by
  unfold State.measure
  with_reducible repeat' first
    | assumption
    | (extract_lets +onlyGivenNames x; first | (have hx : Kept z x := (by unfold x; clear x; repeat' first | assumption | refine fset_kept ?_ | refine fput_kept ?_ | refine useFree_kept ?_ | refine when_kept ?_ ?_ | refine showVid_kept ?_ | refine Kept.cond ?_ ?_ | (intro _ _; intros; beta_reduce)); clear_value x) | clear_value x)
    | refine fset_kept ?_ | refine fput_kept ?_ | refine useFree_kept ?_ | refine when_kept ?_ ?_
    | refine showVid_kept ?_ | refine Kept.cond ?_ ?_ | (intro _ _; intros; beta_reduce)

theorem State.vidRaise_kept (h : Kept z s) :
    Kept z (State.vidRaise s) := by
  unfold State.vidRaise
  with_reducible repeat' first
    | assumption
    | (extract_lets +onlyGivenNames x; first | (have hx : Kept z x := (by unfold x; clear x; repeat' first | assumption | refine driveVid_kept ?_ | refine when_kept ?_ ?_ | refine corrected_kept ?_ | refine Kept.cond ?_ ?_ | split | (intro _ _; intros; beta_reduce)); clear_value x) | clear_value x)
    | refine driveVid_kept ?_ | refine when_kept ?_ ?_ | refine corrected_kept ?_ | refine Kept.cond ?_ ?_ | split
    | (intro _ _; intros; beta_reduce)

theorem State.vidLower_kept (h : Kept z s) :
    Kept z (State.vidLower s) := by
  unfold State.vidLower
  with_reducible repeat' first
    | assumption | refine driveVid_kept ?_ | refine Kept.cond ?_ ?_ | split

theorem State.setShed_kept {u n : Nat} (h : Kept z s) :
    Kept z (State.setShed s u n) := by
  unfold State.setShed
  with_reducible repeat' first
    | assumption
    | (extract_lets +onlyGivenNames x; first | (have hx : Kept z x := (by unfold x; clear x; repeat' first | assumption | refine fput_kept ?_ | refine when_kept ?_ ?_ | refine corrected_kept ?_ | refine releaseHr_kept ?_ | (intro _ _; intros; beta_reduce)); clear_value x) | clear_value x)
    | refine fput_kept ?_ | refine when_kept ?_ ?_ | refine corrected_kept ?_ | refine releaseHr_kept ?_
    | (intro _ _; intros; beta_reduce)

theorem State.shedEnter_kept {u : Nat} (h : Kept z s) :
    Kept z (State.shedEnter s u) := by
  unfold State.shedEnter
  with_reducible repeat' first
    | assumption | refine when_kept ?_ ?_ | refine setShed_kept ?_ | (intro _ _; intros; beta_reduce) | dsimp only

theorem State.shedLeave_kept {u : Nat} (h : Kept z s) :
    Kept z (State.shedLeave s u) := by
  unfold State.shedLeave
  with_reducible repeat' first
    | assumption | refine when_kept ?_ ?_ | refine setShed_kept ?_ | (intro _ _; intros; beta_reduce) | dsimp only

theorem State.timingLost_kept {u : Nat} (h : Kept z s) :
    Kept z (State.timingLost s u) := by
  unfold State.timingLost
  with_reducible repeat' first
    | assumption | refine when_kept ?_ ?_ | refine report_kept ?_ | (intro _ _; intros; beta_reduce)

theorem State.writeSlkCtl_kept {w : Nat} (h : Kept z s) :
    Kept z (State.writeSlkCtl s w) := by
  unfold State.writeSlkCtl
  with_reducible repeat' first
    | assumption
    | (extract_lets +onlyGivenNames x; first | (have hx : Kept z x := (by unfold x; clear x; repeat' first | assumption | refine store_kept ?_ | refine when_kept ?_ ?_ | refine forUpTo_kept ?_ ?_ | refine fput_kept ?_ | refine setShed_kept ?_ | refine showVid_kept ?_ | (intro _ _; intros; beta_reduce)); clear_value x) | clear_value x)
    | refine store_kept ?_ | refine when_kept ?_ ?_ | refine forUpTo_kept ?_ ?_ | refine fput_kept ?_
    | refine setShed_kept ?_ | refine showVid_kept ?_ | (intro _ _; intros; beta_reduce)

theorem State.writeVid_kept {w : Nat} (h : Kept z s) :
    Kept z (State.writeVid s w) := by
  unfold State.writeVid
  with_reducible repeat' first
    | assumption | refine showVid_kept ?_ | refine store_kept ?_

theorem State.stallOf_kept {u : Nat} {viol : Bool} {all : List (Nat × Nat)} (h : Kept z s) :
    Kept z (State.stallOf s u viol all) := by
  unfold State.stallOf
  with_reducible repeat' first
    | assumption
    | (extract_lets +onlyGivenNames x; first | (have hx : Kept z x := (by unfold x; clear x; repeat' first | assumption | refine when_kept ?_ ?_ | refine wr_kept ?_ | refine report_kept ?_ | refine Kept.cond ?_ ?_ | refine Kept.foldSnd ?_ ?_ | refine Kept.fold ?_ ?_ | (intro _ _; intros; beta_reduce) | split | (intro _ _; intros; beta_reduce)); clear_value x) | clear_value x)
    | refine when_kept ?_ ?_ | refine wr_kept ?_ | refine report_kept ?_ | refine Kept.cond ?_ ?_
    | refine Kept.foldSnd ?_ ?_ | refine Kept.fold ?_ ?_ | (intro _ _; intros; beta_reduce) | split

theorem State.writeClsStg_kept {q w : Nat} (h : Kept z s) :
    Kept z (State.writeClsStg s q w) := by
  unfold State.writeClsStg
  with_reducible repeat' first
    | assumption
    | (extract_lets +onlyGivenNames x; first | (have hx : Kept z x := (by unfold x; clear x; repeat' first | assumption | refine cntF_kept ?_ | refine store_kept ?_ | refine when_kept ?_ ?_ | refine fset_kept ?_ | refine clsEntryRead_kept ?_ | refine clsEntryWrite_kept ?_ | refine Kept.cond ?_ ?_ | (intro _ _; intros; beta_reduce)); clear_value x) | clear_value x)
    | refine cntF_kept ?_ | refine store_kept ?_ | refine when_kept ?_ ?_ | refine fset_kept ?_
    | refine clsEntryRead_kept ?_ | refine clsEntryWrite_kept ?_ | refine Kept.cond ?_ ?_
    | (intro _ _; intros; beta_reduce)

theorem State.clsRehash_kept {q : Nat} (h : Kept z s) :
    Kept z (State.clsRehash s q) := by
  unfold State.clsRehash
  with_reducible repeat' first
    | assumption | refine fput_kept ?_

theorem State.writeMtrPeek_kept {q w : Nat} (h : Kept z s) :
    Kept z (State.writeMtrPeek s q w) := by
  unfold State.writeMtrPeek
  with_reducible repeat' first
    | assumption | refine store_kept ?_ | refine wr_kept ?_ | dsimp only

theorem State.writeDupStg_kept {q w : Nat} (h : Kept z s) :
    Kept z (State.writeDupStg s q w) := by
  unfold State.writeDupStg
  with_reducible repeat' first
    | assumption
    | (extract_lets +onlyGivenNames x; first | (have hx : Kept z x := (by unfold x; clear x; repeat' first | assumption | refine cntF_kept ?_ | refine store_kept ?_ | refine when_kept ?_ ?_ | refine fset_kept ?_ | refine dupEntryRead_kept ?_ | refine dupEntryWrite_kept ?_ | refine Kept.cond ?_ ?_ | (intro _ _; intros; beta_reduce)); clear_value x) | clear_value x)
    | refine cntF_kept ?_ | refine store_kept ?_ | refine when_kept ?_ ?_ | refine fset_kept ?_
    | refine dupEntryRead_kept ?_ | refine dupEntryWrite_kept ?_ | refine Kept.cond ?_ ?_
    | (intro _ _; intros; beta_reduce)

theorem State.dupRehash_kept {q : Nat} (h : Kept z s) :
    Kept z (State.dupRehash s q) := by
  unfold State.dupRehash
  with_reducible repeat' first
    | assumption | refine fput_kept ?_

theorem State.passWritten_kept {p : Nat} (h : Kept z s) :
    Kept z (State.passWritten s p) := by
  unfold State.passWritten
  with_reducible repeat' first
    | assumption | refine when_kept ?_ ?_ | refine hiddenWritten_kept ?_ | (intro _ _; intros; beta_reduce)

theorem State.writeShaper_kept {k j w : Nat} (h : Kept z s) :
    Kept z (State.writeShaper s k j w) := by
  unfold State.writeShaper
  with_reducible repeat' first
    | assumption
    | (extract_lets +onlyGivenNames x; first | (have hx : Kept z x := (by unfold x; clear x; repeat' first | assumption | refine wr_kept ?_ | refine setShp_kept ?_ | refine refresh_kept ?_ | refine shpSettle_kept ?_ | refine Kept.cond ?_ ?_); clear_value x) | clear_value x)
    | refine wr_kept ?_ | refine setShp_kept ?_ | refine refresh_kept ?_ | refine shpSettle_kept ?_
    | refine Kept.cond ?_ ?_

theorem State.showShaper_kept {q : Nat} {y2 : Option Nat} (h : Kept z s) :
    Kept z (State.showShaper s q y2) := by
  unfold State.showShaper
  with_reducible repeat' first
    | assumption | refine wr_kept ?_ | split

theorem State.writeShpPeek_kept {q w : Nat} (h : Kept z s) :
    Kept z (State.writeShpPeek s q w) := by
  unfold State.writeShpPeek
  with_reducible repeat' first
    | assumption | refine store_kept ?_ | refine showShaper_kept ?_ | dsimp only

theorem State.writeGateCtl_kept {q w : Nat} (h : Kept z s) :
    Kept z (State.writeGateCtl s q w) := by
  unfold State.writeGateCtl
  with_reducible repeat' first
    | assumption | refine store_kept ?_ | refine forUpTo_kept ?_ ?_ | refine resync_kept ?_ | refine Kept.cond ?_ ?_
    | (intro _ _; intros; beta_reduce) | dsimp only

theorem State.lateArm_kept {kind n : Nat} (h : Kept z s) :
    Kept z (State.lateArm s kind n) := by
  unfold State.lateArm
  with_reducible repeat' first
    | assumption | refine corrected_kept ?_ | refine cnt_kept ?_

theorem State.armList_kept {kind p t1 : Nat} (h : Kept z s) :
    Kept z (State.armList s kind p t1) := by
  unfold State.armList
  with_reducible repeat' first
    | assumption | refine isoDrop_kept ?_ | refine onEdges_kept ?_ | refine arming_kept ?_ | refine Kept.cond ?_ ?_
    | dsimp only

theorem State.armEdge_kept {kind n t1 : Nat} (h : Kept z s) :
    Kept z (State.armEdge s kind n t1) := by
  unfold State.armEdge
  with_reducible repeat' first
    | assumption | refine armList_kept ?_ | refine armGuard_kept ?_ | refine armReopen_kept ?_ | split

theorem State.actLate_kept {kind n t1 : Nat} (h : Kept z s) :
    Kept z (State.actLate s kind n t1) := by
  unfold State.actLate
  with_reducible repeat' first
    | assumption | refine fireAt_kept ?_ | refine closeLate_kept ?_ | refine reopenLate_kept ?_
    | refine atDom_kept ?_ ?_ | refine pulseEdge_kept ?_ | refine when_kept ?_ ?_ | refine execute_kept ?_
    | refine onStar_kept ?_ ?_ | refine guardOpen_kept ?_ | split | (intro _ _; intros; beta_reduce)

theorem State.handNext_kept {bad : Bool} (h : Kept z s) :
    Kept z (State.handNext s bad) := by
  unfold State.handNext
  with_reducible repeat' first
    | assumption | exact Kept.upd (by assumption) rfl
    | (extract_lets +onlyGivenNames x; first | (have hx : Kept z x := (by unfold x; clear x; repeat' first | assumption | exact Kept.upd (by assumption) rfl | refine commitRead_kept ?_ | refine scbEvent_kept ?_ | refine scbCount_kept ?_ | refine handOver_kept ?_ | refine Kept.cond ?_ ?_ | split | refine Kept.upd ?_ rfl); clear_value x) | clear_value x)
    | refine commitRead_kept ?_ | refine scbEvent_kept ?_ | refine scbCount_kept ?_ | refine handOver_kept ?_
    | refine Kept.cond ?_ ?_ | split | refine Kept.upd ?_ rfl

theorem State.masksArrive_kept {id : Nat} (h : Kept z s) :
    Kept z (State.masksArrive s id) := by
  unfold State.masksArrive
  with_reducible repeat' first
    | assumption | refine learn_kept ?_ | refine when_kept ?_ ?_ | refine onCommit_kept ?_ | refine fabCount_kept ?_
    | refine Kept.cond ?_ ?_ | split | (intro _ _; intros; beta_reduce)

theorem State.writeMtxCtl_kept {w : Nat} (h : Kept z s) :
    Kept z (State.writeMtxCtl s w) := by
  unfold State.writeMtxCtl
  with_reducible repeat' first
    | assumption | refine store_kept ?_ | refine Kept.cond ?_ ?_ | refine Kept.upd ?_ rfl | dsimp only

theorem State.writeSealCtl_kept {n w : Nat} (h : Kept z s) :
    Kept z (State.writeSealCtl s n w) := by
  unfold State.writeSealCtl
  with_reducible repeat' first
    | assumption | refine sealCtlWritten_kept ?_ | refine store_kept ?_

theorem State.writeMacCtl_kept {p w : Nat} (h : Kept z s) :
    Kept z (State.writeMacCtl s p w) := by
  unfold State.writeMacCtl
  with_reducible repeat' first
    | assumption | refine store_kept ?_ | refine showLine_kept ?_ | refine refresh_kept ?_
    | refine rxAbandon_kept ?_ | refine cutTx_kept ?_ | refine Kept.cond ?_ ?_ | dsimp only

theorem State.writeTrim_kept {a w : Nat} (h : Kept z s) :
    Kept z (State.writeTrim s a w) := by
  unfold State.writeTrim
  with_reducible repeat' first
    | assumption | refine when_kept ?_ ?_ | refine store_kept ?_ | refine putStatus_kept ?_
    | (intro _ _; intros; beta_reduce) | dsimp only

theorem State.writeCellWord_kept {q a v : Nat} (h : Kept z s) :
    Kept z (State.writeCellWord s q a v) := by
  unfold State.writeCellWord
  with_reducible repeat' first
    | assumption | refine writeTarget_kept ?_ | refine wr_kept ?_ | refine nitCount_kept ?_ | refine Kept.cond ?_ ?_
    | dsimp only

theorem State.writeMap_kept {a v : Nat} (h : Kept z s) :
    Kept z (State.writeMap s a v) := by
  unfold State.writeMap
  with_reducible repeat' first
    | assumption | refine wr_kept ?_ | refine Kept.cond ?_ ?_

theorem State.writeRingWord_kept {r o a v : Nat} (h : Kept z s) :
    Kept z (State.writeRingWord s r o a v) := by
  unfold State.writeRingWord
  with_reducible repeat' first
    | assumption | refine writeRingCtl_kept ?_ | refine writeRingSts_kept ?_ | refine writeRingHead_kept ?_
    | refine store_kept ?_ | refine Kept.cond ?_ ?_

theorem State.writeGlbPwr_kept {a v : Nat} (h : Kept z s) :
    Kept z (State.writeGlbPwr s a v) := by
  unfold State.writeGlbPwr
  with_reducible repeat' first
    | assumption | refine writeSlkCtl_kept ?_ | refine writeVid_kept ?_ | refine writeRingWord_kept ?_
    | refine writeNtcCons_kept ?_ | refine writePwrCtl_kept ?_ | refine writePwrOn_kept ?_
    | refine writePwrHold_kept ?_ | refine store_kept ?_ | refine Kept.cond ?_ ?_

theorem State.writeQch_kept {a v : Nat} (h : Kept z s) :
    Kept z (State.writeQch s a v) := by
  unfold State.writeQch
  with_reducible repeat' first
    | assumption | refine writeQchCtl_kept ?_ | refine writeFsw_kept ?_ | refine writeInj_kept ?_
    | refine writeUnit_kept ?_ | refine driveFault_kept ?_ | refine store_kept ?_ | refine Kept.cond ?_ ?_

theorem State.writeInv_kept {a v : Nat} (h : Kept z s) :
    Kept z (State.writeInv s a v) := by
  unfold State.writeInv
  with_reducible repeat' first
    | assumption | refine writeInvCtl_kept ?_ | refine timeSet_kept ?_ | refine timeAdjust_kept ?_
    | refine writeRateSet_kept ?_ | refine writeVtrim_kept ?_ | refine writeServoLim_kept ?_
    | refine writePtpCtl_kept ?_ | refine writeTcap_kept ?_ | refine writePulse_kept ?_ | refine writePctl_kept ?_
    | refine store_kept ?_ | refine Kept.cond ?_ ?_

theorem State.writeAnlSupBrz_kept {q : Requester} {a v : Nat} (h : Kept z s) :
    Kept z (State.writeAnlSupBrz s q a v) := by
  unfold State.writeAnlSupBrz
  with_reducible repeat' first
    | assumption | refine writeAnlCtl_kept ?_ | refine writeTrim_kept ?_ | refine writeSupCtl_kept ?_
    | refine writeSupExt_kept ?_ | refine writeBrzCtl_kept ?_ | refine softRecord_kept ?_ | refine store_kept ?_
    | refine Kept.cond ?_ ?_

theorem State.writeMatrix_kept {a v : Nat} (h : Kept z s) :
    Kept z (State.writeMatrix s a v) := by
  unfold State.writeMatrix
  with_reducible repeat' first
    | assumption | refine writeMtxCtl_kept ?_ | refine writeBmvCtl_kept ?_ | refine writeSealCtl_kept ?_
    | refine when_kept ?_ ?_ | refine sealStart_kept ?_ | refine pulse_kept ?_ | refine store_kept ?_
    | refine Kept.cond ?_ ?_ | (intro _ _; intros; beta_reduce)

theorem State.writeCbs_kept {a v : Nat} (h : Kept z s) :
    Kept z (State.writeCbs s a v) := by
  unfold State.writeCbs
  with_reducible repeat' first
    | assumption | refine writeMode_kept ?_ | refine when_kept ?_ ?_ | refine writeCbCtl_kept ?_
    | refine writeModeReq_kept ?_ | refine writeSpokeEn_kept ?_ | refine store_kept ?_ | refine hostUnblock_kept ?_
    | refine Kept.cond ?_ ?_ | (intro _ _; intros; beta_reduce) | dsimp only

theorem State.writeFabScb_kept {a v : Nat} (h : Kept z s) :
    Kept z (State.writeFabScb s a v) := by
  unfold State.writeFabScb
  with_reducible repeat' first
    | assumption | refine writeFabCtl_kept ?_ | refine writeFabLoad_kept ?_ | refine writeScbCtl_kept ?_
    | refine writeScbAct_kept ?_ | refine store_kept ?_ | refine writeSched_kept ?_ | refine writeMap_kept ?_
    | refine Kept.cond ?_ ?_

theorem State.writeSpine_kept {q : Requester} {a v : Nat} (h : Kept z s) :
    Kept z (State.writeSpine s q a v) := by
  unfold State.writeSpine
  with_reducible repeat' first
    | assumption | refine writeGlbPwr_kept ?_ | refine writeQch_kept ?_ | refine writeInv_kept ?_
    | refine writeAnlSupBrz_kept ?_ | refine writeMatrix_kept ?_ | refine writeCbs_kept ?_
    | refine writeFabScb_kept ?_ | refine Kept.cond ?_ ?_

theorem State.writeMacWord_kept {q o a v : Nat} (h : Kept z s) :
    Kept z (State.writeMacWord s q o a v) := by
  unfold State.writeMacWord
  with_reducible repeat' first
    | assumption
    | (extract_lets +onlyGivenNames x; first | (have hx : Kept z x := (by unfold x; clear x; repeat' first | assumption | refine store_kept ?_ | refine writeMacCtl_kept ?_ | refine showStopped_kept ?_ | refine writePeCtl_kept ?_ | refine writePcsCtl_kept ?_ | refine Kept.cond ?_ ?_ | split); clear_value x) | clear_value x)
    | refine store_kept ?_ | refine writeMacCtl_kept ?_ | refine showStopped_kept ?_ | refine writePeCtl_kept ?_
    | refine writePcsCtl_kept ?_ | refine Kept.cond ?_ ?_ | split

theorem State.writeClsWord_kept {q o a v : Nat} (h : Kept z s) :
    Kept z (State.writeClsWord s q o a v) := by
  unfold State.writeClsWord
  with_reducible repeat' first
    | assumption | refine writeClsStg_kept ?_ | refine clsRehash_kept ?_ | refine store_kept ?_
    | refine writeMtrPeek_kept ?_ | refine writeStream_kept ?_ | refine writeMeter_kept ?_ | refine Kept.cond ?_ ?_

theorem State.writeGateWord_kept {q o a v : Nat} (h : Kept z s) :
    Kept z (State.writeGateWord s q o a v) := by
  unfold State.writeGateWord
  with_reducible repeat' first
    | assumption | refine writeGateCtl_kept ?_ | refine writeShpPeek_kept ?_ | refine refresh_kept ?_
    | refine store_kept ?_ | refine writeShaper_kept ?_ | refine Kept.cond ?_ ?_ | split

theorem State.writeDupWord_kept {q o a v : Nat} (h : Kept z s) :
    Kept z (State.writeDupWord s q o a v) := by
  unfold State.writeDupWord
  with_reducible repeat' first
    | assumption | refine writeDupStg_kept ?_ | refine dupRehash_kept ?_ | refine store_kept ?_
    | refine writeFrer_kept ?_ | refine Kept.cond ?_ ?_

theorem State.writeNitGrf_kept {q o a v : Nat} (h : Kept z s) :
    Kept z (State.writeNitGrf s q o a v) := by
  unfold State.writeNitGrf
  with_reducible repeat' first
    | assumption | refine writeNitCtl_kept ?_ | refine writeCellCmd_kept ?_ | refine orw_kept ?_
    | refine writeGrfCtl_kept ?_ | refine lldArmAll_kept ?_ | refine store_kept ?_ | refine lldArm_kept ?_
    | refine Kept.cond ?_ ?_

theorem State.writeWindow_kept {q a v : Nat} (h : Kept z s) :
    Kept z (State.writeWindow s q a v) := by
  unfold State.writeWindow
  with_reducible repeat' first
    | assumption | refine writeMacWord_kept ?_ | refine writeClsWord_kept ?_ | refine writeGateWord_kept ?_
    | refine writeDupWord_kept ?_ | refine writeRingWord_kept ?_ | refine store_kept ?_ | refine writeNitGrf_kept ?_
    | refine writeCellWord_kept ?_ | refine writeSource_kept ?_ | refine Kept.cond ?_ ?_ | dsimp only

theorem State.writeReg_kept {q : Requester} {a v : Nat} (h : Kept z s) :
    Kept z (State.writeReg s q a v) := by
  unfold State.writeReg
  with_reducible repeat' first
    | assumption | refine writeSpine_kept ?_ | refine writeWindow_kept ?_ | refine Kept.cond ?_ ?_

theorem State.memRead_kept {key n : Nat} (h : Kept z s) :
    Kept z (State.memRead s key n).1 := by
  unfold State.memRead
  with_reducible repeat' first
    | assumption | refine report_kept ?_ | refine useFree_kept ?_ | refine Kept.cond ?_ ?_
    | refine Kept.condFst ?_ ?_ | dsimp only

theorem State.capture_kept {q : Requester} {a : Nat} (h : Kept z s) :
    Kept z (State.capture s q a) := by
  unfold State.capture
  with_reducible repeat' first
    | assumption | refine eachOf_kept ?_ ?_ | refine setShadow_kept ?_ | (intro _ _; intros; beta_reduce)

theorem State.readReg_kept {q : Requester} {a : Nat} (h : Kept z s) :
    Kept z (State.readReg s q a).1 := by
  unfold State.readReg
  with_reducible repeat' first
    | assumption
    | (extract_lets +onlyGivenNames x; first | (have hx : Kept z x := (by unfold x; clear x; repeat' first | assumption | refine memRead_kept ?_ | refine capture_kept ?_ | split | dsimp only); clear_value x) | (have hx : Kept z x.1 := (by unfold x; clear x; repeat' first | assumption | refine memRead_kept ?_ | refine capture_kept ?_ | split | dsimp only); clear_value x) | clear_value x)
    | refine memRead_kept ?_ | refine capture_kept ?_ | split | dsimp only

theorem State.writeWhole_kept {q : Requester} {a v : Nat} (h : Kept z s) :
    Kept z (State.writeWhole s q a v) := by
  unfold State.writeWhole
  with_reducible repeat' first
    | assumption
    | (extract_lets +onlyGivenNames x; first | (have hx : Kept z x := (by unfold x; clear x; repeat' first | assumption | refine when_kept ?_ ?_ | refine stage_kept ?_ | refine writeReg_kept ?_ | refine applyStaged_kept ?_ | refine memWritten_kept ?_ | split | (intro _ _; intros; beta_reduce)); clear_value x) | clear_value x)
    | refine when_kept ?_ ?_ | refine stage_kept ?_ | refine writeReg_kept ?_ | refine applyStaged_kept ?_
    | refine memWritten_kept ?_ | split | (intro _ _; intros; beta_reduce)

theorem State.writeReached_kept {q : Requester} {a v be : Nat} (h : Kept z s) :
    Kept z (State.writeReached s q a v be) := by
  unfold State.writeReached
  with_reducible repeat' first
    | assumption | refine writeWhole_kept ?_ | refine Kept.cond ?_ ?_ | split

theorem State.seqError_kept {addr : Nat} (h : Kept z s) :
    Kept z (State.seqError s addr) := by
  unfold State.seqError
  with_reducible repeat' first
    | assumption | refine eachOf_kept ?_ ?_ | refine when_kept ?_ ?_ | refine endStep_kept ?_
    | (intro _ _; intros; beta_reduce)

theorem State.refuse_kept {m addr : Nat} {write iso : Bool} (h : Kept z s) :
    Kept z (State.refuse s m addr write iso) := by
  unfold State.refuse
  with_reducible repeat' first
    | assumption | refine when_kept ?_ ?_ | refine defAccess_kept ?_ | refine seqError_kept ?_
    | (intro _ _; intros; beta_reduce)

theorem State.busWrite_kept {m : Nat} {q : Requester} {a v be : Nat} (h : Kept z s) :
    Kept z (State.busWrite s m q a v be).1 := by
  unfold State.busWrite
  with_reducible repeat' first
    | assumption | refine reportReads_kept ?_ | refine writeReached_kept ?_ | refine refuse_kept ?_ | split
    | dsimp only

theorem State.busRead_kept {m : Nat} {q : Requester} {a : Nat} (h : Kept z s) :
    Kept z (State.busRead s m q a).1 := by
  unfold State.busRead
  with_reducible repeat' first
    | assumption
    | (extract_lets +onlyGivenNames x; first | (have hx : Kept z x := (by unfold x; clear x; repeat' first | assumption | refine readReg_kept ?_ | refine refuse_kept ?_ | split | dsimp only); clear_value x) | (have hx : Kept z x.1 := (by unfold x; clear x; repeat' first | assumption | refine readReg_kept ?_ | refine refuse_kept ?_ | split | dsimp only); clear_value x) | clear_value x)
    | refine readReg_kept ?_ | refine refuse_kept ?_ | split | dsimp only

theorem State.msixUnmask_kept {h1 v : Nat} (h : Kept z s) :
    Kept z (State.msixUnmask s h1 v) := by
  unfold State.msixUnmask
  with_reducible repeat' first
    | assumption | refine emit_kept ?_ | refine setMsix_kept ?_ | refine Kept.cond ?_ ?_ | dsimp only

theorem State.bar2Write_kept {h1 o v be : Nat} (h : Kept z s) :
    Kept z (State.bar2Write s h1 o v be) := by
  unfold State.bar2Write
  with_reducible repeat' first
    | assumption | refine when_kept ?_ ?_ | refine ringDoorbell_kept ?_ | refine setMsix_kept ?_
    | refine msixUnmask_kept ?_ | refine Kept.cond ?_ ?_ | (intro _ _; intros; beta_reduce) | dsimp only

theorem State.regWrite_kept {q : Requester} {a v be : Nat} (h : Kept z s) :
    Kept z (State.regWrite s q a v be) := by
  unfold State.regWrite
  with_reducible repeat' first
    | assumption | refine when_kept ?_ ?_ | refine busWrite_kept ?_ | refine granting_kept ?_
    | (intro _ _; intros; beta_reduce) | dsimp only

theorem State.answer_kept {q : Requester} {addr be n : Nat} {err : Bool} (h : Kept z s) :
    Kept z (State.answer s q addr be n err) := by
  unfold State.answer
  with_reducible repeat' first
    | assumption | refine emit_kept ?_ | refine Kept.cond ?_ ?_

theorem State.regRead_kept {q : Requester} {a be : Nat} (h : Kept z s) :
    Kept z (State.regRead s q a be) := by
  unfold State.regRead
  with_reducible repeat' first
    | assumption | refine when_kept ?_ ?_ | refine busRead_kept ?_ | refine granting_kept ?_ | refine answer_kept ?_
    | (intro _ _; intros; beta_reduce) | dsimp only

theorem State.barRead_kept {q : Requester} {h1 bar o be : Nat} (h : Kept z s) :
    Kept z (State.barRead s q h1 bar o be) := by
  unfold State.barRead
  with_reducible repeat' first
    | assumption | refine emit_kept ?_ | refine Kept.cond ?_ ?_

theorem State.onAnneal_kept {f : State → State} (h : Kept z s) (hf : ∀ t, Kept z t → Kept z (f t)) :
    Kept z (State.onAnneal s f) := by
  unfold State.onAnneal
  with_reducible repeat' first
    | assumption | exact hf _ (by assumption) | refine when_kept ?_ ?_ | (intro _ _; intros; beta_reduce) | apply hf

theorem State.intWrite_kept {m : Nat} {q : Requester} {addr v be : Nat} (h : Kept z s) :
    Kept z (State.intWrite s m q addr v be).1 := by
  unfold State.intWrite
  with_reducible repeat' first
    | assumption | exact Kept.upd (by assumption) rfl
    | (extract_lets +onlyGivenNames x; first | (have hx : Kept z x := (by unfold x; clear x; repeat' first | assumption | exact Kept.upd (by assumption) rfl | refine Kept.codePut ?_ | refine busWrite_kept ?_ | refine refuse_kept ?_ | refine memWritten_kept ?_ | refine Kept.cond ?_ ?_ | refine Kept.condFst ?_ ?_ | split | refine Kept.upd ?_ rfl | dsimp only); clear_value x) | (have hx : Kept z x.1 := (by unfold x; clear x; repeat' first | assumption | exact Kept.upd (by assumption) rfl | refine Kept.codePut ?_ | refine busWrite_kept ?_ | refine refuse_kept ?_ | refine memWritten_kept ?_ | refine Kept.cond ?_ ?_ | refine Kept.condFst ?_ ?_ | split | refine Kept.upd ?_ rfl | dsimp only); clear_value x) | clear_value x)
    | refine Kept.codePut ?_ | refine busWrite_kept ?_ | refine refuse_kept ?_ | refine memWritten_kept ?_
    | refine Kept.cond ?_ ?_ | refine Kept.condFst ?_ ?_ | split | refine Kept.upd ?_ rfl | dsimp only

theorem State.intRead_kept {m : Nat} {q : Requester} {addr : Nat} (h : Kept z s) :
    Kept z (State.intRead s m q addr).1 := by
  unfold State.intRead
  with_reducible repeat' first
    | assumption
    | (extract_lets +onlyGivenNames x; first | (have hx : Kept z x := (by unfold x; clear x; repeat' first | assumption | refine busRead_kept ?_ | refine refuse_kept ?_ | refine memRead_kept ?_ | refine when_kept ?_ ?_ | refine fset_kept ?_ | refine Kept.cond ?_ ?_ | refine Kept.condFst ?_ ?_ | split | (intro _ _; intros; beta_reduce) | dsimp only); clear_value x) | (have hx : Kept z x.1 := (by unfold x; clear x; repeat' first | assumption | refine busRead_kept ?_ | refine refuse_kept ?_ | refine memRead_kept ?_ | refine when_kept ?_ ?_ | refine fset_kept ?_ | refine Kept.cond ?_ ?_ | refine Kept.condFst ?_ ?_ | split | (intro _ _; intros; beta_reduce) | dsimp only); clear_value x) | clear_value x)
    | refine busRead_kept ?_ | refine refuse_kept ?_ | refine memRead_kept ?_ | refine when_kept ?_ ?_
    | refine fset_kept ?_ | refine Kept.cond ?_ ?_ | refine Kept.condFst ?_ ?_ | split
    | (intro _ _; intros; beta_reduce) | dsimp only

theorem State.burstWords_kept {m : Nat} {q : Requester} {write : Bool} {addr : Nat} {y5 : List (Nat × Nat)} (h : Kept z s) :
    Kept z (State.burstWords s m q write addr y5) := by
  induction y5 generalizing m q write addr s with
  | nil => exact h
  | cons e l ih =>
  rw [State.burstWords]
  with_reducible repeat' first
    | assumption | refine ih ?_ | refine answer_kept ?_ | refine intRead_kept ?_ | refine intWrite_kept ?_
    | refine Kept.cond ?_ ?_ | refine Kept.condFst ?_ ?_ | split | dsimp only

theorem State.codeStop_kept {b : Burst} (h : Kept z s) :
    Kept z (State.codeStop s b) := by
  unfold State.codeStop
  with_reducible repeat' first
    | assumption | refine when_kept ?_ ?_ | refine fset_kept ?_ | (intro _ _; intros; beta_reduce)

theorem State.moverWords_kept {addr y2 : Nat} (h : Kept z s) :
    Kept z (State.moverWords s addr y2).1 := by
  induction y2 generalizing addr s with
  | zero => exact h
  | succ n ih =>
  rw [State.moverWords]
  with_reducible repeat' first
    | assumption | refine ih ?_ | refine intRead_kept ?_ | split | dsimp only

theorem State.moverRead_kept {addr len : Nat} (h : Kept z s) :
    Kept z (State.moverRead s addr len).1 := by
  unfold State.moverRead
  with_reducible repeat' first
    | assumption | refine moverWords_kept ?_ | dsimp only

theorem State.moverWrite_kept {w at' : Nat} {l : List Nat} {y4 : Nat} (h : Kept z s) :
    Kept z (State.moverWrite s w at' l y4).1 := by
  induction y4 generalizing w at' l s with
  | zero => exact h
  | succ n ih =>
  rw [State.moverWrite]
  with_reducible repeat' first
    | assumption | refine ih ?_
    | (extract_lets +onlyGivenNames x; first | (have hx : Kept z x := (by unfold x; clear x; repeat' first | assumption | refine ih ?_ | refine intWrite_kept ?_ | split | dsimp only); clear_value x) | (have hx : Kept z x.1 := (by unfold x; clear x; repeat' first | assumption | refine ih ?_ | refine intWrite_kept ?_ | split | dsimp only); clear_value x) | clear_value x)
    | refine intWrite_kept ?_ | split | dsimp only

theorem State.issueWrite_kept {n dst : Nat} {l : List Nat} (h : Kept z s) :
    Kept z (State.issueWrite s n dst l) := by
  unfold State.issueWrite
  with_reducible repeat' first
    | assumption
    | (extract_lets +onlyGivenNames x; first | (have hx : Kept z x := (by unfold x; clear x; repeat' first | assumption | refine granting_kept ?_ | refine emit_kept ?_ | refine moverWrite_kept ?_ | refine outWr_kept ?_ | refine setMover_kept ?_ | split | dsimp only); clear_value x) | (have hx : Kept z x.1 := (by unfold x; clear x; repeat' first | assumption | refine granting_kept ?_ | refine emit_kept ?_ | refine moverWrite_kept ?_ | refine outWr_kept ?_ | refine setMover_kept ?_ | split | dsimp only); clear_value x) | clear_value x)
    | refine granting_kept ?_ | refine emit_kept ?_ | refine moverWrite_kept ?_ | refine outWr_kept ?_
    | refine setMover_kept ?_ | split | dsimp only

theorem State.issueOne_kept {n : Nat} (h : Kept z s) :
    Kept z (State.issueOne s n) := by
  unfold State.issueOne
  with_reducible repeat' first
    | assumption
    | (extract_lets +onlyGivenNames x; first | (have hx : Kept z x := (by unfold x; clear x; repeat' first | assumption | refine issueWrite_kept ?_ | refine setMover_kept ?_ | refine issueRead_kept ?_ | refine Kept.cond ?_ ?_ | split); clear_value x) | clear_value x)
    | refine issueWrite_kept ?_ | refine setMover_kept ?_ | refine issueRead_kept ?_ | refine Kept.cond ?_ ?_
    | split

theorem State.issueBursts_kept {y1 : Nat} (h : Kept z s) :
    Kept z (State.issueBursts s y1) := by
  induction y1 generalizing s with
  | zero => exact h
  | succ n ih =>
  rw [State.issueBursts]
  with_reducible repeat' first
    | assumption | refine ih ?_ | refine issueOne_kept ?_ | split | refine Kept.upd ?_ rfl

theorem State.countHeld_kept {n : Nat} (h : Kept z s) :
    Kept z (State.countHeld s n) := by
  unfold State.countHeld
  with_reducible repeat' first
    | assumption | refine eachOf_kept ?_ ?_ | refine cnt_kept ?_ | refine setMover_kept ?_ | refine Kept.cond ?_ ?_
    | (intro _ _; intros; beta_reduce) | dsimp only

theorem State.moversGo_kept (h : Kept z s) :
    Kept z (State.moversGo s) := by
  unfold State.moversGo
  with_reducible repeat' first
    | assumption | refine forUpTo_kept ?_ ?_ | refine when_kept ?_ ?_ | refine setMover_kept ?_
    | refine moverCheck_kept ?_ | refine countHeld_kept ?_ | refine issueBursts_kept ?_
    | (intro _ _; intros; beta_reduce) | dsimp only

theorem State.readReturns_kept {n : Nat} {data : List Nat} {err : Bool} (h : Kept z s) :
    Kept z (State.readReturns s n data err) := by
  unfold State.readReturns
  with_reducible repeat' first
    | assumption
    | (extract_lets +onlyGivenNames x; first | (have hx : Kept z x := (by unfold x; clear x; repeat' first | assumption | refine outRd_kept ?_ | refine setMover_kept ?_ | refine moverRead_kept ?_ | refine moversGo_kept ?_ | refine Kept.cond ?_ ?_ | refine Kept.condFst ?_ ?_ | split | dsimp only); clear_value x) | (have hx : Kept z x.1 := (by unfold x; clear x; repeat' first | assumption | refine outRd_kept ?_ | refine setMover_kept ?_ | refine moverRead_kept ?_ | refine moversGo_kept ?_ | refine Kept.cond ?_ ?_ | refine Kept.condFst ?_ ?_ | split | dsimp only); clear_value x) | clear_value x)
    | refine outRd_kept ?_ | refine setMover_kept ?_ | refine moverRead_kept ?_ | refine moversGo_kept ?_
    | refine Kept.cond ?_ ?_ | refine Kept.condFst ?_ ?_ | split | dsimp only

theorem State.writeAnswered_kept {n : Nat} {err : Bool} (h : Kept z s) :
    Kept z (State.writeAnswered s n err) := by
  unfold State.writeAnswered
  with_reducible repeat' first
    | assumption
    | (extract_lets +onlyGivenNames x; first | (have hx : Kept z x := (by unfold x; clear x; repeat' first | assumption | refine outWr_kept ?_ | refine setMover_kept ?_ | refine wr_kept ?_ | refine moversGo_kept ?_ | refine Kept.cond ?_ ?_ | split); clear_value x) | clear_value x)
    | refine outWr_kept ?_ | refine setMover_kept ?_ | refine wr_kept ?_ | refine moversGo_kept ?_
    | refine Kept.cond ?_ ?_ | split

theorem State.resumed_kept {t : State} (h : Kept z t) : Kept z (State.resumed s t) := by
  unfold State.resumed
  exact when_kept h fun u hu => moversGo_kept hu

theorem State.servicePass_kept (h : Kept z s) :
    Kept z (State.servicePass s) := by
  unfold State.servicePass
  with_reducible repeat' first
    | assumption | refine reportReads_kept ?_ | refine hiddenRead_kept ?_ | refine hiddenWritten_kept ?_

theorem State.serviceAnswer_kept {cut : Option Nat} {l : List Nat} (h : Kept z s) :
    Kept z (State.serviceAnswer s cut l) := by
  unfold State.serviceAnswer
  with_reducible repeat' first
    | assumption | refine emit_kept ?_ | refine when_kept ?_ ?_ | split | (intro _ _; intros; beta_reduce)

theorem State.serviceAccess_kept {x : SvcAccess} (h : Kept z s) :
    Kept z (State.serviceAccess s x) := by
  unfold State.serviceAccess
  with_reducible repeat' first
    | assumption
    | (extract_lets +onlyGivenNames x; first | (have hx : Kept z x := (by unfold x; clear x; repeat' first | assumption | refine intWrite_kept ?_ | refine granting_kept ?_ | refine refuse_kept ?_ | refine resumed_kept ?_ | refine servicePass_kept ?_ | refine serviceAnswer_kept ?_ | refine intRead_kept ?_ | refine Kept.cond ?_ ?_ | refine Kept.condFst ?_ ?_ | split | dsimp only); clear_value x) | (have hx : Kept z x.1 := (by unfold x; clear x; repeat' first | assumption | refine intWrite_kept ?_ | refine granting_kept ?_ | refine refuse_kept ?_ | refine resumed_kept ?_ | refine servicePass_kept ?_ | refine serviceAnswer_kept ?_ | refine intRead_kept ?_ | refine Kept.cond ?_ ?_ | refine Kept.condFst ?_ ?_ | split | dsimp only); clear_value x) | clear_value x)
    | refine intWrite_kept ?_ | refine granting_kept ?_ | refine refuse_kept ?_ | refine resumed_kept ?_
    | refine servicePass_kept ?_ | refine serviceAnswer_kept ?_ | refine intRead_kept ?_ | refine Kept.cond ?_ ?_
    | refine Kept.condFst ?_ ?_ | split | dsimp only

theorem State.serviceGo_kept (h : Kept z s) :
    Kept z (State.serviceGo s) := by
  unfold State.serviceGo
  with_reducible repeat' first
    | assumption | refine eachOf_kept ?_ ?_ | refine serviceAccess_kept ?_ | refine Kept.upd ?_ rfl
    | (intro _ _; intros; beta_reduce)

theorem State.serviceTake_kept {x : SvcAccess} {waiting : Nat} (h : Kept z s) :
    Kept z (State.serviceTake s x waiting) := by
  unfold State.serviceTake
  with_reducible repeat' first
    | assumption | refine serviceAnswer_kept ?_ | refine serviceAccess_kept ?_ | refine serviceGo_kept ?_
    | refine Kept.cond ?_ ?_ | refine Kept.upd ?_ rfl | dsimp only

theorem State.burst_kept {b : Burst} (h : Kept z s) :
    Kept z (State.burst s b) := by
  unfold State.burst
  with_reducible repeat' first
    | assumption
    | (extract_lets +onlyGivenNames x; first | (have hx : Kept z x := (by unfold x; clear x; repeat' first | assumption | refine transEnd_kept ?_ | refine fput_kept ?_ | refine cnt_kept ?_ | refine grant_kept ?_ | refine moversGo_kept ?_ | refine outstanding_kept ?_ | refine resumed_kept ?_ | refine codeStop_kept ?_ | refine burstWords_kept ?_ | refine Kept.cond ?_ ?_ | split); clear_value x) | clear_value x)
    | refine transEnd_kept ?_ | refine fput_kept ?_ | refine cnt_kept ?_ | refine grant_kept ?_
    | refine moversGo_kept ?_ | refine outstanding_kept ?_ | refine resumed_kept ?_ | refine codeStop_kept ?_
    | refine burstWords_kept ?_ | refine Kept.cond ?_ ?_ | split

theorem State.onFabric_kept {f : State → State} (h : Kept z s) (hf : ∀ t, Kept z t → Kept z (f t)) :
    Kept z (State.onFabric s f) := by
  unfold State.onFabric
  with_reducible repeat' first
    | assumption | exact hf _ (by assumption) | refine when_kept ?_ ?_ | (intro _ _; intros; beta_reduce) | apply hf

theorem State.onLink_kept {q : Nat} {f : State → State} (h : Kept z s) (hf : ∀ t, Kept z t → Kept z (f t)) :
    Kept z (State.onLink s q f) := by
  unfold State.onLink
  with_reducible repeat' first
    | assumption | exact hf _ (by assumption) | refine atDom_kept ?_ ?_ | (intro _ _; intros; beta_reduce)
    | apply hf

theorem State.tapSelect_kept {ir : Nat} (h : Kept z s) :
    Kept z (State.tapSelect s ir) := by
  unfold State.tapSelect
  with_reducible repeat' first
    | assumption | refine Kept.upd ?_ rfl

theorem State.boundaryScan_kept {v : Option Nat} (h : Kept z s) :
    Kept z (State.boundaryScan s v) := by
  unfold State.boundaryScan
  with_reducible repeat' first
    | assumption | refine useFree_kept ?_ | refine emit_kept ?_ | split | refine Kept.upd ?_ rfl

end Sys2Proof.Machine
end

