-- ==== Sys2Proof/Laws/KeptExec.lean ====
section
/-! SUPPORT. Every command is answered by a next state, which keeps the queue and a sound state: one lemma per meaning. -/

set_option Elab.async false

namespace Sys2Proof.Machine

variable {z s : State}

theorem execTimePllUnlock_kept (h : Kept z s) :
    Answered z (execTimePllUnlock s) := by
  unfold execTimePllUnlock
  refine ⟨_, rfl, ?_⟩
  with_reducible repeat' first
    | assumption | refine State.atDom_kept ?_ ?_ | refine State.report_kept ?_ | refine State.fset_kept ?_
    | refine Kept.cond ?_ ?_ | (intro _ _; intros; beta_reduce)

theorem execOscInLoss_kept (h : Kept z s) :
    Answered z (execOscInLoss s) := by
  unfold execOscInLoss
  refine ⟨_, rfl, ?_⟩
  with_reducible repeat' first
    | assumption | refine State.atDom_kept ?_ ?_ | refine State.report_kept ?_ | refine State.fset_kept ?_
    | (intro _ _; intros; beta_reduce)

theorem execFollowerBroadcast_kept {skews : List Int} (h : Kept z s) :
    Answered z (execFollowerBroadcast skews s) := by
  unfold execFollowerBroadcast
  refine ⟨_, rfl, ?_⟩
  with_reducible repeat' first
    | assumption | refine State.atDom_kept ?_ ?_ | refine State.followAll_kept ?_ | (intro _ _; intros; beta_reduce)

theorem execTimeSet_kept {req : Requester} {w : Nat} (h : Kept z s) :
    Answered z (execTimeSet req w s) := by
  unfold execTimeSet
  refine ⟨_, rfl, ?_⟩
  with_reducible repeat' first
    | assumption | refine State.atDom_kept ?_ ?_ | refine State.timeSet_kept ?_ | refine State.applyStaged_kept ?_
    | (intro _ _; intros; beta_reduce)

theorem execTimeAdjustStep_kept {req : Requester} {w : Nat} (h : Kept z s) :
    Answered z (execTimeAdjustStep req w s) := by
  unfold execTimeAdjustStep
  refine ⟨_, rfl, ?_⟩
  with_reducible repeat' first
    | assumption | refine State.atDom_kept ?_ ?_ | refine State.timeAdjust_kept ?_
    | refine State.applyStaged_kept ?_ | (intro _ _; intros; beta_reduce)

theorem execTimeAdjustSlew_kept {req : Requester} {w : Nat} (h : Kept z s) :
    Answered z (execTimeAdjustSlew req w s) := by
  unfold execTimeAdjustSlew
  refine ⟨_, rfl, ?_⟩
  with_reducible repeat' first
    | assumption | refine State.atDom_kept ?_ ?_ | refine State.timeAdjust_kept ?_
    | refine State.applyStaged_kept ?_ | (intro _ _; intros; beta_reduce)

theorem execSlewAbsorbed_kept (h : Kept z s) :
    Answered z (execSlewAbsorbed s) := by
  unfold execSlewAbsorbed
  refine ⟨_, rfl, ?_⟩
  with_reducible repeat' first
    | assumption | refine State.atDom_kept ?_ ?_ | refine State.when_kept ?_ ?_ | refine State.setSlew_kept ?_
    | (intro _ _; intros; beta_reduce)

theorem execHistoryPush_kept (h : Kept z s) :
    Answered z (execHistoryPush s) := by
  unfold execHistoryPush
  refine ⟨_, rfl, ?_⟩
  with_reducible repeat' first
    | assumption | refine State.atDom_kept ?_ ?_ | refine State.hiddenPass_kept ?_ | refine State.histPush_kept ?_
    | (intro _ _; intros; beta_reduce)

theorem execTcapEdge_kept {n : Nat} {rising : Bool} {t16 : Nat} (h : Kept z s) :
    Answered z (execTcapEdge n rising t16 s) := by
  unfold execTcapEdge
  refine ⟨_, rfl, ?_⟩
  with_reducible repeat' first
    | assumption | refine State.atDom_kept ?_ ?_ | refine State.tcapEdge_kept ?_ | (intro _ _; intros; beta_reduce)

theorem execTcapArm_kept {n w : Nat} (h : Kept z s) :
    Answered z (execTcapArm n w s) := by
  unfold execTcapArm
  refine ⟨_, rfl, ?_⟩
  with_reducible repeat' first
    | assumption | refine State.atDom_kept ?_ ?_ | refine State.writeTcap_kept ?_ | (intro _ _; intros; beta_reduce)

theorem execPulseEnable_kept {n w : Nat} (h : Kept z s) :
    Answered z (execPulseEnable n w s) := by
  unfold execPulseEnable
  refine ⟨_, rfl, ?_⟩
  with_reducible repeat' first
    | assumption | refine State.atDom_kept ?_ ?_ | refine State.writePulse_kept ?_
    | (intro _ _; intros; beta_reduce)

theorem execPulseDisable_kept {n w : Nat} (h : Kept z s) :
    Answered z (execPulseDisable n w s) := by
  unfold execPulseDisable
  refine ⟨_, rfl, ?_⟩
  with_reducible repeat' first
    | assumption | refine State.atDom_kept ?_ ?_ | refine State.writePulse_kept ?_
    | (intro _ _; intros; beta_reduce)

theorem execPulseEdge_kept {n : Nat} (h : Kept z s) :
    Answered z (execPulseEdge n s) := by
  unfold execPulseEdge
  refine ⟨_, rfl, ?_⟩
  with_reducible repeat' first
    | assumption | refine State.atDom_kept ?_ ?_ | refine State.pulseEdge_kept ?_ | (intro _ _; intros; beta_reduce)

theorem execHistClr_kept {w : Nat} (h : Kept z s) :
    Answered z (execHistClr w s) := by
  unfold execHistClr
  refine ⟨_, rfl, ?_⟩
  with_reducible repeat' first
    | assumption | refine State.atDom_kept ?_ ?_ | refine State.writeInvCtl_kept ?_
    | (intro _ _; intros; beta_reduce)

theorem execServoEnable_kept {w : Nat} (h : Kept z s) :
    Answered z (execServoEnable w s) := by
  unfold execServoEnable
  refine ⟨_, rfl, ?_⟩
  with_reducible repeat' first
    | assumption | refine State.atDom_kept ?_ ?_ | refine State.writeInvCtl_kept ?_
    | (intro _ _; intros; beta_reduce)

theorem execReferenceLost_kept (h : Kept z s) :
    Answered z (execReferenceLost s) := by
  unfold execReferenceLost
  refine ⟨_, rfl, ?_⟩
  with_reducible repeat' first
    | assumption | refine State.atDom_kept ?_ ?_ | refine State.loseReference_kept ?_
    | (intro _ _; intros; beta_reduce)

theorem execIrigFrameDecoded_kept {f : IrigFrame} (h : Kept z s) :
    Answered z (execIrigFrameDecoded f s) := by
  unfold execIrigFrameDecoded
  refine ⟨_, rfl, ?_⟩
  with_reducible repeat' first
    | assumption | refine State.atDom_kept ?_ ?_ | refine State.irigFrame_kept ?_ | (intro _ _; intros; beta_reduce)

theorem execIrigFrameMissing_kept (h : Kept z s) :
    Answered z (execIrigFrameMissing s) := by
  unfold execIrigFrameMissing
  refine ⟨_, rfl, ?_⟩
  with_reducible repeat' first
    | assumption | refine State.atDom_kept ?_ ?_ | refine State.when_kept ?_ ?_ | refine State.irigMiss_kept ?_
    | (intro _ _; intros; beta_reduce)

theorem execPtpSyncReceived_kept {p : Nat} {l : List Byte} {pcs : Nat} (h : Kept z s) :
    Answered z (execPtpSyncReceived p l pcs s) := by
  unfold execPtpSyncReceived
  refine ⟨_, rfl, ?_⟩
  with_reducible repeat' first
    | assumption | refine State.syncReceivedPtp_kept ?_

theorem execFollowUpReceived_kept {p : Nat} {l : List Byte} (h : Kept z s) :
    Answered z (execFollowUpReceived p l s) := by
  unfold execFollowUpReceived
  refine ⟨_, rfl, ?_⟩
  with_reducible repeat' first
    | assumption | refine State.followUp_kept ?_

theorem execAnnounceReceived_kept {p : Nat} {l : List Byte} (h : Kept z s) :
    Answered z (execAnnounceReceived p l s) := by
  unfold execAnnounceReceived
  refine ⟨_, rfl, ?_⟩
  with_reducible repeat' first
    | assumption | refine State.announceReceived_kept ?_

theorem execAnnounceReceiptTimeout_kept {p : Nat} (h : Kept z s) :
    Answered z (execAnnounceReceiptTimeout p s) := by
  unfold execAnnounceReceiptTimeout
  refine ⟨_, rfl, ?_⟩
  with_reducible repeat' first
    | assumption | refine State.announceTimeout_kept ?_

theorem execPreMasterTimeout_kept {p : Nat} (h : Kept z s) :
    Answered z (execPreMasterTimeout p s) := by
  unfold execPreMasterTimeout
  refine ⟨_, rfl, ?_⟩
  with_reducible repeat' first
    | assumption | refine State.when_kept ?_ ?_ | refine State.evaluate_kept ?_ | refine State.setPtpState_kept ?_
    | (intro _ _; intros; beta_reduce)

theorem execSyncTransmit_kept {p : Nat} (h : Kept z s) :
    Answered z (execSyncTransmit p s) := by
  unfold execSyncTransmit
  refine ⟨_, rfl, ?_⟩
  with_reducible repeat' first
    | assumption | refine State.syncSend_kept ?_

theorem execAnnounceTransmit_kept {p : Nat} (h : Kept z s) :
    Answered z (execAnnounceTransmit p s) := by
  unfold execAnnounceTransmit
  refine ⟨_, rfl, ?_⟩
  with_reducible repeat' first
    | assumption | refine State.annSend_kept ?_

theorem execDelayReqTransmit_kept {p : Nat} (h : Kept z s) :
    Answered z (execDelayReqTransmit p s) := by
  unfold execDelayReqTransmit
  refine ⟨_, rfl, ?_⟩
  with_reducible repeat' first
    | assumption | refine State.delaySend_kept ?_

theorem execDelayReqReceived_kept {p : Nat} {l : List Byte} {pcs : Nat} (h : Kept z s) :
    Answered z (execDelayReqReceived p l pcs s) := by
  unfold execDelayReqReceived
  refine ⟨_, rfl, ?_⟩
  with_reducible repeat' first
    | assumption | refine State.delayReq_kept ?_

theorem execDelayRespReceived_kept {p : Nat} {l : List Byte} (h : Kept z s) :
    Answered z (execDelayRespReceived p l s) := by
  unfold execDelayRespReceived
  refine ⟨_, rfl, ?_⟩
  with_reducible repeat' first
    | assumption | refine State.delayResp_kept ?_

theorem execPdelayReqReceived_kept {p : Nat} {l : List Byte} {pcs : Nat} (h : Kept z s) :
    Answered z (execPdelayReqReceived p l pcs s) := by
  unfold execPdelayReqReceived
  refine ⟨_, rfl, ?_⟩
  with_reducible repeat' first
    | assumption | refine State.pdelayReq_kept ?_

theorem execPdelayExchangeComplete_kept {p : Nat} {l : List Byte} {pcs : Nat} {fup : List Byte} {more : Bool} (h : Kept z s) :
    Answered z (execPdelayExchangeComplete p l pcs fup more s) := by
  unfold execPdelayExchangeComplete
  refine ⟨_, rfl, ?_⟩
  with_reducible repeat' first
    | assumption | refine State.pdelayDone_kept ?_

theorem execDelayResponseTimeout_kept {p : Nat} (h : Kept z s) :
    Answered z (execDelayResponseTimeout p s) := by
  unfold execDelayResponseTimeout
  refine ⟨_, rfl, ?_⟩
  with_reducible repeat' first
    | assumption | refine State.delayLost_kept ?_

theorem execTcMatchEntryExpire_kept {q src seq : Nat} (h : Kept z s) :
    Answered z (execTcMatchEntryExpire q src seq s) := by
  unfold execTcMatchEntryExpire
  refine ⟨_, rfl, ?_⟩
  with_reducible repeat' first
    | assumption | refine State.onInv_kept ?_

theorem execPhyChange_kept {p w : Nat} (h : Kept z s) :
    Answered z (execPhyChange p w s) := by
  unfold execPhyChange
  refine ⟨_, rfl, ?_⟩
  with_reducible repeat' first
    | assumption | refine State.atReg_kept ?_ ?_ | refine State.writePcsCtl_kept ?_
    | (intro _ _; intros; beta_reduce)

theorem execCdrLock_kept {p : Nat} (h : Kept z s) :
    Answered z (execCdrLock p s) := by
  unfold execCdrLock
  refine ⟨_, rfl, ?_⟩
  with_reducible repeat' first
    | assumption | refine State.onPort_kept ?_ ?_ | refine State.fset_kept ?_ | refine State.pllShown_kept ?_
    | refine State.when_kept ?_ ?_ | refine State.fput_kept ?_ | (intro _ _; intros; beta_reduce) | dsimp only

theorem execPcsLock_kept {p : Nat} (h : Kept z s) :
    Answered z (execPcsLock p s) := by
  unfold execPcsLock
  refine ⟨_, rfl, ?_⟩
  with_reducible repeat' first
    | assumption | refine State.onPort_kept ?_ ?_ | refine State.when_kept ?_ ?_ | refine State.gainLock_kept ?_
    | refine State.fput_kept ?_ | refine State.setMac_kept ?_ | refine Kept.cond ?_ ?_
    | (intro _ _; intros; beta_reduce) | dsimp only

theorem execUpDlyExpire_kept {p : Nat} (h : Kept z s) :
    Answered z (execUpDlyExpire p s) := by
  unfold execUpDlyExpire
  refine ⟨_, rfl, ?_⟩
  with_reducible repeat' first
    | assumption | refine State.onPort_kept ?_ ?_ | refine State.when_kept ?_ ?_ | refine State.refresh_kept ?_
    | refine State.enterUpPort_kept ?_ | (intro _ _; intros; beta_reduce)

theorem execLossOfLock_kept {p : Nat} {cdr : Bool} (h : Kept z s) :
    Answered z (execLossOfLock p cdr s) := by
  unfold execLossOfLock
  refine ⟨_, rfl, ?_⟩
  with_reducible repeat' first
    | assumption | refine State.onPort_kept ?_ ?_ | refine State.fset_kept ?_ | refine State.when_kept ?_ ?_
    | refine State.setMac_kept ?_ | refine State.cutRx_kept ?_ | refine State.toDown_kept ?_
    | refine Kept.cond ?_ ?_ | (intro _ _; intros; beta_reduce) | dsimp only

theorem execHiBer_kept {p : Nat} (h : Kept z s) :
    Answered z (execHiBer p s) := by
  unfold execHiBer
  refine ⟨_, rfl, ?_⟩
  with_reducible repeat' first
    | assumption | refine State.onPort_kept ?_ ?_ | refine State.when_kept ?_ ?_ | refine State.macEvent_kept ?_
    | refine State.macCount_kept ?_ | refine State.fset_kept ?_ | refine State.toDown_kept ?_
    | refine Kept.cond ?_ ?_ | (intro _ _; intros; beta_reduce) | dsimp only

theorem execRemoteFaultReceived_kept {p : Nat} (h : Kept z s) :
    Answered z (execRemoteFaultReceived p s) := by
  unfold execRemoteFaultReceived
  refine ⟨_, rfl, ?_⟩
  with_reducible repeat' first
    | assumption | refine State.onPort_kept ?_ ?_ | refine State.when_kept ?_ ?_ | refine State.toDown_kept ?_
    | refine State.macEvent_kept ?_ | refine State.fset_kept ?_ | (intro _ _; intros; beta_reduce)

theorem execSerdesPllUnlock_kept {b : Nat} {pllB : Bool} (h : Kept z s) :
    Answered z (execSerdesPllUnlock b pllB s) := by
  unfold execSerdesPllUnlock
  refine ⟨_, rfl, ?_⟩
  with_reducible repeat' first
    | assumption | refine State.when_kept ?_ ?_ | refine State.fset_kept ?_ | refine forUpTo_kept ?_ ?_
    | refine State.showLine_kept ?_ | refine State.linkRestart_kept ?_ | refine State.corrected_kept ?_
    | refine Kept.cond ?_ ?_ | (intro _ _; intros; beta_reduce) | dsimp only

theorem execFrame64thByte_kept {p : Nat} {pre : Bool} {head : List Byte} {stamp : Nat} {flaws : RxFlaws} (h : Kept z s) :
    Answered z (execFrame64thByte p pre head stamp flaws s) := by
  unfold execFrame64thByte
  refine ⟨_, rfl, ?_⟩
  with_reducible repeat' first
    | assumption | refine State.atDom_kept ?_ ?_ | refine State.when_kept ?_ ?_ | refine State.reportReads_kept ?_
    | refine State.rxBegin_kept ?_ | (intro _ _; intros; beta_reduce)

theorem execFrameEndReceived_kept {e : RxEnd} (h : Kept z s) :
    Answered z (execFrameEndReceived e s) := by
  unfold execFrameEndReceived
  refine ⟨_, rfl, ?_⟩
  with_reducible repeat' first
    | assumption | refine State.atDom_kept ?_ ?_ | refine State.reportReads_kept ?_ | refine State.rxEnd_kept ?_
    | (intro _ _; intros; beta_reduce)

theorem execPauseFrameReceived_kept {p v : Nat} (h : Kept z s) :
    Answered z (execPauseFrameReceived p v s) := by
  unfold execPauseFrameReceived
  refine ⟨_, rfl, ?_⟩
  with_reducible repeat' first
    | assumption | refine State.when_kept ?_ ?_ | refine State.pauseFrame_kept ?_ | (intro _ _; intros; beta_reduce)

theorem execPfcFrameReceived_kept {p enable : Nat} {times : List Nat} (h : Kept z s) :
    Answered z (execPfcFrameReceived p enable times s) := by
  unfold execPfcFrameReceived
  refine ⟨_, rfl, ?_⟩
  with_reducible repeat' first
    | assumption | refine State.when_kept ?_ ?_ | refine State.pfcFrame_kept ?_ | (intro _ _; intros; beta_reduce)

theorem execPauseTimerExpire_kept {p i : Nat} (h : Kept z s) :
    Answered z (execPauseTimerExpire p i s) := by
  unfold execPauseTimerExpire
  refine ⟨_, rfl, ?_⟩
  with_reducible repeat' first
    | assumption | refine State.atDom_kept ?_ ?_ | refine State.showStopped_kept ?_ | refine State.setMac_kept ?_
    | (intro _ _; intros; beta_reduce)

theorem execTxFrameQueued_kept {p : Nat} (h : Kept z s) :
    Answered z (execTxFrameQueued p s) := by
  unfold execTxFrameQueued
  refine ⟨_, rfl, ?_⟩
  with_reducible repeat' first
    | assumption | refine State.atDom_kept ?_ ?_ | refine State.hiddenWritten_kept ?_
    | refine State.oneSlot_kept ?_ ?_ | refine State.refresh_kept ?_ | refine State.dropTooBig_kept ?_
    | refine State.takeComing_kept ?_ | (intro _ _; intros; beta_reduce)

theorem execSelectionPoint_kept {p : Nat} (h : Kept z s) :
    Answered z (execSelectionPoint p s) := by
  unfold execSelectionPoint
  refine ⟨_, rfl, ?_⟩
  with_reducible repeat' first
    | assumption | refine State.atDom_kept ?_ ?_ | refine State.reportReads_kept ?_
    | refine State.oneSlot_kept ?_ ?_ | refine State.shapersRead_kept ?_ | refine State.selection_kept ?_
    | (intro _ _; intros; beta_reduce)

theorem execTxFrameDone_kept {p pcs : Nat} (h : Kept z s) :
    Answered z (execTxFrameDone p pcs s) := by
  unfold execTxFrameDone
  refine ⟨_, rfl, ?_⟩
  with_reducible repeat' first
    | assumption | refine State.atDom_kept ?_ ?_ | refine State.hiddenPass_kept ?_ | refine State.oneSlot_kept ?_ ?_
    | refine State.txRead_kept ?_ | refine State.shapersRead_kept ?_ | refine State.txDone_kept ?_
    | (intro _ _; intros; beta_reduce)

theorem execVerifyTimerExpire_kept {p : Nat} (h : Kept z s) :
    Answered z (execVerifyTimerExpire p s) := by
  unfold execVerifyTimerExpire
  refine ⟨_, rfl, ?_⟩
  with_reducible repeat' first
    | assumption | refine State.atDom_kept ?_ ?_ | refine State.when_kept ?_ ?_ | refine State.sendVerify_kept ?_
    | refine State.setMac_kept ?_ | refine State.setVerify_kept ?_ | refine Kept.cond ?_ ?_
    | (intro _ _; intros; beta_reduce)

theorem execVerifyMpacketReceived_kept {p : Nat} (h : Kept z s) :
    Answered z (execVerifyMpacketReceived p s) := by
  unfold execVerifyMpacketReceived
  refine ⟨_, rfl, ?_⟩
  with_reducible repeat' first
    | assumption | refine State.when_kept ?_ ?_ | refine State.macCount_kept ?_ | refine State.setMac_kept ?_
    | (intro _ _; intros; beta_reduce)

theorem execRespondMpacketReceived_kept {p : Nat} (h : Kept z s) :
    Answered z (execRespondMpacketReceived p s) := by
  unfold execRespondMpacketReceived
  refine ⟨_, rfl, ?_⟩
  with_reducible repeat' first
    | assumption | refine State.when_kept ?_ ?_ | refine State.macCount_kept ?_ | refine State.refresh_kept ?_
    | refine State.setVerify_kept ?_ | (intro _ _; intros; beta_reduce)

theorem execDoorbell_kept {off : Nat} (h : Kept z s) :
    Answered z (execDoorbell off s) := by
  unfold execDoorbell
  refine ⟨_, rfl, ?_⟩
  with_reducible repeat' first
    | assumption | refine State.when_kept ?_ ?_ | refine State.ringDoorbell_kept ?_
    | (intro _ _; intros; beta_reduce)

theorem execRingScanStart_kept {r : Nat} {bad : Bool} (h : Kept z s) :
    Answered z (execRingScanStart r bad s) := by
  unfold execRingScanStart
  refine ⟨_, rfl, ?_⟩
  with_reducible repeat' first
    | assumption | refine State.when_kept ?_ ?_ | refine State.reportReads_kept ?_ | refine State.scanStart_kept ?_
    | refine State.ringWordRead_kept ?_ | (intro _ _; intros; beta_reduce)

theorem execScanDataReturn_kept {r : Nat} {d : ScanData} (h : Kept z s) :
    Answered z (execScanDataReturn r d s) := by
  unfold execScanDataReturn
  refine ⟨_, rfl, ?_⟩
  with_reducible repeat' first
    | assumption | refine State.when_kept ?_ ?_ | refine State.ringWordWritten_kept ?_
    | refine State.oneSlot_kept ?_ ?_ | refine State.ringWordRead_kept ?_ | refine State.scanReturns_kept ?_
    | (intro _ _; intros; beta_reduce)

theorem execTxFetchDone_kept {r : Nat} {bytes : List Byte} (h : Kept z s) :
    Answered z (execTxFetchDone r bytes s) := by
  unfold execTxFetchDone
  refine ⟨_, rfl, ?_⟩
  with_reducible repeat' first
    | assumption | refine State.when_kept ?_ ?_ | refine State.fetched_kept ?_ | (intro _ _; intros; beta_reduce)

theorem execEntryComplete_kept {r : Nat} {e : EntryEnd} (h : Kept z s) :
    Answered z (execEntryComplete r e s) := by
  unfold execEntryComplete
  refine ⟨_, rfl, ?_⟩
  with_reducible repeat' first
    | assumption | refine State.when_kept ?_ ?_ | refine State.reportReads_kept ?_ | refine State.oneSlot_kept ?_ ?_
    | refine State.ringWordRead_kept ?_ | refine State.entryEnds_kept ?_ | refine State.ringEcc_kept ?_
    | (intro _ _; intros; beta_reduce)

theorem execMsixGapExpire_kept {r : Nat} (h : Kept z s) :
    Answered z (execMsixGapExpire r s) := by
  unfold execMsixGapExpire
  refine ⟨_, rfl, ?_⟩
  with_reducible repeat' first
    | assumption | refine State.when_kept ?_ ?_ | refine State.setRing_kept ?_ | refine State.ringIrq_kept ?_
    | (intro _ _; intros; beta_reduce) | dsimp only

theorem execRingEnable_kept {r w : Nat} (h : Kept z s) :
    Answered z (execRingEnable r w s) := by
  unfold execRingEnable
  refine ⟨_, rfl, ?_⟩
  with_reducible repeat' first
    | assumption | refine State.atReg_kept ?_ ?_ | refine State.writeRingCtl_kept ?_
    | (intro _ _; intros; beta_reduce)

theorem execRingDisable_kept {r w : Nat} (h : Kept z s) :
    Answered z (execRingDisable r w s) := by
  unfold execRingDisable
  refine ⟨_, rfl, ?_⟩
  with_reducible repeat' first
    | assumption | refine State.atReg_kept ?_ ?_ | refine State.writeRingCtl_kept ?_
    | (intro _ _; intros; beta_reduce)

theorem execRingIdle_kept {r : Nat} (h : Kept z s) :
    Answered z (execRingIdle r s) := by
  unfold execRingIdle
  refine ⟨_, rfl, ?_⟩
  with_reducible repeat' first
    | assumption | refine State.when_kept ?_ ?_ | refine State.ringIdle_kept ?_ | (intro _ _; intros; beta_reduce)

theorem execRingHeadWrite_kept {r w : Nat} (h : Kept z s) :
    Answered z (execRingHeadWrite r w s) := by
  unfold execRingHeadWrite
  refine ⟨_, rfl, ?_⟩
  with_reducible repeat' first
    | assumption | refine State.atReg_kept ?_ ?_ | refine State.writeRingHead_kept ?_
    | (intro _ _; intros; beta_reduce)

theorem execHostLinkLost_kept {h1 : Nat} (h : Kept z s) :
    Answered z (execHostLinkLost h1 s) := by
  unfold execHostLinkLost
  refine ⟨_, rfl, ?_⟩
  with_reducible repeat' first
    | assumption | refine State.atDom_kept ?_ ?_ | refine State.hostLost_kept ?_ | (intro _ _; intros; beta_reduce)

theorem execNoticeWrite_kept {h1 code block index : Nat} {args : List Nat} (h : Kept z s) :
    Answered z (execNoticeWrite h1 code block index args s) := by
  unfold execNoticeWrite
  refine ⟨_, rfl, ?_⟩
  with_reducible repeat' first
    | assumption | refine State.when_kept ?_ ?_ | refine State.noticeTo_kept ?_ | (intro _ _; intros; beta_reduce)

theorem execNoticeConsumerWrite_kept {h1 w : Nat} (h : Kept z s) :
    Answered z (execNoticeConsumerWrite h1 w s) := by
  unfold execNoticeConsumerWrite
  refine ⟨_, rfl, ?_⟩
  with_reducible repeat' first
    | assumption | refine State.atReg_kept ?_ ?_ | refine State.writeNtcCons_kept ?_
    | (intro _ _; intros; beta_reduce)

theorem execBusWriteError_kept {r : Nat} {pos : Option Nat} (h : Kept z s) :
    Answered z (execBusWriteError r pos s) := by
  unfold execBusWriteError
  refine ⟨_, rfl, ?_⟩
  with_reducible repeat' first
    | assumption | refine State.when_kept ?_ ?_ | refine State.ringError_kept ?_ | refine State.transEnd_kept ?_
    | refine State.fetchMore_kept ?_ | refine State.abandonFrom_kept ?_ | split | (intro _ _; intros; beta_reduce)

theorem execBusReadError_kept {r : Nat} {pos : Option Nat} (h : Kept z s) :
    Answered z (execBusReadError r pos s) := by
  unfold execBusReadError
  refine ⟨_, rfl, ?_⟩
  with_reducible repeat' first
    | assumption
    | (extract_lets +onlyGivenNames x; first | (have hx : Kept z x := (by unfold x; clear x; repeat' first | assumption | refine State.when_kept ?_ ?_ | refine State.oneSlot_kept ?_ ?_ | refine State.readIn_kept ?_ | refine State.setRing_kept ?_ | refine State.ringError_kept ?_ | refine State.scanEnd_kept ?_ | refine State.fetchMore_kept ?_ | refine State.txComplete_kept ?_ | refine State.fetchEnds_kept ?_ | refine Kept.cond ?_ ?_ | split | (intro _ _; intros; beta_reduce)); clear_value x) | clear_value x)
    | refine State.when_kept ?_ ?_ | refine State.oneSlot_kept ?_ ?_ | refine State.readIn_kept ?_
    | refine State.setRing_kept ?_ | refine State.ringError_kept ?_ | refine State.scanEnd_kept ?_
    | refine State.fetchMore_kept ?_ | refine State.txComplete_kept ?_ | refine State.fetchEnds_kept ?_
    | refine Kept.cond ?_ ?_ | split | (intro _ _; intros; beta_reduce)

theorem execLandingRound_kept {q at' : Nat} {late lost : List Nat} (h : Kept z s) :
    Answered z (execLandingRound q at' late lost s) := by
  unfold execLandingRound
  refine ⟨_, rfl, ?_⟩
  with_reducible repeat' first
    | assumption | refine State.landingRound_kept ?_

theorem execLandSns_kept {q base round : Nat} {words : List Nat} {fcnt : Nat} (h : Kept z s) :
    Answered z (execLandSns q base round words fcnt s) := by
  unfold execLandSns
  refine ⟨_, rfl, ?_⟩
  with_reducible repeat' first
    | assumption | refine eachOf_kept ?_ ?_ | refine State.landSense_kept ?_ | refine State.goodFlit_kept ?_
    | (intro _ _; intros; beta_reduce)

theorem execLandingAttemptTimeout_kept {q i : Nat} (h : Kept z s) :
    Answered z (execLandingAttemptTimeout q i s) := by
  unfold execLandingAttemptTimeout
  refine ⟨_, rfl, ?_⟩
  with_reducible repeat' first
    | assumption | refine State.failLanding_kept ?_ | refine State.retryLanding_kept ?_ | refine Kept.cond ?_ ?_

theorem execHoldVisit_kept {q pair : Nat} {bad : List Nat} (h : Kept z s) :
    Answered z (execHoldVisit q pair bad s) := by
  unfold execHoldVisit
  refine ⟨_, rfl, ?_⟩
  with_reducible repeat' first
    | assumption | refine State.reportReads_kept ?_ | refine State.holdVisit_kept ?_

theorem execHoldSns_kept {q pair base : Nat} {words : List Nat} {fcnt : Nat} (h : Kept z s) :
    Answered z (execHoldSns q pair base words fcnt s) := by
  unfold execHoldSns
  refine ⟨_, rfl, ?_⟩
  with_reducible repeat' first
    | assumption | refine State.cellsStored_kept ?_ | refine State.holdSns_kept ?_ | refine State.goodFlit_kept ?_

theorem execHoldLat_kept {q pair base : Nat} {words : List Nat} {fcnt : Nat} (h : Kept z s) :
    Answered z (execHoldLat q pair base words fcnt s) := by
  unfold execHoldLat
  refine ⟨_, rfl, ?_⟩
  with_reducible repeat' first
    | assumption | refine State.holdLat_kept ?_ | refine State.goodFlit_kept ?_

theorem execLockstepMismatch_kept {q lane kind item : Nat} {inTime : Bool} (h : Kept z s) :
    Answered z (execLockstepMismatch q lane kind item inTime s) := by
  unfold execLockstepMismatch
  refine ⟨_, rfl, ?_⟩
  with_reducible repeat' first
    | assumption | refine State.lockstep_kept ?_ | split

theorem execLaneSelfTest_kept {q h1 w : Nat} (h : Kept z s) :
    Answered z (execLaneSelfTest q h1 w s) := by
  unfold execLaneSelfTest
  refine ⟨_, rfl, ?_⟩
  with_reducible repeat' first
    | assumption | refine State.atReg_kept ?_ ?_ | refine State.orw_kept ?_ | refine Kept.cond ?_ ?_
    | (intro _ _; intros; beta_reduce)

theorem execLaneSelfTestDone_kept {q lane : Nat} {pass : Bool} (h : Kept z s) :
    Answered z (execLaneSelfTestDone q lane pass s) := by
  unfold execLaneSelfTestDone
  refine ⟨_, rfl, ?_⟩
  with_reducible repeat' first
    | assumption | refine State.laneTested_kept ?_

theorem execNitinolStartupDone_kept {q failed : Nat} {bad : List Nat} (h : Kept z s) :
    Answered z (execNitinolStartupDone q failed bad s) := by
  unfold execNitinolStartupDone
  refine ⟨_, rfl, ?_⟩
  with_reducible repeat' first
    | assumption | refine State.reportReads_kept ?_ | refine State.nitStarted_kept ?_

theorem execCellRead_kept {q c : Nat} (h : Kept z s) :
    Answered z (execCellRead q c s) := by
  unfold execCellRead
  refine ⟨_, rfl, ?_⟩
  with_reducible repeat' first
    | assumption | refine State.atReg_kept ?_ ?_ | refine State.writeCellCmd_kept ?_
    | (intro _ _; intros; beta_reduce)

theorem execCellPark_kept {q c : Nat} (h : Kept z s) :
    Answered z (execCellPark q c s) := by
  unfold execCellPark
  refine ⟨_, rfl, ?_⟩
  with_reducible repeat' first
    | assumption | refine State.atReg_kept ?_ ?_ | refine State.writeCellCmd_kept ?_
    | (intro _ _; intros; beta_reduce)

theorem execUnparkBar_kept {q c : Nat} (h : Kept z s) :
    Answered z (execUnparkBar q c s) := by
  unfold execUnparkBar
  refine ⟨_, rfl, ?_⟩
  with_reducible repeat' first
    | assumption | refine State.atReg_kept ?_ ?_ | refine State.writeCellCmd_kept ?_
    | (intro _ _; intros; beta_reduce)

theorem execUnparkCross_kept {q c : Nat} (h : Kept z s) :
    Answered z (execUnparkCross q c s) := by
  unfold execUnparkCross
  refine ⟨_, rfl, ?_⟩
  with_reducible repeat' first
    | assumption | refine State.atReg_kept ?_ ?_ | refine State.writeCellCmd_kept ?_
    | (intro _ _; intros; beta_reduce)

theorem execCommitListsReceived_kept {q id : Nat} (h : Kept z s) :
    Answered z (execCommitListsReceived q id s) := by
  unfold execCommitListsReceived
  refine ⟨_, rfl, ?_⟩
  with_reducible repeat' first
    | assumption | refine State.commitLists_kept ?_

theorem execLandBindSend_kept {q id : Nat} (h : Kept z s) :
    Answered z (execLandBindSend q id s) := by
  unfold execLandBindSend
  refine ⟨_, rfl, ?_⟩
  with_reducible repeat' first
    | assumption | refine State.landBindSend_kept ?_

theorem execReacquisitionStart_kept {q : Nat} (h : Kept z s) :
    Answered z (execReacquisitionStart q s) := by
  unfold execReacquisitionStart
  refine ⟨_, rfl, ?_⟩
  with_reducible repeat' first
    | assumption | refine State.reacqStart_kept ?_

theorem execReadbackStep_kept {q : Nat} (h : Kept z s) :
    Answered z (execReadbackStep q s) := by
  unfold execReadbackStep
  refine ⟨_, rfl, ?_⟩
  with_reducible repeat' first
    | assumption | refine State.readback_kept ?_

theorem execReacquisitionEnd_kept {q : Nat} (h : Kept z s) :
    Answered z (execReacquisitionEnd q s) := by
  unfold execReacquisitionEnd
  refine ⟨_, rfl, ?_⟩
  with_reducible repeat' first
    | assumption | refine State.reacqEnd_kept ?_

theorem execRelandingStart_kept {q : Nat} (h : Kept z s) :
    Answered z (execRelandingStart q s) := by
  unfold execRelandingStart
  refine ⟨_, rfl, ?_⟩
  with_reducible repeat' first
    | assumption | refine State.relandingStart_kept ?_

theorem execNitinolEnable_kept {q w : Nat} (h : Kept z s) :
    Answered z (execNitinolEnable q w s) := by
  unfold execNitinolEnable
  refine ⟨_, rfl, ?_⟩
  with_reducible repeat' first
    | assumption | refine State.atReg_kept ?_ ?_ | refine State.writeNitCtl_kept ?_
    | (intro _ _; intros; beta_reduce)

theorem execNitinolDisable_kept {q w : Nat} (h : Kept z s) :
    Answered z (execNitinolDisable q w s) := by
  unfold execNitinolDisable
  refine ⟨_, rfl, ?_⟩
  with_reducible repeat' first
    | assumption | refine State.atReg_kept ?_ ?_ | refine State.writeNitCtl_kept ?_
    | (intro _ _; intros; beta_reduce)

theorem execReacq_kept {q w : Nat} (h : Kept z s) :
    Answered z (execReacq q w s) := by
  unfold execReacq
  refine ⟨_, rfl, ?_⟩
  with_reducible repeat' first
    | assumption | refine State.atReg_kept ?_ ?_ | refine State.writeNitCtl_kept ?_
    | (intro _ _; intros; beta_reduce)

theorem execFaultReport_kept {rs : List (Nat × Nat)} (h : Kept z s) :
    Answered z (execFaultReport rs s) := by
  unfold execFaultReport
  refine ⟨_, rfl, ?_⟩
  with_reducible repeat' first
    | assumption | refine State.atDom_kept ?_ ?_ | refine State.hiddenPass_kept ?_ | refine State.errorPins_kept ?_
    | (intro _ _; intros; beta_reduce)

theorem execFaultClear_kept {j : Nat} {x : ClearWrite} (h : Kept z s) :
    Answered z (execFaultClear j x s) := by
  unfold execFaultClear
  refine ⟨_, rfl, ?_⟩
  with_reducible repeat' first
    | assumption | refine State.atDom_kept ?_ ?_ | refine State.clearFsw_kept ?_ | (intro _ _; intros; beta_reduce)

theorem execGraceExpire_kept {ns : List Nat} (h : Kept z s) :
    Answered z (execGraceExpire ns s) := by
  unfold execGraceExpire
  refine ⟨_, rfl, ?_⟩
  with_reducible repeat' first
    | assumption | refine State.atDom_kept ?_ ?_ | refine State.graceExpire_kept ?_
    | (intro _ _; intros; beta_reduce)

theorem execQuietExpire_kept {e : QuietEnd} (h : Kept z s) :
    Answered z (execQuietExpire e s) := by
  unfold execQuietExpire
  refine ⟨_, rfl, ?_⟩
  with_reducible repeat' first
    | assumption | refine State.atDom_kept ?_ ?_ | refine State.quietEnds_kept ?_ | (intro _ _; intros; beta_reduce)

theorem execRecover_kept {u : Nat} {x : RecoverWrite} (h : Kept z s) :
    Answered z (execRecover u x s) := by
  unfold execRecover
  refine ⟨_, rfl, ?_⟩
  with_reducible repeat' first
    | assumption | refine State.atDom_kept ?_ ?_ | refine State.writeUnit_kept ?_ | refine State.graceExpire_kept ?_
    | refine State.when_kept ?_ ?_ | refine Kept.cond ?_ ?_ | (intro _ _; intros; beta_reduce) | dsimp only

theorem execKick_kept {w : Nat} (h : Kept z s) :
    Answered z (execKick w s) := by
  unfold execKick
  refine ⟨_, rfl, ?_⟩
  with_reducible repeat' first
    | assumption | refine State.atDom_kept ?_ ?_ | refine State.store_kept ?_ | (intro _ _; intros; beta_reduce)

theorem execWatchdogExpire_kept (h : Kept z s) :
    Answered z (execWatchdogExpire s) := by
  unfold execWatchdogExpire
  refine ⟨_, rfl, ?_⟩
  with_reducible repeat' first
    | assumption | refine State.atDom_kept ?_ ?_ | refine State.when_kept ?_ ?_ | refine State.errorPins_kept ?_
    | (intro _ _; intros; beta_reduce)

theorem execSwFatal_kept {w : Nat} (h : Kept z s) :
    Answered z (execSwFatal w s) := by
  unfold execSwFatal
  refine ⟨_, rfl, ?_⟩
  with_reducible repeat' first
    | assumption | refine State.atDom_kept ?_ ?_ | refine State.writeQchCtl_kept ?_
    | (intro _ _; intros; beta_reduce)

theorem execFirstClr_kept {w : Nat} (h : Kept z s) :
    Answered z (execFirstClr w s) := by
  unfold execFirstClr
  refine ⟨_, rfl, ?_⟩
  with_reducible repeat' first
    | assumption | refine State.atDom_kept ?_ ?_ | refine State.writeQchCtl_kept ?_
    | (intro _ _; intros; beta_reduce)

theorem execInjectionArm_kept {w : Nat} (h : Kept z s) :
    Answered z (execInjectionArm w s) := by
  unfold execInjectionArm
  refine ⟨_, rfl, ?_⟩
  with_reducible repeat' first
    | assumption | refine State.atDom_kept ?_ ?_ | refine State.writeInj_kept ?_ | (intro _ _; intros; beta_reduce)

theorem execAliveToggle_kept (h : Kept z s) :
    Answered z (execAliveToggle s) := by
  unfold execAliveToggle
  refine ⟨_, rfl, ?_⟩
  with_reducible repeat' first
    | assumption | refine State.atDom_kept ?_ ?_ | refine State.showAlive_kept ?_ | (intro _ _; intros; beta_reduce)

theorem execMarginMeasurement_kept {u period : Nat} (h : Kept z s) :
    Answered z (execMarginMeasurement u period s) := by
  unfold execMarginMeasurement
  refine ⟨_, rfl, ?_⟩
  with_reducible repeat' first
    | assumption | refine State.measure_kept ?_

theorem execVidRaise_kept (h : Kept z s) :
    Answered z (execVidRaise s) := by
  unfold execVidRaise
  refine ⟨_, rfl, ?_⟩
  with_reducible repeat' first
    | assumption | refine State.vidRaise_kept ?_

theorem execVidLower_kept (h : Kept z s) :
    Answered z (execVidLower s) := by
  unfold execVidLower
  refine ⟨_, rfl, ?_⟩
  with_reducible repeat' first
    | assumption | refine State.vidLower_kept ?_

theorem execShedLevelEnter_kept {u : Nat} (h : Kept z s) :
    Answered z (execShedLevelEnter u s) := by
  unfold execShedLevelEnter
  refine ⟨_, rfl, ?_⟩
  with_reducible repeat' first
    | assumption | refine State.shedEnter_kept ?_

theorem execCoreTimingLost_kept {u : Nat} (h : Kept z s) :
    Answered z (execCoreTimingLost u s) := by
  unfold execCoreTimingLost
  refine ⟨_, rfl, ?_⟩
  with_reducible repeat' first
    | assumption | refine State.timingLost_kept ?_

theorem execCodeViolation_kept {u : Nat} {chs : List (Nat × Nat)} (h : Kept z s) :
    Answered z (execCodeViolation u chs s) := by
  unfold execCodeViolation
  refine ⟨_, rfl, ?_⟩
  with_reducible repeat' first
    | assumption | refine State.stallOf_kept ?_

theorem execHandshakeStall_kept {u : Nat} {chs : List (Nat × Nat)} (h : Kept z s) :
    Answered z (execHandshakeStall u chs s) := by
  unfold execHandshakeStall
  refine ⟨_, rfl, ?_⟩
  with_reducible repeat' first
    | assumption | refine State.stallOf_kept ?_

theorem execClsStagedWrite_kept {q w : Nat} (h : Kept z s) :
    Answered z (execClsStagedWrite q w s) := by
  unfold execClsStagedWrite
  refine ⟨_, rfl, ?_⟩
  with_reducible repeat' first
    | assumption | refine State.atReg_kept ?_ ?_ | refine State.reportReads_kept ?_
    | refine State.writeClsStg_kept ?_ | (intro _ _; intros; beta_reduce)

theorem execClsStagedRead_kept {q w : Nat} (h : Kept z s) :
    Answered z (execClsStagedRead q w s) := by
  unfold execClsStagedRead
  refine ⟨_, rfl, ?_⟩
  with_reducible repeat' first
    | assumption | refine State.atReg_kept ?_ ?_ | refine State.reportReads_kept ?_
    | refine State.writeClsStg_kept ?_ | (intro _ _; intros; beta_reduce)

theorem execClsStagedDone_kept {q : Nat} (h : Kept z s) :
    Answered z (execClsStagedDone q s) := by
  unfold execClsStagedDone
  refine ⟨_, rfl, ?_⟩
  with_reducible repeat' first
    | assumption | refine State.atDom_kept ?_ ?_ | refine State.fset_kept ?_ | (intro _ _; intros; beta_reduce)

theorem execClsHashKeyWrite_kept {q j w : Nat} (h : Kept z s) :
    Answered z (execClsHashKeyWrite q j w s) := by
  unfold execClsHashKeyWrite
  refine ⟨_, rfl, ?_⟩
  with_reducible repeat' first
    | assumption | refine State.atReg_kept ?_ ?_ | refine State.clsRehash_kept ?_ | refine State.store_kept ?_
    | refine Kept.cond ?_ ?_ | (intro _ _; intros; beta_reduce)

theorem execMeterPeek_kept {q w : Nat} (h : Kept z s) :
    Answered z (execMeterPeek q w s) := by
  unfold execMeterPeek
  refine ⟨_, rfl, ?_⟩
  with_reducible repeat' first
    | assumption | refine State.atReg_kept ?_ ?_ | refine State.writeMtrPeek_kept ?_
    | (intro _ _; intros; beta_reduce)

theorem execDupStagedWrite_kept {q w : Nat} (h : Kept z s) :
    Answered z (execDupStagedWrite q w s) := by
  unfold execDupStagedWrite
  refine ⟨_, rfl, ?_⟩
  with_reducible repeat' first
    | assumption | refine State.atReg_kept ?_ ?_ | refine State.reportReads_kept ?_
    | refine State.writeDupStg_kept ?_ | (intro _ _; intros; beta_reduce)

theorem execDupStagedRead_kept {q w : Nat} (h : Kept z s) :
    Answered z (execDupStagedRead q w s) := by
  unfold execDupStagedRead
  refine ⟨_, rfl, ?_⟩
  with_reducible repeat' first
    | assumption | refine State.atReg_kept ?_ ?_ | refine State.reportReads_kept ?_
    | refine State.writeDupStg_kept ?_ | (intro _ _; intros; beta_reduce)

theorem execDupStagedDone_kept {q : Nat} (h : Kept z s) :
    Answered z (execDupStagedDone q s) := by
  unfold execDupStagedDone
  refine ⟨_, rfl, ?_⟩
  with_reducible repeat' first
    | assumption | refine State.atDom_kept ?_ ?_ | refine State.fset_kept ?_ | (intro _ _; intros; beta_reduce)

theorem execDupHashKeyWrite_kept {q j w : Nat} (h : Kept z s) :
    Answered z (execDupHashKeyWrite q j w s) := by
  unfold execDupHashKeyWrite
  refine ⟨_, rfl, ?_⟩
  with_reducible repeat' first
    | assumption | refine State.atReg_kept ?_ ?_ | refine State.dupRehash_kept ?_ | refine State.store_kept ?_
    | refine Kept.cond ?_ ?_ | (intro _ _; intros; beta_reduce)

theorem execSourceLookupDone_kept {p : Nat} {pre : Bool} {l : List Byte} {bad : Option Nat} (h : Kept z s) :
    Answered z (execSourceLookupDone p pre l bad s) := by
  unfold execSourceLookupDone
  refine ⟨_, rfl, ?_⟩
  with_reducible repeat' first
    | assumption | refine State.when_kept ?_ ?_ | refine State.reportReads_kept ?_
    | refine State.passWritten_kept ?_ | refine State.rxLookup_kept ?_ | (intro _ _; intros; beta_reduce)

theorem execAgeSweep_kept {q : Nat} (h : Kept z s) :
    Answered z (execAgeSweep q s) := by
  unfold execAgeSweep
  refine ⟨_, rfl, ?_⟩
  with_reducible repeat' first
    | assumption | refine State.atDom_kept ?_ ?_ | refine State.reportReads_kept ?_ | refine eachOf_kept ?_ ?_
    | refine State.ageEntry_kept ?_ | refine State.touchAll_kept ?_ | (intro _ _; intros; beta_reduce)

theorem execFrerSweep_kept {q : Nat} (h : Kept z s) :
    Answered z (execFrerSweep q s) := by
  unfold execFrerSweep
  refine ⟨_, rfl, ?_⟩
  with_reducible repeat' first
    | assumption | refine State.atDom_kept ?_ ?_ | refine State.reportReads_kept ?_ | refine eachOf_kept ?_ ?_
    | refine State.frerSweepOne_kept ?_ | refine State.touchAll_kept ?_ | (intro _ _; intros; beta_reduce)

theorem execEdgeComputeStart_kept {kind p t1 : Nat} {bad : List Nat} (h : Kept z s) :
    Answered z (execEdgeComputeStart kind p t1 bad s) := by
  unfold execEdgeComputeStart
  refine ⟨_, rfl, ?_⟩
  with_reducible repeat' first
    | assumption
    | (extract_lets +onlyGivenNames x; first | (have hx : Kept z x := (by unfold x; clear x; repeat' first | assumption | refine State.when_kept ?_ ?_ | refine State.entriesRead_kept ?_ | refine State.reportReads_kept ?_ | refine State.onEdges_kept ?_ | refine Kept.cond ?_ ?_ | split | (intro _ _; intros; beta_reduce)); clear_value x) | clear_value x)
    | refine State.when_kept ?_ ?_ | refine State.entriesRead_kept ?_ | refine State.reportReads_kept ?_
    | refine State.onEdges_kept ?_ | refine Kept.cond ?_ ?_ | split | (intro _ _; intros; beta_reduce)

theorem execActionArmed_kept {kind n t1 : Nat} (h : Kept z s) :
    Answered z (execActionArmed kind n t1 s) := by
  unfold execActionArmed
  refine ⟨_, rfl, ?_⟩
  with_reducible repeat' first
    | assumption | refine State.when_kept ?_ ?_ | refine State.armEdge_kept ?_ | refine State.reportReads_kept ?_
    | refine State.actLate_kept ?_ | refine State.lateArm_kept ?_ | (intro _ _; intros; beta_reduce)

theorem execScheduleGo_kept {w : Nat} (h : Kept z s) :
    Answered z (execScheduleGo w s) := by
  unfold execScheduleGo
  refine ⟨_, rfl, ?_⟩
  with_reducible repeat' first
    | assumption | refine State.atReg_kept ?_ ?_ | refine State.writeScbAct_kept ?_
    | (intro _ _; intros; beta_reduce)

theorem execScheduleAbort_kept {w : Nat} (h : Kept z s) :
    Answered z (execScheduleAbort w s) := by
  unfold execScheduleAbort
  refine ⟨_, rfl, ?_⟩
  with_reducible repeat' first
    | assumption | refine State.atReg_kept ?_ ?_ | refine State.writeScbAct_kept ?_
    | (intro _ _; intros; beta_reduce)

theorem execValidationDone_kept (h : Kept z s) :
    Answered z (execValidationDone s) := by
  unfold execValidationDone
  refine ⟨_, rfl, ?_⟩
  with_reducible repeat' first
    | assumption | refine State.when_kept ?_ ?_ | refine State.validated_kept ?_ | (intro _ _; intros; beta_reduce)

theorem execScheduleRamWrite_kept {a w : Nat} (h : Kept z s) :
    Answered z (execScheduleRamWrite a w s) := by
  unfold execScheduleRamWrite
  refine ⟨_, rfl, ?_⟩
  with_reducible repeat' first
    | assumption | refine State.atReg_kept ?_ ?_ | refine State.writeSched_kept ?_ | refine State.when_kept ?_ ?_
    | refine State.memWritten_kept ?_ | (intro _ _; intros; beta_reduce)

theorem execBankSwitch_kept (h : Kept z s) :
    Answered z (execBankSwitch s) := by
  unfold execBankSwitch
  refine ⟨_, rfl, ?_⟩
  with_reducible repeat' first
    | assumption | refine State.when_kept ?_ ?_ | refine State.bankSwitch_kept ?_ | (intro _ _; intros; beta_reduce)

theorem execScbCycleStart_kept (h : Kept z s) :
    Answered z (execScbCycleStart s) := by
  unfold execScbCycleStart
  refine ⟨_, rfl, ?_⟩
  with_reducible repeat' first
    | assumption | refine State.when_kept ?_ ?_ | refine State.cycleStart_kept ?_ | (intro _ _; intros; beta_reduce)

theorem execCommitHandoff_kept {bad : Bool} (h : Kept z s) :
    Answered z (execCommitHandoff bad s) := by
  unfold execCommitHandoff
  refine ⟨_, rfl, ?_⟩
  with_reducible repeat' first
    | assumption | refine State.when_kept ?_ ?_ | refine State.reportReads_kept ?_ | refine State.handNext_kept ?_
    | (intro _ _; intros; beta_reduce)

theorem execScheduleEnable_kept {w : Nat} (h : Kept z s) :
    Answered z (execScheduleEnable w s) := by
  unfold execScheduleEnable
  refine ⟨_, rfl, ?_⟩
  with_reducible repeat' first
    | assumption | refine State.atReg_kept ?_ ?_ | refine State.writeScbCtl_kept ?_
    | (intro _ _; intros; beta_reduce)

theorem execGateTransition_kept {p : Nat} (h : Kept z s) :
    Answered z (execGateTransition p s) := by
  unfold execGateTransition
  refine ⟨_, rfl, ?_⟩
  with_reducible repeat' first
    | assumption | refine State.fireEdge_kept ?_

theorem execHoldRaise_kept {p : Nat} (h : Kept z s) :
    Answered z (execHoldRaise p s) := by
  unfold execHoldRaise
  refine ⟨_, rfl, ?_⟩
  with_reducible repeat' first
    | assumption | refine State.fireEdge_kept ?_

theorem execHoldRelease_kept {p : Nat} (h : Kept z s) :
    Answered z (execHoldRelease p s) := by
  unfold execHoldRelease
  refine ⟨_, rfl, ?_⟩
  with_reducible repeat' first
    | assumption | refine State.when_kept ?_ ?_ | refine State.actEdge_kept ?_ | refine State.onEdges_kept ?_
    | refine Kept.cond ?_ ?_ | split | (intro _ _; intros; beta_reduce)

theorem execTouchedMasksReceived_kept {id : Nat} (h : Kept z s) :
    Answered z (execTouchedMasksReceived id s) := by
  unfold execTouchedMasksReceived
  refine ⟨_, rfl, ?_⟩
  with_reducible repeat' first
    | assumption | refine State.masksArrive_kept ?_

theorem execGuardClose_kept {p : Nat} (h : Kept z s) :
    Answered z (execGuardClose p s) := by
  unfold execGuardClose
  refine ⟨_, rfl, ?_⟩
  with_reducible repeat' first
    | assumption | refine State.guardCloses_kept ?_

theorem execGuardReopen_kept {p : Nat} (h : Kept z s) :
    Answered z (execGuardReopen p s) := by
  unfold execGuardReopen
  refine ⟨_, rfl, ?_⟩
  with_reducible repeat' first
    | assumption | refine State.guardReopens_kept ?_

theorem execShaperEntryWrite_kept {q o w : Nat} (h : Kept z s) :
    Answered z (execShaperEntryWrite q o w s) := by
  unfold execShaperEntryWrite
  refine ⟨_, rfl, ?_⟩
  with_reducible repeat' first
    | assumption | refine State.atReg_kept ?_ ?_ | refine State.writeShaper_kept ?_
    | refine State.memWritten_kept ?_ | split | (intro _ _; intros; beta_reduce)

theorem execShaperPeek_kept {q w : Nat} (h : Kept z s) :
    Answered z (execShaperPeek q w s) := by
  unfold execShaperPeek
  refine ⟨_, rfl, ?_⟩
  with_reducible repeat' first
    | assumption | refine State.atReg_kept ?_ ?_ | refine State.writeShpPeek_kept ?_
    | (intro _ _; intros; beta_reduce)

theorem execShaperCreditZero_kept {p : Nat} (h : Kept z s) :
    Answered z (execShaperCreditZero p s) := by
  unfold execShaperCreditZero
  refine ⟨_, rfl, ?_⟩
  with_reducible repeat' first
    | assumption | refine State.atDom_kept ?_ ?_ | refine State.refresh_kept ?_ | (intro _ _; intros; beta_reduce)

theorem execSealTripCheck_kept {bad : Bool} (h : Kept z s) :
    Answered z (execSealTripCheck bad s) := by
  unfold execSealTripCheck
  refine ⟨_, rfl, ?_⟩
  with_reducible repeat' first
    | assumption | refine State.reportReads_kept ?_ | refine State.judgeTrip_kept ?_ | split
    | refine Kept.upd ?_ rfl

theorem execMasterReset_kept {m : Nat} {cut : Bool} (h : Kept z s) :
    Answered z (execMasterReset m cut s) := by
  unfold execMasterReset
  refine ⟨_, rfl, ?_⟩
  with_reducible repeat' first
    | assumption | refine State.atDom_kept ?_ ?_ | refine State.masterReset_kept ?_
    | (intro _ _; intros; beta_reduce)

theorem execBmvGo_kept {n w : Nat} (h : Kept z s) :
    Answered z (execBmvGo n w s) := by
  unfold execBmvGo
  refine ⟨_, rfl, ?_⟩
  with_reducible repeat' first
    | assumption | refine State.atReg_kept ?_ ?_ | refine State.writeBmvCtl_kept ?_
    | (intro _ _; intros; beta_reduce)

theorem execBmvAbort_kept {n w : Nat} (h : Kept z s) :
    Answered z (execBmvAbort n w s) := by
  unfold execBmvAbort
  refine ⟨_, rfl, ?_⟩
  with_reducible repeat' first
    | assumption | refine State.atReg_kept ?_ ?_ | refine State.writeBmvCtl_kept ?_
    | (intro _ _; intros; beta_reduce)

theorem execSealStart_kept {n : Nat} (h : Kept z s) :
    Answered z (execSealStart n s) := by
  unfold execSealStart
  refine ⟨_, rfl, ?_⟩
  with_reducible repeat' first
    | assumption | refine State.atReg_kept ?_ ?_ | refine State.sealStart_kept ?_ | (intro _ _; intros; beta_reduce)

theorem execSealEvalDone_kept {n : Nat} {bad : Bool} (h : Kept z s) :
    Answered z (execSealEvalDone n bad s) := by
  unfold execSealEvalDone
  refine ⟨_, rfl, ?_⟩
  with_reducible repeat' first
    | assumption | refine State.atReg_kept ?_ ?_ | refine State.reportReads_kept ?_ | refine State.sealDone_kept ?_
    | (intro _ _; intros; beta_reduce)

theorem execEventPulse_kept (h : Kept z s) :
    Answered z (execEventPulse s) := by
  unfold execEventPulse
  refine ⟨_, rfl, ?_⟩
  with_reducible repeat' first
    | assumption | refine State.atDom_kept ?_ ?_ | refine State.deliverPulse_kept ?_
    | (intro _ _; intros; beta_reduce)

theorem execFire_kept (h : Kept z s) :
    Answered z (execFire s) := by
  unfold execFire
  refine ⟨_, rfl, ?_⟩
  with_reducible repeat' first
    | assumption | refine State.atReg_kept ?_ ?_ | refine State.pulse_kept ?_ | (intro _ _; intros; beta_reduce)

theorem execSeqRun_kept {w : Nat} (h : Kept z s) :
    Answered z (execSeqRun w s) := by
  unfold execSeqRun
  refine ⟨_, rfl, ?_⟩
  with_reducible repeat' first
    | assumption | refine State.atReg_kept ?_ ?_ | refine State.writeMtxCtl_kept ?_
    | (intro _ _; intros; beta_reduce)

theorem execWideLowWordRead_kept {q : Requester} {r : BusRead} (h : Kept z s) :
    Answered z (execWideLowWordRead q r s) := by
  unfold execWideLowWordRead
  refine ⟨_, rfl, ?_⟩
  with_reducible repeat' first
    | assumption | refine State.regRead_kept ?_ | refine State.when_kept ?_ ?_ | refine State.barRead_kept ?_
    | refine Kept.cond ?_ ?_ | split | (intro _ _; intros; beta_reduce)

theorem execZoneSample_kept {z1 temp : Nat} (h : Kept z s) :
    Answered z (execZoneSample z1 temp s) := by
  unfold execZoneSample
  refine ⟨_, rfl, ?_⟩
  with_reducible repeat' first
    | assumption | refine State.onAnneal_kept ?_ ?_ | refine State.when_kept ?_ ?_
    | refine State.zoneReading_kept ?_ | (intro _ _; intros; beta_reduce)

theorem execPassMaxAge_kept {q : Nat} (h : Kept z s) :
    Answered z (execPassMaxAge q s) := by
  unfold execPassMaxAge
  refine ⟨_, rfl, ?_⟩
  with_reducible repeat' first
    | assumption | refine State.onAnneal_kept ?_ ?_ | refine State.when_kept ?_ ?_ | refine State.passDue_kept ?_
    | (intro _ _; intros; beta_reduce)

theorem execRunNow_kept {q w : Nat} (h : Kept z s) :
    Answered z (execRunNow q w s) := by
  unfold execRunNow
  refine ⟨_, rfl, ?_⟩
  with_reducible repeat' first
    | assumption | refine State.atReg_kept ?_ ?_ | refine State.writeAnlCtl_kept ?_
    | (intro _ _; intros; beta_reduce)

theorem execAnnealStepStart_kept {q : Nat} (h : Kept z s) :
    Answered z (execAnnealStepStart q s) := by
  unfold execAnnealStepStart
  refine ⟨_, rfl, ?_⟩
  with_reducible repeat' first
    | assumption | refine State.onAnneal_kept ?_ ?_ | refine State.stepStart_kept ?_
    | (intro _ _; intros; beta_reduce)

theorem execAnnealTableLoad_kept {q : Nat} {bad : Bool} (h : Kept z s) :
    Answered z (execAnnealTableLoad q bad s) := by
  unfold execAnnealTableLoad
  refine ⟨_, rfl, ?_⟩
  with_reducible repeat' first
    | assumption | refine State.onAnneal_kept ?_ ?_ | refine State.reportReads_kept ?_
    | refine State.tableLoad_kept ?_ | (intro _ _; intros; beta_reduce)

theorem execAnnealEnable_kept {w : Nat} (h : Kept z s) :
    Answered z (execAnnealEnable w s) := by
  unfold execAnnealEnable
  refine ⟨_, rfl, ?_⟩
  with_reducible repeat' first
    | assumption | refine State.atReg_kept ?_ ?_ | refine State.writeAnlCtl_kept ?_
    | (intro _ _; intros; beta_reduce)

theorem execUncalBatchWrite_kept {q : Nat} (h : Kept z s) :
    Answered z (execUncalBatchWrite q s) := by
  unfold execUncalBatchWrite
  refine ⟨_, rfl, ?_⟩
  with_reducible repeat' first
    | assumption | refine State.onAnneal_kept ?_ ?_ | refine State.uncalBatch_kept ?_
    | (intro _ _; intros; beta_reduce)

theorem execBronzeEvent_kept {code block index arg0 arg1 : Nat} (h : Kept z s) :
    Answered z (execBronzeEvent code block index arg0 arg1 s) := by
  unfold execBronzeEvent
  refine ⟨_, rfl, ?_⟩
  with_reducible repeat' first
    | assumption | refine State.atDom_kept ?_ ?_ | refine State.brzEvent_kept ?_ | refine Kept.cond ?_ ?_
    | (intro _ _; intros; beta_reduce)

theorem execBronzeRecordWrite_kept (h : Kept z s) :
    Answered z (execBronzeRecordWrite s) := by
  unfold execBronzeRecordWrite
  refine ⟨_, rfl, ?_⟩
  with_reducible repeat' first
    | assumption | refine State.atDom_kept ?_ ?_ | refine State.writeRecord_kept ?_ | refine State.when_kept ?_ ?_
    | refine State.entryWritten_kept ?_ | (intro _ _; intros; beta_reduce) | dsimp only

theorem execBronzeWindowStart_kept (h : Kept z s) :
    Answered z (execBronzeWindowStart s) := by
  unfold execBronzeWindowStart
  refine ⟨_, rfl, ?_⟩
  with_reducible repeat' first
    | assumption | refine State.atDom_kept ?_ ?_ | refine State.brzWindow_kept ?_ | (intro _ _; intros; beta_reduce)

theorem execFreeze_kept {w : Nat} (h : Kept z s) :
    Answered z (execFreeze w s) := by
  unfold execFreeze
  refine ⟨_, rfl, ?_⟩
  with_reducible repeat' first
    | assumption | refine State.atDom_kept ?_ ?_ | refine State.writeBrzCtl_kept ?_
    | (intro _ _; intros; beta_reduce)

theorem execUnfreeze_kept {w : Nat} (h : Kept z s) :
    Answered z (execUnfreeze w s) := by
  unfold execUnfreeze
  refine ⟨_, rfl, ?_⟩
  with_reducible repeat' first
    | assumption | refine State.atDom_kept ?_ ?_ | refine State.writeBrzCtl_kept ?_
    | (intro _ _; intros; beta_reduce)

theorem execKeepFlushDone_kept (h : Kept z s) :
    Answered z (execKeepFlushDone s) := by
  unfold execKeepFlushDone
  refine ⟨_, rfl, ?_⟩
  with_reducible repeat' first
    | assumption | refine State.atDom_kept ?_ ?_ | refine State.reportReads_kept ?_ | refine State.endFlush_kept ?_
    | (intro _ _; intros; beta_reduce)

theorem execKeepCheckDone_kept (h : Kept z s) :
    Answered z (execKeepCheckDone s) := by
  unfold execKeepCheckDone
  refine ⟨_, rfl, ?_⟩
  with_reducible repeat' first
    | assumption | refine State.atDom_kept ?_ ?_ | refine State.reportReads_kept ?_ | refine State.keepCheck_kept ?_
    | (intro _ _; intros; beta_reduce)

theorem execBronzeReady_kept (h : Kept z s) :
    Answered z (execBronzeReady s) := by
  unfold execBronzeReady
  refine ⟨_, rfl, ?_⟩
  with_reducible repeat' first
    | assumption | refine State.atDom_kept ?_ ?_ | refine State.reportReads_kept ?_ | refine State.brzStart_kept ?_
    | (intro _ _; intros; beta_reduce)

theorem execSoftwareRecord_kept {req : Requester} {w : Nat} (h : Kept z s) :
    Answered z (execSoftwareRecord req w s) := by
  unfold execSoftwareRecord
  refine ⟨_, rfl, ?_⟩
  with_reducible repeat' first
    | assumption | refine State.atDom_kept ?_ ?_ | refine State.softRecord_kept ?_
    | (intro _ _; intros; beta_reduce)

theorem execSupplySample_kept {raw : Nat} (h : Kept z s) :
    Answered z (execSupplySample raw s) := by
  unfold execSupplySample
  refine ⟨_, rfl, ?_⟩
  with_reducible repeat' first
    | assumption | refine State.atDom_kept ?_ ?_ | refine State.hiddenPass_kept ?_
    | refine State.supplySample_kept ?_ | (intro _ _; intros; beta_reduce)

theorem execRippleWindowEnd_kept (h : Kept z s) :
    Answered z (execRippleWindowEnd s) := by
  unfold execRippleWindowEnd
  refine ⟨_, rfl, ?_⟩
  with_reducible repeat' first
    | assumption | refine State.atDom_kept ?_ ?_ | refine State.rippleWindow_kept ?_
    | (intro _ _; intros; beta_reduce)

theorem execPfwAssert_kept (h : Kept z s) :
    Answered z (execPfwAssert s) := by
  unfold execPfwAssert
  refine ⟨_, rfl, ?_⟩
  with_reducible repeat' first
    | assumption | refine State.atDom_kept ?_ ?_ | refine State.pfwAssert_kept ?_ | (intro _ _; intros; beta_reduce)

theorem execPfwRelease_kept (h : Kept z s) :
    Answered z (execPfwRelease s) := by
  unfold execPfwRelease
  refine ⟨_, rfl, ?_⟩
  with_reducible repeat' first
    | assumption | refine State.atDom_kept ?_ ?_ | refine State.fset_kept ?_ | refine State.brzEvent_kept ?_
    | refine Kept.cond ?_ ?_ | (intro _ _; intros; beta_reduce)

theorem execBmvReadReturn_kept {n : Nat} {data : List Nat} {err : Bool} (h : Kept z s) :
    Answered z (execBmvReadReturn n data err s) := by
  unfold execBmvReadReturn
  refine ⟨_, rfl, ?_⟩
  with_reducible repeat' first
    | assumption | refine State.atDom_kept ?_ ?_ | refine State.readReturns_kept ?_
    | (intro _ _; intros; beta_reduce)

theorem execBmvWriteResponse_kept {n : Nat} {err : Bool} (h : Kept z s) :
    Answered z (execBmvWriteResponse n err s) := by
  unfold execBmvWriteResponse
  refine ⟨_, rfl, ?_⟩
  with_reducible repeat' first
    | assumption | refine State.atDom_kept ?_ ?_ | refine State.writeAnswered_kept ?_
    | (intro _ _; intros; beta_reduce)

theorem execMasterDrainDone_kept {m : Nat} (h : Kept z s) :
    Answered z (execMasterDrainDone m s) := by
  unfold execMasterDrainDone
  refine ⟨_, rfl, ?_⟩
  with_reducible repeat' first
    | assumption | refine State.atDom_kept ?_ ?_ | refine State.when_kept ?_ ?_ | refine State.wr_kept ?_
    | refine State.issueParked_kept ?_ | refine State.moversGo_kept ?_ | refine State.serviceGo_kept ?_
    | refine State.fetchPump_kept ?_ | refine Kept.cond ?_ ?_ | refine Kept.upd ?_ rfl
    | (intro _ _; intros; beta_reduce) | dsimp only

theorem execShedLevelLeave_kept {u : Nat} (h : Kept z s) :
    Answered z (execShedLevelLeave u s) := by
  unfold execShedLevelLeave
  refine ⟨_, rfl, ?_⟩
  with_reducible repeat' first
    | assumption | refine State.resumed_kept ?_ | refine State.shedLeave_kept ?_

theorem execMinRst_kept {w : Nat} (h : Kept z s) :
    Answered z (execMinRst w s) := by
  unfold execMinRst
  refine ⟨_, rfl, ?_⟩
  with_reducible repeat' first
    | assumption | refine State.resumed_kept ?_ | refine State.writeSlkCtl_kept ?_

theorem execRegWrite_kept {q : Requester} {bar2 : Bool} {a v be : Nat} (h : Kept z s) :
    Answered z (execRegWrite q bar2 a v be s) := by
  unfold execRegWrite
  refine ⟨_, rfl, ?_⟩
  with_reducible repeat' first
    | assumption | refine State.when_kept ?_ ?_ | refine State.bar2Write_kept ?_ | refine State.resumed_kept ?_
    | refine State.regWrite_kept ?_ | refine Kept.cond ?_ ?_ | split | (intro _ _; intros; beta_reduce)

theorem execWideUpperWordWrite_kept {q : Requester} {a v : Nat} (h : Kept z s) :
    Answered z (execWideUpperWordWrite q a v s) := by
  unfold execWideUpperWordWrite
  refine ⟨_, rfl, ?_⟩
  with_reducible repeat' first
    | assumption | refine State.resumed_kept ?_ | refine State.regWrite_kept ?_

theorem execWideLowWordWrite_kept {q : Requester} {a v : Nat} (h : Kept z s) :
    Answered z (execWideLowWordWrite q a v s) := by
  unfold execWideLowWordWrite
  refine ⟨_, rfl, ?_⟩
  with_reducible repeat' first
    | assumption | refine State.resumed_kept ?_ | refine State.regWrite_kept ?_

theorem execMatrixBurst_kept {b : Burst} (h : Kept z s) :
    Answered z (execMatrixBurst b s) := by
  unfold execMatrixBurst
  refine ⟨_, rfl, ?_⟩
  with_reducible repeat' first
    | assumption | refine State.atDom_kept ?_ ?_ | refine State.burst_kept ?_ | (intro _ _; intros; beta_reduce)

theorem execServicePortWrite_kept {addr v : Nat} {x : SvcEnd} (h : Kept z s) :
    Answered z (execServicePortWrite addr v x s) := by
  unfold execServicePortWrite
  refine ⟨_, rfl, ?_⟩
  with_reducible repeat' first
    | assumption | refine State.atDom_kept ?_ ?_ | refine State.serviceTake_kept ?_
    | (intro _ _; intros; beta_reduce)

theorem execServicePortRead_kept {addr : Nat} {x : SvcEnd} (h : Kept z s) :
    Answered z (execServicePortRead addr x s) := by
  unfold execServicePortRead
  refine ⟨_, rfl, ?_⟩
  with_reducible repeat' first
    | assumption | refine State.atDom_kept ?_ ?_ | refine State.serviceTake_kept ?_
    | (intro _ _; intros; beta_reduce)

theorem execServicePortUnknown_kept (h : Kept z s) :
    Answered z (execServicePortUnknown s) := by
  unfold execServicePortUnknown
  refine ⟨_, rfl, ?_⟩
  with_reducible repeat' first
    | assumption

theorem execServicePortCut_kept (h : Kept z s) :
    Answered z (execServicePortCut s) := by
  unfold execServicePortCut
  refine ⟨_, rfl, ?_⟩
  with_reducible repeat' first
    | assumption

theorem execCbChannelEnable_kept {c w : Nat} (h : Kept z s) :
    Answered z (execCbChannelEnable c w s) := by
  unfold execCbChannelEnable
  refine ⟨_, rfl, ?_⟩
  with_reducible repeat' first
    | assumption | refine State.atReg_kept ?_ ?_ | refine State.reportReads_kept ?_ | refine State.when_kept ?_ ?_
    | refine State.writeCbCtl_kept ?_ | (intro _ _; intros; beta_reduce)

theorem execCbChannelDisable_kept {c w : Nat} (h : Kept z s) :
    Answered z (execCbChannelDisable c w s) := by
  unfold execCbChannelDisable
  refine ⟨_, rfl, ?_⟩
  with_reducible repeat' first
    | assumption | refine State.atReg_kept ?_ ?_ | refine State.writeCbCtl_kept ?_
    | (intro _ _; intros; beta_reduce)

theorem execCbCycleStart_kept {c : Nat} {bad : Bool} (h : Kept z s) :
    Answered z (execCbCycleStart c bad s) := by
  unfold execCbCycleStart
  refine ⟨_, rfl, ?_⟩
  with_reducible repeat' first
    | assumption | refine State.onStar_kept ?_ ?_ | refine State.cbCycleStart_kept ?_
    | (intro _ _; intros; beta_reduce)

theorem execGuardianOpen_kept {c id : Nat} {bad : Bool} (h : Kept z s) :
    Answered z (execGuardianOpen c id bad s) := by
  unfold execGuardianOpen
  refine ⟨_, rfl, ?_⟩
  with_reducible repeat' first
    | assumption | refine State.onStar_kept ?_ ?_ | refine State.reportReads_kept ?_
    | refine State.guardOpen_kept ?_ | (intro _ _; intros; beta_reduce)

theorem execGuardianClose_kept {c : Nat} (h : Kept z s) :
    Answered z (execGuardianClose c s) := by
  unfold execGuardianClose
  refine ⟨_, rfl, ?_⟩
  with_reducible repeat' first
    | assumption | refine State.onStar_kept ?_ ?_ | refine State.guardClose'_kept ?_
    | (intro _ _; intros; beta_reduce)

theorem execCbSofArrival_kept {c k at' : Nat} {start : Bool} (h : Kept z s) :
    Answered z (execCbSofArrival c k at' start s) := by
  unfold execCbSofArrival
  refine ⟨_, rfl, ?_⟩
  with_reducible repeat' first
    | assumption | refine State.onStar_kept ?_ ?_ | refine State.sofArrives_kept ?_
    | (intro _ _; intros; beta_reduce)

theorem execCbFrameEnd_kept {c k at' : Nat} {head payload check tail : List Nat} (h : Kept z s) :
    Answered z (execCbFrameEnd c k at' head payload check tail s) := by
  unfold execCbFrameEnd
  refine ⟨_, rfl, ?_⟩
  with_reducible repeat' first
    | assumption | refine State.onStar_kept ?_ ?_ | refine State.cbFrameEnd_kept ?_
    | (intro _ _; intros; beta_reduce)

theorem execCbNitStart_kept {c : Nat} (h : Kept z s) :
    Answered z (execCbNitStart c s) := by
  unfold execCbNitStart
  refine ⟨_, rfl, ?_⟩
  with_reducible repeat' first
    | assumption | refine State.onStar_kept ?_ ?_ | refine State.nitStart_kept ?_ | (intro _ _; intros; beta_reduce)

theorem execUnblock_kept {c k : Nat} (h : Kept z s) :
    Answered z (execUnblock c k s) := by
  unfold execUnblock
  refine ⟨_, rfl, ?_⟩
  with_reducible repeat' first
    | assumption | refine State.atReg_kept ?_ ?_ | refine State.hostUnblock_kept ?_
    | (intro _ _; intros; beta_reduce)

theorem execCbListenTimeout_kept {c : Nat} (h : Kept z s) :
    Answered z (execCbListenTimeout c s) := by
  unfold execCbListenTimeout
  refine ⟨_, rfl, ?_⟩
  with_reducible repeat' first
    | assumption | refine State.onStar_kept ?_ ?_ | refine State.listenTimeout_kept ?_
    | (intro _ _; intros; beta_reduce)

theorem execCbModeRequest_kept {c w : Nat} (h : Kept z s) :
    Answered z (execCbModeRequest c w s) := by
  unfold execCbModeRequest
  refine ⟨_, rfl, ?_⟩
  with_reducible repeat' first
    | assumption | refine State.atReg_kept ?_ ?_ | refine State.reportReads_kept ?_
    | refine State.writeModeReq_kept ?_ | (intro _ _; intros; beta_reduce)

theorem execCbModeSwitch_kept {c : Nat} (h : Kept z s) :
    Answered z (execCbModeSwitch c s) := by
  unfold execCbModeSwitch
  refine ⟨_, rfl, ?_⟩
  with_reducible repeat' first
    | assumption | refine State.onStar_kept ?_ ?_ | refine State.modeSwitch_kept ?_
    | (intro _ _; intros; beta_reduce)

theorem execCbOwnFrameSend_kept {c id : Nat} {bad badTrip badRing : Bool} (h : Kept z s) :
    Answered z (execCbOwnFrameSend c id bad badTrip badRing s) := by
  unfold execCbOwnFrameSend
  refine ⟨_, rfl, ?_⟩
  with_reducible repeat' first
    | assumption | refine State.onStar_kept ?_ ?_ | refine State.reportReads_kept ?_ | refine State.ownFrame_kept ?_
    | refine State.when_kept ?_ ?_ | refine State.ringEcc_kept ?_ | (intro _ _; intros; beta_reduce)

theorem execCbHaltTimeout_kept {c : Nat} (h : Kept z s) :
    Answered z (execCbHaltTimeout c s) := by
  unfold execCbHaltTimeout
  refine ⟨_, rfl, ?_⟩
  with_reducible repeat' first
    | assumption | refine State.onStar_kept ?_ ?_ | refine State.haltTimeout_kept ?_
    | (intro _ _; intros; beta_reduce)

theorem execSpokeCodeGroupSync_kept {c k : Nat} {locked : Bool} (h : Kept z s) :
    Answered z (execSpokeCodeGroupSync c k locked s) := by
  unfold execSpokeCodeGroupSync
  refine ⟨_, rfl, ?_⟩
  with_reducible repeat' first
    | assumption | refine State.onStar_kept ?_ ?_ | refine State.spokeLock_kept ?_
    | (intro _ _; intros; beta_reduce)

theorem execFabLoad_kept {w : Nat} (h : Kept z s) :
    Answered z (execFabLoad w s) := by
  unfold execFabLoad
  refine ⟨_, rfl, ?_⟩
  with_reducible repeat' first
    | assumption | refine State.atReg_kept ?_ ?_ | refine State.writeFabLoad_kept ?_
    | (intro _ _; intros; beta_reduce)

theorem execFabLoadDone_kept {bad : Nat} (h : Kept z s) :
    Answered z (execFabLoadDone bad s) := by
  unfold execFabLoadDone
  refine ⟨_, rfl, ?_⟩
  with_reducible repeat' first
    | assumption | refine State.onFabric_kept ?_ ?_ | refine State.reportReads_kept ?_
    | refine State.fabLoaded_kept ?_ | (intro _ _; intros; beta_reduce)

theorem execFabEnable_kept {w : Nat} (h : Kept z s) :
    Answered z (execFabEnable w s) := by
  unfold execFabEnable
  refine ⟨_, rfl, ?_⟩
  with_reducible repeat' first
    | assumption | refine State.atReg_kept ?_ ?_ | refine State.writeFabCtl_kept ?_
    | (intro _ _; intros; beta_reduce)

theorem execFabCommit_kept {r pos : Nat} (h : Kept z s) :
    Answered z (execFabCommit r pos s) := by
  unfold execFabCommit
  refine ⟨_, rfl, ?_⟩
  with_reducible repeat' first
    | assumption | refine State.fabCommit_kept ?_

theorem execCancel_kept {r pos : Nat} (h : Kept z s) :
    Answered z (execCancel r pos s) := by
  unfold execCancel
  refine ⟨_, rfl, ?_⟩
  with_reducible repeat' first
    | assumption | refine State.fabCancel_kept ?_

theorem execCommitResolved_kept {bad : Nat} (h : Kept z s) :
    Answered z (execCommitResolved bad s) := by
  unfold execCommitResolved
  refine ⟨_, rfl, ?_⟩
  with_reducible repeat' first
    | assumption | refine State.onFabric_kept ?_ ?_ | refine State.reportReads_kept ?_
    | refine State.resolveNext_kept ?_ | (intro _ _; intros; beta_reduce)

theorem execResolveDeadline_kept (h : Kept z s) :
    Answered z (execResolveDeadline s) := by
  unfold execResolveDeadline
  refine ⟨_, rfl, ?_⟩
  with_reducible repeat' first
    | assumption | refine State.onFabric_kept ?_ ?_ | refine State.resolveLate_kept ?_
    | (intro _ _; intros; beta_reduce)

theorem execFabArm_kept (h : Kept z s) :
    Answered z (execFabArm s) := by
  unfold execFabArm
  refine ⟨_, rfl, ?_⟩
  with_reducible repeat' first
    | assumption | refine State.fabArm_kept ?_

theorem execArmDeadline_kept (h : Kept z s) :
    Answered z (execArmDeadline s) := by
  unfold execArmDeadline
  refine ⟨_, rfl, ?_⟩
  with_reducible repeat' first
    | assumption | refine State.onFabric_kept ?_ ?_ | refine State.armLate_kept ?_
    | (intro _ _; intros; beta_reduce)

theorem execCommitDispatch_kept (h : Kept z s) :
    Answered z (execCommitDispatch s) := by
  unfold execCommitDispatch
  refine ⟨_, rfl, ?_⟩
  with_reducible repeat' first
    | assumption | refine State.onFabric_kept ?_ ?_ | refine State.dispatch_kept ?_
    | (intro _ _; intros; beta_reduce)

theorem execCommitInstant_kept (h : Kept z s) :
    Answered z (execCommitInstant s) := by
  unfold execCommitInstant
  refine ⟨_, rfl, ?_⟩
  with_reducible repeat' first
    | assumption | refine State.onFabric_kept ?_ ?_ | refine State.commitInstant_kept ?_
    | (intro _ _; intros; beta_reduce)

theorem execSliceReport_kept {q id : Nat} (h : Kept z s) :
    Answered z (execSliceReport q id s) := by
  unfold execSliceReport
  refine ⟨_, rfl, ?_⟩
  with_reducible repeat' first
    | assumption | refine State.sliceReport_kept ?_

theorem execCommitWithdrawal_kept (h : Kept z s) :
    Answered z (execCommitWithdrawal s) := by
  unfold execCommitWithdrawal
  refine ⟨_, rfl, ?_⟩
  with_reducible repeat' first
    | assumption | refine State.onFabric_kept ?_ ?_ | refine State.withdrawOld_kept ?_
    | (intro _ _; intros; beta_reduce)

theorem execBlankEnd_kept {i id : Nat} (h : Kept z s) :
    Answered z (execBlankEnd i id s) := by
  unfold execBlankEnd
  refine ⟨_, rfl, ?_⟩
  with_reducible repeat' first
    | assumption | refine State.blankEnd_kept ?_

theorem execPolicyBuild_kept {bad : List Nat} {fbad : Bool} (h : Kept z s) :
    Answered z (execPolicyBuild bad fbad s) := by
  unfold execPolicyBuild
  refine ⟨_, rfl, ?_⟩
  with_reducible repeat' first
    | assumption | refine State.onFabric_kept ?_ ?_ | refine State.reportReads_kept ?_
    | refine State.policyBuild_kept ?_ | (intro _ _; intros; beta_reduce)

theorem execWtrExpire_kept {x : WtrEnd} (h : Kept z s) :
    Answered z (execWtrExpire x s) := by
  unfold execWtrExpire
  refine ⟨_, rfl, ?_⟩
  with_reducible repeat' first
    | assumption | refine State.onFabric_kept ?_ ?_ | refine State.reportReads_kept ?_
    | refine State.wtrExpire_kept ?_ | (intro _ _; intros; beta_reduce)

theorem execGrafaEnable_kept {q w : Nat} (h : Kept z s) :
    Answered z (execGrafaEnable q w s) := by
  unfold execGrafaEnable
  refine ⟨_, rfl, ?_⟩
  with_reducible repeat' first
    | assumption | refine State.atReg_kept ?_ ?_ | refine State.writeGrfCtl_kept ?_
    | (intro _ _; intros; beta_reduce)

theorem execGrafaDisable_kept {q w : Nat} (h : Kept z s) :
    Answered z (execGrafaDisable q w s) := by
  unfold execGrafaDisable
  refine ⟨_, rfl, ?_⟩
  with_reducible repeat' first
    | assumption | refine State.atReg_kept ?_ ?_ | refine State.writeGrfCtl_kept ?_
    | (intro _ _; intros; beta_reduce)

theorem execRetrain_kept {q w : Nat} (h : Kept z s) :
    Answered z (execRetrain q w s) := by
  unfold execRetrain
  refine ⟨_, rfl, ?_⟩
  with_reducible repeat' first
    | assumption | refine State.atReg_kept ?_ ?_ | refine State.writeGrfCtl_kept ?_
    | (intro _ _; intros; beta_reduce)

theorem execHoldRelWrite_kept {q w : Nat} (h : Kept z s) :
    Answered z (execHoldRelWrite q w s) := by
  unfold execHoldRelWrite
  refine ⟨_, rfl, ?_⟩
  with_reducible repeat' first
    | assumption | refine State.atReg_kept ?_ ?_ | refine State.writeGrfCtl_kept ?_
    | (intro _ _; intros; beta_reduce)

theorem execUpstreamLockAcquired_kept {l : LaneHeads} (h : Kept z s) :
    Answered z (execUpstreamLockAcquired l s) := by
  unfold execUpstreamLockAcquired
  refine ⟨_, rfl, ?_⟩
  with_reducible repeat' first
    | assumption | refine State.onLink_kept ?_ ?_ | refine State.locksAcquired_kept ?_
    | (intro _ _; intros; beta_reduce)

theorem execLockTimeout_kept {q : Nat} (h : Kept z s) :
    Answered z (execLockTimeout q s) := by
  unfold execLockTimeout
  refine ⟨_, rfl, ?_⟩
  with_reducible repeat' first
    | assumption | refine State.when_kept ?_ ?_ | refine State.trainFail_kept ?_ | (intro _ _; intros; beta_reduce)

theorem execAlignDone_kept {q : Nat} (h : Kept z s) :
    Answered z (execAlignDone q s) := by
  unfold execAlignDone
  refine ⟨_, rfl, ?_⟩
  with_reducible repeat' first
    | assumption | refine State.onLink_kept ?_ ?_ | refine State.alignDone_kept ?_
    | (intro _ _; intros; beta_reduce)

theorem execAlignTimeout_kept {q : Nat} (h : Kept z s) :
    Answered z (execAlignTimeout q s) := by
  unfold execAlignTimeout
  refine ⟨_, rfl, ?_⟩
  with_reducible repeat' first
    | assumption | refine State.when_kept ?_ ?_ | refine State.trainFail_kept ?_ | (intro _ _; intros; beta_reduce)

theorem execRetryDelayExpire_kept {q : Nat} (h : Kept z s) :
    Answered z (execRetryDelayExpire q s) := by
  unfold execRetryDelayExpire
  refine ⟨_, rfl, ?_⟩
  with_reducible repeat' first
    | assumption | refine State.retryNow_kept ?_

theorem execBlockLockLost_kept {q j : Nat} {heads : List Nat} (h : Kept z s) :
    Answered z (execBlockLockLost q j heads s) := by
  unfold execBlockLockLost
  refine ⟨_, rfl, ?_⟩
  with_reducible repeat' first
    | assumption | refine State.onLink_kept ?_ ?_ | refine State.headersIn_kept ?_
    | (intro _ _; intros; beta_reduce)

theorem execSyncMissed_kept {q j : Nat} (h : Kept z s) :
    Answered z (execSyncMissed q j s) := by
  unfold execSyncMissed
  refine ⟨_, rfl, ?_⟩
  with_reducible repeat' first
    | assumption | refine State.onLink_kept ?_ ?_ | refine State.syncMissed_kept ?_
    | (intro _ _; intros; beta_reduce)

theorem execCommandTimeout_kept {q seq : Nat} (h : Kept z s) :
    Answered z (execCommandTimeout q seq s) := by
  unfold execCommandTimeout
  refine ⟨_, rfl, ?_⟩
  with_reducible repeat' first
    | assumption | refine State.cmdTimeout_kept ?_

theorem execGrafaSyncTransmit_kept {q at' : Nat} (h : Kept z s) :
    Answered z (execGrafaSyncTransmit q at' s) := by
  unfold execGrafaSyncTransmit
  refine ⟨_, rfl, ?_⟩
  with_reducible repeat' first
    | assumption | refine State.syncTransmit_kept ?_

theorem execGrafaSyncReceived_kept {q : Nat} {lanes : List (Nat × Nat × Nat × Nat)} (h : Kept z s) :
    Answered z (execGrafaSyncReceived q lanes s) := by
  unfold execGrafaSyncReceived
  refine ⟨_, rfl, ?_⟩
  with_reducible repeat' first
    | assumption | refine State.onLink_kept ?_ ?_ | refine State.syncReceived_kept ?_
    | (intro _ _; intros; beta_reduce)

theorem execFlitCrcError_kept {q idle : Nat} (h : Kept z s) :
    Answered z (execFlitCrcError q idle s) := by
  unfold execFlitCrcError
  refine ⟨_, rfl, ?_⟩
  with_reducible repeat' first
    | assumption | refine State.onLink_kept ?_ ?_ | refine State.flitBad_kept ?_ | (intro _ _; intros; beta_reduce)

theorem execFlitTypeError_kept {q fcnt : Nat} (h : Kept z s) :
    Answered z (execFlitTypeError q fcnt s) := by
  unfold execFlitTypeError
  refine ⟨_, rfl, ?_⟩
  with_reducible repeat' first
    | assumption | refine State.onLink_kept ?_ ?_ | refine State.flitUnknown_kept ?_
    | (intro _ _; intros; beta_reduce)

theorem execPingTimer_kept {q : Nat} (h : Kept z s) :
    Answered z (execPingTimer q s) := by
  unfold execPingTimer
  refine ⟨_, rfl, ?_⟩
  with_reducible repeat' first
    | assumption | refine State.when_kept ?_ ?_ | refine State.command_kept ?_ | (intro _ _; intros; beta_reduce)

theorem execMeasurePing_kept {q : Nat} (h : Kept z s) :
    Answered z (execMeasurePing q s) := by
  unfold execMeasurePing
  refine ⟨_, rfl, ?_⟩
  with_reducible repeat' first
    | assumption | refine State.measurePing_kept ?_

theorem execRsp_kept {q seq op status : Nat} {words : List Nat} {rtt fcnt : Nat} (h : Kept z s) :
    Answered z (execRsp q seq op status words rtt fcnt s) := by
  unfold execRsp
  refine ⟨_, rfl, ?_⟩
  with_reducible repeat' first
    | assumption | refine State.onLink_kept ?_ ?_ | refine State.reportReads_kept ?_
    | refine State.rspArrives_kept ?_ | (intro _ _; intros; beta_reduce)

theorem execStatus_kept {q temp0 temp1 alarm cal flags bound : Nat} {cnts : List Nat} {fcnt : Nat} (h : Kept z s) :
    Answered z (execStatus q temp0 temp1 alarm cal flags bound cnts fcnt s) := by
  unfold execStatus
  refine ⟨_, rfl, ?_⟩
  with_reducible repeat' first
    | assumption | refine State.onLink_kept ?_ ?_ | refine State.statusArrives_kept ?_
    | (intro _ _; intros; beta_reduce)

theorem execTap_kept {q base j : Nat} {codes lost : List Nat} {fcnt : Nat} (h : Kept z s) :
    Answered z (execTap q base j codes lost fcnt s) := by
  unfold execTap
  refine ⟨_, rfl, ?_⟩
  with_reducible repeat' first
    | assumption | refine State.onLink_kept ?_ ?_ | refine State.hiddenPass_kept ?_
    | refine State.tapArrives_kept ?_ | (intro _ _; intros; beta_reduce)

theorem execTapReset_kept (h : Kept z s) :
    Answered z (execTapReset s) := by
  unfold execTapReset
  refine ⟨_, rfl, ?_⟩
  with_reducible repeat' first
    | assumption | refine State.tapSelect_kept ?_

theorem execExtest_kept {v : Option Nat} (h : Kept z s) :
    Answered z (execExtest v s) := by
  unfold execExtest
  refine ⟨_, rfl, ?_⟩
  with_reducible repeat' first
    | assumption | refine State.boundaryScan_kept ?_ | refine State.tapSelect_kept ?_

theorem execIdcode_kept (h : Kept z s) :
    Answered z (execIdcode s) := by
  unfold execIdcode
  refine ⟨_, rfl, ?_⟩
  with_reducible repeat' first
    | assumption | refine State.emit_kept ?_ | refine State.tapSelect_kept ?_

theorem execSamplePreload_kept {v : Option Nat} (h : Kept z s) :
    Answered z (execSamplePreload v s) := by
  unfold execSamplePreload
  refine ⟨_, rfl, ?_⟩
  with_reducible repeat' first
    | assumption | refine State.boundaryScan_kept ?_ | refine State.tapSelect_kept ?_

theorem execHighz_kept (h : Kept z s) :
    Answered z (execHighz s) := by
  unfold execHighz
  refine ⟨_, rfl, ?_⟩
  with_reducible repeat' first
    | assumption | refine State.tapSelect_kept ?_

theorem execClamp_kept (h : Kept z s) :
    Answered z (execClamp s) := by
  unfold execClamp
  refine ⟨_, rfl, ?_⟩
  with_reducible repeat' first
    | assumption | refine State.tapSelect_kept ?_

theorem execExtestPulse_kept {v : Option Nat} (h : Kept z s) :
    Answered z (execExtestPulse v s) := by
  unfold execExtestPulse
  refine ⟨_, rfl, ?_⟩
  with_reducible repeat' first
    | assumption | refine State.boundaryScan_kept ?_ | refine State.tapSelect_kept ?_

theorem execExtestTrain_kept {v : Option Nat} (h : Kept z s) :
    Answered z (execExtestTrain v s) := by
  unfold execExtestTrain
  refine ⟨_, rfl, ?_⟩
  with_reducible repeat' first
    | assumption | refine State.boundaryScan_kept ?_ | refine State.tapSelect_kept ?_

theorem execBypass_kept (h : Kept z s) :
    Answered z (execBypass s) := by
  unfold execBypass
  refine ⟨_, rfl, ?_⟩
  with_reducible repeat' first
    | assumption | refine State.tapSelect_kept ?_

theorem execTimePllLock_kept (h : Kept z s) :
    Answered z (execTimePllLock s) := by
  unfold execTimePllLock
  refine ⟨_, rfl, ?_⟩
  with_reducible repeat' first
    | assumption | refine State.atDom_kept ?_ ?_ | refine State.pllLock_kept ?_ | (intro _ _; intros; beta_reduce)

theorem execPowerRequest_kept {j w : Nat} (h : Kept z s) :
    Answered z (execPowerRequest j w s) := by
  unfold execPowerRequest
  refine ⟨_, rfl, ?_⟩
  with_reducible repeat' first
    | assumption | refine State.atReg_kept ?_ ?_ | refine State.writePwrOn_kept ?_
    | (intro _ _; intros; beta_reduce)

theorem execDomainRampStart_kept (h : Kept z s) :
    Answered z (execDomainRampStart s) := by
  unfold execDomainRampStart
  refine ⟨_, rfl, ?_⟩
  with_reducible repeat' first
    | assumption | refine State.atDom_kept ?_ ?_ | refine State.setDomState_kept ?_ | refine Kept.cond ?_ ?_ | split
    | (intro _ _; intros; beta_reduce)

theorem execDomainRampDone_kept (h : Kept z s) :
    Answered z (execDomainRampDone s) := by
  unfold execDomainRampDone
  refine ⟨_, rfl, ?_⟩
  with_reducible repeat' first
    | assumption | refine State.domFollow_kept ?_ | refine State.setDomState_kept ?_ | refine State.cntF_kept ?_
    | split

theorem execDomainOff_kept {n : Nat} (h : Kept z s) :
    Answered z (execDomainOff n s) := by
  unfold execDomainOff
  refine ⟨_, rfl, ?_⟩
  with_reducible repeat' first
    | assumption | refine State.when_kept ?_ ?_ | refine State.setDomState_kept ?_ | refine State.tryEndIso_kept ?_
    | refine Kept.cond ?_ ?_ | refine Kept.upd ?_ rfl | (intro _ _; intros; beta_reduce) | dsimp only

theorem execDomainReady_kept {n : Nat} (h : Kept z s) :
    Answered z (execDomainReady n s) := by
  unfold execDomainReady
  refine ⟨_, rfl, ?_⟩
  with_reducible repeat' first
    | assumption | refine State.becomeReady_kept ?_

theorem execColdPowerUp_kept (h : Kept z s) :
    Answered z (execColdPowerUp s) := by
  unfold execColdPowerUp
  refine ⟨_, rfl, ?_⟩
  with_reducible repeat' first
    | assumption | refine State.deviceReset_kept ?_ | refine Kept.upd ?_ rfl

theorem execPorAssert_kept (h : Kept z s) :
    Answered z (execPorAssert s) := by
  unfold execPorAssert
  refine ⟨_, rfl, ?_⟩
  with_reducible repeat' first
    | assumption | refine State.deviceReset_kept ?_ | refine Kept.upd ?_ rfl

theorem execPorRelease_kept (h : Kept z s) :
    Answered z (execPorRelease s) := by
  unfold execPorRelease
  refine ⟨_, rfl, ?_⟩
  with_reducible repeat' first
    | assumption | refine State.when_kept ?_ ?_ | refine State.drivePd00_kept ?_ | refine Kept.upd ?_ rfl
    | (intro _ _; intros; beta_reduce)

theorem execPd00Undervoltage_kept (h : Kept z s) :
    Answered z (execPd00Undervoltage s) := by
  unfold execPd00Undervoltage
  refine ⟨_, rfl, ?_⟩
  with_reducible repeat' first
    | assumption | refine State.when_kept ?_ ?_ | refine State.deviceReset_kept ?_
    | (intro _ _; intros; beta_reduce)

theorem execControllerResetAssert_kept (h : Kept z s) :
    Answered z (execControllerResetAssert s) := by
  unfold execControllerResetAssert
  refine ⟨_, rfl, ?_⟩
  with_reducible repeat' first
    | assumption | refine State.atDom_kept ?_ ?_ | refine State.controllerReset_kept ?_ | refine Kept.upd ?_ rfl
    | (intro _ _; intros; beta_reduce)

theorem execControllerResetRelease_kept (h : Kept z s) :
    Answered z (execControllerResetRelease s) := by
  unfold execControllerResetRelease
  refine ⟨_, rfl, ?_⟩
  with_reducible repeat' first
    | assumption | refine Kept.upd ?_ rfl

theorem execRstNGlitch_kept (h : Kept z s) :
    Answered z (execRstNGlitch s) := by
  unfold execRstNGlitch
  refine ⟨_, rfl, ?_⟩
  with_reducible repeat' first
    | assumption | refine State.atDom_kept ?_ ?_ | refine State.fset_kept ?_ | (intro _ _; intros; beta_reduce)

theorem execCtrlRst_kept {w : Nat} (h : Kept z s) :
    Answered z (execCtrlRst w s) := by
  unfold execCtrlRst
  refine ⟨_, rfl, ?_⟩
  with_reducible repeat' first
    | assumption | refine State.atReg_kept ?_ ?_ | refine State.writePwrCtl_kept ?_
    | (intro _ _; intros; beta_reduce)

theorem execCtrlRstExpire_kept (h : Kept z s) :
    Answered z (execCtrlRstExpire s) := by
  unfold execCtrlRstExpire
  refine ⟨_, rfl, ?_⟩
  with_reducible repeat' first
    | assumption | refine Kept.cond ?_ ?_ | refine Kept.upd ?_ rfl

theorem execPwrHold_kept {j w : Nat} (h : Kept z s) :
    Answered z (execPwrHold j w s) := by
  unfold execPwrHold
  refine ⟨_, rfl, ?_⟩
  with_reducible repeat' first
    | assumption | refine State.atReg_kept ?_ ?_ | refine State.writePwrHold_kept ?_
    | (intro _ _; intros; beta_reduce)

theorem execPerstAssert_kept {h1 : Nat} (h : Kept z s) :
    Answered z (execPerstAssert h1 s) := by
  unfold execPerstAssert
  refine ⟨_, rfl, ?_⟩
  with_reducible repeat' first
    | assumption | refine State.dropDomain_kept ?_ | refine Kept.upd ?_ rfl

theorem execPerstRelease_kept {h1 : Nat} (h : Kept z s) :
    Answered z (execPerstRelease h1 s) := by
  unfold execPerstRelease
  refine ⟨_, rfl, ?_⟩
  with_reducible repeat' first
    | assumption | refine Kept.upd ?_ rfl

end Sys2Proof.Machine
end

