-- ==== Sys2Proof/Tests/Slice0.lean ====
section
/-! SUPPORT. The model's own tests: well-formed and ill-formed commands for every check, worked examples of the manual,
and for every statement with hypotheses a witness: concrete states and operands that meet the hypotheses of each of its
clauses, at boundary values. -/

set_option Elab.async false

namespace Sys2Proof.Tests

open Sys2Proof Sys2Proof.Machine

/-! ### Well-formed commands -/

/-- A burst, a frame end and an IRIG frame with every field at its default. -/
def burst0 : Burst := { master := 0, write := false, addr := 0, words := [] }
def end0 : RxEnd := { port := 0 }
def irig0 : IrigFrame := {}

theorem test_wf_accepts_1 : (
  [.regWrite .hostA false 0 0 0, .wideLowWordRead .hostA ⟨0, 0, 15⟩, .wideUpperWordWrite .hostA 0 0,
   .wideLowWordWrite .hostA 0 0, .doorbell 0, .marginMeasurement 0 0, .vidRaise, .vidLower, .shedLevelEnter 0,
   .shedLevelLeave 0, .coreTimingLost 0, .minRst 0, .codeViolation 0 [(0, 0)], .handshakeStall 0 [(0, 0)],
   .edgeComputeStart 0 0 0 [], .actionArmed 0 0 0, .timePllLock, .timePllUnlock, .oscInLoss, .followerBroadcast [],
   .timeSet .hostA 0, .timeAdjustStep .hostA 0, .timeAdjustSlew .hostA 0, .slewAbsorbed, .histClr 0, .historyPush,
   .servoEnable 0, .ptpSyncReceived 0 [] 0, .followUpReceived 0 [], .referenceLost, .announceReceived 0 [],
   .announceReceiptTimeout 0, .preMasterTimeout 0, .syncTransmit 0, .announceTransmit 0, .delayReqTransmit 0,
   .delayReqReceived 0 [] 0, .delayRespReceived 0 [], .pdelayReqReceived 0 [] 0,
   .pdelayExchangeComplete 0 [] 0 [] false] : List Instr).all (fun c => c.wf) = true := by decide

theorem test_wf_accepts_2 : (
  [.delayResponseTimeout 0, .tcMatchEntryExpire 0 0 0, .irigFrameDecoded irig0, .tcapEdge 0 false 0, .tcapArm 0 0,
   .pulseEnable 0 0, .pulseDisable 0 0, .pulseEdge 0, .phyChange 0 0, .cdrLock 0, .pcsLock 0, .upDlyExpire 0,
   .lossOfLock 0 false, .hiBer 0, .remoteFaultReceived 0, .frame64thByte 0 false (List.replicate 64 0) 0 {},
   .frameEndReceived end0, .pauseFrameReceived 0 0, .pfcFrameReceived 0 0 (List.replicate 8 0),
   .pauseTimerExpire 0 0, .txFrameQueued 0, .selectionPoint 0, .txFrameDone 0 0, .verifyTimerExpire 0,
   .verifyMpacketReceived 0, .respondMpacketReceived 0, .serdesPllUnlock 0 false, .clsStagedWrite 0 0,
   .clsStagedRead 0 0, .clsStagedDone 0, .clsHashKeyWrite 0 0 0, .meterPeek 0 0, .scheduleGo 0, .scheduleAbort 0,
   .validationDone, .scheduleRamWrite 0x400000 0, .bankSwitch, .scbCycleStart, .commitHandoff false,
   .scheduleEnable 0] : List Instr).all (fun c => c.wf) = true := by decide

theorem test_wf_accepts_3 : (
  [.gateTransition 0, .holdRaise 0, .holdRelease 0, .touchedMasksReceived 0, .guardClose 0, .guardReopen 0,
   .shaperEntryWrite 0 0x120000 0, .shaperPeek 0 0, .dupStagedWrite 0 0, .dupStagedRead 0 0, .dupStagedDone 0,
   .dupHashKeyWrite 0 0 0, .sourceLookupDone 0 false [0] none, .ageSweep 0, .frerSweep 0, .ringScanStart 0 false,
   .scanDataReturn 0 ⟨[], false⟩, .txFetchDone 0 [], .entryComplete 0 ⟨0, false⟩, .msixGapExpire 0, .ringEnable 0 0,
   .ringDisable 0 0, .ringIdle 0, .ringHeadWrite 0 0, .hostLinkLost 0, .noticeWrite 0 0 0 0 [0, 0, 0],
   .noticeConsumerWrite 0 0, .busWriteError 0 none, .busReadError 0 none, .grafaEnable 0 0, .grafaDisable 0 0,
   .retrain 0 0, .holdRelWrite 0 0, .upstreamLockAcquired ⟨0, [[5], [10], [], []]⟩, .lockTimeout 0, .alignDone 0, .alignTimeout 0,
   .retryDelayExpire 0, .blockLockLost 0 0 [0, 15], .syncMissed 0 0] : List Instr).all (fun c => c.wf) = true := by decide

theorem test_wf_accepts_4 : (
  [.commandTimeout 0 0, .grafaSyncTransmit 0 0, .grafaSyncReceived 0 (List.replicate 4 (0, 0, 0, 0)),
   .flitCrcError 0 0, .pingTimer 0, .rsp 0 0 0 0 [] 0 0, .status 0 0 0 0 0 0 0 [0, 0, 0] 0, .tap 0 0 0 [] [] 0,
   .holdSns 0 0 0 [] 0, .holdLat 0 0 0 [] 0, .landSns 0 0 0 [] 0, .landingRound 0 0 [] [], .landingAttemptTimeout 0 0,
   .lockstepMismatch 0 0 0 0 false, .laneSelfTest 0 0 0, .laneSelfTestDone 0 0 false, .nitinolStartupDone 0 0 [],
   .holdVisit 0 0 [], .cellRead 0 0, .cellPark 0 0, .unparkBar 0 0, .unparkCross 0 0, .commitListsReceived 0 0,
   .reacquisitionStart 0, .readbackStep 0, .reacquisitionEnd 0, .relandingStart 0, .nitinolEnable 0 0,
   .nitinolDisable 0 0, .reacq 0 0, .fabLoad 0, .fabLoadDone 0, .fabEnable 0, .fabCommit 0 0, .cancel 0 0,
   .commitResolved 0, .resolveDeadline, .fabArm, .armDeadline, .commitDispatch] : List Instr).all (fun c => c.wf) = true := by decide

theorem test_wf_accepts_5 : (
  [.commitInstant, .sliceReport 0 0, .commitWithdrawal, .blankEnd 0 0, .policyBuild [] false, .wtrExpire ⟨0, false⟩,
   .zoneSample 0 0, .passMaxAge 0, .runNow 0 0, .annealStepStart 0, .annealTableLoad 0 false, .annealEnable 0,
   .uncalBatchWrite 0, .cbChannelEnable 0 0, .cbChannelDisable 0 0, .cbCycleStart 0 false, .guardianOpen 0 0 false,
   .guardianClose 0, .cbSofArrival 0 1 0 false, .cbFrameEnd 0 1 0 [255] [] [512] [509], .cbNitStart 0, .unblock 0 1,
   .cbListenTimeout 0, .cbModeRequest 0 0, .cbModeSwitch 0, .cbOwnFrameSend 0 0 false false false, .cbHaltTimeout 0,
   .sealTripCheck false, .matrixBurst burst0, .masterReset 0 false, .masterDrainDone 0, .bmvGo 0 0, .bmvAbort 0 0,
   .bmvReadReturn 0 [] false, .bmvWriteResponse 0 false, .sealStart 0, .sealEvalDone 0 false, .eventPulse, .fire,
   .seqRun 0] : List Instr).all (fun c => c.wf) = true := by decide

theorem test_wf_accepts_6 : (
  [.servicePortWrite 0 0 ⟨0, none⟩, .servicePortRead 0 ⟨0, none⟩, .servicePortUnknown, .servicePortCut, .faultReport [],
   .faultClear 0 ⟨0, []⟩, .graceExpire [], .quietExpire ⟨0, []⟩, .recover 0 ⟨0, []⟩, .kick 0, .watchdogExpire, .swFatal 0,
   .firstClr 0, .injectionArm 0, .aliveToggle, .bronzeEvent 0 0 0 0 0, .bronzeRecordWrite, .bronzeWindowStart,
   .freeze 0, .unfreeze 0, .keepFlushDone, .keepCheckDone, .bronzeReady, .softwareRecord .hostA 0, .supplySample 0,
   .rippleWindowEnd, .pfwAssert, .pfwRelease, .powerRequest 0 0, .domainRampStart, .domainRampDone, .domainOff 1,
   .domainReady 0, .coldPowerUp, .porAssert, .porRelease, .pd00Undervoltage, .controllerResetAssert,
   .controllerResetRelease, .rstNGlitch] : List Instr).all (fun c => c.wf) = true := by decide

theorem test_wf_accepts_7 : (
  [.ctrlRst 0, .ctrlRstExpire, .pwrHold 0 0, .perstAssert 0, .perstRelease 0, .tapReset, .extest none, .idcode,
   .samplePreload none, .highz, .clamp, .extestPulse none, .extestTrain none, .bypass, .irigFrameMissing,
   .shaperCreditZero 0, .landBindSend 0 0, .spokeCodeGroupSync 0 1 false, .flitTypeError 0 0, .measurePing 0] : List Instr).all (fun c => c.wf) = true := by decide

theorem test_wf_refuses_1 : (
  [.regWrite .hostA false 0x4000000 0 0, .regWrite .hostA false 0 (2 ^ 32) 0, .regWrite .hostA false 0 0 16,
   .wideLowWordRead .hostA ⟨0, 0x4000000, 15⟩, .wideLowWordRead .hostA ⟨6, 0, 15⟩, .wideLowWordRead .hostA ⟨0, 0, 16⟩, .wideUpperWordWrite .hostA 0x4000000 0,
   .wideUpperWordWrite .hostA 0 (2 ^ 32), .wideLowWordWrite .hostA 0x4000000 0,
   .wideLowWordWrite .hostA 0 (2 ^ 32), .doorbell 18576, .doorbell 2, .marginMeasurement 6 0, .shedLevelEnter 6,
   .shedLevelLeave 6, .coreTimingLost 6, .minRst (2 ^ 32), .codeViolation 6 [(0, 0)], .codeViolation 0 [],
   .handshakeStall 6 [(0, 0)], .handshakeStall 0 [], .edgeComputeStart 4 0 0 [], .edgeComputeStart 0 144 0 [],
   .actionArmed 7 0 0, .followerBroadcast (List.replicate 6 0), .timeSet .hostA (2 ^ 32),
   .timeAdjustStep .hostA (2 ^ 32), .timeAdjustSlew .hostA (2 ^ 32), .histClr (2 ^ 32), .servoEnable (2 ^ 32),
   .ptpSyncReceived 144 [] 0, .followUpReceived 144 [], .announceReceived 144 [], .announceReceiptTimeout 144,
   .preMasterTimeout 144, .syncTransmit 144, .announceTransmit 144, .delayReqTransmit 144,
   .delayReqReceived 144 [] 0, .delayRespReceived 144 [], .pdelayReqReceived 144 [] 0,
   .pdelayExchangeComplete 144 [] 0 [] false] : List Instr).all (fun c => !c.wf) = true := by decide

theorem test_wf_refuses_2 : (
  [.delayResponseTimeout 144, .tcMatchEntryExpire 4 0 0, .tcMatchEntryExpire 0 0 65536, .tcapEdge 4 false 0,
   .tcapArm 4 0, .tcapArm 0 (2 ^ 32), .pulseEnable 4 0, .pulseEnable 0 (2 ^ 32), .pulseDisable 4 0,
   .pulseDisable 0 (2 ^ 32), .pulseEdge 4, .phyChange 144 0, .phyChange 0 (2 ^ 32), .cdrLock 144, .pcsLock 144,
   .upDlyExpire 144, .lossOfLock 144 false, .hiBer 144, .remoteFaultReceived 144,
   .frame64thByte 144 false (List.replicate 64 0) 0 {}, .frame64thByte 0 false (List.replicate 63 0) 0 {},
   .frameEndReceived { end0 with port := 144 }, .frameEndReceived { end0 with fcs := 2 ^ 32 }, .frameEndReceived { end0 with parts := [(256, 0, 0, 0)] },
   .pauseFrameReceived 144 0, .pauseFrameReceived 0 65536, .pfcFrameReceived 144 0 (List.replicate 8 0),
   .pfcFrameReceived 0 256 (List.replicate 8 0), .pfcFrameReceived 0 0 (List.replicate 7 0),
   .pfcFrameReceived 0 0 (List.replicate 8 65536), .pauseTimerExpire 144 0, .pauseTimerExpire 0 9,
   .txFrameQueued 144, .selectionPoint 144, .txFrameDone 144 0, .verifyTimerExpire 144, .verifyMpacketReceived 144,
   .respondMpacketReceived 144, .serdesPllUnlock 24 false, .clsStagedWrite 4 0, .clsStagedWrite 0 (2 ^ 32)] : List Instr).all (fun c => !c.wf) = true := by decide

theorem test_wf_refuses_3 : (
  [.clsStagedRead 4 0, .clsStagedRead 0 (2 ^ 32), .clsStagedDone 4, .clsHashKeyWrite 4 0 0, .clsHashKeyWrite 0 2 0,
   .clsHashKeyWrite 0 0 (2 ^ 32), .meterPeek 4 0, .meterPeek 0 (2 ^ 32), .scheduleGo (2 ^ 32),
   .scheduleAbort (2 ^ 32), .scheduleRamWrite 0x3ffffc 0, .scheduleRamWrite 0x800000 0,
   .scheduleRamWrite 0x400002 0, .scheduleRamWrite 0x400000 (2 ^ 32), .scheduleEnable (2 ^ 32),
   .gateTransition 144, .holdRaise 144, .holdRelease 144, .guardClose 144, .guardReopen 144,
   .shaperEntryWrite 4 0x120000 0, .shaperEntryWrite 0 0x11fffc 0, .shaperEntryWrite 0 0x180000 0,
   .shaperEntryWrite 0 0x120002 0, .shaperEntryWrite 0 0x120000 (2 ^ 32), .shaperPeek 4 0, .shaperPeek 0 (2 ^ 32),
   .dupStagedWrite 4 0, .dupStagedWrite 0 (2 ^ 32), .dupStagedRead 4 0, .dupStagedRead 0 (2 ^ 32),
   .dupStagedDone 4, .dupHashKeyWrite 4 0 0, .dupHashKeyWrite 0 2 0, .dupHashKeyWrite 0 0 (2 ^ 32),
   .sourceLookupDone 144 false [0] none, .sourceLookupDone 0 false [] none, .ageSweep 4, .frerSweep 4,
   .ringScanStart 2320 false] : List Instr).all (fun c => !c.wf) = true := by decide

theorem test_wf_refuses_4 : (
  [.scanDataReturn 2320 ⟨[], false⟩, .scanDataReturn 0 ⟨[2 ^ 32], false⟩, .txFetchDone 2322 [], .entryComplete 2322 ⟨0, false⟩,
   .msixGapExpire 2322, .ringEnable 2322 0, .ringEnable 0 (2 ^ 32), .ringDisable 2322 0, .ringDisable 0 (2 ^ 32),
   .ringIdle 2322, .ringHeadWrite 2322 0, .ringHeadWrite 0 (2 ^ 32), .hostLinkLost 2,
   .noticeWrite 2 0 0 0 [0, 0, 0], .noticeWrite 0 1024 0 0 [0, 0, 0], .noticeWrite 0 0 256 0 [0, 0, 0],
   .noticeWrite 0 0 0 65536 [0, 0, 0], .noticeWrite 0 0 0 0 [0, 0], .noticeWrite 0 0 0 0 [0, 0, 2 ^ 32],
   .noticeConsumerWrite 2 0, .noticeConsumerWrite 0 (2 ^ 32), .busWriteError 2322 none, .busReadError 2322 none,
   .grafaEnable 4 0, .grafaEnable 0 (2 ^ 32), .grafaDisable 4 0, .grafaDisable 0 (2 ^ 32), .retrain 4 0,
   .retrain 0 (2 ^ 32), .holdRelWrite 4 0, .holdRelWrite 0 (2 ^ 32), .upstreamLockAcquired ⟨4, [[], [], [], []]⟩, .upstreamLockAcquired ⟨0, [[], [], []]⟩, .upstreamLockAcquired ⟨0, [[16], [], [], []]⟩, .lockTimeout 4,
   .alignDone 4, .alignTimeout 4, .retryDelayExpire 4, .blockLockLost 4 0 [], .blockLockLost 0 4 [], .blockLockLost 0 0 [16], .syncMissed 4 0,
   .syncMissed 0 4] : List Instr).all (fun c => !c.wf) = true := by decide

theorem test_wf_refuses_5 : (
  [.commandTimeout 4 0, .commandTimeout 0 256, .grafaSyncTransmit 4 0,
   .grafaSyncReceived 4 (List.replicate 4 (0, 0, 0, 0)), .grafaSyncReceived 0 (List.replicate 3 (0, 0, 0, 0)),
   .flitCrcError 4 0, .pingTimer 4, .rsp 4 0 0 0 [] 0 0, .rsp 0 256 0 0 [] 0 0, .rsp 0 0 256 0 [] 0 0,
   .rsp 0 0 0 256 [] 0 0, .rsp 0 0 0 0 [2 ^ 32] 0 0, .status 4 0 0 0 0 0 0 [0, 0, 0] 0,
   .status 0 0 0 0 0 0 0 [0, 0] 0, .tap 4 0 0 [] [] 0, .tap 0 256 0 [] [] 0, .tap 0 0 8 [] [] 0,
   .tap 0 0 0 [65536] [] 0, .holdSns 4 0 0 [] 0, .holdSns 0 64 0 [] 0, .holdSns 0 0 1024 [] 0,
   .holdSns 0 0 0 [2 ^ 32] 0, .holdLat 4 0 0 [] 0, .holdLat 0 64 0 [] 0, .holdLat 0 0 1024 [] 0,
   .holdLat 0 0 0 [2 ^ 32] 0, .landSns 4 0 0 [] 0, .landSns 0 256 0 [] 0, .landSns 0 0 128 [] 0,
   .landSns 0 0 0 [2 ^ 32] 0, .landingRound 4 0 [] [], .landingAttemptTimeout 4 0, .landingAttemptTimeout 0 256,
   .lockstepMismatch 4 0 0 0 false, .lockstepMismatch 0 64 0 0 false, .lockstepMismatch 0 0 2 0 false,
   .laneSelfTest 4 0 0, .laneSelfTest 0 2 0, .laneSelfTest 0 0 (2 ^ 32), .laneSelfTestDone 4 0 false] : List Instr).all (fun c => !c.wf) = true := by decide

theorem test_wf_refuses_6 : (
  [.laneSelfTestDone 0 64 false, .nitinolStartupDone 4 0 [], .holdVisit 4 0 [], .holdVisit 0 64 [], .cellRead 4 0,
   .cellRead 0 65536, .cellPark 4 0, .cellPark 0 65536, .unparkBar 4 0, .unparkBar 0 65536, .unparkCross 4 0,
   .unparkCross 0 65536, .commitListsReceived 4 0, .reacquisitionStart 4, .readbackStep 4, .reacquisitionEnd 4,
   .relandingStart 4, .nitinolEnable 4 0, .nitinolEnable 0 (2 ^ 32), .nitinolDisable 4 0,
   .nitinolDisable 0 (2 ^ 32), .reacq 4 0, .reacq 0 (2 ^ 32), .fabLoad (2 ^ 32), .fabEnable (2 ^ 32), .fabLoadDone 3,
   .fabCommit 2322 0, .cancel 2322 0, .commitResolved 3, .sliceReport 4 0, .blankEnd 1024 0, .wtrExpire ⟨1024, false⟩,
   .zoneSample 16 0, .zoneSample 0 65536, .passMaxAge 4, .runNow 4 0, .runNow 0 (2 ^ 32), .annealStepStart 4,
   .annealTableLoad 4 false, .annealEnable (2 ^ 32), .uncalBatchWrite 4] : List Instr).all (fun c => !c.wf) = true := by decide

theorem test_wf_refuses_7 : (
  [.cbChannelEnable 4 0, .cbChannelEnable 0 (2 ^ 32), .cbChannelDisable 4 0, .cbChannelDisable 0 (2 ^ 32),
   .cbCycleStart 4 false, .guardianOpen 4 0 false, .guardianClose 4, .cbSofArrival 4 1 0 false,
   .cbSofArrival 0 16 0 false, .cbFrameEnd 4 1 0 [] [] [] [], .cbFrameEnd 0 16 0 [] [] [] [], .cbFrameEnd 0 0 0 [] [] [] [], .cbFrameEnd 0 1 0 [] [513] [] [],
   .cbNitStart 4, .unblock 4 1, .unblock 0 16, .cbListenTimeout 4, .cbModeRequest 4 0, .cbModeRequest 0 (2 ^ 32),
   .cbModeSwitch 4, .cbOwnFrameSend 4 0 false false false, .cbHaltTimeout 4, .matrixBurst { burst0 with master := 11 },
   .matrixBurst { burst0 with addr := 2 ^ 40 }, .matrixBurst { burst0 with words := [(2 ^ 32, 15)] },
   .matrixBurst { burst0 with words := [(0, 16)] }, .matrixBurst { burst0 with requesters := [11] },
   .masterReset 11 false, .masterDrainDone 11, .bmvGo 8 0, .bmvGo 0 (2 ^ 32), .bmvAbort 8 0, .bmvAbort 0 (2 ^ 32),
   .bmvReadReturn 8 [] false, .bmvReadReturn 0 [2 ^ 32] false, .bmvWriteResponse 8 false, .sealStart 8,
   .sealEvalDone 8 false, .seqRun (2 ^ 32), .servicePortWrite (2 ^ 32) 0 ⟨0, none⟩, .servicePortWrite 0 (2 ^ 32) ⟨0, none⟩,
   .servicePortRead (2 ^ 32) ⟨0, none⟩] : List Instr).all (fun c => !c.wf) = true := by decide

theorem test_wf_refuses_8 : (
  [.faultReport [(64, 0)], .faultReport [(0, 65536)], .faultClear 2 ⟨0, []⟩, .faultClear 0 ⟨2 ^ 32, []⟩, .faultClear 0 ⟨0, [(64, 0)]⟩, .graceExpire [64],
   .quietExpire ⟨11, []⟩, .quietExpire ⟨0, [(64, 0)]⟩, .recover 11 ⟨0, []⟩, .recover 0 ⟨2 ^ 32, []⟩, .recover 0 ⟨0, [64]⟩, .kick (2 ^ 32), .swFatal (2 ^ 32), .firstClr (2 ^ 32),
   .injectionArm (2 ^ 32), .bronzeEvent 1024 0 0 0 0, .bronzeEvent 0 256 0 0 0, .bronzeEvent 0 0 65536 0 0,
   .bronzeEvent 0 0 0 (2 ^ 32) 0, .bronzeEvent 0 0 0 0 (2 ^ 32), .freeze (2 ^ 32), .unfreeze (2 ^ 32),
   .softwareRecord .hostA (2 ^ 32), .supplySample 4096, .powerRequest 2 0, .powerRequest 0 (2 ^ 32), .domainOff 0,
   .domainOff 52, .domainReady 52, .ctrlRst (2 ^ 32), .pwrHold 2 0, .pwrHold 0 (2 ^ 32), .perstAssert 2,
   .perstRelease 2, .shaperCreditZero 144, .landBindSend 4 0, .spokeCodeGroupSync 4 1 false,
   .spokeCodeGroupSync 0 16 false, .flitTypeError 4 0, .measurePing 4] : List Instr).all (fun c => !c.wf) = true := by decide

/-! ### States for tests and witnesses -/

/-- Every power domain READY. -/
def up : State := { State.reset with
  regs := [(0x10018, 0xFFFFFFFF#32), (0x1001C, 0xFFFFF#32)] ++ (List.range 51).map (fun i => (0x10104 + 4 * i, 3#32)) }

/-- A state with the given fields. -/
def having (s : State) (l : List (Fld × Nat)) : State := l.foldl (fun t x => t.fput x.1 x.2) s

/-- Everything READY, the time PLL locked and the counter running at `n` ns. -/
def timed (n : Nat) : State :=
  { having up [(F.invStsPllLock, 1)] with counter := n * 2 ^ 48, inv := { up.inv with started := true } }

/-- The next state that a command answered. -/
def after (o : Host.Outcome State Fault Refusal) : Option State :=
  match o with
  | .next t => some t
  | _ => none

/-- A CRC register that is evaluated before each byte, so that a long image evaluates without deep recursion. -/
def crcEager (poly : Nat) : List Nat → Nat → Nat
  | [], c => c
  | b :: l, 0 => crcEager poly l (crcDown poly 8 (b % 256))
  | b :: l, c + 1 => crcEager poly l (crcDown poly 8 ((c + 1) ^^^ (b % 256)))

theorem crcReflected_eager (poly : Nat) (l : List Nat) :
    crcReflected poly l = crcEager poly l 0xFFFFFFFF ^^^ 0xFFFFFFFF := by
  have h : ∀ (l : List Nat) c, l.foldl (fun c b => crcDown poly 8 (c ^^^ (b % 256))) c = crcEager poly l c := by
    intro l
    induction l with
    | nil => intro c; rfl
    | cons b l ih => intro c; cases c <;> simp [crcEager, ih]
  rw [crcReflected, h]

/-! ### Witnesses of the statements, in the statements' order -/

theorem witness_EmptyQueueStepIsOneTick :
    (timed 5).pending = [] ∧ (timed 5).inv.started = true ∧ (timed 5).ready 0 = true ∧
    State.reset.pending = [] ∧ State.reset.inv.started = false := by decide +kernel

theorem up_sound : up.Sound := by unfold State.Sound regsOk; decide +kernel

theorem witness_EveryStepKeepsASoundState : up.Sound ∧ after (step up) = some up := ⟨up_sound, by decide +kernel⟩

theorem witness_ReservedBitsReadZero : up.Sound ∧ (implOf Reg.hscVid).testBit 31 = false := ⟨up_sound, by decide +kernel⟩

theorem witness_EqualReadingsAreEqualRegisterFiles :
    up.Sound ∧ ({ up with counter := 1 } : State).Sound ∧ ∀ a, up.word a = ({ up with counter := 1 } : State).word a :=
  ⟨up_sound, up_sound, fun _ => rfl⟩

theorem witness_StoringFollowsTheAccessTypes :
    (∃ r, regRow Reg.pwrCtl = some r ∧ tableWord Reg.pwrCtl = false ∧ r.adj = []) ∧
    ∀ old n, fixWord Reg.pwrCtl old n = n :=
  ⟨⟨_, rfl, by decide +kernel⟩, fun _ _ => rfl⟩

theorem witness_WritesReachTheirRegisterWhole :
    (Reg.evrSink 12 % 4 = 0 ∧ up.issues .hostA = true ∧ up.gateOf (masterOf .hostA) (Reg.evrSink 12) = .open' ∧
      up.blockHeld (Reg.evrSink 12) = false ∧ wideLow (Reg.evrSink 12) = none ∧ wideUpper (Reg.evrSink 12) = 0 ∧
      memoryOf (Reg.evrSink 12) = none) ∧
    State.reset.issues .hostA = false ∧
    (up.touched = [] ∧ targetOfWord (Reg.evrSink 12 / 4 * 4) = 0 ∧ 7 % 16 ≠ 15) ∧
    (let a := cellAddr 0 0;
      a % 4 = 0 ∧ up.gateOf (masterOf .hostA) a = .open' ∧ up.blockHeld a = false ∧ wideLow a = none ∧ wideUpper a = 0 ∧
      (memoryOf a).isSome = true ∧ targetOfWord a ≠ 0) ∧
    (hostOf .hostA = some 0 ∧ (up.ringWorks 0 = true) ∧ State.reset.ringWorks 2321 = false ∧
      (let e := having up [(F.pwrDomState 45, 0)]; e.issues .hostB = true ∧ hostOf .hostB = some 1)) ∧
    (let e := fun s => (s : State).setMsix 0 0x1000C (mergeBytes (s.msixWord 0 0x1000C) 0 15);
      0x1000C / 4 % 4 = 3 ∧ 0x17FF8 / 4 % 4 ≠ 3 ∧ bitAt ((e up).msixWord 0 0x1000C) 0 = false ∧
      bitAt ((e up).msixWord 0 0x18000) 0 = false ∧
      bitAt ((e (up.setMsix 0 0x18000 1)).msixWord 0 0x18000) 0 = true) ∧
    hostOf .servicePort = none := by decide +kernel

theorem witness_RefusedAccessesAreCountedAndLogged :
    (up.issues .hostB = true ∧ up.gateOf (masterOf .hostB) 0x3000000 = .def' ∧ up.ready 47 = true ∧
      up.flag F.mtxDefLog1V = false) ∧
    (let s := having up [(F.pwrDomState 10, 1)];
      s.issues .hostA = true ∧ s.gateOf (masterOf .hostA) (cellAddr 0 0) = .shut ∧ s.ready 47 = true) ∧
    (having up [(F.mtxDefLog1V, 1)]).flag F.mtxDefLog1V = true ∧
    (up.issues .sequencer = true ∧ up.gateOf 8 0x3000000 = .def') := by decide +kernel

theorem witness_ReadingTheLowestWordCaptures :
    (0x30010 % 4 = 0 ∧ up.issues .servicePort = true ∧ up.gateOf (masterOf .servicePort) 0x30010 = .open' ∧
      Table.get 0 0x30010 up.injected = 0 ∧ wideLow 0x30010 = none ∧ upperWords 0x30010 = [0x30014, 0x30018]) ∧
    (wideLow 0x30018 = some 0x30010 ∧ up.gateOf (masterOf .servicePort) 0x30018 = .open') ∧
    (hostOf .hostA = some 0 ∧ hostOf .hostB = some 1 ∧ up.issues .hostA = true ∧ up.issues .hostB = true) := by decide +kernel

theorem witness_WritingAWideValueStagesItsUpperWords :
    (let a := Reg.scbPendBase0 + 4;
      a % 4 = 0 ∧ up.issues .hostA = true ∧ up.gateOf (masterOf .hostA) a = .open' ∧ up.blockHeld a = false ∧
      up.touched = [] ∧ wideLow a = some Reg.scbPendBase0 ∧ actsAtOnce a = 0) ∧
    (let a := Reg.qchFsw1;
      a % 4 = 0 ∧ up.issues .hostA = true ∧ up.gateOf (masterOf .hostA) a = .open' ∧ up.blockHeld a = false ∧
      (wideLow a).isSome = true ∧ actsAtOnce a ≠ 0) ∧
    (wideLow Reg.scbPendBase0 = none ∧ memoryOf Reg.scbPendBase0 = none ∧
      up.gateOf (masterOf .hostA) Reg.scbPendBase0 = .open') := by decide +kernel

theorem witness_MeasurementPublishesTheMargin :
    (up.reportsFor 0 = true ∧ up.unitPowered 0 = true ∧ up.lowestMargin = none) ∧
    (up.reportsFor 5 = true ∧ up.unitPowered 5 = true ∧ (having up [(F.hscMarginValid 5, 1)]).lowestMargin ≠ none) ∧
    (let s := having up [(F.qchStsIso, 8)]; s.reportsFor 3 = true ∧ s.unitPowered 3 = false) ∧
    State.reset.reportsFor 1 = false := by decide +kernel

theorem witness_VidFollowsTheLowestMargin :
    (let s := having up [(F.hscMarginValid 0, 1), (F.hscMarginMargin 0, 351)];
      s.lowestMargin = some 351 ∧ s.flag F.hscSlkCtlAutoVid = true ∧ 10 * (s.fget F.hscSlkCtlMLower : Int) < 351) ∧
    (let s := having up [(F.hscMarginValid 5, 1), (F.hscMarginMargin 5, 149)];
      s.lowestMargin = some 149 ∧ s.flag F.hscSlkCtlAutoVid = true ∧ 149 < 10 * (s.fget F.hscSlkCtlMRaise : Int) ∧
      (s.driveVid (min (s.fget F.hscVidCeil) (max (s.fget F.hscVidFloor) (s.fget F.hscVidCode + 2)))).fget F.hscVidCode
        < s.fget F.hscVidCeil) ∧
    (let s := having up [(F.hscMarginValid 5, 1), (F.hscMarginMargin 5, 149), (F.hscVidCeil, 20)];
      s.lowestMargin = some 149 ∧ 149 < 10 * (s.fget F.hscSlkCtlMRaise : Int) ∧
      (s.driveVid (min (s.fget F.hscVidCeil) (max (s.fget F.hscVidFloor) (s.fget F.hscVidCode + 2)))).fget F.hscVidCode
        = s.fget F.hscVidCeil) ∧
    (let s := having up [(F.hscMarginValid 0, 1), (F.hscMarginMargin 0, 150)];
      s.lowestMargin = some 150 ∧ (150 : Int) ≤ 10 * (s.fget F.hscSlkCtlMLower : Int) ∧
      10 * (s.fget F.hscSlkCtlMRaise : Int) ≤ 150) ∧
    up.lowestMargin = none ∧ (having up [(F.hscSlkCtlAutoVid, 0)]).flag F.hscSlkCtlAutoVid = false := by decide +kernel

theorem witness_ShedLevelsFollowTheMargin :
    (let s := having up [(F.hscMarginValid 1, 1), (F.hscMarginMargin 1, encodeSigned (-1) 16)];
      s.margin 1 = -1 ∧ s.flag F.hscSlkCtlShedEn = true ∧ s.flag (F.hscMarginValid 1) = true ∧ s.fget (F.hscMarginShed 1) = 0) ∧
    (let s := having up [(F.hscMarginValid 5, 1), (F.hscMarginMargin 5, encodeSigned (-101) 16), (F.hscMarginShed 5, 2)];
      s.margin 5 = -101 ∧ s.flag (F.hscMarginValid 5) = true ∧ 0 < s.fget (F.hscMarginShed 5) ∧ s.fget (F.hscMarginShed 5) < 3) ∧
    (up.flag (F.hscMarginValid 1) = false ∧ up.fget (F.hscMarginShed 1) = 0) ∧
    (let s := having up [(F.hscMarginMargin 4, encodeSigned (-50) 16), (F.hscMarginShed 4, 3)];
      s.fget (F.hscMarginShed 4) = 1 + 2 ∧ -(50 * (((1 : Nat) : Int) + 1)) + 50 ≤ s.margin 4) ∧
    (let s := having up [(F.hscMarginMargin 4, encodeSigned (-51) 16), (F.hscMarginShed 4, 3)];
      s.fget (F.hscMarginShed 4) = 1 + 2 ∧ s.margin 4 < -(50 * (((1 : Nat) : Int) + 1)) + 50) ∧
    (let s := having up [(F.hscMarginMargin 4, 50), (F.hscMarginShed 4, 1)];
      s.fget (F.hscMarginShed 4) = 1 ∧ 50 ≤ s.margin 4) ∧
    (let s := having up [(F.hscMarginMargin 0, 50), (F.hscMarginShed 0, 1)];
      s.fget (F.hscMarginShed 0) = 1 ∧ 50 ≤ s.margin 0) ∧
    (let s := having up [(F.hscMarginMargin 5, 49), (F.hscMarginShed 5, 1)];
      s.fget (F.hscMarginShed 5) = 1 ∧ s.margin 5 < 50) := by decide +kernel

theorem witness_HandshakeFaultsAreReported :
    ((∀ l ∈ [[(0, 0)], [(0, 7), (0, 2)]], (l : List (Nat × Nat)).filter (fun c => up.ready (blockDom c.1)) = l) ∧
      ∀ c ∈ [(33, 0)], State.reset.ready (blockDom c.1) = false) ∧
    (up.reportsFor 5 = true ∧ (having up [(F.hscStallStalled 5, 1)]).flag (F.hscStallStalled 5) = true ∧
      (having up [(F.hscStallStalled 5, 1)]).reportsFor 5 = true ∧ up.flag (F.hscStallStalled 5) = false ∧
      State.reset.reportsFor 1 = false) ∧
    (let s := having up [(F.hscMarginValid 0, 1), (F.hscMarginMargin 0, encodeSigned (-201) 16)];
      s.reportsFor 0 = true ∧ s.flag (F.hscMarginValid 0) = true ∧ s.margin 0 < -200) ∧
    (let s := having up [(F.hscMarginMargin 0, encodeSigned (-200) 16)];
      -200 ≤ s.margin 0) ∧
    (bitAt 2 1 = true ∧ ∀ u, u < 6 → up.fget (F.hscMarginShed u) = 0) ∧
    (up.lowestMargin = none ∧ (having up [(F.hscMarginValid 5, 1)]).lowestMargin ≠ none) := by decide +kernel

theorem witness_OwnClockClassFollowsItsTable :
    ((having up [(F.invPtpCtlSlaveOnly, 1)]).flag F.invPtpCtlSlaveOnly = true ∧ up.flag F.invPtpCtlSlaveOnly = false) ∧
    (let s := having up [(F.invCtlSrc, 2), (F.invStsServo, servoLocked)];
      s.flag F.invPtpCtlSlaveOnly = false ∧ s.fget F.invCtlSrc = 2 ∧ s.servo = servoLocked) ∧
    (let s := having up [(F.invStsServo, servoHold), (F.invStsEverLocked, 1)];
      s.servo = servoHold ∧ s.flag F.invStsEverLocked = true ∧ s.holdSeconds < s.fget F.invHoldHoldLimit) ∧
    (¬(up.fget F.invCtlSrc = 2 ∧ up.servo = servoLocked) ∧ ¬(up.servo = servoHold)) := by decide +kernel

theorem witness_TimePllLockStartsTheCounter :
    (State.reset.ready 0 = true ∧ State.reset.inv.started = false ∧ State.reset.flag F.pwrCtlHostAuto = true) ∧
    ((timed 9).ready 0 = true ∧ (timed 9).inv.started = true) ∧
    (having up [(F.pwrDomState 0, 0)]).ready 0 = false := by decide +kernel

theorem witness_FollowersCorrectThemselves :
    (let s := { timed 1000 with inv := { (timed 1000).inv with folNew := 16, fol := [(4, 65536)] } };
      s.folOn 4 = true ∧ bitAt s.inv.folNew 4 = true) ∧
    (let s := { timed 1000 with inv := { (timed 1000).inv with fol := [(0, 0)] } };
      s.folOn 0 = true ∧ bitAt s.inv.folNew 0 = false ∧
      (64 + signedOf (s.fget (F.invFolSkewTrim 0)) 8 - Table.get 0 0 s.inv.fol).natAbs ≤ 64 ∧
      64 < (65 + signedOf (s.fget (F.invFolSkewTrim 0)) 8 - Table.get 0 0 s.inv.fol).natAbs) := by decide +kernel

theorem witness_TimeIsSetAdjustedAndWatched :
    (let s := { up with wo := [(Reg.invAdj1, 0x10000)] };
      s.ready 0 = true ∧ bitAt ((s.applyStaged .hostA Reg.invAdj0).woWord Reg.invAdj1) 16 = true) ∧
    bitAt ((up.applyStaged .hostA Reg.invAdj0).woWord Reg.invAdj1) 16 = false ∧
    (up.ready 0 = true ∧ up.inv.slew = 0 ∧ ({ up with inv := { up.inv with slew := -1 } } : State).inv.slew ≠ 0) ∧
    ((timed 1).inv.started = true ∧ (timed 1).flag F.invStsPllLock = true ∧ (timed 1).ready 0 = true ∧
      up.flag F.invStsPllLock = false) ∧
    (up.inv.started = false ∧ (having up [(F.pwrDomState 0, 0)]).ready 0 = false) := by decide +kernel

theorem witness_HistoryKeepsSixteenSeconds :
    (let s := having { timed 7 with inv := { (timed 7).inv with hist := List.replicate 16 0 } } [(F.invStsServo, servoLocked)];
      s.ready 0 = true ∧ s.inv.hist.length ≤ 16 ∧ s.servo = servoLocked ∧ s.touched = [] ∧ s.injected = []) ∧
    ((timed 7).servo ≠ servoLocked) ∧
    (let s := having (timed 7) [(F.invStsServo, servoLocked)];
      s.servo ≠ servoFree ∧ bitAt 0 0 = s.flag F.invCtlEn) := by decide +kernel

theorem witness_ServoStartsStopsAndHolds :
    (bitAt 1 7 = false ∧ up.flag F.invCtlEn = false ∧ (up.store Reg.invCtl 1).flag F.invCtlEn = true) ∧
    (let s := having up [(F.invCtlEn, 1), (F.invStsServo, servoLocked)];
      s.flag F.invCtlEn = true ∧ (s.store Reg.invCtl 0).flag F.invCtlEn = false ∧ s.servo = servoLocked ∧ s.inv.hist = []) ∧
    (let s := having { up with inv := { up.inv with hist := [1] } } [(F.invCtlEn, 1), (F.invStsServo, servoAcquire)];
      s.flag F.invCtlEn = true ∧ s.servo = servoAcquire ∧ s.inv.hist ≠ []) ∧
    (let s := having up [(F.irigCtlEn, 1)];
      s.flag F.irigCtlEn = true ∧ s.inv.irigBad = 0 ∧ s.irigValid { markers := false } = false ∧
      s.irigValid {} = true ∧ s.inv.irigGood < 2 ∧ up.flag F.irigCtlEn = false) ∧
    (let s := having { up with inv := { up.inv with irigBad := 1 } } [(F.irigCtlEn, 1), (F.invStsIrigLock, 1)];
      s.flag F.irigCtlEn = true ∧ 1 ≤ s.inv.irigBad ∧ s.flag F.invStsIrigLock = true ∧ s.ready 0 = true) := by decide +kernel

theorem witness_CapturesStoreTheFirstArmedEdge :
    (up.ready 0 = true ∧ up.polMatch 3 true = true ∧ up.flag (F.tcapCfgBronze 3) = false ∧
      up.flag (F.tcapCfgNotice 3) = false ∧ bitAt up.inv.armed 3 = false) ∧
    (let s := { up with inv := { up.inv with armed := 1, armAt := [(0, 16)] } };
      s.polMatch 0 true = true ∧ bitAt s.inv.armed 0 = true ∧ Table.get 0 0 s.inv.armAt ≤ 16 ∧
      15 < Table.get 0 0 s.inv.armAt) ∧
    up.polMatch 0 false = false := by decide +kernel

theorem witness_PulseTrainsDriveTheirPin :
    (let s := having (timed 50) [(F.tpulseStsRunning 3, 1), (F.tpulseCtlEn 3, 1)];
      s.ready 0 = true ∧ s.flag (F.tpulseStsRunning 3) = true ∧ (s.train 3).high = false ∧ s.flag (F.tpulseCtlEn 3) = true) ∧
    (let s := having { timed 50 with inv := { (timed 50).inv with trains := [(0, { high := true, first := 1 })] } }
        [(F.tpulseStsRunning 0, 1)];
      s.flag (F.tpulseStsRunning 0) = true ∧ (s.train 0).high = true ∧ (s.train 0).first ≠ 0) ∧
    (let s := having { timed 50 with inv := { (timed 50).inv with trains := [(0, { high := true })] } }
        [(F.tpulseStsRunning 0, 1), (F.tpulseCtlEn 0, 1)];
      s.flag (F.tpulseStsRunning 0) = true ∧ (s.train 0).high = true ∧ (s.train 0).ending = false ∧ (s.train 0).first = 0 ∧
      s.rd (Reg.tpulseCount 0) = 0 ∧ s.flag (F.tpulseCtlEn 0) = true) ∧
    (let s := (having { timed 50 with inv := { (timed 50).inv with trains := [(0, { high := true, done := 1 })] } }
        [(F.tpulseStsRunning 0, 1)]).wr (Reg.tpulseCount 0) 2;
      (s.train 0).ending = false ∧ (s.train 0).done < s.rd (Reg.tpulseCount 0)) ∧
    (let s := (having { timed 50 with inv := { (timed 50).inv with trains := [(0, { high := true, done := 2 })] } }
        [(F.tpulseStsRunning 0, 1)]).wr (Reg.tpulseCount 0) 2;
      (s.train 0).high = true ∧ (s.train 0).first = 0 ∧ s.rd (Reg.tpulseCount 0) ≠ 0 ∧
      s.rd (Reg.tpulseCount 0) ≤ (s.train 0).done) ∧
    (up.flag (F.tpulseStsRunning 0) = false ∧ up.flag (F.tpulseCtlEn 0) = false) := by decide +kernel

/-- A PTP message of type `type` in domain 0, sequence number 5, from another clock, with the flag byte `f`; its body
names port 1 of this clock. -/
def message (type f : Nat) : List Byte :=
  mkBytes ([type, 2, 0, 54, 0, 0, f] ++ List.replicate 13 0 ++ [1, 2, 3, 4, 5, 6, 7, 8, 0, 1, 0, 5, 0, 0]
    ++ List.replicate 19 0 ++ [1])

/-- A clock with PTP on whose port 0 is in PTP state `n`. -/
def clock (n : Nat) (x : PtpPort) : State :=
  let s := having (timed 5) [(F.invPtpCtlPtpEn, 1), (F.invPctlState 0, n)]
  { s with inv := { s.inv with parent := some (0, ptpSrc 0 (message 0 0)), ptp := [(0, x)] } }

theorem witness_PtpMessagesAreTakenOrDiscarded :
    ((clock ptpSlave {}).hearsPtp 0 = true ∧ (clock ptpSlave {}).ptpForUs (message 0 0) = true ∧
      (clock ptpSlave {}).ptpForUs [] = false ∧ up.hearsPtp 143 = false) ∧
    (let s := having (clock ptpDisabled {}) [(F.invPctlEn 0, 1)];
      s.hearsPtp 0 = false ∧ s.hearsPeer 0 = true ∧ up.hearsPeer 143 = false) := by decide +kernel

theorem witness_PtpMessagesActAndLeave :
    (let s := clock ptpSlave { waiting := some (5, 1, 0) }; let l := message 0 2;
      s.hearsPtp 0 = true ∧ s.ptpForUs l = true ∧ s.hearsParent 0 l = true ∧ isTwoStep 0 l = true ∧ isTwoStep 0 (message 0 0) = false ∧
      (s.ptpOf 0).waiting = some (ptpSeq 0 l, 1, 0)) ∧
    (let s := clock ptpMaster {}; let l := message 1 0;
      s.hearsPtp 0 = true ∧ s.ptpForUs l = true ∧ s.hearsParent 0 l = false ∧ (s.ptpOf 0).waiting = none ∧
      s.flag (F.invPctlMasterOnly 0) = false ∧ s.ptpState 0 = ptpMaster) ∧
    (having (clock ptpMaster {}) [(F.invPctlMasterOnly 0, 1)]).flag (F.invPctlMasterOnly 0) = true ∧
    (let s := having (clock ptpMaster {}) [(F.invPtpCtlProfile, 0), (F.invPtpCtlTwoStep, 1)];
      s.endToEnd = true ∧ s.ptpState 0 = ptpMaster ∧ s.flag F.invPtpCtlTwoStep = true) ∧
    (let x : PtpPort := { reqSeq := 6, asked := true, left := some 9, forward := some 3 };
      let s := having (clock ptpSlave x) [(F.invPtpCtlProfile, 0)]; let l := message 9 0;
      s.hearsPtp 0 = true ∧ s.ptpForUs l = true ∧ s.endToEnd = true ∧ s.ptpState 0 = ptpSlave ∧ beAt l 44 10 = s.portId 0 ∧
      ptpSeq 0 l = ((s.ptpOf 0).reqSeq + 65535) % 65536 ∧ (s.ptpOf 0).asked = true ∧ (s.ptpOf 0).left = some 9 ∧
      (s.ptpOf 0).forward = some 3) ∧
    (let x : PtpPort := { reqSeq := 6, before := some 0 };
      let s := having (clock ptpSlave x) [(F.invPtpCtlProfile, 0)]; let l := message 9 0;
      s.hearsPtp 0 = true ∧ s.endToEnd = true ∧ beAt l 44 10 = s.portId 0 ∧
      ptpSeq 0 l = ((s.ptpOf 0).reqSeq + 65535) % 65536 ∧ (s.ptpOf 0).asked = false ∧ (s.ptpOf 0).before = some 0) ∧
    (let s := fun x => having (clock ptpSlave x) [(F.invPtpCtlProfile, 0)]; let l := message 9 0;
      let x : PtpPort := { reqSeq := 6, asked := true, left := some 9 }; let y : PtpPort := { reqSeq := 6 };
      (s x).hearsPtp 0 = true ∧ (s x).endToEnd = true ∧ beAt l 44 10 = (s x).portId 0 ∧
      ptpSeq 0 l = (((s x).ptpOf 0).reqSeq + 65535) % 65536 ∧ ((s x).ptpOf 0).asked = true ∧ ((s x).ptpOf 0).forward = none ∧
      (s y).hearsPtp 0 = true ∧ ((s y).ptpOf 0).asked = false ∧ ((s y).ptpOf 0).before = none) ∧
    (let s := having (clock ptpDisabled {}) [(F.invPctlEn 0, 1), (F.invPtpCtlProfile, 1), (F.invPtpCtlTwoStep, 0)];
      s.hearsPeer 0 = true ∧ s.ptpForUs (message 2 0) = true ∧ s.endToEnd = false ∧ s.flag F.invPtpCtlTwoStep = false ∧
      s.flag F.invPtpCtlPtpEn = true ∧ s.flag (F.invPctlEn 0) = true) ∧
    (let s := having (clock ptpMaster {}) [(F.invPctlEn 0, 1), (F.invPtpCtlProfile, 1), (F.invPtpCtlTwoStep, 1)];
      s.hearsPeer 0 = true ∧ s.endToEnd = false ∧ s.flag F.invPtpCtlTwoStep = true) ∧
    (let x : PtpPort := { reqSeq := 6, asked := true, left := some 9 };
      let s := having (clock ptpSlave x) [(F.invPctlEn 0, 1), (F.invPtpCtlProfile, 1)]; let l := message 3 0;
      s.hearsPeer 0 = true ∧ s.ptpForUs l = true ∧ beAt l 44 10 = s.portId 0 ∧
      ptpSeq 0 l = ((s.ptpOf 0).reqSeq + 65535) % 65536 ∧ (s.ptpOf 0).asked = true ∧ (s.ptpOf 0).left = some 9 ∧
      s.endToEnd = false ∧ isTwoStep 0 l = false ∧ isTwoStep 0 (message 3 2) = true ∧ s.ptpForUs (message 3 2) = true) ∧
    ((clock ptpPreMaster {}).ptpRuns 0 = true ∧ (clock ptpPreMaster {}).ptpState 0 = ptpPreMaster) ∧
    (let s := clock ptpMaster {}; s.parentSet = none) ∧
    (let f : Foreign := { src := ptpSrc 0 (message 0 0) }; let s := clock ptpMaster { foreign := [f] };
      s.ptpState 0 = ptpMaster ∧ s.parentSet = some f) ∧
    (up.ptpRuns 143 = false ∧ (up.ptpOf 143).asked = false ∧ up.ptpState 143 ≠ ptpSlave ∧ up.ptpState 143 ≠ ptpUncalibrated ∧
      up.ptpState 143 ≠ ptpMaster ∧ up.flag F.invPtpCtlPtpEn = false) := by
  refine ⟨?_, ?_, ?_, ?_, ?_, ?_, ?_, ?_, ?_, ?_, ?_, ?_, ?_, ?_⟩ <;> decide +kernel

theorem witness_MaxFrameIsClampedAndLimitsTheLength :
    up.issues .hostA = true ∧ up.gateOf (masterOf .hostA) (Reg.macMaxf 143) = .open' ∧ up.blockHeld (Reg.macMaxf 143) = false ∧
    up.locked (Reg.macMaxf 143) = false ∧ up.touched = [] ∧
    (let e : RxEnd := { port := 143, bytes := mkBytes (List.range 60), fcs := crc32 (List.range 60) };
      e.code = false ∧ up.assyError e = false ∧ e.fcs = crc32 (natBytes e.bytes)) := by decide +kernel

/-- Port 143 with a 10GBASE-R PHY, in link state `n`. -/
def linked (n : Nat) : State := having up [(F.pcsCtlPhy 143, 3), (F.pcsStsState 143, n), (F.macCtlEn 143, 1)]

theorem witness_LinksLockAndComeUp :
    ((linked 1).pcsRuns 143 = true ∧ (linked 1).ptpState 143 = ptpDisabled) ∧
    (let s := having (linked 1) [(F.pcsStsCdr 143, 1)]; s.flag (F.pcsStsCdr 143) = true ∧ s.fget (F.pcsStsState 143) = 1) ∧
    ((linked 0).flag (F.pcsStsCdr 143) = false ∧ up.pcsRuns 0 = false) := by decide +kernel

theorem witness_LinksGoUpAndDown :
    (let s := having (linked 2) [(F.pcsStsLock 143, 1)];
      s.pcsRuns 143 = true ∧ s.fget (F.pcsStsState 143) = 2 ∧ s.flag (F.pcsStsLock 143) = true ∧ s.baseR 143 = true ∧
      s.guardHolds 143 = false) ∧
    ((linked 3).pcsRuns 143 = true ∧ (linked 3).fget (F.pcsStsState 143) ≠ 2) ∧
    (let s := having (linked 3) [(F.pcsStsGuarded 143, 1), (F.pcsStsLock 143, 1), (F.pcsStsRfRx 143, 1)];
      let u := ((s.fset (F.pcsStsLock 143) false).fset (F.pcsStsFecLock 143) false).fset (F.pcsStsRfRx 143) false;
      let v := ((s.fset (F.pcsStsHiBer 143) true).macCount 143 58 1).macEvent 143 2;
      s.pcsRuns 143 = true ∧ u.guardHolds 143 = true ∧ (u.fset (F.pcsStsCdr 143) false).guardHolds 143 = true ∧
      s.baseR 143 = true ∧ v.guardHolds 143 = true) ∧
    (let s := linked 3; let v := ((s.fset (F.pcsStsHiBer 143) true).macCount 143 58 1).macEvent 143 2;
      s.pcsRuns 143 = true ∧ v.guardHolds 143 = false ∧ (s.fset (F.pcsStsRfRx 143) false).guardHolds 143 = false) ∧
    (let s := having up [(F.pcsCtlPhy 0, 1)]; s.pcsRuns 0 = true ∧ s.baseR 0 = false) ∧
    up.pcsRuns 0 = false ∧
    (up.qReady (23 / 6) 0 = true ∧ up.ready (qDom (23 / 6) (1 + 23 % 6)) = true ∧ State.reset.qReady (23 / 6) 0 = false) ∧
    (up.reaches (Reg.pcsCtl 143) = true ∧ (up.store (Reg.pcsCtl 143) 0).rd (Reg.pcsCtl 143) % 32 = up.rd (Reg.pcsCtl 143) % 32 ∧
      (up.store (Reg.pcsCtl 143) 3).rd (Reg.pcsCtl 143) % 32 ≠ up.rd (Reg.pcsCtl 143) % 32) := by decide +kernel

theorem witness_ReceivedFramesAreCheckedAtTheirEnd :
    (up.ready (qDom (143 / 36) 0) = true ∧ up.flag (F.macCtlEn 143) = false ∧ (linked 1).portUp 143 = false ∧
      State.reset.ready (qDom (143 / 36) 0) = false) ∧
    (let s := linked 3; let e : RxEnd := { port := 143, bytes := mkBytes (List.range 60), fcs := crc32 (List.range 60) };
      s.ready (qDom (143 / 36) 0) = true ∧ s.flag (F.macCtlEn 143) = true ∧ s.portUp 143 = true ∧ s.rxFate e false = none ∧
      isControl e.bytes = false ∧ s.rxFate { e with fcs := 0 } false = some 16 ∧ s.rxOf 143 false = none ∧
      s.rxFate e true = some 18 ∧ s.rxOf 143 true = none ∧ s.assyError e = false ∧
      s.assyError { e with pre := true } = true ∧ s.flag (F.macPeCtlPeEn 143) = false) ∧
    (let s := { linked 1 with ports := [(143, { rx := some { cut := true } })] };
      s.flag (F.macCtlEn 143) = true ∧ s.portUp 143 = false ∧ s.rxOf 143 false = some { cut := true }) ∧
    (let s := having (linked 3) [(F.macPeCtlPeEn 143, 1)]; let l := mkBytes (List.range 60);
      s.portUp 143 = true ∧ s.rxOf 143 true = none ∧ s.flag (F.macPeCtlPeEn 143) = true ∧
      s.assyError { port := 143, pre := true, bytes := l } = true) ∧
    (let l := mkBytes (List.replicate 12 0 ++ [0x88, 0x08] ++ List.replicate 46 0);
      isControl l = true ∧ (linked 3).rxFate { port := 143, bytes := l, fcs := crc32 (natBytes l) } false = none) ∧
    (let s := having (linked 3) [(F.macMaxfMaxFrame 143, 64)];
      let e : RxEnd := { port := 143, bytes := mkBytes (List.replicate 60 0) };
      e.bytes.length + 4 ≤ s.fget (F.macMaxfMaxFrame 143) ∧
      s.fget (F.macMaxfMaxFrame 143) < ({ e with bytes := mkBytes (List.replicate 61 0) } : RxEnd).bytes.length + 4 ∧
      ({ e with bytes := mkBytes (List.replicate 59 0) } : RxEnd).bytes.length + 4 < 64) := by
  decide +kernel

theorem witness_FlowControlLoadsItsTimers :
    (linked 3).macHears 143 = true ∧ (having (linked 3) [(F.macFcMode 143, 1)]).fget (F.macFcMode 143) = 1 ∧
    (having (linked 3) [(F.macFcMode 143, 1)]).macHears 143 = true ∧
    (having (linked 3) [(F.macFcMode 143, 2)]).fget (F.macFcMode 143) = 2 ∧ (linked 3).fget (F.macFcMode 143) = 0 ∧
    up.macHears 143 = false := by decide +kernel

theorem witness_FramesLeaveThePortAndVerify :
    (let f : TxFrame := { bytes := mkBytes (List.replicate 12 0 ++ [0x88, 0x08]) };
      let s := { linked 3 with ports := [(143, { coming := [f] })] };
      (s.mac 143).coming = [f] ∧ f.source = 0 ∧ etherType (s.tpid2 143) f.bytes = 0x8808) ∧
    (let f : TxFrame := { source := 1, bytes := mkBytes (List.replicate 60 0) }; let s := linked 3;
      s.frameLen 143 f ≤ s.fget (F.macMaxfMaxFrame 143) ∧ s.fget (F.macMaxfMaxFrame 143) <
        s.frameLen 143 { source := 2, bytes := mkBytes (List.replicate 1533 0) }) ∧
    (let f : TxFrame := { source := 1 }; let s := { linked 3 with ports := [(143, { coming := [f] })] };
      (s.mac 143).coming = [f] ∧ f.source = 1) ∧
    (let s := { linked 3 with ports := [(143, { tx := some {} })] };
      s.ready (qDom (143 / 36) 0) = true ∧ (s.mac 143).tx = some {} ∧ ({} : TxProg).cutAt = none) ∧
    (let s := { linked 3 with ports := [(143, { tx := some { frame := { arriving := true } } })] };
      (s.mac 143).tx = some { frame := { arriving := true } }) ∧
    (having (linked 3) [(F.qchStsIso, 8)]).iso (143 / 36) = true ∧
    ((linked 3).ready (qDom (143 / 36) 0) = true ∧ ((linked 3).mac 143).tx = none ∧ (linked 3).iso (143 / 36) = false ∧
      (linked 3).fget (F.pcsCtlLoop 143) ≠ 2 ∧ ((linked 3).mac 143).verifyDue = false ∧ ((linked 3).mac 143).respondDue = 0) ∧
    (let s := { linked 3 with ports := [(143, { verifyDue := true })] }; (s.mac 143).verifyDue = true ∧ s.txUp 143 = true) ∧
    (let s := { linked 3 with ports := [(143, { respondDue := 1 })] }; 0 < (s.mac 143).respondDue ∧ (s.mac 143).verifyDue = false ∧ s.txUp 143 = true) ∧
    (having (linked 3) [(F.pcsCtlLoop 143, 2)]).fget (F.pcsCtlLoop 143) = 2 ∧
    (let s := { linked 3 with ports := [(143, { tx := some { cutAt := some 0 } })] }; (s.mac 143).tx = some { cutAt := some 0 }) ∧
    (let s := having (linked 3) [(F.macPeStsVstate 143, 2), (F.macPeStsTries 143, 1)];
      s.fget (F.macPeStsVstate 143) = 2 ∧ s.fget (F.macPeStsTries 143) < s.fget (F.macPeCtlVerifyLimit 143) ∧
      s.sendsMpacket 143 = true ∧ (having s [(F.pcsCtlLoop 143, 2)]).sendsMpacket 143 = false) ∧
    (let s := having (linked 3) [(F.macPeStsVstate 143, 2), (F.macPeStsTries 143, 3)];
      s.fget (F.macPeCtlVerifyLimit 143) ≤ s.fget (F.macPeStsTries 143)) ∧
    ((linked 3).fget (F.macPeStsVstate 143) ≠ 2 ∧ (linked 3).macHears 143 = true ∧ (linked 3).flag (F.macPeCtlPeEn 143) = false ∧
      (having (linked 3) [(F.macPeCtlPeEn 143, 1)]).flag (F.macPeCtlPeEn 143) = true) ∧
    (State.reset.ready (qDom (143 / 36) 0) = false ∧ State.reset.macHears 143 = false) := by decide +kernel

theorem witness_StagedAccessMovesWholeEntries :
    (up.reaches (Reg.clsStgCmd 3) = true ∧ up.flag (F.clsStgCmdGoBusy 3) = false ∧ bitAt 0x3FFF 16 = false ∧
      up.reaches (Reg.dupStgCmd 3) = true ∧ up.flag (F.dupStgCmdGoBusy 3) = false ∧ bitAt 0xFFFF 16 = false ∧
      bitAt 0x13FFF 16 = true ∧ bitAt 0x1FFFF 16 = true ∧ up.touched = [] ∧ up.injected = []) ∧
    (up.readable (streamAddr 3 0 0) = true ∧
      ({ up with injected := [(streamAddr 3 0 0, 2)] } : State).readable (streamAddr 3 0 0) = false) ∧
    (let s := having up [(F.clsStgCmdGoBusy 3, 1), (F.dupStgCmdGoBusy 3, 1)];
      s.reaches (Reg.clsStgCmd 3) = true ∧ s.flag (F.clsStgCmdGoBusy 3) = true ∧ s.flag (F.dupStgCmdGoBusy 3) = true) ∧
    (up.ready (qDom 3 0) = true ∧ up.ready (qDom 3 7) = true) ∧
    (State.reset.reaches (Reg.clsStgCmd 3) = false ∧ State.reset.reaches (Reg.dupStgCmd 3) = false ∧
      State.reset.reaches (Reg.clsHash 3) = false ∧ State.reset.reaches (Reg.dupHash 3) = false ∧
      State.reset.reaches (Reg.mtrPeekIdx 3) = false ∧ State.reset.ready (qDom 3 0) = false ∧
      State.reset.ready (qDom 3 7) = false) := by decide +kernel

theorem witness_HashRegistersShowTheBucket :
    (up.reaches (Reg.clsHash 3) = true ∧ up.reaches (Reg.dupHash 0) = true ∧ up.reaches (Reg.mtrPeekIdx 3) = true) ∧
    (let s := having (timed 1000000000) [(mtrMode 0 7, 1), (mtrCir 0 7, 1000), (mtrCbs 0 7, 64), (mtrXbs 0 7, 100), (mtrAware 0 7, 1)];
      let full := (s.meterOf 0 7).tc + s.fget (mtrCir 0 7) * 1024 * (s.folNow 0 - (s.meterOf 0 7).last) / 1000000;
      s.fget (mtrMode 0 7) = 1 ∧ 1024 * s.fget (mtrCbs 0 7) < full ∧ min full 65536 = 65536 ∧
      min ((s.meterOf 0 7).tx + (full - 65536)) 102400 = 102400 ∧ 1024 * 64 ≤ 65536 ∧ 65536 < 1024 * 65 ∧ 1024 * 100 ≤ 102400 ∧
      102400 < 1024 * 101 ∧ (s.flag (mtrAware 0 7) && true) = true ∧ (s.flag (mtrAware 0 7) && false) = false) ∧
    (let s := having (timed 1000000000) [(mtrMode 0 7, 2), (mtrCir 0 7, 1000), (mtrPir 0 7, 1000), (mtrCbs 0 7, 64), (mtrXbs 0 7, 100)];
      let dt := s.folNow 0 - (s.meterOf 0 7).last;
      s.fget (mtrMode 0 7) ≠ 1 ∧ min ((s.meterOf 0 7).tc + s.fget (mtrCir 0 7) * 1024 * dt / 1000000) (1024 * 64) = 65536 ∧
      min ((s.meterOf 0 7).tx + s.fget (mtrPir 0 7) * 1024 * dt / 1000000) (1024 * 100) = 102400 ∧
      (s.flag (mtrAware 0 7) && true) = false) := by
  decide +kernel

theorem witness_SourceLookupFollowsItsRule :
    ((0 + 65536 - 0) % 65536 = 0 ∧ (65535 + 65536 - 65535) % 65536 = 0) ∧
    (0 < (32766 + 65536 - 65535) % 65536 ∧ (32766 + 65536 - 65535) % 65536 ≤ 32767) ∧
    (32767 < (65521 + 65536 - 0) % 65536 ∧ 65536 - (65521 + 65536 - 0) % 65536 ≤ 16 - 1) ∧
    (32767 < (32768 + 65536 - 0) % 65536 ∧ 48 - 1 < 65536 - (32768 + 65536 - 0) % 65536) ∧
    (let s := having up [(F.macCtlEn 143, 1), (F.dupCtlEn 3, 1), (F.dupPair0Mode 71, 1)];
      s.qReady (143 / 36) 0 = true ∧ s.qReady (143 / 36) 7 = true ∧ s.flag (F.macCtlEn 143) = true ∧ s.pairMode (pairOf 143) ≠ 0) ∧
    up.flag (F.macCtlEn 143) = false ∧
    (let s := (having up [(frHlen 3 4095, 8), (frSeq 3 4095, 10)]).wr (frerAddr 3 4095 2) 5;
      s.flag (frAny 3 4095) = false ∧ s.fget (frHlen 3 4095) = 8 ∧ (having s [(frAny 3 4095, 1)]).flag (frAny 3 4095) = true ∧
      s.rd (frerAddr 3 4095 2) + 2 ^ 32 * s.rd (frerAddr 3 4095 3) = 5 ∧ s.fget (frSeq 3 4095) = 10 ∧
      signedOf (18 + 65536 - 10) 16 = 8 ∧ signedOf (2 + 65536 - 10) 16 = -8 ∧ signedOf (8 + 65536 - 10) 16 = -((2 : Nat) : Int) ∧
      bitAt 5 2 = true ∧ signedOf (3 + 65536 - 10) 16 = -((7 : Nat) : Int) ∧ bitAt 5 7 = false ∧
      signedOf (17 + 65536 - 10) 16 = ((7 : Nat) : Int)) := by decide +kernel

theorem witness_GoAndScheduleRamWritesAreJudged :
    (up.reaches Reg.scbAct = true ∧ bitAt 3 2 = false ∧ up.flag F.scbStsValidating = false ∧ up.flag F.scbStsPend = false ∧
      up.flag F.scbStsRunning = false) ∧
    (let s := having up [(F.scbStsRunning, 1), (F.scbStsActBank, 1)];
      s.reaches Reg.scbAct = true ∧ s.flag F.scbStsRunning = true ∧ bitsOf 3 1 1 = s.fget F.scbStsActBank ∧
      bitsOf 1 1 1 ≠ s.fget F.scbStsActBank ∧ s.reaches 0x7FFFFC = true ∧ (0x7FFFFC - 0x400000) / 0x200000 = s.fget F.scbStsActBank) ∧
    (let s := having up [(F.scbStsPend, 1)];
      s.reaches Reg.scbAct = true ∧ bitAt 4 0 = false ∧ s.flag F.scbStsPend = true ∧ (0x400000 - 0x400000) / 0x200000 = s.scb.bank) ∧
    (up.reaches 0x400000 = true ∧ 0x400000 % 4 = 0) ∧
    (up.reaches Reg.scbAct = true ∧ bitAt 7 2 = true ∧ bitAt 7 0 = true ∧ bitAt 4 0 = false ∧
      (having up [(F.scbStsPend, 1)]).flag F.scbStsPend = true ∧ (having up [(F.scbStsPend, 1)]).flag F.scbStsValidating = false ∧
      (having up [(F.scbStsValidating, 1)]).flag F.scbStsValidating = true ∧
      (let s := having up [(F.scbStsRunning, 1), (F.scbStsActBank, 1)]; s.flag F.scbStsRunning = true ∧
        bitsOf 7 1 1 = s.fget F.scbStsActBank ∧ bitsOf 5 1 1 ≠ s.fget F.scbStsActBank)) := by decide +kernel

/-- Bank 0 holds one COMMIT of map 1 at offset 0 of a 10 000 ns cycle and the CRC-32C of the image, and is being validated; the counter
is at `n` ns. -/
def listed (n : Nat) : State :=
  let s := [(0x400000, 1), (0x400004, 1), (0x400008, 10000), (0x400104, 0x102)].foldl (fun t x => t.wr x.1 x.2)
    (having (timed n) [(F.scbStsValidating, 1)])
  let t := s.wr 0x40000C 242289421
  { t with scb := { t.scb with base := 20000 } }

theorem bankCrc_listed : (listed 18000).bankCrc 0 = 242289421 ∧ (listed 18001).bankCrc 0 = 242289421 := by
  simp only [State.bankCrc, crc32c, crcReflected_eager]
  decide +kernel

theorem witness_ValidationDecidesTheSwitch :
    ((listed 18000).scbWorks = true ∧ (listed 18000).flag F.scbStsValidating = true ∧ (listed 18000).validate 0 = 0 ∧
      (listed 18000).scb.bank = 0 ∧ 0 < (listed 18000).bankCycle 0 ∧
      firstGrid (listed 18000).scb.base ((listed 18000).bankCycle 0) ((listed 18000).folUp + 2000) = (listed 18000).scb.base) ∧
    ((listed 18001).validate 0 = 0 ∧
      firstGrid (listed 18001).scb.base ((listed 18001).bankCycle 0) ((listed 18001).folUp + 2000) ≠ (listed 18001).scb.base) ∧
    ((having up [(F.scbStsValidating, 1)]).flag F.scbStsValidating = true ∧
      (having up [(F.scbStsValidating, 1)]).validate 0 ≠ 0) ∧
    up.flag F.scbStsValidating = false := by
  unfold State.validate
  rw [bankCrc_listed.1, bankCrc_listed.2]
  decide +kernel

/-- The list of bank 0 runs from 0 ns. -/
def running (n : Nat) : State :=
  (having (listed n) [(F.scbStsRunning, 1), (F.scbCtlEn, 1)]).wr Reg.scbActCycle 10000

theorem witness_TheListSwitchesAndHandsOver :
    (up.scbWorks = true ∧ up.flag F.scbStsPend = false ∧ (having up [(F.scbStsPend, 1)]).flag F.scbStsPend = true ∧
      up.flag F.scbStsRunning = false ∧ up.listRuns = false) ∧
    (let s := running 10000; s.scbWorks = true ∧ s.flag F.scbStsRunning = true ∧ s.listRuns = true) ∧
    (let s := { running 5 with scb := { (running 5).scb with walk := 10000000 } };
      (s.nextCommit s.scb.walk).map (·.1) = some 10000000 ∧ s.folNow 4 + 1000 * s.fget F.scbCtlRunahead < 10000000) ∧
    (let s := running 0; (s.nextCommit s.scb.walk).map (·.1) = some 0 ∧ 0 ≤ s.folNow 4 + 1000 * s.fget F.scbCtlRunahead ∧
      s.cutAt 0 = false ∧ (s.nextCommit s.scb.walk).any (fun x => s.commitReadable 0 x.2) = true ∧ (having s [(F.scbStsPend, 1)]).cutAt 0 = true) ∧
    (let s := { running 0 with injected := [(0x400104, 2)] };
      (s.nextCommit s.scb.walk).any (fun x => !s.commitReadable 0 x.2) = true) ∧
    (let s := (running 0).wr 0x400104 0; s.listRuns = true ∧ s.nextCommit s.scb.walk = none) ∧
    State.reset.scbWorks = false ∧
    (let s := having up [(F.scbCtlEn, 1)];
      s.reaches Reg.scbCtl = true ∧ (s.store Reg.scbCtl 0).flag F.scbCtlEn = false ∧ (up.store Reg.scbCtl 1).flag F.scbCtlEn = true) :=
  by decide +kernel

theorem witness_EdgesArmAndFire :
    (let s := (running 0).wr 0x400104 0x02000001;
      s.scbWorks = true ∧ (s.listEdge 0 0 10000 []).isSome = true ∧ s.listEdge 0 1 10000 [] = none ∧ s.listAt 10000 = true) ∧
    State.reset.scbWorks = false ∧ ((timed 7).armNow 0 143 ≤ 7 ∧ 6 < (timed 7).armNow 0 143) ∧
    (let e : Edge := { port := 143, kind := 0, t := 9, armed := true, hold := 1 };
      let s := { timed 7 with scb := { edges := [e, { e with t := 10, hold := 0 }, { e with kind := 1 }] } };
      firstEdge 143 0 s.scb.edges = some e ∧ e.hold = 1 ∧ firstEdge 143 1 s.scb.edges = some { e with kind := 1 } ∧
      firstEdge 0 0 s.scb.edges = none ∧ firstEdge 0 1 s.scb.edges = none) ∧
    firstEdge 143 0 [({ port := 143, armed := true } : Edge)] = some { port := 143, armed := true } ∧
    (up.scb.guards.any (fun g => g.port == 0 && g.phase == 1) = false ∧
      up.scb.guards.any (fun g => g.port == 0 && g.phase == 2) = false) ∧
    (let s := { up with scb := { edges := [{ port := 143, t := 9 }] } };
      s.scb.edges.any (fun e => e.port == 143 && e.kind == 0 && e.t == 9) = true ∧ s.iso (143 / 36) = false ∧
      s.scb.edges.any (fun e => e.port == 143 && e.kind == 1 && e.t == 9) = false ∧
      (having s [(F.qchStsIso, 8)]).iso (143 / 36) = true) ∧
    (let e : Edge := { port := 143, t := 9 };
      let s := { timed 9 with scb := { edges := [e] } }; let u := { timed 12 with scb := { edges := [e] } };
      s.gateReach 143 = true ∧ s.armNow 0 143 ≤ 9 ∧ 9 < u.armNow 0 143 ∧ u.arrives 0 143 9 = true ∧ s.arrives 0 143 8 = false ∧
      (having s [(F.qchStsIso, 8)]).gateReach 143 = false ∧ (having s [(F.qchStsIso, 8)]).arrives 0 143 9 = false ∧
      (having s [(F.pwrDomState 34, 0)]).ready (qDom 3 0) = false) ∧
    (let e : Edge := { port := 143, t := 9, armed := true, hold := 1 }; let s := { up with scb := { edges := [e, { e with kind := 1 }] } };
      firstEdge 143 0 s.validEdges = some e ∧ firstEdge 143 1 s.validEdges = some { e with kind := 1 } ∧
      firstEdge 0 0 s.validEdges = none ∧ firstEdge 0 1 s.validEdges = none ∧
      firstEdge 143 0 ({ up with scb := { edges := [{ e with hold := 0 }] } } : State).validEdges = some { e with hold := 0 }) ∧
    (let g : Guard := { port := 143, phase := 2 };
      let u := fun (g : Guard) => ({ up with scb := { guards := [g] } } : State).onGuards (fun l => l.filter (· != g));
      (u g).guardShut 143 = false ∧ up.iso (143 / 36) = false ∧ (having up [(F.qchStsIso, 8)]).iso (143 / 36) = true ∧
      ({ g with reorder := 3 } : Guard).reorder ≠ 0 ∧ (u { g with reorder := 3 }).guardShut 143 = false ∧
      (let s := { up with scb := { guards := [g, { g with reopen := 5 }] } };
        (s.onGuards (fun l => l.filter (· != g))).guardShut 143 = true) ∧ (having up [(F.pwrDomState 34, 0)]).gateOn 143 = false) ∧
    (let g : Guard := { port := 143, phase := 1 }; let s := { up with scb := { guards := [g] } };
      s.scb.guards.filter (fun x => x.port == 143 && x.phase == 1) = [g] ∧ s.gateOn 143 = true ∧ s.guardShut 143 = false ∧
      (having s [(F.pwrDomState 34, 0)]).gateOn 143 = false) ∧
    (let s := { up with scb := { guards := [{ port := 143, phase := 1 }, { port := 143, phase := 2 }] } };
      s.gateOn 143 = true ∧ s.guardShut 143 = true) ∧
    (let g : Guard := { port := 143, phase := 2, commits := [(1, 0)] };
      let s := { up with scb := { guards := [g] }, fab := { staged := [{ id := 1 }] } };
      s.scb.guards.filter (fun x => x.port == 143 && x.phase == 2) = [g] ∧
      g.commits.filter (fun x => s.undecided x.1) = [(1, 0)] ∧ s.iso (143 / 36) = false) ∧
    (let s := { up with scb := { guards := [{ port := 143, phase := 2 }] } };
      (s.onGuards (fun l => l.filter (· != { port := 143, phase := 2 }))).guardShut 143 = false ∧ s.gateOn 143 = true) ∧
    (let s := { up with fab := { staged := [{ id := 1 }, { id := 2, unguarded := true }] } };
      up.commitOf 0 = none ∧ s.commitOf 1 = some { id := 1 } ∧ s.commitOf 2 = some { id := 2, unguarded := true } ∧
      s.scbWorks = true ∧ (having s [(F.pwrDomState 48, 0)]).scbWorks = false) := by
  refine ⟨?_, ?_, ?_, ?_, ?_, ?_, ?_, ?_, ?_, ?_, ?_, ?_, ?_, ?_, ?_, ?_⟩ <;> decide +kernel

theorem witness_ShaperEntriesAndTheirReadout :
    (shaperAt 3 0x180000 = none ∧ (shaperAt 3 0x17FFF0).isSome = true ∧
      up.reaches (shpEntry (subKey 3 16383)) = true ∧ State.reset.reaches (shpEntry (subKey 3 16383)) = false) ∧
    (let u := up.store (Reg.shpPeekSel 3) 0;
      peekKey 3 (u.fget (F.shpPeekSelLevel 3)) (u.fget (F.shpPeekSelIndex 3)) = some (subKey 3 0)) ∧
    (peekKey 3 1 287 = some (svcKey 143 7) ∧ peekKey 3 1 288 = none ∧ up.reaches (Reg.shpPeekSel 3) = true ∧
      State.reset.reaches (Reg.shpPeekSel 3) = false) ∧
    (let k := svcKey 143 7; let f : TxFrame := { cls := 7, source := 1 };
      let shaped := fun (i : Nat) (x : Shaper) (m : MacPort) =>
        ({ (having (timed 1000) [(F.gatePort5Gates 143, 255), (F.pcsCtlPhy 143, 3)]).wr (shpEntry k) (2 ^ 24 + i) with
          shapers := [(k, x)], ports := [(143, m)] } : State);
      let at' := (timed 1000).counter;
      let c := fun (i : Nat) (x : Shaper) => creditOf ((shaped i x {}).shpIdle k) ((shaped i x {}).counter - ((shaped i x {}).shp k).at');
      let r := fun (i : Nat) (x : Shaper) => creditOf ((shaped i x {}).shpRate k) ((shaped i x {}).counter - ((shaped i x {}).shp k).at');
      keyLevel k ≠ 2 ∧ (shaped 1 {} {}).shpOn k = true ∧ (shaped 1 {} {}).frozenClass 143 ((shaped 1 {} {}).shpClass k) = false ∧
      c 1000 {} < r 1000 {} ∧ r 2000000 {} ≤ c 2000000 {} ∧ (shaped 1000 { mode := 4 } {}).shpLo k < 0 ∧
      (-10000000000 : Int) ≤ (shaped 1000 { mode := 4 } {}).shpLo k ∧ (shaped 1000 { mode := 1 } {}).shp k = { mode := 1 } ∧
      0 ≤ (shaped 1 { credit := 5, at' } {}).creditNow k ∧ (shaped 1 { credit := -5, at' } {}).creditNow k < 0 ∧
      ((shaped 1 {} {}).mac 143).tx = none ∧ ((shaped 1 {} {}).mac 143).queue = [] ∧
      ((shaped 1 {} { queue := [f] }).mac 143).queue = [f] ∧ k ∈ (shaped 1 {} { queue := [f] }).shpPath 143 f ∧
      ((shaped 1 {} { tx := some { frame := f } }).mac 143).tx = some { frame := f } ∧
      k ∈ (shaped 1 {} { tx := some { frame := f } }).shpPath 143 f ∧
      up.shpOn k = false) := by decide +kernel

/-- Ring `r` running, with the soft state `x`. -/
def ringing (r : Nat) (x : Ring) : State :=
  { having up [(F.ringCtlEn r, 1), (F.ringStsRun r, 1), (F.ringStsIdle r, 0)] with rings := [(r, x)] }

theorem witness_RingCountsAreWrittenByTheirRules :
    (up.reaches (Reg.ringHead 2319) = true ∧ up.flag (F.ringCtlEn 2319) = false ∧ up.flag (F.ringStsIdle 2319) = true ∧
      up.reaches (Reg.ringHead 2320) = true ∧ up.flag (F.ringCtlEn 2321) = false ∧ up.flag (F.ringStsIdle 2321) = true) ∧
    (ringing 0 {}).flag (F.ringCtlEn 0) = true ∧
    (let s := (up.wr (Reg.ringHead (noticeRing 1)) 2).wr (Reg.ntcCons 1) 0xFFFFFFFE;
      s.reaches (Reg.ntcCons 1) = true ∧ s.rd (Reg.ntcCons 1) = 0xFFFFFFFE ∧ s.rd (Reg.ringHead (noticeRing 1)) = 2 ∧
      (2 + 2 ^ 32 - 0xFFFFFFFE) % 2 ^ 32 ≤ (2 + 2 ^ 32 - 0xFFFFFFFE) % 2 ^ 32 ∧
      (2 + 2 ^ 32 - 0xFFFFFFFE) % 2 ^ 32 < (3 + 2 ^ 32 - 0xFFFFFFFE) % 2 ^ 32) ∧
    (18559 / 8 < 2320 ∧ up.ringWorks (18559 / 8) = true ∧ 2320 ≤ 18560 / 8 ∧ State.reset.ringWorks 0 = false) := by
  decide +kernel

theorem witness_RingsStartStopAndScan :
    (up.reaches (Reg.ringCtl 2303) = true ∧ up.flag (F.ringCtlEn 2303) = false ∧ up.flag (F.ringStsIdle 2303) = true ∧
      up.flag (F.ringStsRun 2303) = false) ∧
    (let s := having up [(F.ringStsIdle 2303, 0)];
      s.flag (F.ringCtlEn 2303) = false ∧ s.flag (F.ringStsIdle 2303) = false ∧ s.ringWorks 2303 = true ∧
      s.flag (F.ringStsRun 2303) = false ∧ (s.ring 2303).entries = [] ∧ isSoftRing 2303 = true ∧
      ((((s.ringAdvance 2303).slotWrite 2303 false).fset (F.ringStsIdle 2303) true).ring 2303).enHeld = false) ∧
    (let s := { having up [(F.ringStsIdle 2303, 0)] with rings := [(2303, { enHeld := true })] };
      ((((s.ringAdvance 2303).slotWrite 2303 false).fset (F.ringStsIdle 2303) true).ring 2303).enHeld = true) ∧
    (let s := ringing 2303 { due := true };
      s.reaches (Reg.ringCtl 2303) = true ∧ s.ringWorks 2303 = true ∧ s.flag (F.ringStsRun 2303) = true ∧
      (s.ring 2303).scanning = false ∧ (s.ring 2303).paused = false ∧ (s.ring 2303).due = true) ∧
    (let s := ringing 0 {}; s.flag (F.ringStsDbPend 0) = false ∧ (s.ring 0).due = false) ∧
    (let s := ringing 0 { discard := 1 }; s.ringWorks 0 = true ∧ isSoftRing 0 = true ∧ 0 < (s.ring 0).discard) ∧
    (let s := ringing 0 { scanning := true };
      (s.ring 0).discard = 0 ∧ (s.ring 0).scanning = true ∧ (s.ring 0).part = []) ∧
    (let s := { having up [(F.ringStsIdle 2303, 0)] with rings := [(2303, { entries := [{}] })] };
      (s.ring 2303).entries.all (·.done) = false) ∧
    (let e : RingEntry := { kind := 1, units := 2, begun := true }; let s := ringing 0 { entries := [e] };
      s.ringWorks 0 = true ∧ isTxRing 0 = true ∧ s.inFetch 0 = some e ∧ ([] : List Byte).length = txTotal e.words ∧
      [(0 : Byte)].length ≠ txTotal e.words ∧ s.qReady (0 / 576) 0 = true ∧
      (s.partFetch 0).any (fun x => x.pos == e.pos) = false ∧
      (let x : RingEntry := { e with words := List.replicate 8 0 };
        ((ringing 0 { entries := [x] }).partFetch 0).any (fun y => y.pos == x.pos) = true)) ∧
    State.reset.reaches (Reg.ringCtl 2303) = false := by
  refine ⟨?_, ?_, ?_, ?_, ?_, ?_, ?_, ?_, ?_, ?_⟩ <;> decide +kernel

theorem witness_ScansExamineHeadersInOrder :
    (let s := ringing 2303 {};
      s.flag (F.ringStsRun 2303) = true ∧ s.scanFull 2303 = false ∧ s.ownedMark 2303 (s.rd (Reg.ringScan 2303)) = 1 ∧
      bitsOf 0x11F 8 1 = 1 ∧ bitsOf 0x11F 0 4 = 15 ∧ bitsOf 0x113 0 4 ≠ 15 ∧ bitsOf 0x113 0 4 ≠ ringType 2303 ∧
      bitsOf 0x12 8 1 ≠ 1 ∧ ringType 2303 = 2 ∧ bitsOf 0x102 0 4 = ringType 2303 ∧
      unitsFit (ringType 2303) (bitsOf 0x102 4 4 + 1) = false) ∧
    (let s := having (ringing 2303 {}) [(F.ringStsAccepted 2303, 16)];
      s.flag (F.ringStsRun 2303) = true ∧ s.scanFull 2303 = true) ∧
    up.flag (F.ringStsRun 0) = false := by decide +kernel

theorem witness_RingWorkEndsAndFails :
    (up.ringWorks 2321 = true ∧ (up.ring 2321).irqHeld = false) ∧
    (let s := ringing 2321 { gap := true, irqHeld := true, discard := 1 };
      s.ringWorks 2321 = true ∧ (s.ring 2321).irqHeld = true ∧ s.flag (F.ringStsRun 2321) = true ∧
      0 < (s.ring 2321).discard) ∧
    (let e : RingEntry := { pos := 7, kind := 1, begun := true }; let s := ringing 0 { entries := [e] };
      s.ringWorks 0 = true ∧ s.flag (F.ringStsRun 0) = true ∧ s.entryAt 0 7 = some e ∧ s.entryAt 0 8 = none ∧
      isTxRing 0 = true ∧ e.frame = 0 ∧ e.begun = true ∧ e.whole = false ∧ (s.ring 0).scanning = false ∧ (s.ring 0).discard = 0 ∧
      s.slots = none ∧ (s.ring 0).slotOut = false ∧ (ringing 0 { slotOut := true }).ring 0 = { slotOut := true }) ∧
    (let e : RingEntry := { pos := 0xFFFFFFFF, kind := 2, frame := 1 }; let s := ringing 8 { entries := [e], scanning := true };
      s.ringWorks 8 = true ∧ s.entryAt 8 0xFFFFFFFF = some e ∧ e.frame ≠ 0 ∧ isTxRing 8 = false ∧
      (s.ring 8).scanning = true) ∧
    (up.flag (F.ringStsRun 0) = false ∧ up.flag (F.ringStsIdle 0) = true ∧ State.reset.ringWorks 0 = false ∧
      State.reset.ready (ringDom 0) = false) ∧
    (let s := having up [(F.qchStsIso, 8)];
      s.ringIsolated 2303 = true ∧ s.ready (ringDom 2303) = true ∧ s.ringWorks 2303 = false) ∧
    (let s := { ringing (noticeRing 1) {} with regs := ((ringing (noticeRing 1) {}).fset (ntcPend 1) true).regs };
      s.flag (ntcPend 1) = true ∧ 4 ≤ s.noticeFree 1 ∧ (s.wr (Reg.ringHead (noticeRing 1)) 0xFFFFFFFF).flag (ntcPend 1) = true ∧
      (s.wr (Reg.ringHead (noticeRing 1)) 0xFFFFFFFF).noticeFree 1 < 4) ∧
    (up.ready 46 = true ∧ State.reset.ready 46 = false) ∧
    (let s := ringing (noticeRing 1) {};
      s.ringWorks (noticeRing 1) = true ∧ s.flag (F.ringStsRun (noticeRing 1)) = true ∧ s.flag (ntcPend 1) = false ∧
      2 ≤ s.noticeFree 1) ∧
    (let s := (ringing (noticeRing 1) {}).wr (Reg.ringHead (noticeRing 1)) 0xFFFFFFFF;
      s.flag (F.ringStsRun (noticeRing 1)) = true ∧ s.flag (ntcPend 1) = false ∧ s.noticeFree 1 < 2) := by
  refine ⟨?_, ?_, ?_, ?_, ?_, ?_, ?_, ?_, ?_, ?_⟩ <;> decide +kernel

/-- Link `q` in link state `n` with GRF_CTL.EN set. -/
def grafa (q n : Nat) : State := having up [(F.grfCtlEn q, 1), (F.grfStsState q, n)]

theorem witness_GrafaLinksTrainAndLeaveUp :
    (up.reaches (Reg.grfCtl 3) = true ∧ State.reset.reaches (Reg.grfCtl 3) = false) ∧
    (up.flag (F.grfCtlEn 3) = false ∧ bitAt 1 0 = true ∧ (grafa 3 linkUp).flag (F.grfCtlEn 3) = true ∧ bitAt 0 0 = false ∧
      bitAt 3 1 = true ∧ bitAt 3 0 = true ∧ up.flag (F.grfCtlEn 3) = bitAt 0 0) ∧
    (let heads := List.replicate 4 (List.replicate 64 10);
      up.ready (qDom 3 10) = true ∧ (grafa 3 linkLock).fget (F.grfStsState 3) = linkLock ∧
      (∀ j, j < 4 → (grafa 3 linkLock).flag (F.grfLaneStsLock (4 * 3 + j)) = false) ∧
      ∀ j, j < 4 → (heads.getD j []).length = 64 ∧ ∀ h ∈ heads.getD j [], h = 5 ∨ h = 10) ∧
    (let s := { grafa 3 linkAlign with links := [(3, { syncs := 2 })] };
      s.ready (qDom 3 10) = true ∧ s.fget (F.grfStsState 3) = linkAlign ∧ 2 ≤ (s.link 3).syncs) ∧
    (let s := having (grafa 3 linkUp) [(F.grfLaneStsLock 15, 1)];
      s.ready (qDom 3 10) = true ∧ s.flag (F.grfLaneStsLock (4 * 3 + 3)) = true ∧
      (Table.get [] 3 (s.link 3).heads).all id = true ∧ (List.replicate 16 15).length = 16 ∧
      ∀ h ∈ List.replicate 16 15, h ≠ 5 ∧ h ≠ 10) ∧
    (let s := { grafa 0 linkUp with links := [(0, { missed := [(3, 1)], crcWin := List.replicate 7 true })] };
      s.isUp 0 = true ∧ 2 ≤ Table.get 0 3 (s.link 0).missed + 1 ∧
      8 ≤ badFlits ((true :: (List.replicate (Nat.min 57 64) false ++ (s.link 0).crcWin)).take 64) = false) ∧
    (let s := { grafa 0 linkUp with links := [(0, { crcWin := List.replicate 7 true })] };
      8 ≤ badFlits ((true :: (List.replicate (Nat.min 0 64) false ++ (s.link 0).crcWin)).take 64)) ∧
    (let s := { grafa 3 linkDown with links := [(3, { retry := true, cmds := [{ seq := 4, resends := 2 }, { seq := 5, resends := 3 }] })] };
      s.fget (F.grfStsState 3) = linkDown ∧ (s.link 3).retry = true ∧ s.flag (F.grfCtlEn 3) = true ∧
      (s.link 3).cmds.find? (fun d => d.seq == 4) = some { seq := 4, resends := 2 } ∧
      (s.link 3).cmds.find? (fun d => d.seq == 5) = some { seq := 5, resends := 3 } ∧
      (s.link 3).cmds.find? (fun d => d.seq == 6) = none) ∧
    ((up.link 0).retry = false ∧ up.fget (F.grfStsState 0) ≠ linkLock ∧ up.fget (F.grfStsState 0) ≠ linkAlign) := by
  refine ⟨?_, ?_, ?_, ?_, ?_, ?_, ?_, ?_, ?_⟩ <;> decide +kernel

theorem witness_GrafaFlitsAreTaken :
    (let s := grafa 3 linkAlign; s.ready (qDom 3 10) = true ∧ s.fget (F.grfStsState 3) = linkAlign ∧
      (s.goodFlit 3 0).fget (F.grfStsState 3) < linkIdent ∧ (s.goodFlit 3 0).isUp 3 = false) ∧
    (let s := { grafa 3 linkUp with links := [(3, { cmds := [{ seq := 255, op := 2 }, { seq := 1, op := 1 }, { seq := 2, op := 10 },
        { seq := 3, op := 3 }] })] };
      s.ready (qDom 3 10) = true ∧
      ((s.goodFlit 3 0).link 3).cmds.find? (fun d => d.seq == 255 && d.op == 2) = some { seq := 255, op := 2 } ∧
      ((s.goodFlit 3 0).link 3).cmds.find? (fun d => d.seq == 1 && d.op == 1) = some { seq := 1, op := 1 } ∧
      ((s.goodFlit 3 0).link 3).cmds.find? (fun d => d.seq == 2 && d.op == 0x0A) = some { seq := 2, op := 10 } ∧
      ((s.goodFlit 3 0).link 3).cmds.find? (fun d => d.seq == 3 && d.op == 3) = some { seq := 3, op := 3 } ∧
      (∀ c ∈ ((s.goodFlit 3 0).link 3).cmds, ¬(c.seq = 255 ∧ c.op = 1)) ∧ (s.goodFlit 3 0).isUp 3 = true ∧ s.isUp 3 = true ∧
      s.flag (F.grfCtlEn 3) = true ∧ (s.link 3).sent = none) ∧
    (let s := { grafa 3 linkUp with links := [(3, { sent := some 1562 })] };
      s.flag (F.grfCtlEn 3) = true ∧ (s.link 3).sent = some 1562) ∧
    (let s := { grafa 3 linkMeasure with links := [(3, { pinged := 15 })] };
      s.fget (F.grfStsState 3) = linkMeasure ∧ (s.link 3).pinged < 16 ∧ s.isUp 3 = false) ∧
    (let s := { grafa 3 linkMeasure with links := [(3, { pinged := 16 })] }; 16 ≤ (s.link 3).pinged) ∧
    up.flag (F.grfCtlEn 3) = false ∧
    (let s := fun n l => ({ having up ([(F.grfCtlEn 3, 1), (F.grfStsState 3, linkUp), (F.lldCtlEn 3, 1), (F.lldMon1En 1023, 1), (F.lldMon0LosThresh 1023, 5),
          (F.lldMon0ClrThresh 1023, 9), (F.lldMon1State 1023, n)] ++ l) with fab := { up.fab with highRun := [(1023, 1)] } } : State);
      let at4 := (s 4 [(F.lldCtlRestoreN 3, 2)]).lldArm 1023;
      ((s 2 []).lldArm 1023).fget (F.lldMon1State 1023) = 2 ∧ ((s 3 []).lldArm 1023).fget (F.lldMon1State 1023) = 3 ∧
      ((s 1 []).lldArm 1023).fget (F.lldMon1State 1023) = 1 ∧ at4.fget (F.lldMon1State 1023) = 4 ∧ at4.iso 3 = false ∧
      Table.get 0 1023 at4.fab.highRun + 1 = at4.fget (F.lldCtlRestoreN 3) ∧
      (let u := (s 1 [(F.lldCtlRestoreN 3, 3)]).lldArm 1023; Table.get 0 1023 u.fab.highRun + 1 < u.fget (F.lldCtlRestoreN 3)) ∧
      (up.lldArm 1023).fget (F.lldMon1State 1023) = 0 ∧ (s 2 [(F.lldMon1Blanked 1023, 1)]).flag (F.lldMon1Blanked 1023) = true ∧
      (s 2 []).flag (F.lldMon1Blanked 1023) = false ∧ (s 2 []).fget (F.lldMon0LosThresh 1023) = 5 ∧
      (s 2 []).fget (F.lldMon0ClrThresh 1023) = 9) := by
  refine ⟨?_, ?_, ?_, ?_, ?_, ?_, ?_⟩ <;> decide +kernel

theorem witness_HoldLawMovesTheLatch :
    (let s := having up [(Cell.target 3 65535 1, 5000), (Cell.state 3 65535, 1), (Cell.drive 3 65535, 16383)];
      s.fget (Cell.state 3 65535) < 2 ∧ s.flag (F.nitStsLifting 3) = false ∧
      ((s.fget (Cell.target 3 65535 (s.fget (Cell.state 3 65535))) : Int) - 5000).natAbs ≤ s.fget (F.nitHlimHoldAlarm 3) ∧
      s.holdWrites 3 65535 = true ∧ s.inCal 3 0 = false ∧ 65535 ∉ (s.nit 3).dropCell ∧ s.fget (Cell.clip 3 65535) < 2) ∧
    (let s := having up [(Cell.target 3 65535 1, 5000), (Cell.state 3 65535, 1), (Cell.armed 3 65535, 1), (Cell.alrm 3 65535, 2),
        (Cell.clip 3 65535, 2)];
      s.fget (F.nitHlimHoldAlarm 3) < ((s.fget (Cell.target 3 65535 (s.fget (Cell.state 3 65535))) : Int) - 0).natAbs ∧
      s.flag (Cell.armed 3 65535) = true ∧ s.fget (Cell.alrm 3 65535) = 2 ∧ s.fget (Cell.clip 3 65535) = 2 ∧
      s.holdWrites 3 65535 = true) ∧
    (let s := having up [(Cell.target 0 0 0, 5000), (Cell.armed 0 0, 1), (Cell.alrm 0 0, 1)];
      s.fget (F.nitHlimHoldAlarm 0) < ((s.fget (Cell.target 0 0 (s.fget (Cell.state 0 0))) : Int) - 0).natAbs ∧
      s.flag (Cell.armed 0 0) = true ∧ s.fget (Cell.alrm 0 0) < 2) ∧
    (let s := having up [(Cell.target 0 0 0, 5000)];
      s.flag (Cell.armed 0 0) = false ∧ s.fget (Cell.alrm 0 0) < 3 ∧ s.inCal 0 0 = false ∧ s.holdWrites 0 0 = true) ∧
    (let s := { having up [(Cell.target 0 0 0, 5000)] with links := [(0, { cal := 1 })] };
      s.inCal 0 0 = true ∧ s.fget (Cell.state 0 0) < 2 ∧ s.holdWrites 0 0 = true ∧ 0 ∉ (s.nit 0).dropCell) ∧
    (having up [(Cell.state 3 65535, 3)]).fget (Cell.state 3 65535) = 3 ∧
    (bitsOf 0x8000 14 2 = 2 ∧ bitsOf 0xFFFF 14 2 = 3 ∧ bitsOf 0x4000 14 2 = 1 ∧ bitsOf 0x3FFF 14 2 = 0) := by
  refine ⟨?_, ?_, ?_, ?_, ?_, ?_, ?_⟩ <;> decide +kernel

theorem witness_NitinolSlicesServeCells :
    (let s := having (grafa 3 linkUp) [(F.nitStsBound 3, 256), (F.nitStsRun 3, 1)];
      s.fget (F.nitStsBound 3) ≠ 0 ∧ s.isUp 3 = true ∧ s.flag (F.nitStsRun 3) = true) ∧
    (up.fget (F.nitStsBound 3) = 0 ∧ up.flag (F.nitStsRun 3) = false ∧ up.bound 1023 = false ∧ up.timedOut 1023 = false) ∧
    (let s := having { up with lands := [(1023, { k := 64 })] } [(F.nitCh0Bound 1023, 1)];
      s.bound 1023 = true ∧ s.timedOut 1023 = true ∧ s.flag (F.nitCh0Attempt 1023) = false ∧
      (having s [(F.nitCh0Attempt 1023, 1)]).timedOut 1023 = true ∧
      (having s [(F.nitCh0Attempt 1023, 1)]).flag (F.nitCh0Attempt 1023) = true) ∧
    (bitAt (up.retired 3) 63 = false ∧ bitAt ((up.wr (Reg.nitLane1 3) 0x80000000).retired 3) 63 = true ∧
      bitAt (up.testing 3) 63 = false ∧ bitAt ((up.wr (Reg.nitLaneTest1 3) 0x80000000).testing 3) 63 = true) ∧
    (let s := having { up with lands := [(1023, { grid0 := 127, k := 2 })] } [(F.nitCh0Bound 1023, 1)];
      s.bound (256 * 3 + 255) = true ∧ 255 < 256 ∧
      (let u := s.tailSample 3 (256 * 3 + 255) 0 0;
        u.bound 1023 = true ∧ bitsOf 0x3FFF 14 2 = 0 ∧ (0 + 128 - (u.land 1023).grid0) % 128 < (u.land 1023).k ∧
        (u.land 1023).k ≤ (1 + 128 - (u.land 1023).grid0) % 128) ∧
      (s.tailSample 3 (256 * 3 + 255) 0 1).bound 1023 = true ∧ bitsOf 0x4000 14 2 ≠ 0 ∧
      (up.tailSample 3 (256 * 3 + 255) 0 1).bound 1023 = false) ∧
    (up.reaches (Reg.nitLaneTest0 3) = true ∧ State.reset.reaches (Reg.nitLaneTest0 3) = false ∧
      up.reaches (Reg.nitCellCmd 3) = true ∧ State.reset.reaches (Reg.nitCellCmd 3) = false) ∧
    (let s := having up [(F.nitCellCmdGoBusy 3, 1)]; s.flag (F.nitCellCmdGoBusy 3) = true) ∧
    (let t := up.store (Reg.nitCellCmd 3) 0x8001FFFF;
      up.flag (F.nitCellCmdGoBusy 3) = false ∧ bitAt 0x8001FFFF 31 = true ∧ bitsOf 0x8001FFFF 16 2 = 1 ∧
      t.flag (F.nitCtlEn 3) = false ∧ bitsOf 0x8000FFFF 16 2 = 0 ∧ bitAt 0x0001FFFF 31 = false) ∧
    (let t := (having up [(F.nitCtlEn 3, 1)]).store (Reg.nitCellCmd 3) 0x8003FFFF;
      t.flag (F.nitCtlEn 3) = true ∧ 2 ≤ bitsOf 0x8003FFFF 16 2 ∧ bitsOf 0x8001FFFF 16 2 = 1 ∧
      t.fget (Cell.state 3 65535) ≠ cellParked) ∧
    (let t := having up [(F.nitCtlEn 3, 1), (Cell.state 3 65535, cellParked)];
      t.fget (Cell.state 3 65535) = cellParked ∧ t.targeted 3 65535 = false ∧
      (having t [(Cell.target 3 65535 0, 1)]).targeted 3 65535 = true ∧
      (having t [(Cell.target 3 65535 0, 1)]).fget (Cell.state 3 65535) = cellParked) := by
  refine ⟨?_, ?_, ?_, ?_, ?_, ?_, ?_, ?_, ?_, ?_⟩ <;> decide +kernel

theorem witness_CommitsAndReacquisitionRunInASlice :
    (let s := { having up [(F.nitCtlEn 3, 1)] with
        fab := { running := [{ id := 7, tc := 1200, owe := 8 }] }, nits := [(3, { started := true })] };
      s.fab.running.find? (fun c => c.id == 7 && bitAt c.owe 3) = some { id := 7, tc := 1200, owe := 8 } ∧
      (∀ y ∈ (s.nit 3).commits, y.id ≠ 7) ∧ s.open' 3 9 = true ∧ s.folNow 3 + 1200 ≤ 1200 ∧ (s.nit 3).started = true) ∧
    (up.fab.running.find? (fun c => c.id == 7 && bitAt c.owe 3) = none ∧ (up.nit 3).commits.find? (fun c => c.id == 7) = none ∧
      (up.nit 3).started = false ∧ up.qReady 3 9 = true ∧ (up.nit 3).want = false ∧ up.flag (F.nitStsReacq 3) = false ∧
      up.flag (F.nitStsRun 3) = false) ∧
    (let s := { up with nits := [(3, { commits := [{ id := 7 }] })] };
      (s.nit 3).commits.find? (fun c => c.id == 7) = some { id := 7 }) ∧
    (let s := { having (grafa 3 linkUp) [(F.nitCtlEn 3, 1)] with nits := [(3, { want := true, started := true })] };
      (s.nit 3).want = true ∧ (s.nit 3).started = true ∧ s.isUp 3 = true ∧ s.flag (F.nitCtlEn 3) = true ∧
      s.flag (F.nitStsReacq 3) = false ∧ (s.nit 3).held = false) ∧
    (let s := { having (grafa 3 linkUp) [(F.nitStsReacq 3, 1)] with nits := [(3, { todo := [63] })] };
      s.flag (F.nitStsReacq 3) = true ∧ s.isUp 3 = true ∧ ((s.countMissing 3).nit 3).todo = [63]) ∧
    (let s := { having (grafa 3 linkUp) [(F.nitStsReacq 3, 1)] with nits := [(3, { pass := 2 })] };
      s.flag (F.nitStsReacq 3) = true ∧ s.isUp 3 = true ∧ ((s.countMissing 3).nit 3).todo = [] ∧
      ((s.countMissing 3).nit 3).pass < 3 ∧ (s.countMissing 3).lacking 3 = List.range 64 ∧ s.lacking 3 ≠ []) ∧
    (let s := { having up [(F.nitStsReacq 3, 1)] with nits := [(3, { pass := 3 })] };
      s.flag (F.nitStsReacq 3) = true ∧ (s.nit 3).todo = [] ∧ s.lacking 3 ≠ [] ∧ (s.nit 3).pass = 3) ∧
    (let s := { having (grafa 3 linkUp) [(F.nitStsReacq 3, 1)] with nits := [(3, { pass := 3 })] };
      s.isUp 3 = true ∧ ((s.countMissing 3).nit 3).todo = [] ∧ 3 ≤ ((s.countMissing 3).nit 3).pass ∧ (s.nit 3).pass = 3 ∧
      (s.nit 3).todo = []) ∧
    (let all : Table Nat := (List.range 64).map (fun p => (p, 2 ^ 37 - 1));
      let s := { having up [(F.nitStsReacq 3, 1)] with nits := [(3, { gotSns := all, gotLat := all })] };
      s.flag (F.nitStsReacq 3) = true ∧ (s.nit 3).todo = [] ∧ s.lacking 3 = [] ∧ (s.link 3).fresh = false ∧
        ({ s with links := [(3, { fresh := true })] } : State).lacking 3 = []) ∧
    (let s := having up [(F.nitStsRun 3, 1)];
      s.flag (F.nitStsRun 3) = true ∧ s.reaches (Reg.nitCtl 3) = true ∧ State.reset.reaches (Reg.nitCtl 3) = false) ∧
    (bitAt 9 3 = true ∧ bitAt 1 3 = false ∧ bitAt 9 0 = true ∧ up.flag (F.nitCtlEn 3) = false ∧
      (having up [(F.nitStsReacqFail 3, 1)]).flag (F.nitStsReacqFail 3) = true ∧
      (having up [(F.nitCtlEn 3, 1)]).flag (F.nitCtlEn 3) = true) := by
  refine ⟨?_, ?_, ?_, ?_, ?_, ?_, ?_, ?_, ?_, ?_, ?_⟩ <;> decide +kernel

/-- The collector with FAB_CTL.EN and FVALID set and the given soft state. -/
def fabric (x : Fab) : State := { having up [(F.fabCtlEn, 1), (F.fabStsFvalid, 1)] with fab := x }

theorem slotCrc_good : ((up.wr (mapBase 255) 0x00010001).wr (mapBase 255 + 0x440) 2685140664).slotCrc 255 = true := by
  simp only [State.slotCrc, crc32c, crcReflected_eager]
  decide +kernel

/-- Slot 255 of the map memory holds a good image, and a commit of it is staged. -/
def slotted : State :=
  { (up.wr (mapBase 255) 0x00010001).wr (mapBase 255 + 0x440) 2685140664 with fab := { staged := [{ map := 255 }] } }

theorem witness_CommitsRunThroughTheCollector :
    (slotted.slotCrc 255 = true ∧ slotted.fabWorks = true ∧ slotted.slotReadable 255 = true ∧
      slotted.fab.staged.find? (fun c => !c.resolved) = some { map := 255 }) ∧
    (bitAt 0x80000000 31 = true ∧ up.flag F.fabCtlEn = false ∧ up.flag F.fabStsLoading = false ∧ up.flag F.fabStsFvalid = false ∧
      up.fabWorks = true ∧ State.reset.fabWorks = false) ∧
    (let s := having up [(F.fabStsLoading, 1)]; s.fabWorks = true ∧ s.flag F.fabStsLoading = true) ∧
    (let e : RingEntry := { pos := 9, kind := 3, words := [0, 0] }; let s := { fabric {} with rings := [(2304, { entries := [e] })] };
      s.fabEntry 2304 9 0 = some e ∧ s.fabEntry 2304 8 0 = none ∧ s.fabEntry 2304 9 1 = none) ∧
    (let e : RingEntry := { pos := 9, kind := 3, words := [0, 0x50001] }
      let s := { fabric { staged := [{ src := 1, ring := 2304, tag := 5 }] } with rings := [(2304, { entries := [e] })] };
      s.fabEntry 2304 9 1 = some e ∧
      s.fab.staged.find? (fun c => c.src == 1 && c.ring == 2304 && c.tag == bitsOf (e.words.getD 1 0) 16 16)
        = some { src := 1, ring := 2304, tag := 5 }) ∧
    (let c : Commit := { wait := true }; let s := fabric { staged := [c] };
      s.fabWorks = true ∧ s.fab.staged.find? (fun c => !c.resolved) = some c ∧ c.wait = true ∧ c.armed = false ∧
      s.fab.staged.find? (fun c => c.wait && !c.armed) = some c) ∧
    (let c : Commit := { spec := some [(511, 3)] }; let s := fabric { staged := [c] };
      s.fab.staged.find? (fun c => !c.resolved) = some c ∧ c.wait = false ∧ c.spec = some [(511, 3)] ∧
      s.fab.staged.find? (fun c => c.wait && !c.armed) = none) ∧
    (let c : Commit := { resolved := true }; let s := fabric { staged := [c], running := [{ executed := false }] };
      s.fab.staged = [c] ∧ c.resolved = true ∧ s.flag F.qchStsFatal = false ∧
      s.fab.staged.find? (fun c => !c.resolved) = none ∧ s.fab.running.find? (fun c => !c.executed) = some {}) ∧
    ((fabric {}).fab.staged = [] ∧ (fabric {}).flag F.scbStsPend = false ∧
      (having (fabric {}) [(F.scbStsPend, 1)]).flag F.scbStsPend = true) ∧
    (let s := fabric { running := [{ src := 0, tc := 5000 }] };
      s.flag F.fabCtlEn = true ∧ (∃ x ∈ s.fab.staged ++ s.fab.running, x.src ≠ 2 ∧ 5000 ≤ x.tc) ∧
      s.acceptCode { tc := 7000 } false false = 0) ∧
    (let n : NitCommit := { id := 7 }; let s := { up with nits := [(3, { commits := [n, { id := 8, open' := 1 }] })] };
      (s.nit 3).commits.find? (fun c => c.id == 7) = some n ∧ n.open' = 0 ∧ s.iso 3 = false ∧
      (s.nit 3).commits.find? (fun c => c.id == 8) = some { id := 8, open' := 1 }) ∧
    (let s := fabric { running := [{ id := 7 }], blanks := [(1023, 8), (1023, 9)] };
      (∃ c ∈ s.fab.running, c.id = 7) ∧ (∀ c ∈ s.fab.running, c.id ≠ 8)) ∧
    (let s := { fabric {} with injected := [(mapBase 255 + 0x440, 3), (0x888004, 2)] };
      s.fabWorks = true ∧ s.slotReadable 255 = false ∧ s.fGood (fun _ => true) = false ∧
      (fabric {}).fGood (fun _ => true) = true) ∧
    ((fabric {}).flag F.fabStsFvalid = true ∧ bitAt 1 0 = true ∧ (fabric {}).flag F.fabCtlEn = true ∧
      (having (fabric {}) [(F.qchStsFatal, 1)]).flag F.qchStsFatal = true) := by
  refine ⟨⟨slotCrc_good, by decide +kernel⟩, ?_, ?_, ?_, ?_, ?_, ?_, ?_, ?_, ?_, ?_, ?_, ?_, ?_⟩ <;> decide +kernel

/-- Entry `i` of the policy table protects column 5 by row 140, in state `n`. -/
def guarding (i n : Nat) : State :=
  having (fabric {}) [(F.polCtlEn, 1), (Pol.en i, 1), (Pol.nmove i, 1), (Pol.col i 0, 5), (Pol.row i 0, 140), (Pol.state i, n)]

theorem witness_PolicyEntriesSwitchAndRestore :
    (let s := guarding 511 0;
      s.flag F.polCtlEn = true ∧ s.polActs 511 = true ∧ 511 ∉ ([] : List Nat) ∧ s.fget (Pol.state 511) = 0 ∧
      s.flag F.fabCtlEn = true ∧ s.flag F.fabStsFvalid = true ∧
      (let y := s.examine [] (((s.polMoves 511).filter (fun m => s.fmap m.2.1 != m.2.2)).map (·.2.1)) (s.polMoves 511);
        y.1 = 0 ∧ y.2 ≠ []) ∧
      (s.examine [5] (((s.polMoves 511).filter (fun m => s.fmap m.2.1 != m.2.2)).map (·.2.1)) (s.polMoves 511)).1 = 2 ∧
      s.fabWorks = true ∧ s.flag F.qchStsFatal = false) ∧
    (let s := (guarding 511 0).wr 0x88800C 0x008C0200;
      (s.examine [] [] (s.polMoves 511)).1 = 1) ∧
    (let s := (guarding 511 0).wr 0x888008 0x008C0200;
      s.examine [] (((s.polMoves 511).filter (fun m => s.fmap m.2.1 != m.2.2)).map (·.2.1)) (s.polMoves 511) = (0, [])) ∧
    ((guarding 0 1).fget (Pol.state 0) = 1 ∧ (guarding 0 2).fget (Pol.state 0) = 2 ∧ (guarding 0 2).polActs 0 = true) ∧
    (up.flag F.polCtlEn = false ∧ (having up [(F.fabCtlEn, 0)]).flag F.fabCtlEn = false) ∧
    ((({ guarding 511 0 with fab := { decl := [] } } : State).fab.decl.foldl (State.takeDecl []) ({}, guarding 511 0)).1.switched = []) ∧
    ((State.takeDecl [] ({}, guarding 511 0) (511, 0)).1.switched ≠ []) ∧
    (guarding 511 0 = (guarding 511 0).polRead 511 ∧ (guarding 511 0).polGood 511 = true ∧ (guarding 511 0).slots = none ∧
      (let s := { guarding 511 0 with injected := [(polAddr 511, 3)] };
        (s.polRead 511).polGood 511 = false ∧ (s.polRead 511).polActs 511 = true ∧ (s.polRead 511).flag F.polCtlEn = true)) ∧
    (let s := { guarding 511 0 with slots := some [] }; s.slots.isSome = true ∧ s.fabWorks = true ∧ s.fGood (fun _ => true) = true) ∧
    (let s := { guarding 511 2 with injected := [(polAddr 511, 3)] };
      s.polGood 511 = false ∧ s.fGood (fun _ => true) = true ∧ s.fget (Pol.state 511) = 2) ∧
    (let s := { guarding 511 2 with injected := [(0x888004, 2)] }; s.fGood (fun _ => true) = false ∧ s.fget (Pol.state 511) = 2) ∧
    (let s := { guarding 511 2 with fab := { staged := [{ src := 3, tag := 511 }] } };
      ∃ c ∈ s.fab.staged ++ s.fab.running, c.src = 3 ∧ c.tag = 511) ∧
    ((having (guarding 511 2) [(F.qchStsFatal, 1)]).flag F.qchStsFatal = true ∧ (guarding 511 0).fget (Pol.state 511) ≠ 2) ∧
    (let s := guarding 511 2;
      s.fabWorks = true ∧ s.flag F.qchStsFatal = false ∧ s.fget (Pol.state 511) = 2 ∧
      ∀ c ∈ s.fab.staged ++ s.fab.running, ¬(c.src = 3 ∧ c.tag = 511)) ∧
    State.reset.fabWorks = false := by decide +kernel

theorem witness_AnnealFindsDueZonesAndStepsGroups :
    (State.reset.ready 50 = false ∧ up.ready 50 = true ∧ up.unitHeld 7 = false ∧ up.fget F.anlCfgMaxAge = 0 ∧
      up.flag F.anlCtlEn = false) ∧
    (let s := having up [(F.anlCfgMaxAge, 1), (F.anlCtlEn, 1)]; s.fget F.anlCfgMaxAge ≠ 0 ∧ s.flag F.anlCtlEn = true) ∧
    (let s := { having (grafa 3 linkUp) [(F.anlCtlEn, 1), (F.mtxCtlSeqRun, 1), (F.anlQ0Pass 3, 1)] with
        anl := [(3, { todo := [63], check := false })] };
      s.ready 50 = true ∧ s.nextWalk 3 = s ∧ s.nextGroup 3 = some 63 ∧ s.flag (F.anlQ0Pass 3) = true ∧ (s.anlOf 3).stage = 0 ∧
      s.mayStep 3 63 = true ∧ s.steppable (s.anlOf 3).todo ≠ []) ∧
    (let g := having (grafa 3 linkUp) [(F.anlCtlEn, 1), (F.mtxCtlSeqRun, 1), (F.anlQ0Pass 3, 1)];
      let s := { g with counter := (1000 + 1000000 * g.fget F.anlCfgStepGap) * nsUnit,
                        anl := [(3, { todo := [63], lastStart := some 1000, check := false })] };
      (s.anlOf 3).lastStart = some 1000 ∧ s.mayStep 3 63 = true) ∧
    (up.nextWalk 3).nextGroup 3 = none ∧ up.steppable (up.anlOf 3).todo = [] ∧ ((up.anlOf 3).stage = 0 ∧ (up.anlOf 3).load = [] ∧ (up.anlOf 3).uncal = [] ∧
      ({ up with anl := [(3, { todo := [63] })] } : State).mayStep 3 63 = false) ∧
    (let s := { having (grafa 3 linkUp) [(F.anlCtlEn, 1), (F.anlQ0Push 3, 1)] with anl := [(3, { load := [63], check := false })] };
      (s.anlOf 3).load = [63] ∧ s.flag (F.anlQ0Push 3) = true ∧ s.isUp 3 = true ∧ s.flag F.anlCtlEn = true ∧ s.iso 3 = false ∧
      (s.anlOf 3).check = false ∧ (s.anlOf 3).phase = 0 ∧ s.readsBack 3 63 = false ∧ s.flag (F.grfStsAsmHold 3) = false ∧
      (having s [(F.grfStsTrimValid 3, 1)]).readsBack 3 63 = true ∧
      (having s [(F.anlGroupHostw 3 63, 1)]).hasSource 3 63 = true ∧
      (having s [(F.anlGroupHostw 3 63, 1)]).readsBack 3 63 = false) ∧
    (let s := { up with anl := [(3, { uncal := [(63, 31)] })] }; (s.anlOf 3).uncal = [(63, 31)] ∧ s.open' 3 9 = true) ∧
    (((up.fput (F.anlZone0Temp 15) 9).fset (F.anlZone0Valid 15) true).flag F.anlCtlEn = false) ∧
    (let s := { having (grafa 3 linkUp) [(F.anlCtlEn, 1), (F.anlQ0Push 3, 1), (F.anlGroupHostw 3 63, 1)] with
        anl := [(3, { load := [63], check := false, phase := 2 })] };
      (s.anlOf 3).phase = 2 ∧ s.flag (F.grfStsAsmHold 3) = false ∧ s.hasSource 3 63 = true ∧
      s.wordsReadable (Reg.anlTrim 3 63 0) 32 = true ∧ up.hasSource 3 63 = false ∧
      (having s [(F.grfStsAsmHold 3, 1)]).flag (F.grfStsAsmHold 3) = true ∧ up.flag (F.anlQ0Push 3) = false ∧
      ({ s with injected := [(Reg.anlTrim 3 63 31, 2)] } : State).wordsReadable (Reg.anlTrim 3 63 0) 32 = false ∧
      ({ s with anl := [(3, { load := [63], phase := 4 })] } : State).anlOf 3 = { load := [63], phase := 4 }) ∧
    (State.reset.reaches Reg.anlCtl = false ∧ up.reaches Reg.anlCtl = true ∧ bitAt 1 0 = true) ∧
    (let s := { having up [(F.anlQ0Due 3, 1), (F.anlCtlEn, 1)] with anl := [(3, { started := true })] };
      (s.anlOf 3).started = true ∧ s.flag (F.anlQ0Due 3) = true ∧ s.flag (F.anlQ0Pass 3) = false ∧ s.flag F.anlCtlEn = true ∧ s.flag (F.anlQ0Push 3) = false ∧
      s.zonesValid 3 = false) ∧
    (let s := { having up ([(F.anlQ0Due 3, 1), (F.anlCtlEn, 1)] ++ (zonesOf 3).map (fun z => (F.anlZone0Valid z, 1))) with
        anl := [(3, { started := true })] };
      s.zonesValid 3 = true ∧ (s.anlOf 3).started = true ∧ s.flag (F.anlQ0Due 3) = true ∧ s.flag (F.anlQ0Pass 3) = false ∧
      s.flag F.anlCtlEn = true ∧ s.flag (F.anlQ0Push 3) = false) := by
  refine ⟨?_, ?_, ?_, ?_, ?_, ?_, ?_, ?_, ?_, ?_⟩ <;> decide +kernel

theorem modeCrc_wr {a x : Nat} (h : x < a) (s : State) (v : Nat) : (s.wr x v).modeCrc a = s.modeCrc a := by
  have hw : ∀ b n, a ≤ b → (s.wr x v).words b n = s.words b n :=
    fun b n hb => List.map_congr_left fun i _ => State.rd_wr_ne (by omega) s v
  simp only [State.modeCrc, hw a _ (Nat.le_refl a), hw (a + 0x40) _ (Nat.le_add_right a _),
    State.rd_wr_ne (show a + 0x3C ≠ x by omega)]

theorem modeCrc_store {a x : Nat} (h : x < a) (s : State) (v : Nat) : (s.store x v).modeCrc a = s.modeCrc a := by
  unfold State.store
  split
  · exact modeCrc_wr h s _
  · rfl

/-- Mode 7 of channel 3 holds two static slots in a 10 000-tick cycle, slot 0 exclusive to spoke 0, and its CRC-32C. -/
def moded : State :=
  let a := modeBase 3 7
  [(a, 1), (a + 4, 10000), (a + 8, 0x102), (a + 12, 1000), (a + 20, 10), (a + 0x200, 1), (a + 0x3C, 3908155415)].foldl
    (fun t x => t.wr x.1 x.2) State.reset

theorem modeCrc_moded : moded.modeCrc (modeBase 3 7) = true := by
  simp only [State.modeCrc, crc32c, crcReflected_eager]
  decide +kernel

/-- The channel of `moded` in NORMAL with MODE_INIT = 7. -/
def enabling : State := (moded.fput (F.cbsStsState 3) cbNormal).store (Reg.cbsCtl 3) 0xE1

theorem checkMode_enabling : enabling.checkMode 3 7 = 0 := by
  have h : enabling.modeCrc (modeBase 3 7) = true := by
    rw [enabling, modeCrc_store (by decide), State.fput, modeCrc_wr (by decide), modeCrc_moded]
  simp only [State.checkMode, h]
  decide +kernel

theorem checkMode_version {s : State} {c m : Nat} (h : (bitsOf (s.rd (modeBase c m)) 0 16 != 1) = true) :
    s.checkMode c m ≠ 0 := by
  simp only [State.checkMode, h]
  cases (s.modeSpoilt (modeBase c m)).all s.readable <;> cases s.modeCrc (modeBase c m) <;> simp

/-- Channel 3 in state `n`, spokes 4 and 15 enabled. -/
def cabinet (n : Nat) (x : Chan) : State :=
  { (having up [(F.cbsStsState 3, n)]).wr (Reg.cbsSpokeEn 3) 0x8010 with chans := [(3, x)] }

theorem checkMode_empty :
    (up.store (Reg.cbsCtl 3) 1).checkMode 3 ((up.store (Reg.cbsCtl 3) 1).fget (F.cbsCtlModeInit 3)) ≠ 0 ∧
    (cabinet cbPassive {}).checkMode 3 6 ≠ 0 :=
  ⟨checkMode_version (by decide +kernel), checkMode_version (by decide +kernel)⟩

theorem witness_CabinetChannelsRunTheirStates :
    ((moded.fput (F.cbsStsState 3) cbNormal).flag (F.cbsCtlEn 3) = false ∧ enabling.flag (F.cbsCtlEn 3) = true ∧
      enabling.fget (F.cbsCtlModeInit 3) = 7 ∧ enabling.checkMode 3 7 = 0) ∧
    (up.reaches (Reg.cbsCtl 3) = true ∧ State.reset.reaches (Reg.cbsCtl 3) = false ∧ up.flag F.qchStsFatal = false ∧
      (having up [(F.qchStsFatal, 1)]).flag F.qchStsFatal = true ∧ up.reaches (Reg.cbsModeReq 3) = true ∧
      State.reset.reaches (Reg.cbsModeReq 3) = false ∧ up.reaches (Reg.cbsSpk0 3 15) = true ∧
      (having up [(F.cbsSpk1State 3 15, 1)]).spokeShut 3 15 = true ∧ up.spokeShut 3 15 = false) ∧
    ((up.store (Reg.cbsCtl 3) 1).flag (F.cbsCtlEn 3) = true ∧ up.flag (F.cbsCtlEn 3) = false) ∧
    ((having up [(F.cbsCtlEn 3, 1)]).flag (F.cbsCtlEn 3) = true ∧
      ((having up [(F.cbsCtlEn 3, 1)]).store (Reg.cbsCtl 3) 0).flag (F.cbsCtlEn 3) = false) ∧
    (bitAt 0x80000007 31 = true ∧ bitsOf 0x80000007 0 3 = 7 ∧ enabling.flag (F.cbsModeStsPend 3) = false ∧
      enabling.cbState 3 = cbNormal ∧ 7 ≠ enabling.fget (F.cbsStsMode 3)) ∧
    ((cabinet cbPassive {}).cbState 3 = cbPassive ∧ (cabinet cbPassive {}).flag (F.cbsModeStsPend 3) = false ∧
      6 ≠ (cabinet cbPassive {}).fget (F.cbsStsMode 3)) ∧
    (up.cbState 3 = cbOff ∧ ¬(up.cbState 3 = cbNormal ∨ up.cbState 3 = cbPassive)) ∧
    (State.reset.ready 51 = false ∧ up.ready 51 = true ∧ up.unitHeld 8 = false ∧ up.strikesOn 3 = false) ∧
    ((cabinet cbHalt {}).cbState 3 ≠ cbOff ∧ (cabinet cbHalt {}).ready 51 = true ∧ cbPassive < (cabinet cbHalt {}).cbState 3 ∧
      (cabinet cbHalt {}).flag (F.cbsCtlAutoRestart 3) = true ∧
      (having (cabinet cbHalt {}) [(F.cbsCtlAutoRestart 3, 0)]).flag (F.cbsCtlAutoRestart 3) = false) ∧
    (let s := having (cabinet cbColdstart {}) [(F.cbsStsCycle 3, 3)];
      s.cbState 3 = cbColdstart ∧ ((((s.guardClose' 3).reintegrate 3).fget (F.cbsStsCycle 3)) + 1) % 64 = 4) ∧
    (let s := having (cabinet cbIntegrate { goodRun := 2 }) [(F.cbsStsCycle 3, 7)];
      s.cbState 3 = cbIntegrate ∧ s.strikesOn 3 = true ∧ ((((s.guardClose' 3).reintegrate 3).fget (F.cbsStsCycle 3)) + 1) % 64 = 8 ∧
      2 ≤ (((s.guardClose' 3).reintegrate 3).chan 3).goodRun) ∧
    (let s := having (cabinet cbIntegrate { goodRun := 1 }) [(F.cbsStsCycle 3, 7)];
      (((s.guardClose' 3).reintegrate 3).chan 3).goodRun < 2) ∧
    (let s := cabinet cbPassive {};
      cbColdstart ≤ s.cbState 3 ∧ s.cbState 3 ≤ cbPassive ∧
      (((s.guardClose' 3).fput (F.cbsStsSyncN 3) 0).flag (F.cbsCtlNtEn 3) = false) ∧
      (((s.guardClose' 3).fput (F.cbsStsSyncN 3) 0).fget (F.cbsStsCycle 3) % 2 = 0)) ∧
    (let s := having (cabinet cbNormal {}) [(F.cbsStsCycle 3, 63), (F.cbsCtlNtEn 3, 1)];
      ((s.guardClose' 3).fput (F.cbsStsSyncN 3) 0).fget (F.cbsStsCycle 3) % 2 = 1 ∧
      ((s.guardClose' 3).fput (F.cbsStsSyncN 3) 0).flag (F.cbsCtlNtEn 3) = true) ∧
    (let s := having (cabinet cbListen { first := true, lead := true }) [(F.cbsCtlCsEn 3, 1)];
      s.cbState 3 = cbListen ∧ s.flag (F.cbsCtlCsEn 3) = true ∧ s.relaying 3 = false ∧ (s.chan 3).first = true) ∧
    ((having up [(F.cbsCtlCsEn 3, 0)]).flag (F.cbsCtlCsEn 3) = false ∧ (cabinet cbListen { txs := [{ spoke := 4 }] }).relaying 3 = true) ∧
    (let s := having (cabinet cbNormal { left := 1 }) [(F.cbsModeStsPend 3, 1)];
      s.flag (F.cbsModeStsPend 3) = true ∧ (s.chan 3).left ≤ 1) ∧
    ((cabinet cbNormal {}).spokeOn 3 15 = true ∧ (cabinet cbNormal {}).spokeOn 3 14 = false) := by
  refine ⟨by rw [checkMode_enabling]; decide +kernel, ?_, ?_, ?_, ?_, ?_, ?_, ?_, ?_, ?_, ?_, ?_, ?_, ?_, ?_, ?_, ?_, ?_⟩ <;> decide +kernel

theorem witness_TheGuardianAndTheFramesOfACycle :
    (State.reset.ready 51 = false ∧ up.ready 51 = true ∧ up.unitHeld 8 = false) ∧
    (let u := (cabinet cbNormal {}).guardClose' 3; let x := u.chan 3;
      (Nat.ble 64 63 && !u.mdMatrix (u.cbMode 3)) = false ∧ (Nat.ble 64 64 && !u.mdMatrix (u.cbMode 3)) = true ∧
      65 - 64 ≠ x.msNext ∧ u.winBad 3 63 = false) ∧
    (let u := ((cabinet cbNormal {}).wr (modeBase 3 0 + 0x10) 0x00010001).guardClose' 3; let x := u.chan 3;
      64 - 64 = x.msNext ∧ x.msAt < u.dynEnd (u.cbMode 3)) ∧
    ((up.chan 3).win = 0 ∧ (cabinet cbNormal { win := 64 }).mdMatrix ((cabinet cbNormal { win := 64 }).cbMode 3) = false ∧
      ((cabinet cbNormal { win := 64 }).chan 3).win ≠ 0 ∧ ((cabinet cbNormal { win := 64 }).chan 3).win - 1 < 64 ∧
      64 ≤ ((cabinet cbNormal { win := 65 }).chan 3).win - 1) ∧
    (let s := cabinet cbNormal { txs := [{ spoke := 4 }] };
      s.spokeOn 3 4 = true ∧ s.spokeOn 3 14 = false ∧ s.cbState 3 ≠ cbOff ∧ (∃ x ∈ (s.chan 3).txs, x.spoke = 4) ∧
      (∀ x ∈ (s.chan 3).txs, x.spoke ≠ 15) ∧ 15 ≠ 0 ∧ s.spokeOn 3 15 = true) ∧
    (let s := cabinet cbHalt {}; let u := s.setChan 3 { s.chan 3 with noisy := [15], sent := false || 0 == 15 };
      u.cbState 3 = cbHalt) ∧
    (let s := having (cabinet cbIntegrate {}) [(F.cbsSpk1State 3 15, 1)]; let u := s.setChan 3 { s.chan 3 with noisy := [15] };
      u.spokeShut 3 15 = true ∧ cbIntegrate ≤ u.cbState 3) ∧
    (let s := having (cabinet cbListen {}) [(F.cbsSpk0Cs 3 15, 1)]; let u := s.setChan 3 { s.chan 3 with noisy := [15] };
      u.cbState 3 = cbListen ∧ u.mayLead 3 15 true = true ∧ u.relaying 3 = false ∧ u.mayLead 3 15 false = false) ∧
    (cabinet cbListen { txs := [{ spoke := 4 }] }).relaying 3 = true ∧
    (let s := having (cabinet cbColdstart { leadAt := 9, leadTick := some 0 }) [(F.cbsSpk0Cs 3 4, 1), (F.cbsStsLeader 3, 15)];
      s.cbState 3 ≠ cbListen ∧ s.tiesLead 3 9 = true ∧ s.mayLead 3 4 true = true ∧ 4 < s.fget (F.cbsStsLeader 3) ∧
      s.mayLead 3 4 false = false ∧ s.tiesLead 3 8 = false ∧ s.cbState 3 = cbColdstart ∧ s.windowKind 3 15 8 = 3 ∧
      s.spokeShut 3 15 = false ∧ s.fget (F.cbsStsLeader 3) ≤ 15) ∧
    (let s := cabinet cbColdstart { win := 64, open' := [15] };
      s.cbState 3 = cbColdstart ∧ s.tiesLead 3 9 = false ∧ s.windowKind 3 15 9 = 0 ∧ s.spokeShut 3 15 = false) ∧
    (let s := cabinet cbIntegrate {}; let u := s.setChan 3 { s.chan 3 with noisy := [15] };
      u.spokeShut 3 15 = false ∧ cbIntegrate ≤ u.cbState 3 ∧ u.cbState 3 ≤ cbPassive ∧ u.windowKind 3 15 9 = 3) ∧
    (let s := cabinet cbPassive { win := 64, open' := [15] };
      s.cbState 3 ≤ cbPassive ∧ s.windowKind 3 15 9 = 0 ∧ (s.chan 3).winner = 0) ∧
    (let s := cabinet cbPassive { win := 64, open' := [15], winner := 16 };
      s.windowKind 3 15 9 = 0 ∧ (s.chan 3).winner = 15 + 1) ∧
    (let s := ((cabinet cbNormal { win := 1, open' := [4, 15], winner := 16 }).wr (modeBase 3 0 + 8) 2).wr
        (modeBase 3 0 + 0x200) 2;
      s.cbState 3 = cbNormal ∧ s.windowKind 3 4 0 = 0 ∧ (s.chan 3).winner ≠ 0 ∧ (s.chan 3).winner ≠ 4 + 1) ∧
    (let s := ((cabinet cbNormal { win := 1, open' := [15], winner := 5 }).wr (modeBase 3 0 + 8) 2).wr (modeBase 3 0 + 0x200) 2;
      s.cbState 3 = cbNormal ∧ s.windowKind 3 15 0 = 1) ∧
    (let l : List SpokeTx := [{ spoke := 4, kind := 1 }, { spoke := 5, kind := 3 }]; let s := cabinet cbNormal { txs := l };
      (s.chan 3).txs.find? (fun x => x.spoke == 4) = some { spoke := 4, kind := 1 } ∧
      (s.chan 3).txs.find? (fun x => x.spoke == 5) = some { spoke := 5, kind := 3 } ∧ s.spokeOn 3 4 = true ∧
      s.spokeOn 3 5 = false ∧ s.cbState 3 ≠ cbOff) ∧
    (let x : SpokeTx := { spoke := 4, win := 1 }; let s := cabinet cbNormal { txs := [x] };
      let g := [4, 0, 0, 0, 0, 0, 135, 193, 252];
      (s.chan 3).txs.find? (fun x => x.spoke == 4) = some x ∧ x.kind = 0 ∧ 0 < x.win ∧ x.win < 65 ∧ s.spokeOn 3 4 = true ∧
      cbWhole (g ++ [cbEof]) = true ∧ (g ++ [cbEof]).dropLast = g ∧ cbWellFormed 4 g = true ∧ s.cbMatches 3 4 x g = true ∧
      cbWhole g = false) ∧
    (∀ x ∈ [({ spoke := 15 } : SpokeTx), { spoke := 15, win := 65 }, { spoke := 15, kind := 3 }],
      let s := cabinet cbColdstart { txs := [x] };
      (s.chan 3).txs.find? (fun x => x.spoke == 15) = some x ∧ s.spokeOn 3 15 = true ∧ s.cbState 3 ≠ cbOff) ∧
    (let s := ((cabinet cbListen { lead := true }).wr (modeBase 3 0 + 8) 2).wr (modeBase 3 0 + 0x200) 0x41; let x := s.winCell 3 0;
      s.cbState 3 = cbListen ∧ (s.chan 3).lead = true ∧ (s.chan 3).first = false ∧ cellKind x = 1 ∧ cellOwner x = 0 ∧
      cellSync x = true ∧ s.fget (F.cbsStsLeader 3) = 0 ∧ s.winBad 3 0 = false) ∧
    (let s := ((cabinet cbColdstart {}).wr (modeBase 3 0 + 8) 2).wr (modeBase 3 0 + 0x200) 0x41; let x := s.winCell 3 0;
      s.cbState 3 = cbColdstart ∧ (s.chan 3).lead = false ∧ cellKind x = 1 ∧ cellOwner x = 0 ∧ cellSync x = true ∧
      s.fget (F.cbsStsLeader 3) = 0) ∧
    (let s := ((cabinet cbIntegrate {}).wr (modeBase 3 0 + 8) 2).wr (modeBase 3 0 + 0x200) 1; let x := s.winCell 3 0;
      s.cbState 3 = cbIntegrate ∧ cellKind x = 1 ∧ cellOwner x = 0 ∧ 0 < 64) ∧
    (let s := ((cabinet cbNormal {}).wr (modeBase 3 0 + 8) 2).wr (modeBase 3 0 + 0x200) 0x81; let x := s.winCell 3 0;
      s.cbState 3 = cbNormal ∧ cellKind x = 1 ∧ cellOwner x = 0 ∧ cellTrip x = true ∧ s.ownEntry 3 0 = none) ∧
    (let s := { ((cabinet cbNormal {}).wr (modeBase 3 0 + 8) 2).wr (modeBase 3 0 + 0x200) 1 with
        rings := [(2318, { entries := [{ kind := 4 }] })] };
      cellKind (s.winCell 3 0) = 1 ∧ cellTrip (s.winCell 3 0) = false ∧ s.ownEntry 3 0 = some { kind := 4 }) ∧
    [4, 0, 0, 0, 0, 0, 135, 193, 252, cbEof] = [4, 0, 0, 0, 0, 0] ++ [] ++ [135, 193, 252] ++ [cbEof] ∧
    (let s := having up [(F.ringStsRun 2318, 1)];
      2318 = 2312 + 2 * 3 ∧ s.ringWorks 2318 = true ∧ s.flag (F.ringStsRun 2318) = true ∧ State.reset.ringWorks 2318 = false ∧
      up.flag (F.ringStsRun 2318) = false) := by
  refine ⟨?_, ?_, ?_, ?_, ?_, ?_, ?_, ?_, ?_, ?_, ?_, ?_, ?_, ?_, ?_, ?_, ?_, ?_, ?_, ?_, ?_, ?_, ?_, ?_⟩ <;> decide +kernel

theorem witness_GoStartsAMoverChannel :
    (let s := up.wr (Reg.bmvLen 7) 1;
      s.reaches (Reg.bmvCtl 7) = true ∧ s.ready 47 = true ∧ bitAt 3 0 = true ∧ s.flag (F.bmvCtlGoBusy 7) = false ∧
      s.rd (Reg.bmvLen 7) ≠ 0) ∧
    (up.reaches (Reg.bmvCtl 0) = true ∧ up.flag (F.bmvCtlGoBusy 0) = false ∧ up.rd (Reg.bmvLen 0) = 0 ∧
      ∀ m, m < 8 → up.mayIssue m = false) ∧
    (bitAt 2 0 = false ∧ up.flag (F.bmvCtlEn 7) = false ∧ (having up [(F.bmvCtlEn 7, 1)]).flag (F.bmvCtlGoBusy 7) = false) ∧
    (let s := having up [(F.bmvCtlEn 7, 1), (F.bmvCtlGoBusy 7, 1)];
      s.flag (F.bmvCtlEn 7) = true ∧ s.flag (F.bmvCtlGoBusy 7) = true) := by decide +kernel

theorem witness_MatrixSealsEventsAndServicePort :
    (up.reaches (Reg.bmvCtl 7) = true ∧ State.reset.reaches (Reg.bmvCtl 7) = false ∧ up.reaches (Reg.sealCtl 255) = true ∧
      State.reset.reaches (Reg.sealCtl 255) = false ∧ up.reaches Reg.evrSoft = true ∧ State.reset.reaches Reg.evrSoft = false ∧
      up.reaches Reg.mtxCtl = true ∧ State.reset.reaches Reg.mtxCtl = false) ∧
    (let l : List Trip := [{ port := 9, unit := 1 }, { port := 2, unit := 3 }, { port := 8, unit := 1 }]; let s := { up with trips := l };
      s.trips = l ∧ nextTrip s.trips = some { port := 8, unit := 1 }) ∧
    (up.parkedOn 2 = none ∧ up.parkedOn 0 = some 0 ∧ (∀ x ∈ [0], x = 0) ∧ [0] ≠ [] ∧ (∃ x ∈ [0, 2], x ≠ 0)) ∧
    (let s := { up with movers := [(7, { src := bar0Base + 0x30000, reads := [(0, 64)] })] };
      let t := (s.setMover 7 { s.mover 7 with reads := [] }).outRd (-1);
      (s.mover 7).reads = [(0, 64)] ∧ t.placeOf ((s.mover 7).src + 0) = .bar0 0x30000) ∧
    (let b : Burst := { master := 3, write := true, addr := bar0Base + 0xA0000, words := [0] };
      b.master ≠ 7 ∧ requesterOf b.master = none ∧ burstOk b = true ∧
      up.grantee (servedAt 3 (up.targetOfAddr b.addr)) (3 :: b.requesters) = some 3 ∧ burstOk { b with words := [] } = false ∧
      up.grantee (servedAt 3 (up.targetOfAddr b.addr)) (3 :: [2]) ≠ some 3 ∧ engineMaster b.master = true ∧
      (∀ m ∈ [0, 2, 7, 8, 11], engineMaster m = (false : Bool)) ∧ requesterOf 11 = none ∧ requesterOf 8 = some .sequencer ∧
      (having up [(F.pwrDomState 50, 0)]).issues .sequencer = false) ∧
    (∀ m ∈ [0, 2, 3, 6, 7, 10], (up.fset (F.mtxOutRst m) true).flag (F.mtxOutRst m) = true) ∧
    (let s := { up with svc := [{ addr := 0x30010 }] }; up.svc = [] ∧ s.svc = [{ addr := 0x30010 }] ∧ 3 + s.svc.length = 4) ∧
    (up.issues .servicePort = true ∧ (having up [(F.mtxOutRst 2, 1)]).issues .servicePort = false ∧
      (having up [(F.mtxOutRst 2, 1)]).ready 0 = true) ∧
    (up.trips = [] ∧ up.pulses = [] ∧ Table.get 0 63 up.sealRun ≠ 1) ∧
    (let s := { up with trips := [{}], pulses := [23] }; s.trips = [{}] ∧ s.pulses = [23]) ∧
    (let s := having up [(F.bmvCtlEn 7, 1), (F.bmvCtlGoBusy 7, 1)]; let t := s.fset (F.bmvCtlEn 7) false;
      s.flag (F.bmvCtlEn 7) = true ∧ t.flag (F.bmvCtlGoBusy 7) = true ∧ (t.mover 7).fail = 0) ∧
    (let s := having up [(F.mtxCtlSeqRun, 0)];
      s.flag F.mtxCtlSeqRun = false ∧ s.ready 50 = true ∧ (s.store Reg.mtxCtl 1).flag F.mtxCtlSeqRun = true ∧
      (s.store Reg.mtxCtl 1).ready 50 = true) ∧
    (up.ready 47 = true ∧ (up.mover 7).reads = [] ∧ (up.mover 7).writes = []) ∧
    (let s := { up with movers := [(7, { src := 0xC000000000, dst := 0x1000, reads := [(0, 64)], writes := [(64, false)] })] };
      let t := (s.setMover 7 { s.mover 7 with reads := [] }).outRd (-1);
      (s.mover 7).reads = [(0, 64)] ∧ t.placeOf ((s.mover 7).src + 0) = .host 1 0 ∧ (s.mover 7).fail = 0 ∧
      (t.mover 7).fail = 0 ∧ (s.mover 7).writes = [(64, false)]) ∧
    (up.flag (F.mtxOutRst 8) = false ∧ (up.fset (F.mtxOutRst 8) true).flag (F.mtxOutRst 8) = true) ∧
    (let b : Burst := { master := 0, write := true, addr := bar0Base + 0xA0000, words := [0] }; let f := outField b.master b.write;
      let t := up.fput f (up.fget f - b.ended);
      b.master ≠ 7 ∧ t.flag (F.mtxOutRst b.master) = false ∧ burstOk b = true ∧ t.fget f < 64 ∧
      t.grantee (t.targetOfAddr b.addr) (b.master :: b.requesters) = some b.master ∧ requesterOf b.master = some .hostA ∧
      ((({ t with granted := Table.put 0 (b.master + 1) (t.targetOfAddr b.addr) t.granted } : State).fput f
        (t.fget f + 1)).issues .hostA = true) ∧
      64 ≤ (having up [(f, 64)]).fget f ∧ (up.fset (F.mtxOutRst 0) true).flag (F.mtxOutRst 0) = true) ∧
    (let b : Burst := { master := 7, write := true, addr := bar0Base + 0xA0000, words := [0] };
      b.master = 7 ∧ up.flag (F.mtxOutRst 7) = false ∧ burstOk b = true ∧ up.fget (outField 7 b.write) < 64 ∧
      up.grantee (up.targetOfAddr b.addr) (7 :: b.requesters) = some 7) ∧
    State.reset.ready 47 = false ∧
    (up.ready 0 = true ∧ (having up [(F.pwrDomState 0, 0)]).ready 0 = false ∧ 4 ≤ 4 ∧ 3 < 4 ∧ 0x30012 % 4 ≠ 0 ∧
      up.windowAddr 0x30010 = some (bar0Base + 0x30010) ∧
      (having up [(F.mtxSpw1En 0, 0)]).windowAddr 0x30010 = none) := by
  refine ⟨?_, ?_, ?_, ?_, ?_, ?_, ?_, ?_, ?_, ?_, ?_, ?_, ?_, ?_, ?_, ?_, ?_, ?_, ?_⟩ <;> decide +kernel

theorem witness_QuenchLatchesReactsAndRecovers :
    (0 < 2 ^ 16 ∧ up.ready 0 = true ∧ up.fget (F.qchUnitState 10) = 0 ∧ (having up [(F.qchUnitState 10, 1)]).fget (F.qchUnitState 10) = 1 ∧
      (having up [(F.qchUnitState 10, 2)]).fget (F.qchUnitState 10) = 2 ∧ up.flag F.qchStsFatal = false ∧
      State.reset.ready 0 = true ∧ (having up [(F.pwrDomState 0, 0)]).ready 0 = false ∧ up.reportsUnit 10 [] = false ∧
      (∀ n ∈ [63], n < 64 → up.flag (pendBit n) = false)) ∧
    (let s := up.fset (pendBit 2) true; 2 ∈ [2] ∧ s.flag (pendBit 2) = true ∧ s.targetOf 2 = up.targetOf 2) ∧
    (let s := having (up.fset (pendBit 55) true) [(F.qchUnitState 1, 2), (F.qchSrc0Class 55, 0)];
      s.flag (pendBit 55) = true ∧ (∀ m ∈ [55], m < 64 → s.flag (pendBit m) = true → s.targetOf m ≠ 1) ∧
      (s.graceExpire [55]).fget (F.qchUnitState 1) = 2 ∧ (s.graceExpire [55]).flag F.qchStsFatal = false) ∧
    (let s := having up [(F.qchUnitState 1, 1)]; let n := (List.range 64).find? (fun n => up.targetOf n == 1);
      (s.reportsUnit 1 [(n.getD 64, 1)]) = true) ∧
    (having up [(F.qchWdWdEn, 1)]).flag F.qchWdWdEn = true ∧
    (bitAt 4 2 = true ∧ bitAt 4 3 = false ∧ bitAt 8 2 = false ∧ bitAt 8 3 = true ∧ bitAt 12 2 = true ∧ bitAt 12 3 = true) ∧
    (0 < 2 ∧ 1 < 2 ∧ 31 < 32 ∧ bitAt 0x80000001 31 = true ∧ bitAt 0x80000001 30 = false ∧
      ([(63, 1)].map (fun x => (x.1, up.liveCauses x.1 x.2))).filter (fun x => x.2 != 0 && Nat.blt x.1 64) = [(63, 1)] ∧
      ([(2, 1)].map (fun x => (x.1, State.reset.liveCauses x.1 x.2))).filter (fun x => x.2 != 0 && Nat.blt x.1 64) = []) ∧
    (let w := 2 ^ 31 + 0x1000 + 2;
      up.flag F.qchInjArm = false ∧ bitsOf w 8 3 < injectionCauses (bitsOf w 0 6) ∧ bitsOf w 12 2 = 1) ∧
    (having up [(F.qchInjArm, 1)]).flag F.qchInjArm = true ∧
    (let s := having (timed 1) [(F.qchCtlAliveEn, 1)];
      s.flag F.invStsPllLock = true ∧ s.inv.started = true ∧ s.flag F.qchCtlAliveEn = true ∧ s.flag F.qchStsFatal = false) ∧
    up.flag F.invStsPllLock = false := by decide +kernel

theorem witness_BronzeRecordsAndSupplyWatchSamples :
    (up.ready 0 = true ∧ listedCode 0x78 = true ∧ up.flag F.brzStsReady = false ∧ up.brz.queue = [] ∧ up.brz.flush = none) ∧
    (let s := having up [(F.supCtlEn, 1), (F.supCtlNom, 3277)];
      s.flag F.supCtlEn = true ∧ s.fget F.supCtlNom ≠ 0 ∧ s.sup.count < 63 ∧ s.flag F.supStsPfw = false) ∧
    (having up [(F.supStsPfw, 1)]).flag F.supStsPfw = true ∧
    (let s := { having up [(F.brzStsReady, 1)] with brz := { queue := [{ code := 0x78 }] } };
      let t := { s with brz := { s.brz with queue := [] } };
      s.ready 0 = true ∧ s.brz.queue = [{ code := 0x78 }] ∧ s.flag F.brzStsReady = true ∧ t.ringFull = false ∧
      s.writeRecord.rd Reg.brzWseq ≠ s.rd Reg.brzWseq) ∧
    (let s := (having { up with brz := { queue := [{ code := 0x78 }] } } [(F.brzStsReady, 1), (F.brzStsFrozen, 1)]).wr Reg.brzWseq 0x7FFFFFFF;
      s.flag F.brzStsReady = true ∧ s.brz.queue = [{ code := 0x78 }] ∧
      ({ s with brz := { s.brz with queue := [] } } : State).ringFull = true ∧ s.writeRecord.rd Reg.brzWseq = s.rd Reg.brzWseq) ∧
    ({ up with brz := { flush := some [1, 2, 3, 4, 5, 6, 7] } } : State).brz.flush = some [1, 2, 3, 4, 5, 6, 7] ∧
    (0x380 ≤ bitsOf 0x3FF 0 10 ∧ bitsOf 0x37F 0 10 < 0x380) ∧ up.flag F.supCtlEn = false ∧
    (listedCode 7 = true ∧ listedCode 0 = false ∧ (having up [(F.pwrDomState 0, 0)]).ready 0 = false) ∧
    (let s := having { up with brz := { flush := some [1, 2, 3, 4, 5, 6, 7] } } [(F.brzStsReady, 1)];
      s.brz.flush = some [1, 2, 3, 4, 5, 6, 7] ∧ s.flag F.brzStsReady = true) ∧
    (up.coldStart = true ∧ (having up [(F.pwrCauseDev, 2)]).coldStart = false ∧ up.brz.early = false ∧
      ({ up with brz := { early := true } } : State).brz.early = true ∧ up.fget F.supCtlNom = 0) := by decide +kernel

theorem witness_PowerDomainsResetsAndTheTestPort :
    up.nextRamp = none ∧ (State.reset.ready 0 = true ∧ State.reset.inv.started = false ∧ State.reset.ramping = []) ∧
    (let s := { having State.reset [(F.pwrCtlHostAuto, 1)] with inv := { started := true } };
      let t := s.wr Reg.pwrOn1 0x8000;
      t.inv.started = true ∧ t.ramping = [] ∧ t.nextRamp = some 47 ∧ (t.setDomState 47 1).ramping = [47] ∧
      (t.setDomState 47 2).mayReady 47 = true) ∧
    (State.reset.goingOff 51 = false ∧ ({ up with pwr := { offing := 2 ^ 51 } } : State).goingOff 51 = true ∧
      up.mayReady 51 = false) ∧
    ((having up [(F.pwrDomState 48, 2)]).mayReady 48 = true ∧ (having up [(F.pwrDomState 44, 2)]).mayReady 44 = true ∧
      (44 - 1) % 11 ≠ 0 ∧ (having up [(F.pwrDomState 34, 2)]).mayReady 34 = true ∧ (34 - 1) % 11 = 0 ∧
      (having up [(F.pwrDomState 49, 2)]).mayReady 49 = true) ∧
    (up.pwr.porLow = false ∧ ({ up with pwr := { porLow := true } } : State).pwr.porLow = true) ∧
    (let s := having up [(F.pwrDomState 0, 0)];
      s.ready 0 = false ∧ s.reaches Reg.pwrOn0 = false ∧ s.reaches Reg.pwrHold0 = false ∧ s.reaches Reg.pwrCtl = false ∧
      up.reaches Reg.pwrOn0 = true ∧ up.reaches Reg.pwrHold0 = true ∧ up.reaches Reg.pwrCtl = true) ∧
    (bitAt 1 2 = false ∧ requiresOf 2 = some 1 ∧ bitAt 0 1 = false ∧ 1 ≠ 2 ∧ bitAt (2 ^ 47) 51 = false ∧
      requiresOf 51 = some 47 ∧ bitAt (2 ^ 47) 47 = true ∧ bitAt (2 ^ 47 + 2 ^ 48) 48 = true ∧ requiresOf 48 = some 47 ∧
      bitAt (2 ^ 51) 51 = true ∧ (∀ m, m < 52 → requiresOf m ≠ some 51) ∧ bitAt 1 47 = false ∧ requiresOf 47 = none) ∧
    ((∀ n, n < 52 → bitAt 0 n = false) ∧ bitAt (2 ^ 3 + 2 ^ 51) 3 = true ∧ ∀ m, m < 3 → bitAt (2 ^ 3 + 2 ^ 51) m = false) ∧
    (6 < 7 ∧ 7 ≤ 63 ∧ 63 < 64) := by decide +kernel

/-! ### Worked examples of the manual, one step each -/

/-- Chapters 0 and 1: quadrant window 2, pair of port 77, and the table entries of cell 153 617. -/
theorem test_table_addresses : quadBase 2 = 0x02000000 ∧ pairOf 77 = 38 ∧ cellAddr 2 22545 = 0x0242C088 ∧
    targetAddr 2 22545 = 0x02496044 ∧ domainOf (cellAddr 2 22545) = qDom 2 9 := by decide +kernel

/-- Table 2.12: a margin below 15 % steps the code from 20 to 22. -/
theorem test_vid_raise :
    ((after (exec .vidRaise (having up [(F.hscMarginValid 1, 1), (F.hscMarginMargin 1, 149)]))).map
      (fun t => (t.fget F.hscVidCode, Table.get 0 Pin.vid t.pins))) = some (22, 23) := by decide +kernel

/-- Table 2.12: M = -10.0 % is below -5 % and not below -10 %, so quadrant 1 enters level 2. -/
theorem test_shed_level :
    ((after (exec (.shedLevelEnter 1) (having up [(F.hscMarginValid 1, 1), (F.hscMarginMargin 1, encodeSigned (-100) 16)]))).map
      (fun t => t.fget (F.hscMarginShed 1))) = some 2 := by decide +kernel

/-- Chapter 4: with MAX_FRAME = 1 536, 63 bytes with a good FCS are a runt, 64 pass. -/
theorem test_runt :
    up.rxFate { port := 3, bytes := mkBytes (List.replicate 59 7), fcs := crc32 (List.replicate 59 7) } false = some 12 ∧
    up.rxFate { port := 3, bytes := mkBytes (List.replicate 60 7), fcs := crc32 (List.replicate 60 7) } false = none := by
  decide +kernel

/-- Table 4.5: pause_time 100 at 10GBASE-R stops for 5 120 ns. -/
theorem test_pause_quantum :
    (let s := having up [(F.pcsCtlPhy 3, 3)]; Table.get 0 8 ((s.loadTimer 3 8 100).mac 3).timers) = 512000 := by decide +kernel

/-- Table 5.3: at T_0 + 300 µs and T_0 + 600 µs. -/
theorem test_srtcm :
    (let s := having { timed 300000 with meters := [(meterKey 1 9, { tc := inTokens 250, tx := inTokens 3000, last := 200000 })] }
        [(mtrCir 1 9, 1250), (mtrCbs 1 9, 3000), (mtrXbs 1 9, 3000), (mtrMode 1 9, 1)];
      s.meterRun 1 9 1000 false) = (1, { tc := inTokens 375, tx := inTokens 2000, last := 300000 }) ∧
    (let s := having { timed 600000 with meters := [(meterKey 1 9, { tc := inTokens 625, tx := 0, last := 500000 })] }
        [(mtrCir 1 9, 1250), (mtrCbs 1 9, 3000), (mtrXbs 1 9, 3000), (mtrMode 1 9, 1)];
      s.meterRun 1 9 1000 false) = (2, { tc := inTokens 750, tx := 0, last := 600000 }) := by decide +kernel

/-- Chapter 5: a double-tagged GOOSE frame of port 41 without a stream entry is class 6. -/
theorem test_goose_class :
    (let l := mkBytes ([1, 12, 205, 1, 0, 1, 2, 0, 0, 0, 0, 9, 0x88, 0xA8, 0xA1, 0x2C, 0x81, 0, 0, 5, 0x88, 0xB8] ++ List.replicate 42 0);
      ((having up [(F.clsCtlEn 1, 1)]).classify 41 l []).1.cls) = 6 := by decide +kernel

/-- Chapter 8: the summary is written at count 0x20 with LAP 1 and ARG0 = 3, the notice follows, and P becomes 0x24. -/
theorem test_notice_summary :
    (let s := (((having (ringing 2320 {}) [(F.ringCfgSizeLog2 2320, 4), (ntcPend 0, 1)]).wr (Reg.ringHead 2320) 0x20).wr
        (Reg.ntcCons 0) 0x14);
      (after (exec (.noticeWrite 0 0x30 64 0 [1, 2, 3]) { s with notices := [(0, { lost := 3 })] })).map
        (fun t => (t.rd (Reg.ringHead 2320), t.out.reverse.map (fun o => match o with
          | .hostWrite _ a l => (a, bif a % 32 == 0 then l.getD 0 0 else 0, l.getD 4 0)
          | _ => (0, 0, 0)))))
    = some (0x24, [(4, 0, 3), (0, 0x116, 0), (36, 0, 1), (32, 0x116, 0), (0, 0x24, 0)]) := by decide +kernel

/-- Chapter 9: a mean RTT of 187.50 ns and TA = 142.50 ns give W = 22.50 ns, so GRF_LAT_0.W = 360. -/
theorem test_wire_delay : wireDelay 16 (16 * 3000) 2280 = 360 := by decide

/-- Table 10.5: words of rounds 0, 2, 3, 5 and 6. -/
theorem test_landing_words :
    (let s := having up [(Cell.gain 1 6444, 1024)]; let x : Landing := { d0 := 2000, s0 := 1220, target := 8900 };
      [s.rawWord 1 6444 { x with k := 0 } 0, s.rawWord 1 6444 { x with k := 2 } 0, s.rawWord 1 6444 { x with k := 3 } 0,
        s.rawWord 1 6444 { x with k := 5 } 0, s.rawWord 1 6444 { x with k := 6 } 4800]) = [12740, 11210, 8900, 9290, 9699] := by
  decide +kernel

/-- Table 10.5: the samples of rounds 0 and 1 give fb = 0 and 18.75. -/
theorem test_landing_feedback :
    (let s := having up [(Cell.gain 1 6444, 1024), (F.grfLat2Dl 1, 5)];
      let x : Landing := { d0 := 2000, s0 := 1220, target := 8900, k := 6, samples := [(0, 16384 + 1220 + 1), (1, 16384 + 1760 + 1)] };
      (s.integrate 1 6444 { x with k := 5 } 0, s.integrate 1 6444 x 0)) = ((0, 0), (960, 4800)) := by decide +kernel

/-- Table 14.6: a repeat, a count outside the window, and the resynchronising count after it. -/
theorem test_seal_alive :
    (let s := having up [(F.sealCtlEn 3, 1), (F.sealCtlAliveEn 3, 1), (F.sealCtlW 3, 4), (F.sealStsLastV 3, 1), (F.sealStsLast 3, 101)];
      s.sealJudge 3 true true 101) = { verdict := 3 } ∧
    (let s := having up [(F.sealCtlEn 3, 1), (F.sealCtlAliveEn 3, 1), (F.sealCtlW 3, 4), (F.sealStsLastV 3, 1), (F.sealStsLast 3, 104)];
      s.sealJudge 3 true true 110 = { verdict := 4 } ∧
      (s.sealAlive 3 110 { verdict := 4 }).sealJudge 3 true true 111 = { verdict := 0, resync := true }) := by decide +kernel

/-- Table 15.7: three reports in one update. -/
theorem test_three_reports :
    ((after (exec (.faultReport [(10, 1), (13, 2), (24, 1)]) up)).map (fun t => t.rd Reg.qchFsw0)) = some 0x01002400 := by
  decide +kernel

/-- Chapter 18: a READ of INV_NOW_0 answers 0x80 and the nanoseconds. -/
theorem test_service_port_read :
    ((after (exec (.servicePortRead 0x30010 ⟨0, none⟩) (timed 5))).map (fun t => t.out)) = some [.serviceReply [0x80, 5]] := by
  decide +kernel

/-- R479: IDCODE reads 0x0714_4E4D. -/
theorem test_idcode : ((after (exec .idcode up)).map (fun t => t.out)) = some [.tdo 0x07144E4D] := by decide +kernel

end Sys2Proof.Tests
end

section
/-! SUPPORT. Accesses to the BAR0 image and to BAR2 (R14 to R17, R28, R32): what a grant leaves alone, the shadow and
staging words of a requester, a read and a write that reach their word, and the statements of 00_scope.md. -/

namespace Sys2Proof

/-! ### Tables and masks -/

/-- A read answers the default or a listed entry. -/
theorem Table.get_eq_or_mem {α : Type} (d : α) (k : Nat) (t : Table α) :
    Table.get d k t = d ∨ (k, Table.get d k t) ∈ t := by
  induction t with
  | nil => exact .inl rfl
  | cons p r ih =>
    by_cases hk : p.1 = k
    · right
      simp [Table.get, ← hk]
    · simp only [Table.get, ne_beq hk, cond_false, List.mem_cons]
      exact ih.imp_right .inr

/-- The complement of a mask within a word (R16). -/
theorem testBit_complement {i : Nat} (hi : i < 32) (m : Nat) :
    (0xFFFFFFFF ^^^ m).testBit i = !m.testBit i := by
  rw [show (0xFFFFFFFF : Nat) = 2 ^ 32 - 1 from rfl, Nat.testBit_xor, Nat.testBit_two_pow_sub_one]
  simp [hi]

end Sys2Proof

namespace Sys2Proof.Machine

/-! ### Reserved bits (R15) -/

/-- In a sound state no word holds a reserved bit. -/
theorem State.rd_and_implOf {s : State} (hs : s.Sound) (a : Nat) : s.rd a &&& implOf a = s.rd a := by
  obtain ⟨⟨-, himpl⟩, -⟩ := hs
  rcases Table.get_eq_or_mem (resetWord a) a s.regs with h | h
  · have hr : s.rd a = resetOf a := by
      rw [State.rd, State.word, h, resetWord, BitVec.toNat_ofNat, Nat.mod_eq_of_lt (resetOf_lt a)]
    rw [hr, resetOf_impl]
  · exact himpl _ h

/-- Settles O6: a sound register file lists no reserved bit, and a store masks its word. -/
theorem reservedBitsReadZero : Obligations.ReservedBitsReadZero := by
  refine ⟨fun s hs a => s.rd_and_implOf hs a, fun s a n i hi => ?_⟩
  rw [State.rd_wr_self, Nat.testBit_and, hi, Bool.and_false]

/-! ### Storing by the access types (R14) -/

/-- The bits that a write may change: those of RW fields, and those of RWL fields while they are open. -/
def writableBit (r : RegRow) (locked : Bool) (i : Nat) : Bool := r.rw.testBit i || (r.rwl.testBit i && !locked)

/-- The writable bits are those of the mask that `storedWord` takes. -/
theorem testBit_writableMask (r : RegRow) (locked : Bool) (i : Nat) :
    (bif locked then r.rw else r.rw ||| r.rwl).testBit i = writableBit r locked i := by
  cases locked <;> simp [writableBit]

/-- Bit `i` of the word that a write leaves in a row without store rules. -/
theorem testBit_storedWord {r : RegRow} {a : Nat} (hadj : r.adj = []) (hfix : ∀ old n, fixWord a old n = n)
    (locked : Bool) (old v : Nat) {i : Nat} (hi : i < 32) :
    (storedWord r locked a old v).testBit i
      = ((if writableBit r locked i then v.testBit i else old.testBit i) && !(r.w1c.testBit i && v.testBit i)) := by
  simp only [storedWord, hadj, List.foldl_nil, hfix, Nat.testBit_and, Nat.testBit_or, testBit_complement hi,
    testBit_writableMask]
  rw [Bool.and_comm (v.testBit i) (r.w1c.testBit i)]
  cases writableBit r locked i <;> simp

/-- A store into a word that has a row. -/
theorem State.store_of_row {a : Nat} {r : RegRow} (h : regRow a = some r) (s : State) (v : Nat) :
    s.store a v = s.wr a (storedWord r (s.locked a) a (s.rd a) v) := by
  simp only [State.store, h]

/-- Settles O9: the stored word bit by bit; bits of no field are masked. -/
theorem storingFollowsTheAccessTypes : Obligations.StoringFollowsTheAccessTypes := by
  intro s a v r hr _ hadj hfix
  rw [State.store_of_row hr]
  refine ⟨OnlyWords.refl.wr (List.mem_singleton.mpr rfl) _, fun i => ?_⟩
  rw [State.rd_wr_self, Nat.testBit_and, Bool.and_comm]
  cases himpl : (implOf a).testBit i
  · rfl
  · have hi : i < 32 := by
      by_contra hge
      have hlt : implOf a < 2 ^ i := (implOf_lt a).trans_le (Nat.pow_le_pow_right (by decide) (Nat.not_lt.mp hge))
      rw [Nat.testBit_lt_two_pow hlt] at himpl
      exact Bool.false_ne_true himpl
    rw [testBit_storedWord hadj hfix _ _ _ hi, ← writableBit]
    cases writableBit r (s.locked a) i <;> rfl

/-! ### The reset state (R14, R449) -/

/-- Settles O8: the register file of the reset state is empty, so every word reads its row's reset value. -/
theorem resetGivesTheStatedValues : Obligations.ResetGivesTheStatedValues := by
  have hoff : ∀ n < 52, 0 < n → State.reset.fget (F.pwrDomState n) = 0 := by decide +kernel
  exact ⟨rd_of_regs_nil rfl, fun n hpos hlt => hoff n hlt hpos, by decide +kernel, by decide +kernel, rfl, rfl,
    by decide +kernel, by decide +kernel⟩

/-! ### Folds over the state -/

/-- What the start has and every listed element's turn keeps holds at the end. -/
theorem eachOf_invariant {α : Type} {P : State → Prop} {f : α → State → State} {l : List α} {s : State} (hs : P s)
    (hkeep : ∀ x ∈ l, ∀ t, P t → P (f x t)) : P (eachOf l f s) :=
  List.foldlRecOn l _ hs fun t ht x hx => hkeep x hx t ht

/-- What one listed element's turn brings about and every turn keeps holds at the end. -/
theorem eachOf_established {α : Type} {P : State → Prop} {f : α → State → State} {l : List α} {x : α} (hx : x ∈ l)
    (hset : ∀ t, P (f x t)) (hkeep : ∀ y t, P t → P (f y t)) (s : State) : P (eachOf l f s) := by
  obtain ⟨before, after, rfl⟩ := List.append_of_mem hx
  rw [eachOf, List.foldl_append, List.foldl_cons]
  exact eachOf_invariant (hset _) fun y _ => hkeep y

/-! ### Grants (R393) -/

section Granting

variable (s : State) (m t : Nat)

/-- What does not read the grants is the same after a grant. -/
theorem State.granting_keeps {α : Type} (f : State → α) (hf : ∀ g, f { s with granted := g } = f s) :
    f (s.granting m t) = f s := by
  unfold State.granting State.when
  cases s.ready 47
  · rfl
  · exact hf _

@[simp] theorem State.granting_regs : (s.granting m t).regs = s.regs := s.granting_keeps m t (·.regs) fun _ => rfl
@[simp] theorem State.granting_shadow : (s.granting m t).shadow = s.shadow := s.granting_keeps m t (·.shadow) fun _ => rfl
@[simp] theorem State.granting_staged : (s.granting m t).staged = s.staged := s.granting_keeps m t (·.staged) fun _ => rfl
@[simp] theorem State.granting_out : (s.granting m t).out = s.out := s.granting_keeps m t (·.out) fun _ => rfl
@[simp] theorem State.granting_injected : (s.granting m t).injected = s.injected :=
  s.granting_keeps m t (·.injected) fun _ => rfl
@[simp] theorem State.granting_touched : (s.granting m t).touched = s.touched := s.granting_keeps m t (·.touched) fun _ => rfl
@[simp] theorem State.granting_rd (a : Nat) : (s.granting m t).rd a = s.rd a := State.rd_eq_of_regs (s.granting_regs m t) a
@[simp] theorem State.granting_gateOf (n a : Nat) : (s.granting m t).gateOf n a = s.gateOf n a :=
  s.granting_keeps m t (·.gateOf n a) fun _ => rfl
@[simp] theorem State.granting_blockHeld (a : Nat) : (s.granting m t).blockHeld a = s.blockHeld a :=
  s.granting_keeps m t (·.blockHeld a) fun _ => rfl
@[simp] theorem State.granting_liveWord (a : Nat) : (s.granting m t).liveWord a = s.liveWord a :=
  s.granting_keeps m t (·.liveWord a) fun _ => rfl
@[simp] theorem State.granting_wordKey (a : Nat) : (s.granting m t).wordKey a = s.wordKey a :=
  s.granting_keeps m t (·.wordKey a) fun _ => rfl
@[simp] theorem State.granting_ringMark (a n : Nat) : (s.granting m t).ringMark a n = s.ringMark a n :=
  s.granting_keeps m t (·.ringMark a n) fun _ => rfl
@[simp] theorem State.granting_shadowOf (q : Requester) (a : Nat) : (s.granting m t).shadowOf q a = s.shadowOf q a :=
  s.granting_keeps m t (·.shadowOf q a) fun _ => rfl
@[simp] theorem State.granting_stagedOf (q : Requester) (a : Nat) : (s.granting m t).stagedOf q a = s.stagedOf q a :=
  s.granting_keeps m t (·.stagedOf q a) fun _ => rfl

end Granting

/-! ### Shadow and staging words of the requesters (R17) -/

/-- The keys of two requesters' words of BAR0 differ. -/
theorem reqKey_ne {q r : Requester} (h : r ≠ q) {u w : Nat} (hu : u < 0x4000000) (hw : w < 0x4000000) :
    reqKey r u ≠ reqKey q w := by
  have hnum : reqNum r ≠ reqNum q := by revert h; cases r <;> cases q <;> decide
  unfold reqKey
  omega

theorem reqKey_word_ne {q : Requester} {u w : Nat} (h : u ≠ w) : reqKey q u ≠ reqKey q w := by
  unfold reqKey
  omega

theorem State.shadowOf_setShadow_self (s : State) (q : Requester) (a n : Nat) :
    (s.setShadow q a n).shadowOf q a = n := Table.get_put_self _ _ _ _

theorem State.shadowOf_setShadow_ne (s : State) {q r : Requester} {a b : Nat} (h : reqKey r b ≠ reqKey q a) (n : Nat) :
    (s.setShadow q a n).shadowOf r b = s.shadowOf r b := Table.get_put_ne h _ _

theorem State.stagedOf_stage_some (s : State) (q : Requester) (a n : Nat) :
    (s.stage q a (some n)).stagedOf q a = n + 1 := by simp only [State.stagedOf, State.stage, Table.get_put_self]

theorem State.stagedOf_stage_none (s : State) (q : Requester) (a : Nat) :
    (s.stage q a none).stagedOf q a = 0 := by simp only [State.stagedOf, State.stage, Table.get_put_self]

theorem State.stagedOf_stage_ne (s : State) {q r : Requester} {a b : Nat} (h : reqKey r b ≠ reqKey q a)
    (v : Option Nat) : (s.stage q a v).stagedOf r b = s.stagedOf r b := Table.get_put_ne h _ _

/-! ### Wide values (R17) -/

theorem wideCount_le {l : List (Nat × List (Nat × Nat) × Nat)} {n : Nat} (h : ∀ x ∈ l, x.2.2 ≤ n) (a : Nat) :
    wideCount l a ≤ n := by
  induction l with
  | nil => exact Nat.zero_le n
  | cons x r ih =>
    unfold wideCount
    cases Nat.ble x.1 a && dimsHit x.2.1 (a - x.1)
    · exact ih fun y hy => h y (List.mem_cons_of_mem _ hy)
    · exact h x List.mem_cons_self

/-- A wide value has at most seven upper words. -/
theorem wideUpper_le (a : Nat) : wideUpper a ≤ 7 := by
  have hspine : wideCount wideSpine a ≤ 7 := wideCount_le (by decide) a
  have hwindow : wideCount wideWindow (windowOff a) ≤ 7 := wideCount_le (by decide) _
  rw [wideUpper, Bool.cond_eq_ite]
  split
  · exact hspine
  · exact hwindow

theorem lt_of_mem_upperWords {a u : Nat} (h : u ∈ upperWords a) : u < a + 32 := by
  obtain ⟨k, hk, rfl⟩ := List.mem_map.mp h
  have := List.mem_range.mp hk
  have := wideUpper_le a
  omega

/-- The matrix lets only accesses below the end of the quadrant windows through (Table 1.7). -/
theorem lt_of_gateOf_open {s : State} {m a : Nat} (h : s.gateOf m a = .open') : a < 0x3000000 := by
  by_contra hge
  have htarget : targetOfWord a = 15 := by
    have hspine : Nat.blt a 0x1000000 = false := by rw [Bool.eq_false_iff, ne_eq, Nat.blt_eq]; omega
    have hend : Nat.ble 0x3000000 a = true := Nat.ble_eq.mpr (Nat.not_lt.mp hge)
    simp [targetOfWord, hspine, hend]
  simp [State.gateOf, htarget] at h

/-! ### Captures -/

/-- A capture changes shadow words only. -/
theorem State.capture_keeps {α : Type} (f : State → α) (hf : ∀ (t : State) x, f { t with shadow := x } = f t)
    (s : State) (q : Requester) (a : Nat) : f (s.capture q a) = f s :=
  eachOf_invariant (P := fun t => f t = f s) rfl fun _ _ t ht => (hf t _).trans ht

/-- After a capture the requester's shadow of each upper word is the word's live value. -/
theorem State.shadowOf_capture (s : State) (q : Requester) {a u : Nat} (hu : u ∈ upperWords a) :
    (s.capture q a).shadowOf q u = s.liveWord u := by
  refine eachOf_established (P := fun t => t.shadowOf q u = s.liveWord u) hu
    (fun t => t.shadowOf_setShadow_self q u _) (fun w t ht => ?_) s
  by_cases hw : u = w
  · exact hw ▸ t.shadowOf_setShadow_self q u _
  · exact (t.shadowOf_setShadow_ne (reqKey_word_ne hw) _).trans ht

/-- A capture leaves every shadow word whose key is not one of the captured words'. -/
theorem State.shadowOf_capture_ne (s : State) {q r : Requester} {a b : Nat}
    (h : ∀ u ∈ upperWords a, reqKey r b ≠ reqKey q u) : (s.capture q a).shadowOf r b = s.shadowOf r b :=
  eachOf_invariant (P := fun t => t.shadowOf r b = s.shadowOf r b) rfl fun u hu t ht =>
    (t.shadowOf_setShadow_ne (h u hu) _).trans ht

/-! ### Reads that reach their word -/

/-- A word with good check bits reads as it is. -/
theorem State.memRead_of_good {s : State} {key : Nat} (h : Table.get 0 key s.injected = 0) (n : Nat) :
    s.memRead key n = (s, n) := by simp [State.memRead, h]

/-- A read of an upper word answers the requester's shadow. -/
theorem State.readReg_of_upper {a b : Nat} (h : wideLow a = some b) (s : State) (q : Requester) :
    s.readReg q a = (s, s.shadowOf q a) := by simp only [State.readReg, h]

/-- A read of any other word captures, and shows the live value where the check bits are good. -/
theorem State.readReg_of_low {s : State} {a : Nat} (h : wideLow a = none)
    (hgood : Table.get 0 (s.wordKey a) s.injected = 0) (q : Requester) :
    s.readReg q a = (s.capture q a, s.ringMark a (s.liveWord a)) := by
  have hinj : (s.capture q a).injected = s.injected := State.capture_keeps (·.injected) (fun _ _ => rfl) s q a
  simp only [State.readReg, h, State.memRead_of_good (hinj ▸ hgood)]

/-- A read through an open gate answers what the word shows. -/
theorem State.regRead_of_open {s : State} {q : Requester} {a : Nat} (ha : a % 4 = 0) (hi : s.issues q = true)
    (hg : s.gateOf (masterOf q) a = .open') (be : Nat) {u : State} {n : Nat}
    (hr : (s.granting (masterOf q) (targetOfWord a)).readReg q a = (u, n)) :
    s.regRead q a be = u.emit (.readData q a (n &&& laneMask be)) := by
  have haligned : a / 4 * 4 = a := Nat.div_mul_cancel (Nat.dvd_of_mod_eq_zero ha)
  simp [State.regRead, State.when_true hi, State.busRead, hg, haligned, hr, State.answer]

/-- A read of BAR2 outside the MSI-X words answers 0. -/
theorem State.bar2Read_unused (s : State) (h : Nat) {o : Nat} (ho : o < 0x10000 ∨ 0x18100 ≤ o) : s.bar2Read h o = 0 := by
  have hout : (Nat.ble 0x10000 o && Nat.blt o 0x18100) = false := by
    rw [Bool.eq_false_iff, ne_eq, Bool.and_eq_true, Nat.ble_eq, Nat.blt_eq]
    omega
  simp [State.bar2Read, hout]

theorem State.bar2Read_msix (s : State) (h : Nat) {o : Nat} (hlo : 0x10000 ≤ o) (hhi : o < 0x18100) :
    s.bar2Read h o = s.msixWord h (o / 4 * 4) := by
  simp [State.bar2Read, Nat.ble_eq.mpr hlo, Nat.blt_eq.mpr hhi]

theorem exec_read_bar0 (s : State) (q : Requester) (a be : Nat) :
    exec (.wideLowWordRead q ⟨0, a, be⟩) s = .next (s.regRead q a be) := rfl

/-- A host's read of another BAR. -/
theorem exec_read_other {s : State} {q : Requester} {h : Nat} (hh : hostOf q = some h) (hi : s.issues q = true)
    {bar : Nat} (hb : bar ≠ 0) (o be : Nat) :
    exec (.wideLowWordRead q ⟨bar, o, be⟩) s = .next (s.barRead q h bar o be) := by
  have hb0 : (bar == 0) = false := beq_eq_false_iff_ne.mpr hb
  simp [exec, execWideLowWordRead, hb0, hh, State.when_true hi]

/-- Settles O12: a read captures in the granted state, which differs from the state in its grants only. -/
theorem readingTheLowestWordCaptures : Obligations.ReadingTheLowestWordCaptures := by
  refine ⟨fun s q a be ha hi hg hgood => ⟨fun hlow => ?_, fun b hup => ?_⟩, fun s q h bar o be hh hi => ?_⟩
  · let g := s.granting (masterOf q) (targetOfWord a)
    have hread : g.readReg q a = (g.capture q a, s.ringMark a (s.liveWord a)) := by
      simpa [g] using State.readReg_of_low (s := g) hlow (by simpa [g] using hgood) q
    refine ⟨_, by rw [exec_read_bar0, State.regRead_of_open ha hi hg be hread], ?_, ?_, ?_, ?_⟩
    · intro u hu
      exact (g.shadowOf_capture q hu).trans (s.granting_liveWord _ _ u)
    · intro r u hr hu
      have hkeys : ∀ w ∈ upperWords a, reqKey r u ≠ reqKey q w := fun w hw =>
        reqKey_ne hr hu (by have := lt_of_mem_upperWords hw; have := lt_of_gateOf_open hg; omega)
      exact (g.shadowOf_capture_ne hkeys).trans (s.granting_shadowOf _ _ r u)
    · have hout : (g.capture q a).out = s.out :=
        (State.capture_keeps (·.out) (fun _ _ => rfl) g q a).trans (s.granting_out _ _)
      rw [State.emit_out, hout]
    · exact (State.capture_keeps (·.regs) (fun _ _ => rfl) g q a).trans (s.granting_regs _ _)
  · rw [exec_read_bar0, State.regRead_of_open ha hi hg be (State.readReg_of_upper hup _ q), State.granting_shadowOf]
  · refine ⟨exec_read_other hh hi (by decide) o be, s.bar2Read_unused h, s.bar2Read_msix h, ?_⟩
    rintro (rfl | rfl)
    · exact exec_read_other hh hi (by decide) o be
    · exact exec_read_other hh hi (by decide) o be

/-! ### Writes that reach their word -/

/-- Nothing that was read waits to be reported. -/
theorem State.reportReads_of_untouched {s : State} (h : s.touched = []) : s.reportReads = s := by
  simp [State.reportReads, h]

/-- The Bulk Mover waits on unless a register write ends the Spine's shed level. -/
theorem State.resumed_of_regs {s t : State} (h : t.regs = s.regs) : s.resumed t = t := by
  refine State.when_false ?_ t _
  rw [State.fget_eq_of_regs h]
  cases hz : s.fget (F.hscMarginShed 4) == 0 <;> simp [hz, bne]

/-- A requester that cannot issue accesses writes nothing. -/
theorem State.regWrite_of_idle {s : State} {q : Requester} (h : s.issues q = false) (a v be : Nat) :
    s.regWrite q a v be = s := State.when_false h s _

/-- A write through an open gate: the target grants it and it reaches its block. -/
theorem State.regWrite_of_open {s : State} {q : Requester} {a : Nat} (hi : s.issues q = true)
    (hg : s.gateOf (masterOf q) a = .open') (v be : Nat) :
    s.regWrite q a v be
      = ((s.granting (masterOf q) (targetOfWord a)).writeReached q (a / 4 * 4) v be).reportReads := by
  simp [State.regWrite, State.when_true hi, State.busWrite, hg]

/-- A write that gives its word the value `w`. -/
theorem State.writeReached_of_whole {s : State} {a v be w : Nat} (hb : s.blockHeld a = false)
    (hw : s.wholeWord a v be = some w) (q : Requester) : s.writeReached q a v be = s.writeWhole q a w := by
  simp [State.writeReached, hb, hw]

theorem State.wholeWord_of_full (s : State) {be : Nat} (h : be % 16 = 15) (a v : Nat) :
    s.wholeWord a v be = some (v % 2 ^ 32) := by simp [State.wholeWord, h]

/-- Behind a target other than REG a partial write merges its bytes (R397). -/
theorem State.wholeWord_of_merged (s : State) {a be : Nat} (h : be % 16 ≠ 15) (ht : targetOfWord a ≠ 0) (v : Nat) :
    s.wholeWord a v be = some (mergeBytes (s.rd a) v be) := by
  simp [State.wholeWord, beq_eq_false_iff_ne.mpr h, beq_eq_false_iff_ne.mpr ht]

/-- A partial write at REG is discarded (R16). -/
theorem State.writeReached_of_partial (s : State) {a be : Nat} (h : be % 16 ≠ 15) (ht : targetOfWord a = 0)
    (q : Requester) (v : Nat) : s.writeReached q a v be = s := by
  simp [State.writeReached, State.wholeWord, beq_eq_false_iff_ne.mpr h, ht]

/-- A whole write of an aligned word through an open gate, to a block that takes it. -/
theorem State.regWrite_of_reached {s : State} {q : Requester} {a v be w : Nat} (ha : a % 4 = 0) (hi : s.issues q = true)
    (hg : s.gateOf (masterOf q) a = .open') (hb : s.blockHeld a = false) (hw : s.wholeWord a v be = some w) :
    s.regWrite q a v be = ((s.granting (masterOf q) (targetOfWord a)).writeWhole q a w).reportReads := by
  have haligned : a / 4 * 4 = a := Nat.div_mul_cancel (Nat.dvd_of_mod_eq_zero ha)
  have hw' : (s.granting (masterOf q) (targetOfWord a)).wholeWord a v be = some w := by
    rw [← hw]
    simp only [State.wholeWord, State.granting_rd]
  rw [State.regWrite_of_open hi hg, haligned,
    State.writeReached_of_whole ((s.granting_blockHeld _ _ a).trans hb) hw']

/-- A word that starts no wide value has nothing staged to apply. -/
theorem State.applyStaged_of_narrow {a : Nat} (h : wideUpper a = 0) (s : State) (q : Requester) :
    s.applyStaged q a = s := by simp [State.applyStaged, upperWords, h, eachOf]

/-- A whole write of an upper word without write-one fields stages it. -/
theorem State.writeWhole_of_staged {a b : Nat} (h : wideLow a = some b) (hact : actsAtOnce a = 0) (s : State)
    (q : Requester) {v : Nat} (hv : v < 2 ^ 32) : s.writeWhole q a v = s.stage q a (some v) := by
  have hall : v &&& (0xFFFFFFFF ^^^ 0) = v := (Nat.and_two_pow_sub_one_eq_mod v 32).trans (Nat.mod_eq_of_lt hv)
  simp only [State.writeWhole, h, hact, hall]
  exact State.when_false rfl _ _

/-- A whole write of an upper word with write-one fields stages the rest and acts on them. -/
theorem State.writeWhole_of_acting {a b : Nat} (h : wideLow a = some b) (hact : actsAtOnce a ≠ 0) (s : State)
    (q : Requester) (v : Nat) :
    s.writeWhole q a v
      = (s.stage q a (some (v &&& (0xFFFFFFFF ^^^ actsAtOnce a)))).writeReg q a (v &&& actsAtOnce a) := by
  simp only [State.writeWhole, h]
  exact State.when_true (bne_iff_ne.mpr hact) _ _

/-- A whole write of a word outside the injectable memories: what is staged, then the register's own write. -/
theorem State.writeWhole_of_register {a : Nat} (h : wideLow a = none) (hm : memoryOf a = none) (s : State)
    (q : Requester) (v : Nat) : s.writeWhole q a v = (s.applyStaged q a).writeReg q a v := by
  simp only [State.writeWhole, h, hm]

/-- A whole write of a memory word: its check bits where the memory takes it, then the word's own write (R428). -/
theorem State.writeWhole_of_memory {a : Nat} {m : Nat × Nat} (h : wideLow a = none) (hn : wideUpper a = 0)
    (hm : memoryOf a = some m) (s : State) (q : Requester) (v : Nat) :
    s.writeWhole q a v = (s.when (s.takesWrite a) (·.memWritten m.1 m.2 a)).writeReg q a v := by
  simp only [State.writeWhole, h, hm, State.applyStaged_of_narrow hn]

/-! ### Staged words applied -/

/-- Applying an upper word leaves what the requesters have staged. -/
theorem State.applyUpper_staged (s : State) (a v : Nat) : (s.applyUpper a v).staged = s.staged := by
  unfold State.applyUpper State.store
  cases implOf a == 0
  · cases regRow a <;> rfl
  · rfl

/-- The lowest word's write empties its requester's staging words for the value. -/
theorem State.stagedOf_applyStaged (s : State) (q : Requester) {a w : Nat} (hw : w ∈ upperWords a) :
    (s.applyStaged q a).stagedOf q w = 0 := by
  refine eachOf_established (P := fun t => t.stagedOf q w = 0) hw (fun t => ?_) (fun u t ht => ?_) s
  · cases hz : t.stagedOf q w == 0
    · exact State.stagedOf_stage_none _ q w
    · exact beq_iff_eq.mp hz
  · cases t.stagedOf q u == 0
    · by_cases hu : w = u
      · exact hu ▸ State.stagedOf_stage_none _ q w
      · have happly : (t.applyUpper u (t.stagedOf q u - 1)).stagedOf q w = 0 := by
          rw [State.stagedOf, State.applyUpper_staged]
          exact ht
        exact (State.stagedOf_stage_ne _ (reqKey_word_ne hu) none).trans happly
    · exact ht

theorem exec_write_bar0 (s : State) (q : Requester) (a v be : Nat) :
    exec (.regWrite q false a v be) s = .next (s.resumed (s.regWrite q a v be)) := rfl

theorem exec_write_upper (s : State) (q : Requester) (a v : Nat) :
    exec (.wideUpperWordWrite q a v) s = .next (s.resumed (s.regWrite q a v 15)) := rfl

theorem exec_write_low (s : State) (q : Requester) (a v : Nat) :
    exec (.wideLowWordWrite q a v) s = .next (s.resumed (s.regWrite q a v 15)) := rfl

/-- Settles O13: an upper word is staged in the granted state; the lowest word applies and empties the staging words. -/
theorem writingAWideValueStagesItsUpperWords : Obligations.WritingAWideValueStagesItsUpperWords := by
  intro s q a v ha hi hg hb hclean
  have hwrite := State.regWrite_of_reached ha hi hg hb (s.wholeWord_of_full (be := 15) rfl a v)
  refine ⟨?_, fun hlow hmem => ?_⟩
  · rintro b g hup rfl
    refine ⟨fun hact => ?_, fun hact => ?_⟩
    · have hquiet : ((s.granting (masterOf q) (targetOfWord a)).stage q a (some (v % 2 ^ 32))).touched = [] :=
        (s.granting_touched _ _).trans hclean
      rw [State.writeWhole_of_staged hup hact _ q (Nat.mod_lt v (by decide)),
        State.reportReads_of_untouched hquiet] at hwrite
      have hregs : (s.regWrite q a v 15).regs = s.regs := by rw [hwrite]; exact s.granting_regs _ _
      refine ⟨_, by rw [exec_write_upper, State.resumed_of_regs hregs, hwrite], State.stagedOf_stage_some _ q a _,
        s.granting_regs _ _, fun r u hr hu => ?_⟩
      rw [State.stagedOf_stage_ne _ (reqKey_ne hr hu ((lt_of_gateOf_open hg).trans (by decide))),
        State.granting_stagedOf]
    · rw [exec_write_upper, hwrite, State.writeWhole_of_acting hup hact]
  · refine ⟨_, _, by rw [exec_write_low, hwrite, State.writeWhole_of_register hlow hmem], rfl, rfl, fun w hw => ?_⟩
    exact State.stagedOf_applyStaged _ q hw

/-! ### Writes of BAR2 (R32) -/

/-- A host's write of BAR2. -/
theorem exec_write_bar2 {s : State} {q : Requester} {h : Nat} (hh : hostOf q = some h) (hi : s.issues q = true)
    (o v be : Nat) : exec (.regWrite q true o v be) s = .next (s.bar2Write h o v be) := by
  simp [exec, execRegWrite, hh, State.when_true hi]

/-- A write of BAR2 by a requester that is no host, or cannot issue accesses, changes nothing. -/
theorem exec_write_bar2_of_idle {s : State} {q : Requester} (h : hostOf q = none ∨ s.issues q = false) (o v be : Nat) :
    exec (.regWrite q true o v be) s = .next s := by
  cases hq : hostOf q with
  | none => simp [exec, execRegWrite, hq]
  | some k => simp [exec, execRegWrite, hq, State.when_false (h.resolve_left (by simp [hq]))]

/-- A doorbell rings where its ring works. -/
theorem State.bar2Write_doorbell (s : State) {o : Nat} (ho : o < 0x4890) (h v be : Nat) :
    s.bar2Write h o v be = s.when (s.ringWorks (o / 8)) (·.ringDoorbell (o / 8)) := by
  simp [State.bar2Write, Nat.blt_eq.mpr ho]

/-- An MSI-X word takes the enabled bytes; a Vector Control word may then send its vector. -/
theorem State.bar2Write_msix (s : State) {o : Nat} (hlo : 0x10000 ≤ o) (hhi : o < 0x18000) (h v be : Nat) :
    s.bar2Write h o v be = (s.setMsix h (o / 4 * 4) (mergeBytes (s.msixWord h (o / 4 * 4)) v be)).when
      (o / 4 % 4 == 3) (·.msixUnmask h ((o - 0x10000) / 16)) := by
  have hdoor : Nat.blt o 0x4890 = false := by rw [Bool.eq_false_iff, ne_eq, Nat.blt_eq]; omega
  have hword : (o / 4 * 4 % 16 == 12) = (o / 4 % 4 == 3) := by rw [Bool.eq_iff_iff, beq_iff_eq, beq_iff_eq]; omega
  have hvec : (o / 4 * 4 - 0x10000) / 16 = (o - 0x10000) / 16 := by omega
  simp only [State.bar2Write, hdoor, cond_false, Nat.ble_eq.mpr hlo, Nat.blt_eq.mpr hhi, Bool.and_true, cond_true,
    hword, hvec]

theorem State.bar2Write_unused (s : State) {o : Nat} (ho : (0x4890 ≤ o ∧ o < 0x10000) ∨ 0x18000 ≤ o) (h v be : Nat) :
    s.bar2Write h o v be = s := by
  have hdoor : Nat.blt o 0x4890 = false := by rw [Bool.eq_false_iff, ne_eq, Nat.blt_eq]; omega
  have hout : (Nat.ble 0x10000 o && Nat.blt o 0x18000) = false := by
    rw [Bool.eq_false_iff, ne_eq, Bool.and_eq_true, Nat.ble_eq, Nat.blt_eq]
    omega
  simp only [State.bar2Write, hdoor, hout, cond_false]

/-- An unmasked vector that is pending is sent. -/
theorem State.msixUnmask_of_pending {s : State} {h k : Nat} (hmask : bitAt (s.msixWord h (0x1000C + 16 * k)) 0 = false)
    (hpend : bitAt (s.msixWord h (0x18000 + 4 * (k / 32))) (k % 32) = true) :
    s.msixUnmask h k = (s.setMsix h (0x18000 + 4 * (k / 32))
      (withBits (s.msixWord h (0x18000 + 4 * (k / 32))) (k % 32) 1 0)).emit (.msix h k) := by
  simp only [State.msixUnmask, hmask, hpend, Bool.not_false, Bool.and_true, cond_true]

theorem State.msixUnmask_of_quiet {s : State} {h k : Nat} (hq : bitAt (s.msixWord h (0x1000C + 16 * k)) 0 = true ∨
    bitAt (s.msixWord h (0x18000 + 4 * (k / 32))) (k % 32) = false) : s.msixUnmask h k = s := by
  rcases hq with hmask | hpend
  · simp only [State.msixUnmask, hmask, Bool.not_true, Bool.false_and, cond_false]
  · simp only [State.msixUnmask, hpend, Bool.and_false, cond_false]

/-- Settles O10: the value that the write gives its word, then the write whole; BAR2 by its ranges. -/
theorem writesReachTheirRegisterWhole : Obligations.WritesReachTheirRegisterWhole := by
  refine ⟨fun s q a v ha => ⟨?_, fun hi => ?_⟩, ?_, ?_, ?_, fun s q o v be h => exec_write_bar2_of_idle h o v be⟩
  · intro hi hg hb hlow hn hmem
    rw [exec_write_bar0, State.regWrite_of_reached ha hi hg hb (s.wholeWord_of_full rfl a v),
      State.writeWhole_of_register hlow hmem, State.applyStaged_of_narrow hn]
  · rw [exec_write_bar0, State.regWrite_of_idle hi, State.resumed_of_regs rfl]
  · intro s q a v be hi hg hclean hreg hpart
    rw [exec_write_bar0, State.regWrite_of_open hi hg, State.writeReached_of_partial _ hpart hreg,
      State.reportReads_of_untouched ((s.granting_touched _ _).trans hclean),
      State.resumed_of_regs (s.granting_regs _ _)]
  · rintro s g q a v be m ha hi hg hb hlow hn hmem rfl hbe w rfl
    have hw : s.wholeWord a v be
        = some (if be % 16 = 15 then v % 2 ^ 32 else mergeBytes (s.rd a) v be) := by
      by_cases hfull : be % 16 = 15
      · rw [if_pos hfull, s.wholeWord_of_full hfull]
      · rw [if_neg hfull, s.wholeWord_of_merged hfull (hbe.resolve_left hfull)]
    rw [exec_write_bar0, State.regWrite_of_reached ha hi hg hb hw, State.writeWhole_of_memory hlow hn hmem]
  · intro s q h o v be hh hi
    rw [exec_write_bar2 hh hi]
    refine ⟨fun ho => ?_, ?_, fun ho => by rw [State.bar2Write_unused s ho]⟩
    · rw [State.bar2Write_doorbell s ho]
      exact ⟨fun hw => by rw [State.when_true hw], fun hw => by rw [State.when_false hw]⟩
    · rintro hlo hhi e k rfl rfl
      rw [State.bar2Write_msix s hlo hhi]
      refine ⟨fun hword => by rw [State.when_false (beq_eq_false_iff_ne.mpr hword)], fun hword => ?_⟩
      rw [State.when_true (beq_iff_eq.mpr hword)]
      exact ⟨fun hmask hpend => by rw [State.msixUnmask_of_pending hmask hpend],
        fun hq => by rw [State.msixUnmask_of_quiet hq]⟩

end Sys2Proof.Machine
end

section
/-! SUPPORT. Accesses that DEF or an isolation gate answers (R28, R392, R401, R450): what the count and the log of a
refused access show and leave alone, and the statement of 01_architecture.md on them. -/

namespace Sys2Proof.Machine

/-! ### Words read back after a write -/

/-- A field read after a write of its whole word. -/
theorem State.fget_wr_self {f : Fld} (h : Fld.held f = true) (s : State) (n : Nat) :
    (s.wr f.addr n).fget f = bitsOf n f.lo f.width := by
  simp only [State.fget, State.rd_wr_self]
  exact bitsOf_and (by simpa [Fld.held] using h) n

/-- A flag read after a write of its whole word. -/
theorem State.flag_wr_self {f : Fld} (h : Fld.held f = true) (s : State) (n : Nat) :
    (s.wr f.addr n).flag f = (bitsOf n f.lo f.width == 1) := by rw [State.flag, State.fget_wr_self h]

/-- A word all of whose bits hold state reads back as it was written. -/
theorem State.rd_wr_full {a : Nat} (h : implOf a = 2 ^ 32 - 1) (s : State) (n : Nat) : (s.wr a n).rd a = n % 2 ^ 32 := by
  rw [State.rd_wr_self, h, Nat.and_two_pow_sub_one_eq_mod]

/-- The Bulk Mover waits on while the Spine's shed level is as before. -/
theorem State.resumed_of_shed {s t : State} (h : t.fget (F.hscMarginShed 4) = s.fget (F.hscMarginShed 4)) :
    s.resumed t = t := by
  refine State.when_false ?_ t _
  rw [h, bne, Bool.not_and_self]

/-! ### The count and the log of DEF (R401) -/

section DefAccess

variable (s : State) (addr m : Nat) (write iso hxl : Bool)

/-- The second log word of a refused access: the upper address bits, the master, what the access was, and V. -/
def defLogWord : Nat :=
  addr / 2 ^ 32 % 256 + 256 * m + 2 ^ 12 * bit write + 2 ^ 13 * bit iso + 2 ^ 14 * bit hxl + 2 ^ 31

theorem bit_le_one (b : Bool) : bit b ≤ 1 := by cases b <;> decide

/-- The fields of the second log word. -/
theorem defLogWord_fields (hm : m < 16) :
    bitsOf (defLogWord addr m write iso hxl) 8 4 = m ∧ bitsOf (defLogWord addr m write iso hxl) 13 1 = bit iso ∧
      bitsOf (defLogWord addr m write iso hxl) 31 1 = 1 := by
  have hw := bit_le_one write
  have hi := bit_le_one iso
  have hx := bit_le_one hxl
  simp only [bitsOf, defLogWord, Nat.shiftRight_eq_div_pow]
  omega

/-- The count of a refused access leaves the log alone. -/
theorem State.flag_cnt_mtxCnt : (s.cnt (Reg.mtxCnt 0)).flag F.mtxDefLog1V = s.flag F.mtxDefLog1V := by
  have hne : F.mtxDefLog1V.addr ≠ Reg.mtxCnt 0 := by decide
  simp only [State.flag, State.fget, State.cnt, State.rd_wr_ne hne]

/-- While an access is logged, a refused one is only counted. -/
theorem State.defAccess_of_logged (h : s.flag F.mtxDefLog1V = true) :
    s.defAccess addr m write iso hxl = s.cnt (Reg.mtxCnt 0) := by
  simp [State.defAccess, State.flag_cnt_mtxCnt, h]

/-- While no access is logged, a refused one is counted and logged. -/
theorem State.defAccess_of_unlogged (h : s.flag F.mtxDefLog1V = false) :
    s.defAccess addr m write iso hxl = ((s.cnt (Reg.mtxCnt 0)).wr Reg.mtxDefLog0 (addr % 2 ^ 32)).wr Reg.mtxDefLog1
      (defLogWord addr m write iso hxl) := by
  simp only [State.defAccess, State.flag_cnt_mtxCnt, h, cond_false, defLogWord]

/-- A refused access changes its count and its log only. -/
theorem State.defAccess_onlyWords :
    OnlyWords [Reg.mtxCnt 0, Reg.mtxDefLog0, Reg.mtxDefLog1] s (s.defAccess addr m write iso hxl) := by
  have hcnt : OnlyWords [Reg.mtxCnt 0, Reg.mtxDefLog0, Reg.mtxDefLog1] s (s.cnt (Reg.mtxCnt 0)) :=
    OnlyWords.refl.wr (by decide) _
  exact OnlyWords.cond hcnt ((hcnt.wr (by decide) _).wr (by decide) _)

/-- A refused access counts one in DEF_ACCESS. -/
theorem State.rd_defAccess_mtxCnt :
    (s.defAccess addr m write iso hxl).rd (Reg.mtxCnt 0) = (s.rd (Reg.mtxCnt 0) + 1) % 2 ^ 32 := by
  have himpl : implOf (Reg.mtxCnt 0) = 2 ^ 32 - 1 := by decide +kernel
  have hcnt : (s.cnt (Reg.mtxCnt 0)).rd (Reg.mtxCnt 0) = (s.rd (Reg.mtxCnt 0) + 1) % 2 ^ 32 := by
    rw [State.cnt, State.rd_wr_full himpl, Nat.mod_mod]
  cases hv : s.flag F.mtxDefLog1V
  · rw [State.defAccess_of_unlogged (h := hv), State.rd_wr_ne (by decide), State.rd_wr_ne (by decide), hcnt]
  · rw [State.defAccess_of_logged (h := hv), hcnt]

/-- The first refused access is logged: its address, its master, and whether a gate answered. -/
theorem State.defAccess_logs (h : s.flag F.mtxDefLog1V = false) (hm : m < 16) :
    (s.defAccess addr m write iso hxl).rd Reg.mtxDefLog0 = addr % 2 ^ 32 ∧
      (s.defAccess addr m write iso hxl).fget F.mtxDefLog1Master = m ∧
      (s.defAccess addr m write iso hxl).flag F.mtxDefLog1V = true ∧
      (s.defAccess addr m write iso hxl).flag F.mtxDefLog1Iso = iso := by
  obtain ⟨hmaster, hiso, hvalid⟩ := defLogWord_fields addr m write iso hxl hm
  have himpl : implOf Reg.mtxDefLog0 = 2 ^ 32 - 1 := by decide +kernel
  have hheld : Fld.held F.mtxDefLog1Master = true ∧ Fld.held F.mtxDefLog1Iso = true ∧ Fld.held F.mtxDefLog1V = true := by
    decide +kernel
  obtain ⟨hheldM, hheldI, hheldV⟩ := hheld
  rw [s.defAccess_of_unlogged addr m write iso hxl h]
  refine ⟨?_, ?_, ?_, ?_⟩
  · rw [State.rd_wr_ne (by decide), State.rd_wr_full himpl, Nat.mod_mod]
  · exact (State.fget_wr_self hheldM _ _).trans hmaster
  · exact (State.flag_wr_self hheldV _ _).trans (beq_iff_eq.mpr hvalid)
  · refine (State.flag_wr_self hheldI _ _).trans ((congrArg (· == 1) hiso).trans ?_)
    cases iso <;> rfl

/-- While PD47 is READY, what DEF or a gate answers is counted and logged, and ends the steps of the sequencer. -/
theorem State.refuse_of_ready (h : s.ready 47 = true) :
    s.refuse m addr write iso = (s.defAccess addr m write iso false).when (m == 8) (·.seqError addr) :=
  State.when_true h s _

end DefAccess

/-! ### Writes that DEF or a gate answers -/

/-- A refused write: its target grants it, it is counted and logged, and the error flag ends the sequencer's steps. -/
theorem State.regWrite_of_refused {s : State} {q : Requester} {a : Nat} (hi : s.issues q = true)
    (hg : s.gateOf (masterOf q) a ≠ .open') (hr : s.ready 47 = true) (v be : Nat) :
    s.regWrite q a v be
      = ((s.granting (masterOf q) (targetOfWord a)).defAccess (bar0Base + a) (masterOf q) true
          (decide (s.gateOf (masterOf q) a = .shut)) false).when (masterOf q == 8) (·.seqError (bar0Base + a)) := by
  have hready : (s.granting (masterOf q) (targetOfWord a)).ready 47 = true :=
    (s.granting_keeps _ _ (·.ready 47) fun _ => rfl).trans hr
  rw [State.regWrite, State.when_true hi, State.busWrite, State.granting_gateOf]
  cases hgate : s.gateOf (masterOf q) a with
  | open' => exact absurd hgate hg
  | def' => exact State.refuse_of_ready (h := hready) ..
  | shut => exact State.refuse_of_ready (h := hready) ..

/-- The sequencer alone is master 8 (Table 14.1). -/
theorem masterOf_ne {q : Requester} (h : q ≠ .sequencer) : (masterOf q == 8) = false := by
  cases q with
  | sequencer => exact absurd rfl h
  | _ => rfl

theorem masterOf_lt (q : Requester) : masterOf q < 16 := by cases q <;> decide

/-- Settles O11: a refused write is the count and the log of DEF on the granted state, which reads every word as before. -/
theorem refusedAccessesAreCountedAndLogged : Obligations.RefusedAccessesAreCountedAndLogged := by
  intro s q a v be hi hg hr
  have hwrite := State.regWrite_of_refused hi hg hr v be
  refine ⟨fun hq => ?_, ?_⟩
  · let g := s.granting (masterOf q) (targetOfWord a)
    let iso := decide (s.gateOf (masterOf q) a = .shut)
    have hflag : g.flag F.mtxDefLog1V = s.flag F.mtxDefLog1V := by
      simp only [g, State.flag, State.fget, State.granting_rd]
    have honly := g.defAccess_onlyWords (bar0Base + a) (masterOf q) true iso false
    have hshed : s.resumed (g.defAccess (bar0Base + a) (masterOf q) true iso false)
        = g.defAccess (bar0Base + a) (masterOf q) true iso false :=
      State.resumed_of_shed ((honly.fget (by decide)).trans (State.fget_eq_of_regs (s.granting_regs _ _) _))
    rw [State.when_false (masterOf_ne hq)] at hwrite
    refine ⟨_, by rw [exec_write_bar0, hwrite, hshed], honly, ?_, fun hlogged => ?_, fun hfree => ?_⟩
    · rw [State.rd_defAccess_mtxCnt, State.granting_rd]
    · rw [State.defAccess_of_logged (h := hflag.trans hlogged)]
      exact OnlyWords.refl.wr (List.mem_singleton.mpr rfl) _
    · exact g.defAccess_logs _ _ _ _ _ (hflag.trans hfree) (masterOf_lt q)
  · rintro rfl hdef
    have hdef' : s.gateOf (masterOf .sequencer) a = .def' := hdef
    rw [exec_write_bar0, hwrite, hdef', State.when_true (b := masterOf .sequencer == 8) rfl]
    rfl

end Sys2Proof.Machine
end

section
/-! SUPPORT. Frames that leave a port, and verification (R28, R109, R123, R125, R161, R162): what is taken from the
frames on their way, what a selection point chooses, and the statement of 01_architecture.md on them. -/

namespace Sys2Proof.Machine

/-! ### The record of a port -/

theorem State.mac_setMac_self (s : State) (p : Nat) (x : MacPort) : (s.setMac p x).mac p = x :=
  Table.get_put_self _ _ _ _

theorem State.setMac_setMac (s : State) (p : Nat) (x y : MacPort) : (s.setMac p x).setMac p y = s.setMac p y := by
  simp only [State.setMac, Table.put_put]

/-! ### A frame taken for the class queues (R116, R162) -/

section TakeComing

variable {s : State} {p : Nat} {f : TxFrame} {r : List TxFrame}

/-- A frame of the Spine or a PTP frame is no host frame, and no pass-through copy. -/
theorem source_of_device (hf : f.source = 1 ∨ f.source = 2) : (f.source == 0) = false ∧ (f.source != 3) = true := by
  rcases hf with h | h <;> simp [h]

/-- A control frame of a host ring is dropped. -/
theorem State.takeComing_control (hc : (s.mac p).coming = f :: r) (hf : f.source = 0)
    (he : etherType (s.tpid2 p) f.bytes = 0x8808) :
    s.takeComing p = (s.setMac p { s.mac p with coming := r }).dropFrame p 47 4 f := by
  simp [State.takeComing, hc, hf, he]

/-- A frame of the device that is too long is dropped. -/
theorem State.takeComing_long (hc : (s.mac p).coming = f :: r) (hf : f.source = 1 ∨ f.source = 2)
    (hl : s.fget (F.macMaxfMaxFrame p) < s.frameLen p f) :
    s.takeComing p = (s.setMac p { s.mac p with coming := r }).dropFrame p 45 3 f := by
  obtain ⟨hhost, hpass⟩ := source_of_device hf
  simp only [State.takeComing, hc, hhost, hpass, Nat.blt_eq.mpr hl, Bool.false_and, Bool.true_and, cond_false, cond_true]

/-- A frame of the device that fits joins its queue. -/
theorem State.takeComing_queued (hc : (s.mac p).coming = f :: r) (hf : f.source = 1 ∨ f.source = 2)
    (hl : s.frameLen p f ≤ s.fget (F.macMaxfMaxFrame p)) :
    s.takeComing p = s.setMac p { s.mac p with coming := r, queue := (s.mac p).queue ++ [f] } := by
  obtain ⟨hhost, -⟩ := source_of_device hf
  have hfits : Nat.blt (s.fget (F.macMaxfMaxFrame p)) (s.frameLen p f) = false := by
    rw [Bool.eq_false_iff, ne_eq, Nat.blt_eq]
    exact Nat.not_lt.mpr hl
  simp only [State.takeComing, hc, hhost, hfits, Bool.false_and, Bool.and_false, cond_false, State.when_false,
    State.mac_setMac_self, State.setMac_setMac]

end TakeComing

/-! ### The end of a frame and the selection point (R161, R225) -/

section Selection

variable {s : State} {p : Nat}

/-- A line without a frame has none to end. -/
theorem State.txDone_of_idle (h : (s.mac p).tx = none) (pcs : Nat) : s.txDone p pcs = s := by
  simp only [State.txDone, h]

/-- A fragment that is due to end, and a copy that still arrives, have not ended. -/
theorem State.txDone_of_unfinished {x : TxProg} (h : (s.mac p).tx = some x)
    (hx : x.cutAt.isSome = true ∨ x.frame.arriving = true) (pcs : Nat) : s.txDone p pcs = s := by
  have hwait : (x.cutAt.isSome || x.frame.arriving) = true := (Bool.or_eq_true _ _).mpr hx
  simp only [State.txDone, h, hwait, cond_true]

/-- A frame on the line that is not cut keeps the line. -/
theorem State.selection_of_busy {x : TxProg} (h : (s.mac p).tx = some x) (hx : x.cutAt = none) :
    s.selection p = s := by
  simp [State.selection, h, hx]

/-- A port of an isolated quadrant, or in remote loop, sends nothing. -/
theorem State.selection_of_silent (h : (s.mac p).tx = none)
    (hs : s.iso (p / 36) = true ∨ s.fget (F.pcsCtlLoop p) = 2) : s.selection p = s := by
  rcases hs with hiso | hloop
  · simp [State.selection, h, hiso]
  · simp [State.selection, h, hloop]

section FreeLine

variable (h : (s.mac p).tx = none) (hiso : s.iso (p / 36) = false) (hloop : s.fget (F.pcsCtlLoop p) ≠ 2)

include hiso hloop in
/-- Outside isolation and remote loop an enabled port that is UP may send mPackets. -/
theorem State.sendsMpacket_of_txUp (hup : s.txUp p = true) : s.sendsMpacket p = true := by
  simp [State.sendsMpacket, hup, hiso, hloop]

include h hiso hloop

/-- On a free line of a port that may send, what is owed goes first (R125). -/
theorem State.selection_of_free :
    s.selection p = bif (s.mac p).verifyDue && s.sendsMpacket p then s.sendVerify p
      else bif Nat.blt 0 (s.mac p).respondDue && s.sendsMpacket p then s.sendRespond p else s.choose p := by
  simp [State.selection, h, hiso, beq_eq_false_iff_ne.mpr hloop]

theorem State.selection_verify (hv : (s.mac p).verifyDue = true) (hup : s.txUp p = true) :
    s.selection p = s.sendVerify p := by
  rw [State.selection_of_free h hiso hloop, hv, State.sendsMpacket_of_txUp hiso hloop hup, Bool.and_self, cond_true]

theorem State.selection_respond (hv : (s.mac p).verifyDue = false) (hr : 0 < (s.mac p).respondDue)
    (hup : s.txUp p = true) : s.selection p = s.sendRespond p := by
  rw [State.selection_of_free h hiso hloop, hv, State.sendsMpacket_of_txUp hiso hloop hup, Nat.blt_eq.mpr hr,
    Bool.false_and, Bool.and_self, cond_false, cond_true]

theorem State.selection_choose (hv : (s.mac p).verifyDue = false) (hr : (s.mac p).respondDue = 0) :
    s.selection p = s.choose p := by
  have hnone : Nat.blt 0 0 = false := rfl
  simp only [State.selection_of_free h hiso hloop, hv, hr, hnone, Bool.false_and, cond_false]

end FreeLine

end Selection

/-! ### Verification (R125) -/

/-- A half-range event that sets bits of a register leaves every other word. -/
theorem State.rd_halfRange_ne {a b : Nat} (h : b ≠ a) (s : State) (m : Nat) :
    (s.halfRange (.bits a m)).rd b = s.rd b := by
  unfold State.halfRange
  cases s.fget (F.hscMarginShed (hrUnit (.bits a m))) == 0
  · rfl
  · exact State.rd_wr_ne h _ _

/-- A MAC counter counts in its two words and marks half range in MAC_HR; no other word changes. -/
theorem State.rd_macCount_ne {p n b : Nat} (hlo : b ≠ Reg.macCnt p n) (hhi : b ≠ Reg.macCnt p n + 4)
    (hr0 : b ≠ Reg.macHr0 p) (hr1 : b ≠ Reg.macHr1 p) (s : State) (k : Nat) : (s.macCount p n k).rd b = s.rd b := by
  have hadd : (s.wideAdd (Reg.macCnt p n) (macCntWidth n) k).rd b = s.rd b :=
    (State.rd_wr_ne hhi _ _).trans (State.rd_wr_ne hlo _ _)
  have hhr : b ≠ bif Nat.blt n 32 then Reg.macHr0 p else Reg.macHr1 p := by
    cases Nat.blt n 32
    · exact hr1
    · exact hr0
  unfold State.macCount State.countWide State.when
  cases s.wideCrosses (Reg.macCnt p n) (macCntWidth n) k
  · exact hadd
  · exact (State.rd_halfRange_ne hhr _ _).trans hadd

/-- Counting at a port leaves its pre-emption registers. -/
theorem State.macCount_keeps_preemption (s : State) (p n k : Nat) :
    (s.macCount p n k).flag (F.macPeCtlPeEn p) = s.flag (F.macPeCtlPeEn p) ∧
      (s.macCount p n k).fget (F.macPeStsVstate p) = s.fget (F.macPeStsVstate p) := by
  have hctl : (s.macCount p n k).rd (Reg.macPeCtl p) = s.rd (Reg.macPeCtl p) := by
    apply State.rd_macCount_ne <;> simp only [Reg.macPeCtl, Reg.macCnt, Reg.macHr0, Reg.macHr1] <;> omega
  have hsts : (s.macCount p n k).rd (Reg.macPeSts p) = s.rd (Reg.macPeSts p) := by
    apply State.rd_macCount_ne <;> simp only [Reg.macPeSts, Reg.macCnt, Reg.macHr0, Reg.macHr1] <;> omega
  simp only [State.flag, State.fget, F.macPeCtlPeEn, F.macPeStsVstate, hctl, hsts, and_self]

section Verification

variable {s : State} {p : Nat}

/-- While VERIFYING, the timer's end sends or leaves due another verify mPacket, or gives up. -/
theorem exec_verifyTimerExpire_verifying (hr : s.ready (qDom (p / 36) 0) = true)
    (hv : s.fget (F.macPeStsVstate p) = 2) :
    exec (.verifyTimerExpire p) s
      = .next (bif Nat.blt (s.fget (F.macPeStsTries p)) (s.fget (F.macPeCtlVerifyLimit p)) then
          (bif s.sendsMpacket p then s.sendVerify p else s.setMac p { s.mac p with verifyDue := true })
        else s.setVerify p 4) := by
  rw [exec, execVerifyTimerExpire, State.atDom_ready hr, State.when_true (beq_iff_eq.mpr hv)]

theorem exec_verifyTimerExpire_other (hr : s.ready (qDom (p / 36) 0) = true)
    (hv : s.fget (F.macPeStsVstate p) ≠ 2) : exec (.verifyTimerExpire p) s = .next s := by
  rw [exec, execVerifyTimerExpire, State.atDom_ready hr, State.when_false (beq_eq_false_iff_ne.mpr hv)]

/-- A port that hears a verify mPacket counts it and, with PE_EN = 1, owes a respond mPacket. -/
theorem exec_verifyMpacketReceived (hm : s.macHears p = true) :
    exec (.verifyMpacketReceived p) s = .next ((s.macCount p 50 1).when ((s.macCount p 50 1).flag (F.macPeCtlPeEn p))
      fun u => u.setMac p { u.mac p with respondDue := (u.mac p).respondDue + 1 }) := by
  rw [exec, execVerifyMpacketReceived, State.when_true hm, (s.macCount_keeps_preemption p 50 1).1]

/-- A port that hears a respond mPacket counts it and ends VERIFYING in SUCCEEDED. -/
theorem exec_respondMpacketReceived (hm : s.macHears p = true) :
    exec (.respondMpacketReceived p) s = .next ((s.macCount p 52 1).when
      ((s.macCount p 52 1).fget (F.macPeStsVstate p) == 2) fun u => (u.setVerify p 3).refresh p) := by
  rw [exec, execRespondMpacketReceived, State.when_true hm, (s.macCount_keeps_preemption p 52 1).2]

/-- A port that hears nothing ignores both mPackets. -/
theorem exec_mpacketReceived_of_deaf (hm : s.macHears p = false) :
    exec (.verifyMpacketReceived p) s = .next s ∧ exec (.respondMpacketReceived p) s = .next s := by
  constructor
  · rw [exec, execVerifyMpacketReceived, State.when_false hm]
  · rw [exec, execRespondMpacketReceived, State.when_false hm]

end Verification

/-! ### The commands of a port's transmitter -/

/-- While the base domain is READY, each command is its operation on the port. -/
theorem exec_transmit_of_ready {s : State} {p : Nat} (hr : s.ready (qDom (p / 36) 0) = true) (pcs : Nat) :
    exec (.txFrameQueued p) s = .next ((s.oneSlot (fun u => ((u.takeComing p).dropTooBig p).refresh p)).hiddenWritten
      (8 * (p / 36) + 2) 0 (p % 36)) ∧
    exec (.txFrameDone p pcs) s = .next ((((s.shapersRead p).txRead p).oneSlot (·.txDone p pcs)).hiddenPass
      (8 * (p / 36) + 2) 2 (p % 36)) ∧
    exec (.selectionPoint p) s = .next ((s.shapersRead p).oneSlot (·.selection p)).reportReads ∧
    exec (.shaperCreditZero p) s = .next (s.refresh p) := by
  refine ⟨?_, ?_, ?_, ?_⟩
  · rw [exec, execTxFrameQueued, State.atDom_ready hr]
  · rw [exec, execTxFrameDone, State.atDom_ready hr]
  · rw [exec, execSelectionPoint, State.atDom_ready hr]
  · rw [exec, execShaperCreditZero, State.atDom_ready hr]

/-- In reset no command of a port's transmitter does anything. -/
theorem exec_transmit_of_reset {s : State} {p : Nat} (hr : s.ready (qDom (p / 36) 0) = false) (pcs : Nat) :
    exec (.txFrameQueued p) s = .next s ∧ exec (.txFrameDone p pcs) s = .next s ∧
      exec (.shaperCreditZero p) s = .next s ∧ exec (.selectionPoint p) s = .next s := by
  refine ⟨?_, ?_, ?_, ?_⟩
  · rw [exec, execTxFrameQueued, State.atDom_off hr]
  · rw [exec, execTxFrameDone, State.atDom_off hr]
  · rw [exec, execShaperCreditZero, State.atDom_off hr]
  · rw [exec, execSelectionPoint, State.atDom_off hr]

theorem exec_verifyTimerExpire_of_reset {s : State} {p : Nat} (hr : s.ready (qDom (p / 36) 0) = false) :
    exec (.verifyTimerExpire p) s = .next s := by
  rw [exec, execVerifyTimerExpire, State.atDom_off hr]

/-- Settles O33: each command by the state of its port, each selection by what the port owes. -/
theorem framesLeaveThePortAndVerify : Obligations.FramesLeaveThePortAndVerify := by
  refine ⟨⟨fun s p pcs hr => exec_transmit_of_ready hr pcs, ?_, fun s p pcs h => State.txDone_of_idle h pcs,
    fun s p pcs x h hx => State.txDone_of_unfinished h hx pcs, ?_, fun s p x => State.selection_of_busy,
    fun s p pcs hr => exec_transmit_of_reset hr pcs⟩, ?_, ?_,
    fun s p => ⟨exec_mpacketReceived_of_deaf, exec_verifyTimerExpire_of_reset⟩⟩
  · rintro s p f r hc u rfl
    exact ⟨State.takeComing_control hc, State.takeComing_long hc, State.takeComing_queued hc⟩
  · intro s p h
    refine ⟨State.selection_of_silent h, fun hiso hloop => ⟨State.selection_verify h hiso hloop, fun hv => ?_⟩⟩
    exact ⟨State.selection_respond h hiso hloop hv, State.selection_choose h hiso hloop hv⟩
  · refine fun s p hr => ⟨fun hv => ?_, exec_verifyTimerExpire_other hr⟩
    rw [exec_verifyTimerExpire_verifying hr hv]
    refine ⟨fun hlt => ?_, fun hge => ?_⟩
    · rw [Nat.blt_eq.mpr hlt, cond_true]
      exact ⟨fun hm => by rw [hm, cond_true], fun hm => by rw [hm, cond_false]⟩
    · have hlast : Nat.blt (s.fget (F.macPeStsTries p)) (s.fget (F.macPeCtlVerifyLimit p)) = false := by
        rw [Bool.eq_false_iff, ne_eq, Nat.blt_eq]
        exact Nat.not_lt.mpr hge
      rw [hlast, cond_false]
  · rintro s u v p hm rfl rfl
    rw [exec_verifyMpacketReceived hm, exec_respondMpacketReceived hm]
    refine ⟨fun hpe => ?_, fun hpe => ?_, fun hv => ?_, fun hv => ?_⟩
    · rw [State.when_true hpe]
    · rw [State.when_false hpe]
    · rw [State.when_true (beq_iff_eq.mpr hv)]
    · rw [State.when_false (beq_eq_false_iff_ne.mpr hv)]

end Sys2Proof.Machine
end

section
/-! SUPPORT. The handshake core (R40 to R60): the margins and the voltage code that follows them, the faults of
channels, and the statements of 02_handshake_core.md on them. -/

namespace Sys2Proof.Machine

/-! ### Folds that keep the least -/

section Least

variable {α : Type} (key : α → Nat)

/-- The one of two elements that has the lower key, the first where they agree. -/
def lowerBy (a b : α) : α := bif Nat.blt (key b) (key a) then b else a

theorem lowerBy_eq_or (a b : α) : lowerBy key a b = a ∨ lowerBy key a b = b := by
  unfold lowerBy
  cases Nat.blt (key b) (key a)
  · exact .inl rfl
  · exact .inr rfl

theorem key_lowerBy_le (a b : α) : key (lowerBy key a b) ≤ key a ∧ key (lowerBy key a b) ≤ key b := by
  unfold lowerBy
  cases h : Nat.blt (key b) (key a)
  · have hle : key a ≤ key b := Nat.not_lt.mp fun hlt => by rw [Nat.blt_eq.mpr hlt] at h; cases h
    exact ⟨Nat.le_refl _, hle⟩
  · exact ⟨Nat.le_of_lt (Nat.blt_eq.mp h), Nat.le_refl _⟩

/-- Keeping the lower of two along a list ends with an element of the list whose key is least. -/
theorem foldl_lowerBy_least (a : α) (l : List α) :
    l.foldl (lowerBy key) a ∈ a :: l ∧ ∀ y ∈ a :: l, key (l.foldl (lowerBy key) a) ≤ key y := by
  induction l generalizing a with
  | nil => simp
  | cons b l ih =>
    obtain ⟨hmem, hle⟩ := ih (lowerBy key a b)
    obtain ⟨ha, hb⟩ := key_lowerBy_le key a b
    have hhead := hle _ List.mem_cons_self
    refine ⟨?_, fun y hy => ?_⟩
    · rcases List.mem_cons.mp hmem with heq | htail
      · rw [List.foldl_cons, heq]
        rcases lowerBy_eq_or key a b with h | h <;> simp [h]
      · exact List.mem_cons_of_mem _ (List.mem_cons_of_mem _ htail)
    · rcases List.mem_cons.mp hy with rfl | hy
      · exact hhead.trans ha
      · rcases List.mem_cons.mp hy with rfl | hy
        · exact hhead.trans hb
        · exact hle y (List.mem_cons_of_mem _ hy)

/-- An element whose key is least is kept to the end. -/
theorem foldl_lowerBy_of_least {a : α} {l : List α} (h : ∀ x ∈ l, key a ≤ key x) :
    l.foldl (lowerBy key) a = a := by
  refine List.foldlRecOn l _ (motive := (· = a)) rfl ?_
  intro b hb x hx
  have hge : Nat.blt (key x) (key a) = false := by
    rw [Bool.eq_false_iff, ne_eq, Nat.blt_eq]
    exact Nat.not_lt.mpr (h x hx)
  rw [hb, lowerBy, hge, cond_false]

end Least

/-! ### Fields of the handshake registers -/

/-- A 16-bit field gives back an integer that fits in it. -/
theorem signedOf_encodeSigned {i : Int} (hlo : -32768 ≤ i) (hhi : i ≤ 32767) :
    signedOf (encodeSigned i 16 % 2 ^ 16) 16 = i := by
  simp only [signedOf, encodeSigned]
  norm_num
  split <;> omega

/-- The published margin fits in its field. -/
theorem marginOf_fits (period : Nat) (up : Bool) : -32768 ≤ marginOf period up ∧ marginOf period up ≤ 32767 := by
  simp only [marginOf, clampInt]
  split_ifs <;> omega

/-- Every bit of the fields of a unit's two margin words holds state. -/
theorem margin_fields_held : ∀ u < 6, Fld.held (F.hscMarginMargin u) = true ∧ Fld.held (F.hscMarginShed u) = true ∧
    Fld.held (F.hscMarginValid u) = true ∧ Fld.held (F.hscMarginMinMin u) = true := by decide +kernel

theorem vid_fields_held : Fld.held F.hscVidCode = true ∧ Fld.held F.hscVidFloor = true ∧
    Fld.held F.hscVidCeil = true ∧ Fld.held F.hscVidManual = true := by decide +kernel

theorem hscMargin_ne_hscMarginMin {u : Nat} (hu : u < 6) (v : Nat) : Reg.hscMargin u ≠ Reg.hscMarginMin v := by
  simp only [Reg.hscMargin, Reg.hscMarginMin]
  omega

theorem hscMargin_ne_hscVid (u : Nat) : Reg.hscMargin u ≠ Reg.hscVid := by
  simp only [Reg.hscMargin, Reg.hscVid]
  omega

theorem hscMarginMin_ne_hscVid (u : Nat) : Reg.hscMarginMin u ≠ Reg.hscVid := by
  simp only [Reg.hscMarginMin, Reg.hscVid]
  omega

/-- What reads one word only reads alike where the word is the same. -/
theorem State.fget_eq_of_rd {s t : State} {f : Fld} (h : t.rd f.addr = s.rd f.addr) : t.fget f = s.fget f := by
  simp only [State.fget, h]

theorem State.flag_eq_of_rd {s t : State} {f : Fld} (h : t.rd f.addr = s.rd f.addr) : t.flag f = s.flag f := by
  simp only [State.flag, State.fget_eq_of_rd h]

theorem State.margin_eq_of_rd {s t : State} {u : Nat} (h : t.rd (Reg.hscMargin u) = s.rd (Reg.hscMargin u)) :
    t.margin u = s.margin u := by simp only [State.margin, State.fget_eq_of_rd (f := F.hscMarginMargin u) h]

/-- A store changes its own word only. -/
theorem State.store_onlyWords (s : State) (a v : Nat) : OnlyWords [a] s (s.store a v) := by
  unfold State.store
  split
  · exact OnlyWords.refl.wr (List.mem_singleton.mpr rfl) _
  · exact OnlyWords.refl

/-! ### The lowest margin (R44) -/

/-- The lower of the lowest margin so far and unit `u`'s, where that is valid. -/
def State.lowerMargin (s : State) (m : Option Int) (u : Nat) : Option Int :=
  bif s.flag (F.hscMarginValid u) then
    (match m with
    | some x => some (min x (s.margin u))
    | none => some (s.margin u)) else m

theorem State.lowestMargin_eq_foldl (s : State) : s.lowestMargin = (List.range 6).foldl s.lowerMargin none := rfl

theorem State.lowerMargin_eq_none_iff {s : State} {m : Option Int} {u : Nat} :
    s.lowerMargin m u = none ↔ m = none ∧ s.flag (F.hscMarginValid u) = false := by
  unfold State.lowerMargin
  cases s.flag (F.hscMarginValid u) <;> cases m <;> simp

theorem State.foldl_lowerMargin_eq_none_iff {s : State} {l : List Nat} {m : Option Int} :
    l.foldl s.lowerMargin m = none ↔ m = none ∧ ∀ u ∈ l, s.flag (F.hscMarginValid u) = false := by
  induction l generalizing m with
  | nil => simp
  | cons u l ih => simp [ih, State.lowerMargin_eq_none_iff, and_assoc]

/-- There is a lowest margin as soon as one unit's is valid. -/
theorem State.lowestMargin_eq_none_iff {s : State} :
    s.lowestMargin = none ↔ ∀ u < 6, s.flag (F.hscMarginValid u) = false := by
  simp [State.lowestMargin_eq_foldl, State.foldl_lowerMargin_eq_none_iff]

/-- The lowest margin is read from the six margin words. -/
theorem State.lowestMargin_eq_of_rd {s t : State} (h : ∀ u < 6, t.rd (Reg.hscMargin u) = s.rd (Reg.hscMargin u)) :
    t.lowestMargin = s.lowestMargin := by
  rw [State.lowestMargin_eq_foldl, State.lowestMargin_eq_foldl]
  refine List.foldl_ext _ _ _ fun m u hu => ?_
  have hw := h u (List.mem_range.mp hu)
  simp only [State.lowerMargin, State.flag_eq_of_rd (f := F.hscMarginValid u) hw, State.margin_eq_of_rd hw]

/-! ### The voltage code (R44, R45, R454) -/

section Vid

variable (s : State)

theorem State.vidLimit_lt (n : Nat) : s.vidLimit n < 64 :=
  Nat.lt_of_le_of_lt (Nat.min_le_left _ _) (s.fget_lt F.hscVidCeil)

/-- Driving a code changes no word but HSC_VID. -/
theorem State.rd_driveVid_ne {a : Nat} (ha : a ≠ Reg.hscVid) (n : Nat) : (s.driveVid n).rd a = s.rd a :=
  State.rd_fput_ne (f := F.hscVidCode) ha s n

/-- Driving a code leaves the rest of HSC_VID. -/
theorem State.fget_driveVid_other {g : Fld} (hg : Fld.held g = true) (ha : g.addr = Reg.hscVid) (hlo : 6 ≤ g.lo)
    (n : Nat) : (s.driveVid n).fget g = s.fget g :=
  State.fget_fput_other (f := F.hscVidCode) hg ha (.inr hlo) s n

/-- A code is driven: CODE holds it, the pins show it, and MANUAL is as before. -/
theorem State.driveVid_drives {n : Nat} (hn : n < 64) :
    (s.driveVid n).fget F.hscVidCode = n ∧ (s.driveVid n).fget F.hscVidManual = s.fget F.hscVidManual ∧
      Table.get 0 Pin.vid (s.driveVid n).pins = (s.driveVid n).fget F.hscVidCode + 1 := by
  obtain ⟨hcode, -, -, hmanual⟩ := vid_fields_held
  have hn : (s.driveVid n).fget F.hscVidCode = n := (State.fget_fput_self hcode s n).trans (Nat.mod_eq_of_lt hn)
  refine ⟨hn, s.fget_driveVid_other hmanual rfl (by decide) n, ?_⟩
  rw [hn]
  exact Table.get_put_self 0 (n + 1) Pin.vid s.pins

/-- Driving a code changes HSC_VID and the pins. -/
theorem OnlyWords.driveVid {l : List Nat} {s t : State} {pins : Table Nat}
    (h : OnlyWords l { s with pins := pins } t) (hl : Reg.hscVid ∈ l) (n : Nat) :
    OnlyWords l { s with pins := (t.driveVid n).pins } (t.driveVid n) := by
  obtain ⟨hrest, hwords⟩ := h.fput (f := F.hscVidCode) hl n
  exact ⟨congrArg (fun v : State => { v with pins := (t.driveVid n).pins }) hrest, hwords⟩

/-- The code that VID shows (R44, R45): the present one within its limits, or MANUAL. -/
def State.vidShown : Nat :=
  bif s.flag F.hscSlkCtlAutoVid then s.vidLimit (s.fget F.hscVidCode) else s.fget F.hscVidManual

theorem State.vidShown_eq : s.vidShown = if s.flag F.hscSlkCtlAutoVid
    then min (s.fget F.hscVidCeil) (max (s.fget F.hscVidFloor) (s.fget F.hscVidCode)) else s.fget F.hscVidManual :=
  Bool.cond_eq_ite _ _ _

theorem State.vidShown_lt : s.vidShown < 64 := by
  unfold State.vidShown
  cases s.flag F.hscSlkCtlAutoVid
  · exact s.fget_lt F.hscVidManual
  · exact s.vidLimit_lt _

/-- The shown code is read from HSC_SLK_CTL and HSC_VID. -/
theorem State.vidShown_eq_of_rd {s t : State} (hc : t.rd Reg.hscSlkCtl = s.rd Reg.hscSlkCtl)
    (hv : t.rd Reg.hscVid = s.rd Reg.hscVid) : t.vidShown = s.vidShown := by
  rw [State.vidShown, State.vidShown, State.vidLimit, State.vidLimit, State.flag_eq_of_rd (f := F.hscSlkCtlAutoVid) hc,
    State.fget_eq_of_rd (f := F.hscVidCode) hv, State.fget_eq_of_rd (f := F.hscVidFloor) hv,
    State.fget_eq_of_rd (f := F.hscVidCeil) hv, State.fget_eq_of_rd (f := F.hscVidManual) hv]

/-- Before the first valid margin VID stays. -/
theorem State.showVid_of_none (h : s.lowestMargin = none) : s.showVid = s :=
  State.when_false (by rw [h]; rfl) s _

theorem State.showVid_of_valid (h : s.lowestMargin ≠ none) : s.showVid = s.driveVid s.vidShown :=
  State.when_true (Option.isSome_iff_ne_none.mpr h) s _

/-- VID shows its code, with MANUAL as before. -/
theorem State.showVid_drives (h : s.lowestMargin ≠ none) :
    s.showVid.fget F.hscVidCode = s.vidShown ∧ s.showVid.fget F.hscVidManual = s.fget F.hscVidManual ∧
      Table.get 0 Pin.vid s.showVid.pins = s.showVid.fget F.hscVidCode + 1 := by
  rw [s.showVid_of_valid h]
  exact s.driveVid_drives s.vidShown_lt

/-- Showing the code changes HSC_VID and the pins. -/
theorem OnlyWords.showVid {l : List Nat} {s t : State} (h : OnlyWords l s t) (hl : Reg.hscVid ∈ l) :
    OnlyWords l { s with pins := t.showVid.pins } t.showVid := by
  have hpins : t.pins = s.pins := by
    obtain ⟨hrest, -⟩ := h
    rw [← hrest]
  by_cases hnone : t.lowestMargin = none
  · rw [t.showVid_of_none hnone, hpins]
    exact h
  · rw [t.showVid_of_valid hnone]
    exact OnlyWords.driveVid (pins := s.pins) h hl _

/-- Showing the code changes no word but HSC_VID. -/
theorem State.rd_showVid_ne {a : Nat} (ha : a ≠ Reg.hscVid) : s.showVid.rd a = s.rd a := by
  unfold State.showVid State.when
  cases s.lowestMargin.isSome
  · rfl
  · exact s.rd_driveVid_ne ha _

end Vid

/-! ### Margin measurements (R42) -/

section Measurement

/-- HSC_MARGIN_u after a measurement of `m`. -/
def State.withMargin (s : State) (u : Nat) (m : Int) : State :=
  (s.fput (F.hscMarginMargin u) (encodeSigned m 16)).fset (F.hscMarginValid u) (s.unitPowered u)

/-- The two margin words of unit `u` after a measurement of `m`, before VID follows. -/
def State.published (s : State) (u : Nat) (m : Int) : State :=
  (s.withMargin u m).when (decide (m < signedOf ((s.withMargin u m).fget (F.hscMarginMinMin u)) 16))
    (·.fput (F.hscMarginMinMin u) (encodeSigned m 16))

/-- A measurement publishes the margin; where none was valid before, VID may follow its fields. -/
theorem State.measure_of_ready {s : State} {u : Nat} (h : s.reportsFor u = true) (period : Nat) :
    s.measure u period
      = (s.useFree.published u (marginOf period s.freeChoice)).when s.lowestMargin.isNone (·.showVid) := by
  rw [State.measure, h]
  rfl

theorem State.measure_of_off {s : State} {u : Nat} (h : s.reportsFor u = false) (period : Nat) :
    s.measure u period = s := by
  rw [State.measure, h]
  rfl

variable (s : State) {u : Nat} {m : Int}

theorem State.published_onlyWords : OnlyWords [Reg.hscMargin u, Reg.hscMarginMin u] s (s.published u m) := by
  have hshown : OnlyWords [Reg.hscMargin u, Reg.hscMarginMin u] s (s.withMargin u m) :=
    (OnlyWords.refl.fput (by simp [F.hscMarginMargin]) _).fset (by simp [F.hscMarginValid]) _
  exact hshown.when (hshown.fput (by simp [F.hscMarginMinMin]) _)

/-- The registers below the margin words are as before. -/
theorem State.rd_published_below {a : Nat} (ha : a < 0x810) : (s.published u m).rd a = s.rd a := by
  refine s.published_onlyWords.rd ?_
  simp only [Reg.hscMargin, Reg.hscMarginMin, List.mem_cons, List.not_mem_nil, or_false]
  omega

/-- Of the words besides HSC_MARGIN_MIN_u, what is published is HSC_MARGIN_u. -/
theorem State.rd_published_ne {a : Nat} (ha : a ≠ Reg.hscMarginMin u) :
    (s.published u m).rd a = (s.withMargin u m).rd a := by
  unfold State.published State.when
  cases decide (m < signedOf ((s.withMargin u m).fget (F.hscMarginMinMin u)) 16)
  · rfl
  · exact State.rd_fput_ne (f := F.hscMarginMinMin u) ha _ _

variable (hu : u < 6)
include hu

theorem State.published_valid : (s.published u m).flag (F.hscMarginValid u) = s.unitPowered u := by
  obtain ⟨-, -, hvalid, -⟩ := margin_fields_held u hu
  rw [State.flag_eq_of_rd (f := F.hscMarginValid u) (s.rd_published_ne (hscMargin_ne_hscMarginMin hu u))]
  exact State.flag_fset_self hvalid rfl _ _

theorem State.published_shed : (s.published u m).fget (F.hscMarginShed u) = s.fget (F.hscMarginShed u) := by
  obtain ⟨-, hshed, -, -⟩ := margin_fields_held u hu
  rw [State.fget_eq_of_rd (f := F.hscMarginShed u) (s.rd_published_ne (hscMargin_ne_hscMarginMin hu u))]
  exact (State.fget_fput_other (f := F.hscMarginValid u) hshed rfl (.inl (Nat.le_of_ble_eq_true rfl)) _ _).trans
    (State.fget_fput_other (f := F.hscMarginMargin u) hshed rfl (.inr (Nat.le_of_ble_eq_true rfl)) _ _)

/-- The first valid margin is the unit's own. -/
theorem State.published_lowestMargin_eq_none_iff (h : s.lowestMargin = none) :
    (s.published u m).lowestMargin = none ↔ s.unitPowered u = false := by
  rw [State.lowestMargin_eq_none_iff] at h ⊢
  refine ⟨fun hnone => (s.published_valid hu).symm.trans (hnone u hu), fun hoff v hv => ?_⟩
  by_cases hvu : v = u
  · rw [hvu, s.published_valid hu, hoff]
  · have hword : (s.published u m).rd (Reg.hscMargin v) = s.rd (Reg.hscMargin v) := by
      refine s.published_onlyWords.rd ?_
      have hmin := hscMargin_ne_hscMarginMin hv u
      simp only [Reg.hscMargin, Reg.hscMarginMin, List.mem_cons, List.not_mem_nil, or_false, not_or] at hmin ⊢
      omega
    rw [State.flag_eq_of_rd (f := F.hscMarginValid v) hword]
    exact h v hv

variable (hlo : -32768 ≤ m) (hhi : m ≤ 32767)
include hlo hhi

theorem State.published_margin : (s.published u m).margin u = m := by
  obtain ⟨hmargin, -, -, -⟩ := margin_fields_held u hu
  rw [State.margin_eq_of_rd (s.rd_published_ne (hscMargin_ne_hscMarginMin hu u)), State.margin, State.withMargin,
    State.fset, State.fget_fput_other (f := F.hscMarginValid u) hmargin rfl (.inl (Nat.le_of_ble_eq_true rfl)),
    State.fget_fput_self hmargin]
  exact signedOf_encodeSigned hlo hhi

/-- HSC_MARGIN_MIN_u keeps the lower of itself and the margin. -/
theorem State.published_min : signedOf ((s.published u m).fget (F.hscMarginMinMin u)) 16
    = min (signedOf (s.fget (F.hscMarginMinMin u)) 16) m := by
  obtain ⟨-, -, -, hmin⟩ := margin_fields_held u hu
  have hkept : (s.withMargin u m).fget (F.hscMarginMinMin u) = s.fget (F.hscMarginMinMin u) := by
    have hne : (F.hscMarginMinMin u).addr ≠ Reg.hscMargin u := (hscMargin_ne_hscMarginMin hu u).symm
    exact (State.fget_fput_ne (f := F.hscMarginValid u) hne _ _).trans
      (State.fget_fput_ne (f := F.hscMarginMargin u) hne _ _)
  rw [State.published, hkept]
  by_cases hlow : m < signedOf (s.fget (F.hscMarginMinMin u)) 16
  · rw [State.when_true (decide_eq_true hlow), State.fget_fput_self hmin, min_eq_right hlow.le]
    exact signedOf_encodeSigned hlo hhi
  · rw [State.when_false (decide_eq_false hlow), hkept, min_eq_left (not_lt.mp hlow)]

end Measurement

/-- Settles O14: the margin words are published first, and VID follows where the margin is the first valid one. -/
theorem measurementPublishesTheMargin : Obligations.MeasurementPublishesTheMargin := by
  intro s u period hu
  refine ⟨fun hr => ?_, fun hr => congrArg Host.Outcome.next (State.measure_of_off hr period)⟩
  obtain ⟨hlo, hhi⟩ := marginOf_fits period s.freeChoice
  have honly := s.useFree.published_onlyWords (u := u) (m := marginOf period s.freeChoice)
  have hvalid := s.useFree.published_valid (m := marginOf period s.freeChoice) hu
  have hshed := s.useFree.published_shed (m := marginOf period s.freeChoice) hu
  have hnone := s.useFree.published_lowestMargin_eq_none_iff (m := marginOf period s.freeChoice) hu
  have hmargin := s.useFree.published_margin hu hlo hhi
  have hmin := s.useFree.published_min hu hlo hhi
  let p := s.useFree.published u (marginOf period s.freeChoice)
  have hword : ∀ a, a ≠ Reg.hscVid → (p.when s.lowestMargin.isNone (·.showVid)).rd a = p.rd a := by
    intro a ha
    cases s.lowestMargin.isNone
    · rfl
    · exact p.rd_showVid_ne ha
  have hshown := hword _ (hscMargin_ne_hscVid u)
  refine ⟨_, congrArg Host.Outcome.next (State.measure_of_ready hr period), ⟨s.freeChoice, ?_, ?_, ?_, ?_⟩,
    fun hstays => ?_, fun hpow hfirst => ?_⟩
  · exact (State.margin_eq_of_rd hshown).trans hmargin
  · exact (State.flag_eq_of_rd (f := F.hscMarginValid u) hshown).trans hvalid
  · exact (State.fget_eq_of_rd (f := F.hscMarginShed u) hshown).trans hshed
  · rw [State.fget_eq_of_rd (f := F.hscMarginMinMin u) (hword _ (hscMarginMin_ne_hscVid u))]
    exact hmin
  · have hsame : p.when s.lowestMargin.isNone (·.showVid) = p := by
      by_cases hfirst : s.lowestMargin = none
      · have hoff : s.unitPowered u = false := hstays.resolve_right fun h => h hfirst
        rw [hfirst]
        exact p.showVid_of_none ((hnone hfirst).mpr hoff)
      · exact State.when_false (Option.isNone_eq_false_iff.mpr (Option.isSome_iff_ne_none.mpr hfirst)) p _
    rw [hsame]
    exact honly
  · have hvalidNow : p.lowestMargin ≠ none := fun h => by
      rw [show s.unitPowered u = false from (hnone hfirst).mp h] at hpow
      exact Bool.false_ne_true hpow
    have hfields : p.vidShown = s.vidShown := State.vidShown_eq_of_rd
      (State.rd_published_below _ (by decide)) (State.rd_published_below _ (by decide))
    obtain ⟨hcode, hmanual, hpin⟩ := p.showVid_drives hvalidNow
    rw [State.when_true (by rw [hfirst]; rfl)]
    exact ⟨(honly.mono fun a ha => List.mem_append_left [Reg.hscVid] ha).showVid (by simp),
      hcode.trans (hfields.trans s.vidShown_eq),
      hmanual.trans (State.fget_eq_of_rd (State.rd_published_below _ (by decide))), hpin⟩

/-! ### VID_RAISE and VID_LOWER (R44, R45) -/

theorem State.vidLower_of_margin {s : State} {m : Int} (h : s.lowestMargin = some m) :
    s.vidLower = s.when (s.flag F.hscSlkCtlAutoVid && decide (10 * (s.fget F.hscSlkCtlMLower : Int) < m))
      fun t => t.driveVid (t.vidLimit (t.fget F.hscVidCode - 1)) := by
  simp only [State.vidLower, h]
  rfl

theorem State.vidRaise_of_margin {s : State} {m : Int} (h : s.lowestMargin = some m) :
    s.vidRaise = s.when (s.flag F.hscSlkCtlAutoVid && decide (m < 10 * (s.fget F.hscSlkCtlMRaise : Int)))
      fun t => (t.driveVid (t.vidLimit (t.fget F.hscVidCode + 2))).when
        ((t.driveVid (t.vidLimit (t.fget F.hscVidCode + 2))).fget F.hscVidCode
          == (t.driveVid (t.vidLimit (t.fget F.hscVidCode + 2))).fget F.hscVidCeil) (·.corrected 53 0) := by
  simp only [State.vidRaise, h]
  rfl

/-- Without a valid margin, or with AUTO_VID = 0, VID neither rises nor falls. -/
theorem State.vid_of_manual {s : State} (h : s.lowestMargin = none ∨ s.flag F.hscSlkCtlAutoVid = false) :
    s.vidRaise = s ∧ s.vidLower = s := by
  cases hm : s.lowestMargin with
  | none => simp only [State.vidRaise, State.vidLower, hm, and_self]
  | some m =>
    have hmanual : s.flag F.hscSlkCtlAutoVid = false := h.resolve_left (by simp [hm])
    rw [State.vidRaise_of_margin hm, State.vidLower_of_margin hm, hmanual]
    exact ⟨rfl, rfl⟩

/-- Settles O15: on each side of its threshold the command drives the limited code, or nothing happens. -/
theorem vidFollowsTheLowestMargin : Obligations.VidFollowsTheLowestMargin := by
  refine ⟨fun s m hm ha => ⟨fun hhigh => ?_, fun hlow => ?_, fun hle => ?_, fun hge => ?_⟩, fun s h => ?_⟩
  · obtain ⟨hcode, hmanual, hpin⟩ := s.driveVid_drives (s.vidLimit_lt (s.fget F.hscVidCode - 1))
    have hexec : s.vidLower = s.driveVid (s.vidLimit (s.fget F.hscVidCode - 1)) := by
      rw [State.vidLower_of_margin hm, ha, decide_eq_true hhigh]
      rfl
    exact ⟨_, congrArg Host.Outcome.next hexec, hcode, hpin, hmanual,
      OnlyWords.driveVid (pins := s.pins) OnlyWords.refl (by simp) _⟩
  · obtain ⟨-, -, hheld, -⟩ := vid_fields_held
    have hceil := s.fget_driveVid_other hheld rfl (by decide) (s.vidLimit (s.fget F.hscVidCode + 2))
    have hexec := State.vidRaise_of_margin hm
    rw [ha, decide_eq_true hlow, Bool.and_self, State.when_true rfl, hceil] at hexec
    refine ⟨_, congrArg Host.Outcome.next hexec, _, rfl, fun hbelow => ?_, fun htop => ?_⟩
    · exact State.when_false (beq_eq_false_iff_ne.mpr (Nat.ne_of_lt hbelow)) _ _
    · exact State.when_true (beq_iff_eq.mpr htop) _ _
  · refine congrArg Host.Outcome.next ((State.vidLower_of_margin hm).trans (State.when_false ?_ s _))
    rw [decide_eq_false (not_lt.mpr hle), Bool.and_false]
  · refine congrArg Host.Outcome.next ((State.vidRaise_of_margin hm).trans (State.when_false ?_ s _))
    rw [decide_eq_false (not_lt.mpr hge), Bool.and_false]
  · obtain ⟨hraise, hlower⟩ := State.vid_of_manual h
    exact ⟨congrArg Host.Outcome.next hraise, congrArg Host.Outcome.next hlower⟩

/-! ### Shed levels (R47) -/

/-- A Spine unit at shed level 1 whose margin is back at 5 %, with a held event that sets bit 28 of HSC_MARGIN_4, which
is the low bit of its shed level, and a failed Bulk Mover channel that still holds a burst. -/
def shedRefill : State :=
  { regs := [(Reg.hscMargin 4, 0x10000032#32)]
    heldHr := [(4, .bits (Reg.hscMargin 4) (2 ^ 28))]
    movers := [(0, { fail := 2, held := [(0, [0])] })] }

/-- Refutes O16: of the held events the statement asks nothing, and one that sets the shed level again leaves the Bulk
Mover waiting, where the statement lets it go on. -/
theorem not_shedLevelsFollowTheMargin : ¬ Obligations.ShedLevelsFollowTheMargin := by
  intro h
  have hlevel : shedRefill.fget (F.hscMarginShed 4) = 1 := by decide +kernel
  have hmargin : 50 ≤ shedRefill.margin 4 := by decide +kernel
  obtain ⟨-, -, hleave, -⟩ := h shedRefill 4 (by decide)
  obtain ⟨-, hspine⟩ := hleave hlevel hmargin
  have hexec : shedRefill.resumed (shedRefill.shedLeave 4)
      = ((shedRefill.fput (F.hscMarginShed 4) 0).releaseHr 4).moversGo := Host.Outcome.next.inj (hspine rfl)
  have hwaits : ((shedRefill.resumed (shedRefill.shedLeave 4)).mover 0).held = [(0, [0])] := by decide +kernel
  have hgoes : (((shedRefill.fput (F.hscMarginShed 4) 0).releaseHr 4).moversGo.mover 0).held = [] := by decide +kernel
  rw [hexec, hgoes] at hwaits
  exact absurd hwaits (by decide)

/-! ### Stalls, code violations and lost core timing (R40, R50, R58 to R60) -/

section Stalls

/-- The order of channels in R60: block id first, then channel id. -/
def channelKey (x : Nat × Nat) : Nat := 65536 * x.1 + x.2

/-- HSC_STALL_u when `n` channels are declared at once, of which `x` is the lowest. -/
def stallWord (x : Nat × Nat) (n : Nat) (viol : Bool) : Nat :=
  x.2 % 65536 + 2 ^ 16 * (x.1 % 256) + 2 ^ 24 * Nat.min 63 n + 2 ^ 30 * bit viol + 2 ^ 31

variable {s : State} {u : Nat} {all : List (Nat × Nat)}

/-- Channels of READY domains are recorded while nothing is, and the unit's handshake source is reported. -/
theorem State.stallOf_of_ready {c : Nat × Nat} {r : List (Nat × Nat)}
    (hc : all.filter (fun c => s.ready (blockDom c.1)) = c :: r) (hr : s.reportsFor u = true) (viol : Bool) :
    s.stallOf u viol all = (s.when (!s.flag (F.hscStallStalled u)) (·.wr (Reg.hscStall u)
      (stallWord (r.foldl (lowerBy channelKey) c) (r.length + 1) viol))).report
        [(hsSource u, bif viol then 2 else 1)] := by
  simp only [State.stallOf, hc, hr]
  rfl

/-- A unit that is not READY declares nothing, and neither does a channel whose domain is not. -/
theorem State.stallOf_of_off (h : s.reportsFor u = false ∨ ∀ c ∈ all, s.ready (blockDom c.1) = false)
    (viol : Bool) : s.stallOf u viol all = s := by
  cases hc : all.filter (fun c => s.ready (blockDom c.1)) with
  | nil => simp only [State.stallOf, hc]
  | cons c r =>
    have hmem : c ∈ all.filter (fun c => s.ready (blockDom c.1)) := hc ▸ List.mem_cons_self
    obtain ⟨hall, hready⟩ := List.mem_filter.mp hmem
    have hoff : s.reportsFor u = false := h.resolve_right fun hclamped => by simp [hclamped c hall] at hready
    simp only [State.stallOf, hc, hoff]
    rfl

end Stalls

/-! ### MIN_RST (R42) -/

section MinRst

/-- HSC_MARGIN_MIN of unit `n` takes its present margin. -/
def State.restartMinimum (n : Nat) (s : State) : State :=
  s.fput (F.hscMarginMinMin n) (s.fget (F.hscMarginMargin n))

/-- Every HSC_MARGIN_MIN takes its present margin. -/
def State.restartMinima (s : State) : State := forUpTo 6 State.restartMinimum s

theorem OnlyWords.restartMinima {l : List Nat} {s t : State} (h : OnlyWords l s t)
    (hl : ∀ u < 6, Reg.hscMarginMin u ∈ l) : OnlyWords l s t.restartMinima :=
  eachOf_invariant (P := OnlyWords l s) h fun u hu _ ht => ht.fput (hl u (List.mem_range.mp hu)) _

/-- Restarting the minima changes the six HSC_MARGIN_MIN. -/
theorem State.restartMinima_onlyWords (s : State) :
    OnlyWords ((List.range 6).map Reg.hscMarginMin) s s.restartMinima :=
  OnlyWords.refl.restartMinima fun _ hu => List.mem_map_of_mem (List.mem_range.mpr hu)

/-- The registers below HSC_MARGIN_MIN_0 are as before. -/
theorem State.rd_restartMinima_below (s : State) {a : Nat} (ha : a < 0x830) : s.restartMinima.rd a = s.rd a := by
  refine s.restartMinima_onlyWords.rd fun hmem => ?_
  obtain ⟨n, -, rfl⟩ := List.mem_map.mp hmem
  exact absurd ha (Nat.not_lt.mpr (Nat.le_add_right 0x830 (4 * n)))

theorem State.fget_restartMinimum_margin (s : State) {u : Nat} (hu : u < 6) (n : Nat) :
    (s.restartMinimum n).fget (F.hscMarginMargin u) = s.fget (F.hscMarginMargin u) :=
  State.fget_fput_ne (f := F.hscMarginMinMin n) (hscMargin_ne_hscMarginMin hu n) s _

theorem State.fget_restartMinimum_self (s : State) {u : Nat} (hu : u < 6) :
    (s.restartMinimum u).fget (F.hscMarginMinMin u) = s.fget (F.hscMarginMargin u) := by
  obtain ⟨-, -, -, hmin⟩ := margin_fields_held u hu
  exact (State.fget_fput_self hmin s _).trans (Nat.mod_eq_of_lt (s.fget_lt (F.hscMarginMargin u)))

theorem State.fget_restartMinimum_ne (s : State) {u n : Nat} (h : u ≠ n) :
    (s.restartMinimum n).fget (F.hscMarginMinMin u) = s.fget (F.hscMarginMinMin u) := by
  have hne : (F.hscMarginMinMin u).addr ≠ Reg.hscMarginMin n := by
    simp only [F.hscMarginMinMin, Reg.hscMarginMin]
    omega
  exact State.fget_fput_ne (f := F.hscMarginMinMin n) hne s _

/-- Unit `u`'s minimum is its present margin. -/
def State.minRestarted (u : Nat) (s : State) : Prop := s.fget (F.hscMarginMinMin u) = s.fget (F.hscMarginMargin u)

/-- The minimum of a unit is its margin from its turn on. -/
theorem State.fget_restartMinima (s : State) {u : Nat} (hu : u < 6) :
    s.restartMinima.fget (F.hscMarginMinMin u) = s.fget (F.hscMarginMargin u) := by
  have hset : ∀ t : State, (t.restartMinimum u).minRestarted u := fun t =>
    (t.fget_restartMinimum_self hu).trans (t.fget_restartMinimum_margin hu u).symm
  have hkeep : ∀ (n : Nat) (t : State), t.minRestarted u → (t.restartMinimum n).minRestarted u := fun n t ht => by
    by_cases hn : u = n
    · exact hn ▸ hset t
    · exact (t.fget_restartMinimum_ne hn).trans (ht.trans (t.fget_restartMinimum_margin hu n).symm)
  have hend : s.restartMinima.minRestarted u := eachOf_established (List.mem_range.mpr hu) hset hkeep s
  exact hend.trans (State.fget_eq_of_rd (f := F.hscMarginMargin u)
    (s.rd_restartMinima_below (by simp only [F.hscMarginMargin, Reg.hscMargin]; omega)))

/-- Every unit leaves its shed level, as SHED_EN = 0 makes it. -/
def State.endSheds (s : State) : State :=
  forUpTo 6 (fun n v => v.when (v.fget (F.hscMarginShed n) != 0) (·.setShed n 0)) s

theorem State.endSheds_of_none {s : State} (h : ∀ u < 6, s.fget (F.hscMarginShed u) = 0) : s.endSheds = s := by
  refine eachOf_invariant (P := (· = s)) rfl fun n hn t ht => ?_
  rw [ht]
  exact State.when_false (bne_eq_false_iff_eq.mpr (h n (List.mem_range.mp hn))) s _

/-- The shed levels are as before a store of HSC_SLK_CTL and a restart of the minima. -/
theorem State.fget_restartMinima_store_shed (s : State) (w : Nat) {u : Nat} (hu : u < 6) :
    (s.store Reg.hscSlkCtl w).restartMinima.fget (F.hscMarginShed u) = s.fget (F.hscMarginShed u) := by
  have hbelow : (F.hscMarginShed u).addr < 0x830 := by simp only [F.hscMarginShed, Reg.hscMargin]; omega
  have hother : (F.hscMarginShed u).addr ∉ [Reg.hscSlkCtl] := by
    simp only [F.hscMarginShed, Reg.hscMargin, Reg.hscSlkCtl, List.mem_singleton]
    omega
  exact State.fget_eq_of_rd ((State.rd_restartMinima_below _ hbelow).trans ((s.store_onlyWords _ w).rd hother))

/-- A write of MIN_RST that ends no shed level: the fields are stored, the minima restart, and VID follows. -/
theorem State.writeSlkCtl_of_minRst {s : State} {w : Nat} (hrst : bitAt w 31 = true)
    (hshed : bitAt w 1 = true ∨ ∀ u < 6, s.fget (F.hscMarginShed u) = 0) :
    s.writeSlkCtl w = (s.store Reg.hscSlkCtl w).restartMinima.showVid := by
  let t := (s.store Reg.hscSlkCtl w).restartMinima
  have hends : t.when (!bitAt w 1) (·.endSheds) = t := by
    rcases hshed with hen | hnone
    · exact State.when_false (by rw [hen]; rfl) t _
    · have hsame : t.endSheds = t :=
        State.endSheds_of_none fun n hn => (s.fget_restartMinima_store_shed w hn).trans (hnone n hn)
      rw [State.when, hsame, Bool.cond_self]
  rw [State.writeSlkCtl, State.when_true hrst]
  exact congrArg State.showVid hends

end MinRst

section MinRstCommand

variable (s : State) (w : Nat)

/-- A write word with MIN_RST = 1 keeps its SHED_EN. -/
theorem bitAt_minRst : bitAt (w ||| 2 ^ 31) 31 = true ∧ bitAt (w ||| 2 ^ 31) 1 = bitAt w 1 := by
  simp only [bitAt, Nat.testBit_or, Nat.testBit_two_pow]
  simp

/-- The state after MIN_RST, before VID follows. -/
def State.afterMinRst : State := (s.store Reg.hscSlkCtl (w ||| 2 ^ 31)).restartMinima

theorem State.rd_afterMinRst_below {a : Nat} (ha : a < 0x830) (hne : a ≠ Reg.hscSlkCtl) :
    (s.afterMinRst w).rd a = s.rd a :=
  (State.rd_restartMinima_below _ ha).trans ((s.store_onlyWords _ _).rd fun h => hne (List.mem_singleton.mp h))

theorem State.rd_afterMinRst_margin {u : Nat} (hu : u < 6) :
    (s.afterMinRst w).rd (Reg.hscMargin u) = s.rd (Reg.hscMargin u) :=
  s.rd_afterMinRst_below w (by simp only [Reg.hscMargin]; omega) (by simp only [Reg.hscMargin, Reg.hscSlkCtl]; omega)

/-- MIN_RST completes where it ends no shed level: the Bulk Mover waits on. -/
theorem exec_minRst (hshed : bitAt w 1 = true ∨ ∀ u < 6, s.fget (F.hscMarginShed u) = 0) :
    exec (.minRst w) s = .next (s.afterMinRst w).showVid := by
  obtain ⟨hrst, hen⟩ := bitAt_minRst w
  have hwrite : s.writeSlkCtl (w ||| 2 ^ 31) = (s.afterMinRst w).showVid :=
    State.writeSlkCtl_of_minRst hrst (hen.symm ▸ hshed)
  have hsame : (s.afterMinRst w).showVid.fget (F.hscMarginShed 4) = s.fget (F.hscMarginShed 4) :=
    State.fget_eq_of_rd ((State.rd_showVid_ne _ (hscMargin_ne_hscVid 4)).trans (s.rd_afterMinRst_margin w (by decide)))
  have hexec : exec (.minRst w) s = .next (s.resumed (s.writeSlkCtl (w ||| 2 ^ 31))) := rfl
  rw [hexec, hwrite, State.resumed_of_shed hsame]

end MinRstCommand

/-- Settles O17: the stall record and its report, and the write of MIN_RST without a change of a shed level. -/
theorem handshakeFaultsAreReported : Obligations.HandshakeFaultsAreReported := by
  refine ⟨fun s u all hu => ⟨fun c r hc hr => ?_, fun h => ?_⟩, fun s u hu => ⟨fun hr hlow => ?_, fun h => ?_⟩,
    fun s w hshed => ?_⟩
  · have hstall := fun viol => State.stallOf_of_ready hc hr viol
    refine ⟨fun hheld => ?_, fun hfree => ?_⟩
    · simp only [State.when_false (show (!s.flag (F.hscStallStalled u)) = false by rw [hheld]; rfl)] at hstall
      exact ⟨congrArg Host.Outcome.next (hstall false), congrArg Host.Outcome.next (hstall true)⟩
    · simp only [State.when_true (show (!s.flag (F.hscStallStalled u)) = true by rw [hfree]; rfl)] at hstall
      obtain ⟨hmem, hleast⟩ := foldl_lowerBy_least channelKey c r
      refine ⟨_, hmem, hleast, ?_⟩
      rintro w rfl
      refine ⟨congrArg Host.Outcome.next (hstall false), congrArg Host.Outcome.next ((hstall true).trans ?_)⟩
      rw [stallWord, Nat.add_right_comm]
      rfl
  · exact ⟨congrArg Host.Outcome.next (State.stallOf_of_off h false),
      congrArg Host.Outcome.next (State.stallOf_of_off h true)⟩
  · refine congrArg Host.Outcome.next (State.when_true ?_ s _)
    rw [hr, decide_eq_true hlow, Bool.and_self]
  · refine congrArg Host.Outcome.next (State.when_false ?_ s _)
    rcases h with hoff | hhigh
    · rw [hoff, Bool.false_and]
    · rw [decide_eq_false (not_lt.mpr hhigh), Bool.and_false]
  · let t := s.afterMinRst w
    have hlowest : t.lowestMargin = s.lowestMargin :=
      State.lowestMargin_eq_of_rd fun u hu => s.rd_afterMinRst_margin w hu
    have hvid : t.rd Reg.hscVid = s.rd Reg.hscVid := s.rd_afterMinRst_below w (by decide) (by decide)
    have honly : OnlyWords [Reg.hscSlkCtl, Reg.hscVid, Reg.hscMarginMin 0, Reg.hscMarginMin 1, Reg.hscMarginMin 2,
        Reg.hscMarginMin 3, Reg.hscMarginMin 4, Reg.hscMarginMin 5] s t :=
      ((s.store_onlyWords Reg.hscSlkCtl (w ||| 2 ^ 31)).mono (by simp)).restartMinima (by decide)
    refine ⟨_, exec_minRst s w hshed, ?_, fun u hu => ?_, fun hnone => ?_, fun hsome => ?_, ?_⟩
    · exact (t.rd_showVid_ne (by decide)).trans (State.rd_restartMinima_below _ (by decide))
    · rw [State.fget_eq_of_rd (f := F.hscMarginMinMin u) (t.rd_showVid_ne (hscMarginMin_ne_hscVid u))]
      refine (State.fget_restartMinima _ hu).trans (State.fget_eq_of_rd (f := F.hscMarginMargin u)
        ((s.store_onlyWords _ _).rd ?_))
      simp only [F.hscMarginMargin, Reg.hscMargin, Reg.hscSlkCtl, List.mem_singleton]
      omega
    · rw [t.showVid_of_none (hlowest.trans hnone)]
      exact ⟨hvid, rfl⟩
    · obtain ⟨hcode, hmanual, hpin⟩ := t.showVid_drives (hlowest ▸ hsome)
      have hauto : t.showVid.flag F.hscSlkCtlAutoVid = t.flag F.hscSlkCtlAutoVid :=
        State.flag_eq_of_rd (t.rd_showVid_ne (by decide))
      refine ⟨?_, hmanual.trans (State.fget_eq_of_rd (f := F.hscVidManual) hvid), hpin⟩
      rw [hauto, hcode, t.vidShown_eq, State.fget_eq_of_rd (f := F.hscVidCeil) hvid,
        State.fget_eq_of_rd (f := F.hscVidFloor) hvid, State.fget_eq_of_rd (f := F.hscVidCode) hvid,
        State.fget_eq_of_rd (f := F.hscVidManual) hvid]
    · exact honly.showVid (by simp)

end Sys2Proof.Machine
end
section
/-! SUPPORT. Edges and guards at their comparators (R54 to R56, R155, R160, R165 to R168): how an edge is computed, armed
and released, how a guard interval closes and reopens, and the statement of 06_schedule_book_gates_shapers.md on them. -/

namespace Sys2Proof.Machine

/-! ### Computing an edge (R54, R179) -/

section Computing

/-- The instant whose list entries give the edge of `kind` at `t`: that of the action behind a hold raise. -/
def State.edgeInstant (s : State) (kind p t : Nat) : Nat := if kind = 1 then t + s.holdAdv p else t

/-- The state after the entries at instant `i` have been read. -/
def State.edgeRead (s : State) (i : Nat) (bad : List Nat) : State :=
  if s.listAt i then s.entriesRead (s.bankAt i) bad else s

/-- The edge that the readable entries give joins the edges, once for each list. -/
def State.addEdge (s : State) (kind p t : Nat) (bad : List Nat) : State :=
  match s.listEdge p kind t bad with
  | some e => s.onEdges fun l =>
    bif l.any (fun x => x.port == p && x.kind == kind && x.t == t && x.fresh == e.fresh) then l else l ++ [e]
  | none => s

theorem State.addEdge_of_none {s : State} {kind p t : Nat} {bad : List Nat} (h : s.listEdge p kind t bad = none) :
    s.addEdge kind p t bad = s := by simp only [State.addEdge, h]

theorem State.addEdge_of_some {s : State} {kind p t : Nat} {bad : List Nat} {e : Edge}
    (h : s.listEdge p kind t bad = some e) :
    s.addEdge kind p t bad = s.onEdges fun l =>
      bif l.any (fun x => x.port == p && x.kind == kind && x.t == t && x.fresh == e.fresh) then l else l ++ [e] := by
  simp only [State.addEdge, h]

variable {s : State} {kind : Nat}

/-- A working Schedule Book computes the edges of kinds 0 and 1. -/
theorem exec_edgeComputeStart_of_works (hw : s.scbWorks = true) (hk : kind ≤ 1) (p t : Nat) (bad : List Nat) :
    exec (.edgeComputeStart kind p t bad) s
      = .next ((s.edgeRead (s.edgeInstant kind p t) bad).addEdge kind p t bad).reportReads := by
  have hinstant : (bif kind == 1 then t + s.holdAdv p else t) = s.edgeInstant kind p t := by
    rw [Bool.cond_eq_ite, State.edgeInstant]
    simp only [beq_iff_eq]
  have hread : s.when (s.listAt (s.edgeInstant kind p t)) (·.entriesRead (s.bankAt (s.edgeInstant kind p t)) bad)
      = s.edgeRead (s.edgeInstant kind p t) bad := Bool.cond_eq_ite _ _ _
  rw [exec, execEdgeComputeStart, State.when_true (by rw [hw, Nat.ble_eq.mpr hk, Bool.and_self])]
  simp only [hinstant, hread]
  rfl

theorem exec_edgeComputeStart_of_idle (h : s.scbWorks = false ∨ 1 < kind) (p t : Nat) (bad : List Nat) :
    exec (.edgeComputeStart kind p t bad) s = .next s := by
  have hnot : (s.scbWorks && Nat.ble kind 1) = false := by
    rw [Bool.and_eq_false_iff, Bool.eq_false_iff (b := Nat.ble kind 1), ne_eq, Nat.ble_eq, Nat.not_le]
    exact h
  rw [exec, execEdgeComputeStart, State.when_false hnot]

end Computing

/-! ### Arming (R55, R158) -/

section Arming

variable {s : State} {kind n t : Nat}

/-- An action that is in time, or reaches no comparator, is armed and no more. -/
theorem exec_actionArmed_of_timely (h : s.armNow kind n ≤ t ∨ s.arrives kind n t = false) :
    exec (.actionArmed kind n t) s = .next (s.armEdge kind n t) := by
  refine congrArg Host.Outcome.next (State.when_false ?_ _ _)
  rw [Bool.and_eq_false_iff, Bool.eq_false_iff (b := Nat.blt t _), ne_eq, Nat.blt_eq, Nat.not_lt]
  exact h.symm

/-- A late action that reaches its comparator is counted, reported and acts at once. -/
theorem exec_actionArmed_of_late (hlate : t < s.armNow kind n) (h : s.arrives kind n t = true) :
    exec (.actionArmed kind n t) s
      = .next (((s.armEdge kind n t).lateArm kind n).actLate kind n t).reportReads := by
  refine congrArg Host.Outcome.next (State.when_true ?_ _ _)
  rw [h, Nat.blt_eq.mpr hlate, Bool.and_self]

/-- The gate of a quadrant that is isolated, or not READY, is closed. -/
theorem State.gateReach_of_closed {p : Nat} (h : s.iso (p / 36) = true ∨ s.ready (qDom (p / 36) 0) = false) :
    s.gateReach p = false := by
  rcases h with hiso | hoff
  · rw [State.gateReach, State.open', hiso, Bool.not_true, Bool.and_false]
  · rw [State.gateReach, State.open', State.qReady, hoff, Bool.false_and]

/-- The edge of `kind` of port `p` at instant `t`. -/
def edgeAt (kind p t : Nat) (e : Edge) : Bool := e.port == p && e.kind == kind && e.t == t

theorem State.armEdge_list (hk : kind ≤ 1) (s : State) (p t : Nat) : s.armEdge kind p t = s.armList kind p t := by
  match kind, hk with
  | 0, _ => rfl
  | 1, _ => rfl

variable {p : Nat}

theorem State.armList_of_none (h : s.scb.edges.any (edgeAt kind p t) = false) : s.armList kind p t = s := by
  unfold edgeAt at h
  simp only [State.armList, h, Bool.not_false, cond_true]

/-- At a closed gate the edge is discarded and counted. -/
theorem State.armList_of_closed (h : s.scb.edges.any (edgeAt kind p t) = true) (hg : s.gateReach p = false) :
    s.armList kind p t = (s.onEdges fun l => l.filter fun e => !edgeAt kind p t e).scbCount (5 + p / 36) := by
  unfold edgeAt at h
  simp only [State.armList, h, hg, Bool.not_true, Bool.not_false, cond_false, cond_true]
  rfl

/-- At an open gate the edge is armed and takes its place in the arming order. -/
theorem State.armList_of_open (h : s.scb.edges.any (edgeAt kind p t) = true) (hg : s.gateReach p = true) :
    s.armList kind p t = { s with
      armings := s.armings + 1
      scb := { s.scb with edges := s.scb.edges.map (fun e =>
        bif edgeAt kind p t e then { e with armed := true, order := s.armings + 1 } else e) } } := by
  unfold edgeAt at h
  simp only [State.armList, h, hg, Bool.not_true, cond_false]
  rfl

end Arming

/-! ### Releasing edges (R155, R160) -/

section Releasing

variable {s : State} {p kind : Nat} {e : Edge}

theorem State.fireEdge_of_first (h : firstEdge p kind s.validEdges = some e) : s.fireEdge p kind = s.release e := by
  simp only [State.fireEdge, h]

theorem State.fireEdge_of_none (h : firstEdge p kind s.validEdges = none) : s.fireEdge p kind = s := by
  simp only [State.fireEdge, h]

/-- The hold of the earliest armed gate edge acts where it releases, and the edge keeps its gates. -/
theorem exec_holdRelease_of_first (h : firstEdge p 0 s.validEdges = some e) :
    exec (.holdRelease p) s = .next (s.when (e.hold == 1) fun t => (t.onEdges fun l => l.map fun x =>
      bif x == e then { x with hold := 0 } else x).actEdge { e with kind := 1 }) := by
  rw [exec, execHoldRelease]
  simp only [h]

theorem exec_holdRelease_of_none (h : firstEdge p 0 s.validEdges = none) :
    exec (.holdRelease p) s = .next s := by
  rw [exec, execHoldRelease]
  simp only [h]

end Releasing

/-! ### Guard intervals (R165 to R168) -/

section Guards

variable {s : State} {p : Nat} {g : Guard} {r : List Guard}

theorem filter_eq_nil_of_any {α : Type} {q : α → Bool} {l : List α} (h : l.any q = false) : l.filter q = [] :=
  List.filter_eq_nil_iff.mpr fun x hx hq => by
    rw [List.any_eq_false] at h
    exact h x hx hq

/-- The port of the first interval in phase `k` at port `p`. -/
theorem port_of_filter {k : Nat} {l : List Guard} (h : l.filter (fun x => x.port == p && x.phase == k) = g :: r) :
    g.port = p := by
  have hmem : g ∈ l.filter (fun x => x.port == p && x.phase == k) := h ▸ List.mem_cons_self
  have hhit := (List.mem_filter.mp hmem).2
  rw [Bool.and_eq_true] at hhit
  exact beq_iff_eq.mp hhit.1

theorem State.guardCloses_of_none (h : s.scb.guards.any (fun g => g.port == p && g.phase == 1) = false) :
    s.guardCloses p = s := by simp only [State.guardCloses, filter_eq_nil_of_any h]

theorem State.guardReopens_of_none (h : s.scb.guards.any (fun g => g.port == p && g.phase == 2) = false) :
    s.guardReopens p = s := by simp only [State.guardReopens, filter_eq_nil_of_any h]

/-- The armed interval that closes first closes. -/
theorem State.guardCloses_of_first (h : s.scb.guards.filter (fun x => x.port == p && x.phase == 1) = g :: r)
    (hfirst : ∀ x ∈ r, g.close ≤ x.close) : s.guardCloses p = s.closeGuard g := by
  simp only [State.guardCloses, h]
  exact congrArg s.closeGuard (foldl_lowerBy_of_least Guard.close hfirst)

/-- The closed interval that reopens first reopens. -/
theorem State.guardReopens_of_first (h : s.scb.guards.filter (fun x => x.port == p && x.phase == 2) = g :: r)
    (hfirst : ∀ x ∈ r, g.reopen ≤ x.reopen) : s.guardReopens p = s.reopenGuard g := by
  simp only [State.guardReopens, h]
  exact congrArg s.reopenGuard (foldl_lowerBy_of_least Guard.reopen hfirst)

/-- The guards with interval `g` closed. -/
def State.closed (s : State) (g : Guard) : State :=
  s.onGuards fun l => l.map fun x => bif x == g then { x with phase := 2 } else x

theorem State.closeGuard_of_off (h : s.gateOn g.port = false) : s.closeGuard g = s.closed g := by
  simp only [State.closeGuard, h, Bool.not_false, cond_true]
  rfl

/-- Where the gate block works the gates are presented anew, and a port that was open drops its pre-empted frame. -/
theorem State.closeGuard_of_on (h : s.gateOn g.port = true) :
    s.closeGuard g = ((s.closed g).represent g.port).when (!s.guardShut g.port) (·.guardFrames g.port) := by
  simp only [State.closeGuard, h, Bool.not_true, cond_false]
  rfl

/-- The guards with interval `g` ended: it is kept with its undecided commits while it has any. -/
def State.reopened (s : State) (g : Guard) : State :=
  let left := g.commits.filter fun x => s.undecided x.1
  s.onGuards fun l => bif left.isEmpty then l.filter (· != g)
    else l.map fun x => bif x == g then { x with phase := 3, commits := left } else x

theorem State.reopenGuard_eq (s : State) (g : Guard) :
    s.reopenGuard g = bif (s.reopened g).guardShut g.port || !s.gateOn g.port
        || (s.iso (g.port / 36) && g.reorder == 0) then s.reopened g
      else ((s.reopened g).represent g.port).endRelock g.port := rfl

/-- The interval reopens at its port: no other holds the port shut, the gate block works, and its isolation gate let
the reopening in. -/
theorem State.reopenGuard_of_let_in (hopen : (s.reopened g).guardShut g.port = false) (hon : s.gateOn g.port = true)
    (hgate : s.iso (g.port / 36) = true → g.reorder ≠ 0) :
    s.reopenGuard g = ((s.reopened g).represent g.port).endRelock g.port := by
  have hin : (s.iso (g.port / 36) && g.reorder == 0) = false := by
    rw [Bool.and_eq_false_imp]
    exact fun hiso => beq_eq_false_iff_ne.mpr (hgate hiso)
  rw [State.reopenGuard_eq, hopen, hon, hin]
  rfl

/-- Otherwise the port keeps its gates. -/
theorem State.reopenGuard_of_held (h : (s.reopened g).guardShut g.port = true ∨ s.gateOn g.port = false ∨
    (s.iso (g.port / 36) = true ∧ g.reorder = 0)) : s.reopenGuard g = s.reopened g := by
  have hheld : ((s.reopened g).guardShut g.port || !s.gateOn g.port || (s.iso (g.port / 36) && g.reorder == 0)) = true := by
    rcases h with hshut | hoff | ⟨hiso, hdropped⟩
    · rw [hshut, Bool.true_or, Bool.true_or]
    · rw [hoff, Bool.not_false, Bool.or_true, Bool.true_or]
    · rw [hiso, hdropped, beq_self_eq_true, Bool.and_self, Bool.or_true]
  rw [State.reopenGuard_eq, hheld, cond_true]

end Guards

/-! ### The masks of a commit (R167, R179) -/

section Masks

variable {s : State} {id : Nat}

theorem State.masksArrive_of_unknown (h : s.commitOf id = none) : s.masksArrive id = s := by
  simp only [State.masksArrive, h]

/-- A known commit is learned, or stays unguarded and counts if it has executed. -/
theorem State.masksArrive_of_known {c : Commit} (h : s.commitOf id = some c) :
    s.masksArrive id = bif c.unguarded then s else bif s.scbWorks then s.learn id c.tc c.moves
      else (s.onCommit id fun x => { x with unguarded := true }).when c.executed (·.fabCount 16) := by
  simp only [State.masksArrive, h]

end Masks

/-- Settles O40: the commands one after another, each by what its row finds. -/
theorem edgesArmAndFire : Obligations.EdgesArmAndFire := by
  refine ⟨?_, fun s kind p t bad h => exec_edgeComputeStart_of_idle h p t bad, ?_, fun s p => State.gateReach_of_closed,
    ?_, ?_, fun s p h => congrArg Host.Outcome.next (State.guardCloses_of_none h),
    fun s p h => congrArg Host.Outcome.next (State.guardReopens_of_none h), ?_, ?_, ?_⟩
  · intro s v kind p t i bad hw hk hi hv
    have hread : v = s.edgeRead (s.edgeInstant kind p t) bad := by
      rw [hv, hi]
      rfl
    have hexec := exec_edgeComputeStart_of_works hw hk p t bad
    rw [← hread] at hexec
    exact ⟨fun hnone => by rw [hexec, State.addEdge_of_none hnone],
      fun e hsome => by rw [hexec, State.addEdge_of_some hsome]⟩
  · rintro s u kind n t rfl
    exact ⟨exec_actionArmed_of_timely, exec_actionArmed_of_late⟩
  · rintro s kind p t mine hk rfl
    rw [State.armEdge_list hk]
    exact ⟨State.armList_of_none, fun h => ⟨State.armList_of_closed h, State.armList_of_open h⟩⟩
  · refine fun s p => ⟨fun e he => ⟨congrArg Host.Outcome.next (State.fireEdge_of_first he), fun hrel => ?_,
        fun hkeep => ?_⟩,
      fun e he => congrArg Host.Outcome.next (State.fireEdge_of_first he),
      fun hnone => ⟨congrArg Host.Outcome.next (State.fireEdge_of_none hnone), exec_holdRelease_of_none hnone⟩,
      fun hnone => congrArg Host.Outcome.next (State.fireEdge_of_none hnone)⟩
    · rw [exec_holdRelease_of_first he, State.when_true (beq_iff_eq.mpr hrel)]
    · rw [NoEffect, exec_holdRelease_of_first he, State.when_false (beq_eq_false_iff_ne.mpr hkeep)]
  · rintro s u p g r hg hfirst rfl
    obtain rfl := port_of_filter hg
    have hexec : exec (.guardClose g.port) s = .next (s.closeGuard g) :=
      congrArg Host.Outcome.next (State.guardCloses_of_first hg hfirst)
    refine ⟨fun hon hwas => ?_, fun hon hwas => ?_, fun hoff => ?_⟩
    · rw [hexec, State.closeGuard_of_on hon, hwas]
      rfl
    · rw [hexec, State.closeGuard_of_on hon, hwas]
      rfl
    · rw [hexec, State.closeGuard_of_off hoff]
      rfl
  · rintro s u p g r left hg hfirst rfl rfl
    obtain rfl := port_of_filter hg
    have hexec : exec (.guardReopen g.port) s = .next (s.reopenGuard g) :=
      congrArg Host.Outcome.next (State.guardReopens_of_first hg hfirst)
    exact ⟨fun hopen hon hgate => by rw [hexec, State.reopenGuard_of_let_in hopen hon hgate]; rfl,
      fun hshut => by rw [hexec, State.reopenGuard_of_held hshut]; rfl⟩
  · refine fun s id => ⟨fun hnone => congrArg Host.Outcome.next (State.masksArrive_of_unknown hnone), fun c hc => ?_⟩
    have hexec : exec (.touchedMasksReceived id) s = .next (s.masksArrive id) := rfl
    rw [State.masksArrive_of_known hc] at hexec
    refine ⟨fun hun => ?_, fun hun hw => ?_, ?_⟩
    · rw [NoEffect, hexec, hun, cond_true]
    · rw [hexec, hun, hw, cond_false, cond_true]
    · rintro hun hw u rfl
      rw [hexec, hun, hw, cond_false, cond_false, State.when, Bool.cond_eq_ite]

end Sys2Proof.Machine
end

section
/-! SUPPORT. Invar's counter, its followers, its servo and its references (R61 to R81, R94, R103): the start of the
counter, what a broadcast leaves in a follower, the rate history, and the statements of 03_invar_network_time.md on
them. -/

namespace Sys2Proof.Machine

/-! ### Changes of Invar's record, the pins and the free values beside those of words -/

section Frames

variable {l : List Nat} {s t : State} {i : Inv}

/-- A change of Invar's record beside those of the listed words. -/
theorem OnlyWords.onInv (h : OnlyWords l { s with inv := i } t) (f : Inv → Inv) :
    OnlyWords l { s with inv := f t.inv } (t.onInv f) := by
  obtain ⟨hrest, hwords⟩ := h
  exact ⟨congrArg (fun v : State => { v with inv := f t.inv }) hrest, hwords⟩

/-- The counter and Invar's record that a change leaves are its own. -/
theorem OnlyWords.ownClock {c : Nat} (h : OnlyWords l { s with counter := c, inv := i } t) :
    OnlyWords l { s with counter := t.counter, inv := t.inv } t := by
  obtain ⟨hrest, hwords⟩ := h
  have hcounter : t.counter = c := congrArg (·.counter) hrest
  have hinv : t.inv = i := congrArg (·.inv) hrest
  rw [hcounter, hinv]
  exact ⟨hrest, hwords⟩

end Frames

/-! ### The own clockClass (R81) -/

/-- Table 3.5 as one choice. -/
theorem State.ownSet_clockClass (s : State) :
    s.ownSet.clockClass = if s.flag F.invPtpCtlSlaveOnly = true then 255
      else if s.fget F.invCtlSrc = 2 ∧ s.servo = servoLocked then s.fget F.invPtpDsClassLocked
      else if s.servo = servoHold ∧ s.flag F.invStsEverLocked = true ∧ s.holdSeconds < s.fget F.invHoldHoldLimit then
        s.fget F.invPtpDsClassHold
      else s.fget F.invPtpDs2ClassFree := by
  simp only [State.ownSet, State.ownClass, Bool.cond_eq_ite, Bool.and_eq_true, beq_iff_eq, Nat.blt_eq, and_assoc]

/-- Settles O18: each clause is one row of Table 3.5, and LOCKED excludes HOLDOVER. -/
theorem ownClockClassFollowsItsTable : Obligations.OwnClockClassFollowsItsTable := by
  intro s
  rw [s.ownSet_clockClass]
  refine ⟨fun hslave => if_pos hslave, fun hown => ?_⟩
  rw [if_neg (by simp [hown])]
  refine ⟨fun hsrc hlocked => if_pos ⟨hsrc, hlocked⟩, fun hhold hever hlimit => ?_, fun hnot hnotHold => ?_⟩
  · have hunlocked : ¬(s.fget F.invCtlSrc = 2 ∧ s.servo = servoLocked) := fun h => by
      have hboth : servoHold = servoLocked := hhold.symm.trans h.2
      exact absurd hboth (by decide)
    rw [if_neg hunlocked, if_pos ⟨hhold, hever, hlimit⟩]
  · rw [if_neg hnot, if_neg hnotHold]

/-! ### The first lock of the time PLL (R63, R458) -/

section PllLock

variable (s : State)

/-- PLL_LOCK and OSC_OK read 1. -/
def State.lockShown : State := (s.fset F.invStsPllLock true).fset F.invStsOscOk true

/-- The counter starts at 0, and HOST_AUTO requests the host interfaces and the matrix. -/
def State.startCounter : State :=
  ({ s with counter := 0, inv := { s.inv with started := true } }).when (s.flag F.pwrCtlHostAuto)
    (·.orw Reg.pwrOn1 autoMask)

/-- The state after a lock, before ALIVE follows. -/
def State.pllStarted : State := bif s.inv.started then s.lockShown else s.lockShown.startCounter

/-- ALIVE follows ALIVE_EN outside the safe state. -/
def State.aliveShown : State := s.fset F.qchStsAlive (s.flag F.qchCtlAliveEn && !s.flag F.qchStsFatal)

theorem State.pllLock_eq : s.pllLock = s.pllStarted.aliveShown := rfl

theorem pll_fields_held : Fld.held F.invStsPllLock = true ∧ Fld.held F.invStsOscOk = true ∧
    Fld.held F.qchStsAlive = true := by decide +kernel

theorem State.lockShown_onlyWords : OnlyWords [Reg.invSts] s s.lockShown :=
  (OnlyWords.refl.fset (by decide) _).fset (by decide) _

theorem State.lockShown_flags :
    s.lockShown.flag F.invStsPllLock = true ∧ s.lockShown.flag F.invStsOscOk = true := by
  obtain ⟨hlock, hosc, -⟩ := pll_fields_held
  refine ⟨?_, State.flag_fset_self hosc rfl _ _⟩
  have hkept : s.lockShown.fget F.invStsPllLock = (s.fset F.invStsPllLock true).fget F.invStsPllLock :=
    State.fget_fput_other (f := F.invStsOscOk) hlock rfl (.inr (by decide)) _ _
  rw [State.flag, hkept]
  exact State.flag_fset_self hlock rfl _ _

/-- The start requests the domains of HOST_AUTO in PWR_ON1 and changes no other word. -/
theorem State.rd_startCounter_ne {a : Nat} (ha : a ≠ Reg.pwrOn1) : s.startCounter.rd a = s.rd a := by
  unfold State.startCounter State.when
  cases s.flag F.pwrCtlHostAuto
  · rfl
  · exact State.rd_wr_ne ha _ _

theorem State.startCounter_requests (h : s.flag F.pwrCtlHostAuto = true) {i : Nat} (hlo : 13 ≤ i) (hhi : i < 16) :
    s.startCounter.bitOf Reg.pwrOn1 i = true := by
  have hheld : implOf Reg.pwrOn1 = 2 ^ 20 - 1 := by decide +kernel
  have hmask : autoMask.testBit i = true := by
    interval_cases i <;> decide
  rw [State.startCounter, State.when_true h, State.bitOf, State.orw, State.rd_wr_self, hheld, bitAt, Nat.testBit_and,
    Nat.testBit_or, hmask, Nat.testBit_two_pow_sub_one, decide_eq_true (by omega : i < 20), Bool.or_true, Bool.and_self]

theorem State.startCounter_onlyWords :
    OnlyWords [Reg.pwrOn1] { s with counter := 0, inv := { s.inv with started := true } } s.startCounter :=
  OnlyWords.refl.when (OnlyWords.refl.wr (by decide) _)

theorem State.pllStarted_of_started (h : s.inv.started = true) : s.pllStarted = s.lockShown := by
  rw [State.pllStarted, h, cond_true]

theorem State.pllStarted_of_first (h : s.inv.started = false) : s.pllStarted = s.lockShown.startCounter := by
  rw [State.pllStarted, h, cond_false]

/-- INV_STS after a lock shows what the lock shows. -/
theorem State.rd_pllStarted_ne {a : Nat} (ha : a ≠ Reg.pwrOn1) : s.pllStarted.rd a = s.lockShown.rd a := by
  cases h : s.inv.started
  · rw [s.pllStarted_of_first h, State.rd_startCounter_ne _ ha]
  · rw [s.pllStarted_of_started h]

/-- What the first lock changes. -/
theorem State.pllStarted_first_onlyWords (h : s.inv.started = false) :
    OnlyWords [Reg.invSts, Reg.pwrOn1] { s with counter := 0, inv := { s.inv with started := true } } s.pllStarted := by
  obtain ⟨hrest, hwords⟩ := s.lockShown.startCounter_onlyWords.mono (m := [Reg.invSts, Reg.pwrOn1]) (by simp)
  obtain ⟨-, hshown⟩ := s.lockShown_onlyWords.mono (m := [Reg.invSts, Reg.pwrOn1]) (by simp)
  rw [s.pllStarted_of_first h]
  exact ⟨congrArg (fun v : State => { v with regs := s.regs }) hrest, fun a ha => (hwords a ha).trans (hshown a ha)⟩

/-- What any lock changes. -/
theorem State.pllStarted_onlyWords : OnlyWords [Reg.invSts, Reg.pwrOn1]
    { s with counter := s.pllStarted.counter, inv := s.pllStarted.inv } s.pllStarted := by
  cases h : s.inv.started
  · exact (s.pllStarted_first_onlyWords h).ownClock
  · rw [s.pllStarted_of_started h]
    exact s.lockShown_onlyWords.mono (by simp)

theorem State.pllStarted_started : s.pllStarted.inv.started = true := by
  cases h : s.inv.started
  · obtain ⟨hrest, -⟩ := s.pllStarted_first_onlyWords h
    exact congrArg (·.inv.started) hrest
  · rw [s.pllStarted_of_started h]
    exact h

theorem State.pllStarted_counter : s.pllStarted.counter = if s.inv.started then s.counter else 0 := by
  cases h : s.inv.started
  · obtain ⟨hrest, -⟩ := s.pllStarted_first_onlyWords h
    exact congrArg (·.counter) hrest
  · rw [s.pllStarted_of_started h]
    rfl

end PllLock

/-- Settles O19: the lock is shown, the counter starts where it has not, and ALIVE follows. -/
theorem timePllLockStartsTheCounter : Obligations.TimePllLockStartsTheCounter := by
  refine fun s => ⟨fun hr => ?_, fun hr => congrArg Host.Outcome.next (State.atDom_off hr _)⟩
  obtain ⟨-, -, halive⟩ := pll_fields_held
  obtain ⟨hlock, hosc⟩ := s.lockShown_flags
  have hword : ∀ {a}, a ≠ Reg.qchSts → s.pllStarted.aliveShown.rd a = s.pllStarted.rd a :=
    fun ha => State.rd_fput_ne (f := F.qchStsAlive) ha _ _
  have hsts : s.pllStarted.aliveShown.rd Reg.invSts = s.lockShown.rd Reg.invSts :=
    (hword (by decide)).trans (s.rd_pllStarted_ne (by decide))
  have honly := s.pllStarted_onlyWords
  refine ⟨s.pllStarted.aliveShown, congrArg Host.Outcome.next ((State.atDom_ready hr _).trans s.pllLock_eq),
    ?_, ?_, s.pllStarted_started, s.pllStarted_counter, fun hfirst hauto i hlo hhi => ?_, fun hlater => ?_, ?_, ?_⟩
  · exact (State.flag_eq_of_rd (f := F.invStsPllLock) hsts).trans hlock
  · exact (State.flag_eq_of_rd (f := F.invStsOscOk) hsts).trans hosc
  · have hshown : s.lockShown.flag F.pwrCtlHostAuto = true :=
      (State.flag_eq_of_rd (f := F.pwrCtlHostAuto) (s.lockShown_onlyWords.rd (by decide))).trans hauto
    rw [State.bitOf, hword (by decide), s.pllStarted_of_first hfirst]
    exact s.lockShown.startCounter_requests hshown hlo hhi
  · rw [hword (by decide), s.pllStarted_of_started hlater]
    exact s.lockShown_onlyWords.rd (by decide)
  · rw [State.aliveShown, State.flag_fset_self halive rfl,
      State.flag_eq_of_rd (f := F.qchCtlAliveEn) (honly.rd (by decide)),
      State.flag_eq_of_rd (f := F.qchStsFatal) (honly.rd (by decide))]
    rfl
  · exact (honly.mono (by simp)).fset (by decide) _

/-! ### The followers (R64) -/

section Followers

/-- A byte field gives back an integer that fits in it. -/
theorem signedOf_encodeSigned_byte {i : Int} (hlo : -128 ≤ i) (hhi : i ≤ 127) :
    signedOf (encodeSigned i 8 % 2 ^ 8) 8 = i := by
  simp only [signedOf, encodeSigned]
  norm_num
  split <;> omega

theorem clampInt_byte_fits (e : Int) : -128 ≤ clampInt (-128) 127 e ∧ clampInt (-128) 127 e ≤ 127 := by
  unfold clampInt
  split_ifs <;> omega

/-- The sign of an integer as the model chooses it. -/
theorem cond_sign (e : Int) : (bif decide (0 < e) then 1 else bif decide (e < 0) then -1 else 0) = e.sign := by
  rcases lt_trichotomy e 0 with hneg | rfl | hpos
  · rw [decide_eq_false hneg.not_gt, decide_eq_true hneg, Int.sign_eq_neg_one_of_neg hneg]
    rfl
  · rfl
  · rw [decide_eq_true hpos, Int.sign_eq_one_of_pos hpos]
    rfl

theorem invFol_fields_held : ∀ u < 5, Fld.held (F.invFolErr u) = true ∧ Fld.held (F.invFolLock u) = true := by
  decide +kernel

theorem invFol_ne_invSts (u : Nat) : Reg.invFol u ≠ Reg.invSts := by
  simp only [Reg.invFol, Reg.invSts]
  omega

/-- ERR of follower `u` takes the error `e`, held within a signed byte. -/
def State.errShown (s : State) (u : Nat) (e : Int) : State := s.fput (F.invFolErr u) (encodeSigned (clampInt (-128) 127 e) 8)

/-- The run of small errors after an error `e`. -/
def State.runAfter (s : State) (u : Nat) (e : Int) : Nat :=
  bif decide (e.natAbs ≤ 8) then Nat.min 16 (Table.get 0 u s.inv.folRun + 1) else 0

section Cases

variable {s : State} {u : Nat} {skew c e : Int} (hon : s.folOn u = true) (hc : c = Table.get 0 u s.inv.fol)
  (he : e = skew + signedOf (s.fget (F.invFolSkewTrim u)) 8 - c)

include hon hc he

theorem State.follow_of_on : s.follow u skew = bif bitAt s.inv.folNew u then (s.errShown u e).setFol u (c + e) skew 0
    else bif decide (64 < e.natAbs) then
      (((s.errShown u e).setFolLock u false).setFol u (c + e) skew 0).report [(bif u == 4 then 33 else 8 * u + 1, 1)]
    else ((s.errShown u e).setFol u (c + e.sign) skew (s.runAfter u e)).when (s.runAfter u e == 16)
      (·.setFolLock u true) := by
  rw [← cond_sign e, State.follow, hon, he, hc]
  rfl

/-- A follower that loads takes the whole error. -/
theorem State.follow_of_new (h : bitAt s.inv.folNew u = true) :
    s.follow u skew = (s.errShown u e).setFol u (c + e) skew 0 := by
  rw [State.follow_of_on hon hc he, h, cond_true]

/-- An error beyond 64 unlocks the follower, and is taken whole and reported. -/
theorem State.follow_of_large (h : bitAt s.inv.folNew u = false) (hlarge : 64 < e.natAbs) :
    s.follow u skew = (((s.errShown u e).setFolLock u false).setFol u (c + e) skew 0).report
      [(if u = 4 then 33 else 8 * u + 1, 1)] := by
  rw [State.follow_of_on hon hc he, h, decide_eq_true hlarge, cond_false, cond_true, Bool.cond_eq_ite]
  simp only [beq_iff_eq]

/-- A smaller one moves the correction by one, and a full run of small errors locks the follower. -/
theorem State.follow_of_small (h : bitAt s.inv.folNew u = false) (hsmall : e.natAbs ≤ 64) :
    s.follow u skew = ((s.errShown u e).setFol u (c + e.sign) skew (s.runAfter u e)).when (s.runAfter u e == 16)
      (·.setFolLock u true) := by
  rw [State.follow_of_on hon hc he, h, decide_eq_false (Nat.not_lt.mpr hsmall), cond_false, cond_false]

end Cases

variable (s : State) (u : Nat) (skew c e : Int) (run : Nat)

theorem State.runAfter_eq_full_iff :
    s.runAfter u e = 16 ↔ e.natAbs ≤ 8 ∧ 15 ≤ Table.get 0 u s.inv.folRun := by
  unfold State.runAfter
  by_cases h : e.natAbs ≤ 8
  · have hmin : Nat.min 16 (Table.get 0 u s.inv.folRun + 1) = min 16 (Table.get 0 u s.inv.folRun + 1) := rfl
    rw [decide_eq_true h, cond_true, hmin]
    omega
  · rw [decide_eq_false h, cond_false]
    omega

/-- What a follower's record holds after it is stored. -/
theorem State.setFol_record : Table.get 0 u (s.setFol u c skew run).inv.fol = c ∧
    Table.get 0 u (s.setFol u c skew run).inv.folPh = c - skew ∧
    bitAt (s.setFol u c skew run).inv.folNew u = false := by
  refine ⟨Table.get_put_self _ _ _ _, Table.get_put_self _ _ _ _, ?_⟩
  simp [State.setFol, State.onInv, bitAt, testBit_withBits]

theorem State.errShown_onlyWords : OnlyWords [(F.invFolErr u).addr] s (s.errShown u e) :=
  OnlyWords.refl.fput (List.mem_singleton.mpr rfl) _

variable {u}

theorem State.errShown_fields (hu : u < 5) :
    signedOf ((s.errShown u e).fget (F.invFolErr u)) 8 = clampInt (-128) 127 e ∧
      (s.errShown u e).flag (F.invFolLock u) = s.flag (F.invFolLock u) := by
  obtain ⟨herr, hlock⟩ := invFol_fields_held u hu
  obtain ⟨hlo, hhi⟩ := clampInt_byte_fits e
  refine ⟨?_, ?_⟩
  · rw [State.errShown, State.fget_fput_self herr]
    exact signedOf_encodeSigned_byte hlo hhi
  · have hkept : (s.errShown u e).fget (F.invFolLock u) = s.fget (F.invFolLock u) :=
      State.fget_fput_other (f := F.invFolErr u) hlock rfl (.inr (Nat.le_refl _)) _ _
    rw [State.flag, State.flag, hkept]

/-- LOCK takes its new value and ERR stays. -/
theorem State.setFolLock_fields (hu : u < 5) (b : Bool) : (s.setFolLock u b).flag (F.invFolLock u) = b ∧
    (s.setFolLock u b).fget (F.invFolErr u) = s.fget (F.invFolErr u) := by
  obtain ⟨herr, hlock⟩ := invFol_fields_held u hu
  have hword : (s.setFolLock u b).rd (Reg.invFol u) = (s.fset (F.invFolLock u) b).rd (Reg.invFol u) :=
    State.rd_fput_ne (f := F.invStsFolLock) (invFol_ne_invSts u) _ _
  exact ⟨(State.flag_eq_of_rd (f := F.invFolLock u) hword).trans (State.flag_fset_self hlock rfl _ _),
    (State.fget_eq_of_rd (f := F.invFolErr u) hword).trans
      (State.fget_fput_other (f := F.invFolLock u) herr rfl (.inl (Nat.le_refl _)) _ _)⟩

end Followers

/-- Settles O20: a follower loads, is small or is large; a small error's lock follows the full run. -/
theorem followersCorrectThemselves : Obligations.FollowersCorrectThemselves := by
  intro s u skew c e hu hon hc he
  obtain ⟨hshown, hkept⟩ := s.errShown_fields e hu
  have honly := s.errShown_onlyWords u e
  refine ⟨?_, ?_, State.follow_of_large hon hc he⟩
  · rintro hnew t rfl
    obtain ⟨hfol, hphase, hloaded⟩ := (s.errShown u e).setFol_record u skew (c + e) 0
    rw [State.follow_of_new hon hc he hnew]
    exact ⟨hshown, hfol, hphase, hloaded, hkept, OnlyWords.onInv (i := s.inv) honly _⟩
  · rintro hold hsmall t rfl
    obtain ⟨hfol, hphase, -⟩ := (s.errShown u e).setFol_record u skew (c + e.sign) (s.runAfter u e)
    rw [State.follow_of_small hon hc he hold hsmall]
    set v := (s.errShown u e).setFol u (c + e.sign) skew (s.runAfter u e) with hv
    have hstored : OnlyWords [(F.invFolErr u).addr, Reg.invSts] { s with inv := v.inv } v :=
      (OnlyWords.onInv (i := s.inv) honly _).mono (by simp)
    by_cases hfull : s.runAfter u e = 16
    · obtain ⟨hlocked, herr⟩ := v.setFolLock_fields hu true
      rw [State.when_true (beq_iff_eq.mpr hfull)]
      refine ⟨(congrArg (signedOf · 8) herr).trans hshown, hfol, hphase, ?_, ?_⟩
      · exact iff_of_true hlocked (.inr ((s.runAfter_eq_full_iff u e).mp hfull))
      · exact (hstored.fset (by simp [F.invFolLock, F.invFolErr]) _).fput (by simp [F.invStsFolLock]) _
    · rw [State.when_false (beq_eq_false_iff_ne.mpr hfull)]
      have hnot : ¬(e.natAbs ≤ 8 ∧ 15 ≤ Table.get 0 u s.inv.folRun) :=
        fun h => hfull ((s.runAfter_eq_full_iff u e).mpr h)
      refine ⟨hshown, hfol, hphase, ?_, hstored⟩
      rw [or_iff_left hnot]
      exact iff_of_eq (congrArg (· = true) hkept)

/-! ### Setting, adjusting and watching the time (R64, R66, R67, R103) -/

section Adjusting

variable {s : State}

/-- With SLEW = 0 the adjustment is a step. -/
theorem State.timeAdjust_of_step (h : bitAt (s.woWord Reg.invAdj1) 16 = false) (w : Nat) :
    s.timeAdjust w = s.timeStep ((s.counter : Int) + adjOffset w (s.woWord Reg.invAdj1) * 2 ^ 32).toNat := by
  simp only [State.timeAdjust, h, cond_false]

/-- With SLEW = 1 it joins the remainder, within the range of an adjustment. -/
theorem State.timeAdjust_of_slew (h : bitAt (s.woWord Reg.invAdj1) 16 = true) (w : Nat) :
    s.timeAdjust w = s.setSlew (clampInt (-adjLimit) (adjLimit - slewUnit)
      (s.inv.slew + adjOffset w (s.woWord Reg.invAdj1) * slewUnit)) := by
  simp only [State.timeAdjust, h, cond_true]

theorem State.followAll_of_started (h : s.inv.started = true) (skews : List Int) : s.followAll skews
    = forUpTo 5 (fun u t => t.follow u (skews.getD u 0)) (s.emit (.broadcast s.counter)) := by
  rw [State.followAll, h, Bool.not_true, cond_false]

theorem State.followAll_of_idle (h : s.inv.started = false) (skews : List Int) : s.followAll skews = s := by
  rw [State.followAll, h, Bool.not_false, cond_true]

/-- In PD00 READY an unlock of the locked PLL after its first lock is reported. -/
theorem exec_timePllUnlock_of_locked (hr : s.ready 0 = true) (hstarted : s.inv.started = true)
    (hlock : s.flag F.invStsPllLock = true) : exec .timePllUnlock s
      = .next (((s.fset F.invStsPllLock false).fset F.qchStsAlive false).report [(56, 1)]) := by
  rw [exec, execTimePllUnlock, State.atDom_ready hr, hstarted, hlock, Bool.and_self, cond_true]

theorem exec_timePllUnlock_of_unlocked (hr : s.ready 0 = true)
    (h : s.inv.started = false ∨ s.flag F.invStsPllLock = false) : exec .timePllUnlock s = .next s := by
  rw [exec, execTimePllUnlock, State.atDom_ready hr, Bool.and_eq_false_iff.mpr h, cond_false]

end Adjusting

/-- Settles O21: every command acts in PD00 READY, by its own operation. -/
theorem timeIsSetAdjustedAndWatched : Obligations.TimeIsSetAdjustedAndWatched := by
  refine ⟨⟨?_, ?_, ?_, ?_⟩, ?_, ?_⟩
  · rintro s u q w hr rfl
    exact congrArg Host.Outcome.next (State.atDom_ready hr _)
  · rintro s u q w o hr rfl rfl
    exact ⟨fun hstep => congrArg Host.Outcome.next ((State.atDom_ready hr _).trans (State.timeAdjust_of_step hstep w)),
      fun hslew => congrArg Host.Outcome.next ((State.atDom_ready hr _).trans (State.timeAdjust_of_slew hslew w))⟩
  · exact fun s hr => ⟨fun hdone => congrArg Host.Outcome.next ((State.atDom_ready hr _).trans
      (State.when_true (beq_iff_eq.mpr hdone) s _)), fun hleft => congrArg Host.Outcome.next
        ((State.atDom_ready hr _).trans (State.when_false (beq_eq_false_iff_ne.mpr hleft) s _))⟩
  · intro s q w hr
    have hoff : ∀ f, s.atDom 0 f = s := State.atDom_off hr
    exact ⟨congrArg Host.Outcome.next (hoff _), congrArg Host.Outcome.next (hoff _),
      congrArg Host.Outcome.next (hoff _), congrArg Host.Outcome.next (hoff _)⟩
  · refine fun s hr => ⟨exec_timePllUnlock_of_locked hr, exec_timePllUnlock_of_unlocked hr,
      congrArg Host.Outcome.next (State.atDom_ready hr _), fun skews => ⟨fun hstarted => ?_, fun hidle => ?_⟩⟩
    · exact congrArg Host.Outcome.next ((State.atDom_ready hr _).trans (State.followAll_of_started hstarted skews))
    · exact congrArg Host.Outcome.next ((State.atDom_ready hr _).trans (State.followAll_of_idle hidle skews))
  · intro s hr skews
    have hoff : ∀ f, s.atDom 0 f = s := State.atDom_off hr
    exact ⟨congrArg Host.Outcome.next (hoff _), congrArg Host.Outcome.next (hoff _),
      congrArg Host.Outcome.next (hoff _)⟩

/-! ### Memory words that no address shows (R428) -/

section Hidden

variable {s : State} {src cause n : Nat}

/-- A read of a word with good check bits remembers nothing. -/
theorem State.hiddenRead_of_quiet (h : s.Quiet (· == hiddenKey src cause n)) : s.hiddenRead src cause n = s := by
  obtain ⟨-, hgood⟩ := h
  have hnone : s.injected.filter (fun x => (List.range 1).any fun j => x.1 == hiddenKey src cause n + 4 * j) = [] :=
    List.filter_eq_nil_iff.mpr fun x hx => by simpa using hgood x hx
  rw [State.hiddenRead, State.touch, State.touchAll, hnone, List.map_nil, List.append_nil]

/-- What reads neither QCH_INJ nor the words with inverted check bits is the same after a memory write. -/
theorem State.memWritten_keeps {α : Type} (f : State → α)
    (hf : ∀ (t : State) r x, f { t with regs := r, injected := x } = f t) (s : State) (src cause key : Nat) :
    f (s.memWritten src cause key) = f s := by
  unfold State.memWritten
  cases s.injects src cause
  · cases Table.get 0 key s.injected == 0
    · exact hf s s.regs _
    · rfl
  · exact hf s _ _

/-- A memory write changes no word but QCH_INJ. -/
theorem State.rd_memWritten_ne {a : Nat} (ha : a ≠ Reg.qchInj) (s : State) (src cause key : Nat) :
    (s.memWritten src cause key).rd a = s.rd a := by
  unfold State.memWritten
  cases s.injects src cause
  · cases Table.get 0 key s.injected == 0 <;> rfl
  · exact State.rd_fput_ne (f := F.qchInjArm) ha s _

/-- A word with good check bits is read and written, and nothing waits to be reported. -/
theorem State.hiddenPass_of_quiet (h : s.Quiet (· == hiddenKey src cause n)) :
    s.hiddenPass src cause n = s.hiddenWritten src cause n := by
  have htouched : (s.hiddenWritten src cause n).touched = [] :=
    (State.memWritten_keeps (·.touched) (fun _ _ _ => rfl) s src cause _).trans h.1
  rw [State.hiddenPass, State.hiddenRead_of_quiet h, State.reportReads_of_untouched htouched]

end Hidden

/-! ### The rate history (R75) -/

section History

variable (s : State)

theorem history_fields_held : Fld.held F.invStsHistN = true ∧ Fld.held F.invStsServo = true ∧
    Fld.held F.invRateMeanMean = true ∧ Fld.held F.invCtlEn = true := by decide +kernel

/-- The history is stored and counted in HIST_N. -/
def State.histStored (l : List Int) : State := (s.onInv fun x => { x with hist := l }).fput F.invStsHistN l.length

theorem State.setHist_eq (l : List Int) : s.setHist l = ((s.histStored l).fput F.invRateMeanMean
    (encodeSigned (s.histStored l).histMean 32)).useFree := rfl

/-- A field of a whole word is the word. -/
theorem State.fget_whole (a : Nat) : s.fget ⟨a, 0, 32⟩ = s.rd a := by
  rw [State.fget, bitsOf, Nat.shiftRight_zero]
  exact Nat.mod_eq_of_lt (s.word a).isLt

/-- Storing a history changes HIST_N, INV_RATE_MEAN and Invar's record. -/
theorem OnlyWords.setHist {w : List Nat} {s t : State} (h : OnlyWords w s t) (hsts : Reg.invSts ∈ w)
    (hmean : Reg.invRateMean ∈ w) (l : List Int) :
    OnlyWords w { s with inv := (t.setHist l).inv, free := (t.setHist l).free } (t.setHist l) := by
  obtain ⟨hrest, hwords⟩ := ((OnlyWords.onInv (i := s.inv) h fun x => { x with hist := l }).fput
    (f := F.invStsHistN) hsts l.length).fput (f := F.invRateMeanMean) hmean
      (encodeSigned (t.histStored l).histMean 32)
  exact ⟨congrArg (fun v : State => { v with free := (t.setHist l).free }) hrest, hwords⟩

/-- INV_STS counts the values, and the servo keeps its state. -/
theorem State.setHist_status (l : List Int) :
    (s.setHist l).fget F.invStsHistN = l.length % 2 ^ 5 ∧ (s.setHist l).servo = s.servo := by
  obtain ⟨hcount, hservo, -, -⟩ := history_fields_held
  have hword : (s.setHist l).rd Reg.invSts = (s.histStored l).rd Reg.invSts :=
    State.rd_fput_ne (f := F.invRateMeanMean) (by decide) (s.histStored l) _
  let t := s.onInv fun x => { x with hist := l }
  exact ⟨(State.fget_eq_of_rd (f := F.invStsHistN) hword).trans (State.fget_fput_self hcount t _),
    (State.fget_eq_of_rd (f := F.invStsServo) hword).trans
      (State.fget_fput_other (f := F.invStsHistN) hservo rfl (.inl (by decide)) t _)⟩

/-- An empty history has mean 0. -/
theorem State.rd_setHist_nil_mean : (s.setHist []).rd Reg.invRateMean = 0 := by
  obtain ⟨-, -, hmean, -⟩ := history_fields_held
  have hzero : encodeSigned (s.histStored []).histMean 32 = 0 := rfl
  rw [s.setHist_eq, hzero, State.useFree_rd, ← State.fget_whole]
  exact State.fget_fput_self (f := F.invRateMeanMean) hmean _ 0

end History

/-! ### HISTORY_PUSH and HIST_CLR (R75) -/

section HistoryCommands

variable (s : State)

/-- The mean rate of the second that HISTORY_PUSH ends. -/
def State.secondMean : Int :=
  bif s.counter - s.inv.sumFrom == 0 then s.sumUp.curRate
  else freeQuot s.sumUp.inv.sum (s.counter - s.inv.sumFrom) s.sumUp.freeChoice

/-- The second's mean joins the history. -/
def State.meanPushed : State := s.sumUp.useFree.setHist ((s.secondMean :: s.inv.hist).take 16)

@[simp] theorem State.onInv_touched (f : Inv → Inv) : (s.onInv f).touched = s.touched := rfl
@[simp] theorem State.onInv_injected (f : Inv → Inv) : (s.onInv f).injected = s.injected := rfl

/-- The push reads and remembers no memory word. -/
theorem State.meanPushed_quiet {p : Nat → Bool} (h : s.Quiet p) (f : Inv → Inv) :
    (s.meanPushed.onInv f).Quiet p := by
  simpa [State.Quiet, State.meanPushed, State.setHist_eq, State.histStored, State.fput, State.sumUp] using h

theorem State.histPush_of_locked {s : State} (h : s.servo = servoLocked) : s.histPush
    = s.meanPushed.onInv fun x => { x with sum := 0, sumFrom := s.counter, sumAt := s.counter } := by
  have hlocked : (s.fget F.invStsServo != 2) = false := bne_eq_false_iff_eq.mpr h
  rw [State.histPush, hlocked, cond_false]
  rfl

theorem State.histPush_of_unlocked {s : State} (h : s.servo ≠ servoLocked) : s.histPush = s := by
  have hunlocked : (s.fget F.invStsServo != 2) = true := bne_iff_ne.mpr h
  rw [State.histPush, hunlocked, cond_true]

/-- A store rule leaves the bits below its field. -/
theorem testBit_applyAdj_remap {lo i : Nat} (h : i < lo) (w v x n : Nat) :
    (applyAdj n (.remap lo w v x)).testBit i = n.testBit i := by
  simp only [applyAdj]
  cases bitsOf n lo w == v
  · rfl
  · simp only [cond_true, testBit_withBits, if_pos h]

theorem bitsOf_one_beq (n i : Nat) : (bitsOf n i 1 == 1) = n.testBit i := by
  rw [Nat.testBit_eq_decide_div_mod_eq, bitsOf, Nat.shiftRight_eq_div_pow]
  rfl

/-- EN of INV_CTL takes the written bit (Table 3.11). -/
theorem State.store_invCtl_en (w : Nat) : (s.store Reg.invCtl w).flag F.invCtlEn = bitAt w 0 := by
  obtain ⟨-, -, -, hen⟩ := history_fields_held
  have hrow : regRow Reg.invCtl
      = some ⟨0x30000, [], 0x10, 0x31, 0x4E, 0x0, 0x0, 0x0, [.remap 1 2 3 0, .remap 4 2 3 2]⟩ := by decide +kernel
  have hfix : ∀ old n, fixWord Reg.invCtl old n = n := fun _ _ => rfl
  rw [State.store_of_row hrow]
  refine (State.flag_wr_self (f := F.invCtlEn) hen s _).trans ((bitsOf_one_beq _ _).trans ?_)
  simp only [F.invCtlEn, storedWord, hfix, List.foldl_cons, List.foldl_nil, Nat.and_zero, Nat.testBit_and,
    testBit_applyAdj_remap (show 0 < 4 by decide), testBit_applyAdj_remap (show 0 < 1 by decide), Nat.testBit_or, bitAt]
  cases s.locked Reg.invCtl <;> simp

variable {s}

/-- Outside FREERUN the rate stays. -/
theorem State.freeRate_of_driven (h : s.servo ≠ servoFree) : s.freeRate = s := by
  rw [State.freeRate, beq_eq_false_iff_ne.mpr h, Bool.false_and, cond_false]

/-- A write of INV_CTL stores its fields, and HIST_CLR empties the history. -/
def State.ctlStored (s : State) (w : Nat) : State := (s.store Reg.invCtl w).when (bitAt w 7) (·.setHist [])

/-- The servo starts from the present VTRIM code and steers by the next measurement. -/
def State.servoStarted (s : State) : State :=
  (s.fput F.invVtrimBaseBase (s.fget F.invVtrimCode)).onInv fun x => { x with skip := 0 }

/-- The state of a write of INV_CTL once the servo has started where it should. -/
def State.startFollowed (s : State) (w : Nat) : State :=
  (s.ctlStored w).when (!s.flag F.invCtlEn && (s.ctlStored w).flag F.invCtlEn) State.servoStarted

theorem State.writeInvCtl_eq (s : State) (w : Nat) : s.writeInvCtl w
    = ((s.startFollowed w).when (s.flag F.invCtlEn && !(s.startFollowed w).flag F.invCtlEn)
        (·.setServo servoFree)).freeRate := rfl

section Writing

variable {w : Nat}

theorem State.writeInvCtl_of_unchanged (h : (s.ctlStored w).flag F.invCtlEn = s.flag F.invCtlEn) :
    s.writeInvCtl w = (s.ctlStored w).freeRate := by
  have hstart : s.startFollowed w = s.ctlStored w := State.when_false (by rw [h, Bool.not_and_self]) _ _
  rw [s.writeInvCtl_eq, hstart, State.when_false (by rw [h, Bool.and_not_self])]

theorem State.writeInvCtl_of_start (hwas : s.flag F.invCtlEn = false) (h : (s.ctlStored w).flag F.invCtlEn = true) :
    s.writeInvCtl w = (s.ctlStored w).servoStarted.freeRate := by
  have hstart : s.startFollowed w = (s.ctlStored w).servoStarted := State.when_true (by rw [hwas, h]; rfl) _ _
  rw [s.writeInvCtl_eq, hstart, State.when_false (by rw [hwas, Bool.false_and])]

theorem State.writeInvCtl_of_stop (hwas : s.flag F.invCtlEn = true) (h : (s.ctlStored w).flag F.invCtlEn = false) :
    s.writeInvCtl w = ((s.ctlStored w).setServo servoFree).freeRate := by
  have hstart : s.startFollowed w = s.ctlStored w := State.when_false (by rw [h, Bool.and_false]) _ _
  rw [s.writeInvCtl_eq, hstart, State.when_true (by rw [hwas, h]; rfl)]

/-- Clearing the history leaves EN and the servo's state. -/
theorem State.writeInvCtl_of_clear (hfree : s.servo ≠ servoFree) (hen : bitAt w 0 = s.flag F.invCtlEn)
    (hclr : bitAt w 7 = true) : s.writeInvCtl w = (s.store Reg.invCtl w).setHist [] := by
  have hstored : s.ctlStored w = (s.store Reg.invCtl w).setHist [] := State.when_true hclr _ _
  obtain ⟨-, hservo⟩ := (s.store Reg.invCtl w).setHist_status []
  have hword : (s.ctlStored w).rd Reg.invCtl = (s.store Reg.invCtl w).rd Reg.invCtl :=
    hstored ▸ (OnlyWords.refl.setHist (w := [Reg.invSts, Reg.invRateMean]) (by simp) (by simp) []).rd (by decide)
  have hsame : (s.ctlStored w).flag F.invCtlEn = s.flag F.invCtlEn :=
    (State.flag_eq_of_rd (f := F.invCtlEn) hword).trans ((s.store_invCtl_en w).trans hen)
  have hdriven : ((s.store Reg.invCtl w).setHist []).servo ≠ servoFree := by
    rw [hservo, State.servo, (s.store_onlyWords Reg.invCtl w).fget (by decide)]
    exact hfree
  rw [State.writeInvCtl_of_unchanged hsame, hstored, State.freeRate_of_driven hdriven]

end Writing

end HistoryCommands

/-- Settles O22: the mean is pushed where the servo is LOCKED, and the write with HIST_CLR is the write of an empty
history. -/
theorem historyKeepsSixteenSeconds : Obligations.HistoryKeepsSixteenSeconds := by
  refine ⟨fun s hr hlen hlocked hquiet => ?_, fun s hr hunlocked => ?_, fun s w => ?_, fun s w hr hfree hen => ?_⟩
  · have hpush := State.histPush_of_locked hlocked
    obtain ⟨hcount, -⟩ := s.sumUp.useFree.setHist_status ((s.secondMean :: s.inv.hist).take 16)
    have hpass : s.histPush.hiddenPass 57 0 0 = s.histPush.hiddenWritten 57 0 0 := by
      refine State.hiddenPass_of_quiet ?_
      rw [hpush]
      exact s.meanPushed_quiet hquiet _
    have hinv : (s.histPush.hiddenWritten 57 0 0).inv = s.histPush.inv :=
      State.memWritten_keeps (·.inv) (fun _ _ _ => rfl) _ _ _ _
    have hword : (s.histPush.hiddenWritten 57 0 0).rd Reg.invSts = s.histPush.rd Reg.invSts :=
      State.rd_memWritten_ne (by decide) _ _ _ _
    refine ⟨_, congrArg Host.Outcome.next ((State.atDom_ready hr _).trans hpass), s.secondMean, ?_, ?_, ?_, ?_⟩
    · rw [hinv, hpush]
      rfl
    · rw [State.fget_eq_of_rd (f := F.invStsHistN) hword, hpush, State.onInv_fget]
      refine hcount.trans ?_
      rw [List.length_take, List.length_cons]
      omega
    · rw [hinv, hpush]
      rfl
    · rw [hinv, hpush]
      rfl
  · refine congrArg Host.Outcome.next ((State.atDom_ready hr _).trans ?_)
    rw [State.histPush_of_unlocked hunlocked]
  · rfl
  · have hclr : bitAt (w ||| 128) 7 = true := by
      rw [bitAt, Nat.testBit_or, show Nat.testBit 128 7 = true from rfl, Bool.or_true]
    have hkeeps : bitAt (w ||| 128) 0 = bitAt w 0 := by
      rw [bitAt, Nat.testBit_or, show Nat.testBit 128 0 = false from rfl, Bool.or_false, bitAt]
    let u := s.store Reg.invCtl (w ||| 128)
    have honly : OnlyWords [Reg.invCtl, Reg.invSts, Reg.invRateMean] s u :=
      (s.store_onlyWords Reg.invCtl (w ||| 128)).mono (by simp)
    obtain ⟨hcount, -⟩ := u.setHist_status []
    refine ⟨_, congrArg Host.Outcome.next ((State.atDom_ready hr _).trans
      (State.writeInvCtl_of_clear hfree (hkeeps.trans hen) hclr)), ?_, hcount, u.rd_setHist_nil_mean, ?_⟩
    · rfl
    · exact honly.setHist (by simp) (by simp) []

/-! ### The servo's references (R70, R73, R94) -/

section References

variable {s : State}

theorem State.loseReference_of_off (h : s.flag F.invCtlEn = false) : s.loseReference = s := by
  rw [State.loseReference, h, Bool.not_false, cond_true]

/-- A servo that steers skips the next three measurements (log entry 21). -/
def State.skipping (s : State) : State := s.onInv fun x => { x with skip := 3 }

theorem State.loseReference_eq (s : State) : s.loseReference = bif !s.flag F.invCtlEn then s
    else bif s.servo == servoAcquire || s.servo == servoLocked then
      bif s.inv.hist.isEmpty then (s.skipping.setServo servoFree).freeRate
      else (s.skipping.setServo servoHold).rateBy (fun x => { x with rate := s.holdRate })
    else s.skipping := rfl

/-- The servo that steers by a reference leaves for FREERUN or HOLDOVER. -/
theorem State.loseReference_of_steering (hen : s.flag F.invCtlEn = true)
    (h : s.servo = servoAcquire ∨ s.servo = servoLocked) :
    s.loseReference = bif s.inv.hist.isEmpty then (s.skipping.setServo servoFree).freeRate
      else (s.skipping.setServo servoHold).rateBy (fun x => { x with rate := s.holdRate }) := by
  have hsteers : (s.servo == servoAcquire || s.servo == servoLocked) = true := by
    rw [Bool.or_eq_true, beq_iff_eq, beq_iff_eq]
    exact h
  rw [s.loseReference_eq, hen, hsteers, Bool.not_true, cond_false, cond_true]

/-- The runs of frames after one that is missing. -/
def State.irigMissed (s : State) : State :=
  s.onInv fun x => { x with irigBad := x.irigBad + 1, irigGood := 0, irigLast := none }

/-- IRIG_LOCK reads 0, with its record and its notice. -/
def State.irigUnlocked (s : State) : State :=
  (((s.fset F.invStsIrigLock false).fset F.irigStsLock false).brzEvent 0x85 96 0 0 0).notice 0x85 96 0 [0, 0, 0]

theorem State.irigMiss_eq (s : State) :
    s.irigMiss = bif Nat.ble 2 (s.inv.irigBad + 1) && s.irigMissed.flag F.invStsIrigLock then
      s.irigMissed.irigUnlocked.when (s.irigMissed.irigUnlocked.fget F.invCtlSrc == 2) (·.loseReference)
    else s.irigMissed := rfl

/-- The first frame missing only counts. -/
theorem State.irigMiss_of_first (h : s.inv.irigBad = 0) : s.irigMiss = s.irigMissed := by
  have hfirst : Nat.ble 2 (s.inv.irigBad + 1) = false := by rw [h]; rfl
  rw [s.irigMiss_eq, hfirst, Bool.false_and, cond_false]

/-- The second in a row unlocks, and loses the reference where that is IRIG. -/
theorem State.irigMiss_of_second (h : 1 ≤ s.inv.irigBad) (hlock : s.flag F.invStsIrigLock = true) :
    s.irigMiss = s.irigMissed.irigUnlocked.when (s.irigMissed.irigUnlocked.fget F.invCtlSrc == 2) (·.loseReference) := by
  have hsecond : (Nat.ble 2 (s.inv.irigBad + 1) && s.irigMissed.flag F.invStsIrigLock) = true := by
    rw [Bool.and_eq_true, Nat.ble_eq]
    exact ⟨by omega, hlock⟩
  rw [s.irigMiss_eq, hsecond, cond_true]

variable {f : IrigFrame}

theorem State.irigFrame_of_off (h : s.flag F.irigCtlEn = false) (f : IrigFrame) : s.irigFrame f = s := by
  rw [State.irigFrame, h, Bool.not_false, cond_true]

/-- A frame that fails a check counts as an error and as missing. -/
theorem State.irigFrame_of_invalid (hen : s.flag F.irigCtlEn = true) (h : s.irigValid f = false) :
    s.irigFrame f = ((s.fset F.irigStsFrameErr true).cntF F.irigStsErrCnt).irigMiss := by
  rw [State.irigFrame, hen, h, Bool.not_true, Bool.not_false, cond_false, cond_true]

/-- The offset of a frame's on-time point, 2^-16 ns (R94). -/
def State.irigTheta (s : State) (f : IrigFrame) : Int :=
  4096 * ((f.stamp : Int) - 16 * s.fget F.irigCtlCableDelay) - s.irigPtp f * 1000000000 * 65536

/-- What a valid frame shows: its time, and the runs of frames. -/
def State.irigTaken (s : State) (f : IrigFrame) : State :=
  (s.onInv fun x => { x with
    irigGood := x.irigGood + 1, irigBad := 0, irigLast := some (s.irigTime f) }).irigShow f

/-- One of the first two valid frames does not lock. -/
theorem State.irigFrame_of_early (hen : s.flag F.irigCtlEn = true) (h : s.irigValid f = true)
    (hearly : s.inv.irigGood < 2) :
    s.irigFrame f = ((s.irigTaken f).showOffset Reg.irigOffset (s.irigTheta f)).when
      (((s.irigTaken f).showOffset Reg.irigOffset (s.irigTheta f)).fget F.invCtlSrc == 2)
      (·.measureOffset (s.irigTheta f) 0) := by
  have hfew : Nat.ble 3 (s.inv.irigGood + 1) = false := by
    rw [Bool.eq_false_iff, ne_eq, Nat.ble_eq]
    omega
  simp only [State.irigFrame, hen, h, hfew, Bool.not_true, cond_false, Bool.false_and]
  rfl

end References

/-- Settles O23: EN starts or stops the servo, a lost reference leaves its state, and the frames run their counts. -/
theorem servoStartsStopsAndHolds : Obligations.ServoStartsStopsAndHolds := by
  refine ⟨?_, ?_, fun s hr hoff => ?_, fun s hr hen hfirst => ?_, fun s hr hoff f => ⟨?_, ?_⟩,
    fun s f hr hen hbad => ?_, ?_, ?_⟩
  · rintro s u w hr rfl hclr
    have hstored : s.ctlStored w = s.store Reg.invCtl w := State.when_false hclr _ _
    refine ⟨fun hwas hen => ?_, fun hwas hen => ?_⟩
    · have hwrite := State.writeInvCtl_of_start hwas (hstored ▸ hen)
      exact congrArg Host.Outcome.next ((State.atDom_ready hr _).trans (hwrite.trans (by rw [hstored]; rfl)))
    · have hwrite := State.writeInvCtl_of_stop hwas (hstored ▸ hen)
      exact congrArg Host.Outcome.next ((State.atDom_ready hr _).trans (hwrite.trans (by rw [hstored])))
  · rintro s u hr rfl hen hsteers
    have hlost := State.loseReference_of_steering hen hsteers
    refine ⟨fun hempty => ?_, fun hheld => ?_⟩
    · rw [List.isEmpty_iff.mpr hempty, cond_true] at hlost
      exact congrArg Host.Outcome.next ((State.atDom_ready hr _).trans hlost)
    · rw [List.isEmpty_eq_false_iff.mpr hheld, cond_false] at hlost
      exact congrArg Host.Outcome.next ((State.atDom_ready hr _).trans hlost)
  · exact congrArg Host.Outcome.next ((State.atDom_ready hr _).trans (State.loseReference_of_off hoff))
  · refine congrArg Host.Outcome.next ((State.atDom_ready hr _).trans ((State.when_true hen s _).trans ?_))
    rw [State.irigMiss_of_first hfirst, State.irigMissed, State.onInv, hfirst]
    rfl
  · exact congrArg Host.Outcome.next ((State.atDom_ready hr _).trans (State.when_false hoff s _))
  · exact congrArg Host.Outcome.next ((State.atDom_ready hr _).trans (State.irigFrame_of_off hoff f))
  · exact congrArg Host.Outcome.next ((State.atDom_ready hr _).trans (State.irigFrame_of_invalid hen hbad))
  · rintro s u v hr hen hsecond hlock rfl rfl
    refine congrArg Host.Outcome.next ((State.atDom_ready hr _).trans ((State.when_true hen s _).trans ?_))
    rw [State.irigMiss_of_second hsecond hlock, State.when, Bool.cond_eq_ite]
    simp only [beq_iff_eq]
    rfl
  · rintro s v f theta hr hen hvalid hearly rfl rfl
    refine congrArg Host.Outcome.next ((State.atDom_ready hr _).trans ?_)
    rw [State.irigFrame_of_early hen hvalid hearly, State.when, Bool.cond_eq_ite]
    simp only [beq_iff_eq]
    rfl

end Sys2Proof.Machine
end

section
/-! SUPPORT. Capture inputs and pulse outputs (R96 to R100): the words that Bronze, Quench and the Notice Rings write
lie outside Invar's block, what a captured edge stores, how a train drives its pin, and the statements of
03_invar_network_time.md on them. -/

namespace Sys2Proof.Machine

/-! ### Words outside Invar's block -/

section InvarWords

/-- The words of Invar's registers and captures read as before (Table 1.2). -/
def InvarSame (s t : State) : Prop := ∀ a, 0x30000 ≤ a → a < 0x40000 → t.rd a = s.rd a

/-- A word outside Invar's block. -/
def outsideInvar (a : Nat) : Prop := a < 0x30000 ∨ 0x40000 ≤ a

variable {z s : State}

theorem InvarSame.refl : InvarSame s s := fun _ _ _ => rfl

theorem InvarSame.wr {a : Nat} (h : InvarSame z s) (ha : outsideInvar a) (n : Nat) : InvarSame z (s.wr a n) :=
  fun b hlo hhi => (State.rd_wr_ne (by unfold outsideInvar at ha; omega) s n).trans (h b hlo hhi)

theorem InvarSame.fput {f : Fld} (h : InvarSame z s) (hf : outsideInvar f.addr) (n : Nat) : InvarSame z (s.fput f n) :=
  h.wr hf _

theorem InvarSame.fset {f : Fld} (h : InvarSame z s) (hf : outsideInvar f.addr) (b : Bool) : InvarSame z (s.fset f b) :=
  h.wr hf _

theorem InvarSame.cnt {a : Nat} (h : InvarSame z s) (ha : outsideInvar a) : InvarSame z (s.cnt a) := h.wr ha _

theorem InvarSame.of_regs {t : State} (h : InvarSame z s) (ht : t.regs = s.regs) : InvarSame z t :=
  fun a hlo hhi => (State.rd_eq_of_regs ht a).trans (h a hlo hhi)

theorem InvarSame.cond {b : Bool} {t : State} (hs : InvarSame z s) (ht : InvarSame z t) :
    InvarSame z (bif b then s else t) := by cases b <;> assumption

theorem InvarSame.when {b : Bool} {f : State → State} (hs : InvarSame z s) (hf : InvarSame z (f s)) :
    InvarSame z (s.when b f) := InvarSame.cond hf hs

/-! #### Host memory and the Notice Rings (R232 to R235, R396) -/

theorem InvarSame.outstanding (h : InvarSame z s) (m : Nat) (write : Bool) : InvarSame z (s.outstanding m write) := by
  refine h.fput (.inr ?_) _
  cases write <;> simp only [outField, cond_true, cond_false, F.mtxOutWr, F.mtxOutRd, Reg.mtxOut] <;> omega

theorem InvarSame.issueParked (h : InvarSame z s) (m : Nat) (write : Bool) (k : Nat) :
    InvarSame z (s.issueParked m write k) := by
  induction k generalizing s with
  | zero => exact h
  | succ k ih =>
    unfold State.issueParked
    split
    · exact h
    · exact InvarSame.cond h (ih (((h.of_regs rfl).outstanding m write).of_regs rfl))

theorem InvarSame.request (h : InvarSame z s) (m : Nat) (o : Out) : InvarSame z (s.request m o) := by
  have hparked : InvarSame z { s with parked := s.parked ++ [(m, o)] } := h.of_regs rfl
  exact (InvarSame.when hparked (hparked.cnt (.inr (by simp only [Reg.mtxCnt]; omega)))).issueParked _ _ _

theorem InvarSame.grant (h : InvarSame z s) (m t : Nat) : InvarSame z (s.grant m t) := h.of_regs rfl

theorem InvarSame.defAccess (h : InvarSame z s) (addr m : Nat) (write iso hxl : Bool) :
    InvarSame z (s.defAccess addr m write iso hxl) := by
  have hcnt := h.cnt (a := Reg.mtxCnt 0) (.inr (by decide))
  exact InvarSame.cond hcnt ((hcnt.wr (.inr (by decide)) _).wr (.inr (by decide)) _)

theorem InvarSame.hostBus (h : InvarSame z s) (k addr m : Nat) (write : Bool) (o : Out) :
    InvarSame z (s.hostBus k addr m write o) :=
  InvarSame.cond ((h.grant m (13 + k)).request m o) (((h.grant m 15).defAccess _ _ _ _ _).outstanding _ _)

theorem InvarSame.setRing (h : InvarSame z s) (r : Nat) (x : Ring) : InvarSame z (s.setRing r x) := h.of_regs rfl

theorem InvarSame.sendMsix (h : InvarSame z s) (k v : Nat) : InvarSame z (s.sendMsix k v) :=
  InvarSame.cond (h.of_regs rfl) (h.of_regs rfl)

theorem InvarSame.ringIrq (h : InvarSame z s) (r : Nat) : InvarSame z (s.ringIrq r) :=
  InvarSame.cond (InvarSame.cond (h.setRing r _) ((h.setRing r _).sendMsix _ _)) h

theorem InvarSame.slotNow (h : InvarSame z s) (r : Nat) (irq : Bool) : InvarSame z (s.slotNow r irq) := by
  refine InvarSame.cond h (InvarSame.when ?_ (InvarSame.ringIrq ?_ r)) <;> exact (h.hostBus _ _ _ _ _).setRing _ _

theorem InvarSame.slotWrite (h : InvarSame z s) (r : Nat) (irq : Bool) : InvarSame z (s.slotWrite r irq) := by
  unfold State.slotWrite
  split
  · exact h.slotNow r irq
  · exact h.of_regs rfl

theorem InvarSame.putNotice {k : Nat} (h : InvarSame z s) (hk : k < 2) (code block ns sec index : Nat)
    (args : List Nat) : InvarSame z (s.putNotice k code block ns sec index args) := by
  have hhead : outsideInvar (Reg.ringHead (noticeRing k)) := by interval_cases k <;> exact .inl (by decide)
  refine InvarSame.wr ?_ hhead _
  exact ((h.hostBus _ _ _ _ _).hostBus _ _ _ _ _).of_regs rfl

theorem InvarSame.loseNotice {k : Nat} (h : InvarSame z s) (hk : k < 2) (code t : Nat) :
    InvarSame z (s.loseNotice k code t) := by
  have hlost : outsideInvar (Reg.ntcLost k) := .inl (by simp only [Reg.ntcLost]; omega)
  have hsts : outsideInvar Reg.ntcSts := .inl (by decide)
  refine InvarSame.fset (f := ntcPend k) (InvarSame.fset (f := ntcOvf k) (InvarSame.cnt ?_ hlost) hsts _) hsts _
  exact h.of_regs rfl

theorem InvarSame.noticeTo {k : Nat} (h : InvarSame z s) (hk : k < 2) (code block index : Nat) (args : List Nat) :
    InvarSame z (s.noticeTo k code block index args) := by
  have hsummary : InvarSame z (s.putSummary k) :=
    (h.putNotice hk _ _ _ _ _ _).fset (.inl (show Reg.ntcSts < 0x30000 by decide)) _
  exact InvarSame.cond h (InvarSame.cond
    (InvarSame.cond ((hsummary.putNotice hk _ _ _ _ _ _).slotWrite _ _) (h.loseNotice hk _ _))
    (InvarSame.cond ((h.putNotice hk _ _ _ _ _ _).slotWrite _ _) (h.loseNotice hk _ _)))

/-- A notice writes no word of Invar's. -/
theorem InvarSame.notice (h : InvarSame z s) (code block index : Nat) (args : List Nat) :
    InvarSame z (s.notice code block index args) :=
  (h.noticeTo (by decide) _ _ _ _).noticeTo (by decide) _ _ _ _

/-! #### Bronze's input queue (R435, R436) -/

theorem InvarSame.brzLose (h : InvarSame z s) : InvarSame z s.brzLose := by
  have hcnt := h.cnt (a := Reg.brzCnt 2) (.inr (by decide))
  exact hcnt.of_regs rfl

theorem InvarSame.latchOne_overflow (h : InvarSame z s) : InvarSame z (s.latchOne 62 2) :=
  ((h.fset (f := fswBit 62) (.inl (by decide)) _).fput (f := F.qchSrc1Cause 62) (.inl (by decide)) _).fput
    (f := F.qchSrc1Count 62) (.inl (by decide)) _

theorem InvarSame.firstUpdate (h : InvarSame z s) (rs : List (Nat × Nat)) : InvarSame z (s.firstUpdate rs) := by
  have hmask := (h.wr (a := Reg.qchFirst0) (.inl (by decide)) (maskOf rs % 2 ^ 32)).wr (a := Reg.qchFirst1)
    (.inl (by decide)) (maskOf rs / 2 ^ 32)
  exact InvarSame.cond h (((hmask.wr (.inl (by decide)) _).wr (.inl (by decide)) _).fset (.inl (by decide)) _)

theorem InvarSame.driveFault (h : InvarSame z s) : InvarSame z s.driveFault := by
  have hfault := h.fset (f := F.qchStsFault) (.inl (by decide)) s.faultCond
  exact hfault.of_regs rfl

theorem InvarSame.brzOverflow (h : InvarSame z s) : InvarSame z s.brzOverflow := by
  have hlatched := (h.latchOne_overflow.firstUpdate [(62, 2)]).brzLose.driveFault
  exact InvarSame.cond h.latchOne_overflow (InvarSame.when hlatched (hlatched.notice _ _ _ _))

theorem InvarSame.suppress (h : InvarSame z s) (code : Nat) : InvarSame z (s.suppress code) := by
  have hlim : outsideInvar (Reg.brzLim code) := .inr (by simp only [Reg.brzLim]; omega)
  refine InvarSame.cnt (InvarSame.fput (f := F.brzLimSupp code) (InvarSame.when h ?_) hlim _) (.inr (by decide))
  exact h.of_regs rfl

/-- An event that reaches Bronze writes no word of Invar's. -/
theorem InvarSame.brzEvent (h : InvarSame z s) (code block index arg0 arg1 : Nat) :
    InvarSame z (s.brzEvent code block index arg0 arg1) := by
  refine InvarSame.cond (h.suppress code) (InvarSame.cond h.brzLose.brzOverflow ?_)
  exact h.of_regs rfl

end InvarWords

/-! ### Capture inputs (R96 to R98) -/

section Captures

theorem bitAt_or_one (w : Nat) : bitAt (w ||| 1) 0 = true := by
  rw [bitAt, Nat.testBit_or, show Nat.testBit 1 0 = true from rfl, Bool.or_true]

theorem bitAt_clear_one (w : Nat) : bitAt (w &&& 0xFFFFFFFE) 0 = false := by
  rw [bitAt, Nat.testBit_and, show Nat.testBit 0xFFFFFFFE 0 = false from rfl, Bool.and_false]

theorem State.rd_wr_zero (s : State) (a : Nat) : (s.wr a 0).rd a = 0 := by rw [State.rd_wr_self, Nat.zero_and]

theorem tcap_fields_held : ∀ n < 4, Fld.held (F.tcapStsDone n) = true ∧ Fld.held (F.tcapStsEdge n) = true ∧
    Fld.held (F.tcapSecxSecHi n) = true ∧ Fld.held (F.tcapSecxFrac n) = true := by decide +kernel

/-- TCAP_NS, TCAP_SEC and TCAP_EDGES hold every bit. -/
theorem tcap_words_full : ∀ n < 4, implOf (Reg.tcapNs n) = 2 ^ 32 - 1 ∧ implOf (Reg.tcapSec n) = 2 ^ 32 - 1 ∧
    implOf (Reg.tcapEdges n) = 2 ^ 32 - 1 := by decide +kernel

/-- The registers of one input differ. -/
theorem tcap_words_ne (n : Nat) : Reg.tcapSts n ≠ Reg.tcapNs n ∧ Reg.tcapSts n ≠ Reg.tcapSec n ∧
    Reg.tcapSts n ≠ Reg.tcapSecx n ∧ Reg.tcapNs n ≠ Reg.tcapSec n ∧ Reg.tcapNs n ≠ Reg.tcapSecx n ∧
    Reg.tcapSec n ≠ Reg.tcapSecx n := by
  simp only [Reg.tcapSts, Reg.tcapNs, Reg.tcapSec, Reg.tcapSecx]
  omega

variable (s : State) (n : Nat)

/-- The capture words of input `n` read 0. -/
def State.tcapCleared : State :=
  (((s.wr (Reg.tcapSts n) 0).wr (Reg.tcapNs n) 0).wr (Reg.tcapSec n) 0).wr (Reg.tcapSecx n) 0

theorem State.rd_tcapCleared : (s.tcapCleared n).rd (Reg.tcapSts n) = 0 ∧ (s.tcapCleared n).rd (Reg.tcapNs n) = 0 ∧
    (s.tcapCleared n).rd (Reg.tcapSec n) = 0 ∧ (s.tcapCleared n).rd (Reg.tcapSecx n) = 0 := by
  obtain ⟨hns, hsec, hsecx, hnsSec, hnsSecx, hsecSecx⟩ := tcap_words_ne n
  refine ⟨?_, ?_, ?_, State.rd_wr_zero _ _⟩
  · exact (State.rd_wr_ne hsecx _ 0).trans
      ((State.rd_wr_ne hsec _ 0).trans ((State.rd_wr_ne hns _ 0).trans (State.rd_wr_zero _ _)))
  · exact (State.rd_wr_ne hnsSecx _ 0).trans ((State.rd_wr_ne hnsSec _ 0).trans (State.rd_wr_zero _ _))
  · exact (State.rd_wr_ne hsecSecx _ 0).trans (State.rd_wr_zero _ _)

/-- Input `n` waits for an edge from an instant on. -/
def State.armedAt (instant : Nat) : State :=
  s.onInv fun x => { x with armed := withBits x.armed n 1 1, armAt := Table.put 0 instant n x.armAt }

theorem State.armedAt_rd (instant a : Nat) : (s.armedAt n instant).rd a = s.rd a := s.onInv_rd _ a

theorem State.armedAt_record (instant : Nat) : bitAt (s.armedAt n instant).inv.armed n = true ∧
    Table.get 0 n (s.armedAt n instant).inv.armAt = instant := by
  refine ⟨?_, Table.get_put_self 0 instant n s.inv.armAt⟩
  simp [State.armedAt, State.onInv, bitAt, testBit_withBits]

/-- ARM clears the capture and arms the input from now on. -/
theorem State.writeTcap_of_arm {w : Nat} (h : bitAt w 0 = true) :
    s.writeTcap n w = ((s.store (Reg.tcapCfg n) w).tcapCleared n).armedAt n (16 * s.counter / nsUnit) := by
  simp only [State.writeTcap, h, Bool.not_true, cond_false, State.tcapCleared, State.armedAt]

/-- An edge counts, and its pulse enters the event router. -/
def State.edgeCounted : State := (s.cnt (Reg.tcapEdges n)).pulse (17 + n)

theorem State.ready_cnt_tcapEdges : (s.cnt (Reg.tcapEdges n)).ready 47 = s.ready 47 := by
  have hne : (F.pwrDomState 47).addr ≠ Reg.tcapEdges n := by simp only [F.pwrDomState, Reg.pwrDom, Reg.tcapEdges]; omega
  have hstate : (s.cnt (Reg.tcapEdges n)).fget (F.pwrDomState 47) = s.fget (F.pwrDomState 47) :=
    State.fget_eq_of_rd (State.rd_wr_ne hne s _)
  rw [State.ready, State.ready, hstate]
  rfl

theorem State.edgeCounted_onlyWords :
    OnlyWords [Reg.tcapEdges n] { s with pulses := (s.edgeCounted n).pulses } (s.edgeCounted n) := by
  have hcnt : OnlyWords [Reg.tcapEdges n] s (s.cnt (Reg.tcapEdges n)) :=
    OnlyWords.refl.wr (List.mem_singleton.mpr rfl) _
  obtain ⟨-, hwords⟩ := hcnt
  refine ⟨?_, fun a ha => (State.pulse_word _ _ a).trans (hwords a ha)⟩
  unfold State.edgeCounted State.pulse State.when
  cases (s.cnt (Reg.tcapEdges n)).ready 47 <;> rfl

theorem State.edgeCounted_inv : (s.edgeCounted n).inv = s.inv := by
  obtain ⟨hrest, -⟩ := s.edgeCounted_onlyWords n
  exact congrArg (·.inv) hrest

theorem State.edgeCounted_pulses :
    (s.edgeCounted n).pulses = if s.ready 47 then s.pulses ++ [17 + n] else s.pulses := by
  rw [← s.ready_cnt_tcapEdges n, ← Bool.cond_eq_ite]
  exact Bool.apply_cond State.pulses

theorem State.rd_edgeCounted (hn : n < 4) :
    (s.edgeCounted n).rd (Reg.tcapEdges n) = (s.rd (Reg.tcapEdges n) + 1) % 2 ^ 32 := by
  obtain ⟨-, -, hfull⟩ := tcap_words_full n hn
  refine (congrArg BitVec.toNat (State.pulse_word _ _ _)).trans ?_
  exact (State.rd_wr_full hfull _ _).trans (Nat.mod_mod _ _)

variable (rising : Bool) (t16 : Nat)

/-- The words of input `n` store an edge and its stamp. -/
def State.edgeStored : State :=
  (s.wr (Reg.tcapSts n) (1 + 2 * bit rising)).putInstant (Reg.tcapNs n) (t16 / 16) (4096 * (t16 % 16))

theorem State.edgeStored_eq : s.edgeStored n rising t16
    = (((s.wr (Reg.tcapSts n) (1 + 2 * bit rising)).wr (Reg.tcapNs n) (t16 / 16 % 1000000000)).wr (Reg.tcapSec n)
      (t16 / 16 / 1000000000 % 2 ^ 32)).wr (Reg.tcapSecx n)
        (t16 / 16 / 1000000000 / 2 ^ 32 % 2 ^ 16 + 2 ^ 16 * (4096 * (t16 % 16))) := by
  have hsec : Reg.tcapNs n + 4 = Reg.tcapSec n := by simp only [Reg.tcapNs, Reg.tcapSec]; omega
  have hsecx : Reg.tcapNs n + 8 = Reg.tcapSecx n := by simp only [Reg.tcapNs, Reg.tcapSecx]; omega
  rw [State.edgeStored, State.putInstant, hsec, hsecx]

/-- TCAP_STS shows the edge. -/
theorem State.edgeStored_status (hn : n < 4) : (s.edgeStored n rising t16).flag (F.tcapStsDone n) = true ∧
    (s.edgeStored n rising t16).flag (F.tcapStsEdge n) = rising := by
  obtain ⟨hdone, hedge, -, -⟩ := tcap_fields_held n hn
  obtain ⟨hns, hsec, hsecx, -⟩ := tcap_words_ne n
  have hword : (s.edgeStored n rising t16).rd (Reg.tcapSts n)
      = (s.wr (Reg.tcapSts n) (1 + 2 * bit rising)).rd (Reg.tcapSts n) := by
    rw [State.edgeStored_eq, State.rd_wr_ne hsecx, State.rd_wr_ne hsec, State.rd_wr_ne hns]
  refine ⟨(State.flag_eq_of_rd (f := F.tcapStsDone n) hword).trans ((State.flag_wr_self hdone _ _).trans ?_),
    (State.flag_eq_of_rd (f := F.tcapStsEdge n) hword).trans ((State.flag_wr_self hedge _ _).trans ?_)⟩
  · exact (bitsOf_one_beq _ 0).trans (by cases rising <;> rfl)
  · exact (bitsOf_one_beq _ 1).trans (by cases rising <;> rfl)

/-- TCAP_NS, TCAP_SEC and TCAP_SECX show its stamp. -/
theorem State.edgeStored_stamp (hn : n < 4) :
    (s.edgeStored n rising t16).rd (Reg.tcapNs n) = t16 / 16 % 1000000000 ∧
      (s.edgeStored n rising t16).rd (Reg.tcapSec n) = t16 / 16 / 1000000000 % 2 ^ 32 ∧
      (s.edgeStored n rising t16).fget (F.tcapSecxSecHi n) = t16 / 16 / 1000000000 / 2 ^ 32 % 2 ^ 16 ∧
      (s.edgeStored n rising t16).fget (F.tcapSecxFrac n) = 4096 * (t16 % 16) := by
  obtain ⟨-, -, hhi, hfrac⟩ := tcap_fields_held n hn
  obtain ⟨hnsFull, hsecFull, -⟩ := tcap_words_full n hn
  obtain ⟨-, -, -, hnsSec, hnsSecx, hsecSecx⟩ := tcap_words_ne n
  rw [State.edgeStored_eq]
  refine ⟨?_, ?_, ?_, ?_⟩
  · rw [State.rd_wr_ne hnsSecx, State.rd_wr_ne hnsSec, State.rd_wr_full hnsFull]
    omega
  · rw [State.rd_wr_ne hsecSecx, State.rd_wr_full hsecFull, Nat.mod_mod]
  · refine (State.fget_wr_self (f := F.tcapSecxSecHi n) hhi _ _).trans ?_
    simp only [F.tcapSecxSecHi, bitsOf, Nat.shiftRight_zero]
    omega
  · refine (State.fget_wr_self (f := F.tcapSecxFrac n) hfrac _ _).trans ?_
    rw [F.tcapSecxFrac, bitsOf, Nat.shiftRight_eq_div_pow, Nat.add_mul_div_left _ _ (by decide),
      Nat.div_eq_of_lt (Nat.mod_lt _ (by decide)), Nat.zero_add]
    exact Nat.mod_eq_of_lt (show 4096 * (t16 % 16) < 2 ^ 16 by omega)

/-- The stored words are the only ones that an edge stores. -/
theorem OnlyWords.edgeStored {l : List Nat} {s t : State} (h : OnlyWords l s t)
    (hl : ∀ a ∈ [Reg.tcapSts n, Reg.tcapNs n, Reg.tcapSec n, Reg.tcapSecx n], a ∈ l) :
    OnlyWords l s (t.edgeStored n rising t16) := by
  rw [State.edgeStored_eq]
  exact (((h.wr (hl _ (by simp)) _).wr (hl _ (by simp)) _).wr (hl _ (by simp)) _).wr (hl _ (by simp)) _

/-- The input is armed no more. -/
def State.disarmed : State := s.onInv fun x => { x with armed := withBits x.armed n 1 0 }

theorem State.disarmed_rd (a : Nat) : (s.disarmed n).rd a = s.rd a := s.onInv_rd _ a

theorem State.disarmed_record : bitAt (s.disarmed n).inv.armed n = false := by
  simp [State.disarmed, State.onInv, bitAt, testBit_withBits]

/-- A stored edge leaves the pulses on their way. -/
theorem State.captured_pulses : ((s.edgeStored n rising t16).disarmed n).pulses = s.pulses := rfl

section Edges

variable {s n rising t16}

theorem State.tcapEdge_of_other (h : s.polMatch n rising = false) : s.tcapEdge n rising t16 = s := by
  rw [State.tcapEdge, h, Bool.not_false, Bool.or_true, cond_true]

variable (hn : n < 4) (hpol : s.polMatch n rising = true) (hrecord : s.flag (F.tcapCfgBronze n) = false)
  (hnotice : s.flag (F.tcapCfgNotice n) = false)

include hn hpol hrecord hnotice

/-- A qualifying edge without a record and a notice counts, and a waiting input captures it. -/
theorem State.tcapEdge_of_match : s.tcapEdge n rising t16
    = bif !bitAt s.inv.armed n || Nat.blt t16 (Table.get 0 n s.inv.armAt) then s.edgeCounted n
      else ((s.edgeCounted n).edgeStored n rising t16).disarmed n := by
  have hinput : (Nat.blt 3 n || !s.polMatch n rising) = false := by
    rw [hpol, Bool.not_true, Bool.or_false, Bool.eq_false_iff, ne_eq, Nat.blt_eq]
    omega
  have hcfg : (s.edgeCounted n).rd (Reg.tcapCfg n) = s.rd (Reg.tcapCfg n) :=
    (s.edgeCounted_onlyWords n).rd (by simp [Reg.tcapCfg, Reg.tcapEdges])
  have hnoRecord : (s.edgeCounted n).flag (F.tcapCfgBronze n) = false :=
    (State.flag_eq_of_rd (f := F.tcapCfgBronze n) hcfg).trans hrecord
  have hnoNotice : (s.edgeCounted n).flag (F.tcapCfgNotice n) = false :=
    (State.flag_eq_of_rd (f := F.tcapCfgNotice n) hcfg).trans hnotice
  have hcounted : (s.cnt (Reg.tcapEdges n)).pulse (17 + n) = s.edgeCounted n := rfl
  simp only [State.tcapEdge, hinput, cond_false, hcounted, State.when_false hnoRecord, State.when_false hnoNotice,
    s.edgeCounted_inv n, State.edgeStored, State.disarmed]

theorem State.tcapEdge_of_waiting (harmed : bitAt s.inv.armed n = true) (htime : Table.get 0 n s.inv.armAt ≤ t16) :
    s.tcapEdge n rising t16 = ((s.edgeCounted n).edgeStored n rising t16).disarmed n := by
  have hwaits : (!bitAt s.inv.armed n || Nat.blt t16 (Table.get 0 n s.inv.armAt)) = false := by
    rw [harmed, Bool.not_true, Bool.false_or, Bool.eq_false_iff, ne_eq, Nat.blt_eq]
    exact Nat.not_lt.mpr htime
  rw [State.tcapEdge_of_match hn hpol hrecord hnotice, hwaits, cond_false]

theorem State.tcapEdge_of_idle (h : bitAt s.inv.armed n = false ∨ t16 < Table.get 0 n s.inv.armAt) :
    s.tcapEdge n rising t16 = s.edgeCounted n := by
  have hidle : (!bitAt s.inv.armed n || Nat.blt t16 (Table.get 0 n s.inv.armAt)) = true := by
    rw [Bool.or_eq_true, Bool.not_eq_true', Nat.blt_eq]
    exact h
  rw [State.tcapEdge_of_match hn hpol hrecord hnotice, hidle, cond_true]

end Edges

end Captures

/-- Settles O24: an arming clears the capture, and an edge counts and is stored where the input waits for it. -/
theorem capturesStoreTheFirstArmedEdge : Obligations.CapturesStoreTheFirstArmedEdge := by
  refine fun s n hn hr => ⟨fun w => ?_, fun rising t16 hpol hrecord hnotice => ?_, fun rising t16 hpol => ?_⟩
  · let u := (s.store (Reg.tcapCfg n) (w ||| 1)).tcapCleared n
    obtain ⟨hsts, hns, hsec, hsecx⟩ := (s.store (Reg.tcapCfg n) (w ||| 1)).rd_tcapCleared n
    obtain ⟨harmed, hinstant⟩ := u.armedAt_record n (16 * s.counter / nsUnit)
    have hword := u.armedAt_rd n (16 * s.counter / nsUnit)
    have honly : OnlyWords [Reg.tcapCfg n, Reg.tcapSts n, Reg.tcapNs n, Reg.tcapSec n, Reg.tcapSecx n] s u :=
      (((((s.store_onlyWords (Reg.tcapCfg n) (w ||| 1)).mono (by simp)).wr (by simp) _).wr (by simp) _).wr
        (by simp) _).wr (by simp) _
    exact ⟨_, congrArg Host.Outcome.next ((State.atDom_ready hr _).trans (s.writeTcap_of_arm n (bitAt_or_one w))),
      (hword _).trans hsts, (hword _).trans hns, (hword _).trans hsec, (hword _).trans hsecx, harmed, hinstant,
      OnlyWords.onInv (i := s.inv) honly _⟩
  · have hexec : exec (.tcapEdge n rising t16) s = .next (s.tcapEdge n rising t16) :=
      congrArg Host.Outcome.next (State.atDom_ready hr _)
    have hcounted := s.edgeCounted_onlyWords n
    have hcount := s.rd_edgeCounted n hn
    have hpulses := s.edgeCounted_pulses n
    by_cases hwaits : bitAt s.inv.armed n = true ∧ Table.get 0 n s.inv.armAt ≤ t16
    · obtain ⟨harmed, htime⟩ := hwaits
      let v := (s.edgeCounted n).edgeStored n rising t16
      obtain ⟨hdone, hedge⟩ := (s.edgeCounted n).edgeStored_status n rising t16 hn
      obtain ⟨hns, hsec, hhi, hfrac⟩ := (s.edgeCounted n).edgeStored_stamp n rising t16 hn
      have hstored := OnlyWords.edgeStored (l := [Reg.tcapSts n, Reg.tcapNs n, Reg.tcapSec n, Reg.tcapSecx n]) n rising
        t16 (s := s.edgeCounted n) OnlyWords.refl fun _ ha => ha
      have honly : OnlyWords [Reg.tcapEdges n, Reg.tcapSts n, Reg.tcapNs n, Reg.tcapSec n, Reg.tcapSecx n]
          { s with pulses := (s.edgeCounted n).pulses } v :=
        (hcounted.mono (by simp)).edgeStored n rising t16 fun _ ha => List.mem_cons_of_mem _ ha
      rw [State.tcapEdge_of_waiting hn hpol hrecord hnotice harmed htime] at hexec
      have hword := v.disarmed_rd n
      have hkept := (s.edgeCounted n).captured_pulses n rising t16
      refine ⟨_, hexec, ?_, hkept.trans hpulses, fun _ _ => ?_, fun hidle => ?_⟩
      · refine (hword _).trans ((hstored.rd ?_).trans hcount)
        simp [Reg.tcapEdges, Reg.tcapSts, Reg.tcapNs, Reg.tcapSec, Reg.tcapSecx]
      · refine ⟨(State.flag_eq_of_rd (hword _)).trans hdone, (State.flag_eq_of_rd (hword _)).trans hedge,
          (hword _).trans hns, (hword _).trans hsec, (State.fget_eq_of_rd (hword _)).trans hhi,
          (State.fget_eq_of_rd (hword _)).trans hfrac, v.disarmed_record n, ?_⟩
        rw [hkept]
        exact OnlyWords.onInv (s := { s with pulses := (s.edgeCounted n).pulses }) (i := s.inv) honly _
      · rcases hidle with hoff | hlate
        · exact absurd harmed (by rw [hoff]; decide)
        · exact absurd htime (Nat.not_le.mpr hlate)
    · have hidle : bitAt s.inv.armed n = false ∨ t16 < Table.get 0 n s.inv.armAt := by
        rwa [not_and_or, Bool.not_eq_true, Nat.not_le] at hwaits
      rw [State.tcapEdge_of_idle hn hpol hrecord hnotice hidle] at hexec
      exact ⟨_, hexec, hcount, hpulses, fun harmed htime => absurd ⟨harmed, htime⟩ hwaits, fun _ => hcounted⟩
  · exact congrArg Host.Outcome.next ((State.atDom_ready hr _).trans (State.tcapEdge_of_other hpol))

/-! ### Pulse outputs (R99, R100) -/

section Trains

variable {s : State} {n : Nat}

theorem State.train_setTrain (s : State) (n : Nat) (x : Train) : (s.setTrain n x).train n = x :=
  Table.get_put_self _ _ _ _

/-- The level of a driven output: 1 low, 2 high. -/
theorem State.drivePulse_level (s : State) (n : Nat) (active : Bool) :
    Table.get 0 (Pin.tpulse n) (s.drivePulse n active).pins = if s.flag (F.tpulseCtlInv n) = active then 1 else 2 := by
  refine (Table.get_put_self 0 (1 + bit (active != s.flag (F.tpulseCtlInv n))) (Pin.tpulse n) s.pins).trans ?_
  cases active <;> cases s.flag (F.tpulseCtlInv n) <;> rfl

/-! #### PULSE_EDGE -/

theorem State.pulseEdge_of_stopped (h : s.flag (F.tpulseStsRunning n) = false) : s.pulseEdge n = s := by
  rw [State.pulseEdge, h, Bool.not_false, cond_true]

section Running

variable (hrun : s.flag (F.tpulseStsRunning n) = true)
include hrun

/-- An edge outside a pulse starts one. -/
theorem State.pulseEdge_of_idle (hlow : (s.train n).high = false) : s.pulseEdge n
    = (s.drivePulse n true).setTrain n
      { s.train n with high := true, done := (s.train n).done + 1, edge := (s.train n).edge + s.pulseWidth n } := by
  simp only [State.pulseEdge, hrun, hlow, Bool.not_true, Bool.false_and, cond_false]

/-- An edge that completes a pulse of the train before leaves the new train's first edge planned. -/
theorem State.pulseEdge_of_replaced (hhigh : (s.train n).high = true) (hfirst : (s.train n).first ≠ 0) :
    s.pulseEdge n = (s.drivePulse n false).setTrain n { edge := (s.train n).first } := by
  simp only [State.pulseEdge, hrun, hhigh, bne_iff_ne.mpr hfirst, Bool.not_true, Bool.true_and, cond_false, cond_true]

variable (hhigh : (s.train n).high = true) (hfirst : (s.train n).first = 0)
include hhigh hfirst

theorem State.pulseEdge_of_high : s.pulseEdge n
    = bif (s.train n).ending || (s.rd (Reg.tpulseCount n) != 0 && Nat.ble (s.rd (Reg.tpulseCount n)) (s.train n).done)
      then s.pulseEnd n
      else (s.drivePulse n false).setTrain n
        { s.train n with high := false, edge := (s.train n).edge + s.pulsePeriod n - s.pulseWidth n } := by
  simp only [State.pulseEdge, hrun, hhigh, hfirst, bne_self_eq_false, Bool.not_true, Bool.and_false, cond_false, cond_true]

/-- An edge inside a pulse that others follow ends it. -/
theorem State.pulseEdge_of_inner (hgoes : (s.train n).ending = false)
    (hleft : s.rd (Reg.tpulseCount n) = 0 ∨ (s.train n).done < s.rd (Reg.tpulseCount n)) :
    s.pulseEdge n = (s.drivePulse n false).setTrain n
      { s.train n with high := false, edge := (s.train n).edge + s.pulsePeriod n - s.pulseWidth n } := by
  have hmore : (s.rd (Reg.tpulseCount n) != 0 && Nat.ble (s.rd (Reg.tpulseCount n)) (s.train n).done) = false := by
    rw [Bool.and_eq_false_iff, bne_eq_false_iff_eq, Bool.eq_false_iff (b := Nat.ble _ _), ne_eq, Nat.ble_eq, Nat.not_le]
    exact hleft
  rw [State.pulseEdge_of_high hrun hhigh hfirst, hgoes, hmore, Bool.or_self, cond_false]

/-- The last one ends the train. -/
theorem State.pulseEdge_of_last (h : (s.train n).ending = true ∨
    (s.rd (Reg.tpulseCount n) ≠ 0 ∧ s.rd (Reg.tpulseCount n) ≤ (s.train n).done)) : s.pulseEdge n = s.pulseEnd n := by
  have hlast : ((s.train n).ending || (s.rd (Reg.tpulseCount n) != 0
      && Nat.ble (s.rd (Reg.tpulseCount n)) (s.train n).done)) = true := by
    rw [Bool.or_eq_true, Bool.and_eq_true, bne_iff_ne, Nat.ble_eq]
    exact h
  rw [State.pulseEdge_of_high hrun hhigh hfirst, hlast, cond_true]

end Running

/-! #### The end of a train -/

theorem tpulse_fields_held : ∀ n < 4, Fld.held (F.tpulseCtlEn n) = true ∧ Fld.held (F.tpulseCtlInv n) = true ∧
    Fld.held (F.tpulseStsRunning n) = true := by decide +kernel

theorem tpulseCtl_ne_tpulseSts (n : Nat) : Reg.tpulseCtl n ≠ Reg.tpulseSts n := by
  simp only [Reg.tpulseCtl, Reg.tpulseSts]
  omega

/-- EN and RUNNING read 0. -/
def State.trainStopped (s : State) (n : Nat) : State :=
  (s.fset (F.tpulseCtlEn n) false).fset (F.tpulseStsRunning n) false

theorem State.trainStopped_onlyWords (s : State) (n : Nat) :
    OnlyWords [Reg.tpulseCtl n, Reg.tpulseSts n] s (s.trainStopped n) :=
  (OnlyWords.refl.fset (by simp [F.tpulseCtlEn]) _).fset (by simp [F.tpulseStsRunning]) _

theorem State.trainStopped_flags (hn : n < 4) (s : State) : (s.trainStopped n).flag (F.tpulseCtlEn n) = false ∧
    (s.trainStopped n).flag (F.tpulseStsRunning n) = false ∧
    (s.trainStopped n).flag (F.tpulseCtlInv n) = s.flag (F.tpulseCtlInv n) := by
  obtain ⟨hen, hinv, hrunning⟩ := tpulse_fields_held n hn
  have hword : (s.trainStopped n).rd (Reg.tpulseCtl n) = (s.fset (F.tpulseCtlEn n) false).rd (Reg.tpulseCtl n) :=
    State.rd_fput_ne (f := F.tpulseStsRunning n) (tpulseCtl_ne_tpulseSts n) _ _
  have hkept : (s.fset (F.tpulseCtlEn n) false).fget (F.tpulseCtlInv n) = s.fget (F.tpulseCtlInv n) :=
    State.fget_fput_other (f := F.tpulseCtlEn n) hinv rfl (.inr (Nat.le_refl _)) _ _
  refine ⟨(State.flag_eq_of_rd (f := F.tpulseCtlEn n) hword).trans (State.flag_fset_self hen rfl _ _),
    State.flag_fset_self hrunning rfl _ _, (State.flag_eq_of_rd (f := F.tpulseCtlInv n) hword).trans ?_⟩
  rw [State.flag, State.flag, hkept]

/-- The output takes a level and a record. -/
def State.driveTrain (s : State) (n : Nat) (active : Bool) (x : Train) : State := (s.drivePulse n active).setTrain n x

theorem State.driveTrain_rd (s : State) (n : Nat) (active : Bool) (x : Train) (a : Nat) :
    (s.driveTrain n active x).rd a = s.rd a := rfl

theorem OnlyWords.driveTrain {l : List Nat} {s t : State} (h : OnlyWords l s t) (n : Nat) (active : Bool) (x : Train) :
    OnlyWords l { s with pins := (t.driveTrain n active x).pins, inv := (t.driveTrain n active x).inv }
      (t.driveTrain n active x) := by
  obtain ⟨hrest, hwords⟩ := h
  exact ⟨congrArg (fun v : State =>
    { v with pins := (t.driveTrain n active x).pins, inv := (t.driveTrain n active x).inv }) hrest, hwords⟩

theorem State.pulseEnd_eq (s : State) (n : Nat) : s.pulseEnd n = (s.trainStopped n).driveTrain n false {} := rfl

/-- A train that ends clears EN and RUNNING and drives the inactive level; its record is empty. -/
theorem State.pulseEnd_ends (hn : n < 4) (s : State) :
    Table.get 0 (Pin.tpulse n) (s.pulseEnd n).pins = (if s.flag (F.tpulseCtlInv n) = false then 1 else 2) ∧
      (s.pulseEnd n).flag (F.tpulseCtlEn n) = false ∧ (s.pulseEnd n).flag (F.tpulseStsRunning n) = false ∧
      (s.pulseEnd n).train n = {} ∧ OnlyWords [Reg.tpulseCtl n, Reg.tpulseSts n]
        { s with pins := (s.pulseEnd n).pins, inv := (s.pulseEnd n).inv } (s.pulseEnd n) := by
  obtain ⟨hen, hrunning, hinv⟩ := s.trainStopped_flags hn
  have hlevel := (s.trainStopped n).drivePulse_level n false
  rw [hinv] at hlevel
  have hwords := (s.trainStopped_onlyWords n).driveTrain n false {}
  rw [State.pulseEnd_eq]
  generalize s.trainStopped n = u at hen hrunning hlevel hwords
  exact ⟨hlevel, (State.flag_eq_of_rd (u.driveTrain_rd n false {} _)).trans hen,
    (State.flag_eq_of_rd (u.driveTrain_rd n false {} _)).trans hrunning, State.train_setTrain _ n {}, hwords⟩

/-! #### Writes of TPULSE_CTL -/

section Writes

variable {w : Nat}

theorem State.store_train (s : State) (a v n : Nat) : (s.store a v).train n = s.train n := by
  obtain ⟨hrest, -⟩ := s.store_onlyWords a v
  exact congrArg (fun x : State => Table.get {} n x.inv.trains) hrest

theorem State.writePulse_of_start (hoff : s.flag (F.tpulseCtlEn n) = false) (hw : bitAt w 0 = true) :
    s.writePulse n w = (s.store (Reg.tpulseCtl n) w).pulseEnable n := by
  rw [State.writePulse, hoff, hw, Bool.not_false, Bool.and_self, cond_true]

theorem State.writePulse_of_stop (hon : s.flag (F.tpulseCtlEn n) = true) (hw : bitAt w 0 = false) :
    s.writePulse n w = (s.store (Reg.tpulseCtl n) w).pulseDisable n := by
  rw [State.writePulse, hon, hw, Bool.not_true, Bool.false_and, cond_false, Bool.not_false, Bool.and_self, cond_true]

theorem State.writePulse_of_running (hon : s.flag (F.tpulseCtlEn n) = true) (hw : bitAt w 0 = true) :
    s.writePulse n w = s.store (Reg.tpulseCtl n) w := by
  rw [State.writePulse, hon, hw, Bool.not_true, Bool.false_and, Bool.and_false, Bool.true_or, cond_false, cond_false, cond_true]

theorem State.writePulse_of_stopped (hoff : s.flag (F.tpulseCtlEn n) = false) (hw : bitAt w 0 = false) :
    s.writePulse n w = bif (s.train n).high then s.store (Reg.tpulseCtl n) w
      else (s.store (Reg.tpulseCtl n) w).drivePulse n false := by
  rw [State.writePulse, hoff, hw, Bool.and_false, Bool.false_and, Bool.false_or, cond_false, cond_false]

theorem State.pulseDisable_of_high (h : (s.train n).high = true) :
    s.pulseDisable n = s.setTrain n { s.train n with ending := true } := by rw [State.pulseDisable, h, cond_true]

theorem State.pulseDisable_of_low (h : (s.train n).high = false) : s.pulseDisable n = s.pulseEnd n := by
  rw [State.pulseDisable, h, cond_false]

/-- TPULSE_STS of a first edge that comes too late for its start. -/
def State.trainLate (s : State) (n : Nat) : State := (s.fset (F.tpulseStsLate n) true).cntF (F.tpulseStsLateCnt n)

theorem State.trainLate_running (hn : n < 4) (s : State) :
    (s.trainLate n).flag (F.tpulseStsRunning n) = s.flag (F.tpulseStsRunning n) := by
  obtain ⟨-, -, hrunning⟩ := tpulse_fields_held n hn
  have hkept : (s.trainLate n).fget (F.tpulseStsRunning n) = s.fget (F.tpulseStsRunning n) :=
    (State.fget_fput_other (f := F.tpulseStsLateCnt n) hrunning rfl (.inl (by simp [F.tpulseStsRunning, F.tpulseStsLateCnt])) _ _).trans
      (State.fget_fput_other (f := F.tpulseStsLate n) hrunning rfl (.inl (Nat.le_refl _)) s (bit true))
  rw [State.flag, State.flag, hkept]

/-- A train that starts late is told of. -/
def State.tellTrain (s : State) (n c : Nat) : State := (s.brzEvent 0x86 96 n c 0).notice 0x86 96 n [c, 0, 0]

theorem State.tellTrain_same (s : State) (n c : Nat) : InvarSame s (s.tellTrain n c) :=
  (InvarSame.refl.brzEvent _ _ _ _ _).notice _ _ _ _

/-- The train that EN starts: at once, or after the pulse of the one before. -/
def State.trainStarted (s : State) (n : Nat) : State :=
  bif (s.train n).high then
    (s.fset (F.tpulseStsRunning n) true).setTrain n { s.train n with ending := false, done := 0, first := s.pulseFirst n }
  else ((s.fset (F.tpulseStsRunning n) true).drivePulse n false).setTrain n { edge := s.pulseFirst n }

theorem State.pulseEnable_eq (s : State) (n : Nat) : s.pulseEnable n
    = bif s.pulseFirst n == s.pulseStart n then s.trainStarted n
      else ((s.trainStarted n).trainLate n).tellTrain n (((s.trainStarted n).trainLate n).fget (F.tpulseStsLateCnt n)) :=
  rfl

theorem State.trainStarted_running (hn : n < 4) (s : State) : (s.trainStarted n).flag (F.tpulseStsRunning n) = true := by
  obtain ⟨-, -, hrunning⟩ := tpulse_fields_held n hn
  have hset : (s.fset (F.tpulseStsRunning n) true).flag (F.tpulseStsRunning n) = true :=
    State.flag_fset_self hrunning rfl s true
  have hregs : (s.trainStarted n).regs = (s.fset (F.tpulseStsRunning n) true).regs := by
    unfold State.trainStarted
    cases (s.train n).high <;> rfl
  exact (State.flag_eq_of_rd (State.rd_eq_of_regs hregs _)).trans hset

/-- RUNNING reads 1 once EN is set. -/
theorem State.pulseEnable_running (hn : n < 4) (s : State) : (s.pulseEnable n).flag (F.tpulseStsRunning n) = true := by
  have hstarted := s.trainStarted_running hn
  have hlate := ((s.trainStarted n).trainLate_running hn).trans hstarted
  have hlo : 0x30000 ≤ Reg.tpulseSts n := by simp only [Reg.tpulseSts]; omega
  have hhi : Reg.tpulseSts n < 0x40000 := by simp only [Reg.tpulseSts]; omega
  rw [State.pulseEnable_eq]
  cases s.pulseFirst n == s.pulseStart n
  · rw [cond_false]
    exact (State.flag_eq_of_rd (State.tellTrain_same _ n _ _ hlo hhi)).trans hlate
  · rwa [cond_true]

end Writes

/-! #### The statement -/

/-- The level outside a pulse is low unless INV is set. -/
theorem inactiveLevel (b : Bool) : (if b = false then 1 else 2 : Nat) = if b then 2 else 1 := by cases b <;> rfl

end Trains

/-- Settles O25, edge by edge: what the record of the train holds decides what the edge does; setting and clearing EN
are the stored word with the start and the end of a train. -/
theorem pulseTrainsDriveTheirPin : Obligations.PulseTrainsDriveTheirPin := by
  intro s n hn hr
  have hedge : exec (.pulseEdge n) s = .next (s.pulseEdge n) := congrArg Host.Outcome.next (State.atDom_ready hr _)
  have henable : ∀ w, exec (.pulseEnable n w) s = .next (s.writePulse n (w ||| 1)) :=
    fun w => congrArg Host.Outcome.next (State.atDom_ready hr _)
  have hdisable : ∀ w, exec (.pulseDisable n w) s = .next (s.writePulse n (w &&& 0xFFFFFFFE)) :=
    fun w => congrArg Host.Outcome.next (State.atDom_ready hr _)
  have hinactive := (s.drivePulse_level n false).trans (inactiveLevel _)
  refine ⟨fun hrun => ⟨fun hlow => ?_, fun hhigh hfirst => ?_, fun hhigh hfirst => ⟨fun hgoes hleft => ?_, fun hlast => ?_⟩⟩,
    fun hstopped => ?_, fun w hoff => ?_, fun w hon hhigh => ?_, fun w hon => ⟨?_, fun hlow => ?_⟩, fun w u hoff hu => ?_⟩
  · rw [State.pulseEdge_of_idle hrun hlow] at hedge
    exact ⟨_, hedge, s.drivePulse_level n true, State.train_setTrain _ _ _, rfl⟩
  · rw [State.pulseEdge_of_replaced hrun hhigh hfirst] at hedge
    exact ⟨_, hedge, hinactive, State.train_setTrain _ _ _, rfl⟩
  · rw [State.pulseEdge_of_inner hrun hhigh hfirst hgoes hleft] at hedge
    exact ⟨_, hedge, hinactive, State.train_setTrain _ _ _, rfl⟩
  · obtain ⟨hlevel, hends⟩ := s.pulseEnd_ends hn
    rw [State.pulseEdge_of_last hrun hhigh hfirst hlast] at hedge
    exact ⟨_, hedge, hlevel.trans (inactiveLevel _), hends⟩
  · rw [hedge, State.pulseEdge_of_stopped hstopped]
  · exact ⟨_, henable w, State.writePulse_of_start hoff (bitAt_or_one w), by
      rw [State.writePulse_of_start hoff (bitAt_or_one w)]
      exact State.pulseEnable_running hn _⟩
  · have hstored := s.store_onlyWords (Reg.tpulseCtl n) (w &&& 0xFFFFFFFE)
    have hpins : (s.store (Reg.tpulseCtl n) (w &&& 0xFFFFFFFE)).pins = s.pins := congrArg (·.pins) hstored.1
    have htrain := s.store_train (Reg.tpulseCtl n) (w &&& 0xFFFFFFFE) n
    refine ⟨_, hdisable w, ?_⟩
    rw [State.writePulse_of_stop hon (bitAt_clear_one w),
      State.pulseDisable_of_high ((congrArg Train.high htrain).trans hhigh), htrain]
    exact ⟨State.train_setTrain _ _ _, hpins, OnlyWords.onInv (i := s.inv) hstored _⟩
  · rw [henable, State.writePulse_of_running hon (bitAt_or_one w)]
  · have htrain := s.store_train (Reg.tpulseCtl n) (w &&& 0xFFFFFFFE) n
    rw [hdisable, State.writePulse_of_stop hon (bitAt_clear_one w),
      State.pulseDisable_of_low ((congrArg Train.high htrain).trans hlow)]
  · rw [hdisable, State.writePulse_of_stopped hoff (bitAt_clear_one w), hu, Bool.cond_eq_ite]

end Sys2Proof.Machine
end

section
/-! SUPPORT. PTP messages (R73 to R88): which messages a port takes, what it does with one that it takes, what it
sends, and the statements of 03_invar_network_time.md on them. -/

namespace Sys2Proof.Machine

/-! ### Reception (R82, R87) -/

section Reception

variable {s : State} {p pcs : Nat} {l fup : List Byte} {on more : Bool} {f : State → State}

/-- A message of port `p` reaches Invar while `on` holds: PTP is on and the quadrant is not isolated. -/
def State.hearsWhile (s : State) (p : Nat) (on : Bool) : Bool := !s.iso (p / 36) && (s.flag F.invPtpCtlPtpEn && on)

theorem State.hearsPtp_eq (s : State) (p : Nat) : s.hearsPtp p = s.hearsWhile p (s.ptpRuns p) := rfl

theorem State.hearsPeer_eq (s : State) (p : Nat) : s.hearsPeer p = s.hearsWhile p (s.flag (F.invPctlEn p)) := rfl

/-- A message that reaches Invar is checked. -/
theorem State.ptpHear_of_heard (h : s.hearsWhile p on = true) :
    s.ptpHear on p l f = bif !s.ptpForUs l then s.cnt (Reg.invPcnt p 7) else f s := by
  rw [State.hearsWhile, Bool.and_eq_true, Bool.and_eq_true] at h
  obtain ⟨hopen, hen, hon⟩ := h
  rw [State.ptpHear, State.fromQuad, State.when_true hopen, hen, hon, Bool.not_true, Bool.or_self, cond_false]
  rfl

theorem State.ptpHear_of_unheard (h : s.hearsWhile p on = false) : s.ptpHear on p l f = s := by
  cases hopen : !s.iso (p / 36)
  · rw [State.ptpHear, State.fromQuad, State.when_false hopen]
  · rw [State.hearsWhile, hopen, Bool.true_and] at h
    rw [State.ptpHear, State.fromQuad, State.when_true hopen, ← Bool.not_and, h, Bool.not_false, cond_true]

theorem State.ptpHear_of_taken (h : s.hearsWhile p on = true) (hus : s.ptpForUs l = true) : s.ptpHear on p l f = f s := by
  rw [State.ptpHear_of_heard h, hus, Bool.not_true, cond_false]

theorem State.ptpHear_of_foreign (h : s.hearsWhile p on = true) (hus : s.ptpForUs l = false) :
    s.ptpHear on p l f = s.cnt (Reg.invPcnt p 7) := by
  rw [State.ptpHear_of_heard h, hus, Bool.not_false, cond_true]

/-- Sync, Follow_Up, Announce, Delay_Req and Delay_Resp are taken by a port that takes part. -/
theorem exec_message_eq_ptpTake {c : Instr} (s : State) (hc : c ∈ [.ptpSyncReceived p l pcs, .followUpReceived p l,
      .announceReceived p l, .delayReqReceived p l pcs, .delayRespReceived p l]) :
    ∃ f, exec c s = .next (s.ptpTake p l f) := by
  simp only [List.mem_cons, List.not_mem_nil, or_false] at hc
  rcases hc with rfl | rfl | rfl | rfl | rfl <;> exact ⟨_, rfl⟩

/-- The peer delay messages are taken by an enabled port. -/
theorem exec_peer_eq_ptpPeer {c : Instr} (s : State)
    (hc : c ∈ [.pdelayReqReceived p l pcs, .pdelayExchangeComplete p l pcs fup more]) :
    ∃ f, exec c s = .next (s.ptpPeer p l f) := by
  simp only [List.mem_cons, List.not_mem_nil, or_false] at hc
  rcases hc with rfl | rfl <;> exact ⟨_, rfl⟩

end Reception

/-- Settles O26: every message runs through the one check of `State.ptpHear`. -/
theorem ptpMessagesAreTakenOrDiscarded : Obligations.PtpMessagesAreTakenOrDiscarded := by
  intro s p pcs l fup more c
  refine ⟨fun hc => ?_, fun hc => ?_⟩
  · obtain ⟨f, hexec⟩ := exec_message_eq_ptpTake s hc
    rw [State.hearsPtp_eq]
    exact ⟨fun hhears hus => hexec.trans (congrArg Host.Outcome.next (State.ptpHear_of_foreign hhears hus)),
      fun hdeaf => hexec.trans (congrArg Host.Outcome.next (State.ptpHear_of_unheard hdeaf))⟩
  · obtain ⟨f, hexec⟩ := exec_peer_eq_ptpPeer s hc
    rw [State.hearsPeer_eq]
    exact ⟨fun hhears hus => hexec.trans (congrArg Host.Outcome.next (State.ptpHear_of_foreign hhears hus)),
      fun hdeaf => hexec.trans (congrArg Host.Outcome.next (State.ptpHear_of_unheard hdeaf))⟩

/-! ### What a taken message does (R73, R74, R80, R82, R83) -/

section Taken

variable {s : State} {p pcs : Nat} {l fup : List Byte}

theorem invPctl_ne_invPcnt (p k : Nat) : Reg.invPctl p ≠ Reg.invPcnt p k := by
  simp only [Reg.invPctl, Reg.invPcnt]
  omega

theorem State.hearsParent_ptpCount (s : State) (p k : Nat) (l : List Byte) :
    (s.ptpCount p k).hearsParent p l = s.hearsParent p l := by
  have hstate : (s.ptpCount p k).ptpState p = s.ptpState p :=
    State.fget_eq_of_rd (f := F.invPctlState p) (State.rd_wr_ne (invPctl_ne_invPcnt p k) s _)
  rw [State.hearsParent, State.hearsParent, hstate]
  rfl

theorem State.rxStamp_ptpCount (s : State) (p k pcs : Nat) : (s.ptpCount p k).rxStamp p pcs = s.rxStamp p pcs := by
  have hne : Reg.invPlat p ≠ Reg.invPcnt p k := by
    simp only [Reg.invPlat, Reg.invPcnt]
    omega
  have hlat : (s.ptpCount p k).fget (F.invPlatRxLat p) = s.fget (F.invPlatRxLat p) :=
    State.fget_eq_of_rd (f := F.invPlatRxLat p) (State.rd_wr_ne hne s _)
  rw [State.rxStamp, State.rxStamp, hlat]

theorem State.masterOnly_ptpCount (s : State) (p k : Nat) :
    (s.ptpCount p k).flag (F.invPctlMasterOnly p) = s.flag (F.invPctlMasterOnly p) :=
  State.flag_eq_of_rd (f := F.invPctlMasterOnly p) (State.rd_wr_ne (invPctl_ne_invPcnt p k) s _)

section Port

variable (hhears : s.hearsPtp p = true) (hus : s.ptpForUs l = true)
include hhears hus

/-! #### Sync and Follow_Up -/

theorem State.syncReceivedPtp_of_stranger (h : s.hearsParent p l = false) :
    s.syncReceivedPtp p l pcs = s.cnt (Reg.invPcnt p 1) := by
  rw [State.syncReceivedPtp, State.ptpTake, State.ptpHear_of_taken hhears hus]
  dsimp only
  rw [State.hearsParent_ptpCount, h, Bool.not_false, cond_true]
  rfl

/-- A Sync of the parent waits for its Follow_Up, or completes. -/
theorem State.syncReceivedPtp_of_parent (h : s.hearsParent p l = true) : s.syncReceivedPtp p l pcs
    = bif isTwoStep 0 l then (s.cnt (Reg.invPcnt p 1)).setPtp p
        { s.ptpOf p with waiting := some (ptpSeq 0 l, (4096 * s.rxStamp p pcs).toNat, ptpCorr 0 l) }
      else (s.cnt (Reg.invPcnt p 1)).syncDone p (4096 * s.rxStamp p pcs - ptpTime 34 l - ptpCorr 0 l) := by
  rw [State.syncReceivedPtp, State.ptpTake, State.ptpHear_of_taken hhears hus]
  dsimp only
  rw [State.hearsParent_ptpCount, h, Bool.not_true, cond_false, State.rxStamp_ptpCount]
  rfl

theorem State.followUp_of_idle (h : (s.ptpOf p).waiting = none) : s.followUp p l = s := by
  rw [State.followUp, State.ptpTake, State.ptpHear_of_taken hhears hus, h]

/-- The Follow_Up of the waiting Sync completes it. -/
theorem State.followUp_of_waiting {rx : Nat} {c : Int} (hparent : s.hearsParent p l = true)
    (h : (s.ptpOf p).waiting = some (ptpSeq 0 l, rx, c)) :
    s.followUp p l = s.syncDone p ((rx : Int) - ptpTime 34 l - c - ptpCorr 0 l) := by
  rw [State.followUp, State.ptpTake, State.ptpHear_of_taken hhears hus, h]
  dsimp only
  rw [hparent, beq_self_eq_true, Bool.and_self, cond_true]

/-! #### Announce -/

theorem State.announceReceived_of_masterOnly (h : s.flag (F.invPctlMasterOnly p) = true) :
    s.announceReceived p l = s.cnt (Reg.invPcnt p 3) := by
  rw [State.announceReceived, State.ptpTake, State.ptpHear_of_taken hhears hus]
  dsimp only
  rw [State.masterOnly_ptpCount, h, cond_true]
  rfl

/-- An Announce renews the record of its sender. -/
theorem State.announceReceived_of_heard (h : s.flag (F.invPctlMasterOnly p) = false) : s.announceReceived p l
    = ((s.cnt (Reg.invPcnt p 3)).setPtp p { s.ptpOf p with
        timedOut := false
        foreign := (s.ptpOf p).foreign.filter (fun g => g.src != ptpSrc 0 l) ++
          [heardOf (s.ptpOf p).foreign s.now l] }).evaluate := by
  rw [State.announceReceived, State.ptpTake, State.ptpHear_of_taken hhears hus]
  dsimp only
  rw [State.masterOnly_ptpCount, h, cond_false]
  rfl

/-! #### Delay_Req and Delay_Resp -/

theorem State.delayReq_of_silent (h : s.ptpState p ≠ ptpMaster ∨ s.endToEnd = false) : s.delayReq p l pcs = s := by
  have hsilent : (s.ptpState p != ptpMaster || !s.endToEnd) = true := by
    rwa [Bool.or_eq_true, bne_iff_ne, Bool.not_eq_true']
  rw [State.delayReq, State.ptpTake, State.ptpHear_of_taken hhears hus, hsilent, cond_true]

/-- A master answers with its receive stamp. -/
theorem State.delayReq_of_master (hmaster : s.ptpState p = ptpMaster) (he2e : s.endToEnd = true) : s.delayReq p l pcs
    = s.sendPtp p false false false (s.ptpMessage p 9 0 (ptpCorr 0 l - 4096 * ((s.rxStamp p pcs).toNat % 16 : Nat))
        (ptpSeq 0 l) 3 (s.fget F.invPtpIntvLogDelayreq)
        (ptp80 (s.rxStamp p pcs).toNat ++ mkBytes (beBytes 10 (ptpSrc 0 l)))) := by
  rw [State.delayReq, State.ptpTake, State.ptpHear_of_taken hhears hus, hmaster, he2e, bne_self_eq_false, Bool.not_true,
    Bool.or_self, cond_false]

/-- The port's last request is answered. -/
def State.requestAnswered (s : State) (p : Nat) : State :=
  s.setPtp p { s.ptpOf p with asked := false, left := none, before := some (s.rd (Reg.invPdly p)) }

section Answer

variable (he2e : s.endToEnd = true) (hport : beAt l 44 10 = s.portId p)
  (hseq : ptpSeq 0 l = ((s.ptpOf p).reqSeq + 65535) % 65536)
include he2e hport hseq

/-- A Delay_Resp to the last request of the port: the first one answers it, a second one discards both. -/
theorem State.delayResp_of_answer : s.delayResp p l = bif !(s.ptpOf p).asked then
      match (s.ptpOf p).before with
      | some w => ((s.setPtp p { s.ptpOf p with before := none }).wr (Reg.invPdly p) w).cnt (Reg.invPcnt p 7)
      | none => s
    else match (s.ptpOf p).left, (s.ptpOf p).forward with
      | some t3, some f => (s.requestAnswered p).newDelay p
          (freeQuot (f + ptpTime 34 l - 4096 * (t3 : Int) - ptpCorr 0 l) 2 s.freeChoice)
      | _, _ => s.requestAnswered p := by
  rw [State.delayResp, State.ptpTake, State.ptpHear_of_taken hhears hus]
  dsimp only
  rw [he2e, hport, hseq, bne_self_eq_false,
    bne_self_eq_false, Bool.not_true, Bool.or_self, Bool.or_self, cond_false]
  rfl

theorem State.delayResp_of_forgotten (hanswered : (s.ptpOf p).asked = false) (hbefore : (s.ptpOf p).before = none) :
    s.delayResp p l = s := by
  rw [State.delayResp_of_answer hhears hus he2e hport hseq, hanswered, Bool.not_false, cond_true, hbefore]

/-- A second answer puts the held value back. -/
theorem State.delayResp_of_second {w : Nat} (hanswered : (s.ptpOf p).asked = false)
    (hbefore : (s.ptpOf p).before = some w) : s.delayResp p l
    = ((s.setPtp p { s.ptpOf p with before := none }).wr (Reg.invPdly p) w).cnt (Reg.invPcnt p 7) := by
  rw [State.delayResp_of_answer hhears hus he2e hport hseq, hanswered, Bool.not_false, cond_true, hbefore]

/-- The first answer gives a delay once a Sync is complete. -/
theorem State.delayResp_of_measured {t3 : Nat} {f : Int} (hasked : (s.ptpOf p).asked = true)
    (hleft : (s.ptpOf p).left = some t3) (hforward : (s.ptpOf p).forward = some f) : s.delayResp p l
    = (s.requestAnswered p).newDelay p (freeQuot (f + ptpTime 34 l - 4096 * (t3 : Int) - ptpCorr 0 l) 2 s.freeChoice) := by
  rw [State.delayResp_of_answer hhears hus he2e hport hseq, hasked, Bool.not_true, cond_false, hleft, hforward]

theorem State.delayResp_of_unmeasured (hasked : (s.ptpOf p).asked = true)
    (h : (s.ptpOf p).left = none ∨ (s.ptpOf p).forward = none) : s.delayResp p l = s.requestAnswered p := by
  rw [State.delayResp_of_answer hhears hus he2e hport hseq, hasked, Bool.not_true, cond_false]
  rcases h with hleft | hforward
  · rw [hleft]
  · rw [hforward]
    cases (s.ptpOf p).left <;> rfl

end Answer

end Port

section Peer

variable (hhears : s.hearsPeer p = true) (hus : s.ptpForUs l = true)
include hhears hus

/-! #### The peer delay mechanism -/

theorem State.pdelayReq_of_endToEnd (he2e : s.endToEnd = true) : s.pdelayReq p l pcs = s := by
  rw [State.pdelayReq, State.ptpPeer, State.ptpHear_of_taken hhears hus, he2e, cond_true]

theorem State.pdelayReq_of_twoStep (hpeer : s.endToEnd = false) (htwo : s.flag F.invPtpCtlTwoStep = true) :
    s.pdelayReq p l pcs = s.sendPtp p true false false
      (s.ptpMessage p 3 0x0200 (ptpCorr 0 l - 4096 * ((s.rxStamp p pcs).toNat % 16 : Nat)) (ptpSeq 0 l) 5 0x7F
        (ptp80 (s.rxStamp p pcs).toNat ++ mkBytes (beBytes 10 (ptpSrc 0 l)))) := by
  rw [State.pdelayReq, State.ptpPeer, State.ptpHear_of_taken hhears hus, hpeer, htwo, cond_false, cond_true]
  rfl

theorem State.pdelayReq_of_oneStep (hpeer : s.endToEnd = false) (hone : s.flag F.invPtpCtlTwoStep = false) :
    s.pdelayReq p l pcs = s.sendPtp p true false true
      (s.ptpMessage p 3 0 (ptpCorr 0 l - 4096 * ((s.rxStamp p pcs).toNat : Int)) (ptpSeq 0 l) 5 0x7F
        (List.replicate 10 0 ++ mkBytes (beBytes 10 (ptpSrc 0 l)))) := by
  rw [State.pdelayReq, State.ptpPeer, State.ptpHear_of_taken hhears hus, hpeer, hone, cond_false, cond_false]

/-- The exchange of the port's last request has ended. -/
def State.exchangeEnded (s : State) (p : Nat) : State := s.setPtp p { s.ptpOf p with asked := false, left := none }

/-- An exchange with one response gives a delay. -/
theorem State.pdelayDone_of_answer {t1 : Nat} (more : Bool) (hport : beAt l 44 10 = s.portId p)
    (hseq : ptpSeq 0 l = ((s.ptpOf p).reqSeq + 65535) % 65536) (hasked : (s.ptpOf p).asked = true)
    (hleft : (s.ptpOf p).left = some t1) (hpeer : s.endToEnd = false) : s.pdelayDone p l pcs fup more
    = bif more then (s.exchangeEnded p).cnt (Reg.invPcnt p 7)
      else (s.exchangeEnded p).newDelay p (freeQuot (4096 * (s.rxStamp p pcs - t1)
        - (bif isTwoStep 0 l then ptpTime 34 fup - ptpTime 34 l else 0)
        - (ptpCorr 0 l + (bif isTwoStep 0 l then ptpCorr 0 fup else 0))) 2 s.freeChoice) := by
  rw [State.pdelayDone, State.ptpPeer, State.ptpHear_of_taken hhears hus]
  dsimp only
  rw [hleft]
  dsimp only
  rw [hpeer, hport, hseq, hasked, bne_self_eq_false, bne_self_eq_false, Bool.not_true, Bool.or_self, Bool.or_self,
    Bool.or_self, cond_false]
  rfl

end Peer

end Taken

/-! ### Timers (R80, R82) -/

section Timers

variable {s : State} {p : Nat}

theorem State.announceTimeout_of_idle (h : s.ptpRuns p = false) : s.announceTimeout p = s := by
  rw [State.announceTimeout, h, Bool.not_false, cond_true]

theorem State.announceTimeout_of_running (h : s.ptpRuns p = true) :
    s.announceTimeout p = (s.setPtp p { s.ptpOf p with timedOut := true, foreign := [] }).evaluate := by
  rw [State.announceTimeout, h, Bool.not_true, cond_false]

theorem State.delayLost_of_idle (h : (s.ptpOf p).asked = false) : s.delayLost p = s := by
  rw [State.delayLost, h, cond_false]

theorem State.delayLost_of_asked (h : (s.ptpOf p).asked = true) :
    s.delayLost p = (s.exchangeEnded p).cnt (Reg.invPcnt p 5) := by
  rw [State.delayLost, h, cond_true]
  rfl

end Timers

/-! ### Transmission (R82, R83, R88) -/

section Transmission

variable {s : State} {p : Nat}

/-- The next Sync of the port counts. -/
def State.syncCounted (s : State) (p : Nat) : State :=
  (s.setPtp p { s.ptpOf p with syncSeq := ((s.ptpOf p).syncSeq + 1) % 65536 }).cnt (Reg.invPcnt p 0)

/-- The next Announce of the port counts. -/
def State.annCounted (s : State) (p : Nat) : State :=
  (s.setPtp p { s.ptpOf p with annSeq := ((s.ptpOf p).annSeq + 1) % 65536 }).cnt (Reg.invPcnt p 2)

/-- The next delay request of the port counts and is outstanding. -/
def State.requestCounted (s : State) (p : Nat) : State :=
  (s.setPtp p { s.ptpOf p with
    reqSeq := ((s.ptpOf p).reqSeq + 1) % 65536, asked := true, left := none, before := none }).cnt (Reg.invPcnt p 4)

/-- The flags of an Announce: the parent's, without a parent the clock's own. -/
def State.sentFlags (s : State) : Nat :=
  match s.parentSet with
  | some f => f.flags % 64
  | none => s.annFlags

theorem State.sentFlags_of_parent {f : Foreign} (h : s.parentSet = some f) : s.sentFlags = f.flags % 64 := by
  rw [State.sentFlags, h]

theorem State.sentFlags_of_none (h : s.parentSet = none) : s.sentFlags = s.annFlags := by rw [State.sentFlags, h]

theorem State.syncSend_of_silent (h : s.ptpState p ≠ ptpMaster) : s.syncSend p = s := by
  rw [State.syncSend, bne_iff_ne.mpr h, cond_true]

theorem State.syncSend_of_master (h : s.ptpState p = ptpMaster) : s.syncSend p
    = (s.syncCounted p).sendPtp p false true (!s.flag F.invPtpCtlTwoStep)
      ((s.syncCounted p).ptpMessage p 0 (twoStepFlag (s.flag F.invPtpCtlTwoStep)) 0 (s.ptpOf p).syncSeq 0
        ((s.syncCounted p).fget F.invPtpIntvLogSync) (List.replicate 10 0)) := by
  rw [State.syncSend, h, bne_self_eq_false, cond_false]
  rfl

theorem State.annSend_of_silent (h : s.ptpState p ≠ ptpMaster) : s.annSend p = s := by
  rw [State.annSend, bne_iff_ne.mpr h, cond_true]

theorem State.annSend_of_master (h : s.ptpState p = ptpMaster) : s.annSend p
    = (s.annCounted p).useFree.sendPtp p false true false
      ((s.annCounted p).ptpMessage p 0xB (s.annCounted p).sentFlags 0 (s.ptpOf p).annSeq 5
        ((s.annCounted p).fget F.invPtpIntvLogAnn) (s.annCounted p).annBody) := by
  rw [State.annSend, h, bne_self_eq_false, cond_false]
  rfl

theorem State.delaySend_of_follower (he2e : s.endToEnd = true)
    (h : s.ptpState p = ptpSlave ∨ s.ptpState p = ptpUncalibrated) : s.delaySend p
    = (s.requestCounted p).sendPtp p false false false
      ((s.requestCounted p).ptpMessage p 1 0 0 (s.ptpOf p).reqSeq 1 0x7F (List.replicate 10 0)) := by
  have hfollows : (s.ptpState p == ptpSlave || s.ptpState p == ptpUncalibrated) = true := by
    rwa [Bool.or_eq_true, beq_iff_eq, beq_iff_eq]
  rw [State.delaySend, he2e, cond_true, hfollows, Bool.not_true, cond_false, cond_true]
  rfl

theorem State.delaySend_of_peer (hpeer : s.endToEnd = false) (hen : s.flag F.invPtpCtlPtpEn = true)
    (hport : s.flag (F.invPctlEn p) = true) : s.delaySend p
    = (s.requestCounted p).sendPtp p true false false
      ((s.requestCounted p).ptpMessage p 2 0 0 (s.ptpOf p).reqSeq 5 0x7F (List.replicate 20 0)) := by
  rw [State.delaySend, hpeer, cond_false, hen, hport, Bool.and_self, Bool.not_true, cond_false, cond_false]
  rfl

theorem State.delaySend_of_silent (he2e : s.endToEnd = true → s.ptpState p ≠ ptpSlave ∧ s.ptpState p ≠ ptpUncalibrated)
    (hpeer : s.endToEnd = false → s.flag F.invPtpCtlPtpEn = false ∨ s.flag (F.invPctlEn p) = false) :
    s.delaySend p = s := by
  rw [State.delaySend]
  dsimp only
  cases h : s.endToEnd
  · rw [cond_false, Bool.and_eq_false_iff.mpr (hpeer h), Bool.not_false, cond_true]
  · obtain ⟨hslave, huncalibrated⟩ := he2e h
    rw [cond_true, beq_false_of_ne hslave, beq_false_of_ne huncalibrated, Bool.or_self, Bool.not_false, cond_true]

end Transmission

/-! ### The statement -/

/-- Settles O27, message by message: each command is its operation, whose branches the lemmas above name. -/
theorem ptpMessagesActAndLeave : Obligations.PtpMessagesActAndLeave := by
  refine ⟨⟨fun s p pcs l hhears hus => ?_, fun s p pcs l hhears hus => ?_, fun s p => ?_, fun s q src seq => rfl⟩,
    fun s p => ?_⟩
  · refine ⟨fun hparent => ?_, fun hstranger => ?_, fun hidle => ?_, fun hfree => ?_, fun honly => ?_,
      fun hmaster he2e => ?_, fun hsilent => ?_, fun he2e hport hseq => ?_⟩
    · have hsync := State.syncReceivedPtp_of_parent (pcs := pcs) hhears hus hparent
      refine ⟨fun htwo => ?_, fun hone => ?_, fun rx c hwaiting => ?_⟩
      · rw [htwo, cond_true] at hsync
        exact congrArg Host.Outcome.next hsync
      · rw [hone, cond_false] at hsync
        exact congrArg Host.Outcome.next hsync
      · exact congrArg Host.Outcome.next (State.followUp_of_waiting hhears hus hparent hwaiting)
    · exact congrArg Host.Outcome.next (State.syncReceivedPtp_of_stranger hhears hus hstranger)
    · exact congrArg Host.Outcome.next (State.followUp_of_idle hhears hus hidle)
    · exact congrArg Host.Outcome.next (State.announceReceived_of_heard hhears hus hfree)
    · exact congrArg Host.Outcome.next (State.announceReceived_of_masterOnly hhears hus honly)
    · exact congrArg Host.Outcome.next (State.delayReq_of_master hhears hus hmaster he2e)
    · exact congrArg Host.Outcome.next (State.delayReq_of_silent hhears hus hsilent)
    · exact ⟨fun t3 f hasked hleft hforward => congrArg Host.Outcome.next
          (State.delayResp_of_measured hhears hus he2e hport hseq hasked hleft hforward),
        fun hasked hunready => congrArg Host.Outcome.next
          (State.delayResp_of_unmeasured hhears hus he2e hport hseq hasked hunready),
        fun hanswered hbefore => congrArg Host.Outcome.next
          (State.delayResp_of_forgotten hhears hus he2e hport hseq hanswered hbefore),
        fun w hanswered hbefore => congrArg Host.Outcome.next
          (State.delayResp_of_second hhears hus he2e hport hseq hanswered hbefore)⟩
  · refine ⟨fun he2e => ?_, fun hpeer htwo => ?_, fun hpeer hone => ?_, fun hport hseq hasked t1 fup hleft hpeer => ?_⟩
    · exact congrArg Host.Outcome.next (State.pdelayReq_of_endToEnd hhears hus he2e)
    · exact congrArg Host.Outcome.next (State.pdelayReq_of_twoStep hhears hus hpeer htwo)
    · exact congrArg Host.Outcome.next (State.pdelayReq_of_oneStep hhears hus hpeer hone)
    · have hdone := fun more => State.pdelayDone_of_answer (pcs := pcs) (fup := fup) hhears hus more hport hseq hasked
        hleft hpeer
      refine ⟨congrArg Host.Outcome.next (hdone true), fun hone => ?_, fun htwo => ?_⟩
      · refine congrArg Host.Outcome.next ((hdone false).trans ?_)
        rw [cond_false, hone, cond_false, cond_false, sub_zero, add_zero]
        rfl
      · refine congrArg Host.Outcome.next ((hdone false).trans ?_)
        rw [cond_false, htwo, cond_true, cond_true]
        rfl
  · exact ⟨fun hruns => congrArg Host.Outcome.next (State.announceTimeout_of_running hruns),
      fun hidle => congrArg Host.Outcome.next (State.announceTimeout_of_idle hidle),
      fun hpre => congrArg Host.Outcome.next (State.when_true (beq_iff_eq.mpr hpre) s _),
      fun hother => congrArg Host.Outcome.next (State.when_false (beq_false_of_ne hother) s _),
      fun hasked => congrArg Host.Outcome.next (State.delayLost_of_asked hasked),
      fun hidle => congrArg Host.Outcome.next (State.delayLost_of_idle hidle)⟩
  · refine ⟨fun hmaster => ⟨fun t ht => ?_, fun t ht => ?_⟩, fun hother => ⟨?_, ?_⟩, fun t ht => ⟨?_, ?_⟩, ?_⟩
    · have hsend := State.syncSend_of_master hmaster
      rw [ht]
      refine ⟨fun htwo => ?_, fun hone => ?_⟩
      · rw [htwo] at hsend
        exact congrArg Host.Outcome.next hsend
      · rw [hone] at hsend
        exact congrArg Host.Outcome.next hsend
    · rw [ht]
      exact ⟨(s.annCounted p).sentFlags, fun f hparent => State.sentFlags_of_parent hparent, State.sentFlags_of_none,
        congrArg Host.Outcome.next (State.annSend_of_master hmaster)⟩
    · exact congrArg Host.Outcome.next (State.syncSend_of_silent hother)
    · exact congrArg Host.Outcome.next (State.annSend_of_silent hother)
    · rw [ht]
      exact fun he2e hfollows => congrArg Host.Outcome.next (State.delaySend_of_follower he2e hfollows)
    · rw [ht]
      exact fun hpeer hen hport => congrArg Host.Outcome.next (State.delaySend_of_peer hpeer hen hport)
    · exact fun he2e hpeer => congrArg Host.Outcome.next (State.delaySend_of_silent he2e hpeer)

end Sys2Proof.Machine
end

section
/-! SUPPORT. The frame MAC (R106 to R128): what becomes of a received frame, the stored MAX_FRAME, the walk of the link
state machine, the timers of control frames, and the statements of 04_frame_mac.md on them. -/

namespace Sys2Proof.Machine

/-! ### The row of Table 4.4 in which a frame ends (R113, R114) -/

section Fate

variable {s : State} {e : RxEnd}

/-- A frame whose reception was cut ends as such, whatever else is wrong with it. -/
theorem State.rxFate_of_cut (s : State) (e : RxEnd) : s.rxFate e true = some 18 := rfl

theorem State.rxFate_of_assyError (h : s.assyError e = true) : s.rxFate e false = some 19 := by
  simp only [State.rxFate, h, cond_false, cond_true]

/-- No pre-emptable frame reassembles while PE_EN = 0 (R124). -/
theorem State.assyError_of_disabled (hpre : e.pre = true) (hen : s.flag (F.macPeCtlPeEn e.port) = false) :
    s.assyError e = true := by
  simp only [State.assyError, hpre, hen, Bool.not_false, Bool.true_or, Bool.and_self]

section Assembled

variable (ha : s.assyError e = false)
include ha

/-- A frame shorter than 64 bytes is an undersized frame or, with an error, a fragment. -/
theorem State.rxFate_of_short (hlen : e.bytes.length + 4 < 64) :
    s.rxFate e false = some (if e.fcs = crc32 (natBytes e.bytes) ∧ e.code = false then 12 else 13) := by
  simp only [State.rxFate, ha, Nat.blt_eq.mpr hlen, cond_false, cond_true]
  simp only [Bool.cond_eq_ite, Bool.and_eq_true, beq_iff_eq, Bool.not_eq_true']

/-- A longer frame ends by its code groups, its length and its FCS, in that order. -/
theorem State.rxFate_of_whole (hlen : 64 ≤ e.bytes.length + 4) :
    s.rxFate e false = if e.code = true then some 17
      else if e.bytes.length + 4 ≤ s.fget (F.macMaxfMaxFrame e.port) then
        (if e.fcs = crc32 (natBytes e.bytes) then none else some 16)
      else some (if e.fcs = crc32 (natBytes e.bytes) then 14 else 15) := by
  have hlong : Nat.blt (e.bytes.length + 4) 64 = false :=
    Bool.eq_false_iff.mpr (mt Nat.blt_eq.mp (Nat.not_lt.mpr hlen))
  simp only [State.rxFate, ha, hlong, cond_false]
  simp only [Bool.cond_eq_ite, Nat.ble_eq, beq_iff_eq]

/-- A frame without an error is accepted by its length alone (R112). -/
theorem State.rxFate_eq_none_iff (hcode : e.code = false) (hfcs : e.fcs = crc32 (natBytes e.bytes)) :
    s.rxFate e false = none ↔
      64 ≤ e.bytes.length + 4 ∧ e.bytes.length + 4 ≤ s.fget (F.macMaxfMaxFrame e.port) := by
  rcases Nat.lt_or_ge (e.bytes.length + 4) 64 with hshort | hlen
  · rw [State.rxFate_of_short ha hshort]
    exact iff_of_false (Option.some_ne_none _) fun h => absurd h.1 (Nat.not_le.mpr hshort)
  · rw [State.rxFate_of_whole ha hlen, if_neg (ne_true_of_eq_false hcode), if_pos hfcs]
    simp only [hlen, ite_eq_left_iff, reduceCtorEq, imp_false, Decidable.not_not, true_and]

end Assembled

end Fate

/-! ### The stored MAX_FRAME (R112) -/

section MaxFrame

/-- The row of MAC_MAXF: one RWL field, held within 64 to 9600. -/
def macMaxfRow : RegRow :=
  { base := 0x1000010, dims := [(0x800000, 4), (0x1000, 36)], reset := 1536, rw := 0, rwl := 2 ^ 14 - 1, w1c := 0, w1s := 0
    ro := 0, adj := [.clamp 0 14 64 9600] }

/-- MAC_MAXF is a plain register of each port: no part of a wide value, and no memory word. -/
theorem macMaxf_plain : ∀ p < 144, regRow (Reg.macMaxf p) = some macMaxfRow ∧ wideLow (Reg.macMaxf p) = none ∧
    wideUpper (Reg.macMaxf p) = 0 ∧ memoryOf (Reg.macMaxf p) = none := by decide +kernel

theorem macMaxf_field : ∀ p < 144, Fld.held (F.macMaxfMaxFrame p) = true ∧
    bitsOf (resetOf (Reg.macMaxf p)) 0 14 = 1536 := by decide +kernel

/-- In the quadrant windows PCS_CTL alone has a rule that ties its fields together. -/
theorem fixWord_of_window {a : Nat} (ha : 0x1000000 ≤ a) (h : a % 0x1000 ≠ 0x40) (old n : Nat) :
    fixWord a old n = n := by
  have hslk : (a == Reg.hscSlkCtl) = false := beq_eq_false_iff_ne.mpr (by simp only [Reg.hscSlkCtl]; omega)
  have hvid : (a == Reg.hscVid) = false := beq_eq_false_iff_ne.mpr (by simp only [Reg.hscVid]; omega)
  have hanl : (a == Reg.anlCfg) = false := beq_eq_false_iff_ne.mpr (by simp only [Reg.anlCfg]; omega)
  have hintv : (a == Reg.invPtpIntv) = false := beq_eq_false_iff_ne.mpr (by simp only [Reg.invPtpIntv]; omega)
  have hpulse : Nat.blt a 0x30380 = false := by rw [Bool.eq_false_iff, ne_eq, Nat.blt_eq]; omega
  simp only [fixWord, hslk, hvid, hanl, hintv, hpulse, beq_eq_false_iff_ne.mpr h, Bool.and_false, Bool.false_and,
    cond_false]

/-- A write of MAC_MAXF is its store. -/
theorem State.writeReg_macMaxf (s : State) (q : Requester) (p v : Nat) :
    s.writeReg q (Reg.macMaxf p) v = s.store (Reg.macMaxf p) v := by
  have hwin : Nat.blt (Reg.macMaxf p) 0x1000000 = false := by
    rw [Bool.eq_false_iff, ne_eq, Nat.blt_eq]
    simp only [Reg.macMaxf, quadBase]
    omega
  have hoff : windowOff (Reg.macMaxf p) = 0x10 + 0x1000 * (p % 36) := by
    simp only [windowOff, Reg.macMaxf, quadBase]
    omega
  have hword : (0x10 + 0x1000 * (p % 36)) % 0x1000 = 0x10 := by omega
  have hgate : Nat.blt (0x10 + 0x1000 * (p % 36)) 0x180000 = true := by rw [Nat.blt_eq]; omega
  have hcls : Nat.blt (0x10 + 0x1000 * (p % 36)) 0x40000 = true := by rw [Nat.blt_eq]; omega
  have hsds : Nat.ble 0x24000 (0x10 + 0x1000 * (p % 36)) = false := by
    rw [Bool.eq_false_iff, ne_eq, Nat.ble_eq]
    omega
  simp only [State.writeReg, State.writeWindow, State.writeMacWord, hwin, hoff, hgate, hcls, hsds, hword, cond_false,
    cond_true]

/-- The unlocked field takes the written value, or its nearer limit. -/
theorem bitsOf_storedWord_macMaxf (p old w : Nat) :
    bitsOf (storedWord macMaxfRow false (Reg.macMaxf p) old w) 0 14 = clampNat 64 9600 (w % 2 ^ 14) := by
  have hfix := fixWord_of_window (a := Reg.macMaxf p) (by simp only [Reg.macMaxf, quadBase]; omega)
    (by simp only [Reg.macMaxf, quadBase]; omega)
  have htaken : bitsOf ((old &&& (0xFFFFFFFF ^^^ (2 ^ 14 - 1))) ||| (w &&& (2 ^ 14 - 1))) 0 14 = w % 2 ^ 14 := by
    rw [bitsOf, Nat.shiftRight_zero, Nat.or_mod_two_pow, Nat.and_mod_two_pow, Nat.and_two_pow_sub_one_eq_mod, Nat.mod_mod]
    simp only [show (0xFFFFFFFF ^^^ (2 ^ 14 - 1)) % 2 ^ 14 = 0 from rfl, Nat.and_zero, Nat.zero_or]
  have hlt : clampNat 64 9600 (w % 2 ^ 14) < 2 ^ 14 := by
    unfold clampNat
    split_ifs <;> omega
  simp only [storedWord, macMaxfRow, cond_false, Nat.zero_or, List.foldl_cons, List.foldl_nil, applyAdj, hfix, Nat.and_zero,
    Nat.xor_zero]
  rw [bitsOf_and (by decide), bitsOf_withBits_self, htaken, Nat.mod_eq_of_lt hlt]

/-- MAX_FRAME after an unlocked store. -/
theorem State.fget_store_macMaxf {p : Nat} (hp : p < 144) {s : State} (h : s.locked (Reg.macMaxf p) = false) (w : Nat) :
    (s.store (Reg.macMaxf p) w).fget (F.macMaxfMaxFrame p) = clampNat 64 9600 (w % 2 ^ 14) := by
  rw [State.store_of_row (macMaxf_plain p hp).1, h]
  exact (State.fget_wr_self (macMaxf_field p hp).1 _ _).trans (bitsOf_storedWord_macMaxf p _ w)

@[simp] theorem State.granting_locked (s : State) (m t a : Nat) : (s.granting m t).locked a = s.locked a :=
  s.granting_keeps m t (·.locked a) fun _ => rfl

/-- A grant changes the record of the grants only. -/
theorem State.granting_rest (s : State) (m t : Nat) : { s with granted := (s.granting m t).granted } = s.granting m t := by
  unfold State.granting State.when
  cases s.ready 47 <;> rfl

/-- A store changes neither the grants nor what waits to be reported. -/
theorem State.store_rest (s : State) (a v : Nat) :
    (s.store a v).granted = s.granted ∧ (s.store a v).touched = s.touched := by
  unfold State.store
  cases regRow a <;> exact ⟨rfl, rfl⟩

/-- A whole write of MAC_MAXF that reaches it grants its target and stores the word. -/
theorem exec_write_macMaxf {s : State} {q : Requester} {p : Nat} (hp : p < 144) (hi : s.issues q = true)
    (hg : s.gateOf (masterOf q) (Reg.macMaxf p) = .open') (hb : s.blockHeld (Reg.macMaxf p) = false)
    (hclean : s.touched = []) (w : Nat) :
    exec (.regWrite q false (Reg.macMaxf p) w 15) s = .next
      ((s.granting (masterOf q) (targetOfWord (Reg.macMaxf p))).store (Reg.macMaxf p) (w % 2 ^ 32)) := by
  obtain ⟨-, hlow, hupper, hmem⟩ := macMaxf_plain p hp
  let g := s.granting (masterOf q) (targetOfWord (Reg.macMaxf p))
  have haligned : Reg.macMaxf p % 4 = 0 := by simp only [Reg.macMaxf, quadBase]; omega
  have hquiet : (g.store (Reg.macMaxf p) (w % 2 ^ 32)).touched = [] :=
    (g.store_rest _ _).2.trans ((s.granting_touched _ _).trans hclean)
  have hshed : (F.hscMarginShed 4).addr ∉ [Reg.macMaxf p] := by
    simp only [List.mem_singleton, F.hscMarginShed, Reg.hscMargin, Reg.macMaxf, quadBase]
    omega
  rw [exec_write_bar0, State.regWrite_of_reached haligned hi hg hb (s.wholeWord_of_full rfl _ w),
    State.writeWhole_of_register hlow hmem, State.applyStaged_of_narrow hupper, State.writeReg_macMaxf,
    State.reportReads_of_untouched hquiet]
  exact congrArg Host.Outcome.next (State.resumed_of_shed
    (((g.store_onlyWords _ _).fget hshed).trans (State.fget_eq_of_regs (s.granting_regs _ _) _)))

end MaxFrame

/-- Settles O28: the reset value of the row, the clamped store of a write that reaches the word, and the fate of a frame
without an error by its length. -/
theorem maxFrameIsClampedAndLimitsTheLength : Obligations.MaxFrameIsClampedAndLimitsTheLength := by
  refine fun p hp => ⟨?_, fun s q w hi hg hb hlock hclean => ?_, ?_⟩
  · rw [State.fget, rd_of_regs_nil rfl]
    exact (macMaxf_field p hp).2
  · refine ⟨_, exec_write_macMaxf hp hi hg hb hclean w, ?_, ?_⟩
    · rw [State.fget_store_macMaxf hp ((s.granting_locked _ _ _).trans hlock), Nat.mod_mod_of_dvd w (by decide)]
      rfl
    · rw [(State.store_rest _ _ _).1, State.granting_rest]
      exact State.store_onlyWords _ _ _
  · rintro s e rfl hcode hassy hfcs
    exact State.rxFate_eq_none_iff hassy hcode hfcs

/-! ### A link event and the line (R108, R109) -/

section Line

/-- The line's state is the port's record and what leaves the device. -/
theorem State.showLine_rest (s : State) (p : Nat) : ∃ x o, s.showLine p = { s with ports := x, out := o } := by
  unfold State.showLine State.when
  dsimp only
  cases s.lineNow p != (s.mac p).line && (s.lineNow p == 1 || s.lineNow p == 2)
  · exact ⟨_, s.out, rfl⟩
  · exact ⟨_, _, rfl⟩

theorem State.showLine_regs (s : State) (p : Nat) : (s.showLine p).regs = s.regs := by
  obtain ⟨x, o, h⟩ := s.showLine_rest p
  rw [h]

@[simp] theorem State.showLine_fget (s : State) (p : Nat) (f : Fld) : (s.showLine p).fget f = s.fget f :=
  State.fget_eq_of_regs (s.showLine_regs p) f

@[simp] theorem State.showLine_flag (s : State) (p : Nat) (f : Fld) : (s.showLine p).flag f = s.flag f := by
  simp only [State.flag, State.showLine_fget]

/-- What the line carries follows beside the listed words. -/
theorem OnlyWords.showLine {l : List Nat} {s t : State} (h : OnlyWords l s t) (p : Nat) :
    OnlyWords l { s with ports := (t.showLine p).ports, out := (t.showLine p).out } (t.showLine p) := by
  obtain ⟨hrest, hwords⟩ := h
  refine ⟨?_, fun a ha => (State.word_eq_of_regs (t.showLine_regs p) a).trans (hwords a ha)⟩
  obtain ⟨x, o, hline⟩ := t.showLine_rest p
  rw [hline]
  exact congrArg (fun v : State => { v with ports := x, out := o }) hrest

variable {s : State} {p : Nat}

/-- An event of a port whose PCS runs, and then the line. -/
theorem State.onPort_of_running (h : s.pcsRuns p = true) (f : State → State) : s.onPort p f = (f s).showLine p :=
  State.when_true h s _

theorem State.onPort_of_stopped (h : s.pcsRuns p = false) (f : State → State) : s.onPort p f = s :=
  State.when_false h s _

end Line

/-! ### PCS_STS and SDS_STS (R108, R128) -/

section Status

variable {a k lo w lo' w' : Nat}

/-- In a word whose lowest bits hold state, every field of those bits does. -/
theorem held_of_low (h : implOf a = 2 ^ k - 1) (hlo : lo + w ≤ k) : Fld.held ⟨a, lo, w⟩ = true := by
  refine beq_iff_eq.mpr (Nat.eq_of_testBit_eq fun i => ?_)
  rw [testBit_bitsOf, h, Nat.testBit_two_pow_sub_one, Nat.testBit_two_pow_sub_one]
  by_cases hi : i < w
  · simp only [hi, show lo + i < k by omega, decide_true, Bool.and_self]
  · simp only [hi, decide_false, Bool.false_and]

/-- Fields of such a word read back after a write of their own or of other bits. -/
theorem State.fget_fput_low_self (h : implOf a = 2 ^ k - 1) (hlo : lo + w ≤ k) (s : State) (n : Nat) :
    (s.fput ⟨a, lo, w⟩ n).fget ⟨a, lo, w⟩ = n % 2 ^ w :=
  State.fget_fput_self (held_of_low h hlo) s n

theorem State.fget_fput_low_other (h : implOf a = 2 ^ k - 1) (hlo : lo' + w' ≤ k)
    (hb : lo' + w' ≤ lo ∨ lo + w ≤ lo') (s : State) (n : Nat) :
    (s.fput ⟨a, lo, w⟩ n).fget ⟨a, lo', w'⟩ = s.fget ⟨a, lo', w'⟩ :=
  State.fget_fput_other (f := ⟨a, lo, w⟩) (held_of_low h hlo) rfl hb s n

theorem implOf_pcsSts : ∀ p < 144, implOf (Reg.pcsSts p) = 2 ^ 9 - 1 := by decide +kernel

theorem implOf_sdsSts : ∀ b < 24, implOf (Reg.sdsSts b) = 2 ^ 3 - 1 := by decide +kernel

theorem sdsSts_ne_pcsSts (b p : Nat) : Reg.sdsSts b ≠ Reg.pcsSts p := by
  simp only [Reg.sdsSts, Reg.pcsSts, quadBase]
  omega

end Status

/-! ### From DOWN to UP_WAIT (R108) -/

section Locking

variable (s : State) {p : Nat}

/-- What a receiver with CDR lock shows. -/
def State.cdrShown (s : State) (p : Nat) : State :=
  (((s.pllShown p).fset (F.pcsStsCdr p) true).fset (F.pcsStsRfRx p) false).fset (F.pcsStsHiBer p) false

/-- With CDR lock DOWN goes to SYNC. -/
def State.cdrLocked (s : State) (p : Nat) : State :=
  (s.cdrShown p).when ((s.cdrShown p).fget (F.pcsStsState p) == 0) (·.fput (F.pcsStsState p) 1)

theorem State.pllShown_onlyWords (p : Nat) : OnlyWords [Reg.pcsSts p, Reg.sdsSts (p / 6)] s (s.pllShown p) := by
  unfold State.pllShown
  cases s.baseR p
  · exact OnlyWords.refl.fset (by simp [F.sdsStsPllB]) true
  · exact OnlyWords.refl.fset (by simp [F.sdsStsPllA]) true

theorem State.cdrShown_onlyWords (p : Nat) : OnlyWords [Reg.pcsSts p, Reg.sdsSts (p / 6)] s (s.cdrShown p) :=
  (((s.pllShown_onlyWords p).fset (by simp [F.pcsStsCdr]) true).fset (by simp [F.pcsStsRfRx]) false).fset
    (by simp [F.pcsStsHiBer]) false

theorem State.cdrShown_fields (hp : p < 144) : (s.cdrShown p).flag (F.pcsStsCdr p) = true ∧
    (s.cdrShown p).flag (F.pcsStsRfRx p) = false ∧ (s.cdrShown p).flag (F.pcsStsHiBer p) = false ∧
    (s.cdrShown p).fget (F.pcsStsState p) = s.fget (F.pcsStsState p) ∧
    (s.cdrShown p).flag (if s.baseR p then F.sdsStsPllA (p / 6) else F.sdsStsPllB (p / 6)) = true := by
  have hpcs := implOf_pcsSts p hp
  have hsds := implOf_sdsSts (p / 6) (by omega)
  have hne := sdsSts_ne_pcsSts (p / 6) p
  cases hrate : s.baseR p <;>
    simp [State.cdrShown, State.pllShown, hrate, State.flag, State.fset, F.pcsStsCdr, F.pcsStsRfRx, F.pcsStsHiBer,
      F.pcsStsState, F.sdsStsPllA, F.sdsStsPllB, State.fget_fput_low_self hpcs, State.fget_fput_low_other hpcs,
      State.fget_fput_low_self hsds, State.fget_fput_ne, hne, hne.symm, bit]

/-- A write of STATE leaves the flags of its word. -/
theorem State.fput_state_flags (hp : p < 144) (n : Nat) :
    (s.fput (F.pcsStsState p) n).flag (F.pcsStsCdr p) = s.flag (F.pcsStsCdr p) ∧
    (s.fput (F.pcsStsState p) n).flag (F.pcsStsRfRx p) = s.flag (F.pcsStsRfRx p) ∧
    (s.fput (F.pcsStsState p) n).flag (F.pcsStsHiBer p) = s.flag (F.pcsStsHiBer p) := by
  simp [State.flag, F.pcsStsCdr, F.pcsStsRfRx, F.pcsStsHiBer, F.pcsStsState,
    State.fget_fput_low_other (implOf_pcsSts p hp)]

/-- CDR lock shows its flags, and STATE leaves DOWN for SYNC. -/
theorem State.cdrLocked_fields (hp : p < 144) : (s.cdrLocked p).flag (F.pcsStsCdr p) = true ∧
    (s.cdrLocked p).flag (F.pcsStsRfRx p) = false ∧ (s.cdrLocked p).flag (F.pcsStsHiBer p) = false ∧
    (s.cdrLocked p).fget (F.pcsStsState p) = (if s.fget (F.pcsStsState p) = 0 then 1 else s.fget (F.pcsStsState p)) ∧
    (s.cdrLocked p).flag (if s.baseR p then F.sdsStsPllA (p / 6) else F.sdsStsPllB (p / 6)) = true := by
  obtain ⟨hcdr, hrf, hber, hwas, hpll⟩ := s.cdrShown_fields hp
  by_cases hdown : s.fget (F.pcsStsState p) = 0
  · have hbank : (if s.baseR p then F.sdsStsPllA (p / 6) else F.sdsStsPllB (p / 6)).addr ≠ Reg.pcsSts p := by
      split_ifs <;> exact sdsSts_ne_pcsSts _ p
    obtain ⟨hcdrKept, hrfKept, hberKept⟩ := (s.cdrShown p).fput_state_flags hp 1
    rw [State.cdrLocked, State.when_true (beq_iff_eq.mpr (hwas.trans hdown)), if_pos hdown]
    exact ⟨hcdrKept.trans hcdr, hrfKept.trans hrf, hberKept.trans hber,
      State.fget_fput_low_self (implOf_pcsSts p hp) (by decide) _ 1, (State.flag_fput_ne hbank _ 1).trans hpll⟩
  · rw [State.cdrLocked, State.when_false (beq_eq_false_iff_ne.mpr (hwas ▸ hdown)), if_neg hdown]
    exact ⟨hcdr, hrf, hber, hwas, hpll⟩

theorem State.cdrLocked_onlyWords (p : Nat) : OnlyWords [Reg.pcsSts p, Reg.sdsSts (p / 6)] s (s.cdrLocked p) :=
  (s.cdrShown_onlyWords p).when ((s.cdrShown_onlyWords p).fput (by simp [F.pcsStsState]) 1)

theorem exec_cdrLock_of_running {s : State} (h : s.pcsRuns p = true) :
    exec (.cdrLock p) s = .next ((s.cdrLocked p).showLine p) :=
  congrArg Host.Outcome.next (State.onPort_of_running h _)

/-- Lock in UP_WAIT, as PCS_STS shows it. -/
def State.pcsLocked (s : State) (p : Nat) : State := (s.gainLock p).fput (F.pcsStsState p) 2

/-- A receiver that gains lock leaves STATE. -/
theorem State.gainLock_state (hp : p < 144) : (s.gainLock p).fget (F.pcsStsState p) = s.fget (F.pcsStsState p) := by
  simp [State.gainLock, State.fset, F.pcsStsLock, F.pcsStsFecLock, F.pcsStsHiBer, F.pcsStsState,
    State.fget_fput_low_other (implOf_pcsSts p hp)]

theorem State.pcsLocked_fields (hp : p < 144) : (s.pcsLocked p).flag (F.pcsStsLock p) = true ∧
    (s.pcsLocked p).fget (F.pcsStsState p) = 2 ∧ (s.pcsLocked p).flag (F.pcsStsHiBer p) = false ∧
    (s.pcsLocked p).flag (F.pcsStsFecLock p) = (s.fget (F.pcsCtlFec p) != 0) := by
  have hpcs := implOf_pcsSts p hp
  cases hfec : s.fget (F.pcsCtlFec p) != 0 <;>
    simp [State.pcsLocked, State.gainLock, hfec, State.flag, State.fset, F.pcsStsLock, F.pcsStsFecLock, F.pcsStsHiBer,
      F.pcsStsState, State.fget_fput_low_self hpcs, State.fget_fput_low_other hpcs, bit]

theorem State.pcsLocked_onlyWords (p : Nat) : OnlyWords [Reg.pcsSts p] s (s.pcsLocked p) :=
  (((OnlyWords.refl.fset (by simp [F.pcsStsLock]) true).fset (by simp [F.pcsStsFecLock]) _).fset
    (by simp [F.pcsStsHiBer]) false).fput (by simp [F.pcsStsState]) 2

/-- Lock in SYNC leads to UP_WAIT. -/
theorem exec_pcsLock_of_sync {s : State} (hp : p < 144) (h : s.pcsRuns p = true) (hcdr : s.flag (F.pcsStsCdr p) = true)
    (hsync : s.fget (F.pcsStsState p) = 1) : exec (.pcsLock p) s = .next ((s.pcsLocked p).showLine p) := by
  have hready : (s.flag (F.pcsStsCdr p) && s.fget (F.pcsStsState p) != 0) = true :=
    Bool.and_eq_true_iff.mpr ⟨hcdr, by rw [hsync]; rfl⟩
  have hstate : ((s.gainLock p).fget (F.pcsStsState p) == 1) = true :=
    beq_iff_eq.mpr ((s.gainLock_state hp).trans hsync)
  rw [exec, execPcsLock, State.onPort_of_running h, State.when_true hready]
  simp only [hstate, cond_true, State.pcsLocked]

/-- Without CDR lock no receiver gains lock. -/
theorem exec_pcsLock_of_unready {s : State} (h : s.pcsRuns p = true)
    (hno : s.flag (F.pcsStsCdr p) = false ∨ s.fget (F.pcsStsState p) = 0) :
    exec (.pcsLock p) s = .next (s.showLine p) := by
  have hwaits : (s.flag (F.pcsStsCdr p) && s.fget (F.pcsStsState p) != 0) = false :=
    Bool.and_eq_false_iff.mpr (hno.imp_right bne_eq_false_iff_eq.mpr)
  rw [exec, execPcsLock, State.onPort_of_running h, State.when_false hwaits]

end Locking

/-- Settles O29: each step of the walk on PCS_STS and SDS_STS, and then the line, which no word shows. -/
theorem linksLockAndComeUp : Obligations.LinksLockAndComeUp := by
  refine fun s p hp => ⟨fun hruns => ⟨?_, fun hcdr hsync => ?_, exec_pcsLock_of_unready hruns⟩, fun hstopped =>
    ⟨congrArg Host.Outcome.next (State.onPort_of_stopped hstopped _),
      congrArg Host.Outcome.next (State.onPort_of_stopped hstopped _)⟩⟩
  · refine ⟨_, exec_cdrLock_of_running hruns, ?_⟩
    simp only [State.showLine_flag, State.showLine_fget]
    obtain ⟨hcdr, hrf, hber, hstate, hpll⟩ := s.cdrLocked_fields hp
    exact ⟨hcdr, hrf, hber, hstate, hpll, (s.cdrLocked_onlyWords p).showLine p⟩
  · refine ⟨_, exec_pcsLock_of_sync hp hruns hcdr hsync, ?_⟩
    simp only [State.showLine_flag, State.showLine_fget]
    obtain ⟨hlock, hstate, hber, hfec⟩ := s.pcsLocked_fields hp
    exact ⟨hlock, hstate, hber, hfec, (s.pcsLocked_onlyWords p).showLine p⟩

/-! ### Control frames and their timers (R118 to R120) -/

section FlowControl

variable {s : State} {p : Nat}

theorem State.mac_setMac_ne {r : Nat} (h : r ≠ p) (s : State) (x : MacPort) : (s.setMac p x).mac r = s.mac r :=
  Table.get_put_ne h _ _

/-- A loaded timer ends `v` quanta from now; the others run on. -/
theorem State.loadTimer_timers (s : State) (p i v : Nat) :
    ((s.loadTimer p i v).mac p).timers
      = Table.put 0 (if v = 0 then 0 else s.now100 + v * s.quantum p) i (s.mac p).timers := by
  rw [State.loadTimer, State.mac_setMac_self]
  simp only [Bool.cond_eq_ite, beq_iff_eq]

/-- A PAUSE frame acts while MODE selects PAUSE, and only counts otherwise (R119). -/
theorem exec_pauseFrame_of_pause (hm : s.macHears p = true) (h : s.fget (F.macFcMode p) = 1) (v : Nat) :
    exec (.pauseFrameReceived p v) s = .next (((s.macCount p 21 1).loadTimer p 8 v).showStopped p) := by
  rw [exec, execPauseFrameReceived, State.when_true hm, State.pauseFrame, h]
  rfl

theorem exec_pauseFrame_of_other (hm : s.macHears p = true) (h : s.fget (F.macFcMode p) ≠ 1) (v : Nat) :
    exec (.pauseFrameReceived p v) s = .next (s.macCount p 21 1) := by
  rw [exec, execPauseFrameReceived, State.when_true hm]
  simp only [State.pauseFrame, beq_eq_false_iff_ne.mpr h, cond_false]

/-- A PFC frame counts, itself and each class that it names. -/
def State.pfcCounted (s : State) (p enable : Nat) : State :=
  eachOf ((List.range 8).filter (bitAt enable)) (fun i t => t.macCount p (23 + i) 1) (s.macCount p 22 1)

/-- A PFC frame acts while MODE selects PFC, and only counts otherwise (R119). -/
theorem exec_pfcFrame_of_pfc (hm : s.macHears p = true) (h : s.fget (F.macFcMode p) = 2) (enable : Nat)
    (times : List Nat) : exec (.pfcFrameReceived p enable times) s = .next
      ((eachOf ((List.range 8).filter (bitAt enable)) (fun i t => t.loadTimer p i (times.getD i 0))
        (s.pfcCounted p enable)).showStopped p) := by
  rw [exec, execPfcFrameReceived, State.when_true hm, State.pfcFrame, h]
  rfl

theorem exec_pfcFrame_of_other (hm : s.macHears p = true) (h : s.fget (F.macFcMode p) ≠ 2) (enable : Nat)
    (times : List Nat) : exec (.pfcFrameReceived p enable times) s = .next (s.pfcCounted p enable) := by
  rw [exec, execPfcFrameReceived, State.when_true hm]
  simp only [State.pfcFrame, beq_eq_false_iff_ne.mpr h, cond_false, State.pfcCounted]

/-- A port that is not UP or not enabled ignores control frames (R109). -/
theorem exec_controlFrames_of_deaf (hm : s.macHears p = false) (v enable : Nat) (times : List Nat) :
    exec (.pauseFrameReceived p v) s = .next s ∧ exec (.pfcFrameReceived p enable times) s = .next s :=
  ⟨congrArg Host.Outcome.next (State.when_false hm s _), congrArg Host.Outcome.next (State.when_false hm s _)⟩

end FlowControl

/-- Settles O32: each frame by what MODE selects, and what a loaded timer leaves. -/
theorem flowControlLoadsItsTimers : Obligations.FlowControlLoadsItsTimers := by
  refine ⟨fun s p v hm => ⟨fun h => exec_pauseFrame_of_pause hm h v, fun h => exec_pauseFrame_of_other hm h v⟩, ?_,
    fun s p v en times hm => exec_controlFrames_of_deaf hm v en times, ?_, fun s p i =>
    ⟨fun hr => congrArg Host.Outcome.next (State.atDom_ready hr _),
      fun hr => congrArg Host.Outcome.next (State.atDom_off hr _)⟩⟩
  · rintro s u p en times hm rfl
    exact ⟨fun h => exec_pfcFrame_of_pfc hm h en times, fun h => exec_pfcFrame_of_other hm h en times⟩
  · rintro s p i v t rfl
    rw [State.loadTimer_timers]
    exact ⟨Table.get_put_self _ _ _ _, fun j hj => Table.get_put_ne hj _ _, fun r hr => State.mac_setMac_ne hr s _, rfl⟩

/-! ### UP, DOWN and PHY changes (R106, R108, R111, R128) -/

section LinkEvents

variable {s : State} {p : Nat}

theorem exec_upDlyExpire_of_wait (h : s.pcsRuns p = true) (hwait : s.fget (F.pcsStsState p) = 2)
    (hlock : s.flag (F.pcsStsLock p) = true) :
    exec (.upDlyExpire p) s = .next (((s.enterUpPort p).refresh p).showLine p) := by
  rw [exec, execUpDlyExpire, State.onPort_of_running h,
    State.when_true (Bool.and_eq_true_iff.mpr ⟨beq_iff_eq.mpr hwait, hlock⟩)]

theorem exec_upDlyExpire_of_other (h : s.pcsRuns p = true)
    (hno : s.fget (F.pcsStsState p) ≠ 2 ∨ s.flag (F.pcsStsLock p) = false) :
    exec (.upDlyExpire p) s = .next (s.showLine p) := by
  have hstays : (s.fget (F.pcsStsState p) == 2 && s.flag (F.pcsStsLock p)) = false :=
    Bool.and_eq_false_iff.mpr (hno.imp_left beq_eq_false_iff_ne.mpr)
  rw [exec, execUpDlyExpire, State.onPort_of_running h, State.when_false hstays]

/-- What a receiver without lock shows; `cdr` where CDR lock is lost too. -/
def State.lockLost (s : State) (p : Nat) (cdr : Bool) : State :=
  (((s.fset (F.pcsStsLock p) false).fset (F.pcsStsFecLock p) false).fset (F.pcsStsRfRx p) false).when cdr
    (·.fset (F.pcsStsCdr p) false)

/-- A guarded relock begins: what is received is cut (R111). -/
def State.relockBegun (s : State) (p : Nat) : State :=
  (s.cutRx p).setMac p { (s.cutRx p).mac p with relock := true, relocked := false }

theorem exec_lossOfLock_of_running (h : s.pcsRuns p = true) (cdr : Bool) :
    exec (.lossOfLock p cdr) s = .next ((bif (s.lockLost p cdr).guardHolds p then (s.lockLost p cdr).relockBegun p
      else (s.lockLost p cdr).toDown p).showLine p) :=
  congrArg Host.Outcome.next (State.onPort_of_running h _)

/-- hi_ber shows, counts and sets its event. -/
def State.berHigh (s : State) (p : Nat) : State := ((s.fset (F.pcsStsHiBer p) true).macCount p 58 1).macEvent p 2

theorem exec_hiBer_of_running (h : s.pcsRuns p = true) (hrate : s.baseR p = true) : exec (.hiBer p) s
    = .next ((bif (s.berHigh p).guardHolds p then s.berHigh p else (s.berHigh p).toDown p).showLine p) := by
  rw [exec, execHiBer, State.onPort_of_running h, State.when_true hrate]
  rfl

theorem exec_remoteFault_of_running (h : s.pcsRuns p = true) (hrate : s.baseR p = true) :
    exec (.remoteFaultReceived p) s
      = .next ((((s.fset (F.pcsStsRfRx p) true).macEvent p 3).toDown p).showLine p) := by
  rw [exec, execRemoteFaultReceived, State.onPort_of_running h, State.when_true hrate]

/-- A port below BASE-R has neither hi_ber nor Remote Fault. -/
theorem exec_baseREvents_of_slow (h : s.pcsRuns p = true) (hrate : s.baseR p = false) :
    exec (.hiBer p) s = .next (s.showLine p) ∧ exec (.remoteFaultReceived p) s = .next (s.showLine p) := by
  rw [exec, exec, execHiBer, execRemoteFaultReceived, State.onPort_of_running h, State.onPort_of_running h,
    State.when_false hrate, State.when_false hrate]
  exact ⟨rfl, rfl⟩

/-- A port whose PCS does not run has no link events. -/
theorem exec_linkEvents_of_stopped (h : s.pcsRuns p = false) : exec (.upDlyExpire p) s = .next s ∧
    (∀ cdr, exec (.lossOfLock p cdr) s = .next s) ∧ exec (.hiBer p) s = .next s ∧
    exec (.remoteFaultReceived p) s = .next s :=
  ⟨congrArg Host.Outcome.next (State.onPort_of_stopped h _),
    fun _ => congrArg Host.Outcome.next (State.onPort_of_stopped h _),
    congrArg Host.Outcome.next (State.onPort_of_stopped h _), congrArg Host.Outcome.next (State.onPort_of_stopped h _)⟩

/-- A write that leaves PHY and FEC is only stored. -/
theorem State.writePcsCtl_of_same {w : Nat}
    (h : (s.store (Reg.pcsCtl p) w).rd (Reg.pcsCtl p) % 32 = s.rd (Reg.pcsCtl p) % 32) :
    s.writePcsCtl p w = s.store (Reg.pcsCtl p) w := by
  simp only [State.writePcsCtl, beq_iff_eq.mpr h, cond_true]

/-- A new PHY or FEC loads the latencies and restarts the link. -/
theorem State.writePcsCtl_of_new {w : Nat}
    (h : (s.store (Reg.pcsCtl p) w).rd (Reg.pcsCtl p) % 32 ≠ s.rd (Reg.pcsCtl p) % 32) :
    s.writePcsCtl p w = (((s.store (Reg.pcsCtl p) w).loadPlat p).linkRestart p).showLine p := by
  simp only [State.writePcsCtl, beq_eq_false_iff_ne.mpr h, cond_false]

theorem exec_phyChange_of_reached (h : s.reaches (Reg.pcsCtl p) = true) (w : Nat) :
    exec (.phyChange p w) s = .next (s.writePcsCtl p w) := congrArg Host.Outcome.next (State.atReg_reached h _)

/-- A SerDes bank's PLL unlocks: its ports restart their links, and the quadrant's source reports it (R128). -/
theorem exec_serdesPllUnlock_of_ready {b : Nat} (hq : s.qReady (b / 6) 0 = true)
    (hb : s.ready (qDom (b / 6) (1 + b % 6)) = true) (pllB : Bool) : exec (.serdesPllUnlock b pllB) s = .next
      ((forUpTo 6 (fun i x => (x.linkRestart (6 * b + i)).showLine (6 * b + i))
        ((s.fset (F.sdsStsUnlock b) true).fset (if pllB then F.sdsStsPllB b else F.sdsStsPllA b) false)).corrected
          (8 * (b / 6) + 6) 0) := by
  rw [exec, execSerdesPllUnlock, State.when_true (Bool.and_eq_true_iff.mpr ⟨hq, hb⟩), Bool.cond_eq_ite]

theorem exec_serdesPllUnlock_of_off {b : Nat}
    (h : s.qReady (b / 6) 0 = false ∨ s.ready (qDom (b / 6) (1 + b % 6)) = false) (pllB : Bool) :
    exec (.serdesPllUnlock b pllB) s = .next s := by
  rw [exec, execSerdesPllUnlock, State.when_false (Bool.and_eq_false_iff.mpr h)]

end LinkEvents

/-- Settles O30: each event of a running PCS by its condition, the write of PCS_CTL, and the unlock of a bank. -/
theorem linksGoUpAndDown : Obligations.LinksGoUpAndDown := by
  refine ⟨fun s p h => ⟨exec_upDlyExpire_of_wait h, exec_upDlyExpire_of_other h, ?_, ?_, exec_remoteFault_of_running h,
    exec_baseREvents_of_slow h⟩, fun s p => exec_linkEvents_of_stopped, ?_, fun s b pllB =>
    ⟨fun hq hb => exec_serdesPllUnlock_of_ready hq hb pllB, fun hoff => exec_serdesPllUnlock_of_off hoff pllB⟩⟩
  · rintro cdr u v rfl hv
    have hlost : v = s.lockLost p cdr := by rw [hv, State.lockLost, State.when, Bool.cond_eq_ite]
    have hexec := exec_lossOfLock_of_running h cdr
    rw [hlost]
    exact ⟨fun hopen => by rw [hexec, hopen, cond_false], fun hheld => by rw [hexec, hheld]; rfl⟩
  · rintro hrate u rfl
    have hexec := exec_hiBer_of_running h hrate
    exact ⟨fun hopen => by rw [hexec, show (s.berHigh p).guardHolds p = false from hopen]; rfl,
      fun hheld => by rw [hexec, show (s.berHigh p).guardHolds p = true from hheld]; rfl⟩
  · rintro s t p w rfl
    refine ⟨fun hr => ?_, fun hr => congrArg Host.Outcome.next (State.atReg_unreached hr _)⟩
    rw [exec_phyChange_of_reached hr]
    exact ⟨fun hsame => by rw [State.writePcsCtl_of_same hsame], fun hnew => by rw [State.writePcsCtl_of_new hnew]⟩

/-! ### The end of a frame and its 64th byte (R109, R113, R114) -/

section Reception

variable {s : State} {e : RxEnd}

/-- The FEC counts of a frame's end. -/
def State.fecCounted (s : State) (e : RxEnd) : State :=
  ((s.macCount e.port 53 e.fecCorr).macCount e.port 54 e.fecUncorr).macCount e.port 55 e.fecSym

/-- The frame's reception was cut, now or before. -/
def State.endsCut (s : State) (e : RxEnd) : Bool := e.cut || (match s.rxOf e.port e.pre with
  | some r => r.cut
  | none => false)

/-- The continuation fragments of a frame's end. -/
def State.contCounted (s : State) (e : RxEnd) : State := s.macCount e.port 32 (contCount e)

/-- A frame with its row of Table 4.4 is discarded; a good one acts on the MAC, or is passed on. -/
def State.rxJudged (s : State) (e : RxEnd) : Option Nat → State
  | some n => s.rxDiscard e n
  | none => bif isControl e.bytes then (s.controlFrame e.port e.bytes).setRx e.port e.pre none else s.rxGood e

theorem State.rxEnd_eq (s : State) (e : RxEnd) : s.rxEnd e =
    bif !(s.fecCounted e).flag (F.macCtlEn e.port) || !((s.fecCounted e).portUp e.port || (s.fecCounted e).endsCut e) then
      (s.fecCounted e).rxDrop e.port e.pre e.bytes
    else ((s.fecCounted e).contCounted e).rxJudged e
      (((s.fecCounted e).contCounted e).rxFate e ((s.fecCounted e).endsCut e)) := rfl

/-- A port that is not enabled, or neither UP nor cut, passes nothing on (R109). -/
theorem State.rxEnd_of_deaf (h : (s.fecCounted e).flag (F.macCtlEn e.port) = false ∨
    ((s.fecCounted e).portUp e.port = false ∧ (s.fecCounted e).endsCut e = false)) :
    s.rxEnd e = (s.fecCounted e).rxDrop e.port e.pre e.bytes := by
  rw [State.rxEnd_eq]
  rcases h with hen | ⟨hup, hcut⟩
  · rw [hen]
    rfl
  · rw [hup, hcut, Bool.or_self, Bool.not_false, Bool.or_true, cond_true]

theorem State.rxEnd_of_heard (hen : (s.fecCounted e).flag (F.macCtlEn e.port) = true)
    (hup : (s.fecCounted e).portUp e.port = true ∨ (s.fecCounted e).endsCut e = true) :
    s.rxEnd e = ((s.fecCounted e).contCounted e).rxJudged e
      (((s.fecCounted e).contCounted e).rxFate e ((s.fecCounted e).endsCut e)) := by
  have hheard : ((s.fecCounted e).portUp e.port || (s.fecCounted e).endsCut e) = true := (Bool.or_eq_true _ _).mpr hup
  rw [State.rxEnd_eq, hen, hheard]
  rfl

theorem exec_frameEnd_of_ready (h : s.ready (qDom (e.port / 36) 0) = true) :
    exec (.frameEndReceived e) s = .next (s.rxEnd e).reportReads := congrArg Host.Outcome.next (State.atDom_ready h _)

variable {p : Nat} {pre : Bool}

/-- The port begins to receive a frame of this kind. -/
def State.beginsFrame (s : State) (p : Nat) (pre : Bool) : Bool :=
  s.flag (F.macCtlEn p) && s.portUp p && (s.rxOf p pre).isNone && (!pre || s.flag (F.macPeCtlPeEn p))

theorem State.beginsFrame_of_free (hen : s.flag (F.macCtlEn p) = true) (hup : s.portUp p = true)
    (hfree : s.rxOf p pre = none) (hpe : pre = true → s.flag (F.macPeCtlPeEn p) = true) :
    s.beginsFrame p pre = true := by
  rw [State.beginsFrame, hen, hup, hfree]
  cases pre with
  | false => rfl
  | true => rw [hpe rfl]; rfl

theorem State.beginsFrame_of_busy (h : s.flag (F.macCtlEn p) = false ∨ s.portUp p = false ∨
    (s.rxOf p pre).isSome = true ∨ (pre = true ∧ s.flag (F.macPeCtlPeEn p) = false)) :
    s.beginsFrame p pre = false := by
  rw [State.beginsFrame]
  rcases h with hen | hup | hbusy | ⟨hpre, hpe⟩
  · simp only [hen, Bool.false_and]
  · simp only [hup, Bool.and_false, Bool.false_and]
  · simp only [Option.isNone_eq_false_iff.mpr hbusy, Bool.and_false, Bool.false_and]
  · simp only [hpre, hpe, Bool.not_true, Bool.or_self, Bool.and_false]

theorem exec_frame64thByte_of_ready (h : s.ready (qDom (p / 36) 0) = true) (head : List Byte) (stamp : Nat)
    (x : RxFlaws) : exec (.frame64thByte p pre head stamp x) s
      = .next (s.when (s.beginsFrame p pre) fun u => (u.rxBegin p pre head stamp x).reportReads) :=
  congrArg Host.Outcome.next (State.atDom_ready h _)

end Reception

/-- Settles O31: the judgement of a heard frame by its fate, the fates in their order, and the frames that begin. -/
theorem receivedFramesAreCheckedAtTheirEnd : Obligations.ReceivedFramesAreCheckedAtTheirEnd := by
  refine ⟨fun s u v e cut => ⟨?_, fun hr => congrArg Host.Outcome.next (State.atDom_off hr _)⟩,
    fun s e => ⟨s.rxFate_of_cut e, ?_⟩, fun s p stamp pre head x hr => ?_⟩
  · intro hr hu hcut hv
    obtain rfl : u = s.fecCounted e := hu
    obtain rfl : cut = (s.fecCounted e).endsCut e := hcut
    obtain rfl : v = (s.fecCounted e).contCounted e := hv
    rw [exec_frameEnd_of_ready hr]
    refine ⟨fun hdeaf => by rw [State.rxEnd_of_deaf hdeaf], fun hen hup => ?_⟩
    rw [State.rxEnd_of_heard hen hup]
    exact ⟨fun n hfate => by rw [hfate]; rfl, fun hfate hctl => by rw [hfate, State.rxJudged, hctl, cond_true],
      fun hfate hctl => by rw [hfate, State.rxJudged, hctl, cond_false]⟩
  · rintro len rfl
    refine ⟨State.rxFate_of_assyError, State.assyError_of_disabled, fun ha => ⟨State.rxFate_of_short ha, ?_, ?_, ?_⟩⟩
    · exact fun hlen hcode => by rw [State.rxFate_of_whole ha hlen, if_pos hcode]
    · exact fun hlen hcode hover => by
        rw [State.rxFate_of_whole ha hlen, if_neg (ne_true_of_eq_false hcode), if_neg (Nat.not_le.mpr hover)]
    · exact fun hlen hcode hfits hfcs => by
        rw [State.rxFate_of_whole ha hlen, if_neg (ne_true_of_eq_false hcode), if_pos hfits, if_neg hfcs]
  · rw [exec_frame64thByte_of_ready hr]
    exact ⟨fun hen hup hfree hpe => by rw [State.when_true (State.beginsFrame_of_free hen hup hfree hpe)],
      fun hbusy => by rw [State.when_false (State.beginsFrame_of_busy hbusy)]⟩

end Sys2Proof.Machine
end

section
/-! SUPPORT. The staged accesses of the classifier (R28, R137, R428): how a staged read goes through its entry, and a block
whose report of an unreadable word clears BUSY again. -/

namespace Sys2Proof.Machine

/-! ### A staged read (R137) -/

/-- A write unlists its word or lists it anew. -/
theorem State.wr_eq_drop_or_place (s : State) (a n : Nat) :
    s.wr a n = { s with regs := Table.drop a s.regs } ∨
      s.wr a n = { s with regs := Table.place a (BitVec.ofNat 32 (n &&& implOf a)) (Table.drop a s.regs) } := by
  unfold State.wr Table.put
  split
  · exact .inl rfl
  · exact .inr rfl

/-- Word `j` of entry `i` is read into its staging register. -/
def State.clsWordRead (s : State) (q i : Nat) (meter : Bool) (j : Nat) : State :=
  (s.tableRead (clsWord q i j meter)).1.wr (Reg.clsStg q j) (s.tableRead (clsWord q i j meter)).2

/-- A staged read goes through the four words in order. -/
theorem State.clsEntryRead_eq (s : State) (q i : Nat) (meter : Bool) :
    s.clsEntryRead q i meter = (((s.clsWordRead q i meter 0).clsWordRead q i meter 1).clsWordRead q i meter 2).clsWordRead
      q i meter 3 := by
  simp only [State.clsEntryRead, State.clsWordRead, eachOf, List.foldl_cons, List.foldl_nil]

/-- A staged read that is taken reads the entry, sets BUSY and reports what it has read. -/
theorem exec_clsStagedRead_of_idle {s u : State} {q w : Nat} (hreach : s.reaches (Reg.clsStgCmd q) = true)
    (hidle : s.flag (F.clsStgCmdGoBusy q) = false) (hu : u = s.store (Reg.clsStgCmd q) (w ||| 2 ^ 31 ||| 2 ^ 17))
    (hop : u.flag (F.clsStgCmdOp q) = true) :
    exec (.clsStagedRead q w) s = .next (((u.clsEntryRead q (u.fget (F.clsStgCmdIndex q))
      (u.flag (F.clsStgCmdTable q))).fset (F.clsStgCmdGoBusy q) true).reportReads) := by
  have hgo : bitAt (w ||| 2 ^ 31 ||| 2 ^ 17) 31 = true := by
    simp only [bitAt, Nat.testBit_or, Nat.testBit_two_pow_self, Bool.or_true, Bool.true_or]
  refine congrArg Host.Outcome.next ((State.atReg_reached hreach _).trans ?_)
  rw [State.writeClsStg, hidle, cond_false, ← hu, State.when_true hgo, hop, cond_true]

/-! ### A report that isolates a quadrant (R28, R416 to R421) -/

/-- The sources of a handshake that latch anew and react at once (R419). -/
def State.reactingAtOnce (s : State) (rs : List (Nat × Nat)) : List Nat :=
  (List.range 64).filter fun n =>
    rs.any (fun x => x.1 == n) && !s.flag (fswBit n) && s.fget (F.qchSrc0Grace n) == 0 && s.reacts n

/-- One word that waits to be reported is reported alone. -/
theorem State.reportReads_of_one {s : State} {x : Nat} {y : Nat × Nat} (h : s.touched = [x]) (hy : injReport x = y) :
    s.reportReads = ({ s with touched := [] }.latch [y]).reactAll ({ s with touched := [] }.reactingAtOnce [y]) := by
  subst hy
  rw [State.reportReads, h]
  rfl

/-- Of the turns of a loop the one that takes the element acts. -/
theorem forUpTo_filter_singleton {m u : Nat} (hu : u < m) (n : Nat) (f : Nat → State → State) (s : State) :
    forUpTo m (fun v t => eachOf ([n].filter (fun _ => u == v)) f t) s = f n s := by
  have hturn : ∀ v t, eachOf ([n].filter (fun _ => u == v)) f t = if v == u then f n t else t := fun v t => by
    rw [Bool.beq_comm]
    cases v == u <;> rfl
  have hone : (List.range m).filter (· == u) = [u] := by
    rw [List.filter_beq, List.count_eq_one_of_mem List.nodup_range (List.mem_range.mpr hu)]
    rfl
  simp only [forUpTo, eachOf] at hturn ⊢
  simp only [hturn]
  rw [← List.foldl_filter (f := fun t _ => f n t), hone]
  rfl

/-- The reactions of one contained source are its own. -/
theorem State.reactAll_singleton {s : State} {n : Nat} (h : s.targetOf n < 11) : s.reactAll [n] = s.react n := by
  have hcontained : (s.targetOf n == 11) = false := beq_eq_false_iff_ne.mpr (Nat.ne_of_lt h)
  simp only [State.reactAll, List.any_cons, List.any_nil, hcontained, Bool.and_false, Bool.false_and, Bool.or_self,
    cond_false]
  exact forUpTo_filter_singleton h n (fun m t => t.react m) s

/-- The recovery of a unit begins: its state, and its record. -/
def State.recoveryBegun (s : State) (u n : Nat) : State :=
  (s.fput (F.qchUnitState u) 1).brzEvent (0x50 + u) 97 u n 0

/-- The reaction of a quadrant whose target is in RUN. -/
theorem State.react_of_quadrant {s : State} {n u : Nat} (hreacts : s.reacts n = true) (htarget : s.targetOf n = u)
    (hu : u < 4) (hruns : s.targetRuns n = true) : s.react n = s.reactUnit u n := by
  have hnone : (u == 12) = false := beq_eq_false_iff_ne.mpr (by omega)
  have hdevice : (u == 11) = false := beq_eq_false_iff_ne.mpr (by omega)
  rw [State.react, htarget, hreacts, hruns, hnone, hdevice]
  rfl

/-- A reaction that does not latch isolates its quadrant and leaves it to the recovery. -/
theorem State.reactUnit_of_quadrant {s : State} {u : Nat} (hu : u < 4) (hkept : (s.hourCount u == 8) = false)
    (hauto : s.flag F.qchCtlAutoRec = true) (n : Nat) :
    s.reactUnit u n = ((s.recoveryBegun u n).isolate u).driveFault := by
  have hlatched : (s.hourCount u == 8 || !s.flag F.qchCtlAutoRec) = false := by rw [hkept, hauto]; rfl
  have hquad : Nat.blt u 4 = true := Nat.blt_eq.mpr hu
  rw [State.reactUnit, hlatched, hquad, Bool.false_and, cond_true, cond_false, Bool.false_and, State.when_false rfl,
    State.recoveryBegun]

/-- The isolation of quadrant `q` up to its rings: the gate closes, and the frames on its lines end. -/
def State.linesCut (s : State) (q : Nat) : State :=
  forUpTo 36 (fun l u => u.cutTx (36 * q + l))
    ((((s.fput F.qchStsIso (s.fget F.qchStsIso ||| 2 ^ q)).driveHold q).unmeasure q).anlLinkLost q)

/-- The isolation of a quadrant none of whose rings runs. -/
theorem State.isolate_of_stopped {s : State} {q : Nat} (hopen : s.iso q = false)
    (hstopped : ∀ j < 576, (s.linesCut q).flag (F.ringStsRun (576 * q + j)) = false) :
    s.isolate q = ((s.linesCut q).dropQuadrant q).masterDown (3 + q) := by
  have hrings : forUpTo 576 (fun j u => u.ringIsolate (576 * q + j)) (s.linesCut q) = s.linesCut q :=
    eachOf_invariant (P := (· = s.linesCut q)) rfl fun j hj t ht => by
      rw [ht, State.ringIsolate, hstopped j (List.mem_range.mp hj), Bool.not_false, cond_true]
  rw [State.isolate, hopen, cond_false]
  exact congrArg (fun t => (State.dropQuadrant t q).masterDown (3 + q)) hrings

/-! ### A report that clears BUSY -/

/-- The number of no ring: of the registers that its number gives, HEAD lies on CLS_STG_CMD of quadrant 0. -/
def strayRing : Nat := 2304 + (Reg.clsStgCmd 0 - 0x1020) / 0x40

theorem ringHead_strayRing : Reg.ringHead strayRing = Reg.clsStgCmd 0 := by decide

/-- Quadrant 0 with its base domain READY. Word 2 of stream entry 0 is stored with two inverted check bits, its source 2
reacts without grace, and port 0 sends the frame of an accepted entry of the stray ring. -/
def strayRead : State :=
  { regs := [(0x10104, 3#32), (Reg.qchSrc0 2, 0x100000#32)]
    injected := [(streamAddr 0 0 2, 64 * 2 + 4 * 1 + 2)]
    rings := [(strayRing, { entries := [{}] })]
    ports := [(0, { tx := some { frame := { ring := strayRing } } })] }

/-- The staged command stands in CLS_STG_CMD. -/
def strayTaken : State := strayRead.store (Reg.clsStgCmd 0) (0 ||| 2 ^ 31 ||| 2 ^ 17)

/-- Words 0 and 1 are staged, word 2 is read, and its value is free. -/
def strayHalf : State := (strayTaken.clsWordRead 0 0 false 0).clsWordRead 0 0 false 1
def strayTouched : State := (strayHalf.tableRead (streamAddr 0 0 2)).1
def strayValue : Nat := (strayHalf.tableRead (streamAddr 0 0 2)).2

/-- The last word is staged, and BUSY is set. -/
def State.strayEnded (s : State) : State := (s.clsWordRead 0 0 false 3).fset (F.clsStgCmdGoBusy 0) true

theorem exec_strayRead : exec (.clsStagedRead 0 0) strayRead
    = .next (strayTouched.wr (Reg.clsStg 0 2) strayValue).strayEnded.reportReads := by
  have hreach : strayRead.reaches (Reg.clsStgCmd 0) = true := by decide +kernel
  have hidle : strayRead.flag (F.clsStgCmdGoBusy 0) = false := by decide +kernel
  have hop : strayTaken.flag (F.clsStgCmdOp 0) = true := by decide +kernel
  have hindex : strayTaken.fget (F.clsStgCmdIndex 0) = 0 := by decide +kernel
  have htable : strayTaken.flag (F.clsStgCmdTable 0) = false := by decide +kernel
  rw [exec_clsStagedRead_of_idle hreach hidle rfl hop, ← strayTaken, hindex, htable, State.clsEntryRead_eq]
  rfl

/-- The register files that the free value can leave. -/
def strayFiles : List (Table Word) :=
  [Table.drop (Reg.clsStg 0 2) strayTouched.regs,
    Table.place (Reg.clsStg 0 2) (BitVec.ofNat 32 (strayValue &&& implOf (Reg.clsStg 0 2)))
      (Table.drop (Reg.clsStg 0 2) strayTouched.regs)]

theorem wr_strayValue : ∃ r ∈ strayFiles,
    strayTouched.wr (Reg.clsStg 0 2) strayValue = { strayTouched with regs := r } := by
  rcases strayTouched.wr_eq_drop_or_place (Reg.clsStg 0 2) strayValue with h | h
  · exact ⟨_, .head _, h⟩
  · exact ⟨_, .tail _ (.head _), h⟩

/-- What the command leaves to report, and the block that has latched the report. -/
def strayStaged (r : Table Word) : State := { strayTouched with regs := r }.strayEnded
def strayLatched (r : Table Word) : State := { strayStaged r with touched := [] }.latch [(2, 2)]

/-- The recovery has begun, and the frame of the stray ring has ended. -/
def strayCut (r : Table Word) : State := ((strayLatched r).recoveryBegun 0 2).linesCut 0

/-- The report of word 2 isolates quadrant 0. -/
theorem strayStaged_reports {r : Table Word} (hr : r ∈ strayFiles) :
    (strayStaged r).reportReads = (((strayCut r).dropQuadrant 0).masterDown (3 + 0)).driveFault := by
  have htouched : ∀ r ∈ strayFiles, (strayStaged r).touched = [134] := by decide +kernel
  have honce : ∀ r ∈ strayFiles, { strayStaged r with touched := [] }.reactingAtOnce [(2, 2)] = [2] := by decide +kernel
  have hreacts : ∀ r ∈ strayFiles, (strayLatched r).reacts 2 = true ∧ (strayLatched r).targetRuns 2 = true ∧
      ((strayLatched r).hourCount 0 == 8) = false ∧ (strayLatched r).flag F.qchCtlAutoRec = true := by decide +kernel
  have hopen : ∀ r ∈ strayFiles, ((strayLatched r).recoveryBegun 0 2).iso 0 = false := by decide +kernel
  have hstopped : ∀ r ∈ strayFiles, ∀ j < 576, (strayCut r).flag (F.ringStsRun (576 * 0 + j)) = false := by
    decide +kernel
  have htarget : (strayLatched r).targetOf 2 = 0 := rfl
  obtain ⟨hclass, hruns, hkept, hauto⟩ := hreacts r hr
  rw [State.reportReads_of_one (htouched r hr) (y := (2, 2)) rfl, ← strayLatched, honce r hr,
    State.reactAll_singleton (by rw [htarget]; decide), State.react_of_quadrant hclass htarget (by decide) hruns,
    State.reactUnit_of_quadrant (by decide) hkept hauto, State.isolate_of_stopped (hopen r hr) (hstopped r hr), ← strayCut]

/-- With the frame its entry ends, and the head of the stray ring is stored over CLS_STG_CMD. -/
theorem strayCut_clears_busy : ∀ r ∈ strayFiles,
    ((((strayCut r).dropQuadrant 0).masterDown (3 + 0)).driveFault).flag (F.clsStgCmdGoBusy 0) = false := by decide +kernel

/-- Refutes O34: of the ring that a frame names the statement asks nothing. Where its number gives registers that lie on
CLS_STG_CMD, a staged read of an unreadable entry ends with BUSY = 0: its report isolates the quadrant, the isolation
ends the frame, and the ring's head is stored. -/
theorem not_stagedAccessMovesWholeEntries : ¬ Obligations.StagedAccessMovesWholeEntries := by
  intro h
  have hreach : strayRead.reaches (Reg.clsStgCmd 0) = true := by decide +kernel
  have hidle : strayRead.flag (F.clsStgCmdGoBusy 0) = false := by decide +kernel
  obtain ⟨hstaged, -⟩ := h
  obtain ⟨hcls, -⟩ := hstaged strayRead 0 0 0 (by decide) rfl
  obtain ⟨-, hmoves⟩ := hcls hreach
  obtain ⟨-, t, hexec, hbusy, -⟩ := hmoves hidle rfl
  obtain ⟨r, hr, hwritten⟩ := wr_strayValue
  have ht : (strayStaged r).reportReads = t := by
    rw [exec_strayRead, hwritten] at hexec
    exact Host.Outcome.next.inj hexec
  rw [← ht, strayStaged_reports hr, strayCut_clears_busy r hr] at hbusy
  exact Bool.false_ne_true hbusy

end Sys2Proof.Machine
end

section
/-! SUPPORT. The bucket calculators, the meter readout and the meters (R134, R141, R189): what a store into a plain field
leaves, the bucket that a key write shows, and how a meter judges a frame. -/

namespace Sys2Proof.Machine

/-! ### Stores into plain fields (R14) -/

/-- The field lies in a quadrant window, in a word without store rules, and takes the written bits as they are. -/
def Fld.plain (f : Fld) : Bool :=
  Fld.held f && Nat.ble 0x1000000 f.addr && f.addr % 0x1000 != 0x40 && Nat.ble (f.lo + f.width) 32 &&
    match regRow f.addr with
    | some r => r.adj.isEmpty && r.w1c == 0 && bitsOf r.rw f.lo f.width == 2 ^ f.width - 1
    | none => false

theorem Fld.row_of_plain {f : Fld} (h : Fld.plain f = true) : ∃ r, regRow f.addr = some r ∧ r.adj = [] ∧ r.w1c = 0 ∧
    bitsOf r.rw f.lo f.width = 2 ^ f.width - 1 := by
  rw [Fld.plain, Bool.and_eq_true] at h
  obtain ⟨-, hrow⟩ := h
  split at hrow
  · next r hr =>
    simp only [Bool.and_eq_true, List.isEmpty_iff, beq_iff_eq] at hrow
    obtain ⟨⟨hadj, hw1c⟩, hrw⟩ := hrow
    exact ⟨r, hr, hadj, hw1c, hrw⟩
  · exact absurd hrow Bool.false_ne_true

/-- A stored plain field reads as it was written. -/
theorem State.fget_store_plain {f : Fld} (h : Fld.plain f = true) (s : State) (v : Nat) :
    (s.store f.addr v).fget f = bitsOf v f.lo f.width := by
  obtain ⟨r, hrow, hadj, hw1c, hrw⟩ := Fld.row_of_plain h
  simp only [Fld.plain, Bool.and_eq_true, Nat.ble_eq, bne_iff_ne] at h
  obtain ⟨⟨⟨⟨hheld, hwindow⟩, hpcs⟩, hfits⟩, -⟩ := h
  rw [State.store_of_row hrow]
  refine (State.fget_wr_self hheld _ _).trans (Nat.eq_of_testBit_eq fun i => ?_)
  have hbit := congrArg (·.testBit i) hrw
  simp only [testBit_bitsOf, Nat.testBit_two_pow_sub_one] at hbit ⊢
  by_cases hi : i < f.width
  · simp only [hi, decide_true, Bool.true_and] at hbit ⊢
    rw [testBit_storedWord hadj (fixWord_of_window hwindow hpcs) _ _ _ (by omega), writableBit, hbit, hw1c,
      Nat.zero_testBit]
    simp
  · simp only [hi, decide_false, Bool.false_and]

/-- A word as a field of itself. -/
theorem State.fget_word (s : State) (a : Nat) : s.fget ⟨a, 0, 32⟩ = s.rd a :=
  Nat.mod_eq_of_lt (s.word a).isLt

/-! ### The bucket calculators (R134, R189) -/

/-- A bucket calculator: its lower key word, the two fields of its upper one, its bucket, and the hash of a key. -/
structure Hasher where
  key0 : Nat
  high : Fld
  sel : Fld
  bucket : Fld
  hash : Nat → Nat → Nat

/-- The two key words and the bucket's word are three words, and the upper key word begins with its first field. -/
abbrev Hasher.Placed (u : Hasher) : Prop :=
  Fld.plain ⟨u.key0, 0, 32⟩ = true ∧ Fld.plain u.high = true ∧ Fld.plain u.sel = true ∧ Fld.held u.bucket = true ∧
    u.high.lo = 0 ∧ u.sel.addr = u.high.addr ∧ u.key0 ≠ u.high.addr ∧ u.key0 ≠ u.bucket.addr ∧ u.high.addr ≠ u.bucket.addr

/-- The bucket is that of the key held. -/
def State.rehash (s : State) (u : Hasher) : State :=
  s.fput u.bucket (u.hash (2 ^ 32 * s.fget u.high + s.rd u.key0) (s.fget u.sel))

section Hashing

variable {u : Hasher} (hu : u.Placed) (s : State)

include hu in
/-- The bucket shown is that of the key still held. -/
theorem State.rehash_shows (hhash : ∀ x y, u.hash x y < 2 ^ u.bucket.width) :
    (s.rehash u).fget u.bucket
      = u.hash (2 ^ 32 * (s.rehash u).fget u.high + (s.rehash u).rd u.key0) ((s.rehash u).fget u.sel) := by
  obtain ⟨-, -, -, hheld, -, hsel, -, hkey0, hkey1⟩ := hu
  rw [State.rehash, State.fget_fput_self hheld, State.fget_fput_ne hkey1, State.rd_fput_ne hkey0,
    State.fget_fput_ne (hsel ▸ hkey1), Nat.mod_eq_of_lt (hhash _ _)]

/-- A key write changes the two key words and the bucket only. -/
theorem State.keyWrite_onlyWords {a : Nat} (ha : a = u.key0 ∨ a = u.high.addr) (w : Nat) :
    OnlyWords [u.key0, u.high.addr, u.bucket.addr] s ((s.store a w).rehash u) := by
  refine ((s.store_onlyWords a w).mono fun b hb => ?_).fput (by simp) _
  rw [List.mem_singleton.mp hb]
  rcases ha with rfl | rfl <;> simp

include hu in
/-- A write of the lower key word stores it and leaves the upper one. -/
theorem State.keyWrite_low (w : Nat) : ((s.store u.key0 w).rehash u).rd u.key0 = w % 2 ^ 32 ∧
    ((s.store u.key0 w).rehash u).rd u.high.addr = s.rd u.high.addr := by
  obtain ⟨hplain, -, -, -, -, -, hne, hkey0, hkey1⟩ := hu
  rw [State.rehash, State.rd_fput_ne hkey0, State.rd_fput_ne hkey1]
  refine ⟨?_, (s.store_onlyWords u.key0 w).rd (mt List.mem_singleton.mp hne.symm)⟩
  exact ((s.store u.key0 w).fget_word u.key0).symm.trans (State.fget_store_plain hplain s w)

include hu in
/-- A write of the upper key word stores its fields and leaves the lower one. -/
theorem State.keyWrite_high (w : Nat) : ((s.store u.high.addr w).rehash u).rd u.key0 = s.rd u.key0 ∧
    ((s.store u.high.addr w).rehash u).fget u.high = w % 2 ^ u.high.width ∧
    ((s.store u.high.addr w).rehash u).fget u.sel = w / 2 ^ u.sel.lo % 2 ^ u.sel.width := by
  obtain ⟨-, hhigh, hselPlain, -, hlo, hsel, hne, hkey0, hkey1⟩ := hu
  rw [State.rehash, State.rd_fput_ne hkey0, State.fget_fput_ne hkey1, State.fget_fput_ne (hsel ▸ hkey1)]
  refine ⟨(s.store_onlyWords u.high.addr w).rd (mt List.mem_singleton.mp hne), ?_, ?_⟩
  · rw [State.fget_store_plain hhigh, hlo]
    rfl
  · rw [← hsel, State.fget_store_plain hselPlain, bitsOf, Nat.shiftRight_eq_div_pow]

include hu in
/-- A write of key word `j`. -/
theorem State.keyWritten (hhash : ∀ x y, u.hash x y < 2 ^ u.bucket.width) {j : Nat} (hj : j < 2) (w : Nat) {t : State}
    (ht : t = (s.store (bif j == 0 then u.key0 else u.high.addr) w).rehash u) :
    t.fget u.bucket = u.hash (2 ^ 32 * t.fget u.high + t.rd u.key0) (t.fget u.sel) ∧
      (j = 0 → t.rd u.key0 = w % 2 ^ 32 ∧ t.rd u.high.addr = s.rd u.high.addr) ∧
      (j = 1 → t.rd u.key0 = s.rd u.key0 ∧ t.fget u.high = w % 2 ^ u.high.width ∧
        t.fget u.sel = w / 2 ^ u.sel.lo % 2 ^ u.sel.width) ∧
      OnlyWords [u.key0, u.high.addr, u.bucket.addr] s t := by
  subst ht
  refine ⟨State.rehash_shows hu _ hhash, ?_, ?_, State.keyWrite_onlyWords s ?_ w⟩
  · rintro rfl
    exact State.keyWrite_low hu s w
  · rintro rfl
    exact State.keyWrite_high hu s w
  · interval_cases j
    · exact .inl rfl
    · exact .inr rfl

end Hashing

/-- The bucket calculators of the stream table and of the Source Table of quadrant `q`. -/
def streamHasher (q : Nat) : Hasher :=
  ⟨Reg.clsHashKey0 q, F.clsHashKey1DaHi q, F.clsHashKey1Vid q, F.clsHashBucket q, streamBucket⟩
def sourceHasher (q : Nat) : Hasher :=
  ⟨Reg.dupHashKey0 q, F.dupHashKey1SaHi q, F.dupHashKey1Pair q, F.dupHashBucket q, sourceBucket⟩

theorem streamHasher_placed : ∀ q < 4, (streamHasher q).Placed := by decide +kernel

theorem sourceHasher_placed : ∀ q < 4, (sourceHasher q).Placed := by decide +kernel

theorem streamBucket_lt (da vid : Nat) : streamBucket da vid < 2 ^ 12 := Nat.mod_lt _ (by decide)

theorem sourceBucket_lt (sa kl : Nat) : sourceBucket sa kl < 2 ^ 13 := Nat.mod_lt _ (by decide)

variable {s : State} {q : Nat}

theorem exec_clsHashKeyWrite_of_reached (h : s.reaches (Reg.clsHash q) = true) (j w : Nat) :
    exec (.clsHashKeyWrite q j w) s
      = .next ((s.store (bif j == 0 then Reg.clsHashKey0 q else Reg.clsHashKey1 q) w).rehash (streamHasher q)) :=
  congrArg Host.Outcome.next (State.atReg_reached h _)

theorem exec_dupHashKeyWrite_of_reached (h : s.reaches (Reg.dupHash q) = true) (j w : Nat) :
    exec (.dupHashKeyWrite q j w) s
      = .next ((s.store (bif j == 0 then Reg.dupHashKey0 q else Reg.dupHashKey1 q) w).rehash (sourceHasher q)) :=
  congrArg Host.Outcome.next (State.atReg_reached h _)

/-! ### The meter readout (R141) -/

/-- The readout registers hold whole words, the index is plain, and they lie apart. -/
theorem mtrPeek_words : ∀ q < 4, Fld.plain (F.mtrPeekIdxIndex q) = true ∧ implOf (Reg.mtrPeekC q) = 2 ^ 32 - 1 ∧
    implOf (Reg.mtrPeekX q) = 2 ^ 32 - 1 ∧ implOf (Reg.mtrPeekRed q) = 2 ^ 32 - 1 := by decide +kernel

/-- A store leaves the meters. -/
theorem State.store_meterOf (s : State) (a v q g : Nat) : (s.store a v).meterOf q g = s.meterOf q g :=
  congrArg (·.meterOf q g) (s.store_onlyWords a v).1

/-- The readout of the meter that the written index names. -/
theorem State.writeMtrPeek_eq (hq : q < 4) (s : State) (w : Nat) :
    s.writeMtrPeek q w = (((s.store (Reg.mtrPeekIdx q) w).wr (Reg.mtrPeekC q) ((s.meterOf q (w % 2 ^ 14)).tc % 2 ^ 32)).wr
      (Reg.mtrPeekX q) ((s.meterOf q (w % 2 ^ 14)).tx % 2 ^ 32)).wr (Reg.mtrPeekRed q) (s.meterOf q (w % 2 ^ 14)).red := by
  have hindex : (s.store (Reg.mtrPeekIdx q) w).fget (F.mtrPeekIdxIndex q) = w % 2 ^ 14 :=
    State.fget_store_plain (mtrPeek_words q hq).1 s w
  rw [State.writeMtrPeek, hindex, State.store_meterOf]

/-- The readout registers after a readout. -/
theorem State.writeMtrPeek_reads (hq : q < 4) (s : State) (w : Nat) {m : Meter} (hm : m = s.meterOf q (w % 2 ^ 14)) :
    (s.writeMtrPeek q w).rd (Reg.mtrPeekC q) = m.tc % 2 ^ 32 ∧ (s.writeMtrPeek q w).rd (Reg.mtrPeekX q) = m.tx % 2 ^ 32 ∧
      (s.writeMtrPeek q w).rd (Reg.mtrPeekRed q) = m.red % 2 ^ 32 := by
  obtain ⟨-, hc, hx, hred⟩ := mtrPeek_words q hq
  have hcx : Reg.mtrPeekC q ≠ Reg.mtrPeekX q := by simp [Reg.mtrPeekC, Reg.mtrPeekX]
  have hcr : Reg.mtrPeekC q ≠ Reg.mtrPeekRed q := by simp [Reg.mtrPeekC, Reg.mtrPeekRed]
  have hxr : Reg.mtrPeekX q ≠ Reg.mtrPeekRed q := by simp [Reg.mtrPeekX, Reg.mtrPeekRed]
  rw [State.writeMtrPeek_eq hq, ← hm]
  refine ⟨?_, ?_, State.rd_wr_full hred _ _⟩
  · rw [State.rd_wr_ne hcr, State.rd_wr_ne hcx, State.rd_wr_full hc, Nat.mod_mod]
  · rw [State.rd_wr_ne hxr, State.rd_wr_full hx, Nat.mod_mod]

theorem State.writeMtrPeek_onlyWords (hq : q < 4) (s : State) (w : Nat) :
    OnlyWords [Reg.mtrPeekIdx q, Reg.mtrPeekC q, Reg.mtrPeekX q, Reg.mtrPeekRed q] s (s.writeMtrPeek q w) := by
  rw [State.writeMtrPeek_eq hq]
  exact ((((s.store_onlyWords _ w).mono (by simp)).wr (by simp) _).wr (by simp) _).wr (by simp) _

/-! ### How a meter judges (R141) -/

section Judging

variable {cbs xbs bt full tx tc te tp : Nat} {aware yellow : Bool}

/-- The single-rate meter: green, else yellow, else red, on the buckets that the elapsed time has filled. -/
theorem srTcm_eq (htc : tc = min full cbs) (hte : te = if cbs < full then min (tx + (full - cbs)) xbs else tx) :
    srTcm cbs xbs aware yellow bt full tx =
      if (aware && yellow) = false ∧ bt ≤ tc then (0, tc - bt, te)
      else if bt ≤ te then (1, tc, te - bt) else (2, tc, te) := by
  have hfilled : (bif Nat.blt cbs full then Nat.min (tx + (full - cbs)) xbs else tx) = te := by
    rw [hte, Bool.cond_eq_ite]
    exact if_congr (iff_of_eq Nat.blt_eq) rfl rfl
  have hfirst : Nat.min full cbs = tc := htc.symm
  rw [srTcm, hfilled, hfirst, ← Bool.not_and]
  simp only [Bool.cond_eq_ite, Bool.and_eq_true, Bool.not_eq_true', Nat.ble_eq]

/-- The two-rate meter: red, else yellow, else green. -/
theorem trTcm_eq : trTcm aware yellow bt tc tp =
    if tp < bt then (2, tc, tp)
    else if (aware && yellow) = true ∨ tc < bt then (1, tc, tp - bt) else (0, tc - bt, tp - bt) := by
  simp only [trTcm, Bool.cond_eq_ite, Bool.or_eq_true, Nat.blt_eq, or_comm]

/-- What a frame is not green for: it enters yellow, or it exceeds the first bucket. -/
theorem not_green_iff {late : Bool} : ¬(late = false ∧ bt ≤ tc) ↔ late = true ∨ tc < bt := by
  rw [not_and_or, Bool.not_eq_false, Nat.not_le]

variable {g b : Nat} {m : Meter}

/-- A single-rate meter judges with the tokens of the elapsed time added to the first bucket. -/
theorem State.meterRun_of_single (hmode : s.fget (mtrMode q g) = 1) (hm : m = s.meterOf q g)
    (hfull : full = m.tc + s.fget (mtrCir q g) * 1024 * (s.folNow q - m.last) / 1000000)
    {r : Nat × Nat × Nat} (hr : srTcm (1024 * s.fget (mtrCbs q g)) (1024 * s.fget (mtrXbs q g)) (s.flag (mtrAware q g)) yellow
      (1024 * b) full m.tx = r) :
    s.meterRun q g b yellow = (r.1, { m with tc := r.2.1, tx := r.2.2, last := s.folNow q }) := by
  subst hm hfull hr
  rw [State.meterRun, hmode]
  rfl

/-- Any other running meter judges with both buckets filled up to their sizes. -/
theorem State.meterRun_of_dual (hmode : s.fget (mtrMode q g) ≠ 1) (hm : m = s.meterOf q g)
    (htc : tc = min (m.tc + s.fget (mtrCir q g) * 1024 * (s.folNow q - m.last) / 1000000) (1024 * s.fget (mtrCbs q g)))
    (htp : tp = min (m.tx + s.fget (mtrPir q g) * 1024 * (s.folNow q - m.last) / 1000000) (1024 * s.fget (mtrXbs q g)))
    {r : Nat × Nat × Nat} (hr : trTcm (s.flag (mtrAware q g)) yellow (1024 * b) tc tp = r) :
    s.meterRun q g b yellow = (r.1, { m with tc := r.2.1, tx := r.2.2, last := s.folNow q }) := by
  subst hm htc htp hr
  rw [State.meterRun, beq_eq_false_iff_ne.mpr hmode]
  rfl

end Judging

/-- Settles O35: the two bucket calculators are one, the readout writes its three registers, and each kind of meter judges
by its own rule. -/
theorem hashRegistersShowTheBucket : Obligations.HashRegistersShowTheBucket := by
  intro s q w hq
  refine ⟨fun hreach j hj => ?_, fun hreach j hj => ?_, fun hreach m hm => ?_, ?_⟩
  · exact ⟨_, exec_clsHashKeyWrite_of_reached hreach j w,
      State.keyWritten (streamHasher_placed q hq) s streamBucket_lt hj w rfl⟩
  · exact ⟨_, exec_dupHashKeyWrite_of_reached hreach j w,
      State.keyWritten (sourceHasher_placed q hq) s sourceBucket_lt hj w rfl⟩
  · obtain ⟨hc, hx, hred⟩ := State.writeMtrPeek_reads hq s w hm
    exact ⟨_, congrArg Host.Outcome.next (State.atReg_reached hreach _), hc, hx, hred, State.writeMtrPeek_onlyWords hq s w⟩
  · rintro g b dt tc te tp cbs xbs bt yel late m hm rfl rfl rfl rfl rfl
    refine ⟨fun hmode full hfull htc hte => ?_, fun hmode htc htp => ?_⟩
    · have hjudged := State.meterRun_of_single (yellow := yel) (b := b) hmode hm hfull (srTcm_eq htc hte)
      refine ⟨fun hlate hfits => ?_, fun hlate hfits => ?_, fun hlate hover => ?_⟩
      · rw [hjudged, if_pos ⟨hlate, hfits⟩]
      · rw [hjudged, if_neg (not_green_iff.mpr hlate), if_pos hfits]
      · rw [hjudged, if_neg (not_green_iff.mpr hlate), if_neg (Nat.not_le.mpr hover)]
    · have hjudged := State.meterRun_of_dual (yellow := yel) (b := b) hmode hm htc htp trTcm_eq
      refine ⟨fun hover => ?_, fun hfits hlate => ?_, fun hfits hlate hfirst => ?_⟩
      · rw [hjudged, if_pos hover]
      · rw [hjudged, if_neg (Nat.not_lt.mpr hfits), if_pos hlate]
      · rw [hjudged, if_neg (Nat.not_lt.mpr hfits), if_neg fun h => not_green_iff.mpr h ⟨hlate, hfirst⟩]

end Sys2Proof.Machine
end

section
/-! SUPPORT. The Schedule Book's switch of lists (R149 to R154, R157): what a write of SCB_ACT and of Schedule RAM does,
the grid point of a validated bank, the switch, the hand-over of COMMIT entries, and the statements of
06_schedule_book_gates_shapers.md on them. -/

namespace Sys2Proof.Machine

/-! ### A write of SCB_ACT (R150, R151) -/

section Activation

variable {l : List Nat} {s t : State} {x : Scb} {f g : Fld} {w b : Nat}

/-- A change of the Schedule Book's record beside those of the listed words. -/
theorem OnlyWords.withScb (h : OnlyWords l { s with scb := x } t) (y : Scb) :
    OnlyWords l { s with scb := y } { t with scb := y } := by
  obtain ⟨hrest, hwords⟩ := h
  exact ⟨congrArg (fun v : State => { v with scb := y }) hrest, hwords⟩

/-- A flag read after a write of other bits of its word. -/
theorem State.flag_fset_other (hg : Fld.held g = true) (ha : g.addr = f.addr)
    (hb : g.lo + g.width ≤ f.lo ∨ f.lo + f.width ≤ g.lo) (s : State) (v : Bool) : (s.fset f v).flag g = s.flag g := by
  simp only [State.flag, State.fset, State.fget_fput_other hg ha hb]

/-- A field read after a write of other bits of its word. -/
theorem State.fget_fset_other (hg : Fld.held g = true) (ha : g.addr = f.addr)
    (hb : g.lo + g.width ≤ f.lo ∨ f.lo + f.width ≤ g.lo) (s : State) (v : Bool) : (s.fset f v).fget g = s.fget g :=
  State.fget_fput_other hg ha hb s _

/-- The fields of SCB_STS that a write of SCB_ACT reads. -/
theorem scbSts_held : Fld.held F.scbStsValidating = true ∧ Fld.held F.scbStsPend = true ∧
    Fld.held F.scbStsRunning = true ∧ Fld.held F.scbStsActBank = true := by decide +kernel

/-- What is pending is cancelled: PEND clears, and the edges of its list are dropped (R151). -/
def State.cancelled (s : State) : State := (s.fset F.scbStsPend false).onEdges fun l => l.filter fun e => !e.fresh

/-- The state in which GO of `w` is judged: ABORT has acted (R151). -/
def State.aborted (s : State) (w : Nat) : State := s.when (bitAt w 2 && s.flag F.scbStsPend) State.cancelled

/-- GO may not name bank `b`: a validation or an activation is in progress, or the bank is active (R150). -/
def State.refusesBank (s : State) (b : Nat) : Bool :=
  s.flag F.scbStsValidating || s.flag F.scbStsPend || (s.flag F.scbStsRunning && b == s.fget F.scbStsActBank)

/-- Bank `b` is being validated, with the base time that SCB_PEND_BASE holds. -/
def State.validating (s : State) (b : Nat) : State :=
  let t := s.fset F.scbStsValidating true
  { t with scb := { t.scb with bank := b, base := t.instantAt Reg.scbPendBase0 } }

theorem State.refusesBank_iff : s.refusesBank b = true ↔ s.flag F.scbStsValidating = true ∨ s.flag F.scbStsPend = true ∨
    (s.flag F.scbStsRunning = true ∧ b = s.fget F.scbStsActBank) := by
  simp only [State.refusesBank, Bool.or_eq_true, Bool.and_eq_true, beq_iff_eq, or_assoc]

/-- A write of SCB_ACT: ABORT, then GO. -/
theorem State.writeScbAct_eq (s : State) (w : Nat) : s.writeScbAct w = bif !bitAt w 0 then s.aborted w
    else bif (s.aborted w).refusesBank (bitsOf w 1 1) then (s.aborted w).rejectBank 13
    else (s.aborted w).validating (bitsOf w 1 1) := rfl

/-! #### ABORT (R151) -/

theorem State.aborted_of_idle (h : bitAt w 2 = false ∨ s.flag F.scbStsPend = false) : s.aborted w = s :=
  State.when_false (by rwa [Bool.and_eq_false_iff]) s _

theorem State.aborted_of_abort (h : bitAt w 2 = true) (s : State) :
    s.aborted w = if s.flag F.scbStsPend = true then s.cancelled else s := by
  rw [State.aborted, h, Bool.true_and, State.when, Bool.cond_eq_ite]

theorem State.flag_pend_cancelled (s : State) : s.cancelled.flag F.scbStsPend = false := by
  obtain ⟨-, hpend, -⟩ := scbSts_held
  exact State.flag_fset_self hpend rfl s false

theorem State.cancelled_onlyWords (s : State) : OnlyWords [Reg.scbSts] { s with scb := s.cancelled.scb } s.cancelled :=
  (OnlyWords.refl (s := s).fset (f := F.scbStsPend) (List.mem_singleton.mpr rfl) false).withScb (x := s.scb)
    s.cancelled.scb

/-- The abort clears PEND, and SCB_STS otherwise stays. -/
theorem State.aborted_status (h : bitAt w 2 = true) (s : State) : (s.aborted w).flag F.scbStsPend = false ∧
    (s.aborted w).flag F.scbStsValidating = s.flag F.scbStsValidating ∧
    (s.aborted w).flag F.scbStsRunning = s.flag F.scbStsRunning ∧
    (s.aborted w).fget F.scbStsActBank = s.fget F.scbStsActBank := by
  obtain ⟨hval, -, hrun, hbank⟩ := scbSts_held
  rw [State.aborted_of_abort h]
  split
  · exact ⟨s.flag_pend_cancelled, State.flag_fset_other (f := F.scbStsPend) hval rfl (by decide) s false,
      State.flag_fset_other (f := F.scbStsPend) hrun rfl (by decide) s false,
      State.fget_fset_other (f := F.scbStsPend) hbank rfl (by decide) s false⟩
  · next hpend => exact ⟨Bool.eq_false_iff.mpr hpend, rfl, rfl, rfl⟩

theorem State.aborted_onlyWords (s : State) (w : Nat) :
    OnlyWords [Reg.scbSts] { s with scb := (s.aborted w).scb } (s.aborted w) := by
  unfold State.aborted State.when
  cases bitAt w 2 && s.flag F.scbStsPend
  · exact OnlyWords.refl
  · exact s.cancelled_onlyWords

/-! #### The bits of the written word -/

theorem bitAt_or (w v i : Nat) : bitAt (w ||| v) i = (bitAt w i || bitAt v i) := Nat.testBit_or w v i

theorem bitAt_or_abort (w : Nat) : bitAt (w ||| 4) 2 = true := by
  rw [bitAt_or, show bitAt 4 2 = true from rfl, Bool.or_true]

/-- A number whose lowest bit is set has it already. -/
theorem or_one_of_bitAt (h : bitAt w 0 = true) : w ||| 1 = w := by
  refine Nat.eq_of_testBit_eq fun i => ?_
  rw [Nat.testBit_or]
  cases i with
  | zero => rw [show w.testBit 0 = true from h, Bool.true_or]
  | succ i => rw [Nat.testBit_succ 1, Nat.zero_testBit, Bool.or_false]

/-! #### GO (R150) -/

/-- The base time that is taken does not read SCB_STS. -/
theorem State.instantAt_pendBase (h : OnlyWords [Reg.scbSts] { s with scb := x } t) :
    t.instantAt Reg.scbPendBase0 = s.instantAt Reg.scbPendBase0 := by
  simp only [State.instantAt, h.rd (a := Reg.scbPendBase0) (by decide), h.rd (a := Reg.scbPendBase0 + 4) (by decide),
    h.rd (a := Reg.scbPendBase0 + 8) (by decide)]
  rfl

theorem State.validating_status (s : State) (b : Nat) : (s.validating b).flag F.scbStsValidating = true ∧
    (s.validating b).flag F.scbStsPend = s.flag F.scbStsPend := by
  obtain ⟨hval, hpend, -⟩ := scbSts_held
  exact ⟨State.flag_fset_self hval rfl s true,
    State.flag_fset_other (f := F.scbStsValidating) hpend rfl (by decide) s true⟩

/-- A validation that starts takes the bank and its base time, and of the registers changes SCB_STS only. -/
theorem State.validating_frame (h : OnlyWords [Reg.scbSts] { s with scb := t.scb } t) (b : Nat) :
    (t.validating b).scb = { t.scb with bank := b, base := s.instantAt Reg.scbPendBase0 } ∧
      OnlyWords [Reg.scbSts] { s with scb := (t.validating b).scb } (t.validating b) := by
  have hset := h.fset (f := F.scbStsValidating) (List.mem_singleton.mpr rfl) true
  refine ⟨?_, hset.withScb _⟩
  rw [← State.instantAt_pendBase hset]
  rfl

theorem exec_scheduleGo_of_reached (h : s.reaches Reg.scbAct = true) (w : Nat) :
    exec (.scheduleGo w) s = .next (bif (s.aborted w).refusesBank (bitsOf w 1 1) then (s.aborted w).rejectBank 13
      else (s.aborted w).validating (bitsOf w 1 1)) := by
  have habort : bitAt (w ||| 1) 2 = bitAt w 2 := by rw [bitAt_or, show bitAt 1 2 = false from rfl, Bool.or_false]
  have hbank : bitsOf (w ||| 1) 1 1 = bitsOf w 1 1 := by simp [bitsOf, Nat.shiftRight_or_distrib]
  have hsame : s.aborted (w ||| 1) = s.aborted w := by simp only [State.aborted, habort]
  refine congrArg Host.Outcome.next ((State.atReg_reached h _).trans ?_)
  rw [State.writeScbAct_eq, bitAt_or_one, hsame, hbank]
  rfl

/-- A write of SCB_ACT with ABORT and without GO cancels only. -/
theorem exec_scheduleAbort_of_alone (h : s.reaches Reg.scbAct = true) (hgo : bitAt w 0 = false) :
    exec (.scheduleAbort w) s = .next (s.aborted (w ||| 4)) := by
  have hnone : bitAt (w ||| 4) 0 = false := by rw [bitAt_or, hgo, show bitAt 4 0 = false from rfl, Bool.or_false]
  refine congrArg Host.Outcome.next ((State.atReg_reached h _).trans ?_)
  rw [State.writeScbAct_eq, hnone]
  rfl

/-- The two rows of a write with both bits are one write. -/
theorem exec_scheduleAbort_of_both (hgo : bitAt w 0 = true) (s : State) :
    exec (.scheduleAbort w) s = exec (.scheduleGo (w ||| 4)) s := by
  have hword : w ||| 4 ||| 1 = w ||| 4 := or_one_of_bitAt (by rw [bitAt_or, hgo, Bool.true_or])
  rw [exec, exec, execScheduleAbort, execScheduleGo, hword]

end Activation

/-! ### A write into Schedule RAM (R149, R428) -/

section ScheduleRam

variable {s : State} {a : Nat}

theorem State.schedOpen_eq_false_iff {b : Nat} (hb : b = (a - 0x400000) / 0x200000) : s.schedOpen a = false ↔
    (s.flag F.scbStsRunning = true ∧ b = s.fget F.scbStsActBank) ∨
      ((s.flag F.scbStsValidating = true ∨ s.flag F.scbStsPend = true) ∧ b = s.scb.bank) := by
  subst hb
  simp only [State.schedOpen, Bool.not_eq_false', Bool.or_eq_true, Bool.and_eq_true, beq_iff_eq]

/-- Every bit of a word of Schedule RAM holds state. -/
theorem implOf_scheduleRam (hlo : 0x400000 ≤ a) (hhi : a < 0x800000) : implOf a = 2 ^ 32 - 1 := by
  have hspine : a < 0x1000000 := hhi.trans (by decide)
  have htable : tableWord a = true := by
    simp only [tableWord, Nat.blt_eq.mpr hspine, cond_true, Bool.or_eq_true, Bool.and_eq_true, Nat.ble_eq, Nat.blt_eq]
    omega
  rw [implOf, htable, cond_true]
  rfl

/-- A memory write leaves which banks are in use. -/
theorem State.memWritten_schedOpen (s : State) (src cause key : Nat) :
    (s.memWritten src cause key).schedOpen a = s.schedOpen a := by
  have hscb : (s.memWritten src cause key).scb = s.scb := s.memWritten_keeps (·.scb) (fun _ _ _ => rfl) src cause key
  have hsts : (s.memWritten src cause key).rd Reg.scbSts = s.rd Reg.scbSts :=
    State.rd_memWritten_ne (by decide) s src cause key
  simp only [State.schedOpen, hscb, State.flag, State.fget, F.scbStsRunning, F.scbStsActBank, F.scbStsValidating,
    F.scbStsPend, hsts]

theorem exec_scheduleRamWrite_of_closed (h : s.reaches a = true) (hopen : s.schedOpen a = false) (w : Nat) :
    exec (.scheduleRamWrite a w) s = .next (s.scbCount 3) := by
  refine congrArg Host.Outcome.next ((State.atReg_reached h _).trans ?_)
  rw [State.when_false hopen, State.writeSched, hopen, cond_false]

theorem exec_scheduleRamWrite_of_open (h : s.reaches a = true) (hopen : s.schedOpen a = true) (w : Nat) :
    exec (.scheduleRamWrite a w) s = .next ((s.memWritten 34 0 a).wr a w) := by
  refine congrArg Host.Outcome.next ((State.atReg_reached h _).trans ?_)
  rw [State.when_true hopen, State.writeSched, State.memWritten_schedOpen, hopen, cond_true]

end ScheduleRam

/-- Settles O37: GO is judged in the state that ABORT leaves, and a write into Schedule RAM by the bank's use. -/
theorem goAndScheduleRamWritesAreJudged : Obligations.GoAndScheduleRamWritesAreJudged := by
  refine ⟨fun s w hreach => ⟨fun hnone => ?_, fun hgo => exec_scheduleAbort_of_both hgo s, fun hgo hpend => ?_,
    fun hgo hpend => ?_⟩, ?_, fun s a w b hlo hhi _ hreach hb => ⟨fun hused => ?_, fun hactive hwaits => ?_⟩⟩
  · have hexec := exec_scheduleGo_of_reached hreach w
    rw [State.aborted_of_idle (.inl hnone)] at hexec
    refine ⟨fun hval hpend hrun => ?_, fun hbusy => ?_⟩
    · have hfree : s.refusesBank (bitsOf w 1 1) = false := by
        rw [Bool.eq_false_iff, ne_eq, State.refusesBank_iff, hval, hpend]
        simpa using hrun
      rw [hfree, cond_false] at hexec
      obtain ⟨hstatus, -⟩ := s.validating_status (bitsOf w 1 1)
      obtain ⟨hscb, hwords⟩ := State.validating_frame (OnlyWords.refl (s := s)) (bitsOf w 1 1)
      exact ⟨_, hexec, hstatus, congrArg (·.bank) hscb, congrArg (·.base) hscb, hwords⟩
    · rw [hexec, State.refusesBank_iff.mpr hbusy, cond_true]
  · rw [exec_scheduleAbort_of_alone hreach hgo]
    have habort : s.aborted (w ||| 4) = s.cancelled := by
      rw [State.aborted_of_abort (bitAt_or_abort w), if_pos hpend]
    rw [habort]
    exact ⟨_, rfl, s.flag_pend_cancelled, rfl, s.cancelled_onlyWords⟩
  · rw [NoEffect, exec_scheduleAbort_of_alone hreach hgo, State.aborted_of_idle (.inr hpend)]
  · rintro s u w hreach habort hu
    obtain rfl : u = s.aborted w := hu.trans (State.aborted_of_abort habort s).symm
    obtain ⟨hpend, hval, hrun, hbank⟩ := s.aborted_status habort
    have hexec := exec_scheduleGo_of_reached hreach w
    have hjudge : (s.aborted w).refusesBank (bitsOf w 1 1) = true ↔ s.flag F.scbStsValidating = true ∨
        (s.flag F.scbStsRunning = true ∧ bitsOf w 1 1 = s.fget F.scbStsActBank) := by
      rw [State.refusesBank_iff, hpend, hval, hrun, hbank]
      simp
    refine ⟨fun hidle hother => ?_, fun hbusy => by rw [hexec, hjudge.mpr hbusy, cond_true]⟩
    have hfree : (s.aborted w).refusesBank (bitsOf w 1 1) = false := by
      rw [Bool.eq_false_iff, ne_eq, hjudge, hidle]
      simpa using hother
    rw [hfree, cond_false] at hexec
    obtain ⟨hstatus, hwaits⟩ := (s.aborted w).validating_status (bitsOf w 1 1)
    obtain ⟨hscb, hwords⟩ := State.validating_frame (s.aborted_onlyWords w) (bitsOf w 1 1)
    exact ⟨_, hexec, hstatus, hwaits.trans hpend, hscb, hwords⟩
  · exact exec_scheduleRamWrite_of_closed hreach ((State.schedOpen_eq_false_iff hb).mpr hused) w
  · have hopen : s.schedOpen a = true := by
      rw [← Bool.not_eq_false, State.schedOpen_eq_false_iff hb, not_or]
      exact ⟨hactive, hwaits⟩
    exact ⟨_, exec_scheduleRamWrite_of_open hreach hopen w, State.rd_wr_full (implOf_scheduleRam hlo hhi) _ w,
      OnlyWords.refl.wr (List.mem_singleton.mpr rfl) w⟩

/-! ### The end of a validation (R150, R151) -/

section Validation

variable {base cycle least : Nat}

/-- The first grid point at or after `least` lies on the grid, and less than a cycle ahead unless it is the base. -/
theorem firstGrid_spec (hcycle : 0 < cycle) : base ≤ firstGrid base cycle least ∧ least ≤ firstGrid base cycle least ∧
    (firstGrid base cycle least - base) % cycle = 0 ∧
    (firstGrid base cycle least ≠ base → firstGrid base cycle least < least + cycle) := by
  rw [firstGrid, Bool.cond_eq_ite]
  simp only [Nat.ble_eq]
  split
  · next hle => exact ⟨le_rfl, hle, by rw [Nat.sub_self, Nat.zero_mod], fun hne => absurd rfl hne⟩
  · next hlt =>
    have hsplit := Nat.div_add_mod (least - base + cycle - 1) cycle
    have hrest := Nat.mod_lt (least - base + cycle - 1) hcycle
    rw [Nat.mul_comm] at hsplit
    refine ⟨Nat.le_add_right _ _, by omega, by rw [Nat.add_sub_cancel_left, Nat.mul_mod_left], fun _ => by omega⟩

variable {s : State} {sw : Nat}

/-- The validated bank waits for `sw` (R151). -/
def State.waitsFor (s : State) (sw : Nat) : State :=
  { (s.fset F.scbStsValidating false).fset F.scbStsPend true with scb := { s.scb with next := sw } }

theorem State.validated_of_idle (h : s.flag F.scbStsValidating = false) : s.validated = s := by
  simp only [State.validated, h, Bool.not_false, cond_true]

/-- A bank in validation fails with its code, or waits for its grid point, and one that is late counts and reports it. -/
theorem State.validated_of_running (h : s.flag F.scbStsValidating = true)
    (hsw : sw = firstGrid s.scb.base (s.bankCycle s.scb.bank) (s.folUp + 2000)) : s.validated =
    bif s.validate s.scb.bank != 0 then (s.fset F.scbStsValidating false).rejectBank (s.validate s.scb.bank)
    else (s.waitsFor sw).when (sw != s.scb.base) fun u => (u.scbCount 0).scbEvent 2 := by
  rw [State.validated, h, Bool.not_true, cond_false, hsw]
  rfl

theorem State.validated_of_passed (h : s.flag F.scbStsValidating = true) (hcode : s.validate s.scb.bank = 0)
    (hsw : sw = firstGrid s.scb.base (s.bankCycle s.scb.bank) (s.folUp + 2000)) :
    s.validated = (s.waitsFor sw).when (sw != s.scb.base) fun u => (u.scbCount 0).scbEvent 2 := by
  rw [State.validated_of_running h hsw, hcode, bne_self_eq_false, cond_false]

theorem State.waitsFor_status (s : State) (sw : Nat) : (s.waitsFor sw).flag F.scbStsValidating = false ∧
    (s.waitsFor sw).flag F.scbStsPend = true := by
  obtain ⟨hval, hpend, -⟩ := scbSts_held
  refine ⟨Eq.trans (b := (s.fset F.scbStsValidating false).flag F.scbStsValidating) ?_
    (State.flag_fset_self hval rfl s false), State.flag_fset_self hpend rfl (s.fset F.scbStsValidating false) true⟩
  exact State.flag_fset_other (f := F.scbStsPend) hval rfl (by decide) (s.fset F.scbStsValidating false) true

theorem State.waitsFor_onlyWords (s : State) (sw : Nat) :
    OnlyWords [Reg.scbSts] { s with scb := (s.waitsFor sw).scb } (s.waitsFor sw) :=
  (((OnlyWords.refl (s := s)).fset (f := F.scbStsValidating) (List.mem_singleton.mpr rfl) false).fset (f := F.scbStsPend)
    (List.mem_singleton.mpr rfl) true).withScb (x := s.scb) _

theorem exec_validationDone_of_works (h : s.scbWorks = true) : exec .validationDone s = .next s.validated :=
  congrArg Host.Outcome.next (State.when_true h s _)

end Validation

/-- Settles O38: a bank passes or fails, and the grid point lies less than a cycle behind the earliest instant. -/
theorem validationDecidesTheSwitch : Obligations.ValidationDecidesTheSwitch := by
  rintro s c sw hworks rfl hsw
  have hexec := exec_validationDone_of_works hworks
  refine ⟨fun hval => ⟨fun hpass hbase => ?_, fun hpass hlate => ?_, fun hfail => ?_⟩, fun hidle => ?_,
    fun hcycle => hsw ▸ firstGrid_spec hcycle⟩
  · rw [State.validated_of_passed hval hpass hsw, State.when_false (by rw [hbase, bne_self_eq_false])] at hexec
    obtain ⟨hdone, hpend⟩ := s.waitsFor_status sw
    exact ⟨_, hexec, hdone, hpend, rfl, s.waitsFor_onlyWords sw⟩
  · rw [hexec, State.validated_of_passed hval hpass hsw, State.when_true (bne_iff_ne.mpr hlate)]
    rfl
  · rw [hexec, State.validated_of_running hval hsw, bne_iff_ne.mpr hfail, cond_true]
  · rw [NoEffect, hexec, State.validated_of_idle hidle]

/-! ### The switch, the cycle start and the hand-over (R151 to R154) -/

section Switch

variable {s : State}

/-- The state that the new list begins with: its bank, the start of its first cycle, its groups and the edges kept. -/
def State.switched (s : State) : State :=
  let t := (((((s.fset F.scbStsPend false).fput F.scbStsActBank s.scb.bank).fset F.scbStsRunning true).putInstant Reg.scbSw0
    s.scb.next 0).wr Reg.scbActCycle (s.bankCycle s.scb.bank)).wr Reg.scbCycleCnt 0
  { t with scb := { t.scb with
    start := s.scb.next, walk := s.scb.next
    group := allPorts.foldl (fun m p => Table.put 0 (s.fget (F.gatePort0Group p)) p m) []
    edges := (s.scb.edges.filter (fun e => Nat.blt e.inst s.scb.next || e.fresh)).map
      (fun e => { e with fresh := false }) } }

/-- A port whose gates the list sets takes the state at offset 0 (R152). -/
def State.presentStart (s : State) (p : Nat) : State :=
  bif s.gateReach p && s.listActs p then
    s.present p (stateAt (s.activeActions p) 0).gates (stateAt (s.activeActions p) 0).hold else s

/-- A port whose gates the list sets takes the actions at offset 0 on top of its hold (R148). -/
def State.presentInit (s : State) (p : Nat) : State :=
  bif s.gateReach p && s.listActs p then
    let x := ((s.activeActions p).filter (fun a => a.at' == 0)).foldl applyAction { hold := s.flag (F.gatePort5Hold p) }
    s.present p x.gates x.hold
  else s

theorem State.bankSwitch_of_idle (h : s.flag F.scbStsPend = false) : s.bankSwitch = s := by
  simp only [State.bankSwitch, h, Bool.not_false, cond_true]

theorem State.bankSwitch_of_pend (h : s.flag F.scbStsPend = true) :
    s.bankSwitch = ((eachOf allPorts (fun p u => u.presentStart p) s.switched).scbEvent 0).pulse 22 := by
  rw [State.bankSwitch, h, Bool.not_true, cond_false]
  rfl

theorem State.cycleStart_of_idle (h : s.flag F.scbStsRunning = false) : s.cycleStart = s := by
  simp only [State.cycleStart, h, Bool.not_false, cond_true]

theorem State.cycleStart_of_runs (h : s.flag F.scbStsRunning = true) :
    s.cycleStart = eachOf allPorts (fun p u => u.presentInit p) (s.cnt Reg.scbCycleCnt) := by
  rw [State.cycleStart, h, Bool.not_true, cond_false]
  rfl

/-- The next entry is not yet due, or a switch has withdrawn it. -/
theorem State.handNext_of_early {n : Nat} {e : SchedEntry} (h : s.nextCommit s.scb.walk = some (n, e))
    (hearly : s.folNow 4 + 1000 * s.fget F.scbCtlRunahead < n ∨ s.cutAt n = true) (bad : Bool) : s.handNext bad = s := by
  have hcut : (Nat.blt (s.folNow 4 + 1000 * s.fget F.scbCtlRunahead) n || s.cutAt n) = true := by
    rwa [Bool.or_eq_true, Nat.blt_eq]
  simp only [State.handNext, h, hcut, cond_true]

theorem State.handNext_of_none (h : s.nextCommit s.scb.walk = none) (bad : Bool) : s.handNext bad = s := by
  simp only [State.handNext, h]

/-- The state after the words of the due entry `e` of bank `b` at instant `n` have been read. -/
def State.commitTaken (s : State) (b n : Nat) (e : SchedEntry) : State :=
  { s with scb := { s.scb with walk := n + 1 } }.commitRead b e

/-- What does not read the words to be reported is the same after an entry has been read. -/
theorem State.commitRead_keeps {α : Type} (f : State → α) (hf : ∀ (t : State) x, f { t with touched := x } = f t)
    (s : State) (b : Nat) (e : SchedEntry) : f (s.commitRead b e) = f s :=
  eachOf_invariant (P := fun t => f t = f s) rfl fun _ _ t ht => (hf t _).trans ht

/-- Reading an entry leaves whether it is readable. -/
theorem State.commitReadable_commitTaken (s : State) (b n : Nat) (e : SchedEntry) :
    (s.commitTaken b n e).commitReadable b e = s.commitReadable b e :=
  State.commitRead_keeps (·.commitReadable b e) (fun _ _ => rfl) { s with scb := { s.scb with walk := n + 1 } } b e

/-- A due entry is read; then it is handed over, or counted and reported as unreadable. -/
theorem State.handNext_of_due {n : Nat} {e : SchedEntry} (h : s.nextCommit s.scb.walk = some (n, e))
    (hdue : n ≤ s.folNow 4 + 1000 * s.fget F.scbCtlRunahead) (hcut : s.cutAt n = false) (bad : Bool) {u : State}
    (hu : u = s.commitTaken (s.fget F.scbStsActBank) n e) :
    s.handNext bad = bif bad || !u.commitReadable (s.fget F.scbStsActBank) e then (u.scbCount 4).scbEvent 4
      else u.handOver n e.tgt e.arg := by
  have hnow : (Nat.blt (s.folNow 4 + 1000 * s.fget F.scbCtlRunahead) n || s.cutAt n) = false := by
    rw [Bool.or_eq_false_iff, Bool.eq_false_iff (b := Nat.blt _ n), ne_eq, Nat.blt_eq, Nat.not_lt]
    exact ⟨hdue, hcut⟩
  subst hu
  simp only [State.handNext, h, hnow, cond_false, State.commitReadable_commitTaken]
  rfl

theorem exec_bankSwitch_of_works (h : s.scbWorks = true) : exec .bankSwitch s = .next s.bankSwitch :=
  congrArg Host.Outcome.next (State.when_true h s _)

theorem exec_scbCycleStart_of_works (h : s.scbWorks = true) : exec .scbCycleStart s = .next s.cycleStart :=
  congrArg Host.Outcome.next (State.when_true h s _)

theorem exec_commitHandoff_of_runs (h : s.scbWorks = true) (hruns : s.listRuns = true) (bad : Bool) :
    exec (.commitHandoff bad) s = .next (s.handNext bad).reportReads :=
  congrArg Host.Outcome.next (State.when_true (by rw [h, hruns, Bool.and_self]) s _)

theorem exec_commitHandoff_of_idle (h : s.scbWorks = false ∨ s.listRuns = false) (bad : Bool) :
    exec (.commitHandoff bad) s = .next s :=
  congrArg Host.Outcome.next (State.when_false (by rwa [Bool.and_eq_false_iff]) s _)

/-- A Schedule Book that does not work takes no list. -/
theorem exec_scheduleBook_of_held (h : s.scbWorks = false) : exec .bankSwitch s = .next s ∧
    exec .scbCycleStart s = .next s ∧ exec .validationDone s = .next s :=
  ⟨congrArg Host.Outcome.next (State.when_false h s _), congrArg Host.Outcome.next (State.when_false h s _),
    congrArg Host.Outcome.next (State.when_false h s _)⟩

end Switch

/-! ### A write of SCB_CTL (R157) -/

section Enable

variable {s : State} {w : Nat}

/-- The Schedule Book takes the list up from now on. -/
def State.resumesWalk (s : State) : State := { s with scb := { s.scb with walk := Nat.max s.scb.walk (s.folNow 4) } }

theorem State.writeScbCtl_eq (s : State) (w : Nat) : s.writeScbCtl w =
    bif (s.store Reg.scbCtl w).flag F.scbCtlEn == s.flag F.scbCtlEn then s.store Reg.scbCtl w
    else ((s.store Reg.scbCtl w).when ((s.store Reg.scbCtl w).flag F.scbCtlEn) State.resumesWalk).resyncAll := rfl

theorem State.writeScbCtl_of_same (h : (s.store Reg.scbCtl w).flag F.scbCtlEn = s.flag F.scbCtlEn) :
    s.writeScbCtl w = s.store Reg.scbCtl w := by rw [State.writeScbCtl_eq, h, beq_self_eq_true, cond_true]

theorem State.writeScbCtl_of_disabled (hwas : s.flag F.scbCtlEn = true)
    (hnow : (s.store Reg.scbCtl w).flag F.scbCtlEn = false) :
    s.writeScbCtl w = (s.store Reg.scbCtl w).resyncAll := by
  rw [State.writeScbCtl_eq, hnow, hwas, show (false == true) = false from rfl, cond_false, State.when_false rfl]

theorem State.writeScbCtl_of_enabled (hwas : s.flag F.scbCtlEn = false)
    (hnow : (s.store Reg.scbCtl w).flag F.scbCtlEn = true) :
    s.writeScbCtl w = (s.store Reg.scbCtl w).resumesWalk.resyncAll := by
  rw [State.writeScbCtl_eq, hnow, hwas, show (true == false) = false from rfl, cond_false, State.when_true rfl]

theorem exec_scheduleEnable_of_reached (h : s.reaches Reg.scbCtl = true) (w : Nat) :
    exec (.scheduleEnable w) s = .next (s.writeScbCtl w) := congrArg Host.Outcome.next (State.atReg_reached h _)

end Enable

/-- Settles O39: each command of a working Schedule Book by what it finds, and the write of SCB_CTL by what EN does. -/
theorem theListSwitchesAndHandsOver : Obligations.TheListSwitchesAndHandsOver := by
  refine ⟨fun s hworks => ?_, fun s hheld => ?_,
    fun s w hclosed => congrArg Host.Outcome.next (State.atReg_unreached hclosed _), ?_⟩
  · have hswitch := exec_bankSwitch_of_works hworks
    have hcycle := exec_scbCycleStart_of_works hworks
    refine ⟨fun hidle => ?_, ?_, fun hidle => ?_, fun hruns => ?_, fun hstopped bad => ?_, fun hruns bad => ?_⟩
    · rw [NoEffect, hswitch, State.bankSwitch_of_idle hidle]
    · rintro hpend g t rfl rfl
      rw [hswitch, State.bankSwitch_of_pend hpend]
      rfl
    · rw [NoEffect, hcycle, State.cycleStart_of_idle hidle]
    · rw [hcycle, State.cycleStart_of_runs hruns]
      rfl
    · exact exec_commitHandoff_of_idle (.inr hstopped) bad
    · have hexec := exec_commitHandoff_of_runs hworks hruns bad
      refine ⟨fun hnone => by rw [hexec, State.handNext_of_none hnone], ?_⟩
      rintro n e b hnext rfl
      refine ⟨fun hearly => by rw [hexec, State.handNext_of_early hnext hearly], ?_⟩
      intro hdue hcut u hu
      rw [hexec, State.handNext_of_due hnext hdue hcut bad hu]
      refine ⟨fun hgood hreads => by rw [hgood, hreads]; rfl, fun hunread => ?_⟩
      have hskip : (bad || !u.commitReadable (s.fget F.scbStsActBank) e) = true := by
        rwa [Bool.or_eq_true, Bool.not_eq_true']
      rw [hskip, cond_true]
  · obtain ⟨hswitch, hcycle, hvalid⟩ := exec_scheduleBook_of_held hheld
    exact ⟨hswitch, hcycle, hvalid, exec_commitHandoff_of_idle (.inl hheld)⟩
  · rintro s t w hreach rfl
    have hexec := exec_scheduleEnable_of_reached hreach w
    exact ⟨fun hsame => by rw [hexec, State.writeScbCtl_of_same hsame],
      fun hwas hnow => by rw [hexec, State.writeScbCtl_of_disabled hwas hnow],
      fun hwas hnow => by rw [hexec, State.writeScbCtl_of_enabled hwas hnow]; rfl⟩

end Sys2Proof.Machine
end

section
/-! SUPPORT. The shapers (R172 to R176): an entry write, the readout, how a credit moves and what a shaper does once it
is settled, and the statement of 06_schedule_book_gates_shapers.md on them. -/

namespace Sys2Proof.Machine

/-! ### An entry write and the readout (R173, R176, R428) -/

section Access

variable {s : State} {q o k : Nat}

theorem exec_shaperEntryWrite_of_hole (h : shaperAt q o = none) (w : Nat) :
    exec (.shaperEntryWrite q o w) s = .next s := by
  simp only [exec, execShaperEntryWrite, h]

theorem exec_shaperEntryWrite_of_shaper (h : shaperAt q o = some k) (w : Nat) : exec (.shaperEntryWrite q o w) s =
    .next (s.atReg (shpEntry k) fun t =>
      (t.memWritten (8 * q + 2) 2 (shpEntry k + o % 16)).writeShaper k (o % 16 / 4) w) := by
  simp only [exec, execShaperEntryWrite, h]

/-- The readout registers take what they show. -/
theorem shpPeek_held : ∀ q < 4, implOf (Reg.shpPeekCredit q) = 2 ^ 32 - 1 ∧ Fld.held (F.shpPeekStsEligible q) = true ∧
    Fld.held (F.shpPeekStsWaiting q) = true ∧ Fld.held (F.shpPeekStsFrozen q) = true := by decide +kernel

theorem encodeSigned_lt (i : Int) (n : Nat) : encodeSigned i n < 2 ^ n := by
  have hpos : (0 : Int) < (2 ^ n : Nat) := Int.natCast_pos.mpr (Nat.two_pow_pos n)
  have hlt := Int.emod_lt_of_pos i hpos
  rw [encodeSigned]
  omega

/-- The three flags that SHP_PEEK_STS packs are its lowest bits. -/
theorem bitsOf_packed (x y z : Bool) : (bitsOf (bit x + 2 * bit y + 4 * bit z) 0 1 == 1) = x ∧
    (bitsOf (bit x + 2 * bit y + 4 * bit z) 1 1 == 1) = y ∧ (bitsOf (bit x + 2 * bit y + 4 * bit z) 2 1 == 1) = z := by
  revert x y z
  decide

/-- The readout registers after a capture of shaper `k` (Table 6.13). -/
theorem State.showShaper_reads (hq : q < 4) (u : State) (k : Nat) :
    (u.showShaper q (some k)).rd (Reg.shpPeekCredit q) = encodeSigned (u.creditNow k / 1024) 32 ∧
    (u.showShaper q (some k)).flag (F.shpPeekStsEligible q) = u.shpEligible k ∧
    (u.showShaper q (some k)).flag (F.shpPeekStsWaiting q) = ((u.shp k).mode == 1) ∧
    (u.showShaper q (some k)).flag (F.shpPeekStsFrozen q) = ((u.shp k).mode == 3) := by
  obtain ⟨hcredit, heligible, hwaiting, hfrozen⟩ := shpPeek_held q hq
  obtain ⟨hx, hy, hz⟩ := bitsOf_packed (u.shpEligible k) ((u.shp k).mode == 1) ((u.shp k).mode == 3)
  have hne : Reg.shpPeekCredit q ≠ Reg.shpPeekSts q := by simp [Reg.shpPeekCredit, Reg.shpPeekSts]
  refine ⟨?_, (State.flag_wr_self heligible _ _).trans hx, (State.flag_wr_self hwaiting _ _).trans hy,
    (State.flag_wr_self hfrozen _ _).trans hz⟩
  rw [State.showShaper, State.rd_wr_ne hne, State.rd_wr_full hcredit, Nat.mod_eq_of_lt (encodeSigned_lt _ 32)]

theorem State.showShaper_onlyWords (s : State) (q w k : Nat) :
    OnlyWords [Reg.shpPeekSel q, Reg.shpPeekCredit q, Reg.shpPeekSts q] s
      ((s.store (Reg.shpPeekSel q) w).showShaper q (some k)) :=
  (((s.store_onlyWords _ w).mono (by simp)).wr (by simp) _).wr (by simp) _

theorem exec_shaperPeek_of_reached (h : s.reaches (Reg.shpPeekSel q) = true) {w : Nat} {u : State}
    (hu : u = s.store (Reg.shpPeekSel q) w)
    (hk : peekKey q (u.fget (F.shpPeekSelLevel q)) (u.fget (F.shpPeekSelIndex q)) = some k) :
    exec (.shaperPeek q w) s = .next (u.showShaper q (some k)) := by
  rw [← hk, hu]
  exact congrArg Host.Outcome.next (State.atReg_reached h _)

end Access

/-! ### How a credit moves (R173) -/

section Credit

variable {s : State} {k : Nat} {up down c : Int}

/-- A credit that rises or stays while its frame is sent. -/
theorem State.fallTo_of_rise {d : Int} (h : 0 ≤ d) (s : State) (k : Nat) (c : Int) : s.fallTo k c d = c + d := by
  simp only [State.fallTo, h, decide_true, cond_true]

/-- A credit below LO_CREDIT stays. -/
theorem State.fallTo_of_low {d : Int} (h : d < 0) (hlow : c ≤ s.shpLo k) : s.fallTo k c d = c := by
  simp only [State.fallTo, Int.not_le.mpr h, hlow, decide_true, decide_false, cond_true, cond_false]

theorem State.fallTo_of_high {d : Int} (h : d < 0) (hhigh : s.shpLo k < c) :
    s.fallTo k c d = max (s.shpLo k) (c + d) := by
  simp only [State.fallTo, Int.not_le.mpr h, Int.not_le.mpr hhigh, decide_false, cond_false]

theorem State.creditNow_of_frozen (h : (s.shp k).mode = 3) : s.creditNow k = (s.shp k).credit := by
  simp only [State.creditNow, h]

theorem State.shpEligible_iff : s.shpEligible k = true ↔
    s.shpOn k = false ∨ s.shpRate k ≤ s.shpIdle k ∨ 0 ≤ s.creditNow k := by
  simp only [State.shpEligible, Bool.or_eq_true, Bool.not_eq_true', Nat.ble_eq, decide_eq_true_eq, or_assoc]

variable (hup : up = (creditOf (s.shpIdle k) (s.counter - (s.shp k).at') : Nat))

include hup

theorem State.creditNow_of_waiting (h : (s.shp k).mode = 1) :
    s.creditNow k = min (s.shpHi k) ((s.shp k).credit + up) := by
  simp only [State.creditNow, h, hup]

theorem State.creditNow_of_idle (h : (s.shp k).mode = 2) : s.creditNow k = min 0 ((s.shp k).credit + up) := by
  simp only [State.creditNow, h, hup]

theorem State.creditNow_of_sending (h : (s.shp k).mode = 4)
    (hdown : down = (creditOf (s.shpRate k) (s.counter - (s.shp k).at') : Nat)) :
    s.creditNow k = s.fallTo k (s.shp k).credit (up - down) := by
  simp only [State.creditNow, h, hup, hdown]

end Credit

/-! ### What a settled shaper does (R173, R174) -/

section Settling

variable {s : State} {p k : Nat}

theorem State.shp_setShp (s : State) (k : Nat) (x : Shaper) : (s.setShp k x).shp k = x := Table.get_put_self _ _ _ _

/-- The frame's path goes through shaper `k` of port `p`. -/
def State.shaped (s : State) (p k : Nat) (f : TxFrame) : Bool := (s.shpPath p f).any (· == k)

theorem State.shaped_iff {f : TxFrame} : s.shaped p k f = true ↔ k ∈ s.shpPath p f := by
  simp only [State.shaped, List.any_eq_true, beq_iff_eq, exists_eq_right]

/-- The frames of shaper `k` that are queued at port `p`. -/
def State.shpQueue (s : State) (p k : Nat) : List TxFrame := (s.mac p).queue.filter (s.shaped p k)

/-- The frame on the line of port `p` is one of shaper `k`. -/
def State.shpSends (s : State) (p k : Nat) : Bool :=
  match (s.mac p).tx with
  | some t => s.shaped p k t.frame
  | none => false

/-- What an enabled, unfrozen shaper below the port level does. -/
theorem State.shpSettle_of_unfrozen (hon : s.shpOn k = true) (hfree : s.frozenClass p (s.shpClass k) = false)
    (hlevel : keyLevel k ≠ 2) : s.shpSettle p k =
      bif s.shpSends p k then
        (bif (s.shp k).mode == 4 then s else s.setShp k { credit := s.creditNow k, at' := s.counter, mode := 4 })
      else bif !(s.shpQueue p k).isEmpty then s.setShp k { credit := s.creditNow k, at' := s.counter, mode := 1 }
      else bif decide (s.creditNow k < 0) then s.setShp k { credit := s.creditNow k, at' := s.counter, mode := 2 }
      else { s with shapers := Table.drop k s.shapers } := by
  rw [State.shpSettle, hon, Bool.not_true, cond_false]
  simp only [beq_eq_false_iff_ne.mpr hlevel, cond_false, hfree, Bool.false_and]
  rfl

variable (hon : s.shpOn k = true) (hfree : s.frozenClass p (s.shpClass k) = false) (hlevel : keyLevel k ≠ 2)

include hon hfree hlevel

/-- With its frame on the line it sends. -/
theorem State.shpSettle_of_sending (hsends : s.shpSends p k = true) (hmode : (s.shp k).mode ≠ 4) :
    (s.shpSettle p k).shp k = { credit := s.creditNow k, at' := s.counter, mode := 4 } := by
  rw [State.shpSettle_of_unfrozen hon hfree hlevel, hsends, beq_eq_false_iff_ne.mpr hmode, cond_true, cond_false,
    State.shp_setShp]

/-- With frames queued it waits. -/
theorem State.shpSettle_of_queued (hsends : s.shpSends p k = false) (hqueue : (s.shpQueue p k).isEmpty = false) :
    (s.shpSettle p k).shp k = { credit := s.creditNow k, at' := s.counter, mode := 1 } := by
  rw [State.shpSettle_of_unfrozen hon hfree hlevel, hsends, hqueue, cond_false, Bool.not_false, cond_true,
    State.shp_setShp]

/-- With nothing queued or sent, a negative credit recovers, and any other is 0. -/
theorem State.shpSettle_of_empty (hsends : s.shpSends p k = false) (hqueue : (s.shpQueue p k).isEmpty = true) :
    (0 ≤ s.creditNow k → (s.shpSettle p k).shp k = {}) ∧
      (s.creditNow k < 0 → (s.shpSettle p k).shp k = { credit := s.creditNow k, at' := s.counter, mode := 2 }) := by
  rw [State.shpSettle_of_unfrozen hon hfree hlevel, hsends, hqueue, cond_false, Bool.not_true, cond_false]
  refine ⟨fun hpos => ?_, fun hneg => ?_⟩
  · rw [decide_eq_false (Int.not_lt.mpr hpos), cond_false]
    exact Table.get_drop_self _ _ _
  · rw [decide_eq_true hneg, cond_true, State.shp_setShp]

end Settling

/-- Settles O41: an entry write and the readout by their rows, the credit by the shaper's mode, and what a settled shaper
does by what its port holds of it. -/
theorem shaperEntriesAndTheirReadout : Obligations.ShaperEntriesAndTheirReadout := by
  refine ⟨fun s q o w => ⟨fun hhole => exec_shaperEntryWrite_of_hole hhole w, fun k hk => ?_⟩, ?_, ?_, ?_⟩
  · have hexec := exec_shaperEntryWrite_of_shaper (s := s) hk w
    exact ⟨fun hreach => by rw [hexec, State.atReg_reached hreach],
      fun hclosed => by rw [NoEffect, hexec, State.atReg_unreached hclosed]⟩
  · rintro s u q w k hq hu hk
    refine ⟨fun hreach => ?_, fun hclosed => congrArg Host.Outcome.next (State.atReg_unreached hclosed _)⟩
    obtain ⟨hcredit, heligible, hwaiting, hfrozen⟩ := State.showShaper_reads hq u k
    exact ⟨_, exec_shaperPeek_of_reached hreach hu hk, hcredit, heligible, hwaiting, hfrozen,
      hu ▸ s.showShaper_onlyWords q w k⟩
  · rintro s k up down c rfl hup hdown
    refine ⟨State.creditNow_of_waiting hup, State.creditNow_of_idle hup, State.creditNow_of_frozen, fun hsends => ?_,
      State.shpEligible_iff⟩
    rw [State.creditNow_of_sending hup hsends hdown]
    refine ⟨fun hfall hhigh => ?_, fun hfall hlow => State.fallTo_of_low (by omega) hlow, fun hrise => ?_⟩
    · rw [State.fallTo_of_high (by omega) hhigh, ← add_sub_assoc]
    · rw [State.fallTo_of_rise (by omega), ← add_sub_assoc]
  · rintro s p k x hon hfree hlevel
    have hidle : (s.mac p).tx = none → s.shpSends p k = false := fun htx => by rw [State.shpSends, htx]
    refine ⟨fun htx hnone => ?_, fun htx ⟨f, hf, hpath⟩ => ?_, fun htx hpath hmode => ?_⟩
    · have hqueue : (s.shpQueue p k).isEmpty = true := by
        rw [State.shpQueue, List.isEmpty_iff, List.filter_eq_nil_iff]
        exact fun f hf => mt State.shaped_iff.mp (hnone f hf)
      exact State.shpSettle_of_empty hon hfree hlevel (hidle htx) hqueue
    · have hqueue : (s.shpQueue p k).isEmpty = false := by
        rw [List.isEmpty_eq_false_iff]
        exact List.ne_nil_of_mem (List.mem_filter.mpr ⟨hf, State.shaped_iff.mpr hpath⟩)
      exact State.shpSettle_of_queued hon hfree hlevel (hidle htx) hqueue
    · have hsends : s.shpSends p k = true := by
        rw [State.shpSends, htx]
        exact State.shaped_iff.mpr hpath
      exact State.shpSettle_of_sending hon hfree hlevel hsends hmode

end Sys2Proof.Machine
end

section
/-! SUPPORT. The Source Table's decision on a sequence number and the FRER recovery function (R190, R200): what
each does by the place of the number in its window, and the statement of 07_redundancy_duplicates.md on them. -/

namespace Sys2Proof.Machine

/-! ### The marks of a window (R190) -/

/-- A window moved up by `d` positions: the head is marked, and an earlier mark stands `d` positions higher. -/
theorem bitAt_moved {d n b : Nat} (hd : 0 < d) (hb : b < n) (m : Nat) :
    bitAt ((m * 2 ^ d + 1) % 2 ^ n) b = true ↔ b = 0 ∨ d ≤ b ∧ bitAt m (b - d) = true := by
  have hone : 1 < 2 ^ d := Nat.one_lt_two_pow hd.ne'
  rw [bitAt, Nat.testBit_mod_two_pow, mul_comm, Nat.testBit_two_pow_mul_add m hone, bitAt]
  by_cases hlow : b < d
  · simp [hb, hlow, Nat.testBit_one_eq_true_iff_self_eq_zero]
  · have hpos : b ≠ 0 := by omega
    simp [hb, hlow, hpos, Nat.not_lt.mp hlow]

/-- The head of a window moved up is not yet forwarded. -/
theorem bitAt_vacated {d : Nat} (hd : 0 < d) (m n : Nat) : bitAt (m * 2 ^ d % 2 ^ n) 0 = false := by
  rw [bitAt, Nat.testBit_mod_two_pow, Nat.testBit_mul_two_pow, decide_eq_false (Nat.not_le.mpr hd), Bool.false_and,
    Bool.and_false]

theorem bitAt_marked (m b : Nat) : bitAt (m ||| 2 ^ b) b = true := by
  rw [bitAt, Nat.testBit_or, Nat.testBit_two_pow_self, Bool.or_true]

namespace Window

@[simp] theorem mark_h (w : Window) (x b : Nat) (on : Bool) : (w.mark x b on).h = w.h := by
  rw [mark]
  cases on <;> cases x == 0 <;> rfl

@[simp] theorem mark_seen (w : Window) (x b : Nat) (on : Bool) : (w.mark x b on).seen = w.seen := by
  rw [mark]
  cases on <;> cases x == 0 <;> rfl

/-- The window moved up by `d` positions to the head `q`. -/
def moveUp (n q d : Nat) (w : Window) : Window :=
  { h := q, seen := (w.seen * 2 ^ d + 1) % 2 ^ n, f0 := w.f0 * 2 ^ d % 2 ^ n, f1 := w.f1 * 2 ^ d % 2 ^ n }

theorem bitAt_fx_moveUp {d : Nat} (hd : 0 < d) (n q x : Nat) (w : Window) : bitAt ((w.moveUp n q d).fx x) 0 = false := by
  rw [fx]
  cases x == 0
  · exact bitAt_vacated hd w.f1 n
  · exact bitAt_vacated hd w.f0 n

end Window

/-! ### The decision on a sequence number (R190) -/

/-- A started window decides by the distance `d` of the number ahead of its head. -/
theorem decideSeq_of_started {prp old want : Bool} {x q n d : Nat} {w : Window} (hn : n = if prp then 48 else 16)
    (hd : d = (q + 65536 - w.h) % 65536) : decideSeq prp old want x q (some w) =
      if d = 0 then decideAt want false x 0 19 w
      else if d ≤ 32767 then decideAt want true x 0 19 (w.moveUp n q d)
      else if 65536 - d ≤ n - 1 then
        if bitAt w.seen (65536 - d) then decideAt want false x (65536 - d) 19 w
        else decideAt want true x (65536 - d) 7 { w with seen := w.seen ||| 2 ^ (65536 - d) }
      else { accept := old, forward := want && old, counter := if old then 8 else 9, win := w } := by
  rw [← Bool.cond_eq_ite] at hn
  simp only [decideSeq, ← hd, ← hn, Bool.cond_eq_ite, beq_iff_eq, Nat.ble_eq, Window.moveUp]
  cases old <;> simp

/-! ### SOURCE_LOOKUP_DONE (R190) -/

section Lookup

variable {s : State} {p : Nat} (pre : Bool) (l : List Byte) (bad : Option Nat)

theorem exec_sourceLookupDone_of_enabled (hport : s.qReady (p / 36) 0 = true) (hdup : s.qReady (p / 36) 7 = true)
    (hen : s.flag (F.macCtlEn p) = true) (hpair : s.pairMode (pairOf p) ≠ 0) :
    exec (.sourceLookupDone p pre l bad) s = .next ((s.rxLookup p pre false l bad).passWritten p).reportReads :=
  congrArg Host.Outcome.next (State.when_true (by simp [hport, hdup, hen, hpair]) s _)

theorem exec_sourceLookupDone_of_off (h : s.qReady (p / 36) 0 = false ∨ s.qReady (p / 36) 7 = false ∨
    s.flag (F.macCtlEn p) = false ∨ s.pairMode (pairOf p) = 0) : exec (.sourceLookupDone p pre l bad) s = .next s := by
  refine congrArg Host.Outcome.next (State.when_false ?_ s _)
  rcases h with h | h | h | h <;> simp [h]

end Lookup

/-! ### One frame of a recovery function (R200) -/

section Recovery

variable {s : State} {q f n hist hlen : Nat} {d : Int}

theorem State.recover_of_takeAny (hany : s.flag (frAny q f) = true) (n : Nat) : s.recover q f (some n) =
    (true, ((((s.fput (frSeq q f) n).fset (frAny q f) false).frerHist q f 1).frerWritten q f).frerPass q f) := by
  simp only [State.recover, hany, cond_true]

/-- A started function judges by the signed distance `d` from REC_SEQ. -/
theorem State.recover_of_started (hany : s.flag (frAny q f) = false) (hlen_eq : hlen = s.fget (frHlen q f))
    (hist_eq : hist = s.rd (frerAddr q f 2) + 2 ^ 32 * s.rd (frerAddr q f 3))
    (hd : d = signedOf (n + 65536 - s.fget (frSeq q f)) 16) : s.recover q f (some n) =
      if (hlen : Int) ≤ d ∨ d ≤ -(hlen : Int) then (false, s.frerCount q f 3 1)
      else if d ≤ 0 then
        if bitAt hist (-d).toNat then (false, s.frerCount q f 1 1)
        else (true, (((s.frerHist q f (hist ||| 2 ^ (-d).toNat)).frerWritten q f).frerCount q f 2 1).frerPass q f)
      else (true, ((((s.frerCount q f 4 (lostBits hist hlen d.toNat)).frerHist q f
        ((hist * 2 ^ d.toNat + 1) % 2 ^ hlen)).fput (frSeq q f) n).frerWritten q f).frerPass q f) := by
  rw [State.recover, hany, ← hlen_eq, ← hist_eq, ← hd]
  simp only [Bool.cond_eq_ite, Bool.or_eq_true, decide_eq_true_eq, Bool.false_eq_true, if_false]

end Recovery

/-- Settles O36: the decision by the place of the number in the window, the command by its four conditions, and the
recovery function by the signed distance. -/
theorem sourceLookupFollowsItsRule : Obligations.SourceLookupFollowsItsRule := by
  refine ⟨?_, ?_, fun s p pre l bad => ⟨exec_sourceLookupDone_of_enabled pre l bad,
    exec_sourceLookupDone_of_off pre l bad⟩, ?_⟩
  · rintro prp old want x q n d w r hn - - hd rfl
    rw [decideSeq_of_started hn hd]
    refine ⟨fun hzero => ?_, fun hpos hnear => ?_, fun hfar hin => ?_, fun hfar hout => ?_⟩
    · rw [if_pos hzero]
      exact ⟨rfl, rfl, w.mark_h .., w.mark_seen .., rfl⟩
    · rw [if_neg hpos.ne', if_pos hnear]
      refine ⟨rfl, Window.mark_h .., ?_, fun b hb => ?_⟩
      · rw [decideAt, Window.bitAt_fx_moveUp hpos, Bool.not_false, Bool.and_true]
      · rw [decideAt, Window.mark_seen]
        exact bitAt_moved hpos hb w.seen
    · rw [if_neg (by omega), if_neg (by omega), if_pos hin]
      cases hseen : bitAt w.seen (65536 - d)
      · refine ⟨rfl, Window.mark_h .., rfl, ?_, rfl⟩
        exact (congrArg (bitAt · _) (Window.mark_seen ..)).trans (bitAt_marked ..)
      · exact ⟨rfl, Window.mark_h .., rfl, (congrArg (bitAt · _) (Window.mark_seen ..)).trans hseen, rfl⟩
    · rw [if_neg (by omega), if_neg (by omega), if_neg (Nat.not_le.mpr hout)]
      exact ⟨rfl, rfl, rfl, rfl⟩
  · rintro prp old want x q r rfl
    refine ⟨rfl, Window.mark_h .., Window.mark_seen .., ?_⟩
    cases x <;> simp [decideSeq, decideAt, Window.fx, bitAt]
  · intro s q f n hist hlen d hlen_eq hist_eq hd
    refine ⟨fun hany => State.recover_of_takeAny hany n, fun hany => ?_, rfl⟩
    rw [State.recover_of_started hany hlen_eq hist_eq hd]
    refine ⟨fun hrogue => if_pos hrogue, fun hlow hhigh => ?_⟩
    have hnear : ¬((hlen : Int) ≤ d ∨ d ≤ -(hlen : Int)) := by omega
    rw [if_neg hnear]
    refine ⟨?_, ?_⟩
    · rintro b rfl
      rw [if_pos (by omega), neg_neg, Int.toNat_natCast]
      exact ⟨fun hset => if_pos hset, fun hclear => if_neg (Bool.eq_false_iff.mp hclear)⟩
    · rintro b hpos rfl
      rw [if_neg (by omega), Int.toNat_natCast]
      rfl

end Sys2Proof.Machine
end

section
/-! SUPPORT. The counts and scans of the host rings (R211, R216 to R220, R233): what a write of RING_HEAD and of NTC_CONS
and a doorbell leave, what a scan does with the header at F, and the statements of 08_host_rings.md on them. -/

namespace Sys2Proof.Machine

/-! ### The counts of a ring are whole words (Table 8.14) -/

section Registers

variable {r k : Nat}

theorem ringBase_of_port (h : r < 2304) : ringBase r = quadBase (r / 576) + 0x1C1000 + 0x40 * (r % 576) := if_pos h

theorem ringBase_of_spine (h : 2304 ≤ r) : ringBase r = 0x1000 + 0x40 * (r - 2304) := if_neg (Nat.not_lt.mpr h)

/-- A word of a port ring's block lies in the ring registers of its quadrant's window (Table 1.7). -/
theorem regRow_portRing (h : r < 2304) (hk : k < 0x40) : tableWord (ringBase r + k) = false ∧
    regRow (ringBase r + k) = findRow ringRows (ringBase r + k) := by
  have hbase := ringBase_of_port h
  unfold quadBase at hbase
  have hoff : windowOff (ringBase r + k) = 0x1C1000 + 0x40 * (r % 576) + k := by
    rw [windowOff]
    omega
  have hrows : windowRows (windowOff (ringBase r + k)) = ringRows := by
    simp only [windowRows, hoff, Bool.cond_eq_ite, Nat.blt_eq]
    rw [if_neg (by omega), if_neg (by omega), if_pos (by omega)]
  have hwindow : Nat.blt (ringBase r + k) 0x1000000 = false := by
    rw [Bool.eq_false_iff, ne_eq, Nat.blt_eq]
    omega
  constructor
  · simp only [tableWord, windowTable, hwindow, cond_false, hoff, Bool.eq_false_iff, ne_eq, Bool.and_eq_true, Bool.or_eq_true,
      Nat.ble_eq, Nat.blt_eq]
    omega
  · simp only [regRow, hrows, Bool.cond_eq_ite, Nat.blt_eq]
    rw [if_neg (by omega), if_neg (by omega), if_pos (by omega)]

/-- A row of the port rings' register array covers in every ring's block the word at its own offset. -/
theorem rowHit_portRing {x : RegRow} (h : r < 2304) (hk : k < 0x40) (hdims : x.dims = [(0x800000, 4), (0x40, 576)])
    (hlo : 0x11C1000 ≤ x.base) (hhi : x.base < 0x11C1040) : rowHit x (ringBase r + k) = (x.base == 0x11C1000 + k) := by
  rw [Bool.eq_iff_iff]
  simp only [rowHit, hdims, dimsHit, ringBase_of_port h, quadBase, Bool.and_eq_true, Nat.ble_eq, Nat.blt_eq, beq_iff_eq]
  omega

theorem implOf_counts_of_port (h : r < 2304) :
    implOf (Reg.ringHead r) = 2 ^ 32 - 1 ∧ implOf (Reg.ringScan r) = 2 ^ 32 - 1 := by
  have hctl (k : Nat) (hk : k < 0x40) :
      rowHit ⟨0x11C0000, [(0x800000, 4)], 0x0, 0x1, 0x0, 0x0, 0x0, 0xFFFF0000, []⟩ (ringBase r + k) = false := by
    rw [Bool.eq_false_iff]
    simp only [rowHit, dimsHit, ringBase_of_port h, quadBase, ne_eq, Bool.and_eq_true, Nat.ble_eq, Nat.blt_eq, beq_iff_eq]
    omega
  have hword (k : Nat) (hk : k < 0x40) (hfind : (findRow ringRows (ringBase r + k)).map rowImpl = some (2 ^ 32 - 1)) :
      implOf (ringBase r + k) = 2 ^ 32 - 1 := by
    obtain ⟨htable, hrow⟩ := regRow_portRing h hk
    obtain ⟨x, hx, himpl⟩ := Option.map_eq_some_iff.mp hfind
    simp only [implOf, htable, hrow, hx, cond_false, himpl]
  constructor
  · exact hword 0x20 (by decide) (by simp [ringRows, findRow, hctl, rowHit_portRing h, rowImpl])
  · exact hword 0x24 (by decide) (by simp [ringRows, findRow, hctl, rowHit_portRing h, rowImpl])

theorem implOf_counts_of_spine : ∀ j < 18, implOf (Reg.ringHead (2304 + j)) = 2 ^ 32 - 1 ∧
    implOf (Reg.ringScan (2304 + j)) = 2 ^ 32 - 1 := by decide +kernel

theorem implOf_counts (h : r < 2322) :
    implOf (Reg.ringHead r) = 2 ^ 32 - 1 ∧ implOf (Reg.ringScan r) = 2 ^ 32 - 1 := by
  by_cases hport : r < 2304
  · exact implOf_counts_of_port hport
  · have hspine := implOf_counts_of_spine (r - 2304) (by omega)
    rwa [Nat.add_sub_cancel' (Nat.not_lt.mp hport)] at hspine

theorem ntcCons_whole : ∀ h < 2, implOf (Reg.ntcCons h) = 2 ^ 32 - 1 := by decide +kernel

/-- The counts of a Notice Ring lie below the words of C. -/
theorem counts_ne_ntcCons (h : 2320 ≤ r) (hr : r < 2322) :
    Reg.ringHead r ≠ Reg.ntcCons (r - 2320) ∧ Reg.ringScan r ≠ Reg.ntcCons (r - 2320) := by
  simp only [Reg.ringHead, Reg.ringScan, Reg.ntcCons, ringBase_of_spine (show 2304 ≤ r by omega)]
  omega

end Registers

/-! ### RING_HEAD, NTC_CONS and doorbells (R211, R216, R233) -/

section Counts

variable {s : State} {r h w : Nat}

theorem exec_ringHeadWrite_of_reached (hreach : s.reaches (Reg.ringHead r) = true) (w : Nat) :
    exec (.ringHeadWrite r w) s = .next (s.writeRingHead r w) :=
  congrArg Host.Outcome.next (State.atReg_reached hreach _)

theorem State.ringLocked_iff : s.ringLocked r = true ↔
    s.flag (F.ringCtlEn r) = true ∨ s.flag (F.ringStsIdle r) = false := by
  rw [State.ringLocked, Bool.or_eq_true, Bool.not_eq_true']

theorem State.writeRingHead_of_locked (hlocked : s.ringLocked r = true) (w : Nat) : s.writeRingHead r w = s := by
  rw [State.writeRingHead, hlocked, cond_true]

/-- H and F both take the value. -/
def State.countsWritten (s : State) (r w : Nat) : State := (s.wr (Reg.ringHead r) w).wr (Reg.ringScan r) w

theorem State.writeRingHead_of_soft (hfree : s.ringLocked r = false) (hsoft : r < 2320) (w : Nat) :
    s.writeRingHead r w = s.countsWritten r w := by
  rw [State.writeRingHead, hfree, isSoftRing, Nat.blt_eq.mpr hsoft]
  rfl

theorem State.writeRingHead_of_notice (hfree : s.ringLocked r = false) (hnotice : 2320 ≤ r) (w : Nat) :
    s.writeRingHead r w = (s.countsWritten r w).wr (Reg.ntcCons (r - 2320)) w := by
  have hsoft : Nat.blt r 2320 = false := by rw [Bool.eq_false_iff, ne_eq, Nat.blt_eq]; omega
  rw [State.writeRingHead, hfree, isSoftRing, hsoft]
  rfl

theorem State.countsWritten_reads (hr : r < 2322) (s : State) (w : Nat) :
    (s.countsWritten r w).rd (Reg.ringHead r) = w % 2 ^ 32 ∧ (s.countsWritten r w).rd (Reg.ringScan r) = w % 2 ^ 32 := by
  obtain ⟨hhead, hscan⟩ := implOf_counts hr
  have hne : Reg.ringHead r ≠ Reg.ringScan r := by simp [Reg.ringHead, Reg.ringScan]
  exact ⟨(State.rd_wr_ne hne _ _).trans (State.rd_wr_full hhead s w), State.rd_wr_full hscan _ w⟩

theorem State.countsWritten_onlyWords {l : List Nat} (hhead : Reg.ringHead r ∈ l) (hscan : Reg.ringScan r ∈ l) (s : State)
    (w : Nat) : OnlyWords l s (s.countsWritten r w) :=
  (OnlyWords.refl.wr hhead w).wr hscan w

theorem exec_noticeConsumerWrite_of_reached (hreach : s.reaches (Reg.ntcCons h) = true) (w : Nat) :
    exec (.noticeConsumerWrite h w) s = .next (s.writeNtcCons h w) :=
  congrArg Host.Outcome.next (State.atReg_reached hreach _)

/-- The field of NTC_STS that tells host `h` of a refused consumer count. -/
def ntcConsErr (h : Nat) : Fld := if h = 0 then F.ntcStsConsErrA else F.ntcStsConsErrB

theorem ntcConsErr_field (h : Nat) : (ntcConsErr h).addr = Reg.ntcSts ∧ (ntcConsErr h).width = 1 ∧
    Fld.held (ntcConsErr h) = true := by
  unfold ntcConsErr
  split <;> exact ⟨rfl, rfl, by decide +kernel⟩

/-- A consumer count from C to P is taken. -/
theorem State.writeNtcCons_of_between (hin : (w + 2 ^ 32 - s.rd (Reg.ntcCons h)) % 2 ^ 32 ≤
    (s.rd (Reg.ringHead (noticeRing h)) + 2 ^ 32 - s.rd (Reg.ntcCons h)) % 2 ^ 32) :
    s.writeNtcCons h w = s.wr (Reg.ntcCons h) (w % 2 ^ 32) := by
  rw [State.writeNtcCons, Nat.ble_eq.mpr hin, cond_true]

/-- Any other only sets CONS_ERR. -/
theorem State.writeNtcCons_of_outside (hout : (s.rd (Reg.ringHead (noticeRing h)) + 2 ^ 32 - s.rd (Reg.ntcCons h)) % 2 ^ 32 <
    (w + 2 ^ 32 - s.rd (Reg.ntcCons h)) % 2 ^ 32) : s.writeNtcCons h w = s.fset (ntcConsErr h) true := by
  have hble : Nat.ble ((w + 2 ^ 32 - s.rd (Reg.ntcCons h)) % 2 ^ 32)
      ((s.rd (Reg.ringHead (noticeRing h)) + 2 ^ 32 - s.rd (Reg.ntcCons h)) % 2 ^ 32) = false := by
    rw [Bool.eq_false_iff, ne_eq, Nat.ble_eq]
    exact Nat.not_le.mpr hout
  rw [State.writeNtcCons, hble, cond_false, ntcConsErr, Bool.cond_eq_ite]
  simp only [beq_iff_eq]

theorem exec_doorbell_of_working {off : Nat} (hsoft : off / 8 < 2320) (hworks : s.ringWorks (off / 8) = true) :
    exec (.doorbell off) s = .next ((s.fset (F.ringStsDbPend (off / 8)) true).ringCount (off / 8) 1) := by
  have hrings : Nat.blt (off / 8) 2320 = true := Nat.blt_eq.mpr hsoft
  refine congrArg Host.Outcome.next ((State.when_true (by rw [hrings, hworks]; rfl) s _).trans ?_)
  rw [State.ringDoorbell, isSoftRing, hrings, cond_true]

theorem exec_doorbell_of_ignored {off : Nat} (h : 2320 ≤ off / 8 ∨ s.ringWorks (off / 8) = false) :
    exec (.doorbell off) s = .next s := by
  refine congrArg Host.Outcome.next (State.when_false ?_ s _)
  rw [Bool.and_eq_false_iff, Bool.eq_false_iff, ne_eq, Nat.blt_eq, Nat.not_lt]
  exact h

end Counts

/-- Settles O42: RING_HEAD by the lock of its ring, NTC_CONS by the distance from C to P, a doorbell by its ring. -/
theorem ringCountsAreWrittenByTheirRules : Obligations.RingCountsAreWrittenByTheirRules := by
  refine ⟨fun s r w hr hreach => ?_, ?_, fun s off => ⟨exec_doorbell_of_working, exec_doorbell_of_ignored⟩⟩
  · rw [NoEffect, exec_ringHeadWrite_of_reached hreach]
    refine ⟨fun hoff hidle => ⟨_, rfl, ?_⟩, fun hbusy => by
      rw [State.writeRingHead_of_locked (State.ringLocked_iff.mpr hbusy)]⟩
    have hfree : s.ringLocked r = false := by rw [State.ringLocked, hoff, hidle]; rfl
    obtain ⟨hhead, hscan⟩ := s.countsWritten_reads hr w
    rcases Nat.lt_or_ge r 2320 with hsoft | hnotice
    · rw [State.writeRingHead_of_soft hfree hsoft]
      exact ⟨hhead, hscan, fun _ => s.countsWritten_onlyWords (by simp) (by simp) w,
        fun hnotice => absurd hsoft (Nat.not_lt.mpr hnotice)⟩
    · obtain ⟨hne, hne'⟩ := counts_ne_ntcCons hnotice hr
      rw [State.writeRingHead_of_notice hfree hnotice, State.rd_wr_ne hne, State.rd_wr_ne hne',
        State.rd_wr_full (ntcCons_whole (r - 2320) (by omega))]
      exact ⟨hhead, hscan, fun hsoft => absurd hsoft (Nat.not_lt.mpr hnotice),
        fun _ => ⟨rfl, (s.countsWritten_onlyWords (by simp) (by simp) w).wr (by simp) w⟩⟩
  · rintro s h w c p hh hreach hw rfl rfl
    rw [exec_noticeConsumerWrite_of_reached hreach]
    obtain ⟨haddr, hwidth, hheld⟩ := ntcConsErr_field h
    have hne : Reg.ntcCons h ≠ (ntcConsErr h).addr := by rw [haddr, Reg.ntcCons, Reg.ntcSts]; omega
    refine ⟨fun hin => ⟨_, rfl, ?_⟩, fun hout => ⟨_, rfl, ?_⟩⟩
    · rw [State.writeNtcCons_of_between hin, State.rd_wr_full (ntcCons_whole h hh), Nat.mod_mod, Nat.mod_eq_of_lt hw]
      exact ⟨rfl, OnlyWords.refl.wr (by simp) _⟩
    · rw [State.writeNtcCons_of_outside hout]
      exact ⟨State.flag_fset_self hheld hwidth s true, State.rd_fput_ne hne s _,
        OnlyWords.refl.fset (by rw [haddr]; simp) true⟩

/-! ### The header at F (R217, R220) -/

theorem State.ring_setRing (s : State) (r : Nat) (x : Ring) : (s.setRing r x).ring r = x := Table.get_put_self _ _ _ _

theorem State.ring_setRing_ne {r k : Nat} (h : k ≠ r) (s : State) (x : Ring) : (s.setRing r x).ring k = s.ring k :=
  Table.get_put_ne h _ _

section Walk

variable {s : State} {r : Nat}

theorem State.scanWalk_of_stopped (hrun : s.flag (F.ringStsRun r) = false) (data : List Nat) (n : Nat) :
    s.scanWalk r data (n + 1) = s := by
  rw [State.scanWalk, hrun, Bool.not_false, cond_true]

variable (hrun : s.flag (F.ringStsRun r) = true)

include hrun

theorem State.scanWalk_of_full (hfull : s.scanFull r = true) (data : List Nat) (n : Nat) : s.scanWalk r data (n + 1) =
    s.setRing r { s.ring r with scanning := false, paused := true, part := [], rest := [] } := by
  rw [State.scanWalk, hrun, hfull, Bool.not_true, cond_false, cond_true]

variable {h : Nat} (hroom : s.scanFull r = false)

include hroom

/-- A header that is not owned ends the scan. -/
theorem State.scanWalk_of_notOwned (hmark : bitsOf h 8 1 ≠ s.ownedMark r (s.rd (Reg.ringScan r))) (rest : List Nat)
    (n : Nat) : s.scanWalk r (h :: rest) (n + 1) = s.scanEnd r := by
  simp only [State.scanWalk, hrun, hroom, List.isEmpty_cons, List.headD_cons, bne_iff_ne.mpr hmark, Bool.not_true,
    cond_false, cond_true]

variable (hmark : bitsOf h 8 1 = s.ownedMark r (s.rd (Reg.ringScan r)))

include hmark

theorem State.scanWalk_of_skip (htype : bitsOf h 0 4 = 15) (rest : List Nat) (n : Nat) :
    s.scanWalk r (h :: rest) (n + 1) = (s.acceptSkip r).scanRead r := by
  simp only [State.scanWalk, hrun, hroom, List.isEmpty_cons, List.headD_cons, hmark, htype, bne_self_eq_false,
    beq_self_eq_true, Bool.not_true, cond_false, cond_true]

variable (hskip : bitsOf h 0 4 ≠ 15)

include hskip

theorem State.scanWalk_of_foreign (htype : bitsOf h 0 4 ≠ ringType r) (rest : List Nat) (n : Nat) :
    s.scanWalk r (h :: rest) (n + 1) = s.ringError r 1 := by
  simp only [State.scanWalk, hrun, hroom, List.isEmpty_cons, List.headD_cons, hmark, bne_self_eq_false,
    beq_eq_false_iff_ne.mpr hskip, bne_iff_ne.mpr htype, Bool.not_true, cond_false, cond_true]

theorem State.scanWalk_of_badUnits (htype : bitsOf h 0 4 = ringType r)
    (hunits : unitsFit (ringType r) (bitsOf h 4 4 + 1) = false ∨
      s.ringSize r < s.rd (Reg.ringScan r) % s.ringSize r + (bitsOf h 4 4 + 1)) (rest : List Nat) (n : Nat) :
    s.scanWalk r (h :: rest) (n + 1) = s.ringError r 2 := by
  have hbad : (!unitsFit (ringType r) (bitsOf h 4 4 + 1) ||
      Nat.blt (s.ringSize r) (s.rd (Reg.ringScan r) % s.ringSize r + (bitsOf h 4 4 + 1))) = true := by
    rwa [Bool.or_eq_true, Bool.not_eq_true', Nat.blt_eq]
  rw [htype] at hskip
  simp only [State.scanWalk, hrun, hroom, List.isEmpty_cons, List.headD_cons, hmark, htype, bne_self_eq_false,
    beq_eq_false_iff_ne.mpr hskip, hbad, Bool.not_true, cond_false, cond_true]

end Walk

/-- Settles O44, by the branches of the walk. -/
theorem scansExamineHeadersInOrder : Obligations.ScansExamineHeadersInOrder := by
  rintro s r n h f u rest rfl rfl
  refine ⟨fun hstop => State.scanWalk_of_stopped hstop _ n, ?_, fun hrun hroom => ⟨?_, fun hmark => ⟨?_, ?_, ?_⟩⟩⟩
  · rintro hrun hfull t rfl
    rw [State.scanWalk_of_full hrun hfull, State.ring_setRing]
    exact ⟨rfl, rfl, rfl⟩
  · rintro hmark t rfl
    rw [State.scanWalk_of_notOwned hrun hroom hmark, State.scanEnd, State.ring_setRing]
    exact ⟨rfl, rfl, rfl, fun k hk => State.ring_setRing_ne hk s _⟩
  · exact fun htype => State.scanWalk_of_skip hrun hroom hmark htype rest n
  · exact fun hskip htype => State.scanWalk_of_foreign hrun hroom hmark hskip htype rest n
  · exact fun hskip htype hunits => State.scanWalk_of_badUnits hrun hroom hmark hskip htype hunits rest n

end Sys2Proof.Machine
end

section
/-! SUPPORT. The work of the host rings (R217 to R239): how a ring starts, stops and becomes idle, how a scan and a fetch
go on, how entries end or fail, what a notice meets, and the statements of 08_host_rings.md on them. -/

namespace Sys2Proof.Machine

/-! ### Starts, stops and IDLE (R216, R237) -/

section Control

variable {s : State} {r : Nat}

theorem exec_ringEnable_of_reached (hreach : s.reaches (Reg.ringCtl r) = true) (w : Nat) :
    exec (.ringEnable r w) s = .next (s.writeRingCtl r (w ||| 1)) :=
  congrArg Host.Outcome.next (State.atReg_reached hreach _)

theorem exec_ringDisable_of_reached (hreach : s.reaches (Reg.ringCtl r) = true) (w : Nat) :
    exec (.ringDisable r w) s = .next (s.writeRingCtl r (withBits w 0 1 0)) :=
  congrArg Host.Outcome.next (State.atReg_reached hreach _)

theorem State.writeRingCtl_of_enable {w : Nat} (hw : bitAt w 0 = true) : s.writeRingCtl r w =
    bif s.flag (F.ringCtlEn r) then s
    else bif s.flag (F.ringStsIdle r) then s.ringStart r
    else (s.fset (F.ringCtlEn r) true).setRing r { s.ring r with enHeld := true } := by
  rw [State.writeRingCtl, hw, cond_true]

theorem State.writeRingCtl_of_disable {w : Nat} (hw : bitAt w 0 = false) : s.writeRingCtl r w =
    bif s.flag (F.ringStsRun r) then s.ringStop r
    else (s.fset (F.ringCtlEn r) false).setRing r { s.ring r with enHeld := false } := by
  rw [State.writeRingCtl, hw, cond_false]

theorem bitAt_withBits_zero (w : Nat) : bitAt (withBits w 0 1 0) 0 = false := by
  rw [bitAt, testBit_withBits]
  simp

/-- Entries are all done when none is left to do. -/
theorem any_not_done (l : List RingEntry) : l.any (fun e => !e.done) = !l.all (·.done) := by
  rw [List.any_eq_not_all_not]
  simp only [Bool.not_not]

theorem exec_ringIdle_of_working (hworks : s.ringWorks r = true) : exec (.ringIdle r) s = .next (s.ringIdle r) :=
  congrArg Host.Outcome.next (State.when_true hworks s _)

theorem State.ringIdle_of_finished (hrun : s.flag (F.ringStsRun r) = false) (hidle : s.flag (F.ringStsIdle r) = false)
    (hdone : (s.ring r).entries.all (·.done) = true) {t : State}
    (ht : t = ((if isSoftRing r then s.ringAdvance r else s).slotWrite r false).fset (F.ringStsIdle r) true) :
    s.ringIdle r = t.when (t.ring r).enHeld (·.ringStart r) := by
  subst ht
  rw [← Bool.cond_eq_ite, State.ringIdle, hrun, hidle, any_not_done, hdone]
  rfl

theorem State.ringIdle_of_busy (h : s.flag (F.ringStsRun r) = true ∨ s.flag (F.ringStsIdle r) = true ∨
    (s.ring r).entries.all (·.done) = false) : s.ringIdle r = s := by
  have hbusy : (s.flag (F.ringStsRun r) || s.flag (F.ringStsIdle r) || (s.ring r).entries.any (fun e => !e.done)) =
      true := by
    rwa [any_not_done, Bool.or_eq_true, Bool.or_eq_true, Bool.not_eq_true', or_assoc]
  rw [State.ringIdle, hbusy, cond_true]

end Control

/-! ### Scans (R217, R242) -/

section Scans

variable {s : State} {r : Nat}

/-- A ring that stops for its state word counts the error and shows code 6. -/
theorem State.ringEcc_eq (s : State) (r : Nat) : s.ringEcc r =
    (s.cntF (if r < 2304 then F.ringQctlEccUnc (r / 576) else F.sringCtlEccUnc)).ringError r 6 := by
  rw [State.ringEcc, Bool.cond_eq_ite]
  simp only [Nat.blt_eq]

theorem State.scanStart_of_ready (hrun : s.flag (F.ringStsRun r) = true) (hscan : (s.ring r).scanning = false)
    (hpause : (s.ring r).paused = false) (bad : Bool) : s.scanStart r bad =
    bif bad then s.ringEcc r
    else bif s.flag (F.ringStsDbPend r) || (s.ring r).due then (s.fset (F.ringStsDbPend r) false).scanRead r
    else s := by
  rw [State.scanStart, hrun, hscan, hpause]
  rfl

theorem State.scanStart_of_busy (h : s.flag (F.ringStsRun r) = false ∨ (s.ring r).scanning = true ∨
    (s.ring r).paused = true) (bad : Bool) : s.scanStart r bad = s := by
  have hbusy : (!s.flag (F.ringStsRun r) || (s.ring r).scanning || (s.ring r).paused) = true := by
    rwa [Bool.or_eq_true, Bool.or_eq_true, Bool.not_eq_true', or_assoc]
  rw [State.scanStart, hbusy, cond_true]

/-- The read that returns has ended. -/
theorem State.scanReturns_of_outstanding (h : (s.ring r).scanning = true ∨ 0 < (s.ring r).discard) (words : List Nat)
    (bad : Bool) : s.scanReturns r words bad =
    bif bad then ((s.readIn (ringMaster r)).ringEcc r).scanData r words
    else ((s.readIn (ringMaster r)).scanData r words).fetchMore r := by
  rw [State.scanReturns, State.when_true (by rwa [Bool.or_eq_true, Nat.blt_eq])]

theorem State.scanData_of_discard (h : 0 < (s.ring r).discard) (words : List Nat) :
    s.scanData r words = s.setRing r { s.ring r with discard := (s.ring r).discard - 1 } := by
  simp only [State.scanData, Nat.blt_eq.mpr h, cond_true]

theorem State.scanData_of_headers (hkept : (s.ring r).discard = 0) (hscan : (s.ring r).scanning = true)
    (hpart : (s.ring r).part = []) (words : List Nat) : s.scanData r words = (s.scanEnd r).scanWalk r words 17 := by
  simp only [State.scanData, hkept, hscan, hpart, List.isEmpty_nil, show Nat.blt 0 0 = false from rfl, Bool.not_true,
    cond_false, cond_true]

variable (hworks : s.ringWorks r = true) (hsoft : isSoftRing r = true)

include hworks hsoft

theorem exec_ringScanStart_of_working (bad : Bool) : exec (.ringScanStart r bad) s =
    .next ((s.ringWordRead r).scanStart r (bad || !s.ringWordGood r)).reportReads :=
  congrArg Host.Outcome.next (State.when_true (by rw [hworks, hsoft]; rfl) s _)

theorem exec_scanDataReturn_of_working (words : List Nat) (bad : Bool) : exec (.scanDataReturn r ⟨words, bad⟩) s =
    .next (((s.ringWordRead r).oneSlot (·.scanReturns r words (bad || !s.ringWordGood r))).ringWordWritten r) :=
  congrArg Host.Outcome.next (State.when_true (by rw [hworks, hsoft]; rfl) s _)

end Scans

/-! ### Fetches (R225) -/

section Fetch

variable {s : State} {r : Nat} {e : RingEntry} {l : List Byte}

theorem exec_txFetchDone_of_working (hworks : s.ringWorks r = true) (htx : isTxRing r = true) (l : List Byte) :
    exec (.txFetchDone r l) s = .next (s.fetched r l) :=
  congrArg Host.Outcome.next (State.when_true (by rw [hworks, htx]; rfl) s _)

variable (hfetch : s.inFetch r = some e)

include hfetch

theorem State.fetched_of_whole (hlen : l.length = txTotal e.words) (hport : s.qReady (r / 576) 0 = true)
    (hissued : (s.partFetch r).any (fun x => x.pos == e.pos) = false) : s.fetched r l =
    (((s.fetchEnds r e).setEntry r e.pos (fun x => { x with whole := true })).hostSend (r / 16)
      (frameOf r e l)).fetchMore r := by
  simp only [State.fetched, hfetch, hlen, hport, hissued, bne_self_eq_false, Bool.not_true, Bool.or_self, cond_false]

theorem State.fetched_of_early (h : l.length ≠ txTotal e.words ∨ s.qReady (r / 576) 0 = false ∨
    (s.partFetch r).any (fun x => x.pos == e.pos) = true) : s.fetched r l = s := by
  have hearly : (l.length != txTotal e.words || !s.qReady (r / 576) 0 || (s.partFetch r).any (fun x => x.pos == e.pos)) =
      true := by
    rwa [Bool.or_eq_true, Bool.or_eq_true, Bool.not_eq_true', bne_iff_ne, or_assoc]
  simp only [State.fetched, hfetch, hearly, cond_true]

end Fetch

/-- Settles O43, command by command. -/
theorem ringsStartStopAndScan : Obligations.RingsStartStopAndScan := by
  refine ⟨fun s r w => ⟨fun hclosed => ?_, fun hreach => ?_⟩, fun s r hworks => ?_, ?_, ?_, ?_⟩
  · exact ⟨congrArg Host.Outcome.next (State.atReg_unreached hclosed _),
      congrArg Host.Outcome.next (State.atReg_unreached hclosed _)⟩
  · rw [NoEffect, exec_ringEnable_of_reached hreach, exec_ringDisable_of_reached hreach,
      State.writeRingCtl_of_enable (bitAt_or_one w), State.writeRingCtl_of_disable (bitAt_withBits_zero w)]
    refine ⟨?_, fun hoff hidle => ?_, fun hon => ?_, fun hrun => ?_, fun hstop => ?_⟩
    · rintro hoff hidle t rfl
      rw [hoff, hidle]
      rfl
    · rw [hoff, hidle, cond_false, cond_false]
    · rw [hon, cond_true]
    · rw [hrun, cond_true]
    · rw [hstop, cond_false]
  · rw [NoEffect, exec_ringIdle_of_working hworks]
    refine ⟨fun hrun hidle hdone t ht => ?_, fun hbusy => by rw [State.ringIdle_of_busy hbusy]⟩
    rw [State.ringIdle_of_finished hrun hidle hdone ht]
    exact ⟨fun hfree => by rw [State.when_false hfree], fun hheld => by rw [State.when_true hheld]⟩
  · rintro s r hworks hsoft bad u bad' rfl rfl
    exact ⟨exec_ringScanStart_of_working hworks hsoft bad, fun words => exec_scanDataReturn_of_working hworks hsoft words bad⟩
  · refine fun s r => ⟨fun hrun hscan hpause => ⟨fun hdue => ?_, fun hquiet hdue => ?_, ?_⟩,
      fun bad hbusy => State.scanStart_of_busy hbusy bad, fun words hout => ⟨?_, ?_⟩,
      fun words hdrop => State.scanData_of_discard hdrop words,
      fun words hkept hscan hpart => State.scanData_of_headers hkept hscan hpart words⟩
    · rw [State.scanStart_of_ready hrun hscan hpause, cond_false, (Bool.or_eq_true ..).mpr hdue, cond_true]
    · rw [State.scanStart_of_ready hrun hscan hpause, hquiet, hdue]
      rfl
    · rw [State.scanStart_of_ready hrun hscan hpause, cond_true, State.ringEcc_eq]
    · exact State.scanReturns_of_outstanding hout words false
    · exact State.scanReturns_of_outstanding hout words true
  · intro s r e l hworks htx hfetch
    rw [NoEffect, exec_txFetchDone_of_working hworks htx]
    exact ⟨fun hlen hport hissued => by rw [State.fetched_of_whole hfetch hlen hport hissued],
      fun hearly => by rw [State.fetched_of_early hfetch hearly]⟩

/-! ### One slot write for the handshake (R222) -/

section OneSlot

variable {s : State} {f g : State → State}

/-- What the operation does with the slot writes owed is all that counts. -/
theorem State.oneSlot_congr (h : ∀ l, f { s with slots := l } = g { s with slots := l }) : s.oneSlot f = s.oneSlot g := by
  have hnow : f s = g s := h s.slots
  rw [State.oneSlot, State.oneSlot, hnow, h (some [])]

/-- An operation that leaves all as it is owes no slot write. -/
theorem State.oneSlot_of_idle (hslots : s.slots = none) (h : f { s with slots := some [] } = { s with slots := some [] }) :
    s.oneSlot f = s := by
  have hsame : { s with slots := none } = s := by rw [← hslots]
  rw [State.oneSlot, hslots, h]
  exact hsame

end OneSlot

/-! ### Entries and the interrupt gap (R221, R223, R230) -/

section Entries

variable {s : State} {r pos : Nat}

theorem exec_entryComplete_of_working (hworks : s.ringWorks r = true) (bad : Bool) : exec (.entryComplete r ⟨pos, bad⟩) s =
    .next ((s.ringWordRead r).oneSlot fun u => (if (bad || !s.ringWordGood r) = true then u.ringEcc r else u).entryEnds r
      pos).reportReads := by
  refine congrArg Host.Outcome.next ((State.when_true hworks s _).trans ?_)
  simp only [State.when, Bool.cond_eq_ite]

theorem State.entryEnds_of_none (h : s.entryAt r pos = none) : s.entryEnds r pos = s := by
  rw [State.entryEnds, h]

theorem State.entryEnds_of_own {e : RingEntry} (h : s.entryAt r pos = some e) (hframe : e.frame = 0) :
    s.entryEnds r pos = s.entriesDone r [pos] := by
  simp only [State.entryEnds, h, beq_iff_eq.mpr hframe, cond_true]

/-- The entries of a received frame end together. -/
theorem State.entryEnds_of_frame {e : RingEntry} (h : s.entryAt r pos = some e) (hframe : e.frame ≠ 0) :
    s.entryEnds r pos = s.frameWritten r e := by
  simp only [State.entryEnds, h, beq_eq_false_iff_ne.mpr hframe, cond_false]

theorem State.ringIsolated_of_working (hworks : s.ringWorks r = true) : s.ringIsolated r = false := by
  simp only [State.ringWorks, Bool.and_eq_true, Bool.not_eq_true'] at hworks
  obtain ⟨⟨-, hopen⟩, -⟩ := hworks
  exact hopen

/-- The gap ends, and a held trigger passes where no isolation gate stops it. -/
theorem exec_msixGapExpire_of_running (h : s.ringWorks r = true ∨ s.ringIsolated r = true ∧ s.ready (ringDom r) = true) :
    exec (.msixGapExpire r) s = .next ((s.setRing r { s.ring r with gap := false, irqHeld := false }).when
      ((s.ring r).irqHeld && !s.ringIsolated r) (·.ringIrq r)) :=
  congrArg Host.Outcome.next (State.when_true (by rwa [Bool.or_eq_true, Bool.and_eq_true]) s _)

theorem exec_msixGapExpire_of_off (hworks : s.ringWorks r = false)
    (h : s.ringIsolated r = false ∨ s.ready (ringDom r) = false) : exec (.msixGapExpire r) s = .next s :=
  congrArg Host.Outcome.next (State.when_false (by rwa [hworks, Bool.false_or, Bool.and_eq_false_iff]) s _)

end Entries

/-! ### Errors of reads and writes (R226, R237, R239) -/

section Errors

variable {s : State} {r n : Nat} {e : RingEntry}

theorem State.statusB_of_tx (htx : isTxRing r = true) (st : Nat) :
    s.statusB r st = if s.sendsTwo (r / 16) then st else 0 := by
  rw [State.statusB, htx, Bool.true_and, Bool.cond_eq_ite]

variable (hworks : s.ringWorks r = true)

include hworks

/-- The data of the read is thrown away, and its error is, too. -/
theorem exec_busReadError_of_discard (h : 0 < (s.ring r).discard) : exec (.busReadError r none) s =
    .next (s.oneSlot fun u => (u.setRing r { s.ring r with discard := (s.ring r).discard - 1 }).readIn (ringMaster r)) := by
  refine congrArg Host.Outcome.next ((State.when_true hworks s _).trans (State.oneSlot_congr fun l => ?_))
  exact congrArg (cond · _ _) (Nat.blt_eq.mpr h)

theorem exec_busReadError_of_scan (hkept : (s.ring r).discard = 0) (hscan : (s.ring r).scanning = true) :
    exec (.busReadError r none) s =
      .next (s.oneSlot fun u => ((u.readIn (ringMaster r)).scanEnd r).ringError r 4) := by
  refine congrArg Host.Outcome.next ((State.when_true hworks s _).trans (State.oneSlot_congr fun l => ?_))
  have hring : ({ s with slots := l } : State).ring r = s.ring r := rfl
  simp only [hring, hkept, hscan, State.when, show Nat.blt 0 0 = false from rfl, cond_false, cond_true]

theorem exec_busReadError_of_noScan (hkept : (s.ring r).discard = 0) (hscan : (s.ring r).scanning = false)
    (hslots : s.slots = none) : exec (.busReadError r none) s = .next s := by
  refine congrArg Host.Outcome.next ((State.when_true hworks s _).trans (State.oneSlot_of_idle hslots ?_))
  have hring : ({ s with slots := some [] } : State).ring r = s.ring r := rfl
  simp only [hring, hkept, hscan, State.when, show Nat.blt 0 0 = false from rfl, cond_false]

/-- The entry being fetched completes READ_ERR, both copies of a pair that sends two. -/
theorem exec_busReadError_of_fetch (he : s.entryAt r n = some e) (htx : isTxRing r = true) (hbegun : e.begun = true)
    (hpart : e.whole = false) : exec (.busReadError r (some n)) s = .next (s.oneSlot fun u =>
      (((u.fetchEnds r e).txComplete r n 7 (if s.sendsTwo (r / 16) then 7 else 0) 0 0).ringError r 4).fetchMore r) := by
  refine congrArg Host.Outcome.next ((State.when_true hworks s _).trans (State.oneSlot_congr fun l => ?_))
  have hentry : ({ s with slots := l } : State).entryAt r n = some e := he
  have hstatus : ({ s with slots := l } : State).statusB r 7 = if s.sendsTwo (r / 16) then 7 else 0 :=
    State.statusB_of_tx htx 7
  have hopen : (isTxRing r && e.begun && !e.whole) = true := by rw [htx, hbegun, hpart]; rfl
  simp only [hentry, State.when_true hopen, hstatus]

theorem exec_busReadError_of_noFetch (he : s.entryAt r n = some e)
    (h : isTxRing r = false ∨ e.begun = false ∨ e.whole = true) (hslots : s.slots = none) :
    exec (.busReadError r (some n)) s = .next s := by
  refine congrArg Host.Outcome.next ((State.when_true hworks s _).trans (State.oneSlot_of_idle hslots ?_))
  have hentry : ({ s with slots := some [] } : State).entryAt r n = some e := he
  have hidle : (isTxRing r && e.begun && !e.whole) = false := by
    rwa [Bool.and_eq_false_iff, Bool.and_eq_false_iff, Bool.not_eq_false', or_assoc]
  simp only [hentry, State.when_false hidle]

theorem exec_busReadError_of_noEntry (he : s.entryAt r n = none) (hslots : s.slots = none) :
    exec (.busReadError r (some n)) s = .next s := by
  refine congrArg Host.Outcome.next ((State.when_true hworks s _).trans (State.oneSlot_of_idle hslots ?_))
  have hentry : ({ s with slots := some [] } : State).entryAt r n = none := he
  simp only [hentry]

theorem exec_busWriteError_of_slot : exec (.busWriteError r none) s =
    .next (s.when (s.ring r).slotOut fun u => (u.transEnd (ringMaster r) true 1).ringError r 5) :=
  congrArg Host.Outcome.next (State.when_true hworks s _)

theorem exec_busWriteError_of_entry (n : Nat) : exec (.busWriteError r (some n)) s =
    .next (s.when (s.entryAt r n).isSome fun u =>
      (((u.transEnd (ringMaster r) true 1).abandonFrom r n).ringError r 5).fetchMore r) :=
  congrArg Host.Outcome.next (State.when_true hworks s _)

end Errors

/-! ### Notices (R232, R234, R235, R364) -/

section Notices

variable {s : State} {h : Nat}

theorem exec_noticeWrite_of_working (hworks : s.ringWorks (noticeRing h) = true) (code block index : Nat) (args : List Nat) :
    exec (.noticeWrite h code block index args) s = .next (s.noticeTo h code block index args) :=
  congrArg Host.Outcome.next (State.when_true hworks s _)

theorem exec_noticeWrite_of_off (hoff : s.ringWorks (noticeRing h) = false) (code block index : Nat) (args : List Nat) :
    exec (.noticeWrite h code block index args) s = .next s :=
  congrArg Host.Outcome.next (State.when_false hoff s _)

theorem State.noticeTo_of_stopped (hrun : s.flag (F.ringStsRun (noticeRing h)) = false) (code block index : Nat)
    (args : List Nat) : s.noticeTo h code block index args = s := by
  rw [State.noticeTo, hrun, Bool.not_false, cond_true]

/-- The instant that a notice carries. -/
theorem State.noticeTime_eq (s : State) (block : Nat) : s.noticeTime block = if block = 72 then s.folNow 4 else s.now := by
  rw [State.noticeTime, Bool.cond_eq_ite]
  simp only [beq_iff_eq]

variable {block c : Nat} (hrun : s.flag (F.ringStsRun (noticeRing h)) = true) (hc : s.noticeTime block = c)

include hrun hc

theorem State.noticeTo_of_room (hpend : s.flag (ntcPend h) = false) (hroom : 2 ≤ s.noticeFree h) (code index : Nat)
    (args : List Nat) : s.noticeTo h code block index args =
      (s.putNotice h code block (fsNs c) (fsSec c) index args).slotWrite (noticeRing h) true := by
  simp only [State.noticeTo, hrun, hc, hpend, Nat.ble_eq.mpr hroom, Bool.not_true, cond_false, cond_true]

/-- A pending summary goes first. -/
theorem State.noticeTo_of_summary (hpend : s.flag (ntcPend h) = true) (hroom : 4 ≤ s.noticeFree h) (code index : Nat)
    (args : List Nat) : s.noticeTo h code block index args =
      ((s.putSummary h).putNotice h code block (fsNs c) (fsSec c) index args).slotWrite (noticeRing h) true := by
  simp only [State.noticeTo, hrun, hc, hpend, Nat.ble_eq.mpr hroom, Bool.not_true, cond_false, cond_true]

theorem State.noticeTo_of_noRoom (hfull : s.noticeFree h < if s.flag (ntcPend h) then 4 else 2) (code index : Nat)
    (args : List Nat) : s.noticeTo h code block index args = s.loseNotice h code c := by
  have hnone (k : Nat) (hk : s.noticeFree h < k) : Nat.ble k (s.noticeFree h) = false := by
    rw [Bool.eq_false_iff, ne_eq, Nat.ble_eq]
    exact Nat.not_le.mpr hk
  cases hpend : s.flag (ntcPend h) <;> rw [hpend] at hfull
  · simp only [State.noticeTo, hrun, hc, hpend, hnone 2 hfull, Bool.not_true, cond_false]
  · simp only [State.noticeTo, hrun, hc, hpend, hnone 4 hfull, Bool.not_true, cond_false, cond_true]

end Notices

/-- Settles O45, command by command. -/
theorem ringWorkEndsAndFails : Obligations.RingWorkEndsAndFails := by
  refine ⟨fun s r hworks => ⟨?_, ?_, ?_, exec_busReadError_of_discard hworks, exec_busReadError_of_scan hworks,
    exec_busReadError_of_noScan hworks, fun n e he => ⟨exec_busReadError_of_fetch hworks he,
      exec_busReadError_of_noFetch hworks he⟩, fun n he => ⟨?_, exec_busReadError_of_noEntry hworks he⟩, ?_, ?_, ?_⟩,
    fun s r pos hoff => ?_, ?_, fun s h => ⟨?_, ?_⟩⟩
  · rintro pos bad bad' rfl
    exact ⟨exec_entryComplete_of_working hworks bad, State.entryEnds_of_none, fun e he =>
      ⟨State.entryEnds_of_own he, State.entryEnds_of_frame he⟩⟩
  · intro hheld
    rw [exec_msixGapExpire_of_running (.inl hworks), hheld]
    rfl
  · intro hheld
    rw [exec_msixGapExpire_of_running (.inl hworks), hheld, State.ringIsolated_of_working hworks]
    rfl
  · rw [NoEffect, exec_busWriteError_of_entry hworks, he]
    rfl
  · intro hout
    rw [exec_busWriteError_of_slot hworks, State.when_true hout]
  · intro hquiet
    rw [NoEffect, exec_busWriteError_of_slot hworks, State.when_false hquiet]
  · intro n hentry
    rw [exec_busWriteError_of_entry hworks, State.when_true hentry]
  · have hstill (f : State → State) : s.when (s.ringWorks r) f = s := State.when_false hoff s f
    have hstill' (b : Bool) (f : State → State) : s.when (s.ringWorks r && b) f = s :=
      State.when_false (by rw [hoff, Bool.false_and]) s f
    refine ⟨fun bad => congrArg Host.Outcome.next (hstill _), exec_msixGapExpire_of_off hoff, fun hiso hready => ?_,
      congrArg Host.Outcome.next (hstill _), fun bad => ⟨congrArg Host.Outcome.next (hstill' _ _),
        fun w => congrArg Host.Outcome.next (hstill' _ _)⟩, fun l => congrArg Host.Outcome.next (hstill' _ _),
      fun n => ⟨congrArg Host.Outcome.next (hstill _), congrArg Host.Outcome.next (hstill _)⟩⟩
    rw [exec_msixGapExpire_of_running (.inr ⟨hiso, hready⟩), hiso, State.when_false (by rw [Bool.not_true, Bool.and_false])]
  · rintro s h code block index c args hc
    have htime : s.noticeTime block = c := (s.noticeTime_eq block).trans hc.symm
    refine ⟨fun hworks hrun => ?_, fun hoff => ?_⟩
    · rw [exec_noticeWrite_of_working hworks]
      exact ⟨fun hpend hroom => by rw [State.noticeTo_of_room hrun htime hpend hroom],
        fun hpend hroom => by rw [State.noticeTo_of_summary hrun htime hpend hroom],
        fun hfull => by rw [State.noticeTo_of_noRoom hrun htime hfull]⟩
    · cases hworks : s.ringWorks (noticeRing h)
      · exact exec_noticeWrite_of_off hworks code block index args
      · have hstop := hoff.resolve_left (by simp [hworks])
        rw [NoEffect, exec_noticeWrite_of_working hworks, State.noticeTo_of_stopped hstop]
  · exact fun hready => congrArg Host.Outcome.next (State.atDom_ready hready _)
  · exact fun hoff => congrArg Host.Outcome.next (State.atDom_off hoff _)

end Sys2Proof.Machine
end

section
/-! SUPPORT. The Grafa link (R252, R256 to R258, R264, R266, R267): a write of GRF_CTL, block lock gained and lost on a lane,
the timers of a link, and the first statement of 09_ibeth_assembly_grafa_link.md on them. -/

namespace Sys2Proof.Machine

/-! ### GRF_CTL (R252, R266, R267) -/

section GrfCtl

variable {s : State} {q w : Nat}

/-- GRF_CTL as a write leaves it, with HOLDOVER_N driven; without EN no IDLE interval is open. -/
def State.grfCtlStored (s : State) (q w : Nat) : State :=
  let u := ((s.store (Reg.grfCtl q) w).fset (F.grfCtlHoldRel q)
    (bitAt w 2 && s.isUp q && s.qReady q 9 && s.flag (F.nitCtlEn q))).driveHold q
  if bitAt w 0 then u else u.setLink q { u.link q with sent := none }

/-- A link that is not UP is taken to DOWN. -/
def State.linkToDown (s : State) (q : Nat) : State :=
  ((s.fput (F.grfStsState q) linkDown).fset (F.grfStsAligned q) false).dropCmds q

theorem State.writeGrfCtl_eq (s : State) (q w : Nat) : s.writeGrfCtl q w =
    bif s.flag (F.grfCtlEn q) && !bitAt w 0 then
      (if s.isUp q then (s.grfCtlStored q w).linkDownFrom q 8 else (s.grfCtlStored q w).linkToDown q)
    else bif !s.flag (F.grfCtlEn q) && bitAt w 0 then (s.grfCtlStored q w).startTraining q
    else bif s.flag (F.grfCtlEn q) && bitAt w 1 then
      (if s.isUp q then (s.grfCtlStored q w).linkDownFrom q 9 else (s.grfCtlStored q w).linkToDown q).startTraining q
    else s.grfCtlStored q w := by
  simp only [State.writeGrfCtl, State.grfCtlStored, State.linkToDown, Bool.cond_eq_ite]

theorem State.writeGrfCtl_of_start (hoff : s.flag (F.grfCtlEn q) = false) (hw : bitAt w 0 = true) :
    s.writeGrfCtl q w = (s.grfCtlStored q w).startTraining q := by
  rw [State.writeGrfCtl_eq, hoff, hw]
  rfl

theorem State.writeGrfCtl_of_stop (hon : s.flag (F.grfCtlEn q) = true) (hw : bitAt w 0 = false) :
    s.writeGrfCtl q w =
      if s.isUp q then (s.grfCtlStored q w).linkDownFrom q 8 else (s.grfCtlStored q w).linkToDown q := by
  rw [State.writeGrfCtl_eq, hon, hw]
  rfl

theorem State.writeGrfCtl_of_retrain (hon : s.flag (F.grfCtlEn q) = true) (hw : bitAt w 0 = true)
    (hretrain : bitAt w 1 = true) : s.writeGrfCtl q w =
      if s.isUp q then ((s.grfCtlStored q w).linkDownFrom q 9).startTraining q
      else ((s.grfCtlStored q w).linkToDown q).startTraining q := by
  rw [State.writeGrfCtl_eq, hon, hw, hretrain]
  exact apply_ite (fun t : State => t.startTraining q) _ _ _

theorem State.writeGrfCtl_of_same (hen : s.flag (F.grfCtlEn q) = bitAt w 0)
    (hkeep : s.flag (F.grfCtlEn q) = true → bitAt w 1 = false) : s.writeGrfCtl q w = s.grfCtlStored q w := by
  rw [State.writeGrfCtl_eq, ← hen]
  cases hon : s.flag (F.grfCtlEn q)
  · rfl
  · rw [hkeep hon]
    rfl

/-- Every write row of GRF_CTL is a write of its word where the register answers. -/
theorem exec_grfCtl_of_reached (hreach : s.reaches (Reg.grfCtl q) = true) (w : Nat) :
    exec (.grafaEnable q w) s = .next (s.writeGrfCtl q (w ||| 1)) ∧
    exec (.grafaDisable q w) s = .next (s.writeGrfCtl q (w &&& 0xFFFFFFFE)) ∧
    exec (.retrain q w) s = .next (s.writeGrfCtl q (w ||| 2)) ∧
    exec (.holdRelWrite q w) s = .next (s.writeGrfCtl q (w ||| 4)) := by
  have hat (f : State → State) : s.atReg (Reg.grfCtl q) f = f s := State.atReg_reached hreach f
  exact ⟨congrArg _ (hat _), congrArg _ (hat _), congrArg _ (hat _), congrArg _ (hat _)⟩

theorem exec_grfCtl_of_unreached (hreach : s.reaches (Reg.grfCtl q) = false) (w : Nat) :
    NoEffect (.grafaEnable q w) s ∧ NoEffect (.grafaDisable q w) s ∧ NoEffect (.retrain q w) s ∧
      NoEffect (.holdRelWrite q w) s := by
  have hat (f : State → State) : s.atReg (Reg.grfCtl q) f = s := State.atReg_unreached hreach f
  exact ⟨congrArg _ (hat _), congrArg _ (hat _), congrArg _ (hat _), congrArg _ (hat _)⟩

end GrfCtl

/-! ### The header window of a lane (R256) -/

theorem State.link_setLink (s : State) (q : Nat) (x : Link) : (s.setLink q x).link q = x := Table.get_put_self _ _ _ _

theorem State.link_fput (s : State) (f : Fld) (n q : Nat) : (s.fput f n).link q = s.link q := by
  simp only [State.link, State.fput, State.wr_links]

/-- Which of the last block headers of a lane were valid, the latest first. -/
def State.window (s : State) (q j : Nat) : List Bool := Table.get [] j (s.link q).heads

/-- Remember the validity of the last block headers of a lane. -/
def State.setWindow (s : State) (q j : Nat) (l : List Bool) : State :=
  s.setLink q { s.link q with heads := Table.put [] l j (s.link q).heads }

theorem State.window_setWindow (s : State) (q j : Nat) (l : List Bool) : (s.setWindow q j l).window q j = l := by
  rw [State.window, State.setWindow, State.link_setLink, Table.get_put_self]

/-- A lane that gains or loses block lock starts its window anew. -/
theorem State.window_laneLock (s : State) (q j : Nat) (b : Bool) : (s.laneLock q j b).window q j = [] := by
  simp only [State.window, State.laneLock, State.link_fput, State.link_setLink, Table.get_drop_self]

/-- A header is one of the two that R256 allows. -/
def validHeader (h : Nat) : Bool := h == dataHeader || h == controlHeader

theorem validHeader_iff {h : Nat} : validHeader h = true ↔ h = 5 ∨ h = 10 := by
  simp only [validHeader, Bool.or_eq_true, beq_iff_eq, dataHeader, controlHeader]

theorem validHeader_eq_false_iff {h : Nat} : validHeader h = false ↔ h ≠ 5 ∧ h ≠ 10 := by
  rw [← Bool.not_eq_true, validHeader_iff, not_or]

/-- The window of a lane once a header has arrived. -/
def State.nextWindow (s : State) (q j h : Nat) : List Bool := (validHeader h :: s.window q j).take 64

theorem State.headerIn_eq (s : State) (q j h : Nat) : s.headerIn q j h =
    bif s.flag (F.grfLaneStsLock (4 * q + j)) then
      bif Nat.ble 16 ((s.nextWindow q j h).filter (fun b => !b)).length then
        (((s.setWindow q j (s.nextWindow q j h)).when (!validHeader h) (·.headerError q j)).laneLock q j false).linkFails q 1 1
      else (s.setWindow q j (s.nextWindow q j h)).when (!validHeader h) (·.headerError q j)
    else bif (s.nextWindow q j h).length == 64 && (s.nextWindow q j h).all (fun b => b) then
      (s.setWindow q j (s.nextWindow q j h)).laneLock q j true
    else s.setWindow q j (s.nextWindow q j h) := by
  simp only [State.headerIn, State.nextWindow, State.setWindow, State.window, validHeader]

section Header

variable {s : State} {q j h : Nat}

theorem State.headerIn_of_locked (hlock : s.flag (F.grfLaneStsLock (4 * q + j)) = true)
    (hfew : ((s.nextWindow q j h).filter (fun b => !b)).length < 16) :
    s.headerIn q j h = (s.setWindow q j (s.nextWindow q j h)).when (!validHeader h) (·.headerError q j) := by
  have hble : Nat.ble 16 ((s.nextWindow q j h).filter (fun b => !b)).length = false := by
    rw [Bool.eq_false_iff, ne_eq, Nat.ble_eq]
    exact Nat.not_le.mpr hfew
  rw [State.headerIn_eq, hlock, hble]
  rfl

theorem State.headerIn_of_lost (hlock : s.flag (F.grfLaneStsLock (4 * q + j)) = true)
    (hmany : 16 ≤ ((s.nextWindow q j h).filter (fun b => !b)).length) : s.headerIn q j h =
      (((s.setWindow q j (s.nextWindow q j h)).when (!validHeader h) (·.headerError q j)).laneLock q j false).linkFails
        q 1 1 := by
  rw [State.headerIn_eq, hlock, Nat.ble_eq.mpr hmany]
  rfl

theorem State.headerIn_of_gained (hfree : s.flag (F.grfLaneStsLock (4 * q + j)) = false)
    (hfull : s.nextWindow q j h = List.replicate 64 true) :
    s.headerIn q j h = (s.setWindow q j (s.nextWindow q j h)).laneLock q j true := by
  rw [State.headerIn_eq, hfree, hfull]
  rfl

/-- A header that arrives on a lane without lock is remembered; 64 consecutive valid ones gain lock. -/
theorem State.headerIn_of_free (hfree : s.flag (F.grfLaneStsLock (4 * q + j)) = false) :
    s.headerIn q j h = (s.setWindow q j (s.nextWindow q j h)).laneLock q j true ∨
    s.headerIn q j h = s.setWindow q j (s.nextWindow q j h) := by
  rw [State.headerIn_eq, hfree]
  cases (s.nextWindow q j h).length == 64 && (s.nextWindow q j h).all (fun b => b)
  · exact .inr rfl
  · exact .inl rfl

end Header

/-! ### Block lock is gained (R256, R266) -/

section LockGained

variable {s : State} {q j : Nat}

/-- RX_LOCK reads all ones when each of its bits does. -/
theorem eq_fifteen_of_bits {n : Nat} (hn : n < 2 ^ 4) (hbits : ∀ k < 4, bitAt n k = true) : n = 15 := by
  refine Nat.eq_of_testBit_eq fun i => ?_
  by_cases hi : i < 4
  · rw [← bitAt, hbits i hi]
    interval_cases i <;> rfl
  · rw [Nat.testBit_lt_two_pow (hn.trans_le (Nat.pow_le_pow_right (by decide) (Nat.not_lt.mp hi))),
      Nat.testBit_lt_two_pow ((by decide : 15 < 2 ^ 4).trans_le (Nat.pow_le_pow_right (by decide) (Nat.not_lt.mp hi)))]

/-- The fields of a link's status words hold state. -/
theorem grfSts_held : ∀ q < 4, Fld.held (F.grfStsState q) = true ∧ Fld.held (F.grfStsRxLock q) = true := by decide +kernel

theorem grfLane_held : ∀ q < 4, ∀ j < 4, Fld.held (F.grfLaneStsLock (4 * q + j)) = true ∧
    implOf (Reg.grfLaneCrc (4 * q + j)) = 2 ^ 32 - 1 := by decide +kernel

theorem eachOf_cons {α : Type} (x : α) (l : List α) (f : α → State → State) (s : State) :
    eachOf (x :: l) f s = eachOf l f (f x s) := rfl

theorem State.nextWindow_valid {h : Nat} (hhead : validHeader h = true) (hwin : ∀ b ∈ s.window q j, b = true) :
    ∀ b ∈ s.nextWindow q j h, b = true := by
  intro b hb
  rcases List.mem_cons.mp (List.mem_of_mem_take hb) with rfl | hold
  · exact hhead
  · exact hwin b hold

/-- On a lane with lock valid headers change no register. -/
theorem State.eachOf_headerIn_of_locked {l : List Nat} (hvalid : ∀ h ∈ l, validHeader h = true)
    (hlock : s.flag (F.grfLaneStsLock (4 * q + j)) = true) (hwin : ∀ b ∈ s.window q j, b = true) :
    (eachOf l (fun h t => t.headerIn q j h) s).regs = s.regs := by
  induction l generalizing s with
  | nil => rfl
  | cons h l ih =>
    obtain ⟨hhead, htail⟩ := List.forall_mem_cons.mp hvalid
    have hnext := State.nextWindow_valid hhead hwin
    have hfew : ((s.nextWindow q j h).filter (fun b => !b)).length < 16 := by
      rw [List.filter_eq_nil_iff.mpr fun b hb => by simp [hnext b hb]]
      decide
    have hstep : s.headerIn q j h = s.setWindow q j (s.nextWindow q j h) := by
      rw [State.headerIn_of_locked hlock hfew, State.when_false (by rw [hhead, Bool.not_true])]
    rw [eachOf_cons, hstep]
    exact ih (s := s.setWindow q j (s.nextWindow q j h)) htail hlock (by rwa [State.window_setWindow])

variable (hq : q < 4) (hj : j < 4)

include hq hj

/-- The lane's LOCK after it gains or loses block lock. -/
theorem State.flag_laneLock_self (s : State) (b : Bool) :
    (s.laneLock q j b).flag (F.grfLaneStsLock (4 * q + j)) = b := by
  have hheld := (grfLane_held q hq j hj).1
  have hne : (F.grfLaneStsLock (4 * q + j)).addr ≠ (F.grfStsRxLock q).addr := by
    simp only [F.grfLaneStsLock, F.grfStsRxLock, Reg.grfLaneSts, Reg.grfSts, quadBase]
    omega
  rw [State.laneLock, State.flag_fput_ne hne, State.setLink_flag, State.flag_fset_self hheld rfl]

/-- A run of valid headers whose length and those already in the window make 64 gains lock. -/
theorem State.eachOf_headerIn_of_free {l : List Nat} {k : Nat} (hk : k < 64) (hvalid : ∀ h ∈ l, validHeader h = true)
    (hfree : s.flag (F.grfLaneStsLock (4 * q + j)) = false) (hwin : List.replicate k true <+: s.window q j)
    (hlen : 64 ≤ k + l.length) :
    ∃ u : State, u.regs = s.regs ∧ (eachOf l (fun h t => t.headerIn q j h) s).regs = (u.laneLock q j true).regs := by
  induction l generalizing s k with
  | nil => exact absurd hlen (Nat.not_le.mpr hk)
  | cons h l ih =>
    obtain ⟨hhead, htail⟩ := List.forall_mem_cons.mp hvalid
    have hnext : List.replicate (k + 1) true <+: s.nextWindow q j h := by
      rw [State.nextWindow, hhead, List.prefix_take_iff, List.replicate_succ, List.length_cons, List.length_replicate]
      exact ⟨List.cons_prefix_cons.mpr ⟨rfl, hwin⟩, hk⟩
    rw [eachOf_cons]
    rcases State.headerIn_of_free hfree (h := h) with hgain | hwait
    · refine ⟨s.setWindow q j (s.nextWindow q j h), rfl, ?_⟩
      rw [hgain]
      refine State.eachOf_headerIn_of_locked htail (State.flag_laneLock_self hq hj _ true) ?_
      rw [State.window_laneLock]
      exact List.forall_mem_nil _
    · have hmore : k + 1 < 64 := by
        refine lt_of_le_of_ne hk fun hfull => ?_
        have hall : s.nextWindow q j h = List.replicate 64 true := by
          rw [hfull] at hnext
          refine (hnext.eq_of_length_le ?_).symm
          rw [List.length_replicate]
          exact List.length_take_le 64 _
        have hlock := congrArg (·.flag (F.grfLaneStsLock (4 * q + j)))
          ((State.headerIn_of_gained hfree hall).symm.trans hwait)
        rw [State.flag_laneLock_self hq hj] at hlock
        exact Bool.false_ne_true (hfree.symm.trans hlock.symm)
      rw [hwait]
      rw [List.length_cons] at hlen
      exact ih (s := s.setWindow q j (s.nextWindow q j h)) hmore htail hfree (by rwa [State.window_setWindow]) (by omega)

omit hq in
/-- A lane's lock changes no other lane's. -/
theorem State.flag_laneLock_other {k : Nat} (hk : k < 4) (hne : k ≠ j) (s : State) (b : Bool) :
    (s.laneLock q j b).flag (F.grfLaneStsLock (4 * q + k)) = s.flag (F.grfLaneStsLock (4 * q + k)) := by
  have hrx : (F.grfLaneStsLock (4 * q + k)).addr ≠ (F.grfStsRxLock q).addr := by
    simp only [F.grfLaneStsLock, F.grfStsRxLock, Reg.grfLaneSts, Reg.grfSts, quadBase]
    omega
  have hlane : (F.grfLaneStsLock (4 * q + k)).addr ≠ (F.grfLaneStsLock (4 * q + j)).addr := by
    simp only [F.grfLaneStsLock, Reg.grfLaneSts, quadBase]
    omega
  rw [State.laneLock, State.flag_fput_ne hrx, State.setLink_flag, State.fset, State.flag_fput_ne hlane]

/-- GRF_STS after a lane gains lock: its bit of RX_LOCK is set and the link stays in its state. -/
theorem State.status_laneLock (s : State) :
    (s.laneLock q j true).fget (F.grfStsState q) = s.fget (F.grfStsState q) ∧
    ∀ k < 4, bitAt ((s.laneLock q j true).fget (F.grfStsRxLock q)) k =
      if k = j then true else bitAt (s.fget (F.grfStsRxLock q)) k := by
  obtain ⟨hstate, hrx⟩ := grfSts_held q hq
  have hlane (g : Fld) (hg : g.addr = Reg.grfSts q) : g.addr ≠ (F.grfLaneStsLock (4 * q + j)).addr := by
    simp only [hg, F.grfLaneStsLock, Reg.grfLaneSts, Reg.grfSts, quadBase]
    omega
  refine ⟨?_, fun k hk => ?_⟩
  · rw [State.laneLock, State.fget_fput_other (f := F.grfStsRxLock q) hstate rfl (.inl (show 0 + 3 ≤ 4 by decide)),
      State.setLink_fget, State.fset, State.fget_fput_ne (hlane _ rfl)]
  · rw [State.laneLock, State.fget_fput_self hrx, State.setLink_fget, State.fset, State.fget_fput_ne (hlane _ rfl), bitAt,
      Nat.testBit_mod_two_pow, testBit_withBits]
    have hwidth : decide (k < (F.grfStsRxLock q).width) = true := decide_eq_true hk
    rcases Nat.lt_trichotomy k j with hlt | rfl | hgt
    · simp [hwidth, hlt, hlt.ne, bitAt]
    · simp [hwidth, bit]
    · simp [hwidth, hgt.ne', hgt.not_gt, bitAt, show ¬ k < j + 1 by omega]

omit hj

/-- Once all four lanes have lock, a link in LOCK is in ALIGN. -/
theorem State.lockedAll_status (s : State) :
    (∀ k, (s.lockedAll q).flag (F.grfLaneStsLock (4 * q + k)) = s.flag (F.grfLaneStsLock (4 * q + k))) ∧
    (s.lockedAll q).fget (F.grfStsRxLock q) = s.fget (F.grfStsRxLock q) ∧
    ((s.lockedAll q).fget (F.grfStsState q) = s.fget (F.grfStsState q) ∨ (s.lockedAll q).fget (F.grfStsState q) = linkAlign) ∧
    (s.fget (F.grfStsState q) = linkLock → s.fget (F.grfStsRxLock q) = 15 →
      (s.lockedAll q).fget (F.grfStsState q) = linkAlign) := by
  obtain ⟨hstate, hrx⟩ := grfSts_held q hq
  have hlane (k : Nat) : (F.grfLaneStsLock (4 * q + k)).addr ≠ (F.grfStsState q).addr := by
    simp only [F.grfLaneStsLock, F.grfStsState, Reg.grfLaneSts, Reg.grfSts, quadBase]
    omega
  cases hall : s.fget (F.grfStsState q) == linkLock && s.fget (F.grfStsRxLock q) == 15
  · have hstay : s.lockedAll q = s := by rw [State.lockedAll, hall, cond_false]
    rw [hstay]
    refine ⟨fun _ => rfl, rfl, .inl rfl, fun hlock hlanes => ?_⟩
    rw [hlock, hlanes] at hall
    exact absurd hall (by decide)
  · have halign : (s.lockedAll q).regs = (s.fput (F.grfStsState q) linkAlign).regs := by
      rw [State.lockedAll, hall, cond_true]
      rfl
    have hnow : (s.lockedAll q).fget (F.grfStsState q) = linkAlign := by
      rw [State.fget_eq_of_regs halign, State.fget_fput_self hstate]
      rfl
    refine ⟨fun k => ?_, ?_, .inr hnow, fun _ _ => hnow⟩
    · rw [State.flag, State.fget_eq_of_regs halign, ← State.flag, State.flag_fput_ne (hlane k)]
    · rw [State.fget_eq_of_regs halign,
        State.fget_fput_other (f := F.grfStsState q) hrx rfl (.inr (show 0 + 3 ≤ 4 by decide))]

/-- In training the lanes below `n` have gained lock, the others have none. -/
structure State.LockedBelow (s : State) (q n : Nat) : Prop where
  locked : ∀ k < n, s.flag (F.grfLaneStsLock (4 * q + k)) = true
  free : ∀ k < 4, n ≤ k → s.flag (F.grfLaneStsLock (4 * q + k)) = false
  shown : ∀ k < n, bitAt (s.fget (F.grfStsRxLock q)) k = true
  state : s.fget (F.grfStsState q) = linkLock ∨ s.fget (F.grfStsState q) = linkAlign

/-- 64 valid headers give the next lane its lock. -/
theorem State.LockedBelow.headersIn {n : Nat} {l : List Nat} (h : s.LockedBelow q n) (hn : n < 4) (hlen : l.length = 64)
    (hvalid : ∀ x ∈ l, validHeader x = true) : (s.headersIn q n l).LockedBelow q (n + 1) ∧
      ((s.headersIn q n l).fget (F.grfStsRxLock q) = 15 → (s.headersIn q n l).fget (F.grfStsState q) = linkAlign) := by
  obtain ⟨u, hu, hrun⟩ := State.eachOf_headerIn_of_free hq hn (k := 0) (by decide) hvalid (h.free n hn le_rfl)
    List.nil_prefix (by omega)
  obtain ⟨hflags, hrx, hstate, halign⟩ := State.lockedAll_status hq (eachOf l (fun x t => t.headerIn q n x) s)
  obtain ⟨hstay, hbits⟩ := State.status_laneLock hq hn u
  rw [← State.headersIn] at hrx hstate halign
  have hflag (k : Nat) : (s.headersIn q n l).flag (F.grfLaneStsLock (4 * q + k)) =
      (u.laneLock q n true).flag (F.grfLaneStsLock (4 * q + k)) :=
    (hflags k).trans (State.flag_eq_of_rd (State.rd_eq_of_regs hrun _))
  have hold (k : Nat) : u.flag (F.grfLaneStsLock (4 * q + k)) = s.flag (F.grfLaneStsLock (4 * q + k)) :=
    State.flag_eq_of_rd (State.rd_eq_of_regs hu _)
  simp only [State.fget_eq_of_regs hrun, hstay, State.fget_eq_of_regs hu] at hrx hstate halign hbits
  refine ⟨⟨fun k hk => ?_, fun k hk hle => ?_, fun k hk => ?_, ?_⟩, fun hfull => ?_⟩
  · rw [hflag]
    rcases Nat.lt_succ_iff_lt_or_eq.mp hk with hlt | rfl
    · rw [State.flag_laneLock_other hn (hlt.trans hn) hlt.ne, hold, h.locked k hlt]
    · exact State.flag_laneLock_self hq hn u true
  · rw [hflag, State.flag_laneLock_other hn hk (Nat.ne_of_gt hle), hold, h.free k hk (Nat.le_of_succ_le hle)]
  · rw [hrx, hbits k (by omega)]
    split
    · rfl
    · exact h.shown k (by omega)
  · rcases hstate with hsame | hnow
    · exact hsame ▸ h.state
    · exact .inr hnow
  · rcases h.state with hlock | hdone
    · exact halign hlock (hrx ▸ hfull)
    · exact hstate.elim (·.trans hdone) id

/-- 64 valid headers on each of the four lanes take a link from LOCK to ALIGN. -/
theorem State.locksAcquired_of_valid {heads : List (List Nat)} (hstate : s.fget (F.grfStsState q) = linkLock)
    (hfree : ∀ j < 4, s.flag (F.grfLaneStsLock (4 * q + j)) = false)
    (hheads : ∀ j < 4, (heads.getD j []).length = 64 ∧ ∀ h ∈ heads.getD j [], validHeader h = true) :
    (s.locksAcquired q heads).fget (F.grfStsState q) = linkAlign ∧
      (s.locksAcquired q heads).fget (F.grfStsRxLock q) = 15 ∧
      ∀ j < 4, (s.locksAcquired q heads).flag (F.grfLaneStsLock (4 * q + j)) = true := by
  have hlane {t : State} {n : Nat} (h : t.LockedBelow q n) (hn : n < 4) :=
    h.headersIn hq hn (hheads n hn).1 (hheads n hn).2
  have hnone : s.LockedBelow q 0 :=
    ⟨fun _ hk => absurd hk (Nat.not_lt_zero _), fun k hk _ => hfree k hk, fun _ hk => absurd hk (Nat.not_lt_zero _), .inl hstate⟩
  have hthree := (hlane (hlane (hlane hnone (by decide)).1 (by decide)).1 (by decide)).1
  obtain ⟨⟨hlocked, -, hshown, -⟩, halign⟩ := hlane hthree (by decide)
  have hfull := eq_fifteen_of_bits (State.fget_lt _ _) hshown
  exact ⟨halign hfull, hfull, hlocked⟩

end LockGained

/-! ### Block lock is lost (R256, R267) -/

section LockLost

variable {s : State} {q j : Nat}

theorem OnlyWords.trans {l : List Nat} {s t u : State} (hst : OnlyWords l s t) (htu : OnlyWords l t u) : OnlyWords l s u :=
  ⟨(congrArg (fun v : State => { v with regs := s.regs }) htu.1).trans hst.1,
    fun a ha => (htu.2 a ha).trans (hst.2 a ha)⟩

/-- An invalid header moves into a window that holds `k` invalid ones in front of valid ones. -/
theorem State.nextWindow_invalid {h k : Nat} {old : List Bool} (hbad : validHeader h = false) (hk : k < 16)
    (hwin : s.window q j = List.replicate k false ++ old) :
    s.nextWindow q j h = List.replicate (k + 1) false ++ old.take (63 - k) := by
  rw [State.nextWindow, hbad, hwin, ← List.cons_append, ← List.replicate_succ, List.take_append, List.length_replicate,
    List.take_of_length_le (by rw [List.length_replicate]; omega), show 64 - (k + 1) = 63 - k by omega]

theorem filter_invalid_length {k : Nat} {old : List Bool} (hold : ∀ b ∈ old, b = true) :
    ((List.replicate k false ++ old).filter (fun b => !b)).length = k := by
  have hnone : old.filter (fun b => !b) = [] := List.filter_eq_nil_iff.mpr fun b hb => by simp [hold b hb]
  rw [List.filter_append, hnone, List.append_nil, List.filter_replicate_of_pos rfl, List.length_replicate]

variable (hq : q < 4) (hj : j < 4)

include hq hj

/-- Sixteen invalid headers within a window of 64 are counted, and the lane loses its lock. -/
theorem State.eachOf_headerIn_of_invalid {l : List Nat} {k : Nat} {old : List Bool} (hold : ∀ b ∈ old, b = true)
    (hk : k < 16) (hlen : k + l.length = 16) (hbad : ∀ h ∈ l, validHeader h = false)
    (hlock : s.flag (F.grfLaneStsLock (4 * q + j)) = true) (hwin : s.window q j = List.replicate k false ++ old) :
    ∃ u : State, eachOf l (fun h t => t.headerIn q j h) s = (u.laneLock q j false).linkFails q 1 1 ∧
      u.rd (Reg.grfLaneCrc (4 * q + j)) = (s.rd (Reg.grfLaneCrc (4 * q + j)) + l.length) % 2 ^ 32 ∧
      OnlyWords [Reg.grfLaneCrc (4 * q + j)] { s with links := u.links } u := by
  induction l generalizing s k old with
  | nil => exact absurd hlen (Nat.ne_of_lt hk)
  | cons h l ih =>
    obtain ⟨hhead, htail⟩ := List.forall_mem_cons.mp hbad
    have hnext := State.nextWindow_invalid hhead hk hwin
    have hrest : ∀ b ∈ old.take (63 - k), b = true := fun b hb => hold b (List.mem_of_mem_take hb)
    have hcount : ((s.nextWindow q j h).filter (fun b => !b)).length = k + 1 := by
      rw [hnext, filter_invalid_length hrest]
    let t := (s.setWindow q j (s.nextWindow q j h)).headerError q j
    have hcrc : t.rd (Reg.grfLaneCrc (4 * q + j)) = (s.rd (Reg.grfLaneCrc (4 * q + j)) + 1) % 2 ^ 32 :=
      (State.rd_wr_full (grfLane_held q hq j hj).2 _ _).trans (Nat.mod_mod _ _)
    have hcounted : (s.setWindow q j (s.nextWindow q j h)).when (!validHeader h) (·.headerError q j) = t :=
      State.when_true (by rw [hhead, Bool.not_false]) _ _
    rw [eachOf_cons]
    rcases Nat.lt_succ_iff_lt_or_eq.mp (Nat.succ_lt_succ hk) with hmore | hlast
    · have hcrclane : (F.grfLaneStsLock (4 * q + j)).addr ≠ Reg.grfLaneCrc (4 * q + j) := by
        simp only [F.grfLaneStsLock, Reg.grfLaneSts, Reg.grfLaneCrc]
        omega
      have hkept : t.flag (F.grfLaneStsLock (4 * q + j)) = true :=
        (State.flag_eq_of_rd (State.rd_wr_ne hcrclane _ _)).trans hlock
      rw [List.length_cons] at hlen
      obtain ⟨u, hrun, hrd, honly⟩ := ih (s := t) hrest hmore (by omega) htail hkept
        ((State.window_setWindow s q j _).trans hnext)
      refine ⟨u, ?_, ?_, (OnlyWords.refl.wr (List.mem_singleton_self _) _).trans honly⟩
      · rw [State.headerIn_of_locked hlock (by omega), hcounted, hrun]
      · rw [hrd, hcrc, List.length_cons, Nat.mod_add_mod]
        congr 1
        omega
    · have hend : l = [] := List.eq_nil_of_length_eq_zero (by rw [List.length_cons] at hlen; omega)
      refine ⟨t, ?_, ?_, OnlyWords.refl.wr (List.mem_singleton_self _) _⟩
      · rw [State.headerIn_of_lost hlock (by omega), hcounted, hend]
        rfl
      · rw [hcrc, hend]
        rfl

/-- On a lane with lock and a window of valid headers, the sixteen invalid ones take its lock. -/
theorem State.headersIn_of_invalid {heads : List Nat} (hlock : s.flag (F.grfLaneStsLock (4 * q + j)) = true)
    (hwin : (s.window q j).all id = true) (hlen : heads.length = 16) (hbad : ∀ h ∈ heads, validHeader h = false) :
    ∃ u : State, s.headersIn q j heads = ((u.laneLock q j false).linkFails q 1 1).lockedAll q ∧
      u.rd (Reg.grfLaneCrc (4 * q + j)) = (s.rd (Reg.grfLaneCrc (4 * q + j)) + 16) % 2 ^ 32 ∧
      OnlyWords [Reg.grfLaneCrc (4 * q + j)] { s with links := u.links } u := by
  obtain ⟨u, hrun, hrd, honly⟩ := State.eachOf_headerIn_of_invalid hq hj (k := 0) (List.all_eq_true.mp hwin) (by decide)
    (by omega) hbad hlock (List.nil_append _).symm
  exact ⟨u, congrArg (·.lockedAll q) hrun, hlen ▸ hrd, honly⟩

end LockLost

/-! ### Timers of a link (R257, R258, R264, R266, R267) -/

section LinkTimers

variable {s : State} {q : Nat}

/-- What the lanes receive reaches the link while their domain is READY. -/
theorem State.onLink_of_ready (hready : s.ready (qDom q 10) = true) (f : State → State) : s.onLink q f = f s :=
  State.atDom_ready hready f

theorem exec_alignDone_of_aligned (hready : s.ready (qDom q 10) = true) (hstate : s.fget (F.grfStsState q) = linkAlign)
    (hsyncs : 2 ≤ (s.link q).syncs) : exec (.alignDone q) s = .next
      (((s.fput (F.grfStsState q) linkIdent).fset (F.grfStsAligned q) true).command q 0x01 []) := by
  refine congrArg Host.Outcome.next ((State.onLink_of_ready hready _).trans ?_)
  rw [State.alignDone, hstate, Nat.ble_eq.mpr hsyncs]
  rfl

/-- A missed SYNC is counted, and the second of a lane takes an UP link down. -/
theorem exec_syncMissed_of_ready (hready : s.ready (qDom q 10) = true) {j n : Nat} {t : State}
    (hn : n = Table.get 0 j (s.link q).missed + 1)
    (ht : t = (s.setLink q { s.link q with missed := Table.put 0 n j (s.link q).missed, syncs := 0 }).grfCount q 6) :
    exec (.syncMissed q j) s = .next (if s.isUp q = true ∧ 2 ≤ n then t.linkDownFrom q 3 else t) := by
  refine congrArg Host.Outcome.next ((State.onLink_of_ready hready _).trans ?_)
  simp only [State.syncMissed, ← hn, ← ht, Bool.cond_eq_ite, Bool.and_eq_true, Nat.ble_eq]

/-- A bad flit is counted, and the eighth of the last 64 takes an UP link down. -/
theorem exec_flitCrcError_of_ready (hready : s.ready (qDom q 10) = true) {idle : Nat} {w : List Bool} {t : State}
    (hw : w = (true :: (List.replicate (Nat.min idle 64) false ++ (s.link q).crcWin)).take 64)
    (ht : t = (s.setLink q { s.link q with crcWin := w }).grfCount q 0) :
    exec (.flitCrcError q idle) s = .next (if s.isUp q = true ∧ 8 ≤ badFlits w then t.linkDownFrom q 4 else t) := by
  refine congrArg Host.Outcome.next ((State.onLink_of_ready hready _).trans ?_)
  simp only [State.flitBad, ← hw, ← ht, Bool.cond_eq_ite, Bool.and_eq_true, Nat.ble_eq]

/-- The training timers act in their own state only. -/
theorem exec_trainingTimeouts (s : State) (q : Nat) :
    exec (.lockTimeout q) s = .next (if s.fget (F.grfStsState q) = linkLock then s.trainFail q 1 else s) ∧
    exec (.alignTimeout q) s = .next (if s.fget (F.grfStsState q) = linkAlign then s.trainFail q 2 else s) := by
  simp only [exec, execLockTimeout, execAlignTimeout, State.when, Bool.cond_eq_ite, beq_iff_eq, and_self]

theorem exec_retryDelayExpire (s : State) (q : Nat) : exec (.retryDelayExpire q) s = .next
    (if s.fget (F.grfStsState q) = linkDown ∧ (s.link q).retry = true then s.startTraining q else s) := by
  simp only [exec, execRetryDelayExpire, State.retryNow, Bool.cond_eq_ite, Bool.and_eq_true, beq_iff_eq]

theorem State.startTraining_of_enabled (hon : s.flag (F.grfCtlEn q) = true) : s.startTraining q =
    (s.fput (F.grfStsState q) linkLock).setLink q { s.link q with retry := false, syncs := 0, missed := [] } := by
  rw [State.startTraining, hon, cond_true]

variable {seq : Nat}

theorem State.cmdTimeout_of_none (hnone : (s.link q).cmds.find? (fun d => d.seq == seq) = none) :
    s.cmdTimeout q seq = s := by rw [State.cmdTimeout, hnone]

variable {c : Cmd} (hcmd : (s.link q).cmds.find? (fun d => d.seq == seq) = some c)

include hcmd

/-- The first three timeouts of a command send it again. -/
theorem State.cmdTimeout_of_resent (hfew : c.resends < 3) : s.cmdTimeout q seq = ((s.setLink q { s.link q with
    cmds := (s.link q).cmds.map (fun d => bif d.seq == seq then { d with resends := d.resends + 1 } else d) }).sendCmd
      q c).grfCount q 3 := by
  simp only [State.cmdTimeout, hcmd, Nat.blt_eq.mpr hfew, cond_true]

/-- The fourth fails the link, or the training that waits for it. -/
theorem State.cmdTimeout_of_last (hmany : 3 ≤ c.resends) :
    s.cmdTimeout q seq = s.linkFails q 5 (if c.op = 1 then 6 else 7) := by
  have hblt : Nat.blt c.resends 3 = false := by
    rw [Bool.eq_false_iff, ne_eq, Nat.blt_eq]
    exact Nat.not_lt.mpr hmany
  simp only [State.cmdTimeout, hcmd, hblt, cond_false]
  simp only [Bool.cond_eq_ite, beq_iff_eq]

end LinkTimers

/-- Settles O46, part by part. -/
theorem grafaLinksTrainAndLeaveUp : Obligations.GrafaLinksTrainAndLeaveUp := by
  refine ⟨fun s q w => ⟨fun hreach => exec_grfCtl_of_reached hreach w, fun hreach => exec_grfCtl_of_unreached hreach w⟩,
    ?_, fun s q hq hready => ⟨?_, exec_alignDone_of_aligned hready, ?_, fun j n t => exec_syncMissed_of_ready hready,
      fun idle w t => exec_flitCrcError_of_ready hready⟩, ?_⟩
  · rintro s u t q w rfl rfl
    exact ⟨State.writeGrfCtl_of_start, State.writeGrfCtl_of_stop, State.writeGrfCtl_of_retrain, State.writeGrfCtl_of_same⟩
  · intro heads hstate hfree hheads
    have hvalid : ∀ j < 4, (heads.getD j []).length = 64 ∧ ∀ h ∈ heads.getD j [], validHeader h = true :=
      fun j hj => ⟨(hheads j hj).1, fun h hh => validHeader_iff.mpr ((hheads j hj).2 h hh)⟩
    exact ⟨_, congrArg Host.Outcome.next (State.onLink_of_ready hready _),
      State.locksAcquired_of_valid hq hstate hfree hvalid⟩
  · intro j heads hj hlock hwin hlen hbad
    obtain ⟨u, hrun, hcrc, honly⟩ := State.headersIn_of_invalid hq hj hlock hwin hlen
      fun h hh => validHeader_eq_false_iff.mpr (hbad h hh)
    exact ⟨u, congrArg Host.Outcome.next ((State.onLink_of_ready hready _).trans hrun), hcrc, honly⟩
  · intro s q
    obtain ⟨hlock, halign⟩ := exec_trainingTimeouts s q
    refine ⟨fun hstate => ?_, fun hother => ?_, fun hstate => ?_, fun hother => ?_, fun hstate hretry => ?_, fun hidle => ?_,
      State.startTraining_of_enabled, fun seq hnone => congrArg Host.Outcome.next (State.cmdTimeout_of_none hnone),
      fun seq c hcmd => ⟨fun hfew => congrArg Host.Outcome.next (State.cmdTimeout_of_resent hcmd hfew),
        fun hmany => congrArg Host.Outcome.next (State.cmdTimeout_of_last hcmd hmany)⟩⟩
    · rw [hlock, if_pos hstate]
    · rw [NoEffect, hlock, if_neg hother]
    · rw [halign, if_pos hstate]
    · rw [NoEffect, halign, if_neg hother]
    · rw [exec_retryDelayExpire, if_pos ⟨hstate, hretry⟩]
    · rw [NoEffect, exec_retryDelayExpire, if_neg]
      rintro ⟨hstate, hretry⟩
      exact hidle.elim (· hstate) fun hno => Bool.false_ne_true (hno.symm.trans hretry)

end Sys2Proof.Machine
end

section
/-! SUPPORT. The light-loss detector (R330, R331) and the collector's status words, and the second statement of
09_ibeth_assembly_grafa_link.md on them. -/

namespace Sys2Proof.Machine

/-! ### A low sample in LIGHT -/

/-- Grafa link 0 in UP with its detectors enabled, and monitor 0 on and in LIGHT. FAB_STS shows one staged commit, where
the collector's record holds none. -/
def staleStaged : State :=
  { regs := [(Reg.fabSts, 2#32), (Reg.grfSts 0, 5#32), (Reg.lldCtl 0, 0x3E80001#32), (Reg.lldMon1 0, 5#32)] }

/-- A first low sample writes no word but the monitor's. -/
theorem staged_lldSample_staleStaged : (staleStaged.lldSample 0 1 0).fget F.fabStsStaged = 1 := by decide +kernel

/-- Changing the collector's record shows anew how many commits it holds. -/
theorem State.staged_onFab (s : State) (f : Fab → Fab) :
    (s.onFab f).fget F.fabStsStaged = (f s.fab).staged.length % 2 ^ 4 := by
  have hheld : Fld.held F.fabStsStaged = true := by decide +kernel
  rw [State.onFab, State.fget_fput_ne (f := F.polStsQueued) (by decide),
    State.fget_fput_other (f := F.fabStsExec) hheld rfl (.inl (by decide)), State.fget_fput_self hheld]
  rfl

/-- Refutes O47: of the collector's status the statement asks nothing. It lets a first low sample in LIGHT show the staged
and running commits anew beside keeping its instant, where the model only keeps the instant; the two differ in a state
whose FAB_STS does not show its own record. -/
theorem not_grafaFlitsAreTaken : ¬ Obligations.GrafaFlitsAreTaken := by
  intro h
  obtain ⟨-, -, hdetector⟩ := h
  obtain ⟨-, htaken⟩ := hdetector staleStaged (staleStaged.lldArm 0) 0 1 0 true false rfl (by decide +kernel)
    (by decide +kernel)
  have hclear : staleStaged.flag (F.lldMon1Blanked 0) = false := by decide +kernel
  have hstate : (staleStaged.lldArm 0).fget (F.lldMon1State 0) = 2 := by decide +kernel
  have hrecord : (staleStaged.lldArm 0).fab.staged = [] := by decide +kernel
  obtain ⟨hlight, -⟩ := htaken (by decide) hclear
  have hshown := staged_lldSample_staleStaged
  rw [hlight hstate, if_pos rfl, State.staged_onFab] at hshown
  exact absurd (hshown.symm.trans (congrArg (fun l => l.length % 2 ^ 4) hrecord)) (by decide)

end Sys2Proof.Machine
end

section
/-! SUPPORT. The cells of a Nitinol slice: what counting a flit or a visit leaves of the Cell Table and the Cell Targets
(R278, R279), since the words that counters, events, Bronze and the Notice Rings write lie below them. -/

namespace Sys2Proof.Machine

section CellWords

/-- From the Cell Table of quadrant `q` on every word reads as before, and the same entries await their rebuild. -/
def CellsSame (q : Nat) (s t : State) : Prop :=
  (∀ a, cellAddr q 0 ≤ a → t.rd a = s.rd a) ∧ (t.nit q).bad = (s.nit q).bad

variable {q : Nat} {z s : State}

theorem CellsSame.refl : CellsSame q s s := ⟨fun _ _ => rfl, rfl⟩

/-- An update of parts that hold neither registers nor slices. -/
theorem CellsSame.of_rest {t : State} (h : CellsSame q z s) (hregs : t.regs = s.regs) (hnits : t.nits = s.nits) :
    CellsSame q z t :=
  ⟨fun a ha => (State.rd_eq_of_regs hregs a).trans (h.1 a ha),
    (congrArg (fun n => (Table.get {} q n : Nit).bad) hnits).trans h.2⟩

theorem CellsSame.wr {a : Nat} (h : CellsSame q z s) (ha : a < cellAddr q 0) (n : Nat) : CellsSame q z (s.wr a n) :=
  ⟨fun b hb => (State.rd_wr_ne (Nat.ne_of_gt (ha.trans_le hb)) s n).trans (h.1 b hb), h.2⟩

theorem CellsSame.cond {b : Bool} {t : State} (hs : CellsSame q z s) (ht : CellsSame q z t) :
    CellsSame q z (bif b then s else t) := by cases b <;> assumption

theorem CellsSame.when {b : Bool} {f : State → State} (hs : CellsSame q z s) (hf : CellsSame q z (f s)) :
    CellsSame q z (s.when b f) := CellsSame.cond hf hs

/-- The Spine's words lie below every Cell Table. -/
theorem lt_cellAddr_of_spine {a : Nat} (ha : a < 0x1000000) : a < cellAddr q 0 := by
  simp only [cellAddr, quadBase]
  omega

/-- A write of a word of the Spine. -/
theorem CellsSame.spine {a : Nat} (h : CellsSame q z s) (ha : a < 0x1000000) (n : Nat) : CellsSame q z (s.wr a n) :=
  h.wr (lt_cellAddr_of_spine ha) n

/-! #### Host memory and the Notice Rings (R232 to R235, R396) -/

theorem CellsSame.outstanding {m : Nat} (h : CellsSame q z s) (hm : m ≤ 10) (write : Bool) :
    CellsSame q z (s.outstanding m write) := by
  refine h.spine ?_ _
  cases write <;> simp only [outField, cond_true, cond_false, F.mtxOutWr, F.mtxOutRd, Reg.mtxOut] <;> omega

theorem CellsSame.request {m : Nat} (h : CellsSame q z s) (hm : m ≤ 10) (o : Out) : CellsSame q z (s.request m o) := by
  have hparked : CellsSame q z { s with parked := s.parked ++ [(m, o)] } := h.of_rest rfl rfl
  have hcounted := CellsSame.when (b := Nat.ble 64 (s.fget (outField m (isHostWrite o)))) (f := (·.cnt (Reg.mtxCnt 2))) hparked
    (hparked.spine (by decide) _)
  unfold State.request State.issueParked
  split
  · exact hcounted
  · exact CellsSame.cond hcounted (((hcounted.of_rest rfl rfl).outstanding hm _).of_rest rfl rfl)

theorem CellsSame.hostBus {m : Nat} (h : CellsSame q z s) (hm : m ≤ 10) (k addr : Nat) (write : Bool) (o : Out) :
    CellsSame q z (s.hostBus k addr m write o) := by
  have hgrant (t : Nat) : CellsSame q z (s.grant m t) := h.of_rest rfl rfl
  have hcnt : CellsSame q z ((s.grant m 15).cnt (Reg.mtxCnt 0)) := (hgrant 15).spine (by decide) _
  have hlogged : CellsSame q z ((s.grant m 15).defAccess (addr % 2 ^ 40) m write false true) := CellsSame.cond hcnt
    ((hcnt.spine (a := Reg.mtxDefLog0) (by decide) _).spine (a := Reg.mtxDefLog1) (by decide) _)
  exact CellsSame.cond ((hgrant _).request hm o) (hlogged.outstanding hm write)

theorem ringMaster_le (r : Nat) : ringMaster r ≤ 10 := by
  simp only [ringMaster, Bool.cond_eq_ite, Nat.blt_eq]
  split_ifs <;> omega

theorem CellsSame.ringIrq (h : CellsSame q z s) (r : Nat) : CellsSame q z (s.ringIrq r) :=
  CellsSame.cond (CellsSame.cond (h.of_rest rfl rfl) (CellsSame.cond (h.of_rest rfl rfl) (h.of_rest rfl rfl))) h

theorem CellsSame.slotWrite (h : CellsSame q z s) (r : Nat) (irq : Bool) : CellsSame q z (s.slotWrite r irq) := by
  unfold State.slotWrite
  split
  · refine CellsSame.cond h (CellsSame.when ?_ (CellsSame.ringIrq ?_ r)) <;>
      exact (h.hostBus (ringMaster_le r) _ _ _ _).of_rest rfl rfl
  · exact h.of_rest rfl rfl

theorem CellsSame.putNotice {k : Nat} (h : CellsSame q z s) (hk : k < 2) (code block ns sec index : Nat) (args : List Nat) :
    CellsSame q z (s.putNotice k code block ns sec index args) := by
  have hhead : Reg.ringHead (noticeRing k) < 0x1000000 := by interval_cases k <;> decide
  refine CellsSame.spine ?_ hhead _
  exact ((h.hostBus (by decide) _ _ _ _).hostBus (by decide) _ _ _ _).of_rest rfl rfl

theorem CellsSame.loseNotice {k : Nat} (h : CellsSame q z s) (hk : k < 2) (code t : Nat) :
    CellsSame q z (s.loseNotice k code t) := by
  have hlost : Reg.ntcLost k < 0x1000000 := by interval_cases k <;> decide
  refine CellsSame.spine (CellsSame.spine (CellsSame.spine ?_ hlost _) (a := Reg.ntcSts) (by decide) _) (a := Reg.ntcSts)
    (by decide) _
  exact h.of_rest rfl rfl

theorem CellsSame.noticeTo {k : Nat} (h : CellsSame q z s) (hk : k < 2) (code block index : Nat) (args : List Nat) :
    CellsSame q z (s.noticeTo k code block index args) := by
  have hsummary : CellsSame q z (s.putSummary k) :=
    (h.putNotice hk _ _ _ _ _ _).spine (a := Reg.ntcSts) (by decide) _
  exact CellsSame.cond h (CellsSame.cond
    (CellsSame.cond ((hsummary.putNotice hk _ _ _ _ _ _).slotWrite _ _) (h.loseNotice hk _ _))
    (CellsSame.cond ((h.putNotice hk _ _ _ _ _ _).slotWrite _ _) (h.loseNotice hk _ _)))

theorem CellsSame.notice (h : CellsSame q z s) (code block index : Nat) (args : List Nat) :
    CellsSame q z (s.notice code block index args) :=
  (h.noticeTo (by decide) _ _ _ _).noticeTo (by decide) _ _ _ _

/-! #### Bronze's input queue (R435, R436) -/

theorem CellsSame.latchOne_overflow (h : CellsSame q z s) : CellsSame q z (s.latchOne 62 2) :=
  ((h.spine (a := Reg.qchFsw1) (by decide) _).spine (a := Reg.qchSrc1 62) (by decide) _).spine (a := Reg.qchSrc1 62)
    (by decide) _

theorem CellsSame.firstUpdate (h : CellsSame q z s) (rs : List (Nat × Nat)) : CellsSame q z (s.firstUpdate rs) := by
  have hmask := (h.spine (a := Reg.qchFirst0) (by decide) (maskOf rs % 2 ^ 32)).spine (a := Reg.qchFirst1) (by decide)
    (maskOf rs / 2 ^ 32)
  have htime := (hmask.spine (a := Reg.qchFirst2) (by decide) (fsNs s.now)).spine (a := Reg.qchFirst3) (by decide)
    (fsSec s.now)
  exact CellsSame.cond h (htime.spine (a := Reg.qchSts) (by decide) _)

theorem CellsSame.brzLose (h : CellsSame q z s) : CellsSame q z s.brzLose := by
  have hcnt := h.spine (a := Reg.brzCnt 2) (by decide) ((s.rd (Reg.brzCnt 2) + 1) % 2 ^ 32)
  exact hcnt.of_rest rfl rfl

theorem CellsSame.driveFault (h : CellsSame q z s) : CellsSame q z s.driveFault := by
  have hfault : CellsSame q z (s.fset F.qchStsFault s.faultCond) := h.spine (a := Reg.qchSts) (by decide) _
  exact hfault.of_rest rfl rfl

theorem CellsSame.brzOverflow (h : CellsSame q z s) : CellsSame q z s.brzOverflow := by
  have hlatched := (h.latchOne_overflow.firstUpdate [(62, 2)]).brzLose.driveFault
  exact CellsSame.cond h.latchOne_overflow (CellsSame.when hlatched (hlatched.notice _ _ _ _))

/-- An event of the quadrant that reaches Bronze (Table 16.2). -/
theorem CellsSame.brzEvent {code : Nat} (h : CellsSame q z s) (hcode : code < quadCode (q + 1)) (block index arg0 arg1 : Nat) :
    CellsSame q z (s.brzEvent code block index arg0 arg1) := by
  have hlim : Reg.brzLim code < cellAddr q 0 := by
    simp only [Reg.brzLim, cellAddr, quadBase, quadCode] at hcode ⊢
    omega
  have hsupp : CellsSame q z (s.suppress code) :=
    CellsSame.spine (CellsSame.wr (CellsSame.when h (h.of_rest rfl rfl)) hlim _) (a := Reg.brzCnt 1) (by decide) _
  refine CellsSame.cond hsupp (CellsSame.cond h.brzLose.brzOverflow ?_)
  exact h.of_rest rfl rfl

/-! #### Events and counters of the quadrant (R18, R47, R432) -/

theorem CellsSame.quadEvt {evt code : Nat} (h : CellsSame q z s) (hevt : evt < cellAddr q 0) (hcode : code < quadCode (q + 1))
    (en j block index arg0 arg1 : Nat) : CellsSame q z (s.quadEvt q evt en j code block index arg0 arg1) := by
  have hset : CellsSame q z (s.orw evt (2 ^ j)) := h.wr hevt _
  have hrecord := hset.brzEvent hcode block index arg0 arg1
  exact CellsSame.cond hset (CellsSame.when hrecord (hrecord.notice _ _ _ _))

/-- The half-range event of a counter of the link or the slice of quadrant `q`. -/
theorem CellsSame.halfRange {x : HalfRange} (h : CellsSame q z s) (hx : x = .grf q ∨ x = .nit q) :
    CellsSame q z (s.halfRange x) := by
  refine CellsSame.cond ?_ (h.of_rest rfl rfl)
  rcases hx with rfl | rfl <;> refine h.quadEvt ?_ ?_ _ _ _ _ _ _ <;>
    simp only [Reg.grfEvt, Reg.nitEvt, cellAddr, quadBase, quadCode] <;> omega

theorem CellsSame.grfCountBy {n : Nat} (h : CellsSame q z s) (hn : n < 11) (k : Nat) : CellsSame q z (s.grfCountBy q n k) := by
  have hcnt := h.wr (a := Reg.grfCnt q n) (by simp only [Reg.grfCnt, cellAddr]; omega) ((s.rd (Reg.grfCnt q n) + k) % 2 ^ 32)
  exact CellsSame.when hcnt (hcnt.halfRange (.inl rfl))

theorem CellsSame.nitCount {n : Nat} (h : CellsSame q z s) (hn : n < 32) : CellsSame q z (s.nitCount q n) := by
  have hcnt : CellsSame q z (s.cnt (Reg.nitCnt q n)) := h.wr (by simp only [Reg.nitCnt, cellAddr]; omega) _
  exact CellsSame.when hcnt (hcnt.halfRange (.inr rfl))

/-! #### The words of a visit (R281, R282) -/

theorem State.nit_setNit (s : State) (q : Nat) (x : Nit) : (s.setNit q x).nit q = x := Table.get_put_self _ _ _ _

theorem CellsSame.sendFlit (h : CellsSame q z s) (type seq arg : Nat) (payload : List Nat) :
    CellsSame q z (s.sendFlit q type seq arg payload) := h.of_rest rfl rfl

/-- Counting the flits that did not arrive leaves the cells alone. -/
theorem CellsSame.countMissing (h : CellsSame q z s) : CellsSame q z (s.countMissing q) := by
  unfold State.countMissing
  split
  · exact h
  · have hcnt (k : Nat) : CellsSame q z (s.grfCountBy q 10 k) := h.grfCountBy (by decide) k
    refine ⟨(hcnt _).1, ?_⟩
    rw [State.nit_setNit]
    exact h.2

/-- What the hold scan sends for a word depends on the cells alone. -/
theorem State.holdWord_of_cellsSame (h : CellsSame q z s) (pair w : Nat) : s.holdWord q pair w = z.holdWord q pair w := by
  have hcell (c : Nat) : s.rd (cellAddr q c) = z.rd (cellAddr q c) := h.1 _ (by simp only [cellAddr]; omega)
  have htarget (c : Nat) : s.rd (targetAddr q c) = z.rd (targetAddr q c) :=
    h.1 _ (by simp only [cellAddr, targetAddr]; omega)
  simp only [State.holdWord, State.holdWrites, State.targeted, State.fget, Cell.state, Cell.drive, hcell, htarget, h.2]

end CellWords

/-- Two folds agree whose turns agree where what the start has and every turn keeps holds. -/
theorem eachOf_congr_of_invariant {α : Type} {P : State → Prop} {f g : α → State → State} {l : List α} {s : State}
    (hs : P s) (hkeep : ∀ x t, P t → P (f x t)) (hsame : ∀ x t, P t → f x t = g x t) : eachOf l f s = eachOf l g s := by
  induction l generalizing s with
  | nil => rfl
  | cons x l ih => rw [eachOf_cons, eachOf_cons, ← hsame x s hs, ih (hkeep x s hs)]

end Sys2Proof.Machine
end

section
/-! SUPPORT. The commands of a Nitinol slice (R261, R274, R275, R281, R286, R288, R293, R294, R309): landing rounds and
samples, the visit of the hold scan, lanes and cell commands, and a statement of 10_nitinol_servo.md on them. -/

namespace Sys2Proof.Machine

/-! ### Landing rounds (R261, R293, R294, R309) -/

section Rounds

variable {s l u t : State} {q a i : Nat} {late lost : List Nat}

theorem State.landingRound_of_down (hdown : s.isUp q = false) : s.landingRound q a late lost = s := by
  rw [State.landingRound, hdown, Bool.not_false, cond_true]

theorem State.landingRound_of_unbound (hup : s.isUp q = true) (hnone : s.fget (F.nitStsBound q) = 0) :
    s.landingRound q a late lost = s.serveWait q := by
  rw [State.landingRound, hup, hnone]
  rfl

theorem State.landingRound_of_bound {r : List Nat × State} (hup : s.isUp q = true) (hbound : s.fget (F.nitStsBound q) ≠ 0)
    (hl : l = eachOf lost (fun i v => v.loseChannel q i) s)
    (hu : u = l.setNit q { l.nit q with dropCh := late ++ (l.nit q).dropCh }) (hr : r = u.roundWords q a)
    (ht : t = r.2.sendRound q r.1) : s.landingRound q a late lost =
      (t.setNit q { t.nit q with grid := ((t.nit q).grid + 1) % 128, dropCh := [] }).serveWait q := by
  simp only [State.landingRound, hup, Bool.not_true, beq_eq_false_iff_ne.mpr hbound, cond_false, ← hl, ← hu, ← hr, ← ht]

/-- The channel that a quadrant calls `i`, where its word cannot be read. -/
theorem State.loseChannel_of_bound (hi : i < 256) (hbound : s.bound (256 * q + i) = true)
    (ht : t = s.interruptCh (256 * q + i)) : s.loseChannel q i =
      t.setNit q { t.nit q with requeue := (t.nit q).requeue ++ [s.fget (F.nitCh0Cell (256 * q + i))] } := by
  have hble : Nat.ble 256 i = false := by
    rw [Bool.eq_false_iff, ne_eq, Nat.ble_eq]
    exact Nat.not_le.mpr hi
  simp only [State.loseChannel, hble, hbound, Bool.not_true, Bool.or_self, cond_false, ← ht]

theorem State.loseChannel_of_free (hfree : s.bound (256 * q + i) = false) : s.loseChannel q i = s := by
  rw [State.loseChannel, hfree, Bool.not_false, Bool.or_true, cond_true]

theorem exec_landingAttemptTimeout (s : State) (q i : Nat) : exec (.landingAttemptTimeout q i) s = .next
    (bif !s.timedOut (256 * q + i) then s
    else bif s.flag (F.nitCh0Attempt (256 * q + i)) then
      s.failLanding q (256 * q + i) (s.fget (F.nitCh0Cell (256 * q + i)))
    else s.retryLanding (256 * q + i)) := rfl

end Rounds

/-! ### Landing samples (R288, R292) -/

section Samples

variable {s u : State} {q i round w j : Nat} (hu : u = s.tailSample q (256 * q + i) round (bitsOf w 14 2))

include hu

theorem State.landSense_of_unbound (hfree : u.bound (256 * q + i) = false) : s.landSense q i round w = u := by
  simp only [State.landSense, ← hu, hfree, Bool.not_false, cond_true]

variable (hj : j = (round + 128 - (u.land (256 * q + i)).grid0) % 128) (hbound : u.bound (256 * q + i) = true)

include hj hbound

theorem State.landSense_of_lostBind (hflag : bitsOf w 14 2 = 0) (hround : j < (u.land (256 * q + i)).k) :
    s.landSense q i round w = u.rebind q i := by
  rw [hflag] at hu
  simp only [State.landSense, hflag, ← hu, hbound, ← hj, Bool.not_true, beq_self_eq_true, cond_false, cond_true]
  exact State.when_true (Nat.blt_eq.mpr hround) u _

/-- A flag 00 of a round that the attempt has not sent is of an ended landing (log entry 118). -/
theorem State.landSense_of_ended (hflag : bitsOf w 14 2 = 0) (hround : (u.land (256 * q + i)).k ≤ j) :
    s.landSense q i round w = u := by
  have hblt : Nat.blt j (u.land (256 * q + i)).k = false := by
    rw [Bool.eq_false_iff, ne_eq, Nat.blt_eq]
    exact Nat.not_lt.mpr hround
  rw [hflag] at hu
  simp only [State.landSense, hflag, ← hu, hbound, ← hj, Bool.not_true, beq_self_eq_true, cond_false, cond_true]
  exact State.when_false hblt u _

theorem State.landSense_of_sample (hflag : bitsOf w 14 2 ≠ 0) : s.landSense q i round w =
    u.landSample q (256 * q + i) j (bitsOf w 14 2) (bitsOf w 0 14) := by
  simp only [State.landSense, ← hu, hbound, ← hj, Bool.not_true, beq_eq_false_iff_ne.mpr hflag, cond_false]

end Samples

/-! ### The visit of a pair (R281, R282, R307) -/

section Visits

variable {s u v g t : State} {q pair : Nat} {bad met : List Nat} {lat : Bool}

/-- The 37 write flits of a visit, whose words may look at the block as each flit leaves. -/
def State.visitFlits (s : State) (q pair : Nat) (word : State → Nat → Nat) : State :=
  forUpTo 37 (fun b r => r.sendFlit q 0x12 0 (pair + 64 * (28 * b))
    (flitWords ((List.range 28).map (fun n => word r (28 * b + n))))) s

/-- The words of a visit stay what they were when its flits began to leave. -/
theorem State.visitFlits_of_cellsSame (h : CellsSame q g s) (pair : Nat) :
    s.visitFlits q pair (fun r w => r.holdWord q pair w) = s.visitFlits q pair (fun _ w => g.holdWord q pair w) := by
  unfold State.visitFlits forUpTo
  refine eachOf_congr_of_invariant (P := CellsSame q g) h (fun b r hr => hr.sendFlit _ _ _ _) fun b r hr => ?_
  simp only [State.holdWord_of_cellsSame hr]

theorem State.holdVisit_of_idle (h : s.flag (F.nitStsRun q) = false ∨ s.isUp q = false) : s.holdVisit q pair bad = s := by
  have hidle : (!s.flag (F.nitStsRun q) || !s.isUp q) = true := by
    rwa [Bool.or_eq_true, Bool.not_eq_true', Bool.not_eq_true']
  rw [State.holdVisit, hidle, cond_true]

theorem State.holdVisit_of_running (hrun : s.flag (F.nitStsRun q) = true) (hup : s.isUp q = true)
    (hu : u = s.when (pair == 0) (fun t => t.fset (F.nitStsSlow q) (t.slowWanted q)))
    (hlat : lat = (u.nit q).bad.any (fun c => c / 1024 == pair))
    (hmet : met = (u.spoiltCells q).filter (fun c => c / 1024 == pair))
    (hv : v = (u.cellsRead q met).unreadable q pair (bad ++ met.filter (fun c => !u.wordsReadable (cellAddr q c) 2)))
    (hg : g = v.firstDrives q pair)
    (ht : t = ((g.countMissing q).nitCount q 10).visitFlits q pair (fun r w => r.holdWord q pair w)) :
    s.holdVisit q pair bad = (t.sendFlit q 0x13 0 (pair + 64 * bit lat) []).stepPair q pair lat := by
  rw [State.visitFlits_of_cellsSame (CellsSame.refl.countMissing.nitCount (by decide))] at ht
  simp only [State.holdVisit, hrun, hup, Bool.not_true, Bool.or_self, cond_false, ← hu, ← hlat, ← hmet, ← hv, ← hg, ht,
    State.visitFlits]

end Visits

/-! ### Lanes (R274, R275) -/

section Lanes

variable {s t : State} {q lane kind item : Nat} {inTime pass : Bool}

/-- A mismatch is counted, and a word or update without a second result in time is dropped. -/
def State.mismatched (s : State) (q kind item : Nat) (inTime : Bool) : State :=
  ((s.nitCount q 15).when (!inTime && kind == 0)
      (fun u => u.setNit q { u.nit q with dropCh := item :: (u.nit q).dropCh })).when (!inTime && kind == 1)
    (fun u => (u.setNit q { u.nit q with dropCell := item :: (u.nit q).dropCell }).nitCount q 16)

theorem State.lockstep_of_retired (h : bitAt (s.retired q) lane = true ∨ 64 ≤ lane) :
    s.lockstep q lane kind item inTime = s := by
  have hout : (bitAt (s.retired q) lane || Nat.ble 64 lane) = true := by rwa [Bool.or_eq_true, Nat.ble_eq]
  rw [State.lockstep, hout, cond_true]

/-- A lane in service retires at its mismatch. -/
theorem State.lockstep_of_service (hin : bitAt (s.retired q) lane = false) (hlane : lane < 64) :
    s.lockstep q lane kind item inTime = ((((s.mismatched q kind item inTime).nitEvent q 3 0 0
      (popCount (s.retired q) laneCount + 1)).corrected (8 * q + 7) 2).applyLanes q (s.retired q ||| 2 ^ lane)) := by
  have hble : Nat.ble 64 lane = false := by
    rw [Bool.eq_false_iff, ne_eq, Nat.ble_eq]
    exact Nat.not_le.mpr hlane
  simp only [State.lockstep, hin, hble, Bool.or_self, cond_false, State.mismatched]

theorem State.laneTested_of_idle (hidle : bitAt (s.testing q) lane = false) : s.laneTested q lane pass = s := by
  rw [State.laneTested, hidle, Bool.not_false, cond_true]

/-- The end of a lane's test retires the lane or returns it to service. -/
theorem State.laneTested_of_testing (htest : bitAt (s.testing q) lane = true)
    (ht : t = s.clr (if lane < 32 then Reg.nitLaneTest0 q else Reg.nitLaneTest1 q) (2 ^ (lane % 32))) :
    s.laneTested q lane pass = t.applyLanes q
      (if pass then t.retired q &&& ((2 ^ 64 - 1) ^^^ 2 ^ lane) else t.retired q ||| 2 ^ lane) := by
  have hclr : s.clr (bif Nat.blt lane 32 then Reg.nitLaneTest0 q else Reg.nitLaneTest1 q) (2 ^ (lane % 32)) = t := by
    rw [ht, Bool.cond_eq_ite]
    simp only [Nat.blt_eq]
  simp only [State.laneTested, htest, Bool.not_true, cond_false, hclr]
  cases pass <;> rfl

theorem exec_laneSelfTest_of_reached (hreach : s.reaches (Reg.nitLaneTest0 q) = true) (h w : Nat) :
    exec (.laneSelfTest q h w) s = .next
      (s.orw (if h = 0 then Reg.nitLaneTest0 q else Reg.nitLaneTest1 q) (w % 2 ^ 32)) := by
  refine congrArg Host.Outcome.next ((State.atReg_reached hreach _).trans ?_)
  simp only [Bool.cond_eq_ite, beq_iff_eq]

end Lanes

/-! ### Cell commands (R286) -/

section CellCommands

variable {s r t : State} {q w c : Nat}

/-- Every cell command is a write of NIT_CELL_CMD where the register answers. -/
theorem exec_cellCommand_of_reached (hreach : s.reaches (Reg.nitCellCmd q) = true) (c : Nat) :
    exec (.cellRead q c) s = .next (s.writeCellCmd q (c % 65536 + 2 ^ 31)) ∧
    exec (.cellPark q c) s = .next (s.writeCellCmd q (c % 65536 + 2 ^ 16 + 2 ^ 31)) ∧
    exec (.unparkBar q c) s = .next (s.writeCellCmd q (c % 65536 + 2 ^ 17 + 2 ^ 31)) ∧
    exec (.unparkCross q c) s = .next (s.writeCellCmd q (c % 65536 + 3 * 2 ^ 16 + 2 ^ 31)) := by
  have hat (f : State → State) : s.atReg (Reg.nitCellCmd q) f = f s := State.atReg_reached hreach f
  exact ⟨congrArg _ (hat _), congrArg _ (hat _), congrArg _ (hat _), congrArg _ (hat _)⟩

theorem exec_cellCommand_of_unreached (hreach : s.reaches (Reg.nitCellCmd q) = false) (c : Nat) :
    NoEffect (.cellRead q c) s ∧ NoEffect (.cellPark q c) s ∧ NoEffect (.unparkBar q c) s ∧ NoEffect (.unparkCross q c) s := by
  have hat (f : State → State) : s.atReg (Reg.nitCellCmd q) f = s := State.atReg_unreached hreach f
  exact ⟨congrArg _ (hat _), congrArg _ (hat _), congrArg _ (hat _), congrArg _ (hat _)⟩

theorem State.writeCellCmd_of_busy (hbusy : s.flag (F.nitCellCmdGoBusy q) = true) : s.writeCellCmd q w = s := by
  rw [State.writeCellCmd, hbusy, cond_true]

section Idle

variable (hidle : s.flag (F.nitCellCmdGoBusy q) = false) (ht : t = s.store (Reg.nitCellCmd q) w)

include hidle ht

theorem State.writeCellCmd_of_noGo (hgo : bitAt w 31 = false) : s.writeCellCmd q w = t := by
  simp only [State.writeCellCmd, hidle, ← ht, hgo, Bool.not_false, cond_false, cond_true]

variable (hgo : bitAt w 31 = true)

include hgo

/-- READ copies the entry of the cell. -/
theorem State.writeCellCmd_of_read (hc : c = bitsOf w 0 16) (hop : bitsOf w 16 2 = 0) : s.writeCellCmd q w =
    ((t.wr (Reg.nitCellData0 q) (t.rd (cellAddr q c))).wr (Reg.nitCellData1 q) (t.rd (cellAddr q c + 4))).cellDone q 0 := by
  simp only [State.writeCellCmd, hidle, ← ht, ← hc, hgo, hop, Bool.not_true, beq_self_eq_true, cond_false, cond_true]

/-- While the slice is off, any other operation answers OFF. -/
theorem State.writeCellCmd_of_off (hop : bitsOf w 16 2 ≠ 0) (hoff : t.flag (F.nitCtlEn q) = false) :
    s.writeCellCmd q w = t.cellDone q 3 := by
  simp only [State.writeCellCmd, hidle, ← ht, hgo, beq_eq_false_iff_ne.mpr hop, hoff, Bool.not_true, Bool.not_false,
    cond_false, cond_true]

variable (hc : c = bitsOf w 0 16) (hon : t.flag (F.nitCtlEn q) = true)

include hc hon

theorem State.writeCellCmd_of_park (hop : bitsOf w 16 2 = 1) : s.writeCellCmd q w = (t.hostPark q c).cellDone q 0 := by
  simp only [State.writeCellCmd, hidle, ← ht, ← hc, hgo, hop, hon, Bool.not_true, Nat.reduceBEq, cond_false]

theorem State.writeCellCmd_of_unpark (hop : 2 ≤ bitsOf w 16 2) :
    s.writeCellCmd q w = t.unpark q c (bitsOf w 16 2 - 2) := by
  have hlt : bitsOf w 16 2 < 2 ^ 2 := bitsOf_lt w 16 2
  rcases (by omega : bitsOf w 16 2 = 2 ∨ bitsOf w 16 2 = 3) with hop | hop <;>
    simp only [State.writeCellCmd, hidle, ← ht, ← hc, hgo, hop, hon, Bool.not_true, Nat.reduceBEq, cond_false, Nat.reduceSub]

end Idle

theorem State.unpark_of_working (hstate : t.fget (Cell.state q c) ≠ cellParked) (d : Nat) :
    t.unpark q c d = t.cellDone q 1 := by
  rw [State.unpark, bne, beq_eq_false_iff_ne.mpr hstate, Bool.not_false, cond_true]

theorem State.unpark_of_untargeted (hstate : t.fget (Cell.state q c) = cellParked) (hnone : t.targeted q c = false)
    (d : Nat) : t.unpark q c d = t.cellDone q 2 := by
  rw [State.unpark, hstate, hnone]
  rfl

/-- A parked cell lands, at once in operation, else with the re-landings after the reacquisition (log entry 121). -/
theorem State.unpark_of_targeted (hstate : t.fget (Cell.state q c) = cellParked) (htarget : t.targeted q c = true)
    (hr : r = t.dropWaiting q c rPreempted) (d : Nat) : t.unpark q c d =
      (if r.flag (F.nitStsRun q) = true then r.bindAll q [(0, c, d)] else
        r.setNit q { r.nit q with wait := (r.nit q).wait ++ [(0, c, d)] }).cellDone q 0 := by
  simp only [State.unpark, hstate, htarget, bne_self_eq_false, Bool.not_true, cond_false, ← hr]
  cases r.flag (F.nitStsRun q) <;> rfl

end CellCommands

/-- Settles O49, command by command. -/
theorem nitinolSlicesServeCells : Obligations.NitinolSlicesServeCells := by
  refine ⟨fun s q a late lost => ⟨?_, ?_, ?_⟩, fun s t q i ht => ?_, fun s q base round fcnt words => ⟨rfl, ?_⟩,
    fun s q i => ?_, fun s u v g t q pair bad met lat => ⟨?_, ?_⟩, fun s q pair base fcnt words => ⟨rfl, rfl⟩, ?_,
    fun s q h w => ⟨fun hreach => exec_laneSelfTest_of_reached hreach h w, fun hreach => ?_⟩,
    fun s q c => ⟨fun hreach => exec_cellCommand_of_reached hreach c, fun hreach => exec_cellCommand_of_unreached hreach c⟩,
    fun s t q w c ht hc => ⟨State.writeCellCmd_of_busy, fun hidle => State.writeCellCmd_of_noGo hidle ht,
      fun hidle hgo => ⟨State.writeCellCmd_of_read hidle ht hgo hc, State.writeCellCmd_of_off hidle ht hgo,
        fun hop hon => State.writeCellCmd_of_park hidle ht hgo hc hon hop,
        fun hop hon => State.writeCellCmd_of_unpark hidle ht hgo hc hon hop, fun d hstate => State.unpark_of_working hstate d,
        fun d hstate hnone => State.unpark_of_untargeted hstate hnone d,
        fun d r hstate htarget hr => State.unpark_of_targeted hstate htarget hr d⟩⟩⟩
  · exact fun hbound hup l u r t hl hu hr ht =>
      congrArg Host.Outcome.next (State.landingRound_of_bound hup hbound hl hu hr ht)
  · exact fun hnone hup => congrArg Host.Outcome.next (State.landingRound_of_unbound hup hnone)
  · exact fun hdown => congrArg Host.Outcome.next (State.landingRound_of_down hdown)
  · exact ⟨fun hi hbound => State.loseChannel_of_bound hi hbound ht, State.loseChannel_of_free⟩
  · exact fun i w u j hu hj => ⟨State.landSense_of_unbound hu, State.landSense_of_lostBind hu hj,
      State.landSense_of_ended hu hj, State.landSense_of_sample hu hj⟩
  · rw [NoEffect, exec_landingAttemptTimeout]
    refine ⟨fun hearly => ?_, fun hout hfirst => ?_, fun hout hsecond => ?_⟩
    · rw [hearly, Bool.not_false, cond_true]
    · rw [hout, hfirst, Bool.not_true, cond_false, cond_false]
    · rw [hout, hsecond, Bool.not_true, cond_false, cond_true]
  · exact fun hrun hup hu hlat hmet hv hg ht => congrArg (fun x : State => Host.Outcome.next x.reportReads)
      (State.holdVisit_of_running hrun hup hu hlat hmet hv hg ht)
  · exact fun hidle => congrArg (fun x : State => Host.Outcome.next x.reportReads) (State.holdVisit_of_idle hidle)
  · refine fun s q lane kind item inTime pass => ⟨fun hout => congrArg Host.Outcome.next (State.lockstep_of_retired hout),
      fun hin hlane u hsecond hword hupdate hkind => ?_,
      fun hidle => congrArg Host.Outcome.next (State.laneTested_of_idle hidle),
      fun htest t ht => congrArg Host.Outcome.next (State.laneTested_of_testing htest ht)⟩
    have hu : u = s.mismatched q kind item inTime := by
      cases inTime with
      | true => exact hsecond rfl
      | false =>
        rcases hkind with hno | rfl | rfl
        · exact absurd hno Bool.false_ne_true
        · exact hword rfl rfl
        · exact hupdate rfl rfl
    rw [hu]
    exact congrArg Host.Outcome.next (State.lockstep_of_service hin hlane)
  · exact congrArg Host.Outcome.next (State.atReg_unreached hreach _)

end Sys2Proof.Machine
end

section
/-! SUPPORT. The hold law (R282, R284, R285): what a sense word leaves of its cell's entry, and a statement of
10_nitinol_servo.md on one cell. -/

namespace Sys2Proof.Machine

/-! ### The entry of a cell (R278) -/

section CellEntry

variable {q c lo w lo' w' : Nat}

/-- The Cell Table lies in a table memory of its quadrant's window, whose words hold every bit. -/
theorem implOf_cellTable {a : Nat} (hq : q < 4) (hlow : cellAddr q 0 ≤ a) (hhigh : a < cellAddr q 65536) :
    implOf a = 2 ^ 32 - 1 := by
  simp only [cellAddr, quadBase] at hlow hhigh
  have hspine : Nat.blt a 0x1000000 = false := by rw [Bool.eq_false_iff, ne_eq, Nat.blt_eq]; omega
  have hwindow : Nat.blt a 0x3000000 = true := by rw [Nat.blt_eq]; omega
  have hfrom : Nat.ble 0x400000 (windowOff a) = true := by rw [Nat.ble_eq, windowOff]; omega
  have hto : Nat.blt (windowOff a) 0x4C0000 = true := by rw [Nat.blt_eq, windowOff]; omega
  have htable : tableWord a = true := by
    simp only [tableWord, windowTable, hspine, hwindow, hfrom, hto, cond_false, Bool.and_self, Bool.or_true, Bool.true_or]
  rw [implOf, htable]
  rfl

theorem implOf_cellAddr (hq : q < 4) (hc : c < 65536) : implOf (cellAddr q c) = 2 ^ 32 - 1 :=
  implOf_cellTable hq (by simp only [cellAddr]; omega) (by simp only [cellAddr]; omega)

theorem implOf_cellAddr_add_four (hq : q < 4) (hc : c < 65536) : implOf (cellAddr q c + 4) = 2 ^ 32 - 1 :=
  implOf_cellTable hq (by simp only [cellAddr]; omega) (by simp only [cellAddr]; omega)

theorem clip_held (hq : q < 4) (hc : c < 65536) : Fld.held (Cell.clip q c) = true :=
  held_of_low (implOf_cellAddr_add_four hq hc) (by omega)

theorem alrm_held (hq : q < 4) (hc : c < 65536) : Fld.held (Cell.alrm q c) = true :=
  held_of_low (implOf_cellAddr_add_four hq hc) (by omega)

/-- A cell's targets lie in a word of their own. -/
theorem targetAddr_notMem (hc : c < 65536) : targetAddr q c ∉ [cellAddr q c, cellAddr q c + 4] := by
  simp only [List.mem_cons, List.not_mem_nil, or_false, targetAddr, cellAddr]
  omega

/-- The registers of a slice lie below its Cell Table. -/
theorem notMem_of_lt_cellAddr {a : Nat} (ha : a < cellAddr q 0) : a ∉ [cellAddr q c, cellAddr q c + 4] := by
  simp only [cellAddr] at ha
  simp only [List.mem_cons, List.not_mem_nil, or_false, cellAddr]
  omega

/-- A change of the entry's first word is one of the entry. -/
theorem OnlyWords.entry {s t : State} (h : OnlyWords [cellAddr q c] s t) : OnlyWords [cellAddr q c, cellAddr q c + 4] s t :=
  h.mono fun _ ha => List.mem_cons.mpr (.inl (List.mem_singleton.mp ha))

theorem cellAddr_add_four_notMem : cellAddr q c + 4 ∉ [cellAddr q c] := by simp

/-- A write to the second word of the entry leaves the fields of the first alone. -/
theorem State.fget_cellAddr_fput_add_four (s : State) (n : Nat) :
    (s.fput ⟨cellAddr q c + 4, lo, w⟩ n).fget ⟨cellAddr q c, lo', w'⟩ = s.fget ⟨cellAddr q c, lo', w'⟩ :=
  State.fget_fput_ne (f := ⟨cellAddr q c + 4, lo, w⟩) (g := ⟨cellAddr q c, lo', w'⟩) (by simp) s n

end CellEntry

/-! ### Recording a sense (R284) -/

section TakeSense

variable {s : State} {q c code g lo n : Nat}

/-- A valid sense changes no word but the entry's first. -/
theorem State.takeSense_onlyWords : OnlyWords [cellAddr q c] s (s.takeSense q c code g) :=
  have hsense : OnlyWords [cellAddr q c] s (s.fput (Cell.sense q c) code) :=
    OnlyWords.refl.fput (List.mem_singleton_self _) _
  hsense.when (hsense.fset (List.mem_singleton_self _) _)

/-- The entry's second word is as before. -/
theorem State.fget_takeSense_add_four :
    (s.takeSense q c code g).fget ⟨cellAddr q c + 4, lo, n⟩ = s.fget ⟨cellAddr q c + 4, lo, n⟩ :=
  State.takeSense_onlyWords.fget cellAddr_add_four_notMem

variable (hentry : implOf (cellAddr q c) = 2 ^ 32 - 1)

include hentry

/-- DRIVE and STATE, the fields below SENSE, are as before. -/
theorem State.fget_takeSense_low (hlo : lo + n ≤ 16) :
    (s.takeSense q c code g).fget ⟨cellAddr q c, lo, n⟩ = s.fget ⟨cellAddr q c, lo, n⟩ := by
  unfold State.takeSense State.when
  cases !s.inCal q g && !s.inCal q (g + 32) <;>
    simp (disch := omega) only [cond_false, cond_true, State.fset, Cell.sense, Cell.stale,
      State.fget_fput_low_other hentry]

theorem State.sense_takeSense : (s.takeSense q c code g).fget (Cell.sense q c) = code % 2 ^ 14 := by
  unfold State.takeSense State.when
  cases !s.inCal q g && !s.inCal q (g + 32) <;>
    simp (disch := omega) only [cond_false, cond_true, State.fset, Cell.sense, Cell.stale,
      State.fget_fput_low_other hentry, State.fget_fput_low_self hentry]

/-- STALE clears where neither group of the word is in calibration. -/
theorem State.stale_takeSense (hcal : s.inCal q g = false) :
    (s.takeSense q c code g).flag (Cell.stale q c) = (s.flag (Cell.stale q c) && s.inCal q (g + 32)) := by
  rw [State.takeSense, hcal]
  cases s.inCal q (g + 32) with
  | true =>
    simp (disch := omega) only [State.when, State.flag, Cell.stale, Cell.sense, Bool.not_true, Bool.and_false, Bool.and_true,
      cond_false, State.fget_fput_low_other hentry]
  | false =>
    rw [Bool.and_false]
    exact State.flag_fset_self (held_of_low hentry (by omega)) rfl _ _

end TakeSense

/-! ### The correction of DRIVE (R282) -/

section HoldDrive

variable {s t : State} {q c code lo n : Nat}

/-- The code that the hold law leaves in DRIVE for a sense code. -/
def State.heldDrive (s : State) (q c code : Nat) : Nat :=
  let e : Int := (s.fget (Cell.target q c (s.fget (Cell.state q c))) : Int) - code
  if e.natAbs ≤ s.fget (F.nitHoldDbH q) then s.fget (Cell.drive q c)
  else (clampInt 0 16383 ((s.fget (Cell.drive q c) : Int) + s.holdStep q c e)).toNat

theorem clampInt_toNat_lt {i : Int} : (clampInt 0 16383 i).toNat < 2 ^ 14 := by
  unfold clampInt
  split_ifs <;> omega

theorem State.holdDrive_onlyWords : OnlyWords [cellAddr q c] s (s.holdDrive q c code) :=
  OnlyWords.refl.cond (OnlyWords.refl.fput (List.mem_singleton_self _) _)

/-- The fields above DRIVE are as before. -/
theorem State.fget_holdDrive_high (hentry : implOf (cellAddr q c) = 2 ^ 32 - 1) (hlo : 14 ≤ lo) (hhi : lo + n ≤ 32) :
    (s.holdDrive q c code).fget ⟨cellAddr q c, lo, n⟩ = s.fget ⟨cellAddr q c, lo, n⟩ := by
  simp only [State.holdDrive, Cell.drive]
  cases Nat.ble _ _ with
  | true => rfl
  | false => exact State.fget_fput_low_other hentry hhi (.inr (by omega)) _ _

theorem State.drive_holdDrive (hentry : implOf (cellAddr q c) = 2 ^ 32 - 1) :
    (s.holdDrive q c code).fget (Cell.drive q c) = s.heldDrive q c code := by
  simp only [State.holdDrive, State.heldDrive, Bool.cond_eq_ite, Nat.ble_eq]
  split_ifs
  · rfl
  · exact (State.fget_fput_low_self hentry (by omega) _ _).trans (Nat.mod_eq_of_lt clampInt_toNat_lt)

/-- The correction reads the targets, the slice's registers, and STATE, DRIVE and GAIN of the entry. -/
theorem State.heldDrive_congr (h : OnlyWords [cellAddr q c, cellAddr q c + 4] s t) (hc : c < 65536)
    (hstate : t.fget (Cell.state q c) = s.fget (Cell.state q c))
    (hdrive : t.fget (Cell.drive q c) = s.fget (Cell.drive q c))
    (hgain : t.fget (Cell.gain q c) = s.fget (Cell.gain q c)) : t.heldDrive q c code = s.heldDrive q c code := by
  have htarget (d : Nat) : t.fget (Cell.target q c d) = s.fget (Cell.target q c d) := h.fget (targetAddr_notMem hc)
  have hreg {f : Fld} (hf : f.addr < cellAddr q 0) : t.fget f = s.fget f := h.fget (notMem_of_lt_cellAddr hf)
  have hband := hreg (f := F.nitHoldDbH q) (by simp only [F.nitHoldDbH, Reg.nitHold, cellAddr]; omega)
  have hslew := hreg (f := F.nitHoldSlewH q) (by simp only [F.nitHoldSlewH, Reg.nitHold, cellAddr]; omega)
  have hkh := hreg (f := F.nitHoldKh q) (by simp only [F.nitHoldKh, Reg.nitHold, cellAddr]; omega)
  have hinit := hreg (f := F.nitTuneGainInit q) (by simp only [F.nitTuneGainInit, Reg.nitTune, cellAddr]; omega)
  have hslope := hreg (f := F.nitLand0Slope q) (by simp only [F.nitLand0Slope, Reg.nitLand0, cellAddr]; omega)
  simp only [State.heldDrive, State.holdStep, State.gainSlope, State.gainOf, hstate, hdrive, hgain, htarget, hband, hslew,
    hkh, hinit, hslope]

end HoldDrive

/-! ### A valid sense within and beyond HOLD_ALARM (R282, R285) -/

section HoldValid

variable {s t : State} {q c code g : Nat}

/-- A valid sense within HOLD_ALARM, before DRIVE moves. -/
def State.nearSensed (s : State) (q c code g : Nat) : State :=
  (((s.takeSense q c code g).fput (Cell.clip q c) 0).fput (Cell.alrm q c) 0).fset (Cell.armed q c) true

/-- A valid sense beyond HOLD_ALARM is counted, before its cell's ALRM moves. -/
def State.farSensed (s : State) (q c code g : Nat) : State :=
  ((s.takeSense q c code g).fput (Cell.clip q c) 0).nitCount q 11

theorem State.nearSensed_onlyWords : OnlyWords [cellAddr q c, cellAddr q c + 4] s (s.nearSensed q c code g) := by
  have hsecond : cellAddr q c + 4 ∈ [cellAddr q c, cellAddr q c + 4] := by simp
  exact ((State.takeSense_onlyWords.entry.fput hsecond _).fput hsecond _).fset hsecond _

theorem State.holdDrive_nearSensed_onlyWords :
    OnlyWords [cellAddr q c, cellAddr q c + 4] s ((s.nearSensed q c code g).holdDrive q c code) :=
  State.nearSensed_onlyWords.trans State.holdDrive_onlyWords.entry

/-- Outside LIFTING no lift-off looks at a cell that is armed (R305). -/
theorem State.armCell_of_settled (hlift : s.flag (F.nitStsLifting q) = false) :
    s.armCell q c = s.fset (Cell.armed q c) true := by
  have hlifting : (s.fset (Cell.armed q c) true).flag (F.nitStsLifting q) = false := by
    refine (State.flag_fput_ne ?_ _ _).trans hlift
    simp only [F.nitStsLifting, Reg.nitSts, Cell.armed, cellAddr]
    omega
  rw [State.armCell, State.lifted, hlifting, Bool.not_false, cond_true]

/-- The entry's first word is what recording the sense leaves. -/
theorem State.fget_nearSensed {lo n : Nat} :
    (s.nearSensed q c code g).fget ⟨cellAddr q c, lo, n⟩ = (s.takeSense q c code g).fget ⟨cellAddr q c, lo, n⟩ := by
  simp only [State.nearSensed, State.fset, Cell.clip, Cell.alrm, Cell.armed, State.fget_cellAddr_fput_add_four]

variable (hq : q < 4) (hc : c < 65536)

include hq hc

/-- A sense within HOLD_ALARM clears both counts of the entry and arms it; GAIN stays. -/
theorem State.counts_nearSensed :
    (s.nearSensed q c code g).fget (Cell.clip q c) = 0 ∧ (s.nearSensed q c code g).fget (Cell.alrm q c) = 0 ∧
    (s.nearSensed q c code g).flag (Cell.armed q c) = true ∧
    (s.nearSensed q c code g).fget (Cell.gain q c) = s.fget (Cell.gain q c) := by
  have hentry := implOf_cellAddr_add_four hq hc
  simp (disch := omega) only [State.nearSensed, State.flag, State.fset, Cell.clip, Cell.alrm, Cell.armed, Cell.gain,
    State.fget_fput_low_self hentry, State.fget_fput_low_other hentry, State.fget_takeSense_add_four]
  decide

/-- The error of the law is that of the state before the sense is recorded. -/
theorem State.target_takeSense :
    (s.takeSense q c code g).fget (Cell.target q c ((s.takeSense q c code g).fget (Cell.state q c))) =
      s.fget (Cell.target q c (s.fget (Cell.state q c))) := by
  have hstate : (s.takeSense q c code g).fget (Cell.state q c) = s.fget (Cell.state q c) :=
    State.fget_takeSense_low (implOf_cellAddr hq hc) (by omega)
  rw [hstate]
  exact State.takeSense_onlyWords.entry.fget (targetAddr_notMem hc)

/-- Counting the alarm leaves ALRM as it was. -/
theorem State.alrm_farSensed : (s.farSensed q c code g).fget (Cell.alrm q c) = s.fget (Cell.alrm q c) := by
  have hentry := implOf_cellAddr_add_four hq hc
  have hcounted : ∀ t : State, (t.nitCount q 11).fget (Cell.alrm q c) = t.fget (Cell.alrm q c) := fun t =>
    State.fget_eq_of_rd ((CellsSame.refl.nitCount (by decide)).1 _ (by simp only [Cell.alrm, cellAddr]; omega))
  rw [State.farSensed, hcounted]
  simp (disch := omega) only [Cell.clip, Cell.alrm, State.fget_fput_low_other hentry, State.fget_takeSense_add_four]

/-- SENSE and STALE are as recorded, and STATE as before. -/
theorem State.sense_holdDrive_nearSensed (hcode : code < 2 ^ 14) (hcal : s.inCal q g = false)
    (ht : t = (s.nearSensed q c code g).holdDrive q c code) :
    t.fget (Cell.sense q c) = code ∧ t.fget (Cell.state q c) = s.fget (Cell.state q c) ∧
    t.flag (Cell.stale q c) = (s.flag (Cell.stale q c) && s.inCal q (g + 32)) := by
  have hentry := implOf_cellAddr hq hc
  have hhigh {lo n : Nat} (hlo : 14 ≤ lo) (hhi : lo + n ≤ 32) :
      t.fget ⟨cellAddr q c, lo, n⟩ = (s.takeSense q c code g).fget ⟨cellAddr q c, lo, n⟩ := by
    rw [ht, State.fget_holdDrive_high hentry hlo hhi, State.fget_nearSensed]
  refine ⟨?_, ?_, ?_⟩
  · rw [Cell.sense, hhigh (by omega) (by omega)]
    exact (State.sense_takeSense hentry).trans (Nat.mod_eq_of_lt hcode)
  · exact (hhigh (by omega) (by omega)).trans (State.fget_takeSense_low hentry (by omega))
  · rw [State.flag, Cell.stale, hhigh (by omega) (by omega)]
    exact State.stale_takeSense hentry hcal

/-- The correction of DRIVE is that of the entry before the sense. -/
theorem State.drive_holdDrive_nearSensed :
    ((s.nearSensed q c code g).holdDrive q c code).fget (Cell.drive q c) = s.heldDrive q c code := by
  have hlow {lo n : Nat} (hlo : lo + n ≤ 16) :
      (s.nearSensed q c code g).fget ⟨cellAddr q c, lo, n⟩ = s.fget ⟨cellAddr q c, lo, n⟩ :=
    State.fget_nearSensed.trans (State.fget_takeSense_low (implOf_cellAddr hq hc) hlo)
  obtain ⟨-, -, -, hgain⟩ := State.counts_nearSensed (s := s) (code := code) (g := g) hq hc
  rw [State.drive_holdDrive (implOf_cellAddr hq hc)]
  exact State.heldDrive_congr State.nearSensed_onlyWords hc (hlow (by omega)) (hlow (by omega)) hgain

variable {e : Int} (he : e = (s.fget (Cell.target q c (s.fget (Cell.state q c))) : Int) - code)

include he

/-- The law's comparison with HOLD_ALARM. -/
theorem State.near_takeSense :
    Nat.ble (((s.takeSense q c code g).fget (Cell.target q c ((s.takeSense q c code g).fget (Cell.state q c))) : Int) -
      code).natAbs ((s.takeSense q c code g).fget (F.nitHlimHoldAlarm q)) =
        decide (e.natAbs ≤ s.fget (F.nitHlimHoldAlarm q)) := by
  have halarm : (s.takeSense q c code g).fget (F.nitHlimHoldAlarm q) = s.fget (F.nitHlimHoldAlarm q) :=
    State.takeSense_onlyWords.entry.fget
      (notMem_of_lt_cellAddr (by simp only [F.nitHlimHoldAlarm, Reg.nitHlim, cellAddr]; omega))
  rw [State.target_takeSense hq hc, halarm, ← he, Bool.eq_iff_iff, Nat.ble_eq, decide_eq_true_iff]

/-- Within HOLD_ALARM the cell is armed. -/
theorem State.holdValid_of_near (hnear : e.natAbs ≤ s.fget (F.nitHlimHoldAlarm q))
    (hlift : s.flag (F.nitStsLifting q) = false) :
    (s.takeSense q c code g).holdValid q c code = (s.nearSensed q c code g).holdDrive q c code := by
  have hlifting : (((s.takeSense q c code g).fput (Cell.clip q c) 0).fput (Cell.alrm q c) 0).flag (F.nitStsLifting q) =
      false := by
    have hsts : (F.nitStsLifting q).addr ≠ cellAddr q c + 4 := by
      simp only [F.nitStsLifting, Reg.nitSts, cellAddr]
      omega
    rw [← hlift, State.flag_fput_ne hsts, State.flag_fput_ne hsts, State.flag, State.flag, State.takeSense_onlyWords.entry.fget
      (notMem_of_lt_cellAddr (by simp only [F.nitStsLifting, Reg.nitSts, cellAddr]; omega))]
  have harmed : (((s.takeSense q c code g).fput (Cell.clip q c) 0).fput (Cell.alrm q c) 0).armCell q c =
      s.nearSensed q c code g := State.armCell_of_settled hlifting
  obtain ⟨-, halrm, -, -⟩ := State.counts_nearSensed (s := s) (code := code) (g := g) hq hc
  simp only [State.holdValid, State.near_takeSense hq hc he, hnear, decide_true]
  rw [cond_true, harmed, halrm, beq_eq_false_iff_ne.mpr (by decide), cond_false]

/-- Beyond HOLD_ALARM an armed cell counts in ALRM, and is parked where ALRM is full. -/
theorem State.holdValid_of_far (hfar : s.fget (F.nitHlimHoldAlarm q) < e.natAbs) (ht : t = (s.farSensed q c code g).when
      (s.flag (Cell.armed q c)) (·.fput (Cell.alrm q c) (s.fget (Cell.alrm q c) + 1))) :
    (s.takeSense q c code g).holdValid q c code =
      bif t.fget (Cell.alrm q c) == 3 then t.parkCell q c 2 else t.holdDrive q c code := by
  have harmed : (s.takeSense q c code g).flag (Cell.armed q c) = s.flag (Cell.armed q c) :=
    congrArg (· == 1) State.fget_takeSense_add_four
  have halrm : (s.takeSense q c code g).fget (Cell.alrm q c) = s.fget (Cell.alrm q c) := State.fget_takeSense_add_four
  simp only [State.holdValid, State.near_takeSense hq hc he, Nat.not_le.mpr hfar, decide_false, cond_false, harmed, halrm,
    State.farSensed, ht]

/-- The third alarm of an armed cell parks it. -/
theorem State.holdValid_of_far_third (hfar : s.fget (F.nitHlimHoldAlarm q) < e.natAbs)
    (harmed : s.flag (Cell.armed q c) = true) (halrm : s.fget (Cell.alrm q c) = 2) :
    (s.takeSense q c code g).holdValid q c code =
      ((s.farSensed q c code g).fput (Cell.alrm q c) 3).parkCell q c 2 := by
  have hcount : (s.fget (Cell.alrm q c) + 1) % 2 ^ (Cell.alrm q c).width = 3 := by rw [halrm]; rfl
  rw [State.holdValid_of_far hq hc he hfar rfl, harmed, State.when_true rfl, State.fget_fput_self (alrm_held hq hc),
    beq_iff_eq.mpr hcount, cond_true, halrm]

/-- An earlier alarm of an armed cell counts, and DRIVE moves as before. -/
theorem State.holdValid_of_far_armed (hfar : s.fget (F.nitHlimHoldAlarm q) < e.natAbs)
    (harmed : s.flag (Cell.armed q c) = true) (halrm : s.fget (Cell.alrm q c) < 2) :
    (s.takeSense q c code g).holdValid q c code =
      ((s.farSensed q c code g).fput (Cell.alrm q c) (s.fget (Cell.alrm q c) + 1)).holdDrive q c code := by
  have hcount : (s.fget (Cell.alrm q c) + 1) % 2 ^ (Cell.alrm q c).width ≠ 3 :=
    ((Nat.mod_le _ _).trans_lt (Nat.succ_lt_succ halrm)).ne
  rw [State.holdValid_of_far hq hc he hfar rfl, harmed, State.when_true rfl, State.fget_fput_self (alrm_held hq hc),
    beq_eq_false_iff_ne.mpr hcount, cond_false]

/-- An unarmed cell does not count in ALRM. -/
theorem State.holdValid_of_far_unarmed (hfar : s.fget (F.nitHlimHoldAlarm q) < e.natAbs)
    (harmed : s.flag (Cell.armed q c) = false) (halrm : s.fget (Cell.alrm q c) < 3) :
    (s.takeSense q c code g).holdValid q c code = (s.farSensed q c code g).holdDrive q c code := by
  rw [State.holdValid_of_far hq hc he hfar rfl, harmed, State.when_false rfl, State.alrm_farSensed hq hc,
    beq_eq_false_iff_ne.mpr halrm.ne, cond_false]

end HoldValid

/-! ### One sense word of a visit (R282, R284, R285) -/

section HoldLaw

variable {s : State} {q c w g : Nat}

theorem State.holdLaw_of_missing (hflag : bitsOf w 14 2 = 0) : s.holdLaw q c w g = s := by
  simp only [State.holdLaw, hflag, beq_self_eq_true, cond_true]

/-- A PARKED cell records a valid sense. -/
theorem State.holdLaw_of_parked (hflag : bitsOf w 14 2 = 1) (hcal : s.inCal q g = false)
    (hstate : s.fget (Cell.state q c) = 3) : s.holdLaw q c w g = s.takeSense q c (bitsOf w 0 14) g := by
  simp only [State.holdLaw, hflag, hcal, hstate, cellParked, Nat.reduceBEq, cond_false, cond_true]
  exact State.when_true rfl s _

variable (hstate : s.fget (Cell.state q c) < 2) (hwrites : s.holdWrites q c = true) (hdrop : c ∉ (s.nit q).dropCell)

include hstate hwrites hdrop

/-- A word that arrived for a cell that the scan writes: a group in calibration marks it stale. -/
theorem State.holdLaw_of_written {flag : Nat} (hword : bitsOf w 14 2 ≠ 0)
    (hflag : (bif s.inCal q g then 3 else bitsOf w 14 2) = flag) : s.holdLaw q c w g =
    bif flag == 1 then (s.takeSense q c (bitsOf w 0 14) g).holdValid q c (bitsOf w 0 14)
    else bif flag == 2 then
      (s.fput (Cell.clip q c) (s.fget (Cell.clip q c) + 1)).when
        ((s.fput (Cell.clip q c) (s.fget (Cell.clip q c) + 1)).fget (Cell.clip q c) == 3) (·.parkCell q c 3)
    else s.fset (Cell.stale q c) true := by
  have hworking : s.fget (Cell.state q c) ≠ cellParked := (hstate.trans (by decide)).ne
  have hkept : (s.nit q).dropCell.any (· == c) = false := by
    rw [List.any_beq', List.contains_eq_mem, decide_eq_false hdrop]
  simp only [State.holdLaw, beq_eq_false_iff_ne.mpr hword, beq_eq_false_iff_ne.mpr hworking, hflag, hwrites, hkept,
    Bool.not_true, Bool.or_self, cond_false]

/-- A word of a group in calibration, or marked stale, sets STALE. -/
theorem State.holdLaw_of_stale (hword : bitsOf w 14 2 ≠ 0) (hstale : bitsOf w 14 2 = 3 ∨ s.inCal q g = true) :
    s.holdLaw q c w g = s.fset (Cell.stale q c) true := by
  have hflag : (bif s.inCal q g then 3 else bitsOf w 14 2) = 3 := by
    rcases hstale with h | h <;> simp only [h, Bool.cond_self, cond_true]
  simp only [State.holdLaw_of_written hstate hwrites hdrop hword hflag, Nat.reduceBEq, cond_false]

variable (hcal : s.inCal q g = false)

include hcal

theorem State.holdLaw_of_valid (hflag : bitsOf w 14 2 = 1) :
    s.holdLaw q c w g = (s.takeSense q c (bitsOf w 0 14) g).holdValid q c (bitsOf w 0 14) := by
  rw [State.holdLaw_of_written hstate hwrites hdrop (by omega) (by rw [hcal, cond_false, hflag])]
  rfl

/-- A clipped sense counts, and the third one parks the cell. -/
theorem State.holdLaw_of_clipped (hq : q < 4) (hc : c < 65536) (hflag : bitsOf w 14 2 = 2) : s.holdLaw q c w g =
    (s.fput (Cell.clip q c) (s.fget (Cell.clip q c) + 1)).when
      ((s.fget (Cell.clip q c) + 1) % 2 ^ 2 == 3) (·.parkCell q c 3) := by
  rw [State.holdLaw_of_written hstate hwrites hdrop (by omega) (by rw [hcal, cond_false, hflag]),
    State.fget_fput_self (clip_held hq hc)]
  rfl

end HoldLaw

/-- Settles O48: a valid sense by its distance from the target, then the other flags. -/
theorem holdLawMovesTheLatch : Obligations.HoldLawMovesTheLatch := by
  refine fun s q c g hq hc => ⟨fun hstate hwrites hdrop hcal code e hcode he => ?_,
    fun w hflag hcal hstate hwrites hdrop => ?_,
    fun w hword hstale hstate hwrites hdrop => State.holdLaw_of_stale hstate hwrites hdrop hword hstale,
    fun w hflag hcal hstate => State.holdLaw_of_parked hflag hcal hstate, fun w => State.holdLaw_of_missing⟩
  · have hflag : bitsOf (2 ^ 14 + code) 14 2 = 1 := by
      rw [bitsOf, Nat.shiftRight_eq_div_pow]
      omega
    have hsense : bitsOf (2 ^ 14 + code) 0 14 = code := by
      rw [bitsOf, Nat.shiftRight_zero]
      omega
    rw [State.holdLaw_of_valid hstate hwrites hdrop hcal hflag, hsense]
    refine ⟨fun hnear hlift t ht => ?_, fun hfar u hu => ?_⟩
    · rw [State.holdValid_of_near hq hc he hnear hlift] at ht
      have hsecond {lo n : Nat} : t.fget ⟨cellAddr q c + 4, lo, n⟩ =
          (s.nearSensed q c code g).fget ⟨cellAddr q c + 4, lo, n⟩ :=
        ht ▸ State.holdDrive_onlyWords.fget cellAddr_add_four_notMem
      obtain ⟨hclip, halrm, harmed, -⟩ := State.counts_nearSensed (s := s) (code := code) (g := g) hq hc
      obtain ⟨hrecord, hstay, hstale⟩ := State.sense_holdDrive_nearSensed hq hc hcode hcal ht
      refine ⟨hrecord, hsecond.trans hclip, hsecond.trans halrm, (congrArg (· == 1) hsecond).trans harmed, hstay, hstale,
        ?_, ht ▸ State.holdDrive_nearSensed_onlyWords⟩
      rw [ht, State.drive_holdDrive_nearSensed hq hc, he]
      rfl
    · subst hu
      exact ⟨State.holdValid_of_far_third hq hc he hfar, State.holdValid_of_far_armed hq hc he hfar,
        State.holdValid_of_far_unarmed hq hc he hfar⟩
  · rw [State.holdLaw_of_clipped hstate hwrites hdrop hcal hq hc hflag]
    refine ⟨fun hclip => State.when_false (beq_eq_false_iff_ne.mpr ?_) _ _, fun hclip => ?_⟩
    · omega
    · rw [hclip]
      rfl

end Sys2Proof.Machine
end

section
/-! SUPPORT. Commit lists, start-up and reacquisition of a Nitinol slice (R275, R278, R287, R288, R290, R299 to R305), and
a statement of 10_nitinol_servo.md on them. -/

namespace Sys2Proof.Machine

/-! ### Commits of a slice (R287, R288, R290) -/

section Commits

variable {s t : State} {q id : Nat} {x : Commit} {l : List (Nat × Nat)} {start : Nat} {r : List (Nat × Nat × Nat) × State}

/-- The commit lists of a commit that this slice owes and does not know yet. -/
theorem State.commitLists_of_owed (howed : s.fab.running.find? (fun c => c.id == id && bitAt c.owe q) = some x)
    (hnew : ∀ y ∈ (s.nit q).commits, y.id ≠ id) (hopen : s.open' q 9 = true) (hl : l = commitCells q x.moves)
    (hstart : start = if s.folNow q + 1200 ≤ x.tc then 16 * x.tc else 0)
    (ht : t = s.setNit q { s.nit q with commits := (s.nit q).commits ++ [{
      id := id, tc := start / 16, open' := l.length
      round0 := if s.folNow q + 1200 ≤ x.tc then some start else none }] })
    (hr : r = l.foldl (fun (a : List (Nat × Nat × Nat) × State) z =>
      let b := a.2.landRequest q id start z
      (a.1 ++ b.1, b.2)) ([], t)) :
    s.commitLists q id = if s.folNow q + 1200 ≤ x.tc then
      r.2.onNitCommit q id (fun y => { y with binds := r.1.map (fun y => y.2) }) else r.2.bindAll q r.1 := by
  have hunknown : (s.nit q).commits.any (fun y => y.id == id) = false :=
    List.any_eq_false.mpr fun y hy => by simpa using hnew y hy
  subst hl hr
  by_cases hearly : s.folNow q + 1200 ≤ x.tc
  · rw [if_pos hearly] at hstart
    rw [if_pos hearly, hstart, Nat.mul_div_cancel_left _ (by decide)] at ht
    have hble : Nat.ble (s.folNow q + 1200) x.tc = true := Nat.ble_eq.mpr hearly
    simp only [State.commitLists, howed, hunknown, hopen, hble, Bool.not_true, Bool.or_self, cond_false, cond_true,
      if_pos hearly, ht, hstart]
  · rw [if_neg hearly] at hstart
    rw [if_neg hearly, hstart, Nat.zero_div] at ht
    have hble : Nat.ble (s.folNow q + 1200) x.tc = false := by rwa [Bool.eq_false_iff, ne_eq, Nat.ble_eq]
    simp only [State.commitLists, howed, hunknown, hopen, hble, Bool.not_true, Bool.or_self, cond_false,
      if_neg hearly, ht, hstart]

theorem State.commitLists_of_ignored (h : s.fab.running.find? (fun c => c.id == id && bitAt c.owe q) = none ∨
    (∃ y ∈ (s.nit q).commits, y.id = id) ∨ s.open' q 9 = false) : s.commitLists q id = s := by
  unfold State.commitLists
  split
  · rfl
  next x howed =>
    have hignored : ((s.nit q).commits.any (fun y => y.id == id) || !s.open' q 9) = true := by
      simpa [howed] using h
    rw [hignored, cond_true]

theorem State.landBindSend_of_unknown (h : (s.nit q).commits.find? (fun c => c.id == id) = none) :
    s.landBindSend q id = s := by
  rw [State.landBindSend, h]

theorem State.landBindSend_of_known {c : NitCommit} (h : (s.nit q).commits.find? (fun c => c.id == id) = some c) :
    s.landBindSend q id =
      (s.onNitCommit q id (fun x => { x with binds := [] })).bindAll q (c.binds.map (fun x => (id, x))) := by
  rw [State.landBindSend, h]

end Commits

/-! ### Start-up (R275, R278) -/

section StartUp

variable {s t : State} {q failed : Nat} {bad met : List Nat}

theorem State.nitStarted_of_ready (hfirst : (s.nit q).started = false) (hready : s.qReady q 9 = true)
    (hmet : met = s.spoiltCells q) (ht : t = s.cellsRead q met) : s.nitStarted q failed bad =
      ((t.setNit q { t.nit q with started := true, bad := [] }).loseEntries q
        (bad ++ met.filter (fun c => !s.wordsReadable (cellAddr q c) 2))).applyLanes q
          (s.retired q ||| failed % 2 ^ 64) := by
  simp only [State.nitStarted, hfirst, hready, Bool.not_true, Bool.or_self, cond_false, ← hmet, ← ht]

theorem State.nitStarted_of_ignored (h : (s.nit q).started = true ∨ s.qReady q 9 = false) :
    s.nitStarted q failed bad = s := by
  have hignored : ((s.nit q).started || !s.qReady q 9) = true := by rwa [Bool.or_eq_true, Bool.not_eq_true']
  rw [State.nitStarted, hignored, cond_true]

end StartUp

/-! ### Reacquisition (R299 to R305) -/

section Reacquisition

variable {s t : State} {q p : Nat} {r : List Nat}

theorem State.reacqStart_of_wanted (hwant : (s.nit q).want = true) (hstarted : (s.nit q).started = true)
    (hup : s.isUp q = true) (hen : s.flag (F.nitCtlEn q) = true) (hidle : s.flag (F.nitStsReacq q) = false)
    (hfree : (s.nit q).held = false)
    (ht : t = (((((s.countMissing q).nitInterrupt q).setHoldRel q false).fset (F.nitStsReacq q) true).fset
      (F.nitStsReacqFail q) false).nitCount q 17) :
    s.reacqStart q = t.setNit q { t.nit q with
      want := false, pass := 0, todo := List.range 64, stepped := none, gotSns := [], gotLat := [], sensed := [] } := by
  simp only [State.reacqStart, hwant, hstarted, hup, hen, hidle, hfree, Bool.not_true, Bool.not_false, Bool.and_self,
    Bool.or_self, cond_false, ← ht]

theorem State.reacqStart_of_ignored (h : (s.nit q).want = false ∨ (s.nit q).started = false ∨ s.isUp q = false ∨
    s.flag (F.nitCtlEn q) = false ∨ s.flag (F.nitStsReacq q) = true ∨ (s.nit q).held = true) : s.reacqStart q = s := by
  have hignored : (!((s.nit q).want && (s.nit q).started && s.isUp q && s.flag (F.nitCtlEn q) &&
      !s.flag (F.nitStsReacq q)) || (s.nit q).held) = true := by
    rcases h with h | h | h | h | h | h <;>
      simp only [h, Bool.false_and, Bool.and_false, Bool.not_false, Bool.not_true, Bool.true_or, Bool.or_true]
  rw [State.reacqStart, hignored, cond_true]

theorem State.readback_of_ignored (h : s.flag (F.nitStsReacq q) = false ∨ s.isUp q = false) : s.readback q = s := by
  have hignored : (!s.flag (F.nitStsReacq q) || !s.isUp q) = true := by
    rwa [Bool.or_eq_true, Bool.not_eq_true', Bool.not_eq_true']
  rw [State.readback, hignored, cond_true]

section Steps

variable (hreacq : s.flag (F.nitStsReacq q) = true) (hup : s.isUp q = true) (ht : t = s.countMissing q)

include hreacq hup ht

/-- With the pass through and none to follow, or no flit lacking, nothing is stepped. -/
theorem State.readback_of_through (htodo : (t.nit q).todo = []) (h : 3 ≤ (t.nit q).pass ∨ t.lacking q = []) :
    s.readback q = t := by
  simp only [State.readback, hreacq, hup, Bool.not_true, Bool.or_self, cond_false, ← ht, htodo, List.isEmpty_nil,
    Bool.true_and]
  cases hpass : Nat.blt (t.nit q).pass 3 with
  | true =>
    have hnone : t.lacking q = [] := h.resolve_left (Nat.not_le.mpr (Nat.blt_eq.mp hpass))
    simp only [cond_true, hnone]
  | false => simp only [cond_false, htodo]

theorem State.readback_of_pass (htodo : (t.nit q).todo = p :: r) : s.readback q =
    ((t.setNit q { t.nit q with todo := r }).sendFlit q 0x13 0 (p + 64) []).stepPair q p true := by
  simp only [State.readback, hreacq, hup, Bool.not_true, Bool.or_self, cond_false, ← ht, htodo, List.isEmpty_cons,
    Bool.false_and]

/-- The next pass goes over the pairs that lack a flit. -/
theorem State.readback_of_nextPass (htodo : (t.nit q).todo = []) (hpass : (t.nit q).pass < 3)
    (hlacking : t.lacking q = p :: r) : s.readback q =
      ((t.setNit q { t.nit q with pass := (t.nit q).pass + 1, todo := r }).sendFlit q 0x13 0 (p + 64) []).stepPair q p true := by
  have hblt : Nat.blt (t.nit q).pass 3 = true := Nat.blt_eq.mpr hpass
  simp only [State.readback, hreacq, hup, Bool.not_true, Bool.or_self, cond_false, ← ht, htodo, List.isEmpty_nil,
    Bool.true_and, hblt, cond_true, hlacking]

end Steps

theorem State.reacqEnd_of_ignored (h : s.flag (F.nitStsReacq q) = false ∨ (s.nit q).todo ≠ []) : s.reacqEnd q = s := by
  have hignored : (!s.flag (F.nitStsReacq q) || !(s.nit q).todo.isEmpty) = true := by simpa using h
  rw [State.reacqEnd, hignored, cond_true]

section Ends

variable (hreacq : s.flag (F.nitStsReacq q) = true) (htodo : (s.nit q).todo = [])

include hreacq htodo

theorem State.reacqEnd_of_lacking (hlacking : s.lacking q ≠ []) :
    s.reacqEnd q = bif (s.nit q).pass == 3 then (s.countMissing q).reacqFail q else s := by
  have hmissing : (s.lacking q).isEmpty = false := List.isEmpty_eq_false_iff.mpr hlacking
  rw [State.reacqEnd, hreacq, htodo, hmissing]
  rfl

/-- A complete reacquisition classifies every cell, or starts every cell anew, and releases the hold. -/
theorem State.reacqEnd_of_complete {b c l m : State} (hlacking : s.lacking q = [])
    (hb : b = (s.setNit q { s.nit q with
      stepped := none, unarmed := if (s.link q).fresh = true then [] else (s.nit q).unarmed }).setLink q
        { s.link q with fresh := false })
    (hc : c = if (s.link q).fresh = true then forUpTo 65536 (fun c u => u.freshCell q c) b
      else forUpTo 65536 (fun c u => u.classifyCell q c) b)
    (hl : l = (c.setNit q { c.nit q with cold := false, bad := [], first := 2 ^ 64 - 1 }).when (s.link q).fresh
      (fun u => u.fset (F.nitStsLifting q) !((u.nit q).unarmed.isEmpty)))
    (hm : m = ((l.setHoldRel q true).fset (F.nitStsRun q) true).fset (F.nitStsReacq q) false)
    (ht : t = m.when ((s.link q).fresh && (m.nit q).unarmed.isEmpty) (·.nitEvent q 5 0 0 0)) :
    s.reacqEnd q = (t.nitEvent q 0 0 (t.freeVal 32) (t.useFree.freeVal 32)).useFree.useFree := by
  have hguard : (!s.flag (F.nitStsReacq q) || !(s.nit q).todo.isEmpty) = false := by
    rw [hreacq, htodo]
    rfl
  have hall : (!(s.lacking q).isEmpty) = false := by rw [hlacking, List.isEmpty_nil, Bool.not_true]
  rw [← Bool.cond_eq_ite] at hb hc
  rw [State.reacqEnd, hguard, hall, cond_false, cond_false]
  subst hb hc hl hm ht
  rfl

end Ends

/-- Queued re-landings go to the cells that wait for a channel (R303). -/
theorem State.relandingStart_of_running (hrun : s.flag (F.nitStsRun q) = true)
    (ht : t = eachOf (s.nit q).requeue (fun _ u => u.nitCount q 18) (s.setNit q { s.nit q with requeue := [] })) :
    s.relandingStart q = (t.setNit q { t.nit q with
      wait := (t.nit q).wait ++ (s.nit q).requeue.map (fun c => (0, c, s.fget (Cell.dest q c))) }).serveWait q := by
  simp only [State.relandingStart, hrun, Bool.not_true, cond_false, ← ht]

theorem State.relandingStart_of_idle (hrun : s.flag (F.nitStsRun q) = false) : s.relandingStart q = s := by
  rw [State.relandingStart, hrun, Bool.not_false, cond_true]

end Reacquisition

/-! ### The control bits of a slice (Table 10.10, R299, R304) -/

section Control

variable {s t r u : State} {q w : Nat}

/-- A flag of a register lies outside the slice's record. -/
theorem State.nit_fset (s : State) (f : Fld) (b : Bool) (q : Nat) : (s.fset f b).nit q = s.nit q := by
  rw [State.nit, State.nit, State.fset, State.fput, State.wr_nits]

/-- The commands that set EN, clear EN and set REACQ are writes of NIT_CTL where the register answers. -/
theorem exec_nitCtl_of_reached (hreach : s.reaches (Reg.nitCtl q) = true) (w : Nat) :
    exec (.nitinolEnable q w) s = .next (s.writeNitCtl q (w ||| 1)) ∧
    exec (.nitinolDisable q w) s = .next (s.writeNitCtl q (w &&& 0xFFFFFFFE)) ∧
    exec (.reacq q w) s = .next (s.writeNitCtl q (w ||| 8)) := by
  have hat (f : State → State) : s.atReg (Reg.nitCtl q) f = f s := State.atReg_reached hreach f
  exact ⟨congrArg _ (hat _), congrArg _ (hat _), congrArg _ (hat _)⟩

theorem exec_nitCtl_of_unreached (hreach : s.reaches (Reg.nitCtl q) = false) (w : Nat) :
    NoEffect (.nitinolEnable q w) s ∧ NoEffect (.nitinolDisable q w) s ∧ NoEffect (.reacq q w) s := by
  have hat (f : State → State) : s.atReg (Reg.nitCtl q) f = s := State.atReg_unreached hreach f
  exact ⟨congrArg _ (hat _), congrArg _ (hat _), congrArg _ (hat _)⟩

/-- REACQ asks for one after a failed one. -/
theorem State.when_reacq {b c : Bool} (hr : r = if b = true ∧ c = true then t.wantReacq q else t) :
    t.when (b && c) (·.wantReacq q) = r := by
  simp only [hr, State.when, Bool.cond_eq_ite, Bool.and_eq_true]

variable (ht : t = s.store (Reg.nitCtl q) w)
  (hr : r = if bitAt w 3 = true ∧ s.flag (F.nitStsReacqFail q) = true then t.wantReacq q else t)

include ht

/-- A write that sets EN asks for a reacquisition. -/
theorem State.writeNitCtl_of_rise (hoff : s.flag (F.nitCtlEn q) = false) (hen : bitAt w 0 = true)
    (hreacq : bitAt w 3 = false) : s.writeNitCtl q w = t.wantReacq q := by
  simp only [State.writeNitCtl, ← ht, hoff, hen, hreacq, Bool.not_false, Bool.not_true, Bool.and_self, Bool.false_and,
    State.when_true rfl, State.when_false rfl]

include hr

theorem State.writeNitCtl_of_same (hen : s.flag (F.nitCtlEn q) = bitAt w 0) : s.writeNitCtl q w = r := by
  simp only [State.writeNitCtl, ← ht, hen, Bool.not_and_self, Bool.and_not_self, State.when_false rfl,
    State.when_reacq hr]

/-- A write that clears EN interrupts the slice. -/
theorem State.writeNitCtl_of_fall (hon : s.flag (F.nitCtlEn q) = true) (hen : bitAt w 0 = false)
    (hu : u = ((r.nitInterrupt q).setHoldRel q false).fset (F.nitStsReacq q) false) :
    s.writeNitCtl q w = u.setNit q { u.nit q with want := false, todo := [], held := false } := by
  simp only [State.writeNitCtl, ← ht, hon, hen, Bool.not_true, Bool.not_false, Bool.and_self, State.when_true rfl,
    State.when_false rfl, State.when_reacq hr, hu, State.nit_fset]

end Control

/-- Settles O50, command by command. -/
theorem commitsAndReacquisitionRunInASlice : Obligations.CommitsAndReacquisitionRunInASlice := by
  refine ⟨fun s q id x howed hnew hopen l t r start hl hstart ht hr =>
      congrArg Host.Outcome.next (State.commitLists_of_owed howed hnew hopen hl hstart ht hr),
    fun s q id h => congrArg Host.Outcome.next (State.commitLists_of_ignored h),
    fun s q id => ⟨fun h => congrArg Host.Outcome.next (State.landBindSend_of_unknown h),
      fun c h => congrArg Host.Outcome.next (State.landBindSend_of_known h)⟩,
    fun s t q failed bad met => ⟨fun hfirst hready hmet ht => congrArg (fun x : State => Host.Outcome.next x.reportReads)
        (State.nitStarted_of_ready hfirst hready hmet ht),
      fun h => congrArg (fun x : State => Host.Outcome.next x.reportReads) (State.nitStarted_of_ignored h)⟩,
    fun s q => ⟨fun hwant hstarted hup hen hidle hfree t ht =>
        congrArg Host.Outcome.next (State.reacqStart_of_wanted hwant hstarted hup hen hidle hfree ht),
      fun h => congrArg Host.Outcome.next (State.reacqStart_of_ignored h)⟩,
    fun s q hreacq hup t p r ht =>
      ⟨fun htodo h => congrArg Host.Outcome.next (State.readback_of_through hreacq hup ht htodo h),
      fun htodo => congrArg Host.Outcome.next (State.readback_of_pass hreacq hup ht htodo),
      fun htodo hpass h => congrArg Host.Outcome.next (State.readback_of_nextPass hreacq hup ht htodo hpass h)⟩,
    fun s q h => congrArg Host.Outcome.next (State.readback_of_ignored h),
    fun s q hreacq htodo => ⟨fun hlacking hpass => ?_, fun hlacking hpass => ?_, fun hlacking b c l m t hb hc hl hm ht =>
      congrArg Host.Outcome.next (State.reacqEnd_of_complete hreacq htodo hlacking hb hc hl hm ht)⟩,
    fun s q h => congrArg Host.Outcome.next (State.reacqEnd_of_ignored h),
    fun s q => ⟨fun hrun t ht => congrArg Host.Outcome.next (State.relandingStart_of_running hrun ht),
      fun hrun => congrArg Host.Outcome.next (State.relandingStart_of_idle hrun)⟩,
    fun s q w => ⟨fun hreach => exec_nitCtl_of_reached hreach w, fun hreach => exec_nitCtl_of_unreached hreach w⟩,
    fun s t r q w ht hr => ⟨State.writeNitCtl_of_rise ht, State.writeNitCtl_of_same ht hr,
      fun hon hen u hu => State.writeNitCtl_of_fall ht hr hon hen hu⟩⟩
  · exact congrArg Host.Outcome.next ((State.reacqEnd_of_lacking hreacq htodo hlacking).trans
      (by rw [beq_iff_eq.mpr hpass, cond_true]))
  · exact congrArg Host.Outcome.next ((State.reacqEnd_of_lacking hreacq htodo hlacking).trans
      (by rw [beq_eq_false_iff_ne.mpr hpass, cond_false]))

end Sys2Proof.Machine
end

section
/-! SUPPORT. What every step keeps: a command is answered by a next state with the queue and the soundness of the state
kept, the tick of network time on an empty queue (R61), and the statements of 00_scope.md, 01_architecture.md and
03_invar_network_time.md on steps and sound states. -/

namespace Sys2Proof.Machine

/-! ### Every command is answered -/

/-- A command is answered by a next state that has kept what the block keeps: the lemma of its meaning. -/
theorem exec_answered {z s : State} (h : Kept z s) (c : Instr) : Answered z (exec c s) :=
  match c with
  | .regWrite .. => execRegWrite_kept h
  | .wideLowWordRead .. => execWideLowWordRead_kept h
  | .wideUpperWordWrite .. => execWideUpperWordWrite_kept h
  | .wideLowWordWrite .. => execWideLowWordWrite_kept h
  | .doorbell .. => execDoorbell_kept h
  | .marginMeasurement .. => execMarginMeasurement_kept h
  | .vidRaise .. => execVidRaise_kept h
  | .vidLower .. => execVidLower_kept h
  | .shedLevelEnter .. => execShedLevelEnter_kept h
  | .shedLevelLeave .. => execShedLevelLeave_kept h
  | .coreTimingLost .. => execCoreTimingLost_kept h
  | .minRst .. => execMinRst_kept h
  | .codeViolation .. => execCodeViolation_kept h
  | .handshakeStall .. => execHandshakeStall_kept h
  | .edgeComputeStart .. => execEdgeComputeStart_kept h
  | .actionArmed .. => execActionArmed_kept h
  | .timePllLock .. => execTimePllLock_kept h
  | .timePllUnlock .. => execTimePllUnlock_kept h
  | .oscInLoss .. => execOscInLoss_kept h
  | .followerBroadcast .. => execFollowerBroadcast_kept h
  | .timeSet .. => execTimeSet_kept h
  | .timeAdjustStep .. => execTimeAdjustStep_kept h
  | .timeAdjustSlew .. => execTimeAdjustSlew_kept h
  | .slewAbsorbed .. => execSlewAbsorbed_kept h
  | .histClr .. => execHistClr_kept h
  | .historyPush .. => execHistoryPush_kept h
  | .servoEnable .. => execServoEnable_kept h
  | .ptpSyncReceived .. => execPtpSyncReceived_kept h
  | .followUpReceived .. => execFollowUpReceived_kept h
  | .referenceLost .. => execReferenceLost_kept h
  | .announceReceived .. => execAnnounceReceived_kept h
  | .announceReceiptTimeout .. => execAnnounceReceiptTimeout_kept h
  | .preMasterTimeout .. => execPreMasterTimeout_kept h
  | .syncTransmit .. => execSyncTransmit_kept h
  | .announceTransmit .. => execAnnounceTransmit_kept h
  | .delayReqTransmit .. => execDelayReqTransmit_kept h
  | .delayReqReceived .. => execDelayReqReceived_kept h
  | .delayRespReceived .. => execDelayRespReceived_kept h
  | .pdelayReqReceived .. => execPdelayReqReceived_kept h
  | .pdelayExchangeComplete .. => execPdelayExchangeComplete_kept h
  | .delayResponseTimeout .. => execDelayResponseTimeout_kept h
  | .tcMatchEntryExpire .. => execTcMatchEntryExpire_kept h
  | .irigFrameDecoded .. => execIrigFrameDecoded_kept h
  | .tcapEdge .. => execTcapEdge_kept h
  | .tcapArm .. => execTcapArm_kept h
  | .pulseEnable .. => execPulseEnable_kept h
  | .pulseDisable .. => execPulseDisable_kept h
  | .pulseEdge .. => execPulseEdge_kept h
  | .phyChange .. => execPhyChange_kept h
  | .cdrLock .. => execCdrLock_kept h
  | .pcsLock .. => execPcsLock_kept h
  | .upDlyExpire .. => execUpDlyExpire_kept h
  | .lossOfLock .. => execLossOfLock_kept h
  | .hiBer .. => execHiBer_kept h
  | .remoteFaultReceived .. => execRemoteFaultReceived_kept h
  | .frame64thByte .. => execFrame64thByte_kept h
  | .frameEndReceived .. => execFrameEndReceived_kept h
  | .pauseFrameReceived .. => execPauseFrameReceived_kept h
  | .pfcFrameReceived .. => execPfcFrameReceived_kept h
  | .pauseTimerExpire .. => execPauseTimerExpire_kept h
  | .txFrameQueued .. => execTxFrameQueued_kept h
  | .selectionPoint .. => execSelectionPoint_kept h
  | .txFrameDone .. => execTxFrameDone_kept h
  | .verifyTimerExpire .. => execVerifyTimerExpire_kept h
  | .verifyMpacketReceived .. => execVerifyMpacketReceived_kept h
  | .respondMpacketReceived .. => execRespondMpacketReceived_kept h
  | .serdesPllUnlock .. => execSerdesPllUnlock_kept h
  | .clsStagedWrite .. => execClsStagedWrite_kept h
  | .clsStagedRead .. => execClsStagedRead_kept h
  | .clsStagedDone .. => execClsStagedDone_kept h
  | .clsHashKeyWrite .. => execClsHashKeyWrite_kept h
  | .meterPeek .. => execMeterPeek_kept h
  | .scheduleGo .. => execScheduleGo_kept h
  | .scheduleAbort .. => execScheduleAbort_kept h
  | .validationDone .. => execValidationDone_kept h
  | .scheduleRamWrite .. => execScheduleRamWrite_kept h
  | .bankSwitch .. => execBankSwitch_kept h
  | .scbCycleStart .. => execScbCycleStart_kept h
  | .commitHandoff .. => execCommitHandoff_kept h
  | .scheduleEnable .. => execScheduleEnable_kept h
  | .gateTransition .. => execGateTransition_kept h
  | .holdRaise .. => execHoldRaise_kept h
  | .holdRelease .. => execHoldRelease_kept h
  | .touchedMasksReceived .. => execTouchedMasksReceived_kept h
  | .guardClose .. => execGuardClose_kept h
  | .guardReopen .. => execGuardReopen_kept h
  | .shaperEntryWrite .. => execShaperEntryWrite_kept h
  | .shaperPeek .. => execShaperPeek_kept h
  | .dupStagedWrite .. => execDupStagedWrite_kept h
  | .dupStagedRead .. => execDupStagedRead_kept h
  | .dupStagedDone .. => execDupStagedDone_kept h
  | .dupHashKeyWrite .. => execDupHashKeyWrite_kept h
  | .sourceLookupDone .. => execSourceLookupDone_kept h
  | .ageSweep .. => execAgeSweep_kept h
  | .frerSweep .. => execFrerSweep_kept h
  | .ringScanStart .. => execRingScanStart_kept h
  | .scanDataReturn .. => execScanDataReturn_kept h
  | .txFetchDone .. => execTxFetchDone_kept h
  | .entryComplete .. => execEntryComplete_kept h
  | .msixGapExpire .. => execMsixGapExpire_kept h
  | .ringEnable .. => execRingEnable_kept h
  | .ringDisable .. => execRingDisable_kept h
  | .ringIdle .. => execRingIdle_kept h
  | .ringHeadWrite .. => execRingHeadWrite_kept h
  | .hostLinkLost .. => execHostLinkLost_kept h
  | .noticeWrite .. => execNoticeWrite_kept h
  | .noticeConsumerWrite .. => execNoticeConsumerWrite_kept h
  | .busWriteError .. => execBusWriteError_kept h
  | .busReadError .. => execBusReadError_kept h
  | .grafaEnable .. => execGrafaEnable_kept h
  | .grafaDisable .. => execGrafaDisable_kept h
  | .retrain .. => execRetrain_kept h
  | .holdRelWrite .. => execHoldRelWrite_kept h
  | .upstreamLockAcquired .. => execUpstreamLockAcquired_kept h
  | .lockTimeout .. => execLockTimeout_kept h
  | .alignDone .. => execAlignDone_kept h
  | .alignTimeout .. => execAlignTimeout_kept h
  | .retryDelayExpire .. => execRetryDelayExpire_kept h
  | .blockLockLost .. => execBlockLockLost_kept h
  | .syncMissed .. => execSyncMissed_kept h
  | .commandTimeout .. => execCommandTimeout_kept h
  | .grafaSyncTransmit .. => execGrafaSyncTransmit_kept h
  | .grafaSyncReceived .. => execGrafaSyncReceived_kept h
  | .flitCrcError .. => execFlitCrcError_kept h
  | .pingTimer .. => execPingTimer_kept h
  | .rsp .. => execRsp_kept h
  | .status .. => execStatus_kept h
  | .tap .. => execTap_kept h
  | .holdSns .. => execHoldSns_kept h
  | .holdLat .. => execHoldLat_kept h
  | .landSns .. => execLandSns_kept h
  | .landingRound .. => execLandingRound_kept h
  | .landingAttemptTimeout .. => execLandingAttemptTimeout_kept h
  | .lockstepMismatch .. => execLockstepMismatch_kept h
  | .laneSelfTest .. => execLaneSelfTest_kept h
  | .laneSelfTestDone .. => execLaneSelfTestDone_kept h
  | .nitinolStartupDone .. => execNitinolStartupDone_kept h
  | .holdVisit .. => execHoldVisit_kept h
  | .cellRead .. => execCellRead_kept h
  | .cellPark .. => execCellPark_kept h
  | .unparkBar .. => execUnparkBar_kept h
  | .unparkCross .. => execUnparkCross_kept h
  | .commitListsReceived .. => execCommitListsReceived_kept h
  | .reacquisitionStart .. => execReacquisitionStart_kept h
  | .readbackStep .. => execReadbackStep_kept h
  | .reacquisitionEnd .. => execReacquisitionEnd_kept h
  | .relandingStart .. => execRelandingStart_kept h
  | .nitinolEnable .. => execNitinolEnable_kept h
  | .nitinolDisable .. => execNitinolDisable_kept h
  | .reacq .. => execReacq_kept h
  | .fabLoad .. => execFabLoad_kept h
  | .fabLoadDone .. => execFabLoadDone_kept h
  | .fabEnable .. => execFabEnable_kept h
  | .fabCommit .. => execFabCommit_kept h
  | .cancel .. => execCancel_kept h
  | .commitResolved .. => execCommitResolved_kept h
  | .resolveDeadline .. => execResolveDeadline_kept h
  | .fabArm .. => execFabArm_kept h
  | .armDeadline .. => execArmDeadline_kept h
  | .commitDispatch .. => execCommitDispatch_kept h
  | .commitInstant .. => execCommitInstant_kept h
  | .sliceReport .. => execSliceReport_kept h
  | .commitWithdrawal .. => execCommitWithdrawal_kept h
  | .blankEnd .. => execBlankEnd_kept h
  | .policyBuild .. => execPolicyBuild_kept h
  | .wtrExpire .. => execWtrExpire_kept h
  | .zoneSample .. => execZoneSample_kept h
  | .passMaxAge .. => execPassMaxAge_kept h
  | .runNow .. => execRunNow_kept h
  | .annealStepStart .. => execAnnealStepStart_kept h
  | .annealTableLoad .. => execAnnealTableLoad_kept h
  | .annealEnable .. => execAnnealEnable_kept h
  | .uncalBatchWrite .. => execUncalBatchWrite_kept h
  | .cbChannelEnable .. => execCbChannelEnable_kept h
  | .cbChannelDisable .. => execCbChannelDisable_kept h
  | .cbCycleStart .. => execCbCycleStart_kept h
  | .guardianOpen .. => execGuardianOpen_kept h
  | .guardianClose .. => execGuardianClose_kept h
  | .cbSofArrival .. => execCbSofArrival_kept h
  | .cbFrameEnd .. => execCbFrameEnd_kept h
  | .cbNitStart .. => execCbNitStart_kept h
  | .unblock .. => execUnblock_kept h
  | .cbListenTimeout .. => execCbListenTimeout_kept h
  | .cbModeRequest .. => execCbModeRequest_kept h
  | .cbModeSwitch .. => execCbModeSwitch_kept h
  | .cbOwnFrameSend .. => execCbOwnFrameSend_kept h
  | .cbHaltTimeout .. => execCbHaltTimeout_kept h
  | .sealTripCheck .. => execSealTripCheck_kept h
  | .matrixBurst .. => execMatrixBurst_kept h
  | .masterReset .. => execMasterReset_kept h
  | .masterDrainDone .. => execMasterDrainDone_kept h
  | .bmvGo .. => execBmvGo_kept h
  | .bmvAbort .. => execBmvAbort_kept h
  | .bmvReadReturn .. => execBmvReadReturn_kept h
  | .bmvWriteResponse .. => execBmvWriteResponse_kept h
  | .sealStart .. => execSealStart_kept h
  | .sealEvalDone .. => execSealEvalDone_kept h
  | .eventPulse .. => execEventPulse_kept h
  | .fire .. => execFire_kept h
  | .seqRun .. => execSeqRun_kept h
  | .servicePortWrite .. => execServicePortWrite_kept h
  | .servicePortRead .. => execServicePortRead_kept h
  | .servicePortUnknown .. => execServicePortUnknown_kept h
  | .servicePortCut .. => execServicePortCut_kept h
  | .faultReport .. => execFaultReport_kept h
  | .faultClear .. => execFaultClear_kept h
  | .graceExpire .. => execGraceExpire_kept h
  | .quietExpire .. => execQuietExpire_kept h
  | .recover .. => execRecover_kept h
  | .kick .. => execKick_kept h
  | .watchdogExpire .. => execWatchdogExpire_kept h
  | .swFatal .. => execSwFatal_kept h
  | .firstClr .. => execFirstClr_kept h
  | .injectionArm .. => execInjectionArm_kept h
  | .aliveToggle .. => execAliveToggle_kept h
  | .bronzeEvent .. => execBronzeEvent_kept h
  | .bronzeRecordWrite .. => execBronzeRecordWrite_kept h
  | .bronzeWindowStart .. => execBronzeWindowStart_kept h
  | .freeze .. => execFreeze_kept h
  | .unfreeze .. => execUnfreeze_kept h
  | .keepFlushDone .. => execKeepFlushDone_kept h
  | .keepCheckDone .. => execKeepCheckDone_kept h
  | .bronzeReady .. => execBronzeReady_kept h
  | .softwareRecord .. => execSoftwareRecord_kept h
  | .supplySample .. => execSupplySample_kept h
  | .rippleWindowEnd .. => execRippleWindowEnd_kept h
  | .pfwAssert .. => execPfwAssert_kept h
  | .pfwRelease .. => execPfwRelease_kept h
  | .powerRequest .. => execPowerRequest_kept h
  | .domainRampStart .. => execDomainRampStart_kept h
  | .domainRampDone .. => execDomainRampDone_kept h
  | .domainOff .. => execDomainOff_kept h
  | .domainReady .. => execDomainReady_kept h
  | .coldPowerUp .. => execColdPowerUp_kept h
  | .porAssert .. => execPorAssert_kept h
  | .porRelease .. => execPorRelease_kept h
  | .pd00Undervoltage .. => execPd00Undervoltage_kept h
  | .controllerResetAssert .. => execControllerResetAssert_kept h
  | .controllerResetRelease .. => execControllerResetRelease_kept h
  | .rstNGlitch .. => execRstNGlitch_kept h
  | .ctrlRst .. => execCtrlRst_kept h
  | .ctrlRstExpire .. => execCtrlRstExpire_kept h
  | .pwrHold .. => execPwrHold_kept h
  | .perstAssert .. => execPerstAssert_kept h
  | .perstRelease .. => execPerstRelease_kept h
  | .tapReset .. => execTapReset_kept h
  | .extest .. => execExtest_kept h
  | .idcode .. => execIdcode_kept h
  | .samplePreload .. => execSamplePreload_kept h
  | .highz .. => execHighz_kept h
  | .clamp .. => execClamp_kept h
  | .extestPulse .. => execExtestPulse_kept h
  | .extestTrain .. => execExtestTrain_kept h
  | .bypass .. => execBypass_kept h
  | .irigFrameMissing .. => execIrigFrameMissing_kept h
  | .shaperCreditZero .. => execShaperCreditZero_kept h
  | .landBindSend .. => execLandBindSend_kept h
  | .spokeCodeGroupSync .. => execSpokeCodeGroupSync_kept h
  | .flitTypeError .. => execFlitTypeError_kept h
  | .measurePing .. => execMeasurePing_kept h

/-- Settles O3: what the block keeps includes the queue. -/
theorem everyCommandAnswersAndKeepsTheQueue : Obligations.EveryCommandAnswersAndKeepsTheQueue := by
  intro c s
  obtain ⟨t, ht, hpending, -⟩ := exec_answered (Kept.refl s) c
  exact ⟨t, ht, hpending⟩

/-! ### Steps -/

/-- Settles O1. -/
theorem stepRunsTheFrontCommand : Obligations.StepRunsTheFrontCommand := fun _ _ _ => rfl

theorem step_of_idle {s : State} (h : s.pending = []) : step s = .next s.tick := by
  simp only [step, h]

theorem step_of_waiting {s : State} {c : Instr} {rest : List Instr} (h : s.pending = c :: rest) :
    step s = exec c { s with pending := rest } := by
  simp only [step, h]

/-- Soundness does not read the queue. -/
theorem State.Sound.dropPending {s : State} (h : s.Sound) (l : List Instr) : ({ s with pending := l } : State).Sound := h

/-- Settles O4: with nothing waiting the tick keeps soundness, otherwise the front command does. -/
theorem everyStepKeepsASoundState : Obligations.EveryStepKeepsASoundState := by
  intro s t hs hstep
  cases hp : s.pending with
  | nil =>
    rw [step_of_idle hp] at hstep
    cases hstep
    exact (State.tick_kept (Kept.refl s)).2 hs
  | cons c rest =>
    obtain ⟨u, hu, -, hsound⟩ := exec_answered (Kept.refl { s with pending := rest }) c
    rw [step_of_waiting hp, hu] at hstep
    cases hstep
    exact hsound (hs.dropPending rest)

/-! ### The tick (R61) -/

/-- What a step of a condition keeps, the conditional step keeps. -/
theorem State.when_keeps {α : Type} (f : State → α) {g : State → State} (h : ∀ s, f (g s) = f s) (s : State) (b : Bool) :
    f (s.when b g) = f s := by
  cases b
  · rfl
  · exact h s

/-- A new second counts in AGE of Anneal's groups and leaves the counter alone. -/
theorem State.anlSecond_counter (s : State) : s.anlSecond.counter = s.counter := by
  refine eachOf_invariant (P := fun t => t.counter = s.counter) rfl fun i _ t ht => ?_
  dsimp only
  cases t.fget (F.anlGroupSrc (i / 88) (i % 88)) == 3 || t.fget (F.anlGroupSteps (i / 88) (i % 88)) != 0
  · exact ht
  · exact (State.memWritten_keeps (·.counter) (fun _ _ _ => rfl) _ _ _ _).trans ht

theorem State.absorb_counter (s : State) (m : Int) : (s.absorb m).counter = s.counter :=
  State.when_keeps (·.counter) (g := (·.sumUp)) (fun _ => rfl) s (m == 0)

/-- A tick of a started counter under power adds the tick's increment. -/
theorem State.tick_counter {s : State} (hstart : s.inv.started = true) (hpower : s.ready 0 = true) :
    s.tick.counter = s.counter + s.tickUnits := by
  simp only [State.tick, hstart, hpower, Bool.not_true, Bool.or_false, cond_false]
  exact (State.when_keeps (·.counter) State.anlSecond_counter _ _).trans
    (State.when_keeps (·.counter) (g := (·.absorb _)) (fun t => t.absorb_counter _) _ _)

theorem State.tick_of_stopped {s : State} (h : s.inv.started = false ∨ s.ready 0 = false) : s.tick = s := by
  rcases h with h | h <;> simp [State.tick, h]

/-- Settles O2. -/
theorem emptyQueueStepIsOneTick : Obligations.EmptyQueueStepIsOneTick := by
  intro s hidle
  rw [step_of_idle hidle]
  exact ⟨fun hstart hpower => ⟨_, rfl, State.tick_counter hstart hpower⟩,
    fun h => congrArg Host.Outcome.next (State.tick_of_stopped h)⟩

/-! ### Sound states -/

/-- Settles O7: a register file in canonical form is determined by the words it reads. -/
theorem equalReadingsAreEqualRegisterFiles : Obligations.EqualReadingsAreEqualRegisterFiles := by
  rintro s t ⟨⟨hs, -⟩, -⟩ ⟨⟨ht, -⟩, -⟩ hwords
  exact Table.ext_wf hs ht hwords

/-- Settles O5: at reset only the pins list entries, in ascending order and none at its default. -/
theorem resetIsSound : Obligations.ResetIsSound := by
  unfold Obligations.ResetIsSound State.Sound regsOk
  decide +kernel

end Sys2Proof.Machine
end

section
/-! SUPPORT. The Bulk Mover's control register (R404 to R406): what the read bursts that go out leave alone, what a GO
and a clearing of EN do, and the statement of 14_matrix_mover_seal.md on GO. -/

namespace Sys2Proof.Machine

/-! ### Read bursts that go out (R405) -/

section Bursts

variable {s : State} {n : Nat}

theorem State.mover_setMover_self (s : State) (n : Nat) (x : Mover) : (s.setMover n x).mover n = x :=
  Table.get_put_self ..

theorem State.mover_setMover_ne {m : Nat} (h : m ≠ n) (s : State) (x : Mover) : (s.setMover n x).mover m = s.mover m :=
  Table.get_put_ne h ..

/-- The channel's record with its next read burst outstanding. -/
def Mover.readNext (x : Mover) : Mover :=
  { x with issued := x.issued + burstLen x, reads := x.reads ++ [(x.issued, burstLen x)] }

/-- What reads neither MTX_OUT_7 nor the record of what left the device is as before, but for the channel's record and
the grants. -/
theorem State.issueRead_keeps {α : Type} (f : State → α) (hout : ∀ t : State, f (t.outRd 1) = f t)
    (hemit : ∀ (t : State) o, f (t.emit o) = f t) (s : State) (n : Nat) :
    f (s.issueRead n) = f ((s.granting 7 (s.targetOfAddr ((s.mover n).src + (s.mover n).issued))).setMover n
      (s.mover n).readNext) := by
  unfold State.issueRead
  dsimp only
  split
  · exact (hemit _ _).trans (hout _)
  · exact hout _

/-- A read burst changes no word but MTX_OUT_7. -/
theorem State.rd_issueRead_ne {a : Nat} (ha : a ≠ Reg.mtxOut 7) (s : State) (n : Nat) : (s.issueRead n).rd a = s.rd a := by
  rw [State.issueRead_keeps (·.rd a) (fun t => State.rd_fput_ne (f := F.mtxOutRd 7) ha t _) (fun _ _ => rfl),
    State.setMover_rd, State.granting_rd]

theorem State.issueRead_pulses (s : State) (n : Nat) : (s.issueRead n).pulses = s.pulses :=
  (State.issueRead_keeps (·.pulses) (fun _ => rfl) (fun _ _ => rfl) s n).trans
    (s.granting_keeps _ _ (·.pulses) fun _ => rfl)

theorem State.mover_issueRead_self (s : State) (n : Nat) : (s.issueRead n).mover n = (s.mover n).readNext :=
  (State.issueRead_keeps (·.mover n) (fun _ => rfl) (fun _ _ => rfl) s n).trans (State.mover_setMover_self ..)

theorem State.mover_issueRead_ne {m : Nat} (h : m ≠ n) (s : State) : (s.issueRead n).mover m = s.mover m :=
  (State.issueRead_keeps (·.mover m) (fun _ => rfl) (fun _ _ => rfl) s n).trans
    ((State.mover_setMover_ne h _ _).trans (s.granting_keeps _ _ (·.mover m) fun _ => rfl))

/-- The channel whose turn it is is one of the eight, and it satisfies what was asked. -/
theorem State.bmvTurn_some {p : Nat → Bool} {m : Nat} (h : s.bmvTurn p = some m) : m < 8 ∧ p m = true := by
  obtain ⟨hp, -⟩ := List.find?_eq_some_iff_append.mp h
  obtain ⟨j, -, rfl⟩ := List.mem_map.mp (List.mem_of_find?_eq_some h)
  exact ⟨Nat.mod_lt _ (by decide), hp⟩

/-- What each read burst of a channel that may issue one keeps, all of them keep. -/
theorem State.issueReads_invariant {P : State → Prop}
    (hkeep : ∀ (t : State) m, t.mayIssue m = true → P t → P (({ t with bmvLast := m + 1 } : State).issueRead m))
    (k : Nat) (h : P s) : P (s.issueReads k) := by
  induction k generalizing s with
  | zero => exact h
  | succ k ih =>
    rw [State.issueReads]
    split
    · exact h
    · next m hturn => exact ih (hkeep s m (State.bmvTurn_some hturn).2 h)

theorem State.issueReads_of_none (h : ∀ m < 8, s.mayIssue m = false) (k : Nat) : s.issueReads k = s := by
  cases k with
  | zero => rfl
  | succ k =>
    cases hturn : s.bmvTurn s.mayIssue with
    | none => rw [State.issueReads, hturn]
    | some m =>
      obtain ⟨hlt, hmay⟩ := State.bmvTurn_some hturn
      rw [h m hlt] at hmay
      cases hmay

/-- Read bursts change no word but MTX_OUT_7 and send no pulse. -/
theorem State.issueReads_frame (s : State) (k : Nat) :
    (∀ a, a ≠ Reg.mtxOut 7 → (s.issueReads k).rd a = s.rd a) ∧ (s.issueReads k).pulses = s.pulses :=
  State.issueReads_invariant (P := fun t => (∀ a, a ≠ Reg.mtxOut 7 → t.rd a = s.rd a) ∧ t.pulses = s.pulses)
    (fun _ m _ h => ⟨fun a ha => (State.rd_issueRead_ne ha _ m).trans (h.1 a ha), (State.issueRead_pulses _ m).trans h.2⟩)
    k ⟨fun _ _ => rfl, rfl⟩

/-- A channel that has bytes to read either waits or has a read burst outstanding. -/
theorem State.issueReads_mover (s : State) (n k : Nat) :
    (s.issueReads k).mover n = s.mover n ∨ ((s.issueReads k).mover n).reads ≠ [] := by
  refine State.issueReads_invariant (P := fun t => t.mover n = s.mover n ∨ (t.mover n).reads ≠ []) ?_ k (.inl rfl)
  intro t m _ h
  by_cases hm : n = m
  · rw [hm, State.mover_issueRead_self]
    exact .inr (by simp [Mover.readNext])
  · rw [State.mover_issueRead_ne hm]
    exact h

/-- A channel without bytes to read stays as it is. -/
theorem State.issueReads_mover_of_read (h : (s.mover n).len ≤ (s.mover n).issued) (k : Nat) :
    (s.issueReads k).mover n = s.mover n := by
  refine State.issueReads_invariant (P := fun t => t.mover n = s.mover n) ?_ k rfl
  intro t m hmay ht
  refine (State.mover_issueRead_ne ?_ _).trans ht
  rintro rfl
  have hlt : (t.mover n).issued < (t.mover n).len := by
    simp only [State.mayIssue, Bool.and_eq_true, Nat.blt_eq] at hmay
    exact hmay.1.1.1.2
  rw [ht] at hlt
  omega

end Bursts

/-! ### The end of a channel (R406) -/

section Control

variable {s : State} {n : Nat}

theorem bmv_fields_held : ∀ n < 8, Fld.held (F.bmvCtlEn n) = true ∧ Fld.held (F.bmvCtlGoBusy n) = true ∧
    Fld.held (F.bmvStsDone n) = true ∧ Fld.held (F.bmvStsStatus n) = true := by decide +kernel

theorem State.rd_fset_ne {f : Fld} {a : Nat} (h : a ≠ f.addr) (s : State) (b : Bool) : (s.fset f b).rd a = s.rd a :=
  State.rd_fput_ne h s _

theorem State.flag_fset_ne {f g : Fld} (h : g.addr ≠ f.addr) (s : State) (b : Bool) : (s.fset f b).flag g = s.flag g :=
  State.flag_fput_ne h s _

theorem State.pulse_rd (s : State) (id a : Nat) : (s.pulse id).rd a = s.rd a := congrArg BitVec.toNat (s.pulse_word id a)

theorem State.pulse_fget (s : State) (id : Nat) (f : Fld) : (s.pulse id).fget f = s.fget f :=
  State.fget_eq_of_rd (s.pulse_rd id _)

theorem State.pulse_flag (s : State) (id : Nat) (f : Fld) : (s.pulse id).flag f = s.flag f :=
  State.flag_eq_of_rd (s.pulse_rd id _)

/-- A switched domain's readiness is read from its own word. -/
theorem State.ready_eq_of_rd {t : State} {d : Nat} (hd : d ≠ 0) (h : t.rd (Reg.pwrDom d) = s.rd (Reg.pwrDom d)) :
    t.ready d = s.ready d := by
  simp only [State.ready, State.fget_eq_of_rd (f := F.pwrDomState d) h, bne_iff_ne.mpr hd, Bool.true_or]

theorem State.pulse_of_ready (h : s.ready 47 = true) (id : Nat) : s.pulse id = { s with pulses := s.pulses ++ [id] } :=
  State.when_true h s _

theorem State.pulse_out (s : State) (id : Nat) : (s.pulse id).out = s.out :=
  State.when_keeps (·.out) (g := fun t => { t with pulses := t.pulses ++ [id] }) (fun _ => rfl) s _

/-- A channel that is not busy, or has something outstanding or to read, goes on. -/
theorem State.moverCheck_of_going (h : s.flag (F.bmvCtlGoBusy n) = false ∨ (s.mover n).reads ≠ [] ∨
    (s.mover n).fail = 0 ∧ (s.mover n).issued ≠ (s.mover n).len) : s.moverCheck n = s := by
  rcases h with hidle | hreads | ⟨hfail, hmore⟩
  · simp [State.moverCheck, hidle]
  · simp [State.moverCheck, List.isEmpty_eq_false_iff.mpr hreads]
  · simp [State.moverCheck, hfail, beq_eq_false_iff_ne.mpr hmore]

/-- A busy channel with nothing to read or write and no error ends OK. -/
theorem State.moverCheck_of_empty {x : Mover} (hbusy : s.flag (F.bmvCtlGoBusy n) = true) (hx : s.mover n = x)
    (hempty : x.reads = [] ∧ x.writes = [] ∧ x.held = [] ∧ x.issued = x.len) (hfail : x.fail = 0) :
    s.moverCheck n = s.moverEnd n 0 := by
  obtain ⟨hreads, hwrites, hheld, hlen⟩ := hempty
  simp [State.moverCheck, hbusy, hx, hreads, hwrites, hheld, hlen, hfail]

/-- The registers of a channel that ends: BUSY clears, DONE sets and STATUS shows how. -/
def State.moverShown (s : State) (n status : Nat) : State :=
  (((s.fset (F.bmvCtlGoBusy n) false).fset (F.bmvStsDone n) true).fput (F.bmvStsStatus n) status).setMover n {}

theorem State.moverEnd_ok (s : State) (n : Nat) : s.moverEnd n 0 = (s.moverShown n 0).pulse (1 + n) := rfl

theorem State.moverEnd_aborted (s : State) (n : Nat) : s.moverEnd n 1 = (s.moverShown n 1).cnt (Reg.bmvCnt 3) := rfl

theorem bmvCtl_ne_bmvSts (n : Nat) : Reg.bmvCtl n ≠ Reg.bmvSts n := by simp [Reg.bmvCtl, Reg.bmvSts]

theorem State.moverShown_fields (hn : n < 8) (s : State) (status : Nat) :
    (s.moverShown n status).flag (F.bmvCtlEn n) = s.flag (F.bmvCtlEn n) ∧
    (s.moverShown n status).flag (F.bmvCtlGoBusy n) = false ∧ (s.moverShown n status).flag (F.bmvStsDone n) = true ∧
    (s.moverShown n status).fget (F.bmvStsStatus n) = status % 2 ^ 3 := by
  obtain ⟨hen, hbusy, hdone, hstatus⟩ := bmv_fields_held n hn
  have hne := bmvCtl_ne_bmvSts n
  refine ⟨?_, ?_, ?_, ?_⟩ <;> rw [State.moverShown]
  · rw [State.setMover_flag, State.flag_fput_ne (f := F.bmvStsStatus n) (g := F.bmvCtlEn n) hne,
      State.flag_fset_ne (f := F.bmvStsDone n) (g := F.bmvCtlEn n) hne,
      State.flag_fset_other (f := F.bmvCtlGoBusy n) hen rfl (.inl (Nat.le_refl 1))]
  · rw [State.setMover_flag, State.flag_fput_ne (f := F.bmvStsStatus n) (g := F.bmvCtlGoBusy n) hne,
      State.flag_fset_ne (f := F.bmvStsDone n) (g := F.bmvCtlGoBusy n) hne, State.flag_fset_self hbusy rfl]
  · rw [State.setMover_flag, State.flag, State.fget_fput_other (f := F.bmvStsStatus n) hdone rfl (.inl (Nat.le_refl 1)), ← State.flag,
      State.flag_fset_self hdone rfl]
  · rw [State.setMover_fget, State.fget_fput_self hstatus, F.bmvStsStatus]

theorem State.moverShown_pulses (s : State) (n status : Nat) : (s.moverShown n status).pulses = s.pulses := rfl

theorem State.moverShown_out (s : State) (n status : Nat) : (s.moverShown n status).out = s.out := rfl

/-- A channel that ends OK or aborted changes its control and status words only, besides the count of aborts. -/
theorem State.rd_moverShown_ne {a : Nat} (hctl : a ≠ Reg.bmvCtl n) (hsts : a ≠ Reg.bmvSts n) (s : State) (status : Nat) :
    (s.moverShown n status).rd a = s.rd a := by
  rw [State.moverShown, State.setMover_rd, State.rd_fput_ne (f := F.bmvStsStatus n) hsts,
    State.rd_fset_ne (f := F.bmvStsDone n) hsts, State.rd_fset_ne (f := F.bmvCtlGoBusy n) hctl]

/-! ### A clearing of EN (R406) -/

theorem State.moverAbort_of_idle (h : s.flag (F.bmvCtlGoBusy n) = false) : s.moverAbort n = s := by
  simp [State.moverAbort, h]

/-- A channel that ends OK or aborted keeps its EN. -/
theorem State.flag_moverEnd_en (hn : n < 8) {status : Nat} (h : status = 0 ∨ status = 1) (s : State) :
    (s.moverEnd n status).flag (F.bmvCtlEn n) = s.flag (F.bmvCtlEn n) := by
  rcases h with rfl | rfl
  · rw [State.moverEnd_ok, State.flag_eq_of_rd (congrArg BitVec.toNat (State.pulse_word ..))]
    exact (s.moverShown_fields hn 0).1
  · have hne : (F.bmvCtlEn n).addr ≠ Reg.bmvCnt 3 := by
      simp only [F.bmvCtlEn, Reg.bmvCtl, Reg.bmvCnt]
      omega
    rw [State.moverEnd_aborted, State.cnt, State.flag_eq_of_rd (State.rd_wr_ne hne _ _)]
    exact (s.moverShown_fields hn 1).1

/-- A channel that is aborted or not yet at its end keeps its EN. -/
theorem State.flag_moverCheck_en (hn : n < 8) (hfail : (s.mover n).fail = 1) :
    (s.moverCheck n).flag (F.bmvCtlEn n) = s.flag (F.bmvCtlEn n) := by
  unfold State.moverCheck
  dsimp only
  rw [hfail]
  cases s.flag (F.bmvCtlGoBusy n) && (s.mover n).reads.isEmpty && (s.mover n).writes.isEmpty && (1 != 0 ||
    (s.mover n).issued == (s.mover n).len && (s.mover n).held.isEmpty)
  · rfl
  · refine State.flag_moverEnd_en hn ?_ s
    cases (s.mover n).issued == (s.mover n).len && (s.mover n).held.isEmpty && 1 == 1 &&
      (s.mover n).abortAt == some s.counter
    · exact .inr rfl
    · exact .inl rfl

/-- An aborted channel keeps the EN that was written. -/
theorem State.flag_moverAbort_en (hn : n < 8) (s : State) :
    (s.moverAbort n).flag (F.bmvCtlEn n) = s.flag (F.bmvCtlEn n) := by
  unfold State.moverAbort
  cases s.flag (F.bmvCtlGoBusy n) && (s.mover n).fail == 0
  · rfl
  · exact State.flag_moverCheck_en hn (by rw [State.mover_setMover_self])

/-! ### GO (R404) -/

/-- The registers at the instant of a GO that starts a channel: it is counted, and DONE, STATUS and BYTES clear. -/
def State.moverCleared (s : State) (n : Nat) : State :=
  ((s.cnt (Reg.bmvCnt 0)).wr (Reg.bmvSts n) 0).wr (Reg.bmvBytes n) 0

/-- The record of a channel that starts: the move its registers describe. -/
def State.moverLoad (s : State) (n : Nat) : Mover :=
  { src := s.rd (Reg.bmvSrcLo n) + 2 ^ 32 * s.rd (Reg.bmvSrcHi n)
    dst := s.rd (Reg.bmvDstLo n) + 2 ^ 32 * s.rd (Reg.bmvDstHi n)
    len := s.rd (Reg.bmvLen n) }

/-- The channel at the instant of a GO that starts it. -/
def State.moverStarted (s : State) (n : Nat) : State :=
  ((s.moverCleared n).setMover n ((s.moverCleared n).moverLoad n)).fset (F.bmvCtlGoBusy n) true

theorem State.moverGo_of_ignored (h : s.flag (F.bmvCtlGoBusy n) = true ∨ s.flag (F.bmvCtlEn n) = false) :
    s.moverGo n = s.cnt (Reg.bmvCnt 1) := by
  rcases h with h | h <;> simp [State.moverGo, h]

theorem State.moverGo_of_idle (hen : s.flag (F.bmvCtlEn n) = true) (hidle : s.flag (F.bmvCtlGoBusy n) = false) :
    s.moverGo n = ((s.moverStarted n).issueReads 64).moverCheck n := by
  rw [State.moverGo, hen, hidle]
  rfl

theorem State.rd_moverCleared_ne {a : Nat} (hcnt : a ≠ Reg.bmvCnt 0) (hsts : a ≠ Reg.bmvSts n)
    (hbytes : a ≠ Reg.bmvBytes n) (s : State) : (s.moverCleared n).rd a = s.rd a := by
  rw [State.moverCleared, State.rd_wr_ne hbytes, State.rd_wr_ne hsts, State.cnt, State.rd_wr_ne hcnt]

/-- A GO that starts a channel changes four words. -/
theorem State.rd_moverStarted_ne {a : Nat} (hcnt : a ≠ Reg.bmvCnt 0) (hsts : a ≠ Reg.bmvSts n)
    (hbytes : a ≠ Reg.bmvBytes n) (hctl : a ≠ Reg.bmvCtl n) (s : State) : (s.moverStarted n).rd a = s.rd a := by
  rw [State.moverStarted, State.rd_fset_ne (f := F.bmvCtlGoBusy n) hctl, State.setMover_rd,
    State.rd_moverCleared_ne hcnt hsts hbytes]

theorem State.moverStarted_shown (hn : n < 8) (s : State) :
    (s.moverStarted n).flag (F.bmvCtlEn n) = s.flag (F.bmvCtlEn n) ∧
    (s.moverStarted n).flag (F.bmvCtlGoBusy n) = true ∧ (s.moverStarted n).rd (Reg.bmvSts n) = 0 ∧
    (s.moverStarted n).rd (Reg.bmvBytes n) = 0 := by
  obtain ⟨hen, hbusy, -, -⟩ := bmv_fields_held n hn
  have hctl : Reg.bmvCtl n ≠ Reg.bmvCnt 0 ∧ Reg.bmvCtl n ≠ Reg.bmvSts n ∧ Reg.bmvCtl n ≠ Reg.bmvBytes n ∧
      Reg.bmvSts n ≠ Reg.bmvBytes n := by
    simp only [Reg.bmvCtl, Reg.bmvBytes, Reg.bmvSts, Reg.bmvCnt]
    omega
  obtain ⟨hcnt, hsts, hbytes, hother⟩ := hctl
  refine ⟨?_, State.flag_fset_self hbusy rfl _ true, ?_, ?_⟩ <;> rw [State.moverStarted]
  · rw [State.flag_fset_other (f := F.bmvCtlGoBusy n) hen rfl (.inl (Nat.le_refl 1)), State.setMover_flag,
      State.flag_eq_of_rd (f := F.bmvCtlEn n) (State.rd_moverCleared_ne hcnt hsts hbytes s)]
  · rw [State.rd_fset_ne (f := F.bmvCtlGoBusy n) hsts.symm, State.setMover_rd, State.moverCleared, State.rd_wr_ne hother,
      State.rd_wr_zero]
  · rw [State.rd_fset_ne (f := F.bmvCtlGoBusy n) hbytes.symm, State.setMover_rd, State.moverCleared, State.rd_wr_zero]

/-- The record of a channel that a GO starts: nothing issued, LEN bytes to move. -/
theorem State.mover_moverStarted (s : State) (n : Nat) :
    (s.moverStarted n).mover n = (s.moverCleared n).moverLoad n := by
  rw [State.moverStarted, State.mover, State.fset, State.fput, State.wr]
  exact State.mover_setMover_self ..

theorem State.mover_moverStarted_ne {m : Nat} (h : m ≠ n) (s : State) : (s.moverStarted n).mover m = s.mover m := by
  rw [State.moverStarted, State.mover, State.fset, State.fput, State.wr]
  exact State.mover_setMover_ne h ..

theorem State.moverLoad_len (s : State) (n : Nat) : ((s.moverCleared n).moverLoad n).len = s.rd (Reg.bmvLen n) := by
  refine State.rd_moverCleared_ne ?_ ?_ ?_ s <;> simp only [Reg.bmvLen, Reg.bmvBytes, Reg.bmvSts, Reg.bmvCnt] <;> omega

/-- A start with bytes to move goes on. -/
theorem State.moverGo_of_move (hen : s.flag (F.bmvCtlEn n) = true) (hidle : s.flag (F.bmvCtlGoBusy n) = false)
    (hlen : s.rd (Reg.bmvLen n) ≠ 0) : s.moverGo n = (s.moverStarted n).issueReads 64 := by
  rw [State.moverGo_of_idle hen hidle]
  refine State.moverCheck_of_going ?_
  rcases State.issueReads_mover (s.moverStarted n) n 64 with hwaits | hreads
  · rw [hwaits, State.mover_moverStarted, State.moverLoad_len]
    exact .inr (.inr ⟨rfl, hlen.symm⟩)
  · exact .inr (.inl hreads)

/-- A start without bytes to move ends OK at once. -/
theorem State.moverGo_of_empty (hn : n < 8) (hen : s.flag (F.bmvCtlEn n) = true)
    (hidle : s.flag (F.bmvCtlGoBusy n) = false) (hlen : s.rd (Reg.bmvLen n) = 0) :
    s.moverGo n = ((s.moverStarted n).issueReads 64).moverEnd n 0 := by
  obtain ⟨-, hbusy, -, -⟩ := s.moverStarted_shown hn
  have hload : ((s.moverStarted n).mover n).len = 0 := by rw [State.mover_moverStarted, State.moverLoad_len, hlen]
  have hmover : ((s.moverStarted n).issueReads 64).mover n = (s.moverCleared n).moverLoad n :=
    (State.issueReads_mover_of_read (hload ▸ Nat.zero_le _) 64).trans (s.mover_moverStarted n)
  have hctl : Reg.bmvCtl n ≠ Reg.mtxOut 7 := by
    simp only [Reg.bmvCtl, Reg.mtxOut]
    omega
  rw [State.moverGo_of_idle hen hidle]
  refine State.moverCheck_of_empty ?_ hmover ⟨rfl, rfl, rfl, ?_⟩ rfl
  · rw [State.flag_eq_of_rd (f := F.bmvCtlGoBusy n) ((State.issueReads_frame _ _).1 _ hctl), hbusy]
  · exact (s.moverLoad_len n).trans hlen |>.symm

/-- Whether a channel may issue a read burst is read from its record and three words. -/
theorem State.mayIssue_eq_of_rd {t : State} {m : Nat} (hctl : t.rd (Reg.bmvCtl m) = s.rd (Reg.bmvCtl m))
    (hshed : t.rd (Reg.hscMargin 4) = s.rd (Reg.hscMargin 4)) (hout : t.rd (Reg.mtxOut 7) = s.rd (Reg.mtxOut 7))
    (hmover : t.mover m = s.mover m) : t.mayIssue m = s.mayIssue m := by
  simp only [State.mayIssue, State.bmvOpen, hmover, State.flag_eq_of_rd (f := F.bmvCtlGoBusy m) hctl,
    State.fget_eq_of_rd (f := F.hscMarginShed 4) hshed, State.flag_eq_of_rd (f := F.mtxOutRst 7) hout,
    State.fget_eq_of_rd (f := F.mtxOutRd 7) hout]

/-- A start without bytes to move lets no channel issue that might not issue before. -/
theorem State.mayIssue_moverStarted (hlen : s.rd (Reg.bmvLen n) = 0) {m : Nat}
    (h : m ≠ n → s.mayIssue m = false) : (s.moverStarted n).mayIssue m = false := by
  by_cases hmn : m = n
  · have hzero : ((s.moverStarted n).mover m).len = 0 := by rw [hmn, State.mover_moverStarted, State.moverLoad_len, hlen]
    simp [State.mayIssue, hzero, Nat.blt]
  · rw [← h hmn]
    refine State.mayIssue_eq_of_rd (State.rd_moverStarted_ne ?_ ?_ ?_ ?_ s) (State.rd_moverStarted_ne ?_ ?_ ?_ ?_ s)
      (State.rd_moverStarted_ne ?_ ?_ ?_ ?_ s) (State.mover_moverStarted_ne hmn s)
    all_goals
      simp only [Reg.bmvCtl, Reg.bmvCnt, Reg.bmvSts, Reg.bmvBytes, Reg.hscMargin, Reg.mtxOut]
      omega

end Control

/-! ### A write of BMV_CTL -/

/-- A write with GO takes its EN, aborts a busy channel that loses it, and then judges the GO. -/
theorem exec_bmvGo_of_reached {s : State} {n : Nat} (h : s.reaches (Reg.bmvCtl n) = true) (w : Nat) :
    exec (.bmvGo n w) s = .next (((s.fset (F.bmvCtlEn n) (bitAt w 0)).when
      (s.flag (F.bmvCtlEn n) && !bitAt w 0) (·.moverAbort n)).moverGo n) := by
  have hen : bitAt (w ||| 2) 0 = bitAt w 0 := by simp [bitAt]
  have hgo : bitAt (w ||| 2) 1 = true := by simp only [bitAt, Nat.testBit_or, show Nat.testBit 2 1 = true from rfl, Bool.or_true]
  refine congrArg Host.Outcome.next ((State.atReg_reached h _).trans ?_)
  rw [State.writeBmvCtl, hen, State.when_true hgo]

section Go

variable {s : State} {n w : Nat}

/-- A GO written with EN = 1 to a channel that is not busy starts it. -/
theorem exec_bmvGo_of_start (hreach : s.reaches (Reg.bmvCtl n) = true) (hen : bitAt w 0 = true) :
    exec (.bmvGo n w) s = .next ((s.fset (F.bmvCtlEn n) true).moverGo n) := by
  rw [exec_bmvGo_of_reached hreach, hen, State.when_false (by rw [Bool.not_true, Bool.and_false])]

/-- EN written to a channel leaves its BUSY. -/
theorem State.flag_fset_en_busy (hn : n < 8) (s : State) (b : Bool) :
    (s.fset (F.bmvCtlEn n) b).flag (F.bmvCtlGoBusy n) = s.flag (F.bmvCtlGoBusy n) := by
  obtain ⟨-, hbusy, -, -⟩ := bmv_fields_held n hn
  exact State.flag_fset_other (f := F.bmvCtlEn n) hbusy rfl (.inr (Nat.le_refl 1)) s b

/-- EN written to a channel leaves its LEN. -/
theorem State.rd_fset_en_len (s : State) (n : Nat) : (s.fset (F.bmvCtlEn n) true).rd (Reg.bmvLen n) = s.rd (Reg.bmvLen n) :=
  State.rd_fset_ne (f := F.bmvCtlEn n) (by simp [F.bmvCtlEn, Reg.bmvLen, Reg.bmvCtl]) s true

/-- EN written to a channel leaves what another one may issue. -/
theorem State.mayIssue_fset_en {m : Nat} (h : m ≠ n) (s : State) (b : Bool) :
    (s.fset (F.bmvCtlEn n) b).mayIssue m = s.mayIssue m := by
  refine State.mayIssue_eq_of_rd (State.rd_fset_ne ?_ s b) (State.rd_fset_ne ?_ s b) (State.rd_fset_ne ?_ s b) rfl <;>
    simp only [F.bmvCtlEn, Reg.bmvCtl, Reg.hscMargin, Reg.mtxOut] <;> omega

/-- A GO written to a busy channel, or without EN, is counted and ignored. -/
theorem exec_bmvGo_of_ignored (hn : n < 8) (hreach : s.reaches (Reg.bmvCtl n) = true)
    (h : bitAt w 0 = true ∧ s.flag (F.bmvCtlGoBusy n) = true ∨
      bitAt w 0 = false ∧ (s.flag (F.bmvCtlEn n) = false ∨ s.flag (F.bmvCtlGoBusy n) = false)) :
    exec (.bmvGo n w) s = .next ((s.fset (F.bmvCtlEn n) (bitAt w 0)).cnt (Reg.bmvCnt 1)) := by
  obtain ⟨hen, -, -, -⟩ := bmv_fields_held n hn
  have hbusy := s.flag_fset_en_busy hn (bitAt w 0)
  rw [exec_bmvGo_of_reached hreach]
  rcases h with ⟨hw, hrun⟩ | ⟨hw, hoff | hidle⟩
  · rw [State.when_false (by rw [hw, Bool.not_true, Bool.and_false]), State.moverGo_of_ignored (.inl (hbusy.trans hrun))]
  · rw [State.when_false (by rw [hoff, Bool.false_and]),
      State.moverGo_of_ignored (.inr ((State.flag_fset_self hen rfl s _).trans hw))]
  · have hkept : (s.fset (F.bmvCtlEn n) (bitAt w 0)).when (s.flag (F.bmvCtlEn n) && !bitAt w 0) (·.moverAbort n)
        = s.fset (F.bmvCtlEn n) (bitAt w 0) := by
      cases s.flag (F.bmvCtlEn n) && !bitAt w 0
      · rfl
      · exact State.moverAbort_of_idle (hbusy.trans hidle)
    rw [hkept, State.moverGo_of_ignored (.inr ((State.flag_fset_self hen rfl s _).trans hw))]

/-- The words that describe a move. -/
def moveWords (n : Nat) : List Nat := [Reg.bmvSrcLo n, Reg.bmvSrcHi n, Reg.bmvDstLo n, Reg.bmvDstHi n, Reg.bmvLen n]

/-- A word that describes a move is none of those that a GO changes. -/
theorem moveWords_ne (hn : n < 8) {a : Nat} (h : a ∈ moveWords n) : a ≠ Reg.bmvCtl n ∧ a ≠ Reg.bmvSts n ∧
    a ≠ Reg.bmvBytes n ∧ a ≠ Reg.bmvCnt 0 ∧ a ≠ Reg.mtxOut 7 := by
  simp only [moveWords, List.mem_cons, List.not_mem_nil, or_false, Reg.bmvSrcLo, Reg.bmvSrcHi, Reg.bmvDstLo, Reg.bmvDstHi,
    Reg.bmvLen] at h
  simp only [Reg.bmvCtl, Reg.bmvSts, Reg.bmvBytes, Reg.bmvCnt, Reg.mtxOut]
  omega

/-- What a start leaves once its read bursts have gone out: the registers of a channel that moves. -/
theorem State.started_shown (hn : n < 8) (k : Nat) :
    let t := ((s.fset (F.bmvCtlEn n) true).moverStarted n).issueReads k
    t.flag (F.bmvCtlEn n) = true ∧ t.flag (F.bmvCtlGoBusy n) = true ∧ t.rd (Reg.bmvSts n) = 0 ∧ t.rd (Reg.bmvBytes n) = 0 ∧
      (∀ a ∈ moveWords n, t.rd a = s.rd a) ∧ t.pulses = s.pulses ∧ t.ready 47 = s.ready 47 := by
  intro t
  obtain ⟨hen, -, -, -⟩ := bmv_fields_held n hn
  obtain ⟨hframe, hpulses⟩ := ((s.fset (F.bmvCtlEn n) true).moverStarted n).issueReads_frame k
  obtain ⟨henShown, hbusyShown, hstsShown, hbytesShown⟩ := (s.fset (F.bmvCtlEn n) true).moverStarted_shown hn
  have hout : Reg.bmvCtl n ≠ Reg.mtxOut 7 ∧ Reg.bmvSts n ≠ Reg.mtxOut 7 ∧ Reg.bmvBytes n ≠ Reg.mtxOut 7 := by
    simp only [Reg.bmvCtl, Reg.bmvSts, Reg.bmvBytes, Reg.mtxOut]
    omega
  obtain ⟨hctl, hsts, hbytes⟩ := hout
  refine ⟨?_, ?_, (hframe _ hsts).trans hstsShown, (hframe _ hbytes).trans hbytesShown, fun a ha => ?_, hpulses, ?_⟩
  · rw [State.flag_eq_of_rd (f := F.bmvCtlEn n) (hframe _ hctl), henShown, State.flag_fset_self hen rfl]
  · rw [State.flag_eq_of_rd (f := F.bmvCtlGoBusy n) (hframe _ hctl), hbusyShown]
  · obtain ⟨hac, has, hab, hcnt, hao⟩ := moveWords_ne hn ha
    rw [hframe a hao, State.rd_moverStarted_ne hcnt has hab hac,
      State.rd_fset_ne (f := F.bmvCtlEn n) hac]
  · refine State.ready_eq_of_rd (by decide) ?_
    have hdom : Reg.pwrDom 47 ≠ Reg.bmvCnt 0 ∧ Reg.pwrDom 47 ≠ Reg.bmvSts n ∧ Reg.pwrDom 47 ≠ Reg.bmvBytes n ∧
        Reg.pwrDom 47 ≠ Reg.bmvCtl n := by
      simp only [Reg.pwrDom, Reg.bmvCnt, Reg.bmvCtl, Reg.bmvSts, Reg.bmvBytes]
      omega
    obtain ⟨hdc, hds, hdb, hdctl⟩ := hdom
    rw [hframe _ (by decide), State.rd_moverStarted_ne hdc hds hdb hdctl, State.rd_fset_ne (f := F.bmvCtlEn n) hdctl]

/-- A start with bytes to move: the channel is busy, and its status is clear. -/
theorem exec_bmvGo_of_move (hn : n < 8) (hreach : s.reaches (Reg.bmvCtl n) = true) (hw : bitAt w 0 = true)
    (hidle : s.flag (F.bmvCtlGoBusy n) = false) (hlen : s.rd (Reg.bmvLen n) ≠ 0) : ∃ t, exec (.bmvGo n w) s = .next t ∧
      t.flag (F.bmvCtlEn n) = true ∧ t.flag (F.bmvCtlGoBusy n) = true ∧ t.flag (F.bmvStsDone n) = false ∧
      t.fget (F.bmvStsStatus n) = 0 ∧ t.rd (Reg.bmvBytes n) = 0 ∧ (∀ a ∈ moveWords n, t.rd a = s.rd a) ∧
      t.pulses = s.pulses := by
  obtain ⟨hheld, -, -, -⟩ := bmv_fields_held n hn
  obtain ⟨hen, hbusy, hsts, hbytes, hmove, hpulses, -⟩ := State.started_shown (s := s) hn 64
  refine ⟨_, by rw [exec_bmvGo_of_start hreach hw, State.moverGo_of_move (State.flag_fset_self hheld rfl s true)
    ((s.flag_fset_en_busy hn true).trans hidle) ((s.rd_fset_en_len n) ▸ hlen)], hen, hbusy, ?_, ?_, hbytes, hmove, hpulses⟩
  · simp [State.flag, State.fget, F.bmvStsDone, hsts, bitsOf]
  · simp [State.fget, F.bmvStsStatus, hsts, bitsOf]

/-- A start without bytes to move: the channel has ended OK, and its pulse is on its way. -/
theorem exec_bmvGo_of_empty (hn : n < 8) (hreach : s.reaches (Reg.bmvCtl n) = true) (hready : s.ready 47 = true)
    (hw : bitAt w 0 = true) (hidle : s.flag (F.bmvCtlGoBusy n) = false) (hlen : s.rd (Reg.bmvLen n) = 0) :
    ∃ t, exec (.bmvGo n w) s = .next t ∧ t.flag (F.bmvCtlEn n) = true ∧ t.flag (F.bmvCtlGoBusy n) = false ∧
      t.flag (F.bmvStsDone n) = true ∧ t.fget (F.bmvStsStatus n) = 0 ∧ t.rd (Reg.bmvBytes n) = 0 ∧
      (∀ a ∈ moveWords n, t.rd a = s.rd a) ∧ t.pulses = s.pulses ++ [1 + n] ∧
      ((∀ m, m < 8 → s.mayIssue m = false) → t.out = s.out) := by
  obtain ⟨hheld, -, -, -⟩ := bmv_fields_held n hn
  obtain ⟨hen, -, -, hbytes, hmove, hpulses, hpower⟩ := State.started_shown (s := s) hn 64
  obtain ⟨henEnd, hbusyEnd, hdoneEnd, hstatusEnd⟩ :=
    (((s.fset (F.bmvCtlEn n) true).moverStarted n).issueReads 64).moverShown_fields hn 0
  have hrd : ∀ a, a ≠ Reg.bmvCtl n → a ≠ Reg.bmvSts n → ∀ u : State, ((u.moverShown n 0).pulse (1 + n)).rd a = u.rd a :=
    fun a hctl hsts u => by rw [State.pulse_rd, State.rd_moverShown_ne hctl hsts]
  refine ⟨_, by rw [exec_bmvGo_of_start hreach hw, State.moverGo_of_empty hn (State.flag_fset_self hheld rfl s true)
    ((s.flag_fset_en_busy hn true).trans hidle) ((s.rd_fset_en_len n).trans hlen), State.moverEnd_ok],
    ?_, ?_, ?_, ?_, ?_, ?_, ?_, fun hnone => ?_⟩
  · rw [State.pulse_flag, henEnd, hen]
  · rw [State.pulse_flag, hbusyEnd]
  · rw [State.pulse_flag, hdoneEnd]
  · rw [State.pulse_fget, hstatusEnd, Nat.zero_mod]
  · rw [hrd _ (by simp [Reg.bmvBytes, Reg.bmvCtl]) (by simp [Reg.bmvBytes, Reg.bmvSts]), hbytes]
  · intro a ha
    obtain ⟨hctl, hsts, -⟩ := moveWords_ne hn ha
    exact (hrd a hctl hsts _).trans (hmove a ha)
  · have hdom : Reg.pwrDom 47 ≠ Reg.bmvCtl n ∧ Reg.pwrDom 47 ≠ Reg.bmvSts n := by
      simp only [Reg.pwrDom, Reg.bmvCtl, Reg.bmvSts]
      omega
    have hpowerEnd := (State.ready_eq_of_rd (d := 47) (by decide) (State.rd_moverShown_ne hdom.1 hdom.2 _ 0)).trans
      (hpower.trans hready)
    rw [State.pulse_of_ready hpowerEnd, State.moverShown_pulses, hpulses]
  · rw [State.pulse_out, State.moverShown_out, State.issueReads_of_none fun m hm =>
      State.mayIssue_moverStarted ((s.rd_fset_en_len n).trans hlen) fun hmn =>
        (s.mayIssue_fset_en hmn true).trans (hnone m hm)]
    rfl

end Go

/-- Settles O56: EN as written, then the GO by what EN and BUSY are. -/
theorem goStartsAMoverChannel : Obligations.GoStartsAMoverChannel := by
  intro s n w hn hreach hready
  refine ⟨exec_bmvGo_of_move hn hreach, exec_bmvGo_of_empty hn hreach hready, fun h => ?_, fun hw hon hrun => ?_⟩
  · obtain ⟨hheld, -, -, -⟩ := bmv_fields_held n hn
    have hfull : implOf (Reg.bmvCnt 1) = 2 ^ 32 - 1 := by decide +kernel
    have hcnt : (F.bmvCtlEn n).addr ≠ Reg.bmvCnt 1 := by
      simp only [F.bmvCtlEn, Reg.bmvCtl, Reg.bmvCnt]
      omega
    refine ⟨_, exec_bmvGo_of_ignored hn hreach h, ?_, ?_, ?_, ?_⟩
    · rw [State.cnt, State.rd_wr_full hfull, Nat.mod_mod, State.rd_fset_ne hcnt.symm]
    · rw [State.cnt, State.flag_eq_of_rd (State.rd_wr_ne hcnt _ _), State.flag_fset_self hheld rfl]
    · rw [State.cnt, State.flag_eq_of_rd (f := F.bmvCtlGoBusy n) (State.rd_wr_ne hcnt _ _), s.flag_fset_en_busy hn]
    · exact (OnlyWords.refl.fset (f := F.bmvCtlEn n) (by simp [F.bmvCtlEn]) _).wr (by simp) _
  · obtain ⟨hheld, -, -, -⟩ := bmv_fields_held n hn
    have hoff : ((s.fset (F.bmvCtlEn n) false).moverAbort n).flag (F.bmvCtlEn n) = false :=
      (State.flag_moverAbort_en hn _).trans (State.flag_fset_self hheld rfl s false)
    rw [exec_bmvGo_of_reached hreach, hw, State.when_true (by rw [hon, Bool.not_false, Bool.and_self]),
      State.moverGo_of_ignored (.inr hoff)]

end Sys2Proof.Machine
end

section
/-! SUPPORT. Power domains, resets and the test access port (R449 to R461, R479): what a change of one request is
accepted as, what the commands of the domains and of the resets do, and the statement of 17_power_reset_start.md. -/

namespace Sys2Proof.Machine

/-! ### One request changed (R451) -/

section Requests

variable {old n k : Nat} {b : Bool} {x : Nat × Nat}

theorem bitAt_withBits_self (b : Bool) (old n : Nat) : bitAt (withBits old n 1 (bit b)) n = b := by
  cases b <;> simp [bitAt, testBit_withBits, bit]

theorem bitAt_withBits_ne (h : k ≠ n) (old v : Nat) : bitAt (withBits old n 1 v) k = bitAt old k := by
  rw [bitAt, testBit_withBits]
  split
  · rfl
  · rw [if_neg (by omega)]
    rfl

/-- A bit changed and changed back. -/
theorem withBits_back (h : bitAt old n = b) (v : Nat) : withBits (withBits old n 1 v) n 1 (bit b) = old := by
  refine Nat.eq_of_testBit_eq fun i => ?_
  by_cases hi : i = n
  · rw [hi]
    exact (bitAt_withBits_self b _ n).trans h.symm
  · exact (bitAt_withBits_ne hi _ _).trans (bitAt_withBits_ne hi old v)

/-- No domain requires itself (Table 17.1). -/
theorem requiresOf_ne_self : ∀ n < 52, requiresOf n ≠ some n := by decide

/-- What one domain's turn in a pass over the changes of a request makes of it. -/
def refuseStep (old : Nat) (x : Nat × Nat) (n : Nat) : Nat × Nat :=
  let need := match requiresOf n with
    | some r => bitAt x.1 r
    | none => true
  bif bitAt x.1 n && !bitAt old n && !need then (withBits x.1 n 1 0, x.2 ||| 2 ^ n)
  else bif !bitAt x.1 n && bitAt old n && (List.range 52).any (fun m => bitAt x.1 m && requiresOf m == some n) then
    (withBits x.1 n 1 1, x.2 ||| 2 ^ n)
  else x

theorem refusePass_eq (old : Nat) (x : Nat × Nat) : refusePass old x = (List.range 52).foldl (refuseStep old) x := rfl

/-- A domain whose request is as before is passed over. -/
theorem refuseStep_of_same (h : bitAt x.1 n = bitAt old n) : refuseStep old x n = x := by
  simp [refuseStep, h]

/-- A domain switched on without the domain it requires is taken back. -/
theorem refuseStep_of_lacking {m : Nat} (hnew : bitAt x.1 n = true) (hold : bitAt old n = false)
    (hreq : requiresOf n = some m) (hlack : bitAt x.1 m = false) :
    refuseStep old x n = (withBits x.1 n 1 0, x.2 ||| 2 ^ n) := by
  simp [refuseStep, hnew, hold, hreq, hlack]

/-- A domain switched on with what it requires goes through. -/
theorem refuseStep_of_supplied (hnew : bitAt x.1 n = true) (hreq : ∀ m, requiresOf n = some m → bitAt x.1 m = true) :
    refuseStep old x n = x := by
  cases h : requiresOf n with
  | none => simp [refuseStep, hnew, h]
  | some m => simp [refuseStep, hnew, h, hreq m h]

/-- A domain switched off while another requires it is taken back. -/
theorem refuseStep_of_required {m : Nat} (hnew : bitAt x.1 n = false) (hold : bitAt old n = true) (hm : m < 52)
    (hreq : requiresOf m = some n) (hon : bitAt x.1 m = true) :
    refuseStep old x n = (withBits x.1 n 1 1, x.2 ||| 2 ^ n) := by
  have hany : (List.range 52).any (fun m => bitAt x.1 m && requiresOf m == some n) = true :=
    List.any_eq_true.mpr ⟨m, List.mem_range.mpr hm, by simp [hon, hreq]⟩
  simp [refuseStep, hnew, hold, hany]

/-- A domain switched off that no requested one requires goes through. -/
theorem refuseStep_of_free (hnew : bitAt x.1 n = false) (hfree : ∀ m < 52, bitAt x.1 m = true → requiresOf m ≠ some n) :
    refuseStep old x n = x := by
  have hnone : (List.range 52).any (fun m => bitAt x.1 m && requiresOf m == some n) = false := by
    rw [List.any_eq_false]
    intro m hm
    have := hfree m (List.mem_range.mp hm)
    simpa using this
  simp [refuseStep, hnew, hnone]

/-- A fold that each turn either leaves or brings to a fixed end, and one turn brings there, ends there. -/
theorem foldl_reaches {α β : Type} {f : β → α → β} {u v : β} {l : List α} {a : α} (ha : a ∈ l) (hreach : f u a = v)
    (hstep : ∀ y ∈ l, f u y = u ∨ f u y = v) (hend : ∀ y ∈ l, f v y = v) : l.foldl f u = v := by
  have hstay : ∀ l' : List α, (∀ y ∈ l', f v y = v) → l'.foldl f v = v := fun l' h =>
    List.foldlRecOn l' f (motive := (· = v)) rfl fun _ hb y hy => hb ▸ h y hy
  induction l with
  | nil => cases ha
  | cons y l ih =>
    have htail := hstay l fun z hz => hend z (List.mem_cons_of_mem _ hz)
    rw [List.foldl_cons]
    rcases hstep y List.mem_cons_self with hy | hy
    · rcases List.mem_cons.mp ha with rfl | hmem
      · rw [hreach, htail]
      · rw [hy, ih hmem (fun z hz => hstep z (List.mem_cons_of_mem _ hz)) fun z hz => hend z (List.mem_cons_of_mem _ hz)]
    · rw [hy, htail]

/-- A pass that leaves every domain's request as it is. -/
theorem refusePass_of_settled (h : ∀ k < 52, refuseStep old x k = x) : refusePass old x = x := by
  rw [refusePass_eq]
  exact List.foldlRecOn _ _ (motive := (· = x)) rfl fun _ hb k hk => hb ▸ h k (List.mem_range.mp hk)

/-- One changed request that its turn takes back is refused. -/
theorem acceptRequest_of_refused {v : Nat} (hn : n < 52) (hturn : refuseStep old (withBits old n 1 v, 0) n = (old, 2 ^ n)) :
    acceptRequest old (withBits old n 1 v) = (old, 2 ^ n) := by
  have hback : ∀ k, refuseStep old (old, 2 ^ n) k = (old, 2 ^ n) := fun k => refuseStep_of_same rfl
  have hfirst : refusePass old (withBits old n 1 v, 0) = (old, 2 ^ n) := by
    refine foldl_reaches (List.mem_range.mpr hn) hturn (fun k _ => ?_) fun k _ => hback k
    by_cases hk : k = n
    · exact .inr (hk ▸ hturn)
    · exact .inl (refuseStep_of_same (bitAt_withBits_ne hk old v))
  have hlater := refusePass_of_settled fun k (_ : k < 52) => hback k
  rw [acceptRequest, hfirst, hlater, hlater, hlater]

/-- One changed request that its turn lets through is accepted. -/
theorem acceptRequest_of_accepted {v : Nat} (hturn : refuseStep old (withBits old n 1 v, 0) n = (withBits old n 1 v, 0)) :
    acceptRequest old (withBits old n 1 v) = (withBits old n 1 v, 0) := by
  have hpass : refusePass old (withBits old n 1 v, 0) = (withBits old n 1 v, 0) := by
    refine refusePass_of_settled fun k _ => ?_
    by_cases hk : k = n
    · exact hk ▸ hturn
    · exact refuseStep_of_same (bitAt_withBits_ne hk old v)
  rw [acceptRequest, hpass, hpass, hpass, hpass]

theorem acceptRequest_on_refused {m : Nat} (hn : n < 52) (hoff : bitAt old n = false) (hreq : requiresOf n = some m)
    (hlack : bitAt old m = false) (hne : m ≠ n) : acceptRequest old (withBits old n 1 1) = (old, 2 ^ n) := by
  refine acceptRequest_of_refused hn ?_
  rw [refuseStep_of_lacking (bitAt_withBits_self true old n) hoff hreq ((bitAt_withBits_ne hne old 1).trans hlack)]
  exact Prod.ext (withBits_back (b := false) hoff 1) (Nat.zero_or _)

theorem acceptRequest_on_accepted (hreq : ∀ m, requiresOf n = some m → bitAt old m = true) :
    acceptRequest old (withBits old n 1 1) = (withBits old n 1 1, 0) := by
  refine acceptRequest_of_accepted (refuseStep_of_supplied (bitAt_withBits_self true old n) fun m hm => ?_)
  by_cases hmn : m = n
  · exact hmn ▸ bitAt_withBits_self true old n
  · exact (bitAt_withBits_ne hmn old 1).trans (hreq m hm)

theorem acceptRequest_off_refused {m : Nat} (hn : n < 52) (hon : bitAt old n = true) (hm : m < 52)
    (hmon : bitAt old m = true) (hreq : requiresOf m = some n) :
    acceptRequest old (withBits old n 1 0) = (old, 2 ^ n) := by
  have hne : m ≠ n := fun h => requiresOf_ne_self n hn (h ▸ hreq)
  refine acceptRequest_of_refused hn ?_
  rw [refuseStep_of_required (bitAt_withBits_self false old n) hon hm hreq ((bitAt_withBits_ne hne old 0).trans hmon)]
  exact Prod.ext (withBits_back (b := true) hon 0) (Nat.zero_or _)

theorem acceptRequest_off_accepted (hn : n < 52) (hfree : ∀ m < 52, bitAt old m = true → requiresOf m ≠ some n) :
    acceptRequest old (withBits old n 1 0) = (withBits old n 1 0, 0) := by
  refine acceptRequest_of_accepted (refuseStep_of_free (bitAt_withBits_self false old n) fun m hm hon => ?_)
  by_cases hmn : m = n
  · exact hmn ▸ requiresOf_ne_self n hn
  · exact hfree m hm ((bitAt_withBits_ne hmn old 0).symm.trans hon)

/-- The lowest refused domain is the one that REF_DOM shows. -/
theorem State.showRefused_of_lowest {no : Nat} (hn : n < 52) (hset : bitAt no n = true) (hlow : ∀ m < n, bitAt no m = false)
    (s : State) : s.showRefused no = (s.fset F.pwrStsRefused true).fput F.pwrStsRefDom n := by
  have hfind : (List.range 52).find? (fun n => bitAt no n) = some n := by
    rw [List.find?_range_eq_some]
    exact ⟨hset, List.mem_range.mpr hn, fun m hm => by simp [hlow m hm]⟩
  rw [State.showRefused, hfind]

theorem State.showRefused_of_none {no : Nat} (h : ∀ n < 52, bitAt no n = false) (s : State) : s.showRefused no = s := by
  have hfind : (List.range 52).find? (fun n => bitAt no n) = none :=
    List.find?_eq_none.mpr fun n hn => by simp [h n (List.mem_range.mp hn)]
  rw [State.showRefused, hfind]

end Requests

/-- A write of PWR_ON_j: the accepted requests stand, the lowest refused domain shows, and what is requested no longer is
switched off. -/
theorem State.writePwrOn_eq {s t u v : State} {j w new : Nat} {r : Nat × Nat}
    (hnew : new = if j = 0 then withBits (withBits s.requested 0 32 w) 0 1 1 else withBits s.requested 32 20 w)
    (hr : r = acceptRequest s.requested new) (ht : t = (s.wr Reg.pwrOn0 (r.1 % 2 ^ 32)).wr Reg.pwrOn1 (r.1 / 2 ^ 32))
    (hu : u = t.showRefused r.2) (hv : v = { u with pwr := { u.pwr with auto := if j = 0 then u.pwr.auto else 0 } }) :
    s.writePwrOn j w
      = eachOf ((List.range 52).filter (fun n => bitAt s.requested n && !bitAt r.1 n)) (fun n x => x.switchOff n) v := by
  rw [hv, hu, ht, hr, hnew]
  by_cases hj : j = 0
  · simp only [State.writePwrOn, hj, beq_self_eq_true, cond_true, if_true]
  · simp only [State.writePwrOn, beq_eq_false_iff_ne.mpr hj, cond_false, if_neg hj]

/-- The domain that a write of PWR_ON_j shows as refused, if any. -/
theorem State.showRefused_eq {t u : State} {no : Nat}
    (hsome : ∀ n, n < 52 → bitAt no n = true → (∀ m, m < n → bitAt no m = false) →
      u = (t.fset F.pwrStsRefused true).fput F.pwrStsRefDom n)
    (hnone : (∀ n, n < 52 → bitAt no n = false) → u = t) : u = t.showRefused no := by
  by_cases h : ∃ n, n < 52 ∧ bitAt no n = true
  · have hfound := Nat.find_spec h
    have hlow : ∀ m < Nat.find h, bitAt no m = false := fun m hm =>
      Bool.eq_false_iff.mpr fun hset => Nat.find_min h hm ⟨hm.trans hfound.1, hset⟩
    rw [State.showRefused_of_lowest hfound.1 hfound.2 hlow]
    exact hsome _ hfound.1 hfound.2 hlow
  · have hclear : ∀ n < 52, bitAt no n = false := fun n hn => Bool.eq_false_iff.mpr fun hset => h ⟨n, hn, hset⟩
    rw [State.showRefused_of_none hclear]
    exact hnone hclear

/-! ### The domains (R449, R461) -/

section Domains

variable {s : State} {n : Nat}

theorem exec_domainRampStart_of_next (hpower : s.ready 0 = true) (hstart : s.inv.started = true) (hidle : s.ramping = [])
    (hnext : s.nextRamp = some n) : exec .domainRampStart s = .next (s.setDomState n 1) := by
  refine congrArg Host.Outcome.next ((State.atDom_ready hpower _).trans ?_)
  simp [hstart, hidle, hnext]

theorem exec_domainRampStart_of_none (h : s.ready 0 = false ∨ s.inv.started = false ∨ s.ramping ≠ [] ∨ s.nextRamp = none) :
    exec .domainRampStart s = .next s := by
  refine congrArg Host.Outcome.next ?_
  cases hpower : s.ready 0
  · exact State.atDom_off hpower _
  · refine (State.atDom_ready hpower _).trans ?_
    rcases h with hoff | hstart | hramp | hnone
    · rw [hpower] at hoff
      cases hoff
    · simp [hstart]
    · simp [List.isEmpty_eq_false_iff.mpr hramp]
    · simp [hnone]

theorem exec_domainRampDone_of_ramp {l : List Nat} (h : s.ramping = n :: l) :
    exec .domainRampDone s = .next (((s.cntF (F.pwrDomRamps n)).setDomState n 2).domFollow n) := by
  simp only [exec, execDomainRampDone, h]

theorem exec_domainRampDone_of_none (h : s.ramping = []) : exec .domainRampDone s = .next s := by
  simp only [exec, execDomainRampDone, h]

theorem exec_domainOff_of_not (h : s.goingOff n = false) : exec (.domainOff n) s = .next s := by
  rw [exec, execDomainOff, State.when_false h]

theorem exec_domainOff_of_going (h : s.goingOff n = true) {u : State}
    (hu : u = ({ s with pwr := { s.pwr with offing := s.pwr.offing &&& (2 ^ 52 - 1 - 2 ^ n) } }).setDomState n 0) :
    exec (.domainOff n) s = .next (if n < 45 then u.tryEndIso ((n - 1) / 11) else u) := by
  refine congrArg Host.Outcome.next ((State.when_true h s _).trans ?_)
  dsimp only
  rw [← hu, Bool.cond_eq_ite]
  simp only [Nat.blt_eq]

/-- What follows a domain's READY: the Schedule Book's ports take their state, a quadrant's base domain lets its fetches go
on, and a quadrant may leave isolation. -/
theorem State.becomeReady_of_may (h : s.mayReady n = true) {u : State} (hu : u = (s.setDomState n 3).domFollow n) :
    s.becomeReady n = bif n == 48 then u.resyncAll
      else bif Nat.blt n 45 then
        (u.when ((n - 1) % 11 == 0) (fun u => (forUpTo 36 (fun l v => v.resync (36 * ((n - 1) / 11) + l)) u).fetchPump
          ((n - 1) / 11) 64)).tryEndIso ((n - 1) / 11)
      else u := by
  rw [State.becomeReady, h, hu]
  rfl

theorem exec_domainReady_of_may (h : s.mayReady n = true) {u : State} (hu : u = (s.setDomState n 3).domFollow n) :
    (n = 48 → exec (.domainReady n) s = .next u.resyncAll) ∧
    (n = 45 ∨ n = 46 ∨ n = 47 ∨ 49 ≤ n → exec (.domainReady n) s = .next u) ∧
    (n < 45 → (n - 1) % 11 ≠ 0 → exec (.domainReady n) s = .next (u.tryEndIso ((n - 1) / 11))) ∧
    (n < 45 → (n - 1) % 11 = 0 → exec (.domainReady n) s = .next
      (((forUpTo 36 (fun l v => v.resync (36 * ((n - 1) / 11) + l)) u).fetchPump ((n - 1) / 11) 64).tryEndIso
        ((n - 1) / 11))) := by
  rw [exec, execDomainReady, State.becomeReady_of_may h hu]
  refine ⟨fun hn => ?_, fun hn => ?_, fun hn hbase => ?_, fun hn hbase => ?_⟩
  · rw [beq_iff_eq.mpr hn, cond_true]
  · have hbook : (n == 48) = false := beq_eq_false_iff_ne.mpr (by omega)
    have hspine : Nat.blt n 45 = false := by rw [Bool.eq_false_iff, ne_eq, Nat.blt_eq]; omega
    rw [hbook, hspine, cond_false, cond_false]
  · have hbook : (n == 48) = false := beq_eq_false_iff_ne.mpr (by omega)
    rw [hbook, Nat.blt_eq.mpr hn, cond_false, cond_true, State.when_false (beq_eq_false_iff_ne.mpr hbase)]
  · have hbook : (n == 48) = false := beq_eq_false_iff_ne.mpr (by omega)
    rw [hbook, Nat.blt_eq.mpr hn, cond_false, cond_true, State.when_true (beq_iff_eq.mpr hbase)]

theorem State.becomeReady_of_not (h : s.mayReady n = false) : s.becomeReady n = s := by
  rw [State.becomeReady, h]
  rfl

end Domains

/-! ### Resets (R455) -/

/-- What a device reset keeps, and what it empties. -/
theorem State.deviceReset_frame {s t : State} {c : Nat} (h : t = s.deviceReset c) :
    t.pending = s.pending ∧ t.out = s.out ∧ t.free = s.free ∧ t.brz.keep = s.brz.keep ∧ t.brz.queue = [] ∧
      t.inv = State.reset.inv ∧ t.pulses = [] ∧ t.movers = [] ∧ t.rings = [] := by
  rw [h, State.deviceReset]
  cases c != 1 <;> exact ⟨rfl, rfl, rfl, rfl, rfl, rfl, rfl, rfl, rfl⟩

/-- RST_N held low leaves PD00 as it is. -/
theorem State.ready_rstLow (s : State) : ({ s with pwr := { s.pwr with rstLow := true } } : State).ready 0 = s.ready 0 := by
  rw [State.ready, State.ready]
  rfl

theorem exec_controllerResetAssert_of_ready {s : State} (h : s.ready 0 = true) : exec .controllerResetAssert s = .next
    (({ s with pwr := { s.pwr with rstLow := true } }).controllerReset (fun _ => false) 1) :=
  congrArg Host.Outcome.next (State.atDom_ready (s.ready_rstLow.trans h) _)

theorem exec_controllerResetAssert_of_off {s : State} (h : s.ready 0 = false) :
    exec .controllerResetAssert s = .next { s with pwr := { s.pwr with rstLow := true } } :=
  congrArg Host.Outcome.next (State.atDom_off (s.ready_rstLow.trans h) _)

/-! ### The test access port (R479) -/

theorem tapOf_of_given {ir : Nat} (h : ir < 7) : tapOf ir = ir := by
  have hlow : ir % 64 = ir := Nat.mod_eq_of_lt (h.trans (by decide))
  rw [tapOf, hlow, Nat.ble_eq.mpr (show ir ≤ tapTrain from Nat.le_of_lt_succ h), cond_true]

theorem tapOf_of_other {ir : Nat} (hlow : 7 ≤ ir) (hhigh : ir < 64) : tapOf ir = 0x3F := by
  have hble : Nat.ble ir tapTrain = false := by
    rw [Bool.eq_false_iff, ne_eq, Nat.ble_eq]
    exact Nat.not_le.mpr hlow
  rw [tapOf, Nat.mod_eq_of_lt hhigh, hble, cond_false, tapBypass]

/-- A scan under an instruction in force preloads the boundary register and sends what it held, a free value. -/
theorem State.boundaryScan_some {f : State → State} {v : Nat}
    (hf : ∀ t, f t = ({ t with tap := { t.tap with boundary := v } }.emit (.tdo (t.freeVal 32))).useFree) (s : State) :
    s.boundaryScan (some v) = f s := (hf s).symm

/-- Settles O60, command by command. -/
theorem powerDomainsResetsAndTheTestPort : Obligations.PowerDomainsResetsAndTheTestPort := by
  refine ⟨fun s j w => ?_, fun s => ?_, ?_, ?_, fun s => ?_, fun s ir => ?_, fun s => ?_⟩
  · exact ⟨fun h => congrArg Host.Outcome.next (State.atReg_reached h _),
      fun h => congrArg Host.Outcome.next (State.atReg_unreached h _),
      fun h => congrArg Host.Outcome.next (State.atReg_reached h _),
      fun h => congrArg Host.Outcome.next (State.atReg_unreached h _),
      fun h => congrArg Host.Outcome.next (State.atReg_reached h _),
      fun h => congrArg Host.Outcome.next (State.atReg_unreached h _),
      fun h => congrArg Host.Outcome.next (State.atDom_ready h _),
      fun h => congrArg Host.Outcome.next (State.atDom_off h _)⟩
  · refine ⟨exec_domainRampStart_of_none, fun n => exec_domainRampStart_of_next, exec_domainRampDone_of_none,
      fun n l => exec_domainRampDone_of_ramp, fun n => ⟨exec_domainOff_of_not,
      fun h u hu => exec_domainOff_of_going h hu, fun h => congrArg Host.Outcome.next (State.becomeReady_of_not h),
      fun h u hu => exec_domainReady_of_may h hu⟩⟩
  · exact fun old n hn => ⟨fun hoff ⟨m, hreq, hlack, hne⟩ => acceptRequest_on_refused hn hoff hreq hlack hne,
      fun _ hreq => acceptRequest_on_accepted hreq,
      fun hon ⟨m, hm, hmon, hreq⟩ => acceptRequest_off_refused hn hon hm hmon hreq,
      fun _ hfree => acceptRequest_off_accepted hn hfree⟩
  · exact fun s t u v j w new r hnew hr ht hsome hnone hv =>
      State.writePwrOn_eq hnew hr ht (State.showRefused_eq hsome hnone) hv
  · refine ⟨rfl, rfl, fun h => congrArg Host.Outcome.next (State.when_true (by rw [h, Bool.not_false]) s _),
      fun h => congrArg Host.Outcome.next (State.when_false (by rw [h, Bool.not_true]) s _),
      fun h => congrArg Host.Outcome.next (State.when_true h s _),
      fun h => congrArg Host.Outcome.next (State.when_false h s _), fun c t => State.deviceReset_frame,
      exec_controllerResetAssert_of_ready, exec_controllerResetAssert_of_off, rfl, ?_, fun h => ⟨rfl, rfl⟩⟩
    rw [exec, execCtrlRstExpire, Bool.cond_eq_ite]
    simp only [beq_iff_eq]
  · exact ⟨fun h => by rw [State.tapSelect, tapOf_of_given h],
      fun hlow hhigh => by rw [State.tapSelect, tapOf_of_other hlow hhigh]⟩
  · refine ⟨rfl, rfl, rfl, rfl, rfl, rfl, rfl, rfl, rfl, fun v f hf => ?_⟩
    have hscan := fun u => congrArg (Host.Outcome.next (φ := Fault) (ρ := Refusal)) (State.boundaryScan_some hf u)
    refine ⟨hscan _, hscan _, hscan _, hscan _, ?_⟩
    rintro ir t hir rfl
    rw [hf]
    exact ⟨tapOf_of_given hir, rfl, rfl, rfl, rfl, rfl⟩

end Sys2Proof.Machine
end

section
/-! SUPPORT. The commit collector (R314 to R332): what each of its operations does, case by case, and the statement of
11_fabric_maps_commit_protection.md about the life of a commit. -/

namespace Sys2Proof.Machine

/-- Commands of the collector act while it works. -/
theorem State.onFabric_of_working {s : State} (h : s.fabWorks = true) (f : State → State) : s.onFabric f = f s :=
  State.when_true h s f

theorem State.onFabric_of_idle {s : State} (h : s.fabWorks = false) (f : State → State) : s.onFabric f = s :=
  State.when_false h s f

section Collector

variable {s t : State} {c : Commit} {bad n m id i q r pos w code : Nat} {e : RingEntry} {l : List (Nat × Nat)} {lost : Bool}

/-! ### FAB_LOAD and FAB_CTL (R314) -/

theorem State.writeFabLoad_of_go (hgo : bitAt w 31 = true) (hen : s.flag F.fabCtlEn = false)
    (hload : s.flag F.fabStsLoading = false) :
    s.writeFabLoad w = (s.fset F.fabStsLoading true).onFab (fun x => { x with loading := bitsOf w 0 8 }) := by
  simp [State.writeFabLoad, hgo, hen, hload]

theorem State.writeFabLoad_of_busy (h : s.flag F.fabCtlEn = true ∨ s.flag F.fabStsLoading = true) :
    s.writeFabLoad w = s := by
  have hbusy : (!bitAt w 31 || s.flag F.fabCtlEn || s.flag F.fabStsLoading) = true := by
    rcases h with h | h <;> simp [h]
  rw [State.writeFabLoad, hbusy, cond_true]

theorem State.writeFabCtl_of_allowed (h : bitAt w 0 = false ∨ s.flag F.fabStsFvalid = true) :
    s.writeFabCtl w = s.store Reg.fabCtl w := by
  refine State.when_false ?_ _ _
  rcases h with h | h <;> simp [h]

theorem State.writeFabCtl_of_invalid (hset : bitAt w 0 = true) (hvalid : s.flag F.fabStsFvalid = false) :
    s.writeFabCtl w = (s.store Reg.fabCtl w).fset F.fabCtlEn false :=
  State.when_true (by simp [hset, hvalid]) _ _

theorem State.fabLoaded_of_idle (h : s.flag F.fabStsLoading = false) : s.fabLoaded bad = s := by
  simp [State.fabLoaded, h]

theorem State.fabLoaded_of_loading (hload : s.flag F.fabStsLoading = true) (hm : m = s.fab.loading) (hl : l = s.slotSpec m)
    (hlost : lost = (bad == 2 || !s.fGood (fun c => !l.any (fun x => x.1 == c))))
    (hcode : code = (if bad = 1 ∨ lost = true ∨ s.slotReadable m = false ∨ s.slotCrc m = false then 5
      else checkSpec s.fmaps l))
    (ht : t = (((s.fRead.when lost (·.loseF)).touch (mapBase m) 273).fset F.fabStsLoading false).fput F.fabStsLoadErr
      code) :
    s.fabLoaded bad = if code = 0 then (eachOf l (fun x u => u.setF x.1 x.2) t).fset F.fabStsFvalid true
      else t.fabEvent 3 0 code m := by
  have hcode' : (bif bad == 1 || lost || !s.slotReadable m || !s.slotCrc m then 5 else checkSpec s.fmaps l) = code := by
    rw [hcode, Bool.cond_eq_ite]
    simp only [Bool.or_eq_true, beq_iff_eq, Bool.not_eq_true', or_assoc]
  simp only [State.fabLoaded, hload, Bool.not_true, cond_false, ← hm, ← hl, ← hlost, hcode', ← ht]
  by_cases h : code = 0
  · rw [if_pos h, h]
    rfl
  · rw [if_neg h, bne_iff_ne.mpr h, cond_true]

/-! ### Entries of the fabric rings (R317) -/

theorem exec_fabCommit_of_entry (hworks : s.fabWorks = true) (he : s.fabEntry r pos 0 = some e) (hw : w = e.words.getD 1 0) :
    exec (.fabCommit r pos) s = .next ((s.beginEntry r pos).takeCommit
      { src := 1, ring := r, pos := pos, map := bitsOf w 8 8, tag := bitsOf w 16 16, asap := bitAt w 2, wait := bitAt w 3,
        tc := nearInstant (s.folNow 4) (e.words.getD 2 0) (e.words.getD 3 0) } false) := by
  rw [exec, execFabCommit, State.fabCommit, he, hw]
  simp only [hworks, Bool.not_true, cond_false]

theorem exec_fabCommit_of_none (he : s.fabEntry r pos 0 = none) : exec (.fabCommit r pos) s = .next s := by
  rw [exec, execFabCommit, State.fabCommit, he]

theorem exec_cancel_of_none (he : s.fabEntry r pos 1 = none) : exec (.cancel r pos) s = .next s := by
  rw [exec, execCancel, State.fabCancel, he]

theorem exec_fabCommit_of_idle (h : s.fabWorks = false) : exec (.fabCommit r pos) s = .next s := by
  rw [exec, execFabCommit, State.fabCommit]
  cases s.fabEntry r pos 0 <;> simp [h]

theorem exec_cancel_of_idle (h : s.fabWorks = false) : exec (.cancel r pos) s = .next s := by
  rw [exec, execCancel, State.fabCancel]
  cases s.fabEntry r pos 1 <;> simp [h]

theorem exec_cancel_of_entry {hit : Option Commit} (hworks : s.fabWorks = true) (he : s.fabEntry r pos 1 = some e)
    (hhit : hit = s.fab.staged.find? (fun c =>
      c.src == 1 && c.ring == r && c.tag == bitsOf (e.words.getD 1 0) 16 16))
    (hsome : ∀ c, hit = some c → t = s.refuseCommit c 8) (hnone : hit = none → t = s) :
    exec (.cancel r pos) s = .next ((t.ringWrite r (t.unitAddr r pos + 16)
      [if hit = none then 13 else 0, fsNs (s.folNow 4), fsSec (s.folNow 4), 0]).entriesDone r [pos]) := by
  rw [exec, execCancel, State.fabCancel, he]
  simp only [hworks, Bool.not_true, cond_false, ← hhit]
  cases hit with
  | none => rw [hnone rfl]; rfl
  | some c => rw [hsome c rfl]; rfl

/-! ### Resolution and arming (R321 to R325) -/

theorem State.resolveNext_of_lost (h : n = 2 ∨ s.fGood (fun _ => true) = false) : s.resolveNext n = s.fRead.loseF := by
  have hlost : (n == 2 || !s.fRead.fGood (fun _ => true)) = true := by
    change (n == 2 || !s.fGood (fun _ => true)) = true
    rcases h with h | h <;> simp [h]
  simp only [State.resolveNext, hlost, cond_true]

/-- With F readable the first unresolved commit is the one to resolve. -/
theorem State.resolveNext_of_good (hn : n < 2) (hgood : s.fGood (fun _ => true) = true) :
    s.resolveNext n = match s.fab.staged.find? (fun c => !c.resolved) with
      | none => s.fRead
      | some c =>
        bif c.wait && !c.armed then s.fRead
        else match c.spec with
        | some l => s.fRead.resolveWith c l
        | none =>
          bif n == 1 || !s.slotReadable c.map || !s.slotCrc c.map then (s.fRead.touch (mapBase c.map) 273).refuseCommit c 5
          else (s.fRead.touch (mapBase c.map) 273).resolveWith c (s.slotSpec c.map) := by
  have hlost : (n == 2 || !s.fRead.fGood (fun _ => true)) = false := by
    change (n == 2 || !s.fGood (fun _ => true)) = false
    rw [hgood, beq_eq_false_iff_ne.mpr (by omega)]
    rfl
  simp only [State.resolveNext, hlost, cond_false]
  rfl

theorem State.resolveLate_of_some (h : s.fab.staged.find? (fun c => !c.resolved) = some c) :
    s.resolveLate = s.refuseCommit c 2 := by
  rw [State.resolveLate, h]

theorem State.resolveLate_of_none (h : s.fab.staged.find? (fun c => !c.resolved) = none) : s.resolveLate = s := by
  rw [State.resolveLate, h]

theorem State.fabArm_of_idle (h : s.fabWorks = false) : s.fabArm = s := by
  simp [State.fabArm, h]

theorem State.fabArm_of_some (hworks : s.fabWorks = true) (h : s.fab.staged.find? (fun c => c.wait && !c.armed) = some c) :
    s.fabArm = s.onCommit c.id (fun x => { x with armed := true }) := by
  simp only [State.fabArm, hworks, Bool.not_true, cond_false, h]

theorem State.fabArm_of_none (hworks : s.fabWorks = true) (h : s.fab.staged.find? (fun c => c.wait && !c.armed) = none) :
    s.fabArm = s.fabCount 15 := by
  simp only [State.fabArm, hworks, Bool.not_true, cond_false, h]

theorem State.armLate_of_some (h : s.fab.staged.find? (fun c => c.wait && !c.armed) = some c) :
    s.armLate = s.refuseCommit c 10 := by
  rw [State.armLate, h]

theorem State.armLate_of_none (h : s.fab.staged.find? (fun c => c.wait && !c.armed) = none) : s.armLate = s := by
  rw [State.armLate, h]

/-! ### Dispatch, execution, withdrawal (R326, R327, R152) -/

theorem State.dispatch_of_resolved {d : Commit} {rest : List Commit} (hstaged : s.fab.staged = c :: rest)
    (hres : c.resolved = true) (hsafe : s.flag F.qchStsFatal = false)
    (hd : d = { c with owe := s.partMask, removed := s.partMask != 15, order := s.armings + 1 }) :
    s.dispatch = (s.arming.onFab (fun x => { x with staged := rest, running := x.running ++ [d] })).annealPreempt := by
  have hgo : (!c.resolved || s.flag F.qchStsFatal) = false := by simp [hres, hsafe]
  simp only [State.dispatch, hstaged, hgo, cond_false, hd]

theorem State.dispatch_of_held {rest : List Commit} (hstaged : s.fab.staged = c :: rest)
    (h : c.resolved = false ∨ s.flag F.qchStsFatal = true) : s.dispatch = s := by
  have hheld : (!c.resolved || s.flag F.qchStsFatal) = true := by
    rcases h with h | h <;> simp [h]
  simp only [State.dispatch, hstaged, hheld, cond_true]

theorem State.dispatch_of_empty (hstaged : s.fab.staged = []) : s.dispatch = s := by
  simp only [State.dispatch, hstaged]

theorem State.commitInstant_of_some (h : s.fab.running.find? (fun c => !c.executed) = some c) :
    s.commitInstant = s.execute c := by
  rw [State.commitInstant, h]

theorem State.commitInstant_of_none (h : s.fab.running.find? (fun c => !c.executed) = none) : s.commitInstant = s := by
  rw [State.commitInstant, h]

theorem State.withdrawOld_of_none (h : s.flag F.scbStsPend = false) : s.withdrawOld = s := by
  simp [State.withdrawOld, h]

theorem State.withdrawOld_of_pending (h : s.flag F.scbStsPend = true) : s.withdrawOld
    = eachOf (s.fab.running.filter (fun c => c.src == 0 && Nat.ble s.scb.next c.tc && !c.executed)) (fun c u => u.withdraw c 8)
        (eachOf (s.fab.staged.filter (fun c => c.src == 0 && Nat.ble s.scb.next c.tc)) (fun c u => u.refuseCommit c 8) s) := by
  rw [State.withdrawOld, h, Bool.not_true, cond_false]

/-! ### Acceptance (R318) -/

theorem State.acceptCode_of_off {format late : Bool} (h : s.flag F.fabCtlEn = false) : s.acceptCode c format late = 11 := by
  simp [State.acceptCode, h]

theorem State.acceptCode_of_format {late : Bool} (h : s.flag F.fabCtlEn = true) : s.acceptCode c true late = 12 := by
  simp [State.acceptCode, h]

theorem State.acceptCode_of_late (h : s.flag F.fabCtlEn = true) : s.acceptCode c false true = 2 := by
  simp [State.acceptCode, h]

theorem State.acceptCode_of_order (h : s.flag F.fabCtlEn = true)
    (hearlier : ∃ x ∈ s.fab.staged ++ s.fab.running, x.src ≠ 2 ∧ c.tc ≤ x.tc) : s.acceptCode c false false = 4 := by
  obtain ⟨x, hx, hsrc, htc⟩ := hearlier
  have hany : (s.fab.staged ++ s.fab.running).any (fun x => x.src != 2 && Nat.ble c.tc x.tc) = true :=
    List.any_eq_true.mpr ⟨x, hx, by rw [bne_iff_ne.mpr hsrc, Nat.ble_eq.mpr htc]; rfl⟩
  simp only [State.acceptCode, h, hany, Bool.not_true, cond_false, cond_true]

/-- What an accepted commit has passed. -/
theorem State.acceptCode_zero {format late : Bool} (h : s.acceptCode c format late = 0) :
    (∀ x ∈ s.fab.staged ++ s.fab.running, x.src ≠ 2 → x.tc + 2000 ≤ c.tc) ∧
      s.fab.staged.length < 8 ∧ s.flag F.fabCtlEn = true ∧ format = false ∧ late = false := by
  rw [State.acceptCode] at h
  simp only [Bool.cond_eq_ite] at h
  split at h
  · cases h
  next hen =>
  split at h
  · cases h
  next hformat =>
  split at h
  · cases h
  next hlate =>
  split at h
  · cases h
  split at h
  · cases h
  split at h
  · cases h
  next hspace =>
  split at h
  · cases h
  next hfull =>
  refine ⟨fun x hx hsrc => Nat.le_of_not_lt fun hlt => hspace (List.any_eq_true.mpr ⟨x, hx, ?_⟩), ?_, ?_, ?_, ?_⟩
  · rw [bne_iff_ne.mpr hsrc, Nat.blt_eq.mpr hlt]
    rfl
  · exact Nat.lt_of_not_le fun hle => hfull (Nat.ble_eq.mpr hle)
  · simpa using hen
  · simpa using hformat
  · simpa using hlate

/-! ### Slice reports and blanks (R328, R332) -/

theorem State.sliceReport_of_ended {x : NitCommit} {ok : Nat}
    (hx : (s.nit q).commits.find? (fun c => c.id == id) = some x)
    (ht : t = s.setNit q { s.nit q with commits := (s.nit q).commits.filter (fun c => c.id != id) })
    (hended : x.open' = 0) (hiso : s.iso q = false) (hok : ok = x.res.getD 0 0 + x.res.getD 1 0 + x.res.getD 7 0) :
    s.sliceReport q id = (t.onCommit id (fun c => bif bitAt c.owe q then
      { c with owe := c.owe - 2 ^ q, got := c.got + 2 ^ q, ok := c.ok + ok, bad := c.bad + (x.res.foldl (· + ·) 0 - ok),
               settle := Nat.max c.settle x.settle }
      else c)).tryComplete id := by
  have hgo : (x.open' != 0 || s.iso q) = false := by rw [hended, hiso]; rfl
  simp only [State.sliceReport, hx, hgo, cond_false, ht, hok]

theorem State.sliceReport_of_not {x : NitCommit} (hx : (s.nit q).commits.find? (fun c => c.id == id) = some x)
    (h : x.open' ≠ 0 ∨ s.iso q = true) : s.sliceReport q id = s := by
  have hstay : (x.open' != 0 || s.iso q) = true := by
    rcases h with h | h <;> simp [h]
  simp only [State.sliceReport, hx, hstay, cond_true]

theorem State.blankEnd_of_running (h : ∃ c ∈ s.fab.running, c.id = id) : s.blankEnd i id = s := by
  have hany : s.fab.running.any (fun c => c.id == id) = true := by simpa using h
  simp only [State.blankEnd, hany, cond_true]

theorem State.blankEnd_of_left (h : ∀ c ∈ s.fab.running, c.id ≠ id)
    (ht : t = s.onFab (fun x => { x with blanks := x.blanks.filter (fun y => !(y.1 == i && y.2 == id)) })) :
    s.blankEnd i id = if (∃ y ∈ t.fab.blanks, y.1 = i) ∨ s.lldReached (i / 256) = false then t
      else t.fset (F.lldMon1Blanked i) false := by
  have hany : s.fab.running.any (fun c => c.id == id) = false := by simpa using h
  simp only [State.blankEnd, hany, cond_false, ← ht]
  simp only [Bool.cond_eq_ite, Bool.or_eq_true, List.any_eq_true, beq_iff_eq, Bool.not_eq_true']

end Collector

/-- Settles O51, operation by operation. -/
theorem commitsRunThroughTheCollector : Obligations.CommitsRunThroughTheCollector := by
  refine ⟨fun s w => ?_, fun s w => ?_, fun c s hidle h => ?_, fun s hworks => ?_, fun s c format late => ?_,
    fun s t q id x hx ht => ?_, fun s t i id => ?_⟩
  · exact ⟨fun h => congrArg Host.Outcome.next (State.atReg_reached h _),
      fun h => congrArg Host.Outcome.next (State.atReg_unreached h _),
      fun h => congrArg Host.Outcome.next (State.atReg_reached h _),
      fun h => congrArg Host.Outcome.next (State.atReg_unreached h _)⟩
  · exact ⟨State.writeFabLoad_of_go, State.writeFabLoad_of_busy, State.writeFabCtl_of_allowed, State.writeFabCtl_of_invalid⟩
  · have hstay := fun f => congrArg (Host.Outcome.next (φ := Fault) (ρ := Refusal)) (State.onFabric_of_idle hidle f)
    obtain ⟨n, r, pos, rfl | rfl | rfl | rfl | rfl | rfl | rfl | rfl | rfl | rfl⟩ := h
    · exact hstay _
    · exact hstay _
    · exact hstay _
    · exact congrArg Host.Outcome.next (State.fabArm_of_idle hidle)
    · exact hstay _
    · exact hstay _
    · exact hstay _
    · exact hstay _
    · exact exec_fabCommit_of_idle hidle
    · exact exec_cancel_of_idle hidle
  · have hrun : ∀ {f : State → State} {u : State}, f s = u →
        (Host.Outcome.next (s.onFabric f) : Host.Outcome State Fault Refusal) = .next u := fun h =>
      congrArg Host.Outcome.next ((State.onFabric_of_working hworks _).trans h)
    refine ⟨fun bad m l lost code t hm hl hlost hcode ht => ⟨fun hload => ?_, fun hload => ?_⟩,
      fun r pos e w he hw => exec_fabCommit_of_entry hworks he hw, fun r pos he => exec_fabCommit_of_none he,
      fun r pos he => exec_cancel_of_none he,
      fun r pos e hit t he hhit hsome hnone => exec_cancel_of_entry hworks he hhit hsome hnone,
      fun n hn => ?_, fun n hn hgood => ?_, fun c hc => hrun (State.resolveLate_of_some hc),
      fun hc => hrun (State.resolveLate_of_none hc), fun hc => ⟨?_, hrun (State.armLate_of_none hc)⟩,
      fun c hc => ⟨?_, hrun (State.armLate_of_some hc)⟩,
      fun c r hstaged => ⟨fun hres hsafe d hd => hrun (State.dispatch_of_resolved hstaged hres hsafe hd),
        fun h => hrun (State.dispatch_of_held hstaged h)⟩,
      fun hstaged => hrun (State.dispatch_of_empty hstaged), fun c hc => hrun (State.commitInstant_of_some hc),
      fun hc => hrun (State.commitInstant_of_none hc), fun h => hrun (State.withdrawOld_of_none h),
      fun h => hrun (State.withdrawOld_of_pending h)⟩
    · exact hrun (congrArg State.reportReads (State.fabLoaded_of_loading hload hm hl hlost hcode ht))
    · exact hrun (congrArg State.reportReads (State.fabLoaded_of_idle hload))
    · exact hrun (congrArg State.reportReads (State.resolveNext_of_lost hn))
    · have hnext : ∀ {u : State}, s.resolveNext n = u → exec (.commitResolved n) s = .next u.reportReads := fun h =>
        hrun (congrArg State.reportReads h)
      have hresolve := State.resolveNext_of_good hn hgood
      refine ⟨fun hc => hnext (by rw [hresolve, hc]), fun c hc => ?_⟩
      rw [hc] at hresolve
      refine ⟨fun hwait harmed => hnext ?_, fun hgo => ?_⟩
      · simp only [hresolve, hwait, harmed, Bool.not_false, Bool.and_self, cond_true]
      have hready : (c.wait && !c.armed) = false := by rcases hgo with h | h <;> simp [h]
      simp only [hready, cond_false] at hresolve
      refine ⟨fun l hl => hnext (by rw [hresolve, hl]), fun t ht => ⟨fun hspec hbad => hnext ?_, fun hspec hn0 hread hcrc => hnext ?_⟩⟩
      · have hunread : (n == 1 || !s.slotReadable c.map || !s.slotCrc c.map) = true := by
          rcases hbad with h | h | h <;> simp [h]
        rw [hresolve, hspec, ht]
        simp only [hunread, cond_true]
      · rw [hresolve, hspec, ht, hn0]
        simp only [hread, hcrc, Bool.not_true, Bool.or_false, cond_false, Nat.reduceBEq]
    · exact congrArg Host.Outcome.next (State.fabArm_of_none hworks hc)
    · exact congrArg Host.Outcome.next (State.fabArm_of_some hworks hc)
  · exact ⟨State.acceptCode_of_off, fun hen hformat => hformat ▸ State.acceptCode_of_format hen,
      fun hen hformat hlate => hformat ▸ hlate ▸ State.acceptCode_of_late hen,
      by
        rintro hen rfl rfl
        exact State.acceptCode_of_order hen, State.acceptCode_zero⟩
  · exact ⟨fun hended hiso ok hok => congrArg Host.Outcome.next (State.sliceReport_of_ended hx ht hended hiso hok),
      fun h => congrArg Host.Outcome.next (State.sliceReport_of_not hx h)⟩
  · exact ⟨fun h => congrArg Host.Outcome.next (State.blankEnd_of_running h),
      fun h ht => congrArg Host.Outcome.next (State.blankEnd_of_left h ht)⟩

end Sys2Proof.Machine
end

section
/-! SUPPORT. The protection policy engine (R335 to R338): what becomes of one queued declaration, of one build and of an
entry whose wait to restore ends, and the statement of 11_fabric_maps_commit_protection.md about policy entries. -/

namespace Sys2Proof.Machine

section Policy

variable {s o : State} {bad : List Nat} {fbad : Bool} {b : PolBuild} {d : Nat × Nat} {i : Nat}

/-! ### One declaration (R335) -/

/-- An entry that cannot act counts the declaration NOACT. -/
theorem State.takeDecl_of_not_acting (hs : s = o.polRead d.1)
    (h : s.flag F.polCtlEn = false ∨ s.polActs d.1 = false ∨ d.1 ∈ bad ∨ s.polGood d.1 = false) :
    State.takeDecl bad (b, o) d = (b, s.polCount 4) := by
  have hnot : (!s.flag F.polCtlEn || !s.polActs d.1 || bad.any (· == d.1) || !s.polGood d.1) = true := by
    rcases h with h | h | h | h <;> simp [h]
  simp only [State.takeDecl, ← hs, hnot, cond_true]

section Acting

variable (hs : s = o.polRead d.1) (hen : s.flag F.polCtlEn = true) (hacts : s.polActs d.1 = true) (hbad : d.1 ∉ bad)
  (hgood : s.polGood d.1 = true)

include hen hacts hbad hgood in
/-- What POL_CTL, the entry and the words read let through. -/
theorem State.polGate_of_acting :
    (!s.flag F.polCtlEn || !s.polActs d.1 || bad.any (· == d.1) || !s.polGood d.1) = false := by
  simpa [hen, hacts, hgood] using fun x hx (h : x = d.1) => hbad (h ▸ hx)

include hs hen hacts hbad hgood

theorem State.takeDecl_of_protected (h : s.fget (Pol.state d.1) = 1 ∨ s.fget (Pol.state d.1) = 3) :
    State.takeDecl bad (b, o) d = (b, s.polCount 4) := by
  rcases h with h | h <;>
    simp only [State.takeDecl, ← hs, State.polGate_of_acting hen hacts hbad hgood, cond_false, h]

theorem State.takeDecl_of_wtr (h : s.fget (Pol.state d.1) = 2) :
    State.takeDecl bad (b, o) d = (b, (s.polPut (Pol.state d.1) 1).polCount 6) := by
  simp only [State.takeDecl, ← hs, State.polGate_of_acting hen hacts hbad hgood, cond_false, h]

theorem State.takeDecl_of_no_map (hidle : s.fget (Pol.state d.1) = 0)
    (h : s.flag F.fabCtlEn = false ∨ s.flag F.fabStsFvalid = false) :
    State.takeDecl bad (b, o) d = (b, s.polFail d.1) := by
  have hfail : (!s.flag F.fabCtlEn || !s.flag F.fabStsFvalid) = true := by
    rcases h with h | h <;> simp [h]
  simp only [State.takeDecl, ← hs, State.polGate_of_acting hen hacts hbad hgood, cond_false, hidle, hfail, cond_true]

/-- What the moves of an idle entry come to. -/
theorem State.takeDecl_of_examined {l : List (Nat × Nat × Nat)} {y : Nat × List (Nat × Nat × Nat)}
    (hidle : s.fget (Pol.state d.1) = 0) (hfab : s.flag F.fabCtlEn = true) (hvalid : s.flag F.fabStsFvalid = true)
    (hl : l = s.polMoves d.1)
    (hy : y = s.examine (b.moves.map (·.1)) ((l.filter (fun m => s.fmap m.2.1 != m.2.2)).map (·.2.1)) l) :
    (y.1 = 1 → State.takeDecl bad (b, o) d = (b, s.polFail d.1)) ∧
    (y.1 = 2 → State.takeDecl bad (b, o) d = ({ b with deferred := b.deferred ++ [d] }, s.polCount 5)) ∧
    (y.1 = 0 → y.2 = [] → State.takeDecl bad (b, o) d = (b, s.polCount 4)) ∧
    (y.1 = 0 → y.2 ≠ [] → State.takeDecl bad (b, o) d =
      ({ b with moves := b.moves ++ y.2.map (·.2), switched := b.switched ++ [(d.1, y.2)] },
        ((eachOf y.2 (fun m u => u.polPut (Pol.work d.1 m.1) (s.fmap m.2.1)) s).polPut (Pol.state d.1) 1).polCount 1)) := by
  simp only [State.takeDecl, ← hs, State.polGate_of_acting hen hacts hbad hgood, cond_false, hidle, hfab, hvalid,
    Bool.not_true, Bool.or_self, ← hl, ← hy]
  refine ⟨fun h => ?_, fun h => ?_, fun h hnil => ?_, fun h hcons => ?_⟩
  · simp only [h, BEq.rfl, cond_true]
  · simp only [h, Nat.reduceBEq, cond_false, cond_true]
  · simp only [h, hnil, Nat.reduceBEq, cond_false, List.isEmpty_nil, cond_true]
  · simp only [h, Nat.reduceBEq, cond_false, List.isEmpty_eq_false_iff.mpr hcons]

end Acting

/-! ### One build (R335, R336) -/

theorem State.oneSlot_of_open (h : s.slots.isSome = true) (f : State → State) : s.oneSlot f = f s := by
  rw [State.oneSlot, h, cond_true]

/-- A handshake that opens here writes the slots it gathered when it ends. -/
theorem State.oneSlot_of_closed (h : s.slots = none) (f : State → State) : s.oneSlot f
    = eachOf ((f { s with slots := some [] }).slots.getD []) (fun x u => u.slotNow x.1 x.2)
        { f { s with slots := some [] } with slots := none } := by
  rw [State.oneSlot, h, Option.isSome_none, cond_false]

theorem State.policyBuild_of_safe (h : s.flag F.qchStsFatal = true) : s.policyBuild bad fbad = s := by
  rw [State.policyBuild, h, Bool.or_true, cond_true]

/-- A build's pass over the queued declarations, and what it issues. -/
theorem State.policyBuild_of_open {u t : State} {r : PolBuild × State} (hworks : s.fabWorks = true)
    (hsafe : s.flag F.qchStsFatal = false) (hopen : s.slots.isSome = true)
    (hu : u = s.fRead.when (fbad || !s.fGood (fun _ => true)) (·.loseF))
    (hr : r = u.fab.decl.foldl (State.takeDecl bad) ({}, u)) (ht : t = r.2.onFab (fun x => { x with decl := r.1.deferred })) :
    (r.1.switched = [] → s.policyBuild bad fbad = t) ∧
    ∀ e l, r.1.switched = e :: l → s.policyBuild bad fbad
      = eachOf (e :: l) (fun x v => (v.polTell 0 x.1 x.2.length).noticeFrame x.1 1 (u.folNow 4) x.2)
        (t.issueProtection e.1 r.1.moves) := by
  rw [State.policyBuild, hworks, hsafe, Bool.not_true, Bool.or_self, cond_false, State.oneSlot_of_open hopen]
  simp only [← hu, ← hr, ← ht]
  exact ⟨fun hnil => by rw [hnil], fun e l hcons => by rw [hcons]⟩

/-- A build in a handshake of its own is the build in an open one, and then the slots it gathered. -/
theorem State.policyBuild_of_closed {t : State} (hworks : s.fabWorks = true) (hsafe : s.flag F.qchStsFatal = false)
    (hclosed : s.slots = none) (ht : t = State.policyBuild { s with slots := some [] } bad fbad) :
    s.policyBuild bad fbad = eachOf (t.slots.getD []) (fun x u => u.slotNow x.1 x.2) { t with slots := none } := by
  have hgo : (!s.fabWorks || s.flag F.qchStsFatal) = false := by rw [hworks, hsafe]; rfl
  have hgo' : (!({ s with slots := some [] } : State).fabWorks || ({ s with slots := some [] } : State).flag F.qchStsFatal)
      = false := hgo
  have hopen : ({ s with slots := some [] } : State).slots.isSome = true := rfl
  rw [State.policyBuild, hgo', cond_false, State.oneSlot_of_open hopen] at ht
  rw [State.policyBuild, hgo, cond_false, State.oneSlot_of_closed hclosed, ht]

/-! ### The end of a wait to restore (R338) -/

theorem State.wtrExpire_of_ignored (h : s.flag F.qchStsFatal = true ∨ s.fget (Pol.state i) ≠ 2 ∨
      (∃ c ∈ s.fab.staged ++ s.fab.running, c.src = 3 ∧ c.tag = i)) : s.wtrExpire i fbad = s := by
  have hignore : (!s.fabWorks || s.flag F.qchStsFatal || s.fget (Pol.state i) != 2
      || (s.fab.staged ++ s.fab.running).any (fun c => c.src == 3 && c.tag == i)) = true := by
    rcases h with h | h | ⟨c, hc, hsrc, htag⟩
    · simp [h]
    · simp [h]
    · rw [List.any_eq_true.mpr ⟨c, hc, by simp [hsrc, htag]⟩, Bool.or_true]
  rw [State.wtrExpire, hignore, cond_true]

/-- An entry in WTR without a revert commit on its way. -/
theorem State.wtrExpire_of_due (hworks : s.fabWorks = true) (hsafe : s.flag F.qchStsFatal = false)
    (hwtr : s.fget (Pol.state i) = 2) (hnone : ∀ c ∈ s.fab.staged ++ s.fab.running, ¬(c.src = 3 ∧ c.tag = i)) :
    s.wtrExpire i fbad = bif fbad || !s.fGood (fun _ => true) then (s.fRead.polRead i).loseF
      else bif !s.polGood i then s.fRead.polRead i
      else (s.fRead.polRead i).takeCommit
        { src := 3, tag := i,
          tc := (s.fab.staged ++ s.fab.running).foldl (fun m c => Nat.max m (c.tc + 2000))
            (s.folNow 4 + s.fget F.polRevRevLead),
          spec := some (((s.polMoves i).filter (fun m => s.fmap m.2.1 == m.2.2)).map
            (fun m => (m.2.1, s.fget (Pol.work i m.1)))) } false := by
  have hany : (s.fab.staged ++ s.fab.running).any (fun c => c.src == 3 && c.tag == i) = false := by
    rw [List.any_eq_false]
    intro c hc
    have := hnone c hc
    simpa using this
  rw [State.wtrExpire, hworks, hsafe, hwtr, hany]
  rfl

end Policy

/-- Settles O52: the declarations by the entry's STATE, the builds by whether their handshake is open, the ends of WTR by
what the engine can read. -/
theorem policyEntriesSwitchAndRestore : Obligations.PolicyEntriesSwitchAndRestore := by
  refine ⟨fun s bad b d o => ?_, fun s bad fbad => ?_, fun s i fbad => ?_⟩
  · intro i hs
    refine ⟨State.takeDecl_of_not_acting hs, fun hen hacts hbad hgood => ?_⟩
    exact ⟨State.takeDecl_of_protected hs hen hacts hbad hgood, State.takeDecl_of_wtr hs hen hacts hbad hgood,
      fun hidle => ⟨State.takeDecl_of_no_map hs hen hacts hbad hgood hidle, fun hfab hvalid l y hl hy =>
        State.takeDecl_of_examined hs hen hacts hbad hgood hidle hfab hvalid hl hy⟩⟩
  · refine ⟨fun hworks => congrArg Host.Outcome.next (State.onFabric_of_working hworks _),
      fun hidle => congrArg Host.Outcome.next (State.onFabric_of_idle hidle _), State.policyBuild_of_safe,
      fun hworks hsafe hopen u r t hu hr ht => ?_,
      fun hworks hsafe hclosed t => State.policyBuild_of_closed hworks hsafe hclosed⟩
    exact State.policyBuild_of_open hworks hsafe hopen hu hr ht
  · have hrun : s.fabWorks = true → ∀ {u : State}, s.wtrExpire i fbad = u →
        exec (.wtrExpire ⟨i, fbad⟩) s = .next u.reportReads := fun hworks _ h =>
      congrArg Host.Outcome.next ((State.onFabric_of_working hworks _).trans (congrArg State.reportReads h))
    refine ⟨fun hidle => congrArg Host.Outcome.next (State.onFabric_of_idle hidle _),
      fun hworks h => hrun hworks (State.wtrExpire_of_ignored h), fun hworks hsafe hwtr hnone r hr => ?_⟩
    have hdue := State.wtrExpire_of_due (fbad := fbad) hworks hsafe hwtr hnone
    rw [← hr] at hdue
    refine ⟨fun h => hrun hworks ?_, fun hf hF hgood => hrun hworks ?_, fun hf hF hgood tc spec htc hspec => hrun hworks ?_⟩
    · have hlost : (fbad || !s.fGood (fun _ => true)) = true := by
        rcases h with h | h <;> simp [h]
      rw [hdue, hlost, cond_true]
    · rw [hdue, hf, hF, hgood]
      rfl
    · rw [hdue, hf, hF, hgood, htc, hspec]
      rfl

end Sys2Proof.Machine
end

section
/-! SUPPORT. Anneal (R343 to R353): readings and due passes, the start of a step, the table load, the UNCAL batches and
writes of ANL_CTL, and the statement of 12_anneal_calibration.md. -/

namespace Sys2Proof.Machine

section Anneal

variable {s t u o : State} {q z temp g w : Nat} {bad : Bool}

/-- Commands of Anneal act while PD50 is READY and unit 7 is not held in reset. -/
theorem State.onAnneal_of_working (hready : s.ready 50 = true) (hheld : s.unitHeld 7 = false) (f : State → State) :
    s.onAnneal f = f s :=
  State.when_true (by rw [hready, hheld]; rfl) s f

theorem State.onAnneal_of_idle (h : s.ready 50 = false ∨ s.unitHeld 7 = true) (f : State → State) : s.onAnneal f = s := by
  refine State.when_false ?_ s f
  rcases h with h | h <;> simp [h]

/-! ### Readings and passes (R343, R344) -/

theorem State.zoneReading_of_off {v : Bool} (ht : t = (s.fput (F.anlZone0Temp z) temp).fset (F.anlZone0Valid z) v)
    (h : t.flag F.anlCtlEn = false) : s.zoneReading z temp v = t := by
  simp only [State.zoneReading, ← ht, h, Bool.not_false, cond_true]

/-- A pass that is due after the first one since EN. -/
theorem State.tryPass_of_due (hdue : s.flag (F.anlQ0Due q) = true) (hpass : s.flag (F.anlQ0Pass q) = false)
    (hen : s.flag F.anlCtlEn = true) (hpush : s.flag (F.anlQ0Push q) = false) (hstarted : (s.anlOf q).started = true) :
    (s.zonesValid q = false → s.tryPass q = s.fset (F.anlQ0WaitSens q) true) ∧
    (s.zonesValid q = true → ∀ t, t = eachOf (zonesOf q) (fun z u => u.fput (F.anlZone1TRef z) (u.fget (F.anlZone0Temp z)))
        ((((s.fset (F.anlQ0Due q) false).fset (F.anlQ0WaitSens q) false).fset (F.anlQ0Pass q) true).clr Reg.anlCtl
          (2 ^ (4 + q))) →
      s.tryPass q = t.setAnl q
        { t.anlOf q with started := true, todo := List.range 88, retry := [], errs := [], trig := [] }) := by
  have hfirst : s.firstDue q = s := State.when_false (by rw [hstarted, Bool.not_true, Bool.and_false, Bool.false_and]) _ _
  simp only [State.tryPass, hfirst, hdue, hpass, hen, hpush, hstarted, Bool.not_true, Bool.or_self, Bool.false_and,
    cond_false]
  refine ⟨fun h => ?_, fun h t ht => ?_⟩
  · rw [h, Bool.not_false, cond_true]
  · rw [h, ht, Bool.not_true, cond_false]

theorem State.nextWalk_of_left (h : s.steppable (s.anlOf q).todo ≠ []) : s.nextWalk q = s := by
  simp only [State.nextWalk, List.isEmpty_eq_false_iff.mpr h, cond_false]

theorem State.nextWalk_of_through (h : s.steppable (s.anlOf q).todo = []) : s.nextWalk q = s.setAnl q
    { s.anlOf q with todo := (s.anlOf q).todo.foldr insertGroup (s.anlOf q).retry, retry := [] } := by
  simp only [State.nextWalk, h, List.isEmpty_nil, cond_true]

/-! ### Steps (R346) -/

theorem State.stepStart_of_none (hu : u = s.nextWalk q) (h : u.nextGroup q = none) : s.stepStart q = u := by
  simp only [State.stepStart, ← hu, h]

theorem State.stepStart_of_may (hu : u = s.nextWalk q) (hg : u.nextGroup q = some g) (hpass : u.flag (F.anlQ0Pass q) = true)
    (hstage : (u.anlOf q).stage = 0) (hmay : u.mayStep q g = true)
    (ht : t = ((u.fset (F.anlQ0Step q) true).fput (F.anlQ0Group q) g).anlCount q 1) : s.stepStart q
      = (t.setAnl q { t.anlOf q with stage := 1, lastStart := some u.now }).command q 0x03 [g] := by
  have hgo : (u.flag (F.anlQ0Pass q) && (u.anlOf q).stage == 0 && u.mayStep q g) = true := by
    rw [hpass, hstage, hmay]
    rfl
  simp only [State.stepStart, ← hu, hg, hgo, Bool.not_true, cond_false, ← ht]

theorem State.stepStart_of_not (hu : u = s.nextWalk q) (hg : u.nextGroup q = some g)
    (h : u.flag (F.anlQ0Pass q) = false ∨ (u.anlOf q).stage ≠ 0 ∨ u.mayStep q g = false) : s.stepStart q = u := by
  have hstay : (u.flag (F.anlQ0Pass q) && (u.anlOf q).stage == 0 && u.mayStep q g) = false := by
    rcases h with h | h | h <;> simp [h]
  simp only [State.stepStart, ← hu, hg, hstay, Bool.not_false, cond_true]

/-- A step that may start has waited STEP_GAP. -/
theorem State.gap_of_mayStep (hmay : s.mayStep q g = true) {a : Nat} (ha : (s.anlOf q).lastStart = some a) :
    a + 1000000 * s.fget F.anlCfgStepGap ≤ s.now := by
  have hgap : s.gapOver q = true := by
    rw [State.mayStep] at hmay
    simp only [Bool.and_eq_true] at hmay
    exact hmay.1.1.2
  rw [State.gapOver, ha] at hgap
  exact Nat.ble_eq.mp hgap

/-! ### The table load (R352) -/

theorem State.tableLoad_of_none (h : (s.anlOf q).load = []) : s.tableLoad q bad = s := by
  simp only [State.tableLoad, h]

section Load

variable {x : Anl} {l : List Nat} (hx : x = s.anlOf q) (hl : x.load = g :: l) (ho : o = s.touch (Reg.anlGroup q g) 1)

include hx hl ho

theorem State.tableLoad_of_waiting (h : s.flag (F.anlQ0Push q) = false ∨ s.isUp q = false ∨ s.flag F.anlCtlEn = false ∨
    s.iso q = true ∨ x.check = true) : s.tableLoad q bad = o := by
  have hwait : (!o.flag (F.anlQ0Push q) || !o.isUp q || !o.flag F.anlCtlEn || o.iso q || x.check) = true := by
    rw [ho]
    change (!s.flag (F.anlQ0Push q) || !s.isUp q || !s.flag F.anlCtlEn || s.iso q || x.check) = true
    rcases h with h | h | h | h | h <;> simp [h]
  simp only [State.tableLoad, ← hx, hl, ← ho, hwait, cond_true]

variable (hpush : s.flag (F.anlQ0Push q) = true) (hup : s.isUp q = true) (hen : s.flag F.anlCtlEn = true)
  (hiso : s.iso q = false) (hcheck : x.check = false)

include hpush hup hen hiso hcheck

omit hx hl in
/-- What lets a load go on. -/
theorem State.loadGate_of_going :
    (!o.flag (F.anlQ0Push q) || !o.isUp q || !o.flag F.anlCtlEn || o.iso q || x.check) = false := by
  rw [ho]
  change (!s.flag (F.anlQ0Push q) || !s.isUp q || !s.flag F.anlCtlEn || s.iso q || x.check) = false
  rw [hpush, hup, hen, hiso, hcheck]
  rfl

theorem State.tableLoad_of_readback (hphase : x.phase = 0) (hback : s.readsBack q g = true)
    (ht : t = o.setAnl q { x with phase := 4 }) : s.tableLoad q bad
      = ((t.loadSend q 0x09 0 [g, 0]).loadSend q 0x09 0 [g, 13]).loadSend q 0x09 0 [g, 26] := by
  have hback' : o.readsBack q g = true := by rw [ho]; exact hback
  rw [hl] at ht
  simp only [State.tableLoad, ← hx, hl, ← ho, State.loadGate_of_going ho hpush hup hen hiso hcheck, cond_false, hphase,
    BEq.rfl, cond_true, hback', ← ht]
  rfl

theorem State.tableLoad_of_unreadable (hphase : x.phase = 0) (hback : s.readsBack q g = false)
    (hbad : bad = true ∨ s.wordsReadable (Reg.anlTrim q g 0) 32 = false) (hsource : s.hasSource q g = true) :
    s.tableLoad q bad = (o.touch (Reg.anlTrim q g 0) 32).loadLost q g := by
  have hback' : o.readsBack q g = false := by rw [ho]; exact hback
  have hsource' : o.hasSource q g = true := by rw [ho]; exact hsource
  have hbad' : (bad || !s.wordsReadable (Reg.anlTrim q g 0) 32) = true := by
    rcases hbad with h | h <;> simp [h]
  simp only [State.tableLoad, ← hx, hl, ← ho, State.loadGate_of_going ho hpush hup hen hiso hcheck, cond_false, hphase,
    BEq.rfl, cond_true, hback', hsource', hbad', Bool.and_self, State.when_true]

theorem State.tableLoad_of_push (hphase : x.phase = 0) (hback : s.readsBack q g = false)
    (hgood : (bad = false ∧ s.wordsReadable (Reg.anlTrim q g 0) 32 = true) ∨ s.hasSource q g = false) {m : List Nat}
    (hm : m = (if s.hasSource q g then s.tableTrims q g else List.replicate 32 0))
    (ht : t = (o.when (s.hasSource q g) (·.touch (Reg.anlTrim q g 0) 32)).setAnl q { x with phase := 1, trims := m }) :
    s.tableLoad q bad = ((t.loadSend q 0x07 0 (trimWords g 0 13 m)).loadSend q 0x07 0 (trimWords g 13 13 m)).loadSend q 0x07 0
      (trimWords g 26 6 m) := by
  have hback' : o.readsBack q g = false := by rw [ho]; exact hback
  have hsource : o.hasSource q g = s.hasSource q g := by rw [ho]; rfl
  rw [hl] at ht
  have htrims : o.tableTrims q g = s.tableTrims q g := by rw [ho]; rfl
  have hgood' : ((bad || !s.wordsReadable (Reg.anlTrim q g 0) 32) && s.hasSource q g) = false := by
    rcases hgood with ⟨h, h'⟩ | h
    · rw [h, h']
      rfl
    · rw [h, Bool.and_false]
  have hm' : (bif s.hasSource q g then s.tableTrims q g else List.replicate 32 0) = m := by rw [hm, Bool.cond_eq_ite]
  simp only [State.tableLoad, ← hx, hl, ← ho, State.loadGate_of_going ho hpush hup hen hiso hcheck, cond_false, hphase,
    BEq.rfl, cond_true, hback', hsource, htrims, hgood', hm', ← ht]
  rfl

theorem State.tableLoad_of_apply (hphase : x.phase = 2) (hhold : s.flag (F.grfStsAsmHold q) = false) :
    s.tableLoad q bad = (o.setAnl q { x with phase := 3 }).loadSend q 0x08 0 [g] := by
  have hhold' : o.flag (F.grfStsAsmHold q) = false := by rw [ho]; exact hhold
  have hx' : o.anlOf q = x := by rw [ho, hx]; rfl
  simp only [State.tableLoad, ← hx, hl, ← ho, State.loadGate_of_going ho hpush hup hen hiso hcheck, cond_false, hphase,
    Nat.reduceBEq, BEq.rfl, hhold', Bool.not_false, Bool.and_self, cond_true, State.loadApply, hx']

theorem State.tableLoad_of_answering (h : x.phase = 1 ∨ x.phase = 3 ∨ x.phase = 4 ∨
    (x.phase = 2 ∧ s.flag (F.grfStsAsmHold q) = true)) : s.tableLoad q bad = o := by
  have hphase : (x.phase == 0) = false := by
    rcases h with h | h | h | ⟨h, _⟩ <;> rw [h] <;> rfl
  have hstay : (x.phase == 2 && !o.flag (F.grfStsAsmHold q)) = false := by
    rcases h with h | h | h | ⟨_, h⟩
    · rw [h]; rfl
    · rw [h]; rfl
    · rw [h]; rfl
    · rw [ho, Bool.and_eq_false_imp]
      exact fun _ => congrArg not h
  simp only [State.tableLoad, ← hx, hl, ← ho, State.loadGate_of_going ho hpush hup hen hiso hcheck, cond_false, hphase,
    hstay]

end Load

/-! ### UNCAL and ANL_CTL (R353, Table 12.7) -/

theorem State.uncalBatch_of_none (h : (s.anlOf q).uncal = [] ∨ s.open' q 9 = false) : s.uncalBatch q = s := by
  rw [State.uncalBatch]
  rcases h with h | h
  · rw [h]
  · split
    · rfl
    · rw [h, Bool.not_false, cond_true]

theorem State.uncalBatch_of_pending {k : Nat} {r : List (Nat × Nat)} {b : Bool} (h : (s.anlOf q).uncal = (g, k) :: r)
    (hopen : s.open' q 9 = true) (hw : w = 32 * (g % 32) + k)
    (hb : b = (s.flag (F.anlGroupUncal q (w / 32)) || s.flag (F.anlGroupUncal q (32 + w / 32)))) :
    s.uncalBatch q = forUpTo 64 (fun p t => t.fset (Cell.uncal q ((2 * p + w / 512) * 512 + w % 512)) b)
      (s.setAnl q { s.anlOf q with uncal := r }) := by
  rw [State.uncalBatch, h]
  simp only [hopen, Bool.not_true, cond_false, ← hw, ← hb]

/-- What every write of ANL_CTL ends with. -/
theorem State.writeAnlCtl_eq
    (hset : s.flag F.anlCtlEn = false → bitAt w 0 = true →
      t = forUpTo 4 (fun q v => ((v.setAnl q { v.anlOf q with started := false, done := [] }).loadStart q).firstDue q)
        (s.store Reg.anlCtl w))
    (hkeep : s.flag F.anlCtlEn = true ∨ bitAt w 0 = false → t = s.store Reg.anlCtl w) :
    s.writeAnlCtl w
      = forUpTo 4 (fun q u => (if bitAt w (4 + q) then (u.orw Reg.anlCtl (2 ^ (4 + q))).passDue q else u).endPass q) t := by
  have ht : t = (s.store Reg.anlCtl w).when (!s.flag F.anlCtlEn && bitAt w 0) (fun u => forUpTo 4
      (fun q v => ((v.setAnl q { v.anlOf q with started := false, done := [] }).loadStart q).firstDue q) u) := by
    cases hen : s.flag F.anlCtlEn
    · cases hw : bitAt w 0
      · exact (hkeep (.inr hw)).trans (State.when_false rfl _ _).symm
      · exact (hset hen hw).trans (State.when_true rfl _ _).symm
    · exact (hkeep (.inl hen)).trans (State.when_false rfl _ _).symm
  have hrun : ∀ (q : Nat) (u : State), (if bitAt w (4 + q) then (u.orw Reg.anlCtl (2 ^ (4 + q))).passDue q else u)
      = u.when (bitAt w (4 + q)) (fun v => (v.orw Reg.anlCtl (2 ^ (4 + q))).passDue q) := fun q u => by
    rw [State.when, Bool.cond_eq_ite]
  simp only [State.writeAnlCtl, ← ht, hrun]

end Anneal

/-- Settles O53, operation by operation. -/
theorem annealFindsDueZonesAndStepsGroups : Obligations.AnnealFindsDueZonesAndStepsGroups := by
  refine ⟨fun s hidle q z temp bad => ?_, fun s hready hheld => ?_, fun s z temp v t => State.zoneReading_of_off,
    fun s q => State.tryPass_of_due, fun s q w => ?_, fun s t w => State.writeAnlCtl_eq⟩
  · have hstay := fun f => congrArg (Host.Outcome.next (φ := Fault) (ρ := Refusal)) (State.onAnneal_of_idle hidle f)
    exact ⟨hstay _, hstay _, hstay _, hstay _, hstay _⟩
  · have hrun : ∀ {f : State → State} {u : State}, f s = u →
        (Host.Outcome.next (s.onAnneal f) : Host.Outcome State Fault Refusal) = .next u := fun h =>
      congrArg Host.Outcome.next ((State.onAnneal_of_working hready hheld _).trans h)
    refine ⟨fun z temp hz => hrun (State.when_true (Nat.blt_eq.mpr hz) _ _), fun z temp hz => hrun (State.when_false ?_ _ _),
      fun q hage hen => hrun (State.when_true (by rw [bne_iff_ne.mpr hage, hen]; rfl) _ _),
      fun q h => hrun (State.when_false ?_ _ _), fun q u hu => ⟨fun hnone => hrun (State.stepStart_of_none hu hnone),
        fun g hg => ⟨fun hpass hstage hmay t ht => hrun (State.stepStart_of_may hu hg hpass hstage hmay ht),
          fun h => hrun (State.stepStart_of_not hu hg h)⟩⟩,
      fun q => ⟨State.nextWalk_of_left, State.nextWalk_of_through⟩, fun q g hmay a ha => State.gap_of_mayStep hmay ha,
      fun q bad h => hrun (congrArg State.reportReads (State.tableLoad_of_none h)),
      fun q x g l bad o hx hl ho h => hrun (congrArg State.reportReads (State.tableLoad_of_waiting hx hl ho h)),
      fun q x g l bad o hx hl ho hpush hup hen hiso hcheck => ⟨fun hphase hback t ht => ?_, fun hphase hback hbad hsource => ?_,
        fun hphase hback hgood m t hm ht => ?_, fun hphase hhold => ?_, fun h => ?_⟩,
      fun q h => hrun (State.uncalBatch_of_none h),
      fun q g k r w b h hopen hw hb => hrun (State.uncalBatch_of_pending h hopen hw hb)⟩
    · rw [Bool.eq_false_iff, ne_eq, Nat.blt_eq]
      exact Nat.not_lt.mpr hz
    · rcases h with h | h <;> simp [h]
    · exact hrun (congrArg State.reportReads
        (State.tableLoad_of_readback hx hl ho hpush hup hen hiso hcheck hphase hback ht))
    · exact hrun (congrArg State.reportReads
        (State.tableLoad_of_unreadable hx hl ho hpush hup hen hiso hcheck hphase hback hbad hsource))
    · exact hrun (congrArg State.reportReads
        (State.tableLoad_of_push hx hl ho hpush hup hen hiso hcheck hphase hback hgood hm ht))
    · exact hrun (congrArg State.reportReads (State.tableLoad_of_apply hx hl ho hpush hup hen hiso hcheck hphase hhold))
    · exact hrun (congrArg State.reportReads (State.tableLoad_of_answering hx hl ho hpush hup hen hiso hcheck h))
  · exact ⟨fun h => ⟨congrArg Host.Outcome.next (State.atReg_reached h _), congrArg Host.Outcome.next (State.atReg_reached h _)⟩,
      fun h => ⟨congrArg Host.Outcome.next (State.atReg_unreached h _), congrArg Host.Outcome.next (State.atReg_unreached h _)⟩⟩

end Sys2Proof.Machine
end

section
/-! SUPPORT. The states of a Cabinet Bus channel (R363 to R389): its enable, its cycle starts and their synchronisation,
its timeouts and mode changes, and the statement of 13_cabinet_bus.md about the channels. -/

namespace Sys2Proof.Machine

section Channels

variable {s t u v : State} {c k w m n code st : Nat} {x : Chan} {bad : Bool}

/-- Commands of the star act while PD51 is READY and unit 8 is not held in reset. -/
theorem State.onStar_of_working (hready : s.ready 51 = true) (hheld : s.unitHeld 8 = false) (f : State → State) :
    s.onStar f = f s :=
  State.when_true (by rw [hready, hheld]; rfl) s f

theorem State.onStar_of_idle (h : s.ready 51 = false ∨ s.unitHeld 8 = true) (f : State → State) : s.onStar f = s := by
  refine State.when_false ?_ s f
  rcases h with h | h <;> simp [h]

/-! ### Writes of the host (R373, R378, R382) -/

theorem State.hostUnblock_eq {l : List (Nat × Nat × Bool)}
    (hl : l = (k, s.counter, s.spokeShut c k) :: (s.chan c).unblocks.filter (fun y => y.2.1 == s.counter))
    (ht : t = s.setChan c { s.chan c with unblocks := l }) : s.hostUnblock c k = t.unblock c k := by
  rw [ht, hl, State.hostUnblock]

theorem State.unblock_of_shut (h : s.spokeShut c k = true) :
    s.unblock c k = (s.fput (F.cbsSpk1State c k) 2).fput (F.cbsSpk1Strikes c k) 2 := by
  rw [State.unblock, h, cond_true]

theorem State.unblock_of_open (h : s.spokeShut c k = false) : s.unblock c k = s := by
  rw [State.unblock, h, cond_false]

theorem State.writeCbCtl_of_same (ht : t = s.store (Reg.cbsCtl c) w) (h : t.flag (F.cbsCtlEn c) = s.flag (F.cbsCtlEn c)) :
    s.writeCbCtl c w = t := by
  simp only [State.writeCbCtl, ← ht, h, BEq.rfl, cond_true]

theorem State.writeCbCtl_of_cleared (ht : t = s.store (Reg.cbsCtl c) w) (hwas : s.flag (F.cbsCtlEn c) = true)
    (hnow : t.flag (F.cbsCtlEn c) = false) : s.writeCbCtl c w = t.goOff c := by
  have hchange : (t.flag (F.cbsCtlEn c) == s.flag (F.cbsCtlEn c)) = false := by rw [hwas, hnow]; rfl
  simp only [State.writeCbCtl, ← ht]
  rw [hchange, hwas, cond_true, cond_false]

/-- Setting EN checks MODE_INIT. -/
theorem State.writeCbCtl_of_set (ht : t = s.store (Reg.cbsCtl c) w) (hm : m = t.fget (F.cbsCtlModeInit c))
    (hcode : code = t.checkMode c m) (hu : u = eachOf (t.modeSpoilt (modeBase c m)) (fun k v => v.touch k 1) t)
    (hwas : s.flag (F.cbsCtlEn c) = false) (hnow : t.flag (F.cbsCtlEn c) = true) :
    s.writeCbCtl c w = bif code != 0 then u.fput (F.cbsStsErr c) code
      else ((((u.fput (F.cbsStsErr c) code).fput (F.cbsStsMode c) m).setChan c
        { txs := ((u.fput (F.cbsStsErr c) code).chan c).txs }).showRate' c).cbEnter c cbListen := by
  simp only [State.writeCbCtl, ← ht, hwas, hnow, Bool.true_beq, cond_false, ← hm, ← hcode, ← hu]

theorem cond_ne {a b n : Nat} (ha : a ≠ n) (hb : b ≠ n) (g : Bool) : (bif g then a else b) ≠ n := by
  cases g
  · exact hb
  · exact ha

/-- The checks of R367 have the codes 0 to 11. -/
theorem State.checkMode_ne_rejected (s : State) (c m : Nat) : s.checkMode c m ≠ 12 := by
  rw [State.checkMode]
  iterate 11 refine cond_ne (by decide) ?_ _
  decide

/-- A mode request that may not act is rejected with code 12. -/
theorem State.writeModeReq_of_barred (hst : st = s.cbState c) (hm : m = bitsOf w 0 3) (hgo : bitAt w 31 = true)
    (h : s.flag (F.cbsModeStsPend c) = true ∨ ¬(st = cbNormal ∨ st = cbPassive) ∨ m = s.fget (F.cbsStsMode c)) :
    s.writeModeReq c w = (s.fput (F.cbsModeStsRej c) 12).cbsEvent c 6 c st (s.fget (F.cbsStsCycle c)) := by
  have hbar : (s.flag (F.cbsModeStsPend c) || !(st == cbNormal || st == cbPassive) || m == s.fget (F.cbsStsMode c)) = true := by
    rcases h with h | h | h
    · simp [h]
    · have hst' : (st == cbNormal || st == cbPassive) = false := by simpa using h
      simp [hst']
    · simp [h]
  simp only [State.writeModeReq, hgo, Bool.not_true, cond_false, ← hm, ← hst, hbar, cond_true]
  rfl

/-- A mode request that may act is judged by the checks of its mode. -/
theorem State.writeModeReq_of_allowed (hst : st = s.cbState c) (hm : m = bitsOf w 0 3) (hgo : bitAt w 31 = true)
    (hu : u = eachOf (s.modeSpoilt (modeBase c m)) (fun k v => v.touch k 1) s)
    (hpend : s.flag (F.cbsModeStsPend c) = false) (hstate : st = cbNormal ∨ st = cbPassive)
    (hother : m ≠ s.fget (F.cbsStsMode c)) (hcode : code = s.checkMode c m) :
    s.writeModeReq c w = bif code != 0 then (u.fput (F.cbsModeStsRej c) code).cbsEvent c 6 c st (s.fget (F.cbsStsCycle c))
      else ((u.fput (F.cbsModeStsNext c) m).fset (F.cbsModeStsPend c) true).showLeft c
        (switchAhead (s.fget (F.cbsStsCycle c))
          (bif u.mdMatrix (u.cbMode c) then Nat.max 1 (u.mdBasic (u.cbMode c)) else 1) 128 (clampNat 2 31 (bitsOf w 4 5))) := by
  have hmay : (s.flag (F.cbsModeStsPend c) || !(st == cbNormal || st == cbPassive) || m == s.fget (F.cbsStsMode c)) = false := by
    have hst' : (st == cbNormal || st == cbPassive) = true := by simpa using hstate
    rw [hpend, hst', beq_eq_false_iff_ne.mpr hother]
    rfl
  have hjudged : (code != 12) = true := bne_iff_ne.mpr (hcode ▸ s.checkMode_ne_rejected c m)
  simp only [State.writeModeReq, hgo, Bool.not_true, cond_false, ← hm, ← hst, hmay, ← hcode, State.when_true hjudged, ← hu]

/-! ### Cycle starts (R363, R378) -/

theorem State.cbCycleStart_of_bad (h : s.cbState c ≠ cbOff) : s.cbCycleStart c true = s.cbEnter c cbHalt := by
  simp only [State.cbCycleStart, bne_iff_ne.mpr h, Bool.and_self, cond_true]

/-- A channel that runs no cycle starts none. -/
theorem State.cbCycleStart_of_still (hbad : bad = false ∨ s.cbState c = cbOff) (hstrikes : s.strikesOn c = false)
    (hcold : s.cbState c ≠ cbColdstart) (hlisten : s.cbState c ≠ cbListen ∨ (s.chan c).first = false) :
    s.cbCycleStart c bad = s := by
  have hgood : (bad && s.cbState c != cbOff) = false := by
    rcases hbad with h | h <;> simp [h]
  have hstill : (s.strikesOn c || s.cbState c == cbColdstart || (s.cbState c == cbListen && (s.chan c).first)) = false := by
    rw [hstrikes, beq_eq_false_iff_ne.mpr hcold]
    rcases hlisten with h | h <;> simp [h]
  simp only [State.cbCycleStart, hgood, cond_false, hstill, Bool.not_false, cond_true]

theorem State.strikesOn_of_off (h : s.cbState c = cbOff) : s.strikesOn c = false := by
  simp only [State.strikesOn, h]
  rfl

/-- Showing the rate leaves a pending mode switch as it is. -/
theorem State.showRate'_pend (s : State) (c : Nat) : (s.showRate' c).flag (F.cbsModeStsPend c) = s.flag (F.cbsModeStsPend c) := by
  have hrate : (F.cbsModeStsPend c).addr ≠ (F.cbsRateRho c).addr := by
    simp only [F.cbsModeStsPend, F.cbsRateRho, Reg.cbsModeSts, Reg.cbsRate]
    omega
  have hsat : (F.cbsModeStsPend c).addr ≠ (F.cbsStsNtSat c).addr := by
    simp only [F.cbsModeStsPend, F.cbsStsNtSat, Reg.cbsModeSts, Reg.cbsSts]
    omega
  cases hen : s.flag (F.cbsCtlNtEn c)
  · rw [State.showRate', State.when_false hen]
  · rw [State.showRate', State.when_true hen, State.flag_fset_ne hsat, State.flag_fput_ne hrate]

/-- A running channel's cycle start. -/
theorem State.cbCycleStart_of_running
    (hruns : s.strikesOn c = true ∨ s.cbState c = cbColdstart ∨ (s.cbState c = cbListen ∧ (s.chan c).first = true))
    (hst : st = s.cbState c) (hu : u = (s.guardClose' c).reintegrate c) (hx : x = u.chan c)
    (hn : n = (if x.first then 0 else (u.fget (F.cbsStsCycle c) + 1) % 64))
    (ht : t = ((u.fput (F.cbsStsCycle c) n).cbsCount c 0).setChan c { x with
      synced := [], devs := [], ownSync := false, led := false, lead := x.lead && st != cbColdstart, first := false
      msNext := 0, msAt := u.dynStart (u.cbMode c), noisy := x.txs.map (·.spoke)
      startAt := u.folCounter 4, rho := signedOf (u.fget (F.cbsRateRho c)) 16 })
    (hv : v = (if (t.showRate' c).flag (F.cbsModeStsPend c) = true ∧ 0 < x.left then (t.showRate' c).showLeft c (x.left - 1)
      else t.showRate' c)) :
    s.cbCycleStart c false = bif st == cbColdstart && n == 4 then v.cbEnter c cbIntegrate
      else bif st == cbIntegrate && n == 8 then
        bif Nat.ble 2 x.goodRun then v.cbEnter c cbNormal else ((v.cbsCount c 4).cbsEvent c 3 c cbListen n).toListen c
      else v := by
  have hgo : (s.strikesOn c || st == cbColdstart || (st == cbListen && (s.chan c).first)) = true := by
    rw [hst]
    rcases hruns with h | h | ⟨h, h'⟩
    · simp [h]
    · simp [h]
    · simp [h, h']
  have hn' : (bif x.first then 0 else (u.fget (F.cbsStsCycle c) + 1) % 64) = n := by rw [hn, Bool.cond_eq_ite]
  have hv' : (t.showRate' c).when (t.flag (F.cbsModeStsPend c) && Nat.blt 0 x.left) (·.showLeft c (x.left - 1)) = v := by
    rw [hv, t.showRate'_pend, State.when, Bool.cond_eq_ite]
    simp only [Bool.and_eq_true, Nat.blt_eq]
  simp only [State.cbCycleStart, Bool.false_and, cond_false, ← hst, hgo, Bool.not_true, ← hu, ← hx, hn', ← ht, hv']

/-! ### The end of a cycle (R375 to R377) -/

theorem State.nitStart_of_still (h : s.cbState c < cbColdstart ∨ cbPassive < s.cbState c) : s.nitStart c = s := by
  have hstill : (Nat.blt (s.cbState c) cbColdstart || Nat.blt cbPassive (s.cbState c)) = true := by
    rw [Bool.or_eq_true, Nat.blt_eq, Nat.blt_eq]
    exact h
  simp only [State.nitStart, hstill, cond_true]

section Nit

variable {l : List (Nat × Int)} {mid app : Int} {out : Bool} (hlow : cbColdstart ≤ s.cbState c)
  (hhigh : s.cbState c ≤ cbPassive) (hl : l = (s.guardClose' c).devSet c) (hmid : mid = middle (l.map (·.2)))
  (hu : u = (s.guardClose' c).fput (F.cbsStsSyncN c) l.length)

include hlow hhigh in
theorem State.nitGate_of_running : (Nat.blt (s.cbState c) cbColdstart || Nat.blt cbPassive (s.cbState c)) = false := by
  rw [Bool.eq_false_iff, ne_eq, Bool.or_eq_true, Nat.blt_eq, Nat.blt_eq]
  omega

include hlow hhigh hl hu

theorem State.nitStart_of_following (hnt : u.flag (F.cbsCtlNtEn c) = true) :
    s.nitStart c = (u.cbFollow c).cbJudge c (!(u.chan c).ownSync) := by
  simp only [State.nitStart, State.nitGate_of_running hlow hhigh, cond_false, ← hl, ← hu, hnt, cond_true]

include hmid

theorem State.nitStart_of_own (hnt : u.flag (F.cbsCtlNtEn c) = false) (hout : out = Nat.blt (u.pi80 c) mid.natAbs)
    (hbad : bad = (Nat.blt l.length (u.minSync c) || out)) (happ : app = (if bad then (0 : Int) else mid))
    (ht : t = (u.fput (F.cbsOfsMid c) (encodeSigned app 16)).when out (·.cbsCount c 7)) :
    s.nitStart c = (bif u.fget (F.cbsStsCycle c) % 2 == 0 then t.setChan c { t.chan c with devsEven := l, midEven := app }
      else t.cbRate c).cbJudge c bad := by
  have happ' : (bif bad then (0 : Int) else mid) = app := by rw [happ, Bool.cond_eq_ite]
  simp only [State.nitStart, State.nitGate_of_running hlow hhigh, cond_false, ← hl, ← hu, hnt, ← hmid, ← hout, ← hbad, happ',
    ← ht]

end Nit

/-! ### Timeouts, mode switches, spoke locks (R379, R382, R389) -/

theorem State.listenTimeout_of_leading (hst : s.cbState c = cbListen) (hcs : s.flag (F.cbsCtlCsEn c) = true)
    (hquiet : s.relaying c = false) : s.listenTimeout c = s.setChan c { s.chan c with lead := true, first := true } := by
  rw [State.listenTimeout, hst, hcs, hquiet]
  rfl

theorem State.listenTimeout_of_not (h : s.cbState c ≠ cbListen ∨ s.flag (F.cbsCtlCsEn c) = false ∨ s.relaying c = true) :
    s.listenTimeout c = s := by
  have hstay : (s.cbState c == cbListen && s.flag (F.cbsCtlCsEn c) && !s.relaying c) = false := by
    rcases h with h | h | h <;> simp [h]
  rw [State.listenTimeout, hstay, cond_false]

theorem State.haltTimeout_of_restart (hst : s.cbState c = cbHalt) (hauto : s.flag (F.cbsCtlAutoRestart c) = true) :
    s.haltTimeout c = s.toListen c := by
  rw [State.haltTimeout, hst, hauto]
  rfl

theorem State.haltTimeout_of_not (h : s.cbState c ≠ cbHalt ∨ s.flag (F.cbsCtlAutoRestart c) = false) :
    s.haltTimeout c = s := by
  have hstay : (s.cbState c == cbHalt && s.flag (F.cbsCtlAutoRestart c)) = false := by
    rcases h with h | h <;> simp [h]
  rw [State.haltTimeout, hstay, cond_false]

theorem State.modeSwitch_of_due {a b d : State} (hpend : s.flag (F.cbsModeStsPend c) = true) (hleft : (s.chan c).left ≤ 1)
    (ha : a = ((s.fset (F.cbsModeStsPend c) false).showLeft c 0).fput (F.cbsStsMode c) (s.fget (F.cbsModeStsNext c)))
    (hb : b = ((a.cbsCount c 9).cbsEvent c 5 c (a.cbState c) (a.fget (F.cbsStsCycle c))).dropNoWindow c)
    (hd : d = b.setChan c { b.chan c with msAt := b.dynStart (b.cbMode c) }) : s.modeSwitch c
      = (eachOf ((b.chan c).trips.filter (fun q => !d.holdsTrip c q.bytes.length)) (fun _ w => w.dropTrip c 16) d).setTrips c
        ((b.chan c).trips.filter (fun q => d.holdsTrip c q.bytes.length)) := by
  simp only [State.modeSwitch, hpend, Nat.ble_eq.mpr hleft, Bool.and_self, Bool.not_true, cond_false, ← ha, ← hb, ← hd]

theorem State.modeSwitch_of_not (h : s.flag (F.cbsModeStsPend c) = false ∨ 1 < (s.chan c).left) : s.modeSwitch c = s := by
  have hstay : (s.flag (F.cbsModeStsPend c) && Nat.ble (s.chan c).left 1) = false := by
    rcases h with h | h
    · rw [h, Bool.false_and]
    · rw [Bool.and_eq_false_imp]
      intro _
      rw [Bool.eq_false_iff, ne_eq, Nat.ble_eq]
      exact Nat.not_le.mpr h
  simp only [State.modeSwitch, hstay, Bool.not_false, cond_true]

theorem State.spokeLock_of_on {b : Bool} (hk : k ≠ 0) (hon : s.spokeOn c k = true) :
    s.spokeLock c k b = s.fset (F.cbsSpk1Lock c k) b := by
  rw [State.spokeLock, hon, beq_eq_false_iff_ne.mpr hk]
  rfl

theorem State.spokeLock_of_off {b : Bool} (h : k = 0 ∨ s.spokeOn c k = false) : s.spokeLock c k b = s := by
  have hoff : (k == 0 || !s.spokeOn c k) = true := by
    rcases h with h | h <;> simp [h]
  rw [State.spokeLock, hoff, cond_true]

end Channels

/-- Settles O54, operation by operation. -/
theorem cabinetChannelsRunTheirStates : Obligations.CabinetChannelsRunTheirStates := by
  refine ⟨fun s c w => ⟨fun h => ⟨fun hsafe => ?_, fun hsafe => ?_, congrArg Host.Outcome.next (State.atReg_reached h _)⟩,
      fun h => ⟨congrArg Host.Outcome.next (State.atReg_unreached h _), congrArg Host.Outcome.next (State.atReg_unreached h _)⟩,
      fun h => congrArg Host.Outcome.next (State.atReg_reached h _),
      fun h => congrArg Host.Outcome.next (State.atReg_unreached h _)⟩,
    fun s c k => ⟨fun h t l hl ht => ⟨fun hshut => ?_, fun hopen => ?_⟩,
      fun h => congrArg Host.Outcome.next (State.atReg_unreached h _)⟩,
    fun s t u c w code m ht hm hcode hu => ⟨State.writeCbCtl_of_same ht, State.writeCbCtl_of_cleared ht, fun hwas hnow => ?_⟩,
    fun s u c w st m code hu hst hm hgo => ⟨State.writeModeReq_of_barred hst hm hgo,
      fun hpend hstate hother hcode => ?_⟩, fun s hidle c k l bad => ?_, fun s c hready hheld => ?_⟩
  · exact congrArg Host.Outcome.next ((State.atReg_reached h _).trans
      (congrArg State.reportReads (State.when_true (congrArg not hsafe) s _)))
  · exact congrArg Host.Outcome.next ((State.atReg_reached h _).trans
      (congrArg State.reportReads (State.when_false (congrArg not hsafe) s _)))
  · refine congrArg Host.Outcome.next ((State.atReg_reached h _).trans ((State.hostUnblock_eq hl ht).trans ?_))
    exact State.unblock_of_shut (by rw [ht]; exact hshut)
  · refine congrArg Host.Outcome.next ((State.atReg_reached h _).trans ((State.hostUnblock_eq hl ht).trans ?_))
    exact State.unblock_of_open (by rw [ht]; exact hopen)
  · have hset := State.writeCbCtl_of_set ht hm hcode hu hwas hnow
    refine ⟨fun hbad => by rw [hset, bne_iff_ne.mpr hbad, cond_true], fun hgood v hv => ?_⟩
    rw [hset, hv, hgood]
    rfl
  · have hjudged := State.writeModeReq_of_allowed hst hm hgo (hm ▸ hu) hpend hstate hother hcode
    refine ⟨fun hbad => by rw [hjudged, bne_iff_ne.mpr hbad, cond_true], fun hgood => ?_⟩
    rw [hjudged, hgood]
    rw [bne_self_eq_false, cond_false, Bool.cond_eq_ite]
  · have hstay := fun f => congrArg (Host.Outcome.next (φ := Fault) (ρ := Refusal)) (State.onStar_of_idle hidle f)
    exact ⟨hstay _, hstay _, hstay _, hstay _, hstay _, hstay _⟩
  · have hrun : ∀ {f : State → State} {u : State}, f s = u →
        (Host.Outcome.next (s.onStar f) : Host.Outcome State Fault Refusal) = .next u := fun h =>
      congrArg Host.Outcome.next ((State.onStar_of_working hready hheld _).trans h)
    refine ⟨fun h => hrun (State.cbCycleStart_of_bad h), fun hoff bad => hrun (State.cbCycleStart_of_still (.inr hoff)
        (State.strikesOn_of_off hoff) (by rw [hoff]; decide) (.inl (by rw [hoff]; decide))),
      fun hstrikes hcold hlisten => hrun (State.cbCycleStart_of_still (.inl rfl) hstrikes hcold hlisten),
      fun hruns st u x n t v hst hu hx hn ht hv => ?_, fun h => hrun (State.nitStart_of_still h),
      fun hlow hhigh v mid u out bad app t hv hmid hu => ⟨fun hnt =>
        hrun (State.nitStart_of_following hlow hhigh hv hu hnt), fun hnt hout hbad happ ht => ?_⟩,
      fun hst hcs hquiet => hrun (State.listenTimeout_of_leading hst hcs hquiet),
      fun h => hrun (State.listenTimeout_of_not h), fun hst hauto => hrun (State.haltTimeout_of_restart hst hauto),
      fun h => hrun (State.haltTimeout_of_not h),
      fun hpend hleft a b d ha hb hd => hrun (State.modeSwitch_of_due hpend hleft ha hb hd),
      fun h => hrun (State.modeSwitch_of_not h), fun k l => ⟨fun hk hon => hrun (State.spokeLock_of_on hk hon),
        fun h => hrun (State.spokeLock_of_off h)⟩⟩
    · have hcycle := State.cbCycleStart_of_running hruns hst hu hx hn ht hv
      have hends : st = cbIntegrate → n = 8 → (st == cbColdstart && n == 4) = false ∧ (st == cbIntegrate && n == 8) = true := by
        rintro rfl rfl
        exact ⟨rfl, rfl⟩
      refine ⟨fun hncold hnint => hrun ?_, fun hcold hn4 => hrun ?_, fun hint hn8 hruns2 => hrun ?_,
        fun hint hn8 hshort => hrun ?_⟩
      · have hncold' : (st == cbColdstart && n == 4) = false := by simpa using hncold
        have hnint' : (st == cbIntegrate && n == 8) = false := by simpa using hnint
        rw [hcycle, hncold', hnint', cond_false, cond_false]
      · have hfour : (st == cbColdstart && n == 4) = true := by rw [hcold, hn4]; rfl
        rw [hcycle, hfour, cond_true]
      · rw [hcycle, (hends hint hn8).1, (hends hint hn8).2, Nat.ble_eq.mpr hruns2, cond_false, cond_true, cond_true]
      · have hfew : Nat.ble 2 x.goodRun = false := by
          rw [Bool.eq_false_iff, ne_eq, Nat.ble_eq]
          exact Nat.not_le.mpr hshort
        rw [hcycle, (hends hint hn8).1, (hends hint hn8).2, hfew, cond_false, cond_true, cond_false]
    · have hnit := State.nitStart_of_own hlow hhigh hv hmid hu hnt hout hbad happ ht
      exact ⟨fun heven => hrun (by rw [hnit, heven, BEq.rfl, cond_true]),
        fun hodd => hrun (by rw [hnit, hodd, show ((1 : Nat) == 0) = false from rfl, cond_false])⟩

end Sys2Proof.Machine
end

section
/-! SUPPORT. The guardian and the frames of a Cabinet Bus cycle (R358 to R390): opening and closing windows, SOFs that
arrive, frames that end and the star's own frames, and the statement of 13_cabinet_bus.md about a cycle. -/

namespace Sys2Proof.Machine

section Cycle

variable {s t u v : State} {c k id a n : Nat} {bad bt start mini : Bool} {x : Chan}

/-! ### The guardian (R370 to R372) -/

/-- A minislot out of its turn opens nothing. -/
theorem State.guardOpen_of_passed (hu : u = s.guardClose' c) (hx : x = u.chan c)
    (hmini : mini = (Nat.ble 64 id && !u.mdMatrix (u.cbMode c))) (h : mini = true)
    (hpassed : id - 64 ≠ x.msNext ∨ u.dynEnd (u.cbMode c) ≤ x.msAt) : s.guardOpen c id bad = u := by
  have hpassed' : (mini && (id - 64 != x.msNext || Nat.ble (u.dynEnd (u.cbMode c)) x.msAt)) = true := by
    rw [h, Bool.true_and, Bool.or_eq_true, bne_iff_ne, Nat.ble_eq]
    exact hpassed
  simp only [State.guardOpen, ← hu, ← hx, ← hmini, hpassed', cond_true]

/-- A window in its turn opens for the spokes that it permits, for none when its words cannot be read. -/
theorem State.guardOpen_of_turn {l : List Nat} {o : Nat} (hu : u = s.guardClose' c) (hx : x = u.chan c)
    (hmini : mini = (Nat.ble 64 id && !u.mdMatrix (u.cbMode c)))
    (hturn : mini = false ∨ (id - 64 = x.msNext ∧ x.msAt < u.dynEnd (u.cbMode c)))
    (hfree : bad = true ∨ u.winBad c id = true → l = [] ∧ o = 0)
    (hread : bad = false → u.winBad c id = false → l = u.toOpen c id ∧ o = u.emptyOwner c id) :
    s.guardOpen c id bad
      = eachOf ((x.txs.filter (fun y => l.any (· == y.spoke) && u.passes c y.spoke)).map (·.spoke)) (fun k v => v.cutSpoke c k 4 0)
        ((u.touchWin c id).setChan c { x with
          win := id + 1, open' := l, winner := 0, wonAt := 0, owner := o, sent := x.txs.any (fun y => y.spoke == o) }) := by
  have hturn' : (mini && (id - 64 != x.msNext || Nat.ble (u.dynEnd (u.cbMode c)) x.msAt)) = false := by
    rcases hturn with h | ⟨hnext, hat⟩
    · rw [h, Bool.false_and]
    · have hle : Nat.ble (u.dynEnd (u.cbMode c)) x.msAt = false := by
        rw [Bool.eq_false_iff, ne_eq, Nat.ble_eq]
        exact Nat.not_le.mpr hat
      rw [hnext, hle, bne_self_eq_false, Bool.or_self, Bool.and_false]
  have hlo : l = (bif bad || u.winBad c id then [] else u.toOpen c id) ∧
      o = (bif bad || u.winBad c id then 0 else u.emptyOwner c id) := by
    cases hb : bad
    · cases hw : u.winBad c id
      · exact hread hb hw
      · exact hfree (.inr hw)
    · exact hfree (.inl hb)
  obtain ⟨hl, ho⟩ := hlo
  simp only [State.guardOpen, ← hu, ← hx, ← hmini, hturn', cond_false, ← hl, ← ho]

theorem State.guardClose'_of_none (h : (s.chan c).win = 0) : s.guardClose' c = s := by
  simp only [State.guardClose', h, BEq.rfl, cond_true]

/-- The end of an open window, whose minislot hands on to the next id. -/
theorem State.guardClose'_of_open (hopen : (s.chan c).win ≠ 0) (hx : x = s.chan c)
    (hu : u = eachOf (x.txs.filter (fun y => y.kind == 0 && x.open'.any (· == y.spoke)))
      (fun y v => v.cutSpoke c y.spoke 3 (groupsBy y.at' (s.closeAt c (x.win - 1)))) s)
    (hv : v = (if x.owner ≠ 0 ∧ x.sent = false then u.spokeCount c x.owner 2 else u))
    (hmini : mini = (Nat.ble 64 (x.win - 1) && !s.mdMatrix (s.cbMode c))) :
    s.guardClose' c = v.setChan c { v.chan c with
      win := 0, open' := [], winner := 0, wonAt := 0, owner := 0, sent := false
      msNext := bif mini then x.msNext + 1 else x.msNext
      msAt := bif mini then x.msAt + s.mdMsLen (s.cbMode c) else x.msAt } := by
  have hv' : u.when (x.owner != 0 && !x.sent) (·.spokeCount c x.owner 2) = v := by
    rw [hv, State.when, Bool.cond_eq_ite]
    simp only [Bool.and_eq_true, bne_iff_ne, Bool.not_eq_true']
  have hwin : (x.win == 0) = false := beq_eq_false_iff_ne.mpr (hx ▸ hopen)
  simp only [State.guardClose', ← hx, hwin, cond_false, ← hu, hv', ← hmini]

/-! ### SOFs (R371, R379) -/

theorem State.sofArrives_of_ignored (h : k = 0 ∨ s.spokeOn c k = false ∨ s.cbState c = cbOff ∨
    (∃ x ∈ (s.chan c).txs, x.spoke = k)) : s.sofArrives c k a start = s := by
  have hgate : (!s.spokeOn c k || k == 0 || s.cbState c == cbOff || (s.chan c).txs.any (fun x => x.spoke == k)) = true := by
    rcases h with h | h | h | ⟨x, hx, hk⟩
    · simp [h]
    · simp [h]
    · simp [h]
    · have hany : (s.chan c).txs.any (fun x => x.spoke == k) = true := List.any_eq_true.mpr ⟨x, hx, beq_iff_eq.mpr hk⟩
      rw [hany, Bool.or_true]
  simp only [State.sofArrives, hgate, cond_true]

/-- No channel that left COLDSTART still takes start frames of its leader's microtick. -/
theorem State.tiesLead_of_not_coldstart (h : u.cbState c ≠ cbColdstart) : u.tiesLead c a = false := by
  simp only [State.tiesLead, beq_eq_false_iff_ne.mpr h, Bool.false_and]

section Sof

variable {add : State → Nat → Nat → State} (hk : k ≠ 0) (hon : s.spokeOn c k = true) (hoff : s.cbState c ≠ cbOff)
  (hnew : ∀ x ∈ (s.chan c).txs, x.spoke ≠ k)
  (hu : u = s.setChan c { s.chan c with
    noisy := k :: (s.chan c).noisy, sent := (s.chan c).sent || (s.chan c).owner == k })
  (hx : x = u.chan c)
  (hadd : add = (fun (t : State) (w kind : Nat) =>
    t.onTxs c (fun l => l ++ [{ spoke := k, at' := a, win := w, kind := kind, from' := u.folCounter 4 }])))

include hk hon hoff hnew in
/-- What lets an SOF in. -/
theorem State.sofGate_of_new :
    (!s.spokeOn c k || k == 0 || s.cbState c == cbOff || (s.chan c).txs.any (fun x => x.spoke == k)) = false := by
  have hany : (s.chan c).txs.any (fun x => x.spoke == k) = false := by simpa using hnew
  rw [hon, beq_eq_false_iff_ne.mpr hk, beq_eq_false_iff_ne.mpr hoff, hany]
  rfl

include hk hon hoff hnew hu hadd

/-- An SOF in LISTEN, or in the microtick that ended it. -/
theorem State.sofArrives_of_start (h : u.cbState c = cbListen ∨ u.tiesLead c a = true) : s.sofArrives c k a start
    = bif u.listenKind c k a start == 0 then add ((u.dropRelays c).takeLead c k a (u.folCounter 4)) 0 0 else add u 0 4 := by
  have hstart : (u.cbState c == cbListen || u.tiesLead c a) = true := by
    rcases h with h | h <;> simp [h]
  dsimp only at hu
  simp only [State.sofArrives, State.sofGate_of_new hk hon hoff hnew, cond_false, ← hu, hstart, cond_true, hadd]

theorem State.sofArrives_of_led (h : u.cbState c = cbListen ∨ u.tiesLead c a = true)
    (hkind : u.listenKind c k a start = 0) :
    s.sofArrives c k a start = add ((u.dropRelays c).takeLead c k a (u.folCounter 4)) 0 0 := by
  rw [State.sofArrives_of_start hk hon hoff hnew hu hadd h, hkind, BEq.rfl, cond_true]

theorem State.sofArrives_of_unled (h : u.cbState c = cbListen ∨ u.tiesLead c a = true)
    (hkind : u.listenKind c k a start = 4) : s.sofArrives c k a start = add u 0 4 := by
  rw [State.sofArrives_of_start hk hon hoff hnew hu hadd h, hkind, show ((4 : Nat) == 0) = false from rfl, cond_false]

include hx in
/-- An SOF in COLDSTART. -/
theorem State.sofArrives_of_coldstart (hst : u.cbState c = cbColdstart) (htie : u.tiesLead c a = false) :
    s.sofArrives c k a start
      = bif u.windowKind c k a == 0 && !u.spokeShut c k then add u x.win 0 else add (u.cbsCount c 17) 0 4 := by
  have hlisten : (u.cbState c == cbListen || u.tiesLead c a) = false := by rw [hst, htie]; rfl
  have hcold : (u.cbState c == cbColdstart) = true := beq_iff_eq.mpr hst
  dsimp only at hu
  simp only [State.sofArrives, State.sofGate_of_new hk hon hoff hnew, cond_false, ← hu, hlisten, hcold, cond_true, ← hx, hadd]

/-- An SOF on a blocked spoke or in HALT is not heard. -/
theorem State.sofArrives_of_unheard (hst : cbIntegrate ≤ u.cbState c)
    (h : u.spokeShut c k = true ∨ u.cbState c = cbHalt) : s.sofArrives c k a start = add u 0 4 := by
  have hcold : u.cbState c ≠ cbColdstart := fun h => absurd hst (by rw [h]; decide)
  have hlisten : (u.cbState c == cbListen || u.tiesLead c a) = false := by
    rw [State.tiesLead_of_not_coldstart hcold, Bool.or_false, beq_eq_false_iff_ne]
    exact fun h => absurd hst (by rw [h]; decide)
  have hshut : (u.spokeShut c k || u.cbState c == cbHalt) = true := by
    rcases h with h | h <;> simp [h]
  dsimp only at hu
  simp only [State.sofArrives, State.sofGate_of_new hk hon hoff hnew, cond_false, ← hu, hlisten,
    beq_eq_false_iff_ne.mpr hcold, hshut, cond_true, hadd]

section Window

variable (hshut : u.spokeShut c k = false) (hlow : cbIntegrate ≤ u.cbState c) (hhigh : u.cbState c ≤ cbPassive)

include hshut hlow hhigh

omit hk hon hoff hnew hu hadd in
/-- A running channel judges an open spoke's SOF by its window. -/
theorem State.sofStates_of_running : (u.cbState c == cbListen || u.tiesLead c a) = false ∧
    (u.cbState c == cbColdstart) = false ∧ (u.spokeShut c k || u.cbState c == cbHalt) = false := by
  have hcold : u.cbState c ≠ cbColdstart := fun h => absurd hlow (by rw [h]; decide)
  have hlisten : u.cbState c ≠ cbListen := fun h => absurd hlow (by rw [h]; decide)
  have hhalt : u.cbState c ≠ cbHalt := fun h => absurd hhigh (by rw [h]; decide)
  refine ⟨?_, beq_eq_false_iff_ne.mpr hcold, ?_⟩
  · rw [State.tiesLead_of_not_coldstart hcold, Bool.or_false, beq_eq_false_iff_ne.mpr hlisten]
  · rw [hshut, beq_eq_false_iff_ne.mpr hhalt]
    rfl

theorem State.sofArrives_of_outside (hkind : u.windowKind c k a = 3) : s.sofArrives c k a start = add u 0 3 := by
  obtain ⟨hlisten, hcold, hheard⟩ := State.sofStates_of_running (a := a) hshut hlow hhigh
  dsimp only at hu
  simp only [State.sofArrives, State.sofGate_of_new hk hon hoff hnew, cond_false, ← hu, hlisten, hcold, hheard, hkind, hadd]

include hx

theorem State.sofArrives_of_lost (hkind : u.windowKind c k a = 1) :
    s.sofArrives c k a start = add (u.spokeCount c k 7) x.win 1 := by
  obtain ⟨hlisten, hcold, hheard⟩ := State.sofStates_of_running (a := a) hshut hlow hhigh
  dsimp only at hu
  simp only [State.sofArrives, State.sofGate_of_new hk hon hoff hnew, cond_false, ← hu, hlisten, hcold, hheard, hkind, ← hx,
    hadd]

/-- A relayed SOF wins the window, over the spoke that had won it. -/
theorem State.sofArrives_of_won (hkind : u.windowKind c k a = 0)
    (ht : t = bif x.winner != 0 && x.winner != k + 1 then
      (u.onTxs c (fun l => l.map (fun y => bif y.spoke == x.winner - 1 then { y with kind := 1 } else y))).spokeCount c
        (x.winner - 1) 7 else u) :
    s.sofArrives c k a start = add (t.setChan c { t.chan c with
      winner := k + 1, wonAt := bif x.winner == k + 1 then x.wonAt else a }) x.win 0 := by
  obtain ⟨hlisten, hcold, hheard⟩ := State.sofStates_of_running (a := a) hshut hlow hhigh
  dsimp only at hu
  simp only [State.sofArrives, State.sofGate_of_new hk hon hoff hnew, cond_false, ← hu, hlisten, hcold, hheard, hkind, ← hx,
    ← ht, hadd]

end Window

end Sof

/-! ### Frames that end (R360, R362, R372) -/

theorem State.cbFrameEnd_of_none {l : List Nat} (h : ∀ x ∈ (s.chan c).txs, x.spoke ≠ k) : s.cbFrameEnd c k a l = s := by
  have hnone : (s.chan c).txs.find? (fun x => x.spoke == k) = none := by simpa using h
  simp only [State.cbFrameEnd, hnone]

section FrameEnd

variable {l g : List Nat} {y : SpokeTx} (hy : (s.chan c).txs.find? (fun x => x.spoke == k) = some y)
  (ht : t = (s.onTxs c (fun m => m.filter (fun y => y.spoke != k))).showRelay c y l)

include hy ht

theorem State.cbFrameEnd_of_off (h : s.spokeOn c k = false ∨ s.cbState c = cbOff) : s.cbFrameEnd c k a l = t := by
  have hgate : (!s.spokeOn c k || s.cbState c == cbOff) = true := by
    rcases h with h | h <;> simp [h]
  simp only [State.cbFrameEnd, hy, ← ht, hgate, cond_true]

variable (hon : s.spokeOn c k = true) (hoff : s.cbState c ≠ cbOff) (hn : n = (if (∃ g ∈ l, 512 ≤ g) then 8 else 1))

include hon hoff

omit hy ht in
theorem State.frameGate_of_on : (!s.spokeOn c k || s.cbState c == cbOff) = false := by
  rw [hon, beq_eq_false_iff_ne.mpr hoff]
  rfl

omit hy ht hon hoff in
include hn in
/-- The counter of a frame that is not good. -/
theorem badFrameCounter_eq : (bif l.any (fun g => Nat.ble 512 g) then 8 else 1) = n := by
  rw [hn, Bool.cond_eq_ite]
  simp only [List.any_eq_true, Nat.ble_eq]

include hn in
/-- A transmission that was not relayed to its end. -/
theorem State.cbFrameEnd_of_unrelayed (hkind : y.kind ≠ 0) :
    s.cbFrameEnd c k a l = (t.spokeCount c k n).when (y.kind == 3) (·.strike c k 5) := by
  simp only [State.cbFrameEnd, hy, ← ht, State.frameGate_of_on hon hoff, cond_false, beq_eq_false_iff_ne.mpr hkind,
    Bool.false_and, State.when_false, badFrameCounter_eq hn]

/-- A good frame. -/
theorem State.cbFrameEnd_of_good (hkind : y.kind = 0) (hg : g = l.dropLast) (hu : u = t.relayedWhole c k)
    (hwhole : cbWhole l = true) (hform : cbWellFormed k g = true) (hmatch : s.cbMatches c k y g = true)
    (hv : v = (if y.win = 0 then u.fixCycle c y (cbId g) else u).cbValid c k y g (y.from' / nsUnit)) :
    s.cbFrameEnd c k a l = v.when (Nat.ble 65 y.win && (v.chan c).win == y.win && !v.mdMatrix (v.cbMode c))
      (fun u => u.miniEnd c (u.macroFrom c a)) := by
  have hfix : u.when (y.win == 0) (·.fixCycle c y (cbId g)) = if y.win = 0 then u.fixCycle c y (cbId g) else u := by
    rw [State.when, Bool.cond_eq_ite]
    simp only [beq_iff_eq]
  have hthree : ((0 : Nat) == 3) = false := rfl
  simp only [State.cbFrameEnd, hy, ← ht, State.frameGate_of_on hon hoff, cond_false, hkind, BEq.rfl, Bool.true_and, ← hg,
    hwhole, hform, hmatch, State.when_true, ← hu, cond_true, hfix, ← hv, hthree, State.when_false, Bool.not_true,
    Bool.and_false, Bool.false_and]

include hn in
/-- A frame that is not good: a start frame of COLDSTART ends it. -/
theorem State.cbFrameEnd_of_spoilt (hkind : y.kind = 0) (hg : g = l.dropLast) (hu : u = t.relayedWhole c k)
    (hspoilt : cbWhole l = false ∨ cbWellFormed k g = false ∨ s.cbMatches c k y g = false)
    (hv : v = if y.win = 0 ∧ (u.spokeCount c k n).cbState c = cbColdstart then
      ((u.spokeCount c k n).cbsCount c 5).toListen c else u.spokeCount c k n) :
    s.cbFrameEnd c k a l = v.when (Nat.ble 65 y.win && (v.chan c).win == y.win && !v.mdMatrix (v.cbMode c))
      (fun u => u.miniEnd c (u.macroFrom c a)) := by
  have hbad : (cbWhole l && cbWellFormed k g && s.cbMatches c k y g) = false := by
    rcases hspoilt with h | h | h <;> simp [h]
  have hcold : (u.spokeCount c k n).when (y.win == 0 && (u.spokeCount c k n).cbState c == cbColdstart)
      (fun u => (u.cbsCount c 5).toListen c) = v := by
    rw [hv, State.when, Bool.cond_eq_ite]
    simp only [Bool.and_eq_true, beq_iff_eq]
  have hthree : ((0 : Nat) == 3) = false := rfl
  simp only [State.cbFrameEnd, hy, ← ht, State.frameGate_of_on hon hoff, cond_false, hkind, BEq.rfl, Bool.true_and, ← hg,
    hbad, State.when_true, ← hu, badFrameCounter_eq hn, hthree, State.when_false, Bool.not_false, Bool.and_true, hcold]

end FrameEnd

/-! ### The star's own frames (R379, R383, R386) -/

/-- Reading table words changes what has been read, nothing else. -/
theorem State.touchEach_eq (l : List Nat) (s : State) :
    ∃ m, eachOf l (fun k t => t.touch k 1) s = { s with touched := m } := by
  induction l generalizing s with
  | nil => exact ⟨s.touched, rfl⟩
  | cons k l ih =>
    obtain ⟨m, hm⟩ := ih (s.touch k 1)
    exact ⟨m, hm⟩

theorem State.touchWin_eq (s : State) (c id : Nat) : ∃ m, s.touchWin c id = { s with touched := m } :=
  State.touchEach_eq _ s

section Own

variable {x n : Nat} {sync : Bool} {e : RingEntry} (hx : x = bif bad || s.winBad c id then 0 else s.winCell c id)
  (ht : t = s.touchWin c id)

include ht in
/-- What the reads of a window leave as it was. -/
theorem State.touchWin_frame : t.cbState c = s.cbState c ∧ t.strikesOn c = s.strikesOn c ∧ t.chan c = s.chan c ∧
    t.mdMatrix (t.cbMode c) = s.mdMatrix (s.cbMode c) ∧ t.fget (F.cbsStsLeader c) = s.fget (F.cbsStsLeader c) ∧
    t.fget (F.cbsStsCycle c) = s.fget (F.cbsStsCycle c) ∧ t.flag (F.cbsCtlSyncNode c) = s.flag (F.cbsCtlSyncNode c) ∧
    t.ownEntry c id = s.ownEntry c id := by
  obtain ⟨m, hm⟩ := s.touchWin_eq c id
  rw [ht, hm]
  exact ⟨rfl, rfl, rfl, rfl, rfl, rfl, rfl, rfl⟩

include hx ht

/-- OFF and HALT send nothing. -/
theorem State.ownFrame_of_silent (hst : s.cbState c = cbOff ∨ s.cbState c = cbHalt) : s.ownFrame c id bad bt = t := by
  obtain ⟨hstate, hstrikes, -⟩ := State.touchWin_frame ht
  have hnot : (t.cbState c == cbListen) = false ∧ (t.cbState c == cbColdstart) = false ∧ t.strikesOn c = false := by
    rw [hstrikes, hstate, State.strikesOn]
    rcases hst with h | h <;> rw [h] <;> exact ⟨rfl, rfl, rfl⟩
  obtain ⟨hlisten, hcold, hidle⟩ := hnot
  simp only [State.ownFrame, ← hx, ← ht, hlisten, hcold, Bool.false_and, Bool.or_self, cond_false, hidle, Bool.not_false,
    cond_true]

/-- In LISTEN only a window of a start frame of the star's own may send. -/
theorem State.ownFrame_of_listen (hst : s.cbState c = cbListen) :
    s.ownFrame c id bad bt = t.when (cellKind x == 1 && cellOwner x == 0 && cellSync x) (·.ownStart c id) := by
  have hlisten : (t.cbState c == cbListen) = true := by rw [(State.touchWin_frame ht).1, hst]; rfl
  simp only [State.ownFrame, ← hx, ← ht, hlisten, Bool.true_or, cond_true]

/-- The leader's start frames in COLDSTART. -/
theorem State.ownFrame_of_coldstart (hst : s.cbState c = cbColdstart) (hlead : (s.chan c).lead = false)
    (hkind : cellKind x = 1) (howner : cellOwner x = 0) (hsync : cellSync x = true)
    (hleader : s.fget (F.cbsStsLeader c) = 0) :
    s.ownFrame c id bad bt = t.sendOwn c id true (s.fget (F.cbsStsCycle c) == 0) true false [] := by
  obtain ⟨hstate, -, hchan, -, hleader', hcycle, -⟩ := State.touchWin_frame ht
  have hlisten : (t.cbState c == cbListen) = false := by rw [hstate, hst]; rfl
  have hcold : (t.cbState c == cbColdstart) = true := by rw [hstate, hst]; rfl
  simp only [State.ownFrame, ← hx, ← ht, hlisten, hcold, hchan, hlead, Bool.and_false, Bool.or_self, cond_false, cond_true,
    hkind, howner, hsync, BEq.rfl, Bool.and_self, hleader', hleader, hcycle]

section Windows

variable (hkind : cellKind x = 1) (howner : cellOwner x = 0) (hid : id < 64)
  (hsync : sync = (cellSync x && s.flag (F.cbsCtlSyncNode c)))

include hkind howner hid hsync

/-- An own window outside NORMAL sends a NULL frame. -/
theorem State.ownFrame_of_reserved (hst : s.cbState c = cbIntegrate ∨ s.cbState c = cbPassive) :
    s.ownFrame c id bad bt = t.sendOwn c id sync false true false [] := by
  obtain ⟨hstate, hstrikes, -, -, -, -, hnode, -⟩ := State.touchWin_frame ht
  have hnot : (t.cbState c == cbListen) = false ∧ (t.cbState c == cbColdstart) = false ∧ t.strikesOn c = true ∧
      (t.cbState c != cbNormal) = true := by
    rw [hstrikes, hstate, State.strikesOn]
    rcases hst with h | h <;> rw [h] <;> exact ⟨rfl, rfl, rfl, rfl⟩
  obtain ⟨hlisten, hcold, hruns, hother⟩ := hnot
  have hmini : Nat.ble 64 id = false := by
    rw [Bool.eq_false_iff, ne_eq, Nat.ble_eq]
    exact Nat.not_le.mpr hid
  simp only [State.ownFrame, ← hx, ← ht, hlisten, hcold, Bool.false_and, Bool.or_self, cond_false, hruns, Bool.not_true,
    hkind, howner, BEq.rfl, Bool.and_self, Bool.true_and, hmini, Bool.not_false, cond_true, hother, hnode, ← hsync]

variable (hst : s.cbState c = cbNormal)

include hst

/-- What an own window in NORMAL sends. -/
theorem State.ownFrame_of_normal :
    (cellTrip x = true → s.ownFrame c id bad bt = t.tripWindow c id sync bt) ∧
    (cellTrip x = false → s.ownEntry c id = none → s.ownFrame c id bad bt = t.sendOwn c id sync false true false []) ∧
    ∀ e, cellTrip x = false → s.ownEntry c id = some e → s.ownFrame c id bad bt = t.sendEntry c id sync e := by
  obtain ⟨hstate, hstrikes, -, -, -, -, hnode, hentry⟩ := State.touchWin_frame (id := id) ht
  have hnot : (t.cbState c == cbListen) = false ∧ (t.cbState c == cbColdstart) = false ∧ t.strikesOn c = true ∧
      (t.cbState c != cbNormal) = false := by
    rw [hstrikes, hstate, State.strikesOn, hst]
    exact ⟨rfl, rfl, rfl, rfl⟩
  obtain ⟨hlisten, hcold, hruns, hother⟩ := hnot
  have hmini : Nat.ble 64 id = false := by
    rw [Bool.eq_false_iff, ne_eq, Nat.ble_eq]
    exact Nat.not_le.mpr hid
  simp only [State.ownFrame, ← hx, ← ht, hlisten, hcold, Bool.false_and, Bool.or_self, cond_false, hruns, Bool.not_true,
    hkind, howner, BEq.rfl, Bool.and_self, Bool.true_and, hmini, Bool.not_false, cond_true, hother, hnode, ← hsync, hentry]
  exact ⟨fun h => by rw [h, cond_true], fun h he => by rw [h, cond_false, he], fun e h he => by rw [h, cond_false, he]⟩

end Windows

end Own

/-- A start frame of the star's own that is due in LISTEN leads. -/
theorem State.ownStart_of_lead (hst : t.cbState c = cbListen) (hlead : (t.chan c).lead = true)
    (hfirst : (t.chan c).first = false) : t.ownStart c id
      = (t.takeLead c 0 (t.actionPoint c id) (t.chan c).startAt).sendOwn c id true true true false [] := by
  have hlisten : (t.cbState c == cbListen) = true := beq_iff_eq.mpr hst
  simp only [State.ownStart, hlead, hfirst, Bool.not_true, Bool.or_self, cond_false, hlisten, cond_true]

theorem State.ownStart_of_not (h : (t.chan c).lead = false ∨ (t.chan c).first = true) : t.ownStart c id = t := by
  have hnot : (!(t.chan c).lead || (t.chan c).first) = true := by
    rcases h with h | h <;> simp [h]
  simp only [State.ownStart, hnot, cond_true]

end Cycle

/-- Settles O55, command by command. -/
theorem theGuardianAndTheFramesOfACycle : Obligations.TheGuardianAndTheFramesOfACycle := by
  refine ⟨fun s hidle c k a b e f h p r l => ?_, fun s c hready hheld => ?_⟩
  · have hstay := fun f => congrArg (Host.Outcome.next (φ := Fault) (ρ := Refusal)) (State.onStar_of_idle hidle f)
    exact ⟨hstay _, hstay _, hstay _, hstay _, hstay _⟩
  have hrun : ∀ {f : State → State} {u : State}, f s = u →
      (Host.Outcome.next (s.onStar f) : Host.Outcome State Fault Refusal) = .next u := fun h =>
    congrArg Host.Outcome.next ((State.onStar_of_working hready hheld _).trans h)
  refine ⟨fun id bad u x mini hu hx hmini => ⟨fun h hpassed => ?_, fun hturn l o hfree hread => ?_⟩,
    fun h => hrun (State.guardClose'_of_none h), fun hopen x u v hx hu hv => ?_,
    fun k a b h => hrun (State.sofArrives_of_ignored h), fun k a b hk hon hoff hnew u x add hu hx hadd => ?_,
    fun k a h p r e hnone => hrun (State.cbFrameEnd_of_none hnone),
    fun k a h p r e l x t hl hfind ht => ⟨fun hoff => ?_, fun hon hoff n hn => ?_⟩, fun id bad bt x t hfree hread ht => ?_⟩
  · exact hrun (congrArg State.reportReads (State.guardOpen_of_passed hu hx hmini h hpassed))
  · exact hrun (congrArg State.reportReads (State.guardOpen_of_turn hu hx hmini hturn hfree hread))
  · have hclose := State.guardClose'_of_open hopen hx hu hv rfl
    refine ⟨fun hstatic => hrun ?_, fun hdyn hid => hrun ?_⟩
    · have hmini : (Nat.ble 64 (x.win - 1) && !s.mdMatrix (s.cbMode c)) = false := by
        rcases hstatic with h | h
        · rw [h, Bool.not_true, Bool.and_false]
        · rw [Bool.and_eq_false_imp]
          intro hle
          exact absurd (Nat.ble_eq.mp hle) (Nat.not_le.mpr h)
      rw [hclose, hmini, cond_false, cond_false]
    · have hmini : (Nat.ble 64 (x.win - 1) && !s.mdMatrix (s.cbMode c)) = true := by
        rw [hdyn, Nat.ble_eq.mpr hid]
        rfl
      rw [hclose, hmini, cond_true, cond_true]
  · have hsof : ∀ {t : State}, s.sofArrives c k a b = t → exec (.cbSofArrival c k a b) s = .next t := fun h => hrun h
    have hstart := fun hkind h => hsof (State.sofArrives_of_led (start := b) hk hon hoff hnew hu hadd h hkind)
    have hunled := fun hkind h => hsof (State.sofArrives_of_unled (start := b) hk hon hoff hnew hu hadd h hkind)
    refine ⟨fun hst h => hunled ?_ (.inl hst), fun hst hmay hrel => hstart ?_ (.inl hst),
      fun hst htie hmay hlow => hstart ?_ (.inr htie), fun hst htie h => hunled ?_ (.inr htie),
      fun hst htie hkind hshut => hrun ?_, fun hst htie h => hrun ?_,
      fun hshut hst => hrun (State.sofArrives_of_unheard hk hon hoff hnew hu hadd hst (.inl hshut)),
      fun hst => hrun (State.sofArrives_of_unheard hk hon hoff hnew hu hadd (by rw [hst]; decide) (.inr hst)),
      fun hshut hlow hhigh => ⟨fun hkind => ?_, fun hkind => ?_, fun hkind hwin => hrun ?_, fun hkind hwin => hrun ?_,
        fun hkind hwin hother t ht => hrun ?_⟩⟩
    · rw [State.listenKind, hst]
      rcases h with h | h <;> simp [h]
    · rw [State.listenKind, hst, hmay, hrel]
      rfl
    · rw [State.listenKind, beq_eq_false_iff_ne.mpr hst, htie, hmay, Nat.blt_eq.mpr hlow]
      rfl
    · rw [State.listenKind, beq_eq_false_iff_ne.mpr hst, htie]
      rcases h with h | h
      · rw [h]
        rfl
      · have hlow : Nat.blt k (u.fget (F.cbsStsLeader c)) = false := by
          rw [Bool.eq_false_iff, ne_eq, Nat.blt_eq]
          exact Nat.not_lt.mpr h
        rw [hlow, Bool.and_false, cond_false, Bool.and_false, cond_false]
    · rw [State.sofArrives_of_coldstart hk hon hoff hnew hu hx hadd hst htie, hkind, hshut, BEq.rfl, Bool.not_false,
        Bool.and_self, cond_true]
    · have hnot : (u.windowKind c k a == 0 && !u.spokeShut c k) = false := by
        rcases h with h | h <;> simp [h]
      rw [State.sofArrives_of_coldstart hk hon hoff hnew hu hx hadd hst htie, hnot, cond_false]
    · exact hrun (State.sofArrives_of_outside hk hon hoff hnew hu hadd hshut hlow hhigh hkind)
    · exact hrun (State.sofArrives_of_lost hk hon hoff hnew hu hx hadd hshut hlow hhigh hkind)
    · have hfirst : (x.winner != 0 && x.winner != k + 1) = false := by rw [hwin]; rfl
      have hnew' : (x.winner == k + 1) = false := beq_eq_false_iff_ne.mpr (by omega)
      rw [State.sofArrives_of_won hk hon hoff hnew hu hx hadd hshut hlow hhigh hkind rfl, hfirst, hnew', cond_false,
        cond_false]
    · have hsame : (x.winner != 0 && x.winner != k + 1) = false := by rw [hwin, bne_self_eq_false, Bool.and_false]
      rw [State.sofArrives_of_won hk hon hoff hnew hu hx hadd hshut hlow hhigh hkind rfl, hsame, beq_iff_eq.mpr hwin,
        cond_false, cond_true]
    · have hlost : (x.winner != 0 && x.winner != k + 1) = true := by
        rw [bne_iff_ne.mpr hwin, bne_iff_ne.mpr hother]
        rfl
      rw [State.sofArrives_of_won hk hon hoff hnew hu hx hadd hshut hlow hhigh hkind rfl, hlost,
        beq_eq_false_iff_ne.mpr hother, cond_true, cond_false, ht]
  · exact hrun (hl ▸ State.cbFrameEnd_of_off hfind ht hoff)
  · have hunrelayed := fun hkind => State.cbFrameEnd_of_unrelayed (a := a) hfind ht hon hoff hn hkind
    refine ⟨fun hkind => hrun ?_, fun hkind => hrun ?_, fun hkind g u v hg hu hgood hspoilt => ?_⟩
    · have hne : x.kind ≠ 0 ∧ x.kind ≠ 3 := by omega
      rw [← hl]
      exact (hunrelayed hne.1).trans (State.when_false (beq_eq_false_iff_ne.mpr hne.2) _ _)
    · rw [← hl]
      exact (hunrelayed (by omega)).trans (State.when_true (beq_iff_eq.mpr hkind) _ _)
    · have hend : s.cbFrameEnd c k a l = v.when (Nat.ble 65 x.win && (v.chan c).win == x.win && !v.mdMatrix (v.cbMode c))
          (fun u => u.miniEnd c (u.macroFrom c a)) := by
        cases hwhole : cbWhole l
        · exact State.cbFrameEnd_of_spoilt hfind ht hon hoff hn hkind hg hu (.inl hwhole) (hspoilt (.inl hwhole))
        cases hform : cbWellFormed k g
        · exact State.cbFrameEnd_of_spoilt hfind ht hon hoff hn hkind hg hu (.inr (.inl hform))
            (hspoilt (.inr (.inl hform)))
        cases hmatch : s.cbMatches c k x g
        · exact State.cbFrameEnd_of_spoilt hfind ht hon hoff hn hkind hg hu (.inr (.inr hmatch))
            (hspoilt (.inr (.inr hmatch)))
        · exact State.cbFrameEnd_of_good hfind ht hon hoff hkind hg hu hwhole hform hmatch (hgood hwhole hform hmatch)
      rw [hl] at hend
      refine ⟨fun hstatic => hrun (hend.trans (State.when_false ?_ _ _)), fun hmini => hrun (hend.trans ?_)⟩
      · have hble : Nat.ble 65 x.win = false := by
          rw [Bool.eq_false_iff, ne_eq, Nat.ble_eq]
          exact Nat.not_le.mpr hstatic
        rw [hble, Bool.false_and, Bool.false_and]
      · rw [Nat.ble_eq.mpr hmini, State.when, Bool.cond_eq_ite]
        simp only [Bool.true_and, Bool.and_eq_true, beq_iff_eq, Bool.not_eq_true']
  · have hx : x = bif bad || s.winBad c id then 0 else s.winCell c id := by
      cases hb : bad
      · cases hw : s.winBad c id
        · exact hread hb hw
        · exact hfree (.inr hw)
      · exact hfree (.inl hb)
    have hsend : ∀ {u : State}, s.ownFrame c id bad bt = u →
        exec (.cbOwnFrameSend c id bad bt false) s = .next u.reportReads := fun h => hrun (congrArg State.reportReads h)
    have hlistens := fun hst => State.ownFrame_of_listen (bt := bt) hx ht hst
    obtain ⟨hstate, -, hchan, -⟩ := State.touchWin_frame ht
    refine ⟨fun hst => hsend (State.ownFrame_of_silent hx ht hst), fun hst hlead hfirst hkind howner hsync => hsend ?_,
      fun hst h => hsend ?_,
      fun hst hlead hkind howner hsync hleader =>
        hsend (State.ownFrame_of_coldstart hx ht hst hlead hkind howner hsync hleader),
      fun hkind howner hid sync hsync => ⟨fun hst => hsend (State.ownFrame_of_reserved hx ht hkind howner hid hsync hst),
        fun hst htrip => hsend ((State.ownFrame_of_normal hx ht hkind howner hid hsync hst).1 htrip),
        fun hst htrip he => hsend ((State.ownFrame_of_normal hx ht hkind howner hid hsync hst).2.1 htrip he),
        fun e hst htrip he => hsend ((State.ownFrame_of_normal hx ht hkind howner hid hsync hst).2.2 e htrip he)⟩,
      fun r hr => ⟨fun hworks hruns => ?_, fun h => ?_⟩⟩
    · refine (hlistens hst).trans ((State.when_true (by rw [hkind, howner, hsync]; rfl) _ _).trans ?_)
      exact State.ownStart_of_lead (hstate.trans hst) (by rw [hchan, hlead]) (by rw [hchan, hfirst])
    · refine (hlistens hst).trans ?_
      cases hown : (cellKind x == 1 && cellOwner x == 0 && cellSync x)
      · exact State.when_false rfl _ _
      · simp only [Bool.and_eq_true, beq_iff_eq] at hown
        obtain ⟨⟨hkind, howner⟩, hsync⟩ := hown
        refine (State.when_true rfl _ _).trans (State.ownStart_of_not ?_)
        rw [hchan]
        rcases h with h | h | h | h | h
        · exact .inl h
        · exact .inr h
        · exact absurd hkind h
        · exact absurd howner h
        · rw [hsync] at h
          cases h
    · subst hr
      exact hrun (congrArg (fun u => (State.ownFrame u c id bad bt).reportReads)
        (State.when_true (by rw [hworks, hruns]; rfl) _ _))
    · subst hr
      refine (hrun (u := (s.ownFrame c id bad bt).reportReads) (congrArg (fun u => (State.ownFrame u c id bad bt).reportReads)
        (State.when_false ?_ _ _))).trans (hsend rfl).symm
      rcases h with h | h <;> simp [h]

end Sys2Proof.Machine
end

section
/-! SUPPORT. The bus matrix, the Bulk Mover's answers, the Seal units, the event router, the sequencer and the Service Port
(R393 to R411, R476): what each operation does, case by case, and the statement of 14_matrix_mover_seal.md. -/

namespace Sys2Proof.Machine

section Matrix

variable {s t u v : State} {n m w a g : Nat} {b : Bool}

/-! ### Trips and Seal units (R408 to R410) -/

/-- The turn of one trip in the choice of the one that is judged next after `x`, `y` being the choice so far. -/
def earlierPort (x y z : Trip) : Trip := bif z.unit == x.unit && z.at' == x.at' && Nat.blt z.port y.port then z else y

theorem nextTrip_cons (x : Trip) (r : List Trip) : nextTrip (x :: r) = some (r.foldl (earlierPort x) x) := rfl

/-- The choice stays among the trips of the oldest one's unit and handshake. -/
theorem earlierPort_peer {x y z : Trip} (hy : y.unit = x.unit ∧ y.at' = x.at') :
    (earlierPort x y z).unit = x.unit ∧ (earlierPort x y z).at' = x.at' := by
  rw [earlierPort]
  cases h : (z.unit == x.unit && z.at' == x.at' && Nat.blt z.port y.port)
  · exact hy
  · simp only [Bool.and_eq_true, beq_iff_eq] at h
    exact h.1

/-- The choice's port never rises, and is at most that of a trip of the same unit and handshake. -/
theorem earlierPort_le {x y z : Trip} : (earlierPort x y z).port ≤ y.port ∧
    (z.unit = x.unit → z.at' = x.at' → (earlierPort x y z).port ≤ z.port) := by
  rw [earlierPort]
  cases h : (z.unit == x.unit && z.at' == x.at' && Nat.blt z.port y.port)
  · refine ⟨le_rfl, fun hunit hat => Nat.le_of_not_lt fun hlt => ?_⟩
    simp [hunit, hat] at h
    rw [Bool.eq_false_iff, ne_eq, Nat.blt_eq] at h
    exact h hlt
  · simp only [Bool.and_eq_true, Nat.blt_eq] at h
    exact ⟨h.2.le, fun _ _ => le_rfl⟩

theorem foldl_earlierPort {x : Trip} (r : List Trip) : ∀ {y : Trip}, y.unit = x.unit ∧ y.at' = x.at' →
    ((r.foldl (earlierPort x) y).unit = x.unit ∧ (r.foldl (earlierPort x) y).at' = x.at') ∧
      (r.foldl (earlierPort x) y).port ≤ y.port ∧
      ∀ z ∈ r, z.unit = x.unit → z.at' = x.at' → (r.foldl (earlierPort x) y).port ≤ z.port := by
  induction r with
  | nil => exact fun hy => ⟨hy, le_rfl, fun z hz => absurd hz List.not_mem_nil⟩
  | cons z r ih =>
    intro y hy
    obtain ⟨hpeer, hle, hall⟩ := ih (earlierPort_peer (z := z) hy)
    obtain ⟨hy', hz'⟩ := earlierPort_le (x := x) (y := y) (z := z)
    refine ⟨hpeer, hle.trans hy', fun z' hmem hunit hat => ?_⟩
    rcases List.mem_cons.mp hmem with rfl | hmem
    · exact hle.trans (hz' hunit hat)
    · exact hall z' hmem hunit hat

/-- The trip that is judged next is one of the oldest one's unit and handshake, at the lowest port of those. -/
theorem nextTrip_lowest {l r : List Trip} {x y : Trip} (hl : l = x :: r) (hy : nextTrip l = some y) :
    y.unit = x.unit ∧ y.at' = x.at' ∧ ∀ z ∈ l, z.unit = x.unit → z.at' = x.at' → y.port ≤ z.port := by
  obtain ⟨⟨hunit, hat⟩, hle, hall⟩ := foldl_earlierPort (x := x) r (y := x) ⟨rfl, rfl⟩
  rw [hl, nextTrip_cons] at hy
  obtain rfl := Option.some.inj hy
  refine ⟨hunit, hat, fun z hz => ?_⟩
  rw [hl] at hz
  rcases List.mem_cons.mp hz with rfl | hz
  · exact fun _ _ => hle
  · exact hall z hz

theorem exec_sealTripCheck_of_none (h : s.trips = []) : exec (.sealTripCheck b) s = .next s := by
  rw [exec, execSealTripCheck, h]
  rfl

theorem exec_sealTripCheck_of_some {x : Trip} (h : nextTrip s.trips = some x) :
    exec (.sealTripCheck b) s = .next (({ s with trips := s.trips.erase x }).judgeTrip x b).reportReads := by
  rw [exec, execSealTripCheck, h]

theorem State.sealDone_of_idle (h : Table.get 0 n s.sealRun ≠ 1) : s.sealDone n b = s := by
  simp only [State.sealDone, bne_iff_ne.mpr h, cond_true]

/-! ### The event router, EN of a channel, the sequencer (R398, R406, R411) -/

theorem State.deliverPulse_of_none (h : s.pulses = []) : s.deliverPulse = s := by
  rw [State.deliverPulse, h]

theorem State.deliverPulse_of_some {x : Nat} {r : List Nat} (h : s.pulses = x :: r) :
    s.deliverPulse = forUpTo 13 (fun j t =>
      if t.fget (F.evrSinkSrc j) = x then (t.cnt (Reg.evrCnt j)).sinkActs j x else t) { s with pulses := r } := by
  rw [State.deliverPulse, h]
  simp only [State.when, Bool.cond_eq_ite, beq_iff_eq]

/-- EN cleared on a busy channel that has not failed. -/
theorem State.writeBmvCtl_of_abort (hw : bitAt w 0 = false) (ht : t = s.fset (F.bmvCtlEn n) false)
    (hen : s.flag (F.bmvCtlEn n) = true) (hbusy : t.flag (F.bmvCtlGoBusy n) = true) (hfail : (t.mover n).fail = 0)
    (hu : u = (t.setMover n { t.mover n with fail := 1, abortAt := some t.counter }).moverCheck n) :
    s.writeBmvCtl n w = if bitAt w 1 then u.moverGo n else u := by
  have habort : t.moverAbort n = u := by
    rw [State.moverAbort, hbusy, hfail, hu, BEq.rfl, Bool.and_self, cond_true]
  simp only [State.writeBmvCtl, hw, ← ht, hen, Bool.not_false, Bool.and_self, State.when_true, habort]
  rw [State.when, Bool.cond_eq_ite]

theorem State.writeMtxCtl_of_start (hidle : s.flag F.mtxCtlSeqRun = false) (ht : t = s.store Reg.mtxCtl w)
    (hrun : t.flag F.mtxCtlSeqRun = true) (hready : t.ready 50 = true) : s.writeMtxCtl w = { t with seqStart := some 0 } := by
  simp only [State.writeMtxCtl, ← ht, hidle, hrun, hready, Bool.not_false, Bool.and_self, cond_true]

/-! ### Answers to the Bulk Mover (R405, R406) -/

theorem State.readReturns_of_none {d : List Nat} (h : (s.mover n).reads = []) : s.readReturns n d b = s := by
  simp only [State.readReturns, h]

theorem State.writeAnswered_of_none (h : (s.mover n).writes = []) : s.writeAnswered n b = s := by
  simp only [State.writeAnswered, h]

/-- The oldest read burst returns its bytes, or an error. -/
theorem State.readReturns_of_some {d : List Nat} {x : Nat × Nat} {r : List (Nat × Nat)} {y : State × List Nat × Bool}
    (hreads : (s.mover n).reads = x :: r) (ht : t = (s.setMover n { s.mover n with reads := r }).outRd (-1))
    (hhost : (∃ h a, t.placeOf ((s.mover n).src + x.1) = .host h a) →
      y = (t, (d ++ List.replicate x.2 0).take x.2, b))
    (hown : (∀ h a, t.placeOf ((s.mover n).src + x.1) ≠ .host h a) → y = t.moverRead ((s.mover n).src + x.1) x.2) :
    s.readReturns n d b = (y.1.setMover n (if y.2.2 = true then
        { y.1.mover n with fail := if (y.1.mover n).fail = 0 then 2 else (y.1.mover n).fail }
      else { y.1.mover n with held := (y.1.mover n).held ++ [((s.mover n).dst + x.1, y.2.1)] })).moversGo := by
  dsimp only at ht
  simp only [State.readReturns, hreads, ← ht]
  cases hplace : t.placeOf ((s.mover n).src + x.1) with
  | host h a =>
    rw [hhost ⟨h, a, hplace⟩]
    simp only [cond_true]
    simp only [Bool.cond_eq_ite, beq_iff_eq]
  | boot _ | code _ | bar0 _ | none =>
    rw [hown fun h a => by rw [hplace]; nofun]
    simp only [cond_false]
    simp only [Bool.cond_eq_ite, beq_iff_eq]

/-- The oldest write burst is answered. -/
theorem State.writeAnswered_of_some {x : Nat × Bool} {r : List (Nat × Bool)} {bad : Bool}
    (hwrites : (s.mover n).writes = x :: r) (hbad : bad = (x.2 || b))
    (ht : t = (s.setMover n ({ s.mover n with
      writes := r
      fail := if bad = true ∧ (s.mover n).fail = 0 then 3 else (s.mover n).fail
      abortAt := if bad then none else (s.mover n).abortAt } : Mover)).outWr (-1)) :
    s.writeAnswered n b = (t.wr (Reg.bmvBytes n) (t.rd (Reg.bmvBytes n) + if bad then 0 else x.1)).moversGo := by
  rw [State.writeAnswered, hwrites, ht, hbad]
  simp only [Bool.cond_eq_ite, Bool.and_eq_true, beq_iff_eq]

/-! ### Resets of masters (R403) -/

theorem State.discardOf_of_mover (s : State) :
    s.discardOf 7 = { forUpTo 8 (fun n u => u.fset (F.bmvCtlGoBusy n) false) s with movers := [] } := rfl

theorem State.discardOf_of_engine (h : m ≠ 7) : s.discardOf m
    = { s with rings := s.rings.map (fun (x : Nat × Ring) => if ringMaster x.1 = m then (x.1, dropReads x.2) else x) } := by
  rw [State.discardOf, beq_eq_false_iff_ne.mpr h, cond_false]
  simp only [Bool.cond_eq_ite, beq_iff_eq]

/-- What a master that drains no more lets go out. -/
theorem exec_masterDrainDone_of_draining (hready : s.ready 47 = true) (hdrain : s.flag (F.mtxOutRst m) = true)
    (hu : u = s.wr (Reg.mtxOut m) 0)
    (ht : t = (({ u with rings := u.rings.map (fun (x : Nat × Ring) =>
      if ringMaster x.1 = m then (x.1, { x.2 with discard := 0 }) else x) }).issueParked m false 64).issueParked m true 64) :
    exec (.masterDrainDone m) s = .next (bif m == 7 then t.moversGo else bif m == 2 then t.serviceGo
      else t.when (Nat.ble 3 m && Nat.ble m 6) (·.fetchPump (m - 3) 64)) := by
  have ht' : t = (({ u with rings := u.rings.map (fun (x : Nat × Ring) =>
      bif ringMaster x.1 == m then (x.1, { x.2 with discard := 0 }) else x) }).issueParked m false 64).issueParked m true 64 := by
    rw [ht]
    simp only [Bool.cond_eq_ite, beq_iff_eq]
  have hrings : u.rings = s.rings := by rw [hu]; rfl
  rw [hrings] at ht'
  rw [exec, execMasterDrainDone, State.atDom_ready hready, State.when_true hdrain, ← hu, ht']

theorem exec_masterDrainDone_of_free (hready : s.ready 47 = true) (hdrain : s.flag (F.mtxOutRst m) = false) :
    exec (.masterDrainDone m) s = .next s := by
  rw [exec, execMasterDrainDone, State.atDom_ready hready, State.when_false hdrain]

/-! ### Bursts (R393 to R397) -/

theorem State.grantee_of_lone {req : List Nat} (hpark : s.parkedOn g = some m) (hne : req ≠ []) (hall : ∀ x ∈ req, x = m) :
    s.grantee g req = some m := by
  have hlone : (req.all (· == m) && !req.isEmpty) = true := by simpa [hne] using hall
  simp only [State.grantee, hpark, hlone, cond_true]

theorem State.grantee_of_other {req : List Nat} (hpark : s.parkedOn g = some m) (hother : ∃ x ∈ req, x ≠ m) :
    s.grantee g req = s.nextMaster g req := by
  have hlone : (req.all (· == m) && !req.isEmpty) = false := by
    rw [Bool.and_eq_false_imp]
    intro hall
    obtain ⟨x, hx, hxm⟩ := hother
    exact absurd (beq_iff_eq.mp (List.all_eq_true.mp hall x hx)) hxm
  simp only [State.grantee, hpark, hlone, cond_false]

theorem State.grantee_of_unparked {req : List Nat} (hpark : s.parkedOn g = none) :
    s.grantee g req = s.nextMaster g req := by
  simp only [State.grantee, hpark]

section Burst

variable {x : Burst} {f : Fld} (hf : f = outField x.master x.write)
  (ht : t = (if x.master = 7 then s else if engineMaster x.master then s.transEnd x.master x.write x.ended
    else s.fput f (s.fget f - x.ended)))
  (hg : g = servedAt x.master (t.targetOfAddr x.addr))

include hf ht

/-- What a burst's earlier transactions leave. -/
theorem State.burst_ended : (bif x.master == 7 then s
    else bif engineMaster x.master then s.transEnd x.master x.write x.ended
    else s.fput (outField x.master x.write) (s.fget (outField x.master x.write) - x.ended)) = t := by
  rw [ht, hf]
  simp only [Bool.cond_eq_ite, beq_iff_eq]

theorem State.burst_of_illegal (h : t.flag (F.mtxOutRst x.master) = true ∨ burstOk x = false) : s.burst x = t := by
  have hbar : (t.flag (F.mtxOutRst x.master) || !burstOk x) = true := by
    rcases h with h | h <;> simp [h]
  simp only [State.burst, State.burst_ended hf ht, hbar, cond_true]

variable (hopen : t.flag (F.mtxOutRst x.master) = false) (hok : burstOk x = true)

include hopen hok

theorem State.burst_of_full (hfull : 64 ≤ t.fget f) (heng : engineMaster x.master = false) :
    s.burst x = t.cnt (Reg.mtxCnt 2) := by
  rw [hf] at hfull
  simp only [State.burst, State.burst_ended hf ht, hopen, hok, Bool.not_true, Bool.or_self, cond_false,
    Nat.ble_eq.mpr hfull, Bool.and_true]
  rw [heng, Bool.not_false, cond_true]

omit ht hopen hok in
/-- A burst that the limit of 64 does not hold back. -/
theorem State.burstLimit_of_room (hroom : t.fget f < 64 ∨ engineMaster x.master = true) :
    (!engineMaster x.master && Nat.ble 64 (t.fget (outField x.master x.write))) = false := by
  rcases hroom with h | h
  · have hble : Nat.ble 64 (t.fget (outField x.master x.write)) = false := by
      rw [Bool.eq_false_iff, ne_eq, Nat.ble_eq, ← hf]
      exact Nat.not_le.mpr h
    rw [hble, Bool.and_false]
  · rw [h, Bool.not_true, Bool.false_and]

variable (hroom : t.fget f < 64 ∨ engineMaster x.master = true)

include hg hroom

theorem State.burst_of_denied (hdenied : t.grantee g (x.master :: x.requesters) ≠ some x.master) : s.burst x = t := by
  simp only [State.burst, State.burst_ended hf ht, hopen, hok, Bool.not_true, Bool.or_self, cond_false,
    State.burstLimit_of_room hf hroom, ← hg, bne_iff_ne.mpr hdenied, cond_true]

variable (hgrant : t.grantee g (x.master :: x.requesters) = some x.master) (hu : u = t.grant x.master g)

include hgrant hu

theorem State.burst_of_mover (h : x.master = 7) : s.burst x = u.moversGo := by
  have hgrant' : (t.grantee g (x.master :: x.requesters) != some x.master) = false := by rw [hgrant, bne_self_eq_false]
  simp only [State.burst, State.burst_ended hf ht, hopen, hok, Bool.not_true, Bool.or_self, cond_false,
    State.burstLimit_of_room hf hroom, ← hg, hgrant', ← hu]
  rw [beq_iff_eq.mpr h, cond_true]

theorem State.burst_of_engine (h : engineMaster x.master = true) : s.burst x = u := by
  have hgrant' : (t.grantee g (x.master :: x.requesters) != some x.master) = false := by rw [hgrant, bne_self_eq_false]
  have hmaster : (x.master == 7) = false := by
    rw [beq_eq_false_iff_ne]
    intro h7
    rw [h7] at h
    cases h
  simp only [State.burst, State.burst_ended hf ht, hopen, hok, Bool.not_true, Bool.or_self, cond_false,
    State.burstLimit_of_room hf hroom, ← hg, hgrant', ← hu]
  rw [hmaster, cond_false, h, cond_true]

variable (hmaster : x.master ≠ 7) (heng : engineMaster x.master = false) (hv : v = u.outstanding x.master x.write)

include hmaster heng hv

/-- A burst of a requester of its own counts as outstanding and is carried out. -/
theorem State.burst_of_requester : (requesterOf x.master = none → s.burst x = v) ∧
    ∀ q, requesterOf x.master = some q → s.burst x
      = bif v.issues q then v.resumed ((v.burstWords x.master q x.write x.addr x.words).codeStop x) else v := by
  have hgrant' : (t.grantee g (x.master :: x.requesters) != some x.master) = false := by rw [hgrant, bne_self_eq_false]
  simp only [State.burst, State.burst_ended hf ht, hopen, hok, Bool.not_true, Bool.or_self, cond_false,
    State.burstLimit_of_room hf hroom, ← hg, hgrant', ← hu]
  rw [beq_eq_false_iff_ne.mpr hmaster, cond_false, heng, cond_false, ← hv]
  exact ⟨fun hq => by rw [hq], fun q hq => by rw [hq]⟩

end Burst

/-! ### The Service Port (R400, R476, R477) -/

theorem State.serviceGo_of_none (h : s.svc = []) : s.serviceGo = s := by
  rw [State.serviceGo, h]
  exact congrArg (fun l => ({ s with svc := l } : State)) h.symm

theorem State.serviceGo_of_some {l : List SvcAccess} (h : s.svc = l) :
    s.serviceGo = eachOf l (fun x t => t.serviceAccess x) { s with svc := [] } := by
  rw [State.serviceGo, h]

section Transaction

variable {x : SvcAccess} {waiting : Nat} (hn : n = waiting + s.svc.length)

include hn

/-- An unaligned address, or four pending accesses, are answered at once. -/
theorem State.serviceTake_of_early (h : x.addr % 4 ≠ 0 ∨ 4 ≤ n) {c : Nat}
    (hc : c = 0x81 + (if x.addr % 4 ≠ 0 then 2 else 0) + (if 4 ≤ n then 4 else 0)) :
    s.serviceTake x waiting = s.serviceAnswer x.cut (if x.write then [c] else [c, 0xFFFFFFFF]) := by
  have hgate : (x.addr % 4 != 0 || Nat.ble 4 n) = true := by
    rw [Bool.or_eq_true, bne_iff_ne, Nat.ble_eq]
    exact h
  have halign : 2 * bit (x.addr % 4 != 0) = if x.addr % 4 ≠ 0 then 2 else 0 := by
    by_cases h : x.addr % 4 = 0
    · rw [h]
      rfl
    · rw [if_pos h, bne_iff_ne.mpr h]
      rfl
  have hbusy : 4 * bit (Nat.ble 4 n) = if 4 ≤ n then 4 else 0 := by
    by_cases h : 4 ≤ n
    · rw [if_pos h, Nat.ble_eq.mpr h]
      rfl
    · have hble : Nat.ble 4 n = false := by
        rw [Bool.eq_false_iff, ne_eq, Nat.ble_eq]
        exact h
      rw [if_neg h, hble]
      rfl
  have hearly : earlyStatus x.addr n = c := by
    simp only [earlyStatus, hgate, cond_true, halign, hbusy, hc]
  have hne : (c != 0) = true := by
    rw [bne_iff_ne, hc]
    omega
  simp only [State.serviceTake, ← hn, hearly, hne, cond_true]
  rw [Bool.cond_eq_ite]

theorem State.earlyStatus_of_fit (halign : x.addr % 4 = 0) (hroom : n < 4) :
    earlyStatus x.addr (waiting + s.svc.length) = 0 := by
  have hble : Nat.ble 4 n = false := by
    rw [Bool.eq_false_iff, ne_eq, Nat.ble_eq]
    exact Nat.not_le.mpr hroom
  simp only [earlyStatus, ← hn, halign, hble, bne_self_eq_false, Bool.or_self, cond_false]

theorem State.serviceTake_of_draining (halign : x.addr % 4 = 0) (hroom : n < 4) (h : s.issues .servicePort = false) :
    s.serviceTake x waiting = { s with svc := s.svc ++ [x] } := by
  simp only [State.serviceTake, State.earlyStatus_of_fit hn halign hroom, bne_self_eq_false, cond_false, h]

theorem State.serviceTake_of_open (halign : x.addr % 4 = 0) (hroom : n < 4) (h : s.issues .servicePort = true) :
    s.serviceTake x waiting = s.serviceGo.serviceAccess x := by
  simp only [State.serviceTake, State.earlyStatus_of_fit hn halign hroom, bne_self_eq_false, cond_false, h, cond_true]

end Transaction

section Access

variable {x : SvcAccess}

theorem State.serviceAccess_write_of_outside (hx : x.write = true) (h : s.windowAddr x.addr = none) : s.serviceAccess x
    = s.resumed ((((s.granting 2 15).refuse 2 x.addr true false).serviceAnswer x.cut [0x81]).servicePass) := by
  rw [State.serviceAccess, hx, cond_true, h]
  simp only [bit, cond_true]

theorem State.serviceAccess_read_of_outside (hx : x.write = false) (h : s.windowAddr x.addr = none) : s.serviceAccess x
    = (((s.granting 2 15).refuse 2 x.addr false false).serviceAnswer x.cut [0x81, 0xFFFFFFFF]).servicePass := by
  simp only [State.serviceAccess, hx, cond_false, h, cond_true, bit, Nat.reduceAdd]

theorem State.serviceAccess_write_of_window (hx : x.write = true) (h : s.windowAddr x.addr = some a) {r : State × Bool}
    (hr : r = (s.granting 2 (s.targetOfAddr a)).intWrite 2 .servicePort a (x.word % 2 ^ 32) 15) :
    s.serviceAccess x = s.resumed ((r.1.serviceAnswer x.cut [0x80 + bit r.2]).servicePass) := by
  subst hr
  rw [State.serviceAccess, hx, cond_true, h]

theorem State.serviceAccess_read_of_window (hx : x.write = false) (h : s.windowAddr x.addr = some a)
    {r : State × Nat × Bool} (hr : r = (s.granting 2 (s.targetOfAddr a)).intRead 2 .servicePort a) :
    s.serviceAccess x
      = (r.1.serviceAnswer x.cut [0x80 + bit r.2.2, if r.2.2 then 0xFFFFFFFF else r.2.1]).servicePass := by
  simp only [State.serviceAccess, hx, cond_false, h, ← hr]
  rw [Bool.cond_eq_ite]

end Access

end Matrix

/-- Settles O57, operation by operation. -/
theorem matrixSealsEventsAndServicePort : Obligations.MatrixSealsEventsAndServicePort := by
  refine ⟨fun s n w b => ?_, fun s => ?_, fun s n hready => ?_, fun s n hoff d e m b => ?_, fun s g req => ?_,
    fun s => ⟨rfl, rfl⟩, fun s a v x y z n hy hz hn => ?_, fun s => ⟨State.serviceGo_of_none, fun y l => State.serviceGo_of_some⟩,
    fun s l => ⟨rfl, rfl, fun n => rfl⟩, fun s a v cut => ?_⟩
  · have hact : ∀ {r : Nat}, s.reaches r = true → ∀ f : State → State,
        (Host.Outcome.next (s.atReg r f) : Host.Outcome State Fault Refusal) = .next (f s) := fun h f =>
      congrArg Host.Outcome.next (State.atReg_reached h f)
    have hstay : ∀ {r : Nat}, s.reaches r = false → ∀ f : State → State,
        (Host.Outcome.next (s.atReg r f) : Host.Outcome State Fault Refusal) = .next s := fun h f =>
      congrArg Host.Outcome.next (State.atReg_unreached h f)
    exact ⟨fun h => hact h _, fun h => ⟨hstay h _, hstay h _⟩, fun h => ⟨hact h _, hact h _⟩,
      fun h => ⟨hstay h _, hstay h _⟩, fun h => hact h _, fun h => hstay h _, fun h => hact h _, fun h => hstay h _,
      fun h => congrArg Host.Outcome.next (State.atDom_ready h _), fun h => congrArg Host.Outcome.next (State.atDom_off h _)⟩
  · exact ⟨fun h b => exec_sealTripCheck_of_none h, fun x b h => exec_sealTripCheck_of_some h,
      fun x r y hl hy => nextTrip_lowest hl hy, State.deliverPulse_of_none, fun x r => State.deliverPulse_of_some,
      fun n b => State.sealDone_of_idle, fun n w t u hw ht hen hbusy hfail hu => State.writeBmvCtl_of_abort hw ht hen hbusy hfail hu,
      fun hidle _ w t ht hrun hready => State.writeMtxCtl_of_start hidle ht hrun hready⟩
  · have hact : ∀ {f : State → State} {u : State}, f s = u →
        (Host.Outcome.next (s.atDom 47 f) : Host.Outcome State Fault Refusal) = .next u := fun h =>
      congrArg Host.Outcome.next ((State.atDom_ready hready _).trans h)
    refine ⟨fun h d e => hact (State.readReturns_of_none h), fun h e => hact (State.writeAnswered_of_none h),
      fun b r d e t u hreads ht hhost hown => hact (State.readReturns_of_some hreads ht hhost hown),
      fun w r e t bad hwrites hbad ht => hact (State.writeAnswered_of_some hwrites hbad ht),
      fun m t ht => ⟨hact ?_, hact ?_⟩, fun m => ⟨?_, State.discardOf_of_engine⟩,
      fun m u t hu ht => ?_, fun b f t g hf ht hg => ?_⟩
    · rw [ht]
      rfl
    · rw [ht]
      rfl
    · rintro rfl
      exact s.discardOf_of_mover
    · have hdrain := fun h => exec_masterDrainDone_of_draining hready h hu ht
      refine ⟨fun h hm => ?_, fun h hm => ?_, fun h hm => ?_, fun h hlow hhigh => ?_, exec_masterDrainDone_of_free hready⟩
      · have hengine : (Nat.ble 3 m && Nat.ble m 6) = false := by
          rw [Bool.eq_false_iff, ne_eq, Bool.and_eq_true, Nat.ble_eq, Nat.ble_eq]
          omega
        rw [hdrain h, beq_eq_false_iff_ne.mpr (show m ≠ 7 by omega), beq_eq_false_iff_ne.mpr (show m ≠ 2 by omega),
          State.when_false hengine, cond_false, cond_false]
      · rw [hdrain h, beq_eq_false_iff_ne.mpr (show m ≠ 7 by omega), beq_iff_eq.mpr hm, cond_false, cond_true]
      · rw [hdrain h, beq_iff_eq.mpr hm, cond_true]
      · have hengine : (Nat.ble 3 m && Nat.ble m 6) = true := by
          rw [Nat.ble_eq.mpr hlow, Nat.ble_eq.mpr hhigh]
          rfl
        rw [hdrain h, beq_eq_false_iff_ne.mpr (show m ≠ 7 by omega), beq_eq_false_iff_ne.mpr (show m ≠ 2 by omega),
          State.when_true hengine, cond_false, cond_false]
    · refine ⟨fun h => hact (State.burst_of_illegal hf ht h), fun hopen hok =>
        ⟨fun hfull heng => hact (State.burst_of_full hf ht hopen hok hfull heng), fun hroom =>
          ⟨fun hdenied => hact (State.burst_of_denied hf ht hg hopen hok hroom hdenied), fun hgrant u hu =>
            ⟨fun h => hact (State.burst_of_mover hf ht hg hopen hok hroom hgrant hu h),
              fun h => hact (State.burst_of_engine hf ht hg hopen hok hroom hgrant hu h), fun hmaster heng v hv => ?_⟩⟩⟩⟩
      obtain ⟨hnone, hsome⟩ := State.burst_of_requester hf ht hg hopen hok hroom hgrant hu hmaster heng hv
      exact ⟨fun hq => hact (hnone hq), fun q hq hwait => hact (by rw [hsome q hq, hwait, cond_false]),
        fun q hq hissue => hact (by rw [hsome q hq, hissue, cond_true])⟩
  · have hstay := fun f => congrArg (Host.Outcome.next (φ := Fault) (ρ := Refusal)) (State.atDom_off hoff f)
    exact ⟨hstay _, hstay _, hstay _, hstay _, hstay _⟩
  · exact ⟨fun m => State.grantee_of_lone, fun m => State.grantee_of_other, State.grantee_of_unparked⟩
  · refine ⟨fun hoff => ⟨congrArg Host.Outcome.next (State.atDom_off hoff _), congrArg Host.Outcome.next (State.atDom_off hoff _)⟩,
      fun hready => ?_⟩
    have hwrite : ∀ {u : State}, s.serviceTake y x.waiting = u → exec (.servicePortWrite a v x) s = .next u := fun h =>
      congrArg Host.Outcome.next ((State.atDom_ready hready _).trans (hy ▸ h))
    have hread : ∀ {u : State}, s.serviceTake z x.waiting = u → exec (.servicePortRead a x) s = .next u := fun h =>
      congrArg Host.Outcome.next ((State.atDom_ready hready _).trans (hz ▸ h))
    have haddr : y.addr = a ∧ z.addr = a := by rw [hy, hz]; exact ⟨rfl, rfl⟩
    refine ⟨fun h b hb => ⟨hwrite ?_, hread ?_⟩, fun halign hroom => ⟨fun h => ⟨hwrite ?_, hread ?_⟩,
      fun h => ⟨hwrite ?_, hread ?_⟩⟩⟩
    · rw [State.serviceTake_of_early hn (haddr.1.symm ▸ h) (haddr.1.symm ▸ hb), hy]
      rfl
    · rw [State.serviceTake_of_early hn (haddr.2.symm ▸ h) (haddr.2.symm ▸ hb), hz]
      rfl
    · exact State.serviceTake_of_draining hn (haddr.1.symm ▸ halign) hroom h
    · exact State.serviceTake_of_draining hn (haddr.2.symm ▸ halign) hroom h
    · exact State.serviceTake_of_open hn (haddr.1.symm ▸ halign) hroom h
    · exact State.serviceTake_of_open hn (haddr.2.symm ▸ halign) hroom h
  · refine ⟨fun h t ht => ⟨?_, ?_⟩, fun x h t ht => ⟨fun r hr => ?_, fun r hr => ?_⟩⟩
    · rw [ht]
      exact State.serviceAccess_write_of_outside (x := ⟨true, a, v, cut⟩) rfl h
    · rw [ht]
      exact State.serviceAccess_read_of_outside (x := ⟨false, a, v, cut⟩) rfl h
    · rw [ht] at hr
      exact State.serviceAccess_write_of_window (x := ⟨true, a, v, cut⟩) rfl h hr
    · rw [ht] at hr
      exact State.serviceAccess_read_of_window (x := ⟨false, a, v, cut⟩) rfl h hr

end Sys2Proof.Machine
end

section
/-! SUPPORT. Bronze and Supply Watch (R430 to R444): the records, the flush and the check of the Keep store, the start, the
samples and PFW_N, and the statement of 16_bronze_supply_watch.md. -/

namespace Sys2Proof.Machine

section Recorder

variable {s t u v r : State} {n w : Nat}

/-! ### Records (R431, R435, R438) -/

theorem State.writeRecord_of_none (h : s.brz.queue = [] ∨ s.flag F.brzStsReady = false) : s.writeRecord = s := by
  rw [State.writeRecord]
  rcases h with h | h
  · rw [h]
  · split
    · rfl
    · rw [h, Bool.not_false, cond_true]

section Oldest

variable {e : BrzEntry} {l : List BrzEntry} (hqueue : s.brz.queue = e :: l) (hready : s.flag F.brzStsReady = true)
  (ht : t = { s with brz := { s.brz with queue := l } })

include hqueue hready ht

theorem State.writeRecord_of_room (hn : n = t.rd Reg.brzWseq) (hroom : t.ringFull = false)
    (hu : u = ((t.putRecord e n).wr Reg.brzWseq ((n + 1) % 2 ^ 32)).cnt (Reg.brzCnt 0)) :
    s.writeRecord = if u.ringFull then u.lostRecord.fset F.brzStsFull true else u.lostRecord := by
  rw [State.writeRecord, hqueue]
  simp only [hready, Bool.not_true, cond_false, ← ht, hroom, ← hn, ← hu]
  rw [State.when, Bool.cond_eq_ite]

/-- The ring frozen and full loses the record. -/
theorem State.writeRecord_of_full (hfull : t.ringFull = true) : s.writeRecord = t.brzLose.fset F.brzStsFull true := by
  rw [State.writeRecord, hqueue]
  simp only [hready, Bool.not_true, cond_false, ← ht, hfull, cond_true]

end Oldest

/-- The words of a record that was written are written with their check bits. -/
theorem exec_bronzeRecordWrite_of_ready (hpower : s.ready 0 = true) : exec .bronzeRecordWrite s = .next
    (s.writeRecord.when (s.writeRecord.rd Reg.brzWseq != s.rd Reg.brzWseq)
      (·.entryWritten 57 1 (ringWordAt (s.rd Reg.brzWseq) 0) 8)) :=
  congrArg Host.Outcome.next (State.atDom_ready hpower _)

theorem exec_bronzeRecordWrite_of_none (h : s.brz.queue = [] ∨ s.flag F.brzStsReady = false) :
    exec .bronzeRecordWrite s = .next s := by
  cases hpower : s.ready 0
  · exact congrArg Host.Outcome.next (State.atDom_off hpower _)
  · rw [exec_bronzeRecordWrite_of_ready hpower, State.writeRecord_of_none h, State.when_false (bne_self_eq_false _)]

theorem State.writeBrzCtl_eq (ht : t = s.store Reg.brzCtl w)
    (hu : u = (if bitAt w 6 then t.fset F.brzCtlKeepArm true else t)) (hv : v = (if bitAt w 0 then u.trigger 1 else u)) :
    s.writeBrzCtl w = if bitAt w 1 then v.unfreeze else v := by
  simp only [State.writeBrzCtl, State.when, Bool.cond_eq_ite, hv, hu, ht]

/-! ### The Keep store (R439, R440) -/

theorem State.endFlush_of_none (h : s.brz.flush = none) : s.endFlush = s := by
  rw [State.endFlush, h]

theorem State.endFlush_of_early (h : s.flag F.brzStsReady = false) : s.endFlush = s := by
  rw [State.endFlush]
  split
  · rw [h, Bool.not_false, cond_true]
  · rfl

/-- The end of a flush seals its bank. -/
theorem State.endFlush_of_flush {b cause vf ns sec f c first : Nat} {l h : List Nat}
    (hflush : s.brz.flush = some [b, n, cause, vf, ns, sec, f]) (hready : s.flag F.brzStsReady = true)
    (hc : c = s.validRun f 4096) (hv : v = s.touchAll (inRecords f (c + 1))) (hfirst : first = (f + 2 ^ 32 + 1 - c) % 2 ^ 32)
    (hl : l = v.recordRange first c) (hh : h = [n, first, c, cause + 65536 * vf, ns, sec])
    (ht : t = (((((v.setKeeps b 8 l).setKeeps b 1 h).setKeep b 7 (crc32c (bytesOfWords (h ++ l)))).setKeep b 0 2).fput
      F.brzKeepStsNewest b).fset F.brzKeepStsBusy false) :
    s.endFlush = { t.fset F.brzStsFlushing false with brz := { t.brz with flush := none } } := by
  rw [State.endFlush, hflush]
  simp only [hready, Bool.not_true, cond_false, ← hc, ← hv, ← hfirst, ← hl, ← hh, ← ht]

/-- What the check at a start shows. -/
theorem State.keepCheck_eq (hv : v = { s.touchAll (fun k => Nat.ble (2 ^ 41) k) with brz := { s.brz with checked := true } })
    (hn : n = v.newestBank) (ht : t = (v.fput F.brzKeepStsNewest n).fset F.brzKeepStsBusy v.brz.flush.isSome)
    (hu : u = (if [0, 1].any (fun b => v.keepWord b 0 == 2 && !v.keepGood b) then t.fset F.brzKeepStsCrcBad true else t)) :
    s.keepCheck = if [0, 1].any (fun b => v.keepWord b 0 == 1 && (n == 3 || Nat.blt (v.keepWord n 1) (v.keepWord b 1))) then
      (u.fset F.brzKeepStsIncomplete true).corrected 62 0 else u := by
  have hu' : t.when ([0, 1].any (fun b => v.keepWord b 0 == 2 && !v.keepGood b)) (·.fset F.brzKeepStsCrcBad true) = u := by
    rw [hu, State.when, Bool.cond_eq_ite]
  have hflush : v.brz.flush = s.brz.flush := by rw [hv]
  rw [hflush] at ht
  dsimp only at hv
  rw [State.keepCheck]
  dsimp only
  rw [← hv, ← hn, ← ht, hu', State.when, Bool.cond_eq_ite]

/-! ### The start (R434) -/

theorem State.brzStart_of_ready (h : s.flag F.brzStsReady = true) : s.brzStart = s := by
  rw [State.brzStart, h, cond_true]

theorem State.brzStart_of_clear (h : s.flag F.brzStsReady = false) (hn : n = (if s.coldStart then 0 else s.nextSeq))
    (hr : r = (if s.coldStart then s else s.touchAll (fun a => Nat.ble 0x200000 a && Nat.blt a 0x400000)))
    (ht : t = r.wr Reg.brzWseq n)
    (hu : u = (if s.brz.early then t.wr Reg.brzFseq ((t.rd Reg.brzFseq + n) % 2 ^ 32) else t)) :
    s.brzStart = ({ u with brz := { u.brz with
      queue := u.brzEntry 3 98 0 (bit !(s.coldStart)) 0 :: s.brz.queue
      early := false
      flush := s.brz.flush.map (fun (l : List Nat) => l.set 6 ((l.getD 6 0 + n) % 2 ^ 32)) } }).fset F.brzStsReady true := by
  have hr' : s.when (!s.coldStart) (·.touchAll (fun a => Nat.ble 0x200000 a && Nat.blt a 0x400000)) = r := by
    rw [hr]
    cases s.coldStart <;> rfl
  have hu' : t.when s.brz.early (fun u => u.wr Reg.brzFseq ((u.rd Reg.brzFseq + n) % 2 ^ 32)) = u := by
    rw [hu, State.when, Bool.cond_eq_ite]
  have hn' : (bif s.coldStart then 0 else s.nextSeq) = n := by rw [hn, Bool.cond_eq_ite]
  have hbrz : u.brz = s.brz := by
    have hrbrz : r.brz = s.brz := by
      rw [hr]
      cases s.coldStart <;> rfl
    rw [hu, ht]
    cases s.brz.early <;> exact hrbrz
  simp only [State.brzStart, h, cond_false, hn', hr', ← ht, hu', hbrz]

/-! ### Software records (R440) -/

theorem State.softRecord_of_code {q : Requester} (ht : t = s.applyStaged q Reg.brzSw0) (h : 0x380 ≤ bitsOf w 0 10) :
    s.softRecord q w = t.brzEvent (bitsOf w 0 10) (requesterBlock q) (bitsOf w 16 16) (t.woWord Reg.brzSw1)
      (t.woWord Reg.brzSw2) := by
  rw [State.softRecord, Nat.ble_eq.mpr h, cond_true, ht]

theorem State.softRecord_of_other {q : Requester} (h : bitsOf w 0 10 < 0x380) : s.softRecord q w = s := by
  have hble : Nat.ble 0x380 (bitsOf w 0 10) = false := by
    rw [Bool.eq_false_iff, ne_eq, Nat.ble_eq]
    exact Nat.not_le.mpr h
  rw [State.softRecord, hble, cond_false]

/-! ### Supply Watch (R442 to R444) -/

section Supply

variable {raw : Nat}

theorem State.supplySample_of_off (h : s.flag F.supCtlEn = false) : s.supplySample raw = s := by
  rw [State.supplySample, h, Bool.not_false, cond_true]

/-- What one sample makes of the window of samples. -/
def Sup.sampled (x : Sup) (n : Nat) : Sup :=
  { x with
    samples := (n :: x.samples).take 64, count := Nat.min 64 (x.count + 1)
    winMax := Nat.max x.winMax n, winMin := Nat.min x.winMin n }

/-- A sample before the first 64 are complete. -/
theorem State.supplySample_of_filling (hen : s.flag F.supCtlEn = true) (hcount : s.sup.count < 63) :
    s.supplySample raw = ({ s with sup := s.sup.sampled (raw % 4096) }).fput F.supNowRaw (raw % 4096) := by
  have hfew : Nat.blt (Nat.min 64 (s.sup.count + 1)) 64 = true := by
    rw [Nat.blt_eq]
    exact (Nat.min_le_right _ _).trans_lt (by omega)
  have hfilling : Nat.blt (({ s with sup := s.sup.sampled (raw % 4096) }).fput F.supNowRaw (raw % 4096)).sup.count 64
      = true := hfew
  rw [State.supplySample, hen, Bool.not_true, cond_false]
  exact (congrArg (fun b => bif b then _ else _) hfilling).trans (cond_true _ _)

theorem State.sampled_shown (hcount : s.sup.count < 63)
    (ht : t = ({ s with sup := s.sup.sampled (raw % 4096) }).fput F.supNowRaw (raw % 4096)) :
    t.sup.samples = (raw % 4096 :: s.sup.samples).take 64 ∧ t.sup.count = s.sup.count + 1 ∧
      t.fget F.supNowRaw = raw % 4096 ∧ t.fget F.supNowVf = s.fget F.supNowVf ∧
      OnlyWords [Reg.supNow] { s with sup := t.sup } t := by
  have hsup : t.sup = s.sup.sampled (raw % 4096) := by rw [ht]; rfl
  refine ⟨by rw [hsup]; rfl, ?_, ?_, ?_, ?_⟩
  · rw [hsup]
    exact Nat.min_eq_right (by omega)
  · rw [ht, State.fget_fput_self (by decide +kernel)]
    exact Nat.mod_mod _ _
  · rw [ht]
    exact State.fget_fput_other (f := F.supNowRaw) (g := F.supNowVf) (by decide +kernel) rfl (by decide) _ _
  · rw [hsup, ht]
    exact OnlyWords.refl.fput (List.mem_singleton.mpr rfl) _

theorem State.rippleWindow_of_off (h : s.flag F.supCtlEn = false ∨ s.fget F.supCtlNom = 0) :
    s.rippleWindow = { s with sup := { s.sup with winMax := 0, winMin := 0xFFF } } := by
  have hoff : (!s.flag F.supCtlEn || s.fget F.supCtlNom == 0) = true := by
    rcases h with h | h <;> simp [h]
  simp only [State.rippleWindow, hoff, cond_true]

theorem State.pfwAssert_of_high (h : s.flag F.supStsPfw = false) : s.pfwAssert
    = ((((s.brzEvent 0x78 99 0 0 0).trigger 2).fset F.supStsPfw true).cnt (Reg.supCnt 4)).corrected 61 0 := by
  rw [State.pfwAssert, h, cond_false]

theorem State.pfwAssert_of_low (h : s.flag F.supStsPfw = true) : s.pfwAssert = s := by
  rw [State.pfwAssert, h, cond_true]

end Supply

end Recorder

/-- Settles O59, operation by operation. -/
theorem bronzeRecordsAndSupplyWatchSamples : Obligations.BronzeRecordsAndSupplyWatchSamples := by
  refine ⟨fun s hpower code block index arg0 arg1 w raw q => ?_, fun s hoff code block index arg0 arg1 w raw q => ?_,
    fun s h => exec_bronzeRecordWrite_of_none h,
    fun s t u e l n hpower hqueue hready ht hn => ⟨fun hroom hu => State.writeRecord_of_room hqueue hready ht hn hroom hu,
      State.writeRecord_of_full hqueue hready ht, fun hmoved => ?_, fun hstays => ?_⟩,
    fun s t u v w ht hu hv => State.writeBrzCtl_eq ht hu hv,
    fun s => ⟨State.endFlush_of_none, State.endFlush_of_early,
      fun b n cause vf ns sec f c first v l h hflush hready hc hv hfirst hl hh t ht =>
        State.endFlush_of_flush hflush hready hc hv hfirst hl hh ht,
      fun v n t u hv hn ht hu => State.keepCheck_eq hv hn ht hu,
      fun n r t u h hn hr ht hu => State.brzStart_of_clear h hn hr ht hu⟩,
    fun s t q w ht => ⟨State.softRecord_of_code ht, State.softRecord_of_other⟩,
    fun s raw => ⟨State.supplySample_of_off, fun hen hcount t ht =>
      State.sampled_shown hcount (ht.trans (State.supplySample_of_filling hen hcount))⟩⟩
  · have hact : ∀ {f : State → State} {u : State}, f s = u →
        (Host.Outcome.next (s.atDom 0 f) : Host.Outcome State Fault Refusal) = .next u := fun h =>
      congrArg Host.Outcome.next ((State.atDom_ready hpower _).trans h)
    refine ⟨fun h => hact ?_, fun h => hact ?_, hact rfl, hact rfl, hact rfl, hact rfl, hact rfl, hact rfl,
      fun h => hact (congrArg State.reportReads (State.brzStart_of_ready h)), hact rfl, hact rfl, fun _ _ => hact rfl,
      fun h => hact (State.rippleWindow_of_off h), fun h => hact (State.pfwAssert_of_high h),
      fun h => ⟨hact (State.pfwAssert_of_low h), hact ?_⟩, fun h => hact ?_⟩
    · rw [h, cond_true]
    · rw [h, cond_false]
    · rw [h, cond_true]
    · rw [h, cond_false]
  · have hstay := fun f => congrArg (Host.Outcome.next (φ := Fault) (ρ := Refusal)) (State.atDom_off hoff f)
    exact ⟨hstay _, hstay _, hstay _, hstay _, hstay _, hstay _, hstay _, hstay _, hstay _, hstay _, hstay _, hstay _, hstay _⟩
  · rw [exec_bronzeRecordWrite_of_ready hpower, State.when_true (bne_iff_ne.mpr hmoved)]
  · rw [exec_bronzeRecordWrite_of_ready hpower, hstays, State.when_false (bne_self_eq_false _)]

end Sys2Proof.Machine
end

section
/-! SUPPORT. Quench (R416 to R428): what a latched report leaves, the writes that clear, the grace timers, the recoveries, the
injection and ALIVE, and the statement of 15_quench_faults.md. -/

namespace Sys2Proof.Machine

section Quench

variable {s t u : State} {n m i j k w c : Nat} {rs : List (Nat × Nat)} {ns : List Nat}

/-! ### The words of a source (R416) -/

theorem held_fswBit (hn : n < 64) : Fld.held (fswBit n) = true := by
  have h : ∀ n < 64, Fld.held (fswBit n) = true := by decide +kernel
  exact h n hn

theorem held_pendBit (hn : n < 64) : Fld.held (pendBit n) = true := by
  have h : ∀ n < 64, Fld.held (pendBit n) = true := by decide +kernel
  exact h n hn

theorem held_qchSrc1 (hn : n < 64) : Fld.held (F.qchSrc1Cause n) = true ∧ Fld.held (F.qchSrc1Count n) = true := by
  have h : ∀ n < 64, Fld.held (F.qchSrc1Cause n) = true ∧ Fld.held (F.qchSrc1Count n) = true := by decide +kernel
  exact h n hn

/-- The status bits and the grace timers lie below the words of the sources. -/
theorem fswBit_addr (n : Nat) : (fswBit n).addr < 0x20018 := by
  cases h : Nat.blt n 32 <;> simp only [fswBit, h, cond_true, cond_false, Reg.qchFsw0, Reg.qchFsw1] <;> decide

theorem pendBit_addr (n : Nat) : 0x20018 ≤ (pendBit n).addr ∧ (pendBit n).addr < 0x20104 := by
  cases h : Nat.blt n 32 <;> simp only [pendBit, h, cond_true, cond_false, Reg.qchPend0, Reg.qchPend1] <;> decide

theorem qchSrc1Cause_addr (n : Nat) : (F.qchSrc1Cause n).addr = 0x20104 + 8 * n := rfl

theorem fswBit_addr_ne_cause (n m : Nat) : (fswBit n).addr ≠ (F.qchSrc1Cause m).addr := by
  have hfsw := fswBit_addr n
  rw [qchSrc1Cause_addr]
  omega

theorem pendBit_addr_ne_cause (n m : Nat) : (pendBit n).addr ≠ (F.qchSrc1Cause m).addr := by
  have hpend := pendBit_addr n
  rw [qchSrc1Cause_addr]
  omega

theorem fswBit_addr_ne_pendBit (n m : Nat) : (fswBit n).addr ≠ (pendBit m).addr := by
  have hfsw := fswBit_addr n
  have hpend := pendBit_addr m
  omega

/-! ### A latched report (R416) -/

theorem State.latchOne_shown (hn : n < 64) (s : State) (c : Nat) : (s.latchOne n c).flag (fswBit n) = true ∧
    (s.latchOne n c).fget (F.qchSrc1Cause n) = (s.fget (F.qchSrc1Cause n) ||| c) % 2 ^ (F.qchSrc1Cause n).width ∧
    (s.latchOne n c).fget (F.qchSrc1Count n) = (s.fget (F.qchSrc1Count n) + 1) % 2 ^ (F.qchSrc1Count n).width ∧
    OnlyWords [(fswBit n).addr, (F.qchSrc1Cause n).addr] s (s.latchOne n c) := by
  obtain ⟨hcause, hcount⟩ := held_qchSrc1 hn
  have hne := fswBit_addr_ne_cause n n
  rw [State.latchOne, State.cntF]
  refine ⟨?_, ?_, ?_, ?_⟩
  · rw [State.flag_fput_ne (f := F.qchSrc1Count n) hne, State.flag_fput_ne hne, State.flag_fset_self (held_fswBit hn) rfl]
  · rw [State.fget_fput_other (f := F.qchSrc1Count n) (g := F.qchSrc1Cause n) hcause rfl (.inl (le_refl 16)),
      State.fget_fput_self hcause]
  · rw [State.fget_fput_self hcount, Nat.mod_mod,
      State.fget_fput_other (f := F.qchSrc1Cause n) (g := F.qchSrc1Count n) hcount rfl (.inr (le_refl 16)),
      State.fset, State.fget_fput_ne (g := F.qchSrc1Count n) hne.symm]
  · have hlisted : (F.qchSrc1Cause n).addr ∈ [(fswBit n).addr, (F.qchSrc1Cause n).addr] := by simp
    have hset : OnlyWords [(fswBit n).addr, (F.qchSrc1Cause n).addr] s (s.fset (fswBit n) true) :=
      OnlyWords.refl.fset List.mem_cons_self true
    exact (hset.fput (f := F.qchSrc1Cause n) hlisted _).fput (f := F.qchSrc1Count n) hlisted _

/-! ### Writes that clear (R418, R419) -/

/-- The turn of source `n` in a write that clears it. -/
def State.clearSource (s : State) (n : Nat) : State :=
  ((s.fput (F.qchSrc1Cause n) 0).fset (fswBit n) false).fset (pendBit n) false

/-- A source that is cleared has no status bit, no cause and no grace timer. -/
def State.sourceClear (s : State) (n : Nat) : Prop :=
  s.flag (fswBit n) = false ∧ s.fget (F.qchSrc1Cause n) = 0 ∧ s.flag (pendBit n) = false

/-- Source `n` shows in `t` what it shows in `s`. -/
def State.sourceSame (s t : State) (n : Nat) : Prop :=
  t.flag (fswBit n) = s.flag (fswBit n) ∧ t.fget (F.qchSrc1Cause n) = s.fget (F.qchSrc1Cause n) ∧
    t.flag (pendBit n) = s.flag (pendBit n)

theorem State.sourceClear_clearSource (hn : n < 64) (s : State) : (s.clearSource n).sourceClear n := by
  obtain ⟨hcause, -⟩ := held_qchSrc1 hn
  refine ⟨?_, ?_, ?_⟩
  · rw [State.clearSource, State.flag_fset_ne (fswBit_addr_ne_pendBit n n), State.flag_fset_self (held_fswBit hn) rfl]
  · rw [State.clearSource, State.fset, State.fget_fput_ne (pendBit_addr_ne_cause n n).symm, State.fset,
      State.fget_fput_ne (fswBit_addr_ne_cause n n).symm, State.fget_fput_self hcause, Nat.zero_mod]
  · rw [State.clearSource, State.flag_fset_self (held_pendBit hn) rfl]

/-- Two sources of one status word have bits of their own. -/
theorem fswBit_other (hi : i < 32) (hk : k < 32) (hik : i ≠ k) : (fswBit (32 * j + i)).addr = (fswBit (32 * j + k)).addr ∧
    (pendBit (32 * j + i)).addr = (pendBit (32 * j + k)).addr ∧ (32 * j + i) % 32 ≠ (32 * j + k) % 32 := by
  have hword : Nat.blt (32 * j + i) 32 = Nat.blt (32 * j + k) 32 := by
    rw [Bool.eq_iff_iff, Nat.blt_eq, Nat.blt_eq]
    omega
  refine ⟨?_, ?_, by omega⟩
  · simp only [fswBit, hword]
  · simp only [pendBit, hword]

theorem State.sourceSame_clearSource (hj : j < 2) (hi : i < 32) (hk : k < 32) (hik : i ≠ k) (s : State) :
    s.sourceSame (s.clearSource (32 * j + k)) (32 * j + i) := by
  have hn : 32 * j + i < 64 := by omega
  obtain ⟨hfsw, hpend, hbits⟩ := fswBit_other (j := j) hi hk hik
  have hapart : ∀ {a b : Nat}, a ≠ b → a + 1 ≤ b ∨ b + 1 ≤ a := fun h => by omega
  have hcause : (F.qchSrc1Cause (32 * j + i)).addr ≠ (F.qchSrc1Cause (32 * j + k)).addr := by
    rw [qchSrc1Cause_addr, qchSrc1Cause_addr]
    omega
  refine ⟨?_, ?_, ?_⟩
  · rw [State.clearSource, State.flag_fset_ne (fswBit_addr_ne_pendBit _ _),
      State.flag_fset_other (held_fswBit hn) hfsw (hapart hbits), State.flag_fput_ne (fswBit_addr_ne_cause _ _)]
  · rw [State.clearSource, State.fset, State.fget_fput_ne (pendBit_addr_ne_cause _ _).symm, State.fset,
      State.fget_fput_ne (fswBit_addr_ne_cause _ _).symm, State.fget_fput_ne hcause]
  · rw [State.clearSource, State.flag_fset_other (held_pendBit hn) hpend (hapart hbits),
      State.flag_fset_ne (fswBit_addr_ne_pendBit _ _).symm, State.flag_fput_ne (pendBit_addr_ne_cause _ _)]

/-- What a cleared source shows is what it showed, where its own turn has not come. -/
theorem State.sourceClear_of_same (hsame : s.sourceSame t n) (h : s.sourceClear n) : t.sourceClear n := by
  obtain ⟨hfsw, hcause, hpend⟩ := hsame
  obtain ⟨hfsw', hcause', hpend'⟩ := h
  exact ⟨hfsw.trans hfsw', hcause.trans hcause', hpend.trans hpend'⟩

theorem State.sourceSame_trans (hst : s.sourceSame t n) (htu : t.sourceSame u n) : s.sourceSame u n := by
  obtain ⟨hfsw, hcause, hpend⟩ := hst
  obtain ⟨hfsw', hcause', hpend'⟩ := htu
  exact ⟨hfsw'.trans hfsw, hcause'.trans hcause, hpend'.trans hpend⟩

/-- FAULT_N is driven by words of its own. -/
theorem State.sourceSame_driveFault (s : State) (n : Nat) : s.sourceSame s.driveFault n := by
  have hsts : F.qchStsFault.addr = 0x20004 ∧ 0x20010 ≤ (fswBit n).addr := by
    refine ⟨rfl, ?_⟩
    cases h : Nat.blt n 32 <;> simp only [fswBit, h, cond_true, cond_false, Reg.qchFsw0, Reg.qchFsw1] <;> decide
  have hpend := pendBit_addr n
  have hcause := qchSrc1Cause_addr n
  exact ⟨State.flag_fset_ne (f := F.qchStsFault) (by omega) s _, State.fget_fput_ne (f := F.qchStsFault) (by omega) s _,
    State.flag_fset_ne (f := F.qchStsFault) (by omega) s _⟩

theorem State.errorPins_eq {live : List (Nat × Nat)}
    (hlive : live = (rs.map (fun x => (x.1, s.liveCauses x.1 x.2))).filter (fun x => x.2 != 0 && Nat.blt x.1 64)) :
    s.errorPins rs = if live = [] then s else s.report live := by
  simp only [State.errorPins, ← hlive, Bool.cond_eq_ite, List.isEmpty_iff]

theorem State.errorPins_nil (s : State) : s.errorPins [] = s := rfl

theorem State.clearFsw_eq (s : State) (j w : Nat) (rs : List (Nat × Nat)) : s.clearFsw j w rs =
    ((eachOf ((List.range 32).filter (fun i => bitAt w i)) (fun i t =>
      if rs.any (fun x => x.1 == 32 * j + i && s.liveCauses x.1 x.2 != 0) then t.fput (F.qchSrc1Cause (32 * j + i)) 0
      else ((t.fput (F.qchSrc1Cause (32 * j + i)) 0).fset (fswBit (32 * j + i)) false).fset (pendBit (32 * j + i)) false)
      s).errorPins rs).driveFault := by
  have hturn : ∀ (i : Nat) (t : State), (t.fput (F.qchSrc1Cause (32 * j + i)) 0).when
        (!rs.any (fun x => x.1 == 32 * j + i && s.liveCauses x.1 x.2 != 0))
        (fun u => (u.fset (fswBit (32 * j + i)) false).fset (pendBit (32 * j + i)) false)
      = if rs.any (fun x => x.1 == 32 * j + i && s.liveCauses x.1 x.2 != 0) then t.fput (F.qchSrc1Cause (32 * j + i)) 0
        else ((t.fput (F.qchSrc1Cause (32 * j + i)) 0).fset (fswBit (32 * j + i)) false).fset (pendBit (32 * j + i)) false := by
    intro i t
    cases rs.any (fun x => x.1 == 32 * j + i && s.liveCauses x.1 x.2 != 0) <;> rfl
  simp only [State.clearFsw, hturn]

/-- Without reports a write clears the sources that it names. -/
theorem State.clearFsw_nil (s : State) (j w : Nat) : s.clearFsw j w []
    = (eachOf ((List.range 32).filter (fun i => bitAt w i)) (fun i t => t.clearSource (32 * j + i)) s).driveFault := rfl

/-- What one listed element's turn brings about and the turn of every listed one keeps holds at the end. -/
theorem eachOf_established_of_mem {α : Type} {P : State → Prop} {f : α → State → State} {l : List α} {x : α} (hx : x ∈ l)
    (hset : ∀ t, P (f x t)) (hkeep : ∀ y ∈ l, ∀ t, P t → P (f y t)) (s : State) : P (eachOf l f s) := by
  obtain ⟨before, after, hl⟩ := List.append_of_mem hx
  rw [hl, eachOf, List.foldl_append, List.foldl_cons]
  exact eachOf_invariant (hset _) fun y hy => hkeep y (by simp [hl, hy])

theorem State.clearFsw_shown (hj : j < 2) (hi : i < 32) (s : State) (w : Nat) :
    (bitAt w i = true → (s.clearFsw j w []).sourceClear (32 * j + i)) ∧
    (bitAt w i = false → s.sourceSame (s.clearFsw j w []) (32 * j + i)) := by
  have hlisted : ∀ k, k ∈ (List.range 32).filter (fun i => bitAt w i) ↔ k < 32 ∧ bitAt w k = true := fun k => by simp
  rw [State.clearFsw_nil]
  constructor
  · intro hset
    refine State.sourceClear_of_same (State.sourceSame_driveFault _ _) ?_
    refine eachOf_established_of_mem (P := fun t => t.sourceClear (32 * j + i)) ((hlisted i).mpr ⟨hi, hset⟩)
      (fun t => State.sourceClear_clearSource (by omega) t) (fun k hk t ht => ?_) s
    by_cases hik : i = k
    · exact hik ▸ State.sourceClear_clearSource (by omega) t
    · exact State.sourceClear_of_same (State.sourceSame_clearSource hj hi ((hlisted k).mp hk).1 hik t) ht
  · intro hclear
    refine State.sourceSame_trans ?_ (State.sourceSame_driveFault _ _)
    refine eachOf_invariant (P := fun t => s.sourceSame t (32 * j + i)) ⟨rfl, rfl, rfl⟩ fun k hk t ht => ?_
    obtain ⟨hk32, hset⟩ := (hlisted k).mp hk
    have hik : i ≠ k := fun h => by
      rw [← h, hclear] at hset
      cases hset
    exact State.sourceSame_trans ht (State.sourceSame_clearSource hj hi hk32 hik t)

/-! ### Grace timers and recoveries (R419 to R424) -/

theorem State.quietEnds_of_quiet (ht : t = s.errorPins rs) (hst : t.fget (F.qchUnitState k) = 1)
    (hnone : s.reportsUnit k rs = false) : s.quietEnds k rs = t.recoverUnit k true := by
  have hgo : (t.fget (F.qchUnitState k) == 1 && !s.reportsUnit k rs) = true := by rw [hst, hnone]; rfl
  simp only [State.quietEnds, ← ht, State.when_true hgo]

theorem State.quietEnds_of_not (ht : t = s.errorPins rs) (h : t.fget (F.qchUnitState k) ≠ 1 ∨ s.reportsUnit k rs = true) :
    s.quietEnds k rs = t := by
  have hstay : (t.fget (F.qchUnitState k) == 1 && !s.reportsUnit k rs) = false := by
    rcases h with h | h <;> simp [h]
  simp only [State.quietEnds, ← ht, State.when_false hstay]

/-- The RECOVER bit of the written word is set. -/
theorem bitAt_recover (w : Nat) : bitAt (w ||| 4) 2 = true := by
  rw [bitAt, Nat.testBit_or, show (4 : Nat) = 2 ^ 2 from rfl, Nat.testBit_two_pow_self, Bool.or_true]

theorem State.writeUnit_of_latched (hst : s.fget (F.qchUnitState k) = 2) (hsafe : s.flag F.qchStsFatal = false) :
    s.writeUnit k (w ||| 4) = s.recoverUnit k false :=
  State.when_true (by rw [bitAt_recover, hst, hsafe]; rfl) _ _

theorem State.writeUnit_of_not (h : s.fget (F.qchUnitState k) ≠ 2 ∨ s.flag F.qchStsFatal = true) :
    s.writeUnit k (w ||| 4) = s := by
  refine State.when_false ?_ _ _
  rcases h with h | h <;> simp [h]

/-- The grace timers among `ns` that run. -/
def State.dueTimers (s : State) (ns : List Nat) : List Nat := ns.filter (fun n => Nat.blt n 64 && s.flag (pendBit n))

theorem State.mem_dueTimers : n ∈ s.dueTimers ns ↔ n ∈ ns ∧ n < 64 ∧ s.flag (pendBit n) = true := by
  simp only [State.dueTimers, List.mem_filter, Bool.and_eq_true, Nat.blt_eq]

/-- A RECOVER write without grace timers that expire with it. -/
theorem exec_recover_of_none (hready : s.ready 0 = true) (hnone : ∀ n ∈ ns, n < 64 → s.flag (pendBit n) = false) :
    exec (.recover k ⟨w, ns⟩) s = .next (s.writeUnit k (w ||| 4)) := by
  have hdue : (ns.filter (fun n => Nat.blt n 64 && s.flag (pendBit n))).isEmpty = true := by
    refine List.isEmpty_iff.mpr (List.eq_nil_iff_forall_not_mem.mpr fun n hn => ?_)
    obtain ⟨hmem, hlt, hset⟩ := State.mem_dueTimers.mp hn
    rw [hnone n hmem hlt] at hset
    cases hset
  rw [exec, execRecover, State.atDom_ready hready]
  simp only [hdue, cond_true]

/-- A RECOVER write in the handshake of grace timers, whose reactions are taken first. -/
theorem exec_recover_of_due (hready : s.ready 0 = true) (hn : n ∈ ns) (hlt : n < 64) (hset : s.flag (pendBit n) = true) :
    exec (.recover k ⟨w, ns⟩) s = .next ((s.graceExpire ns).when (!(s.dueTimers ns).any (fun n => s.targetOf n == k))
      (·.writeUnit k (w ||| 4))) := by
  have hdue : (ns.filter (fun n => Nat.blt n 64 && s.flag (pendBit n))).isEmpty = false :=
    List.isEmpty_eq_false_iff.mpr (List.ne_nil_of_mem (State.mem_dueTimers.mpr ⟨hn, hlt, hset⟩))
  rw [exec, execRecover, State.atDom_ready hready]
  simp only [hdue, cond_false]
  rfl

theorem State.dueTimers_target (hn : n ∈ ns) (hlt : n < 64) (hset : s.flag (pendBit n) = true) (htarget : s.targetOf n = k) :
    (!(s.dueTimers ns).any (fun n => s.targetOf n == k)) = false := by
  have hany : (s.dueTimers ns).any (fun n => s.targetOf n == k) = true :=
    List.any_eq_true.mpr ⟨n, State.mem_dueTimers.mpr ⟨hn, hlt, hset⟩, beq_iff_eq.mpr htarget⟩
  rw [hany, Bool.not_true]

theorem State.dueTimers_no_target (h : ∀ m ∈ ns, m < 64 → s.flag (pendBit m) = true → s.targetOf m ≠ k) :
    (!(s.dueTimers ns).any (fun n => s.targetOf n == k)) = true := by
  have hany : (s.dueTimers ns).any (fun n => s.targetOf n == k) = false := by
    rw [List.any_eq_false]
    intro m hm
    obtain ⟨hmem, hlt, hset⟩ := State.mem_dueTimers.mp hm
    simpa using h m hmem hlt hset
  rw [hany, Bool.not_false]

/-! ### Writes of QCH_CTL and QCH_INJ, ALIVE (R417, R425, R427, R428) -/

/-- A write of QCH_CTL clears FIRST_V before SW_FATAL reports. -/
theorem State.writeQchCtl_eq (ht : t = s.store Reg.qchCtl w)
    (hu : u = (if t.flag F.qchCtlAliveEn then t.showAlive else t.aliveLow)) : s.writeQchCtl w
      = (u.when (bitAt w 2) (·.fset F.qchStsFirstV false)).when (bitAt w 3) (·.errorPins [(63, 1)]) := by
  have hu' : (bif t.flag F.qchCtlAliveEn then t.showAlive else t.aliveLow) = u := by rw [hu, Bool.cond_eq_ite]
  simp only [State.writeQchCtl, ← ht, hu']

theorem State.writeInj_of_valid (harm : s.flag F.qchInjArm = false)
    (hcause : bitsOf w 8 3 < injectionCauses (bitsOf w 0 6)) (hbits : bitsOf w 12 2 = 1 ∨ bitsOf w 12 2 = 2) :
    s.writeInj w = s.wr Reg.qchInj w := by
  rcases hbits with h | h <;> simp only [State.writeInj, harm, Nat.blt_eq.mpr hcause, h] <;> rfl

theorem State.writeInj_of_ignored (h : s.flag F.qchInjArm = true ∨ injectionCauses (bitsOf w 0 6) ≤ bitsOf w 8 3 ∨
    bitsOf w 12 2 = 0 ∨ bitsOf w 12 2 = 3) : s.writeInj w = s := by
  have hignored : (s.flag F.qchInjArm || !Nat.blt (bitsOf w 8 3) (injectionCauses (bitsOf w 0 6)) || bitsOf w 12 2 == 0
      || bitsOf w 12 2 == 3) = true := by
    rcases h with h | h | h | h
    · simp [h]
    · have hblt : Nat.blt (bitsOf w 8 3) (injectionCauses (bitsOf w 0 6)) = false := by
        rw [Bool.eq_false_iff, ne_eq, Nat.blt_eq]
        exact Nat.not_lt.mpr h
      simp [hblt]
    · simp [h]
    · simp [h]
  simp only [State.writeInj, hignored, cond_true]

theorem State.showAlive_of_toggling (hpll : s.flag F.invStsPllLock = true) (hstarted : s.inv.started = true)
    (hen : s.flag F.qchCtlAliveEn = true) (hsafe : s.flag F.qchStsFatal = false) :
    s.showAlive = (s.fset F.qchStsAlive true).pin Pin.alive (if s.nsec % 1000000 < 500000 then 2 else 1) := by
  have hlevel : (bif Nat.blt (s.nsec % 1000000) 500000 then 2 else 1) = if s.nsec % 1000000 < 500000 then 2 else 1 := by
    rw [Bool.cond_eq_ite]
    simp only [Nat.blt_eq]
  rw [State.showAlive, hpll, hstarted, hen, hsafe, hlevel]
  rfl

theorem State.showAlive_of_still (h : s.flag F.invStsPllLock = false ∨ s.inv.started = false ∨
    s.flag F.qchCtlAliveEn = false ∨ s.flag F.qchStsFatal = true) : s.showAlive = s := by
  have hstill : (s.flag F.invStsPllLock && s.inv.started && s.flag F.qchCtlAliveEn && !s.flag F.qchStsFatal) = false := by
    rcases h with h | h | h | h <;> simp [h]
  rw [State.showAlive, hstill, cond_false]

end Quench

/-- Settles O58: the recorded report by the words it stores, the write that clears source by source, the rest command by
command. -/
theorem quenchLatchesReactsAndRecovers : Obligations.QuenchLatchesReactsAndRecovers := by
  refine ⟨fun s t n c hn _ ht => ht ▸ State.latchOne_shown hn s c, fun s hready rs j w u ns => ?_,
    fun s hoff rs j w u ns => ?_, fun s rs live hlive => State.errorPins_eq hlive, fun s ns due hdue => ?_,
    fun s t j w hj ht i n hi hn => ?_, State.clearFsw_eq, fun s t u w ht hu => ?_,
    fun s w => ⟨State.writeInj_of_valid, State.writeInj_of_ignored⟩,
    fun s => ⟨State.showAlive_of_toggling, State.showAlive_of_still⟩⟩
  · have hact : ∀ {f : State → State} {u : State}, f s = u →
        (Host.Outcome.next (s.atDom 0 f) : Host.Outcome State Fault Refusal) = .next u := fun h =>
      congrArg Host.Outcome.next ((State.atDom_ready hready _).trans h)
    refine ⟨hact rfl, hact rfl, hact rfl, fun t ht => ⟨fun hst hnone => hact (State.quietEnds_of_quiet ht hst hnone),
        fun h => hact (State.quietEnds_of_not ht h)⟩, fun hnone => ⟨fun hst hsafe => ?_, fun h => ?_⟩,
      fun n v hn hlt hset hv => ⟨fun htarget => ?_, fun hothers hst hsafe => ?_⟩, hact rfl,
      fun h => hact (State.when_true h s _), fun h => hact (State.when_false h s _), hact rfl, hact rfl, hact rfl, hact rfl⟩
    · rw [exec_recover_of_none hready hnone, State.writeUnit_of_latched hst hsafe]
    · exact (exec_recover_of_none hready hnone).trans (congrArg Host.Outcome.next (State.writeUnit_of_not h))
    · rw [exec_recover_of_due hready hn hlt hset, State.when_false (State.dueTimers_target hn hlt hset htarget), hv]
    · rw [exec_recover_of_due hready hn hlt hset, State.when_true (State.dueTimers_no_target hothers), ← hv,
        State.writeUnit_of_latched hst hsafe]
  · have hstay := fun f => congrArg (Host.Outcome.next (φ := Fault) (ρ := Refusal)) (State.atDom_off hoff f)
    exact ⟨hstay _, hstay _, hstay _, hstay _, hstay _, hstay _, hstay _, hstay _, hstay _, hstay _, hstay _⟩
  · rw [hdue]
    rfl
  · rw [ht, hn]
    exact State.clearFsw_shown hj hi s w
  · rw [State.writeQchCtl_eq ht hu]
    exact ⟨fun hfirst hfatal => by rw [State.when_false hfatal, State.when_false hfirst],
      fun hfirst hfatal => by rw [State.when_false hfatal, State.when_true hfirst],
      fun hfirst hfatal => by rw [State.when_true hfatal, State.when_false hfirst],
      fun hfirst hfatal => by rw [State.when_true hfatal, State.when_true hfirst]⟩

end Sys2Proof.Machine
end
